-- ==== Sys2Proof/Word.lean ====
section
/-! DEFINITION. The words of the model: bytes of a memory, the 64-bit words of the flow cores, and byte strings. -/

namespace Sys2Proof

/-- One byte of a memory or of a message. -/
abbrev Byte := BitVec 8

/-- A flow core's 64-bit word. -/
abbrev Word := BitVec 64

end Sys2Proof
end

