-- ==== Sys2Proof/Syntax.lean ====
section
/-! DEFINITION. The commands the block takes: one constructor per row of spec/opcode_table.json. The operands are what
the sender of the command brings with it: who sends it, which register, object or unit it names, and the values that
come from outside the block (data of a message, a reading, the result of a test, a pin's level). -/

namespace Sys2Proof

/-- Who sends a register access: the host over PCIe, the management core, or a thread of slice 0 on a flow core
(00_scope.md R15, R16; 17_flow_cores.md R439). -/
inductive Req where
  | host
  | mgmt
  | flow
  deriving DecidableEq, Repr

/-- What the error decoder finds in a memory word besides poison stored in it (04_memories_ecc.md R99): nothing, a
single-bit error or an uncorrectable error, each with its syndrome. -/
inductive EccFind where
  | good
  | single (syn : Nat)
  | double (syn : Nat)
  deriving DecidableEq, Repr

/-- A memory of the device: the HBM, or an SRAM of the inventory by block code and instance (04_memories_ecc.md). -/
inductive MemName where
  | hbm
  | sram (block inst : Nat)
  deriving DecidableEq, Repr

/-- An access to a memory: a read of so many bytes, or a write of bytes that the device may hold poisoned (R100). -/
inductive MemOp where
  | read (n : Nat)
  | write (data : List Byte) (bad : Bool)
  deriving DecidableEq, Repr

/-- At which moment of a programming sequence the power is lost (03_boot_images.md R89): outside any; in update step 1,
with the state sector erased or not; in steps 2 and 3 before WRITTEN; while WRITTEN is programmed; in the read-back of
step 4; while VALID is programmed; in step 6. `done` says whether the byte being programmed completed. -/
inductive LossPoint where
  | idle
  | step1 (erased : Bool)
  | program
  | written (done : Bool)
  | readBack
  | valid (done : Bool)
  | retire (done : Bool)
  deriving DecidableEq, Repr

/-- Errors a function reports by AER (05_host_interface.md, table Errors the functions report). -/
inductive AerErr where
  | receiver | badTlp | badDllp | replayTimeout | replayRollover | advisory | correctedInternal | headerOverflow
  | poisonedTlp | completionTimeout | unexpectedCompletion | unsupportedRequest
  | dataLink | flowControl | receiverOverflow | malformedTlp | uncorrectableInternal
  deriving DecidableEq, Repr

/-- What the MAC finds at the tail of a received frame (08_network_ports.md R218): a right FCS, a wrong one, the bitwise
inverse of the computed one, or an FEC, PCS or signal error inside the frame. -/
inductive Fcs where
  | good
  | wrong
  | stomp
  | pcs
  deriving DecidableEq, Repr


/-- A register of a function's configuration space that the model holds (05_host_interface.md, table Capabilities and
supported fields): the identity registers, the fields software changes, and the BARs. -/
inductive CfgReg where
  | vendorId | deviceId | revisionId | classCode | subsysVendor | subsysId | serial
  | memoryEnable | busMasterEnable | powerState | bar (n : Fin 6)
  | maxPayload | maxReadRequest | relaxedOrdering | completionTimeout | initiateFlr
  | msixTableSize | msixEnable | msixFunctionMask | atsEnable | pasidEnable | aerStatus
  deriving DecidableEq, Repr

/-- A request that a function receives (05_host_interface.md, table Inbound request handling): a memory read or write at
an address, or a request that the device does not support. -/
inductive InReq where
  | memRead (addr len : Nat)
  | memWrite (addr : Nat) (data : List Byte) (poison : Bool)
  | io | lockedRead | atomic | configType1 | vendorMessage
  deriving DecidableEq, Repr

/-- Status of a completion that the device receives (R138): successful, Unsupported Request, Completer Abort, Request
Retry Status. -/
inductive CplSt where
  | success | unsupported | abort | retry
  deriving DecidableEq, Repr
/-- The commands: one constructor per row of the table of operations and events, in its order. -/
inductive Instr where
  /-- REGISTER_WRITE (R9). A write to a set-up register that has no row of its own sets its fields under the access codes, ownership and boot-lock rules. -/
  | registerWrite (req : Req) (off size value : Nat)
  /-- LOW_HALF_WRITE (R15). A low-half write to a 64-bit register places the value and the register in the requester's write-side holding register. -/
  | lowHalfWrite (req : Req) (off value : Nat)
  /-- HIGH_HALF_WRITE (R15). A high-half write applies all 64 bits when the write side names the register, and otherwise applies with the low half unchanged. -/
  | highHalfWrite (req : Req) (off value : Nat)
  /-- LOW_HALF_READ (R15). A low-half read captures the register's high half into the requester's read-side holding register. -/
  | lowHalfRead (req : Req) (off : Nat)
  /-- HIGH_HALF_READ (R15). A high-half read returns the captured value and empties the read side, or returns the live value. -/
  | highHalfRead (req : Req) (off : Nat)
  /-- RC_READ (R9). A read of an RC field returns its value and clears it, unless the device sets it in the same clock. -/
  | rcRead (req : Req) (off size : Nat)
  /-- HOST_HEARTBEAT (R40). A host write to GLB_HOST_HB is a heartbeat that restarts the lapse measurement and clears lapsed. -/
  | hostHeartbeat (req : Req) (value : Nat)
  /-- HB_CFG_WRITE (R40). A management write of timeout_ms applies at once to the running lapse measurement; a value of 0 clears lapsed. -/
  | hbCfgWrite (req : Req) (value : Nat)
  /-- HEARTBEAT_LAPSE (R40). The millisecond-wheel timer sets lapsed when timeout_ms passes without a heartbeat. -/
  | heartbeatLapse
  /-- SEIZE (R41). A management write of seize moves every host-owned block to the management side when lapsed is 1, and otherwise sets seize_refused. -/
  | seize (req : Req)
  /-- OWNER_WRITE (R43). The current owner writes a block's owner field, and a return to the host clears seized. -/
  | ownerWrite (req : Req) (base value : Nat)
  /-- FT_SNAP (R19). A write of snap captures the full 96-bit FT into FT_SNAP_SEC and FT_SNAP_NS in one core clock. -/
  | ftSnap (req : Req)
  /-- FT_SOURCE_CHANGE (R48). A write of FT_CTRL.source sets the FT state at once from the new source; source 3 discards the whole write. -/
  | ftSourceChange (req : Req) (value : Nat)
  /-- FT_RATE_WRITE (R49). A write of FT_RATE sets the clamped frequency offset, and is discarded while source is 2. -/
  | ftRateWrite (req : Req) (value : Nat)
  /-- STEP_GO (R53). A write of step_go adds FT_STEP_NS to FT on every local copy in one core clock, unless it is refused. -/
  | stepGo (req : Req)
  /-- SET_GO (R53). A write of set_go sets FT to FT_SET_SEC and FT_SET_NS in one core clock, unless it is refused. -/
  | setGo (req : Req)
  /-- FT_MBOX_STATE (R469). A slice 0 flow-core write of FCR_FT_MBOX.state sets FT_STATUS.state while the source is the software servo. -/
  | ftMboxState (req : Req) (core : Fin 64) (value : Nat)
  /-- PPS_EDGE (R50). At each PPS edge the hardware servo computes err and steps, slews or changes the lock state. -/
  | ppsEdge (edge : Int) (rate : Int)
  /-- PPS_LOST (R51). When no PPS edge arrives within 1.1 s the device enters holdover, sets pps_lost and writes an FT_ event. -/
  | ppsLost
  /-- REF_LOST (R51). When the 10 MHz reference is absent for 2 µs the device enters holdover, sets ref_lost and writes an FT_ event. -/
  | refLost
  /-- LAUNCH_PREFETCH (R59). When FT reaches launch minus prefetch_us, the ring engine fetches a staged descriptor's payload. -/
  | launchPrefetch (r : Fin 65536)
  /-- LAUNCH_RELEASE (R60). A level-0 comparator releases a launch-timed descriptor at its launch time, judging lateness under late_ns and late_action. -/
  | launchRelease (r : Fin 65536)
  /-- WDOG_KICK (R62). A write of kick restarts a watchdog's period. -/
  | wdogKick (req : Req) (w : Fin 16)
  /-- WDOG_EXPIRE (R62). A watchdog expires, takes its action once, writes an FT_ event, sets expired and stops. -/
  | wdogExpire (w : Fin 16)
  /-- EPOCH_GO (R63). A write of go checks the armed units and T, then starts the epoch in collecting or refuses it. -/
  | epochGo (req : Req)
  /-- EPOCH_CANCEL (R65). A write of cancel during collecting aborts the epoch with result 4. -/
  | epochCancel (req : Req)
  /-- UNIT_ACK (R64). An armed unit freezes and checks its staged values and acknowledges; the last acknowledgement moves the controller to committed. -/
  | unitAck (unit : Fin 128)
  /-- EPOCH_REFUSE (R64). An armed unit that finds a staged value illegal records its cause and aborts the epoch with result 3. -/
  | epochRefuse (unit : Fin 128)
  /-- EPOCH_DEADLINE (R65). At T minus 10 µs, with an acknowledgement missing, the controller aborts the epoch with result 2. -/
  | epochDeadline
  /-- EPOCH_APPLY (R65). At T every armed unit switches to its staged values on its comparator, and num increments. -/
  | epochApply (failing : List Nat)
  /-- ISLAND_POWER_ON (R70). The always-on island starts from its own rail and resets its log and cause registers. -/
  | islandPowerOn
  /-- AON_RESET (R550). AON_RST# rising releases the island and samples the management address and NC-SI package straps. -/
  | aonReset (addr : Fin 128) (pkg : Fin 8)
  /-- MAIN_POWER_GOOD (R551). The main domain leaves reset at main power-good and the security processor starts its ROM flow. -/
  | mainPowerGood (bif0 : Bool) (bif1 : Bool) (romOk : Bool)
  /-- FILL_DONE (R104). The HBM and SRAM initial fill completes, or sets fill_err and fails the attempt. -/
  | fillDone (ok : Bool) (us : Nat) (bankFail : Nat) (xbarFail : Bool)
  /-- MAIN_RELEASE (R70). Once the fill is done and segment 0 is loaded, the security processor releases the main domain with the cuff closed. -/
  | mainRelease
  /-- SEGMENT_LOADED (R79). A segment finishes loading and its seg_done bit is set. -/
  | segmentLoaded (n : Fin 16)
  /-- CUFF_OPEN (R80). When the image tag matches, every cuff hold releases in one core clock and the tried bits clear. -/
  | cuffOpen
  /-- BOOT_ATTEMPT_FAIL (R81). A boot attempt that fails resets the other main-domain blocks, counts the failure and selects again. -/
  | bootAttemptFail (status : Nat)
  /-- UPD_BEGIN (R84). Checks the header, key, signature, secver and seq, then retires and erases the target slot. -/
  | updBegin (req : Req) (flashOk : Bool)
  /-- UPD_DATA (R96). Writes the next 4 KiB body chunk in order into the target slot and feeds the digest and tag units. -/
  | updData (req : Req) (flashOk : Bool)
  /-- UPD_END (R86). Checks the body digest, writes the tagged header, reads the image back and programs the slot VALID. -/
  | updEnd (req : Req) (readOk : Bool)
  /-- UPD_ABORT (R88). Ends the running update session. -/
  | updAbort (req : Req)
  /-- UPD_TIMEOUT (R88). An update session with no command for 10 s ends as if aborted. -/
  | updTimeout
  /-- ACTIVATE (R87). Requests the main-domain reset that starts a new image. -/
  | activate (req : Req)
  /-- FUSE_COMMIT (R90). A mailbox request, accepted only with the cuff open, raises the fuse counter to the running image's secver. -/
  | fuseCommit (req : Req)
  /-- FUSE_DEADLINE (R90). commit_after_s after the cuff opens, the second wheel starts an automatic fuse commit. -/
  | fuseDeadline
  /-- FUSE_BLOWN (R91). One fuse is blown and verified in 100 µs and the next one starts, unless brace defers the commit. -/
  | fuseBlown
  /-- SLOT_QUERY (R94). Writes both slot state words and headers into the mailbox buffer. -/
  | slotQuery (req : Req)
  /-- KEY_REVOKE (R95). Blows a key row's revoke fuse, unless the row is in use or is the last one. -/
  | keyRevoke (req : Req) (row : Fin 4)
  /-- MEM_ACCESS (R102). A memory access is served with SECDED correction, narrow read-modify-write, poison propagation and range refusal. -/
  | memAccess (m : MemName) (addr : Nat) (op : MemOp) (found : EccFind)
  /-- CE_WINDOW (R108). The corrected-error window of ce_window_ms ends and the count restarts. -/
  | ceWindow
  /-- PATROL_READ (R99). The patrol scrubber reads the next word and corrects it under the read rule. -/
  | patrolRead (m : MemName) (word : Nat) (found : EccFind)
  /-- SCRUB_GO (R106). Starts a range scrub, unless the range is illegal or a scrub already runs. -/
  | scrubGo (req : Req)
  /-- SCRUB_ABORT (R107). Ends the running range scrub within 1 µs with status scrub_aborted. -/
  | scrubAbort (req : Req)
  /-- SCRUB_DONE (R107). A range scrub ends, writes its summary record and raises a scrub-done event. -/
  | scrubDone (finds : List (Nat × EccFind))
  /-- TCAM_SWEEP (R111). The sweeper checks one TCAM entry's parity and disables the entry when it fails. -/
  | tcamSweep (parityOk : Bool)
  /-- TCAM_RESTORE (R111). A disabled entry is rewritten from its shadow, or stays disabled with a TCAM-lost event when the shadow is bad. -/
  | tcamRestore (shadowOk : Bool)
  /-- SPARE_GO (R113). Starts copying a pseudo-channel into the spare rows, or completes spare_none and fences the channel. -/
  | spareGo (req : Req) (pc : Fin 64)
  /-- SPARE_DONE (R113). The sparing copy completes and the pseudo-channel becomes spared. -/
  | spareDone
  /-- LINK_TRAIN_RETRY (R116). A PCIe link left down with no_flit starts training again every 100 ms. -/
  | linkTrainRetry (hif : Fin 2) (link : Fin 2)
  /-- DL_ACTIVE (R153). A PCIe link enters DL_Active and its functions may become ready. -/
  | dlActive (hif : Fin 2) (link : Fin 2) (flitMode : Bool) (rate : Fin 16) (width : Fin 32)
  /-- READINESS_MESSAGE (R153). Within 1 ms the device sends a Device or Function Readiness Status message. -/
  | readinessMessage
  /-- LINK_DOWN (R149). A link leaving DL_Active, by PERST#, hot reset, removal or failure, acts as FLR on its functions with host_link_down. -/
  | linkDown (hif : Fin 2) (link : Fin 2)
  /-- CONFIG_REQUEST (R137). A configuration request to a function is completed, or answered with Request Retry Status while the function is not ready. -/
  | configRequest (hif : Fin 2) (pf : Fin 8) (reg : CfgReg) (write : Option Nat)
  /-- BME_CLEAR (R143). Clearing Bus Master Enable stops the function's requests, stops its host rings, advances its generation and drops queued requests. -/
  | bmeClear (hif : Fin 2) (pf : Fin 8)
  /-- BME_SET (R146). Setting Bus Master Enable allows new requests under the new generation. -/
  | bmeSet (hif : Fin 2) (pf : Fin 8)
  /-- HELD_REQUEST_ISSUE (R560). Held requests are issued in order once the cuff is open and Bus Master Enable is 1. -/
  | heldRequestIssue (hif : Fin 2) (pf : Fin 8)
  /-- FLR (R147). Function Level Reset does what BME clear does with func_reset, resets the function's slices, clears its ATS entries and resets its MSI-X. -/
  | flr (hif : Fin 2) (pf : Fin 8)
  /-- FLR_DONE (R147). FLR finishes and flr_busy clears. -/
  | flrDone (hif : Fin 2) (pf : Fin 8)
  /-- D3HOT_ENTER (R148). A function placed in D3hot behaves as after BME clear and keeps its slices. -/
  | d3hotEnter (hif : Fin 2) (pf : Fin 8)
  /-- D3HOT_TO_D0 (R148). A return to D0 resets the function as FLR does. -/
  | d3hotToD0 (hif : Fin 2) (pf : Fin 8)
  /-- ATS_DISABLE (R132). Disabling ATS removes all of the function's translation cache entries. -/
  | atsDisable (hif : Fin 2) (pf : Fin 8)
  /-- TRANSLATION_COMPLETION (R128). A translation completion is cached and used, fails the work with ats_fault, or is reissued when stale. -/
  | translationCompletion (hif : Fin 2) (pf : Fin 8) (id : Nat) (granted : Bool) (target size : Nat) (rd wr : Bool)
  /-- INVALIDATION_REQUEST (R129). An Invalidation Request removes matching cache entries and marks matching outstanding translations stale. -/
  | invalidationRequest (hif : Fin 2) (pf : Fin 8) (itag : Fin 32) (pasid : Option (Fin 1048576)) (global_ : Bool) (addr size : Nat)
  /-- INVALIDATION_COMPLETION (R129). Once reads under removed entries have ended, the device sends the Invalidation Completion. -/
  | invalidationCompletion (hif : Fin 2) (pf : Fin 8)
  /-- MSIX_FIRE (R134). A vector fires and sends its message, or sets its pending bit while it is held. -/
  | msixFire (hif : Fin 2) (pf : Fin 8) (vector : Fin 4096)
  /-- MSIX_UNMASK (R134). A vector becoming sendable with its pending bit set sends one message and clears the bit. -/
  | msixUnmask (hif : Fin 2) (pf : Fin 8) (vector : Fin 4096)
  /-- MSIX_TABLE_ACCESS (R136). An access to the MSI-X table or pending-bit array is performed when it is 4 or 8 bytes and aligned, and is otherwise counted in bad_size. -/
  | msixTableAccess (hif : Fin 2) (pf : Fin 8) (off size : Nat) (write : Option Nat)
  /-- INBOUND_REQUEST (R137). A received memory, I/O, atomic or message request is performed or answered as the inbound table states. -/
  | inboundRequest (hif : Fin 2) (pf : Fin 8) (rq : InReq)
  /-- BAR4_ACCESS (R409). A BAR4 access is translated through a host-to-socket window, or receives Unsupported Request. -/
  | bar4Access (hif : Fin 2) (pf : Fin 8) (off len : Nat) (write : Option (List Byte))
  /-- READ_COMPLETION (R138). A completion for a device read is used, fails the work, or is discarded as unexpected or late. -/
  | readCompletion (hif : Fin 2) (pf : Fin 8) (tag : Nat) (status : CplSt) (poison : Bool) (data : List Byte)
  /-- CPL_TIMEOUT (R142). A read's completion timeout expires and the read fails with cpl_timeout. -/
  | cplTimeout (hif : Fin 2) (pf : Fin 8) (tag : Nat)
  /-- SLICE_ACTIVATE (R158). ACTIVATE checks the binding of a FREE slice and makes it ACTIVE. -/
  | sliceActivate (req : Req) (slice : Fin 4096)
  /-- SLICE_RESET (R174). A RESET command, or a reset cause, starts the slice reset sequence. -/
  | sliceReset (req : Req) (slice : Fin 4096)
  /-- SLICE_REMOVE (R174). REMOVE starts the slice removal sequence. -/
  | sliceRemove (req : Req) (slice : Fin 4096)
  /-- SLICE_GEN_ADVANCE (R171). When the last orphan tag blocking it is freed, the slice generation advances and steps 2 to 8 follow. -/
  | sliceGenAdvance (slice : Fin 4096)
  /-- SLICE_SEQUENCE_END (R174). Once revokes and zeroisations have completed, the resources return to their pools and the slice becomes ACTIVE or FREE with an SLC_ event. -/
  | sliceSequenceEnd (slice : Fin 4096)
  /-- PAGE_CLEAR_DONE (R176). A released HBM page has been zeroed and returns to pool 8. -/
  | pageClearDone
  /-- QUOTA_WRITE (R164). A write of SLC_QUOTA applies, or is discarded with reserve_over. -/
  | quotaWrite (req : Req) (slice : Fin 4096) (pool : Fin 16) (value : Nat)
  /-- EVRING_WRITE (R178). A write of evring_en takes effect only for a type 2 ring of the slice. -/
  | evringWrite (req : Req) (slice : Fin 4096) (value : Nat)
  /-- RING_CREATE (R183). CREATE checks the staged context and allocates a DISABLED ring. -/
  | ringCreate (req : Req) (ring : Fin 65536)
  /-- RING_ENABLE (R184). ENABLE loads the staged context and moves a DISABLED ring to ACTIVE. -/
  | ringEnable (req : Req) (ring : Fin 65536)
  /-- RING_DISABLE (R184). DISABLE moves a ring to STOPPING, with or without flush, or makes a STOPPED ring DISABLED. -/
  | ringDisable (req : Req) (ring : Fin 65536) (flush : Bool)
  /-- RING_DESTROY (R184). DESTROY unmaps a DISABLED ring's page, returns it to pool 0 and frees its ID. -/
  | ringDestroy (req : Req) (ring : Fin 65536)
  /-- RING_READ (R184). READ copies a ring's context into the stage. -/
  | ringRead (req : Req) (ring : Fin 65536)
  /-- RING_DRAINED (R184). The last started descriptor of a STOPPING ring completes and the ring becomes DISABLED. -/
  | ringDrained (r : Fin 65536)
  /-- RING_HUSK_LOADED (R182). A ring context's husk load completes and the waiting doorbell, completion or WAIT proceeds. -/
  | ringHuskLoaded (r : Fin 65536)
  /-- RING_EVICT (R182). An idle ring context is evicted to its husk when a load needs a resident entry. -/
  | ringEvict (r : Fin 65536)
  /-- DOORBELL_POST (R187). A post doorbell advances the ring's tail, or is discarded and counted. -/
  | doorbellPost (hif : Fin 2) (pf : Fin 8) (page : Fin 4096) (gen : Fin 256) (count : Nat)
  /-- DOORBELL_ACK (R207). An acknowledge doorbell records the consumed count and re-arms interrupts. -/
  | doorbellAck (hif : Fin 2) (pf : Fin 8) (page : Fin 4096) (gen : Fin 256) (count : Nat)
  /-- DESCRIPTOR_READ (R195). A descriptor read returns, or its failure stops the ring with RNG_ event 0x0001. -/
  | descriptorRead (r : Fin 65536)
  /-- DESCRIPTOR_START (R190). The ring engine checks phase, slice, generation, opcode and launch, allocates a tag and starts the entry. -/
  | descriptorStart (ring : Fin 65536)
  /-- REFETCH (R194). A covered entry read with phase 0 is read again, and the ring stops with ring_phase after refetch_max reads. -/
  | refetch (r : Fin 65536)
  /-- NOP (R179). Completes with success and a byte count of 0. -/
  | nop (r : Fin 65536)
  /-- WAIT (R200). Starts waiting for another ring's cpl_count to reach the target count. -/
  | wait (r : Fin 65536)
  /-- WAIT_SATISFIED (R200). The watched count reaches the target and the WAIT completes with success. -/
  | waitSatisfied (r : Fin 65536)
  /-- WAIT_TIMEOUT (R200). A WAIT's timeout passes and it completes wait_timeout. -/
  | waitTimeout (r : Fin 65536)
  /-- WAIT_GONE (R200). The watched ring is destroyed or flushed and the WAIT completes wait_gone. -/
  | waitGone (r : Fin 65536)
  /-- ABORT (R201). ABORT marks a target not yet started, reports too_late or abort_none, or is sent to the completion writer. -/
  | abort (r : Fin 65536)
  /-- ABORT_ARRIVE (R202). An ABORT reaching the completion writer before the target finishes writes the target's aborted completion. -/
  | abortArrive
  /-- COMPLETION_WRITE (R197). When a descriptor finishes, the completion writer writes its completion, the write-back and the interrupt in order. -/
  | completionWrite (r : Fin 65536)
  /-- MOD_TIMER (R207). mod_us after pending left 0, the ring fires its vector. -/
  | modTimer (r : Fin 65536)
  /-- SEND (R561). Injects a host frame into its pipeline; it completes when every copy is finished. -/
  | send (r : Fin 65536)
  /-- RECV_BUF (R204). Posts a receive buffer on a packet receive ring. -/
  | recvBuf (r : Fin 65536)
  /-- RX_DELIVER (R204). A frame for a receive queue is written into the next posted buffer and completed. -/
  | rxDeliver (n : Fin 4096)
  /-- EVENT_SLOT (R205). Posts an empty entry on an event ring. -/
  | eventSlot (r : Fin 65536)
  /-- EVENT_RECORD (R206). A block's event record fills the next posted event entry, or is dropped and counted in lost. -/
  | eventRecord
  /-- AN_RESOLVED (R212). Auto-negotiation resolves; a mismatched rate sets an_mismatch. -/
  | anResolved (p : Fin 64) (rate : Nat)
  /-- AN_RESTART (R212). A port with an_mismatch restarts negotiation every 1 s. -/
  | anRestart (p : Fin 64)
  /-- TRAIN_TIMEOUT (R212). Training not done within 1 s restarts auto-negotiation and counts train_fail. -/
  | trainTimeout (p : Fin 64)
  /-- PORT_UP (R213). The PCS aligns with no fault, the port enters UP and writes a port-up event. -/
  | portUp (p : Fin 64) (inv : Fin 256)
  /-- PORT_FAULT (R213). The PCS indicates a local or remote fault and the port enters FAULT. -/
  | portFault (p : Fin 64) (remote : Bool)
  /-- FAULT_TIMEOUT (R213). A fault lasting 10 ms sends the port to TRAINING. -/
  | faultTimeout (p : Fin 64)
  /-- LOSS_OF_SIGNAL (R229). Loss of signal sends the port to TRAINING, which retries without limit. -/
  | lossOfSignal (l : Fin 64)
  /-- GROUP_REVERSAL (R215). A reversed group is detected from the alignment markers, swapped, and reported. -/
  | groupReversal (g : Fin 8)
  /-- FRAME_RECEIVE (R218). The MAC checks a received frame, timestamps it, and passes it on or marks it bad. -/
  | frameReceive (port : Fin 64) (data : List Byte) (whole : Bool) (fcs : Fcs)
  /-- PAUSE_RX (R220). A received PAUSE frame stops all classes of the port for its quanta. -/
  | pauseRx (p : Fin 64) (quanta : Fin 65536)
  /-- PFC_RX (R220). A received PFC frame stops or releases the classes it names. -/
  | pfcRx (p : Fin 64) (classes : Fin 256) (quanta : List Nat)
  /-- PAUSE_EXPIRE (R220). A class's pause time runs out and the class is released. -/
  | pauseExpire (p : Fin 64) (c : Fin 8)
  /-- PFC_SEND (R221). A PFC frame for classes whose XOFF state changed is sent after the frame in transmission. -/
  | pfcSend (p : Fin 64)
  /-- PFC_REFRESH (R221). Every 2 × refresh quanta while XOFF holds, the port sends the PFC frame again. -/
  | pfcRefresh (p : Fin 64)
  /-- PFC_WATCHDOG (R222). PFC holding a class for pfc_wd_ms writes an event and may make the port ignore PFC for it. -/
  | pfcWatchdog (p : Fin 64) (c : Fin 8)
  /-- FRAME_TRANSMIT (R226). The egress MAC sends a frame, timestamping it, rewriting one-step fields or stomping a bad tail. -/
  | frameTransmit (port : Fin 64)
  /-- LANE_SHORT (R227). A shorted transmit lane is detected within 10 µs, shut and reported, and its ports enter LANE_FAULT. -/
  | laneShort (lane : Fin 144) (other : Option (Fin 144))
  /-- LANE_RETRY (R228). Writing 1 to a lane's fault bit drives the lane again. -/
  | laneRetry (req : Req) (lane : Fin 144) (persists : Bool)
  /-- PACKET_ADMIT (R231). A pipeline admits a frame from a slot and parses, classifies and hashes it and writes its packet descriptor. -/
  | packetAdmit (n : Fin 9)
  /-- VER_COMMIT (R258). A write of commit makes the staged rule version active in one core clock, unless it is refused. -/
  | verCommit (req : Req) (pipe : Fin 9)
  /-- VER_DISCARD (R260). A write of discard drops every staged change. -/
  | verDiscard (req : Req) (pipe : Fin 9)
  /-- VERSION_RETIRE (R259). The last packet of a version leaves the action stage, the version retires and its deleted entries are freed. -/
  | versionRetire (n : Fin 9)
  /-- ACT_WRITE (R248). Writes PIPE_ACT_DATA to action entry idx in one core clock. -/
  | actWrite (req : Req) (pipe : Fin 9) (index : Fin 65536)
  /-- ACT_READ (R248). Copies action entry idx into PIPE_ACT_DATA. -/
  | actRead (req : Req) (pipe : Fin 9) (index : Fin 65536)
  /-- TCAM_WRITE (R266). Stores an entry into an EMPTY TCAM index in the staged version, or restores a DISABLED one. -/
  | tcamWrite (r : Fin 65536)
  /-- TCAM_DELETE (R266). Sets a LIVE entry's delete version to the staged version. -/
  | tcamDelete (r : Fin 65536)
  /-- TCAM_MOVE (R267). Moves an entry to an EMPTY index in one core clock, for every version. -/
  | tcamMove (r : Fin 65536)
  /-- TCAM_READ (R283). Writes the 64-byte TCAM record to the result address. -/
  | tcamRead (r : Fin 65536)
  /-- TCAM_LOOKUP (R283). Returns a stage's winning TCAM entry for a key under a version. -/
  | tcamLookup (r : Fin 65536)
  /-- EM_INSERT (R274). Inserts a software exact-match entry, evicting a learned entry when allowed. -/
  | emInsert (r : Fin 65536)
  /-- EM_DELETE (R283). Deletes a key's software entry in the staged version or its learned entry at once. -/
  | emDelete (r : Fin 65536)
  /-- EM_SEARCH (R283). Returns the entry that a lookup of the key would hit under a version. -/
  | emSearch (r : Fin 65536)
  /-- EM_NEXT (R284). Returns the first valid entry at or after the cursor that passes the filter. -/
  | emNext (r : Fin 65536)
  /-- EM_FLUSH (R285). Deletes every entry of a stage's table that passes the filter. -/
  | emFlush (r : Fin 65536)
  /-- EM_CONFIRM (R278). Confirms a sprout. -/
  | emConfirm (r : Fin 65536)
  /-- EM_UNPIN (R280). Clears an entry's pin and tracker history. -/
  | emUnpin (r : Fin 65536)
  /-- LEARN_APPLY (R277). A table applies the next learn request from its FIFO: new sprout, refresh, move or pin. -/
  | learnApply (n : Fin 9) (st : Fin 17)
  /-- AGER_VISIT (R281). The ager visits a learned entry, clearing hit, ageing it, or deleting it. -/
  | agerVisit (n : Fin 9) (st : Fin 17)
  /-- XBAR_MATCH (R289). The central scheduler computes one matching of input cells to free banks per core clock. -/
  | xbarMatch
  /-- SLEEVE_TAKE (R303). TAKE starts waking the sleeve to substitute for pipeline n. -/
  | sleeveTake (req : Req) (pipe : Fin 8) (clone : Bool)
  /-- SLEEVE_RETURN (R303). RETURN starts giving pipeline n its work back. -/
  | sleeveReturn (req : Req) (clone : Bool)
  /-- SLEEVE_WAKE_DONE (R306). Sleeve power-up and SRAM clear finish, and cloning or switching starts. -/
  | sleeveWakeDone
  /-- SLEEVE_COPY_DONE (R304). The table copy ends and switching starts. -/
  | sleeveCopyDone
  /-- SLEEVE_SWITCH_DONE (R305). Every source has switched; the sleeve reaches SERVING or IDLE and writes its SWC_ event. -/
  | sleeveSwitchDone
  /-- TM_SELECT (R313). For a destination, the traffic manager selects the next eligible frame under strict priority and DWRR. -/
  | tmSelect (d : Fin 73)
  /-- LENGTH_CORRECT (R311). When a cut-through frame's tail arrives, the overcharged difference is returned to its buckets. -/
  | lengthCorrect (p : Fin 64) (fcs : Fcs)
  /-- POL_WRITE (R322). Applies bytes 0x00–0x13 of a policer record and refills its buckets. -/
  | polWrite (req : Req) (policer : Fin 65536)
  /-- POL_READ (R322). Copies a policer record into TM_POL_DATA. -/
  | polRead (req : Req) (policer : Fin 65536)
  /-- POL_CLEAR (R322). Zeroes a policer's three colour counters. -/
  | polClear (req : Req) (policer : Fin 65536)
  /-- POL_ALLOC (R323). Allocates a policer for a slice from pool 6. -/
  | polAlloc (r : Fin 65536)
  /-- POL_FREE (R323). Returns a policer to its reset configuration and to pool 6. -/
  | polFree (r : Fin 65536)
  /-- GATE_ENTRY_CHANGE (R324). A port's gate control list moves to its next entry at its comparator time. -/
  | gateEntryChange (p : Fin 64)
  /-- GATE_LIST_START (R326). A newly adopted gate list starts at its first cycle start at or after T and writes TM_ event 0x0002. -/
  | gateListStart (p : Fin 64)
  /-- GATE_FORCE_WRITE (R328). Setting a port's TM_GATE_FORCE bit opens all its classes, and clearing it returns the port to its list. -/
  | gateForceWrite (req : Req) (value : Nat)
  /-- TM_SAMPLE (R330). Every sample_us, the depth and head delay of each queue are recorded. -/
  | tmSample
  /-- RDMA_SEND (R350). Appends a Send to the QP's send queue and transmits it. -/
  | rdmaSend (ring : Fin 65536)
  /-- RDMA_SEND_IMM (R350). Appends a Send with Immediate to the QP's send queue. -/
  | rdmaSendImm (ring : Fin 65536)
  /-- RDMA_WRITE (R350). Appends an RDMA Write to the QP's send queue. -/
  | rdmaWrite (ring : Fin 65536)
  /-- RDMA_WRITE_IMM (R350). Appends an RDMA Write with Immediate to the QP's send queue. -/
  | rdmaWriteImm (ring : Fin 65536)
  /-- RDMA_READ (R351). Appends an RDMA Read, within max_rd outstanding. -/
  | rdmaRead (ring : Fin 65536)
  /-- CMP_SWAP (R353). Appends an atomic Compare-and-Swap. -/
  | cmpSwap (ring : Fin 65536)
  /-- FETCH_ADD (R353). Appends an atomic Fetch-and-Add. -/
  | fetchAdd (ring : Fin 65536)
  /-- RECV (R337). Posts a receive buffer on an RDMA receive ring. -/
  | recv (ring : Fin 65536)
  /-- QP_CREATE (R341). Creates a QP in RESET with the lowest free number in a mapped chunk. -/
  | qpCreate (ring : Fin 65536)
  /-- QP_MODIFY (R342). Applies masked attributes together with a legal state change. -/
  | qpModify (ring : Fin 65536)
  /-- QP_QUERY (R341). Writes the QP's attribute record. -/
  | qpQuery (ring : Fin 65536)
  /-- QP_DESTROY (R343). Frees a QP in RESET or ERR with nothing in flight. -/
  | qpDestroy (ring : Fin 65536)
  /-- MR_REG (R339). Registers a memory region and returns its key. -/
  | mrReg (ring : Fin 65536)
  /-- MR_REVOKE (R355). Moves a VALID region to CLOSING in one core clock. -/
  | mrRevoke (ring : Fin 65536)
  /-- REVOKE_DONE (R355). When every permitted access has landed, the revoke completes, the index is freed and its variant advances. -/
  | revokeDone (index : Fin 1048576)
  /-- ROCE_PACKET_RX (R349). A received RoCEv2 request is checked and executed by the responder, which ACKs, NAKs or drops it. -/
  | rocePacketRx
  /-- ACK_RX (R350). A received ACK, NAK or response advances or retransmits the requester, or moves the QP to ERR. -/
  | ackRx
  /-- RETRANSMIT_TIMEOUT (R350). The retransmit timer expires and the requester retransmits from the oldest unacknowledged PSN. -/
  | retransmitTimeout (qp : Fin 262144)
  /-- RNR_TIMER (R350). The RNR wait ends and the requester retransmits. -/
  | rnrTimer (qp : Fin 262144)
  /-- HUSK_FETCH_DONE (R345). A QP context fetch completes, and its parked packets are processed in order. -/
  | huskFetchDone (qp : Fin 262144)
  /-- QP_EVICT (R346). A resident QP context is written back as a husk. -/
  | qpEvict (qp : Fin 262144)
  /-- CNP_RX (R358). A received CNP reduces the QP's rate. -/
  | cnpRx
  /-- CC_INCREASE (R358). Every inc_us without a reaction, the QP's alpha and rate recover. -/
  | ccIncrease (qp : Fin 262144)
  /-- VOL_CREATE (R362). Creates a volume from the staged record. -/
  | volCreate (req : Req) (vol : Fin 4096)
  /-- VOL_MODIFY (R364). Applies backend and limit fields to a FROZEN volume. -/
  | volModify (req : Req) (vol : Fin 4096)
  /-- VOL_RESTART (R382). Starts restarting a FROZEN volume, waiting until no command is in flight. -/
  | volRestart (req : Req) (vol : Fin 4096) (flush : Bool)
  /-- VOL_RESTART_RESUME (R382). With nothing in flight, the restart flushes if asked and makes the volume ACTIVE. -/
  | volRestartResume
  /-- VOL_DESTROY (R364). Frees a volume that no ring names. -/
  | volDestroy (req : Req) (vol : Fin 4096)
  /-- VOL_READ (R364). Copies the active volume record into the stage. -/
  | volRead (req : Req) (vol : Fin 4096)
  /-- STQ_READ (R366). Checks and issues a volume READ to the backend. -/
  | stqRead (ring : Fin 65536)
  /-- STQ_WRITE (R366). Checks and issues a volume WRITE to the backend. -/
  | stqWrite (ring : Fin 65536)
  /-- STQ_FLUSH (R376). Issues a FLUSH once earlier writes of its queue have completed. -/
  | stqFlush (ring : Fin 65536)
  /-- WRITE_ZEROES (R366). Checks and issues a WRITE_ZEROES to the backend. -/
  | writeZeroes (ring : Fin 65536)
  /-- DEALLOCATE (R366). Checks and issues a DEALLOCATE to the backend. -/
  | deallocate (ring : Fin 65536)
  /-- IDENTIFY (R367). Writes the volume info record to buf without reaching the backend. -/
  | identify (ring : Fin 65536)
  /-- BACKEND_RESPONSE (R372). A response capsule or backend completion completes its command, or is discarded as late. -/
  | backendResponse
  /-- STQ_CMD_TIMEOUT (R372). cmd_timeout_ms passes without a response, the command completes stq_timeout and the volume freezes. -/
  | stqCmdTimeout (volume : Fin 4096) (slot : Option (Fin 1024))
  /-- DOZE (R378). After idle1_ms of idleness the volume enters DOZE. -/
  | doze (volume : Fin 4096)
  /-- SLEEP (R378). After idle2_ms of idleness the volume enters SLEEP and notifies its backend. -/
  | sleep (volume : Fin 4096)
  /-- WAKE_ACK (R379). The backend acknowledges a WAKE and the first command starts. -/
  | wakeAck (volume : Fin 4096)
  /-- FLIT_TRANSMIT (R390). In every flit time an ACTIVE transmitter sends a DATA, NAK, DOWN or CTRL flit carrying ack and credits. -/
  | flitTransmit (link : Fin 10)
  /-- DATA_FLIT_RX (R392). A received DATA flit is accepted in order, discarded, or answered with a NAK. -/
  | dataFlitRx (link : Fin 10) (flit : List Byte) (fecOk : Bool)
  /-- CTRL_FLIT_RX (R390). A received CTRL flit updates ack and credit counts. -/
  | ctrlFlitRx (link : Fin 10) (flit : List Byte) (fecOk : Bool)
  /-- NAK_RX (R393). A received NAK makes the transmitter replay from its seq. -/
  | nakRx (link : Fin 10) (flit : List Byte) (fecOk : Bool)
  /-- TRAIN_RX (R400). A received TRAIN flit advances the CONFIG handshake, and the link enters ACTIVE when it is complete. -/
  | trainRx (link : Fin 10) (flit : List Byte) (fecOk : Bool)
  /-- DOWN_RX (R402). A DOWN flit with a good check takes the link down with cause 4. -/
  | downRx (link : Fin 10) (flit : List Byte) (fecOk : Bool)
  /-- REPLAY_TIMEOUT (R394). The oldest unacknowledged flit waits replay_ns, and the transmitter replays or takes the link down. -/
  | replayTimeout (link : Fin 10)
  /-- LINK_SIGNAL_DETECT (R402). Signal on all eight lanes moves the link from DETECT to LOCK. -/
  | linkSignalDetect (link : Fin 10)
  /-- LINK_LOCK (R385). FEC, marker and flit-boundary lock move the link to CONFIG. -/
  | linkLock (link : Fin 10) (inverted : Fin 256)
  /-- LOCK_TIMEOUT (R402). LOCK not achieved within 100 ms returns the link to DETECT. -/
  | lockTimeout (link : Fin 10)
  /-- CONFIG_TIMEOUT (R401). CONFIG not complete within 10 ms returns the link to DETECT. -/
  | configTimeout (link : Fin 10)
  /-- LINK_DOWN_CAUSE (R404). A down cause ends transactions, discards replay and credits, reports the socket absent and sends DOWN flits. -/
  | linkDownCause (link : Fin 10) (cause : Fin 8)
  /-- DOWN_END (R404). After 1 µs in DOWN the link goes to DETECT or DISABLED. -/
  | downEnd (link : Fin 10)
  /-- SOCKET_PKT_RX (R406). A PKT from the module is metered and admitted to the socket's pipeline under its bound slice. -/
  | socketPktRx (socket : Fin 8)
  /-- SOCKET_MWR_RX (R410). A module MWR is translated through a window or the aperture, or refused no_window. -/
  | socketMwrRx (socket : Fin 8)
  /-- SOCKET_MRD_RX (R410). A module MRD is translated and read, and answered with a CPL. -/
  | socketMrdRx (socket : Fin 8)
  /-- SOCKET_DB_RX (R417). A DB delivers its doorbell value to a ring of the socket's slice. -/
  | socketDbRx (socket : Fin 8)
  /-- SOCKET_INTR_RX (R417). An INTR fires a vector of the slice's bound function. -/
  | socketIntrRx (socket : Fin 8)
  /-- STQ_RSP (R420). An STQ_RSP completes the slot's storage command. -/
  | stqRsp (socket : Fin 8)
  /-- SOCKET_CPL_RX (R416). A CPL from the module completes, fails or is discarded for a device read. -/
  | socketCplRx (socket : Fin 8)
  /-- SOCKET_RD_TIMEOUT (R416). A device read toward the module gets no CPL within rd_timeout_us and fails. -/
  | socketRdTimeout (socket : Fin 8) (tag : Fin 4096)
  /-- MGMT_ACK_RX (R423). The module acknowledges a SLEEP, WAKE, QUIESCE or PAIR_ACTIVE. -/
  | mgmtAckRx (socket : Fin 8)
  /-- ALERT (R423). A module ALERT writes TSK_ event 0x0008. -/
  | alert (socket : Fin 8)
  /-- FT_SYNC (R421). Every sync_us the device sends FT_SYNC to the module. -/
  | ftSync (socket : Fin 8)
  /-- FT_FOLLOW (R421). Once the FT_SYNC flit is acknowledged, the device sends FT_FOLLOW with its transmit time. -/
  | ftFollow (socket : Fin 8)
  /-- FT_DREQ (R422). The device answers an FT_DREQ with FT_DRSP carrying its receive time. -/
  | ftDreq (socket : Fin 8)
  /-- METER_RELEASE (R424). A transaction held by a meter leaves the receive buffer when tokens return above 0. -/
  | meterRelease (socket : Fin 8) (meter : Fin 3)
  /-- WIN_COMMIT (R412). Copies the shadow windows to the active copy and advances win_epoch, unless refused. -/
  | winCommit (req : Req) (socket : Fin 8)
  /-- WIN_DRAINED (R412). The last old-epoch transaction finishes and busy clears. -/
  | winDrained (socket : Fin 8)
  /-- COPY_IN (R418). Copies HBM bytes to the module by MWRs. -/
  | copyIn (ring : Fin 65536)
  /-- COPY_OUT (R418). Copies module bytes into HBM by MRDs. -/
  | copyOut (ring : Fin 65536)
  /-- PRESENCE_CHANGE (R425). Debounced presence pins enter present, absent, reversed or fault, and may start power or surprise removal. -/
  | presenceChange (socket : Fin 8) (a b : Bool)
  /-- POWER_ON_REQUEST (R426). A write of on requests module power, accepted only in OFF when present, cuff open and no fault. -/
  | powerOnRequest (req : Req) (socket : Fin 8)
  /-- POWER_OFF_REQUEST (R428). A write of off starts QUIESCING from ON. -/
  | powerOffRequest (req : Req) (socket : Fin 8)
  /-- ATTN_PRESS (R426). An attention press sets attn_pressed and may request power on or off. -/
  | attnPress (socket : Fin 8)
  /-- MOD_PG (R426). MOD_PG asserted in POWERING moves the socket to RESETTING. -/
  | modPg (socket : Fin 8)
  /-- PG_TIMEOUT (R426). MOD_PG absent for pg_timeout_ms moves the socket to FAULT with flt_pg. -/
  | pgTimeout (socket : Fin 8)
  /-- RESET_DELAY_END (R426). After rst_delay_ms, MOD_RST# is released and the socket is ON. -/
  | resetDelayEnd (socket : Fin 8) (ma : Nat)
  /-- QUIESCE_WAIT_END (R428). After the QUIESCE ACK or quiesce_ms and the drain of transactions, power is removed. -/
  | quiesceWaitEnd (socket : Fin 8)
  /-- POWER_FAULT (R430). PWR_FLT# or an ISNS overcurrent removes module power within 10 µs and resets the slice. -/
  | powerFault (socket : Fin 8) (overcurrent removed : Bool) (ma : Nat)
  /-- INSTRUCTION_ISSUE (R445). A core issues one RV64GC instruction per clock from a slot or fill thread. -/
  | instructionIssue (core : Fin 64)
  /-- CH_PUT (R450). Appends a word to the outbox. -/
  | chPut (hart : Fin 1024) (rs1 : Fin 32)
  /-- CH_COMMIT (R450). Moves the outbox into the target channel as one message, blocking while it is full. -/
  | chCommit (hart : Fin 1024) (rs1 rd : Fin 32)
  /-- CH_TCOMMIT (R450). Commits the outbox, or returns 1 with the outbox kept when the channel is full. -/
  | chTcommit (hart : Fin 1024) (rs1 rd : Fin 32)
  /-- CH_DROP (R450). Empties the outbox. -/
  | chDrop (hart : Fin 1024)
  /-- CH_RECV (R452). Moves the channel's head message into the inbox, blocking while the channel is empty. -/
  | chRecv (hart : Fin 1024) (rs1 rd : Fin 32)
  /-- CH_TRECV (R452). Receives a message without blocking. -/
  | chTrecv (hart : Fin 1024) (rs1 rd : Fin 32)
  /-- CH_IN (R452). Reads an inbox word. -/
  | chIn (hart : Fin 1024) (index : Fin 8) (rd : Fin 32)
  /-- CH_SELECT (R452). Blocks until a channel or receive port in the masks is ready, and returns the lowest. -/
  | chSelect (hart : Fin 1024) (rs1 rs2 rd : Fin 32)
  /-- CH_WAIT (R455). Blocks until FT reaches the given FT64. -/
  | chWait (hart : Fin 1024) (rs1 rd : Fin 32)
  /-- CH_ALARM (R455). Arms a one-word message to a channel at an FT64. -/
  | chAlarm (hart : Fin 1024) (rs1 rs2 rd : Fin 32)
  /-- CH_IPI (R454). Sets the machine software interrupt of a thread in the domain. -/
  | chIpi (hart : Fin 1024) (rs1 : Fin 32)
  /-- CH_DB (R462). Delivers a doorbell value to a ring of the thread's slice. -/
  | chDb (hart : Fin 1024) (rs1 rs2 rd : Fin 32)
  /-- CH_CPL (R461). Writes the completion of a flow-core work descriptor, or discards it as stale. -/
  | chCpl (hart : Fin 1024) (rs1 rs2 rd : Fin 32)
  /-- PT_RECV (R457). Returns the next filled receive-port entry, blocking until one is filled. -/
  | ptRecv (hart : Fin 1024) (rs1 rd : Fin 32)
  /-- PT_TRECV (R457). Returns the next filled entry without blocking. -/
  | ptTrecv (hart : Fin 1024) (rs1 rd : Fin 32)
  /-- PT_DONE (R457). Releases the oldest returned receive entry. -/
  | ptDone (hart : Fin 1024) (rs1 : Fin 32)
  /-- PT_SEND (R458). Admits a frame from a transmit packet port to its pipeline. -/
  | ptSend (hart : Fin 1024) (rs1 rs2 rd : Fin 32)
  /-- BLOCKED_WAKE (R445). A blocked thread's wait is satisfied by a message, room, an entry or back-pressure release, and it runs again. -/
  | blockedWake (hart : Fin 1024)
  /-- ALARM_FIRE (R455). An armed alarm commits its one-word message when its time comes and the channel has room. -/
  | alarmFire
  /-- CH_WAIT_EXPIRE (R455). A ch.wait completes at its FT64. -/
  | chWaitExpire (hart : Fin 1024)
  /-- INTERRUPT_TAKE (R456). A thread takes a software, timer, deadlock or sample interrupt, abandoning a blocking instruction. -/
  | interruptTake (hart : Fin 1024)
  /-- PORT_RX_DELIVER (R457). The switch core writes a frame into the next free entry of a flow-core receive port. -/
  | portRxDeliver (core : Fin 64) (port : Fin 16)
  /-- THREAD_ENABLE (R443). Writing enable 1 starts the thread in M mode at FCR_THREAD_PC. -/
  | threadEnable (req : Req) (hart : Fin 1024)
  /-- THREAD_DISABLE (R443). Writing enable 0 stops the thread at once, discarding its outbox, inbox and alarms. -/
  | threadDisable (req : Req) (hart : Fin 1024)
  /-- CH_CFG_WRITE (R449). A channel configuration write enables or disables a channel or changes its depth within the limits. -/
  | chCfgWrite (req : Req) (core : Fin 64) (channel : Fin 64) (value : Nat)
  /-- DEADLOCK_DETECT (R465). After 4,096 clocks of deadlock the device latches snapshots, sets dl and writes FCR_ event 0x0001. -/
  | deadlockDetect (dom : Fin 64)
  /-- HALT (R466). Stops a thread at its next instruction boundary. -/
  | halt (req : Req) (hart : Fin 1024)
  /-- RESUME (R466). Returns a halted thread to RUNNING. -/
  | resume (req : Req) (hart : Fin 1024)
  /-- STEP (R466). Executes one instruction of a halted thread and halts it again. -/
  | step (req : Req) (hart : Fin 1024)
  /-- DISCARD_OUTBOX (R467). Empties a halted thread's outbox. -/
  | discardOutbox (req : Req) (hart : Fin 1024)
  /-- DBG_READ (R468). Reads a register of a halted thread into FCR_DBG_DATA. -/
  | dbgRead (req : Req) (core : Fin 64) (thread : Fin 16) (reg : Fin 8192)
  /-- DBG_WRITE (R468). Writes FCR_DBG_DATA into a register of a halted thread. -/
  | dbgWrite (req : Req) (core : Fin 64) (thread : Fin 16) (reg : Fin 8192)
  /-- BREAKPOINT (R466). A breakpoint match halts the threads in its mask and writes FCR_ event 0x0002. -/
  | breakpoint (hart : Fin 1024) (kind : Fin 4) (addr size : Nat)
  /-- VX_BLK (R463). Runs AES blocks in place under a key slot. -/
  | vxBlk (hart : Fin 1024) (rs1 rs2 rd : Fin 32)
  /-- VX_LOCK (R483). Requests a locked engine, blocking until it is granted. -/
  | vxLock (hart : Fin 1024) (rs1 rd : Fin 32)
  /-- LOCK_GRANT (R483). A free engine is given to the longest-waiting request and its preload slot is loaded. -/
  | lockGrant (keyBad : Bool)
  /-- VX_UNLOCK (R484). Ends the thread's engine lock. -/
  | vxUnlock (hart : Fin 1024) (rd : Fin 32)
  /-- VX_CMAC (R485). Computes one part of an AES-CMAC. -/
  | vxCmac (hart : Fin 1024) (rs1 rs2 rd : Fin 32)
  /-- VX_IMPORT (R486). Imports a wrapped key into a slot of the thread's slice. -/
  | vxImport (hart : Fin 1024) (rs1 rd : Fin 32)
  /-- VX_ZERO (R486). Zeroises a slot of the thread's slice. -/
  | vxZero (hart : Fin 1024) (rs1 rd : Fin 32)
  /-- VAULT_RUN_DONE (R482). An engine finishes a run and writes its results to the thread's memory. -/
  | vaultRunDone (engine : Fin 64) (fail : Option (Fin 4098)) (retries started : Nat)
  /-- LOCK_LEASE_EXPIRE (R484). lock_lease_us without a vault operation ends the lock. -/
  | lockLeaseExpire (engine : Fin 64)
  /-- LOCK_BREAK (R484). A write of brk ends an engine's lock. -/
  | lockBreak (req : Req) (engine : Fin 64)
  /-- KEY_ALLOC (R474). Allocates an EMPTY key slot for a slice. -/
  | keyAlloc (ring : Fin 65536)
  /-- KEY_FREE (R478). Zeroises a slot and returns it to pool 5. -/
  | keyFree (ring : Fin 65536)
  /-- KEY_IMPORT (R477). Starts unwrapping a key into an EMPTY slot. -/
  | keyImport (ring : Fin 65536)
  /-- IMPORT_DONE (R477). The security processor ends an import, and the slot becomes LOADED or EMPTY. -/
  | importDone (keyBad : Bool)
  /-- KEY_ZERO (R478). Zeroises a slot and keeps it allocated. -/
  | keyZero (ring : Fin 65536)
  /-- ZEROISE_ALL (R479). Zeroises every slot except slot 0 and writes VLT_ event 0x0003. -/
  | zeroiseAll (req : Req)
  /-- PMC_SNAP (R494). Copies all 256 programmable counters into PMC_CTR_SNAP in one core clock. -/
  | pmcSnap (req : Req)
  /-- COUNTER_EVENT (R490). A programmable counter adds its selected event's value each clock, wrapping, chaining or sampling. -/
  | counterEvent (block inst event sub value slice part : Nat)
  /-- CTR_VAL_WRITE (R492). A write of a counter's value applies in one core clock and wins over an increment. -/
  | ctrValWrite (req : Req) (counter : Fin 256) (value : Nat)
  /-- HIST_INTERVAL (R496). A completed interval of a histogram's source adds 1 to its bin, or to missed while frozen. -/
  | histInterval (source obj ns : Nat)
  /-- HIST_CLEAR (R497). Zeroes every bin, sat and missed of a histogram. -/
  | histClear (req : Req) (hist : Fin 16)
  /-- DUMP_CAPTURE (R498). At each periodic dump time, the selected sets are captured in one core clock, or the dump is skipped. -/
  | dumpCapture
  /-- DUMP_NOW (R498). A write of now captures one dump at once. -/
  | dumpNow (req : Req)
  /-- DUMP_WRITE_DONE (R499). A dump record's values and then its header finish writing, or the record fails. -/
  | dumpWriteDone
  /-- BRACE_ENTER (R503). A rail below warn_mv for 50 ns enters brace and halves the flow-core clock. -/
  | braceEnter (rail : Fin 3) (mv : Nat)
  /-- BRACE_EXIT (R504). Rails recovered for 10 µs end brace and restore the flow-core clock. -/
  | braceExit (core fc sram : Nat)
  /-- SUPPLY_RESET (R505). A rail below reset_mv for 20 ns resets the main domain with cause 1. -/
  | supplyReset (rail : Fin 3) (mv : Nat)
  /-- THERMAL_SAMPLE (R507). Every 100 µs the sensors are read and the thermal step is changed, or a trip resets the main domain. -/
  | thermalSample (readings : List (Option Int))
  /-- TRIP_RELEASE (R508). After at least 1 s, with the island sensor below warn_c, the island releases the main domain. -/
  | tripRelease (die : Int) (romOk : Bool)
  /-- UNIT_TEST (R510). TEST drains a unit, runs its test and returns it or fences it. -/
  | unitTest (req : Req) (kind : Fin 8) (index : Fin 128) (drain force : Bool)
  /-- UNIT_FENCE (R510). FENCE drains a unit and fences it without a test. -/
  | unitFence (req : Req) (kind : Fin 8) (index : Fin 128) (drain force : Bool)
  /-- UNIT_RETURN (R509). RETURN tests a FENCED unit and returns it on a pass; for kind 6 it clears the hold. -/
  | unitReturn (req : Req) (kind : Fin 8) (index : Fin 128)
  /-- DRAIN_DONE (R510). A draining unit's work in flight finishes and its test or fence follows. -/
  | drainDone (kind : Fin 8) (index : Fin 128)
  /-- DRAIN_TIMEOUT (R512). drain_ms passes: the remaining threads are disabled with force, or the command completes hlt_drain_timeout. -/
  | drainTimeout (core : Fin 64)
  /-- TEST_DONE (R510). A unit's test ends and the unit returns to service or is FENCED, with HLT_ event 0x0010. -/
  | testDone (kind : Fin 8) (index : Fin 128) (passed : Bool) (us : Nat)
  /-- COPY_BACK_DONE (R514). A tested pseudo-channel's data is copied back and the channel is active again. -/
  | copyBackDone (pc : Fin 64)
  /-- MGT_MAIN_RESET (R521). A management write of main_reset resets the main domain with cause 3. -/
  | mgtMainReset (req : Req)
  /-- MAIN_RESET_RELEASE (R521). After 10 ms in reset, the island releases the main domain to the security processor. -/
  | mainResetRelease (romOk : Bool)
  /-- MAIN_PG_LOSS (R551). MAIN_PG low for 1 µs or more resets the main domain at once. -/
  | mainPgLoss
  /-- BUS_STUCK (R519). A management bus held low for 35 ms is released and event 0x0013 is logged. -/
  | busStuck (bus : Fin 4)
  /-- SETDASA (R522). The I3C controller assigns the dynamic address from the static address. -/
  | setdasa (addr : Fin 128)
  /-- ENTDAA (R522). The I3C controller assigns a dynamic address by ENTDAA. -/
  | entdaa (addr : Fin 128)
  /-- RSTDAA (R522). RSTDAA returns the target to SMBus mode. -/
  | rstdaa
  /-- I3C_BUS_RESET (R522). A bus reset returns the target to SMBus mode. -/
  | i3cBusReset
  /-- MCTP_PACKET (R522). An MCTP packet is assembled into a message, or dropped. -/
  | mctpPacket (src : Fin 256) (tag : Fin 16) (som eom : Bool) (seq : Fin 4) (data : List Byte)
  /-- SET_ENDPOINT_ID (R522). Assigns the MCTP endpoint ID. -/
  | setEndpointId (eid : Fin 256)
  /-- GET_ENDPOINT_ID (R522). Returns the endpoint ID. -/
  | getEndpointId
  /-- GET_ENDPOINT_UUID (R522). Returns the endpoint UUID. -/
  | getEndpointUuid
  /-- GET_MCTP_VERSION_SUPPORT (R522). Returns the supported MCTP versions. -/
  | getMctpVersionSupport (type : Fin 256)
  /-- GET_MESSAGE_TYPE_SUPPORT (R522). Returns the supported message types. -/
  | getMessageTypeSupport
  /-- GET_VENDOR_DEFINED_MSG_SUPPORT (R522). Returns vendor-defined message support. -/
  | getVendorDefinedMsgSupport (selector : Fin 256)
  /-- MCTP_UNSUPPORTED_CMD (R522). Any other MCTP control command is answered ERROR_UNSUPPORTED_CMD. -/
  | mctpUnsupportedCmd (cmd : Fin 256)
  /-- SET_TID (R523). Sets the PLDM terminus ID. -/
  | setTid (tid : Fin 256)
  /-- GET_TID (R523). Returns the terminus ID. -/
  | getTid
  /-- GET_PLDM_VERSION (R523). Returns the PLDM versions. -/
  | getPldmVersion (type : Fin 256)
  /-- GET_PLDM_TYPES (R523). Returns the supported PLDM types. -/
  | getPldmTypes
  /-- GET_PLDM_COMMANDS (R523). Returns the supported PLDM commands. -/
  | getPldmCommands (type : Fin 256)
  /-- PLDM_UNSUPPORTED_CMD (R523). A command outside the subset is answered ERROR_UNSUPPORTED_PLDM_CMD. -/
  | pldmUnsupportedCmd (type cmd : Fin 256)
  /-- GET_PDR_REPOSITORY_INFO (R523). Returns PDR repository information. -/
  | getPdrRepositoryInfo
  /-- GET_PDR (R523). Returns a PDR. -/
  | getPdr (record : Nat)
  /-- GET_SENSOR_READING (R523). Returns a numeric sensor reading. -/
  | getSensorReading (sensor : Fin 65536)
  /-- GET_STATE_SENSOR_READINGS (R523). Returns state sensor readings. -/
  | getStateSensorReadings (sensor : Fin 65536)
  /-- EVENT_MESSAGE_BUFFER_SIZE (R523). Negotiates the event message buffer size. -/
  | eventMessageBufferSize (size : Fin 65536)
  /-- PLATFORM_EVENT_MESSAGE (R523). A sensor state change or threshold crossing sends one PlatformEventMessage. -/
  | platformEventMessage
  /-- QUERY_DEVICE_IDENTIFIERS (R523). Returns the device identifiers. -/
  | queryDeviceIdentifiers
  /-- GET_FIRMWARE_PARAMETERS (R524). Reports the running and pending image seq. -/
  | getFirmwareParameters
  /-- REQUEST_UPDATE (R524). Starts a PLDM update session, or refuses it. -/
  | requestUpdate
  /-- PASS_COMPONENT_TABLE (R523). Accepts the component table. -/
  | passComponentTable
  /-- UPDATE_COMPONENT (R524). Requests the image header and issues UPD_BEGIN. -/
  | updateComponent (component : Fin 65536)
  /-- FIRMWARE_DATA (R524). A RequestFirmwareData response delivers a 1,024-byte piece, and every fourth piece makes an UPD_DATA chunk. -/
  | firmwareData (data : List Byte) (flashOk readOk : Bool)
  /-- ACTIVATE_FIRMWARE (R524). Issues ACTIVATE. -/
  | activateFirmware
  /-- GET_STATUS (R523). Returns the firmware update status. -/
  | getStatus
  /-- CANCEL_UPDATE_COMPONENT (R524). Issues UPD_ABORT. -/
  | cancelUpdateComponent
  /-- CANCEL_UPDATE (R524). Issues UPD_ABORT and ends the session. -/
  | cancelUpdate
  /-- REG_READ (R525). Reads a BAR0 register through the management path. -/
  | regRead (instance_ : Fin 256) (off size : Nat)
  /-- REG_WRITE (R525). Writes a BAR0 register through the management path. -/
  | regWrite (instance_ : Fin 256) (off size value : Nat)
  /-- LOG_READ (R525). Returns always-on log records from a sequence number. -/
  | logRead (instance_ : Fin 256) (seq count : Nat)
  /-- TO_HOST (R531). Fills MGT_M2H_BUF, sets valid and writes MGT_ event 0x0001. -/
  | toHost (instance_ : Fin 256) (data : List Byte)
  /-- MAIN_RESET (R521). The vendor message resets the main domain with cause 3. -/
  | mainReset (instance_ : Fin 256)
  /-- VENDOR_UNKNOWN_CMD (R525). An unknown vendor command is answered with status 5. -/
  | vendorUnknownCmd (instance_ : Fin 256) (cmd : Fin 256)
  /-- H2M_GO (R531). A host write of go sends MGT_H2M_BUF to the BMC as FROM_HOST. -/
  | h2mGo (req : Req) (length : Fin 512)
  /-- FROM_HOST_ACCEPTED (R531). The BMC's MCTP layer accepts the message and busy clears. -/
  | fromHostAccepted
  /-- LOG_IDX_WRITE (R526). A write of MGT_LOG_IDX loads a log record into MGT_LOG_DATA. -/
  | logIdxWrite (req : Req) (seq : Nat)
  /-- LOG_RECORD (R526). A record reaching the island is written to the always-on log, overwriting the oldest. -/
  | logRecord
  /-- ISLAND_FT_UPDATE (R527). Every 1 ms the island's FT copy is loaded from FT. -/
  | islandFtUpdate
  /-- CLEAR_INITIAL_STATE (R528). NC-SI Clear Initial State. -/
  | clearInitialState (channel : Fin 8)
  /-- SELECT_PACKAGE (R528). NC-SI Select Package. -/
  | selectPackage
  /-- DESELECT_PACKAGE (R528). NC-SI Deselect Package. -/
  | deselectPackage
  /-- ENABLE_CHANNEL (R528). NC-SI Enable Channel. -/
  | enableChannel (channel : Fin 8)
  /-- DISABLE_CHANNEL (R528). NC-SI Disable Channel. -/
  | disableChannel (channel : Fin 8)
  /-- RESET_CHANNEL (R528). NC-SI Reset Channel. -/
  | resetChannel (channel : Fin 8)
  /-- ENABLE_CHANNEL_NETWORK_TX (R528). NC-SI Enable Channel Network TX. -/
  | enableChannelNetworkTx (channel : Fin 8)
  /-- DISABLE_CHANNEL_NETWORK_TX (R528). NC-SI Disable Channel Network TX. -/
  | disableChannelNetworkTx (channel : Fin 8)
  /-- AEN_ENABLE (R528). NC-SI AEN Enable. -/
  | aenEnable (channel : Fin 8) (mask : Nat)
  /-- GET_LINK_STATUS (R528). NC-SI Get Link Status. -/
  | getLinkStatus (channel : Fin 8)
  /-- SET_MAC_ADDRESS (R528). NC-SI Set and Enable MAC Address. -/
  | setMacAddress (channel : Fin 8) (filter : Fin 2) (mac : Nat) (enable : Bool)
  /-- ENABLE_BROADCAST_FILTER (R528). NC-SI Enable Broadcast Filter. -/
  | enableBroadcastFilter (channel : Fin 8)
  /-- ENABLE_MULTICAST_FILTER (R528). NC-SI Enable Multicast Filter. -/
  | enableMulticastFilter (channel : Fin 8)
  /-- SET_VLAN_FILTER (R528). NC-SI Set VLAN Filter. -/
  | setVlanFilter (channel : Fin 8) (filter : Fin 4) (vlan : Fin 4096) (enable : Bool)
  /-- ENABLE_VLAN (R528). NC-SI Enable VLAN. -/
  | enableVlan (channel : Fin 8) (mode : Fin 4)
  /-- GET_VERSION_ID (R528). NC-SI Get Version ID. -/
  | getVersionId (channel : Fin 8)
  /-- GET_CAPABILITIES (R528). NC-SI Get Capabilities. -/
  | getCapabilities (channel : Fin 8)
  /-- GET_PARAMETERS (R528). NC-SI Get Parameters. -/
  | getParameters (channel : Fin 8)
  /-- GET_CONTROLLER_PACKET_STATS (R528). NC-SI Get Controller Packet Statistics. -/
  | getControllerPacketStats (channel : Fin 8)
  /-- GET_PASS_THROUGH_STATISTICS (R528). NC-SI Get Pass-through Statistics. -/
  | getPassThroughStatistics (channel : Fin 8)
  /-- NCSI_UNSUPPORTED_CMD (R528). An unsupported NC-SI command is answered with a failure. -/
  | ncsiUnsupportedCmd (channel : Fin 8) (cmd : Fin 256)
  /-- NCSI_TX_FRAME (R530). A frame from the BMC is sent by its port's egress MAC between frames. -/
  | ncsiTxFrame (channel : Fin 8) (data : List Byte) (fcsOk : Bool)
  /-- HEARTBEAT_SEND (R534). Every 10 µs each member sends a HEARTBEAT on every ACTIVE sublink. -/
  | heartbeatSend
  /-- HEARTBEAT (R535). A received heartbeat advances joining, or decides the roles on entering PAIRED. -/
  | heartbeat (sublink : Fin 2)
  /-- PARTNER_LOST (R536). miss_max heartbeat times without a heartbeat, or both sublinks down, enter LOST and make a secondary primary. -/
  | partnerLost
  /-- MIRROR (R539). A received MIRROR transaction is applied as an owner write in sequence order. -/
  | mirror (sublink : Fin 2)
  /-- TRANSIT_RX (R542). A received transit PKT is admitted to rx_pipe as source 0x303. -/
  | transitRx (sublink : Fin 2)
  /-- POWER_LOSS (R89). Power to the device is lost at any moment, which stops every update, boot or fuse commit in progress and leaves the slots and the fuse counter as the power-loss table states. -/
  | powerLoss (at_ : LossPoint)
  deriving DecidableEq, Repr

end Sys2Proof
end

