-- ==== Sys2Proof/Config.lean ====
section
/-! DEFINITION. What the spec leaves to an implementation or to a standard it does not restate: free values without a
body, so that no proof can see what they are. Each is named in the assumption log (entry 5 and on). -/

namespace Sys2Proof.Config

/-- Code of an event record that a chapter names without giving it a code: block code, then which event. -/
opaque eventCode : Nat → Nat → Nat

/-- Detail bytes of an event record whose chapter gives none: block code, then which event. -/
opaque eventDetail : Nat → Nat → List Byte

/-- SHA-384 of a byte string (03_boot_images.md R84). -/
opaque sha384 : List Byte → List Byte

/-- SHA-384 of an image body of the given length whose listed bytes are these (R84). -/
opaque sha384Body : Nat → List (Nat × Byte) → List Byte

/-- ECDSA P-384 verification of a signature over a byte string with a public key (R84). -/
opaque ecdsaVerify : List Byte → List Byte → List Byte → Bool

/-- HMAC-SHA-384 under the device's tag key over the header's first 0x220 bytes and the body (R84, R86). -/
opaque imageTag : List Byte → List (Nat × Byte) → List Byte

/-- Status recorded for a boot attempt that the initial fill fails (04_memories_ecc.md R105 names none). -/
opaque fillFailStatus : Nat → Nat

/-- Set of the translation cache that holds a function's page (05_host_interface.md, Address translation). -/
opaque atcSet : Nat → Nat → Nat

/-- Where the search for a free tag or policer begins, by free-value index (07_rings.md R190 and
12_traffic_management.md R323 name no order). -/
opaque tagPick : Nat → Nat

/-- Which occupant a random eviction takes, by free-value index (10_forwarding_tables.md R273). -/
opaque evictPick : Nat → Nat

/-- Detail bytes of STQ_ event 0x0001 for a volume, a freeze cause and an error log number (14_storage_queues.md R381 names
them without their places). -/
opaque freezeDetail : Nat → Nat → Nat → List Byte

/-- The 512 bytes of a QP's husk, by QP and free-value index (13_rdma.md: the layout is the device's own). -/
opaque husk : Nat → Nat → List Byte

/-- Identification field of an IPv4 packet that the RDMA engine sends, by free-value index (13_rdma.md gives none). -/
opaque ipv4Id : Nat → Nat

/-- MigReq bit of the base transport header of packets that the RDMA engine sends (13_rdma.md gives none). -/
opaque bthMig : Bool

/-- Data pointer of the Dataset Management command of a volume (14_storage_queues.md R368 gives none). -/
opaque dsmPointer : Nat → List Byte

/-- Which of several channels with work a link's transmitter serves next, by free-value index (15_wilotte_link.md R395
names no order between channels). -/
opaque vcPick : Nat → Nat

/-- Endpoint UUID (21_management.md R522 names the command without its value). -/
opaque uuid : List Byte

/-- Versions of an MCTP message type (R522). -/
opaque mctpVersions : Nat → List Byte

/-- Command set of the vendor-defined messages (R522). -/
opaque vendorSet : List Byte

/-- Versions of a PLDM type (R523). -/
opaque pldmVersion : Nat → List Byte

/-- Repository information and the records of the platform description (R523). -/
opaque pdrInfo : List Byte
opaque pdr : Nat → List Byte

/-- Device identifiers of the firmware update (R524). -/
opaque deviceIds : List Byte

/-- What the island's own sensor of an ID reads while the main domain is in reset, by free-value index (R523). -/
opaque islandSensor : Nat → Nat → Nat

/-- Version and capabilities of the NC-SI package (R528). -/
opaque ncsiVersion : List Byte
opaque ncsiCaps : List Byte

/-- Result of the TransferComplete that reports a failing command of the security processor (21_management.md R524 gives
results for VerifyComplete only). -/
opaque transferFail : Nat → Nat

/-- Timers armed at a level of the timer wheel, as FT_WHEEL_STAT shows them, by free-value index (02_fabric_time.md R57: which
level serves a timer, and when it moves down, is left to the device within its bounds). -/
opaque wheelPending : Nat → Nat → Nat

/-- Bytes that a range scrub has read when it is aborted, by free-value index (04_memories_ecc.md R107). -/
opaque scrubReach : Nat → Nat

/-- Further flow-core clocks that an access outside a thread's own slice takes, by free-value index (17_flow_cores.md R442). -/
opaque stallClocks : Nat → Nat

/-- Does mtval or stval name the address or instruction of an exception of a cause (the RISC-V privileged specification lets
an implementation write zero; 17_flow_cores.md fixes causes 19 and 24 alone). -/
opaque tvalKept : Nat → Bool

end Sys2Proof.Config
end

