-- ==== Sys2Proof/Machine/Store.lean ====
section
/-! DEFINITION. Sparse stores: a list of (key, value) pairs in one canonical form (keys strictly rising, no entry
equal to what an unlisted key reads as). Every memory, table and register array of the model is one of these. -/

namespace Sys2Proof.Machine

/-- The value at key `a`; an unlisted key reads as `d`. -/
def Store.get {α : Type} (d : α) (m : List (Nat × α)) (a : Nat) : α :=
  match m with
  | [] => d
  | (k, v) :: m => if a = k then v else Store.get d m a

/-- `m` without the entry at key `a`. -/
def Store.drop {α : Type} (m : List (Nat × α)) (a : Nat) : List (Nat × α) :=
  m.filter (fun p => p.1 != a)

/-- `m` with an entry for `a` put before the first larger key. -/
def Store.ins {α : Type} (a : Nat) (v : α) : List (Nat × α) → List (Nat × α)
  | [] => [(a, v)]
  | (k, w) :: m => if a < k then (a, v) :: (k, w) :: m else (k, w) :: Store.ins a v m

/-- Write `v` at key `a`. Writing the value that an unlisted key reads as removes the entry. -/
def Store.put {α : Type} [DecidableEq α] (d : α) (m : List (Nat × α)) (a : Nat) (v : α) : List (Nat × α) :=
  if v = d then Store.drop m a else Store.ins a v (Store.drop m a)

/-- `m` without the entries whose key lies in [lo, hi). -/
def Store.clear {α : Type} (m : List (Nat × α)) (lo hi : Nat) : List (Nat × α) :=
  m.filter (fun p => !(lo ≤ p.1 && p.1 < hi))

/-- The canonical form: keys strictly rising, no entry equal to what an unlisted key reads as. -/
def Store.wf {α : Type} [DecidableEq α] (d : α) : List (Nat × α) → Bool
  | [] => true
  | (_, v) :: [] => v != d
  | (k, v) :: (k', v') :: m => k < k' && v != d && Store.wf d ((k', v') :: m)

end Sys2Proof.Machine
end

