-- ==== Sys2Proof/Machine/RegTypes.lean ====
section
/-! DEFINITION. What a register and a field of BAR0 are: their place, their access code and their reset value
(00_scope.md R6-R14, 01_architecture.md R33-R37). -/

namespace Sys2Proof.Machine

/-- The access codes of 00_scope.md R9 that the register tables use. -/
inductive Acc where
  | rw | ro | w1c | wo | rc | rws | rwl
  deriving DecidableEq, Repr

/-- One field of a register, or of an array of registers with up to three indices: `base` is the BAR0 offset of the
register's first element, `s0`, `s1`, `s2` are the strides of the indices (the block instance first, where the block
is replicated), `lo` is the field's lowest bit and `wd` its width. `rst` is the reset value at each index. -/
structure Fld where
  base : Nat
  s0 : Nat
  s1 : Nat
  s2 : Nat
  lo : Nat
  wd : Nat
  acc : Acc
  rst : Nat → Nat → Nat → Nat := fun _ _ _ => 0

/-- The BAR0 offset of the register that holds the field at the given indices. -/
def Fld.off (f : Fld) (i j k : Nat) : Nat := f.base + f.s0 * i + f.s1 * j + f.s2 * k

/-- The place of the field in the register store: its BAR0 offset counted in bits. -/
def Fld.key (f : Fld) (i j k : Nat) : Nat := 8 * f.off i j k + f.lo

/-- One register or array of registers: its element at (i, j, k) stands at `base + s0*i + s1*j + s2*k` for
i < n0, j < n1, k < n2, and is `width` bits wide. -/
structure RegDef where
  name : String
  base : Nat
  width : Nat
  n0 : Nat
  s0 : Nat
  n1 : Nat
  s1 : Nat
  n2 : Nat
  s2 : Nat
  flds : List Fld

/-- The indices of the element of `r` that starts at BAR0 offset `off`, if there is one. -/
def RegDef.find (r : RegDef) (off : Nat) : Option (Nat × Nat × Nat) :=
  if off < r.base then none
  else
    let d := off - r.base
    let i := if r.s0 = 0 then 0 else d / r.s0
    let d1 := if r.s0 = 0 then d else d % r.s0
    let j := if r.s1 = 0 then 0 else d1 / r.s1
    let d2 := if r.s1 = 0 then d1 else d1 % r.s1
    let k := if r.s2 = 0 then 0 else d2 / r.s2
    let d3 := if r.s2 = 0 then d2 else d2 % r.s2
    if d3 = 0 ∧ i < r.n0 ∧ j < r.n1 ∧ k < r.n2 then some (i, j, k) else none

/-- Totals of the sixteen resource pools (06_slices.md R163, table Pools). -/
def poolTotal : Nat → Nat
  | 0 => 65536
  | 1 => 131072
  | 2 => 262144
  | 3 => 16384
  | 4 => 16384
  | 5 => 65536
  | 6 => 65536
  | 7 => 1048576
  | 8 => 24192
  | _ => 0

end Sys2Proof.Machine
end

