-- ==== Sys2Proof/Machine/Regs.lean ====
section
/-! DEFINITION. The register map of BAR0: every register and every field of the spec's register tables, one
definition per field (bits, access code, reset value) and one per register (offset, width, array dimensions, fields),
block by block in the order of the block table (01_architecture.md R33). A field definition is named REGISTER_field. -/

namespace Sys2Proof.R
open Sys2Proof.Machine

/-! ### GLB_ registers (01_architecture.md, 02_fabric_time.md) -/

def GLB_ID_family : Fld := { base := 0x40, s0 := 0x0, s1 := 0x0, s2 := 0x0, lo := 48, wd := 16, acc := .ro, rst := fun _ _ _ => 0x4D56 }
def GLB_ID_part : Fld := { base := 0x40, s0 := 0x0, s1 := 0x0, s2 := 0x0, lo := 32, wd := 16, acc := .ro, rst := fun _ _ _ => 0x6408 }
def GLB_ID_step : Fld := { base := 0x40, s0 := 0x0, s1 := 0x0, s2 := 0x0, lo := 16, wd := 16, acc := .ro, rst := fun _ _ _ => 0xA2 }
def reg_GLB_ID : RegDef := {
  name := "GLB_ID", base := 0x40, width := 64, n0 := 1, s0 := 0x0, n1 := 1, s1 := 0x0, n2 := 1, s2 := 0x0,
  flds := [GLB_ID_family, GLB_ID_part, GLB_ID_step] }
def GLB_SERIAL_serial : Fld := { base := 0x48, s0 := 0x0, s1 := 0x0, s2 := 0x0, lo := 0, wd := 64, acc := .ro }
def reg_GLB_SERIAL : RegDef := {
  name := "GLB_SERIAL", base := 0x48, width := 64, n0 := 1, s0 := 0x0, n1 := 1, s1 := 0x0, n2 := 1, s2 := 0x0,
  flds := [GLB_SERIAL_serial] }
def GLB_HOST_HB_beat : Fld := { base := 0x100, s0 := 0x0, s1 := 0x0, s2 := 0x0, lo := 0, wd := 32, acc := .rw }
def reg_GLB_HOST_HB : RegDef := {
  name := "GLB_HOST_HB", base := 0x100, width := 32, n0 := 1, s0 := 0x0, n1 := 1, s1 := 0x0, n2 := 1, s2 := 0x0,
  flds := [GLB_HOST_HB_beat] }
def GLB_HB_CFG_timeout_ms : Fld := { base := 0x108, s0 := 0x0, s1 := 0x0, s2 := 0x0, lo := 0, wd := 16, acc := .rw, rst := fun _ _ _ => 0x3E8 }
def reg_GLB_HB_CFG : RegDef := {
  name := "GLB_HB_CFG", base := 0x108, width := 32, n0 := 1, s0 := 0x0, n1 := 1, s1 := 0x0, n2 := 1, s2 := 0x0,
  flds := [GLB_HB_CFG_timeout_ms] }
def GLB_HB_STATUS_since_ms : Fld := { base := 0x110, s0 := 0x0, s1 := 0x0, s2 := 0x0, lo := 16, wd := 16, acc := .ro }
def GLB_HB_STATUS_seize_refused : Fld := { base := 0x110, s0 := 0x0, s1 := 0x0, s2 := 0x0, lo := 2, wd := 1, acc := .w1c }
def GLB_HB_STATUS_seized : Fld := { base := 0x110, s0 := 0x0, s1 := 0x0, s2 := 0x0, lo := 1, wd := 1, acc := .ro }
def GLB_HB_STATUS_lapsed : Fld := { base := 0x110, s0 := 0x0, s1 := 0x0, s2 := 0x0, lo := 0, wd := 1, acc := .ro }
def reg_GLB_HB_STATUS : RegDef := {
  name := "GLB_HB_STATUS", base := 0x110, width := 32, n0 := 1, s0 := 0x0, n1 := 1, s1 := 0x0, n2 := 1, s2 := 0x0,
  flds := [GLB_HB_STATUS_since_ms, GLB_HB_STATUS_seize_refused, GLB_HB_STATUS_seized, GLB_HB_STATUS_lapsed] }
def GLB_SEIZE_seize : Fld := { base := 0x118, s0 := 0x0, s1 := 0x0, s2 := 0x0, lo := 0, wd := 1, acc := .wo }
def reg_GLB_SEIZE : RegDef := {
  name := "GLB_SEIZE", base := 0x118, width := 32, n0 := 1, s0 := 0x0, n1 := 1, s1 := 0x0, n2 := 1, s2 := 0x0,
  flds := [GLB_SEIZE_seize] }
def GLB_NONOWNER_WR_count : Fld := { base := 0x120, s0 := 0x0, s1 := 0x0, s2 := 0x0, lo := 0, wd := 32, acc := .rc }
def reg_GLB_NONOWNER_WR : RegDef := {
  name := "GLB_NONOWNER_WR", base := 0x120, width := 32, n0 := 1, s0 := 0x0, n1 := 1, s1 := 0x0, n2 := 1, s2 := 0x0,
  flds := [GLB_NONOWNER_WR_count] }
def GLB_REFUSED_WR_count : Fld := { base := 0x128, s0 := 0x0, s1 := 0x0, s2 := 0x0, lo := 0, wd := 32, acc := .rc }
def reg_GLB_REFUSED_WR : RegDef := {
  name := "GLB_REFUSED_WR", base := 0x128, width := 32, n0 := 1, s0 := 0x0, n1 := 1, s1 := 0x0, n2 := 1, s2 := 0x0,
  flds := [GLB_REFUSED_WR_count] }
def GLB_EPOCH_NUM_num : Fld := { base := 0x200, s0 := 0x0, s1 := 0x0, s2 := 0x0, lo := 0, wd := 32, acc := .ro }
def reg_GLB_EPOCH_NUM : RegDef := {
  name := "GLB_EPOCH_NUM", base := 0x200, width := 32, n0 := 1, s0 := 0x0, n1 := 1, s1 := 0x0, n2 := 1, s2 := 0x0,
  flds := [GLB_EPOCH_NUM_num] }
def GLB_EPOCH_T_t : Fld := { base := 0x208, s0 := 0x0, s1 := 0x0, s2 := 0x0, lo := 0, wd := 64, acc := .rw }
def reg_GLB_EPOCH_T : RegDef := {
  name := "GLB_EPOCH_T", base := 0x208, width := 64, n0 := 1, s0 := 0x0, n1 := 1, s1 := 0x0, n2 := 1, s2 := 0x0,
  flds := [GLB_EPOCH_T_t] }
def GLB_EPOCH_ARM_arm : Fld := { base := 0x210, s0 := 0x8, s1 := 0x0, s2 := 0x0, lo := 0, wd := 64, acc := .rw }
def reg_GLB_EPOCH_ARM : RegDef := {
  name := "GLB_EPOCH_ARM", base := 0x210, width := 64, n0 := 2, s0 := 0x8, n1 := 1, s1 := 0x0, n2 := 1, s2 := 0x0,
  flds := [GLB_EPOCH_ARM_arm] }
def GLB_EPOCH_ACK_ack : Fld := { base := 0x220, s0 := 0x8, s1 := 0x0, s2 := 0x0, lo := 0, wd := 64, acc := .ro }
def reg_GLB_EPOCH_ACK : RegDef := {
  name := "GLB_EPOCH_ACK", base := 0x220, width := 64, n0 := 2, s0 := 0x8, n1 := 1, s1 := 0x0, n2 := 1, s2 := 0x0,
  flds := [GLB_EPOCH_ACK_ack] }
def GLB_EPOCH_FENCED_fenced : Fld := { base := 0x230, s0 := 0x8, s1 := 0x0, s2 := 0x0, lo := 0, wd := 64, acc := .w1c }
def reg_GLB_EPOCH_FENCED : RegDef := {
  name := "GLB_EPOCH_FENCED", base := 0x230, width := 64, n0 := 2, s0 := 0x8, n1 := 1, s1 := 0x0, n2 := 1, s2 := 0x0,
  flds := [GLB_EPOCH_FENCED_fenced] }
def GLB_EPOCH_CTRL_cancel : Fld := { base := 0x240, s0 := 0x0, s1 := 0x0, s2 := 0x0, lo := 1, wd := 1, acc := .wo }
def GLB_EPOCH_CTRL_go : Fld := { base := 0x240, s0 := 0x0, s1 := 0x0, s2 := 0x0, lo := 0, wd := 1, acc := .wo }
def reg_GLB_EPOCH_CTRL : RegDef := {
  name := "GLB_EPOCH_CTRL", base := 0x240, width := 32, n0 := 1, s0 := 0x0, n1 := 1, s1 := 0x0, n2 := 1, s2 := 0x0,
  flds := [GLB_EPOCH_CTRL_cancel, GLB_EPOCH_CTRL_go] }
def GLB_EPOCH_STATUS_late_writes : Fld := { base := 0x248, s0 := 0x0, s1 := 0x0, s2 := 0x0, lo := 16, wd := 16, acc := .rc }
def GLB_EPOCH_STATUS_result : Fld := { base := 0x248, s0 := 0x0, s1 := 0x0, s2 := 0x0, lo := 8, wd := 8, acc := .ro }
def GLB_EPOCH_STATUS_state : Fld := { base := 0x248, s0 := 0x0, s1 := 0x0, s2 := 0x0, lo := 0, wd := 3, acc := .ro }
def reg_GLB_EPOCH_STATUS : RegDef := {
  name := "GLB_EPOCH_STATUS", base := 0x248, width := 32, n0 := 1, s0 := 0x0, n1 := 1, s1 := 0x0, n2 := 1, s2 := 0x0,
  flds := [GLB_EPOCH_STATUS_late_writes, GLB_EPOCH_STATUS_result, GLB_EPOCH_STATUS_state] }

/-- The registers of the GLB_ block after its common header. -/
def tbl_GLB : List RegDef := [
  reg_GLB_ID,
  reg_GLB_SERIAL,
  reg_GLB_HOST_HB,
  reg_GLB_HB_CFG,
  reg_GLB_HB_STATUS,
  reg_GLB_SEIZE,
  reg_GLB_NONOWNER_WR,
  reg_GLB_REFUSED_WR,
  reg_GLB_EPOCH_NUM,
  reg_GLB_EPOCH_T,
  reg_GLB_EPOCH_ARM,
  reg_GLB_EPOCH_ACK,
  reg_GLB_EPOCH_FENCED,
  reg_GLB_EPOCH_CTRL,
  reg_GLB_EPOCH_STATUS]

/-! ### FT_ registers (02_fabric_time.md) -/

def FT_NOW64_sec : Fld := { base := 0x100040, s0 := 0x0, s1 := 0x0, s2 := 0x0, lo := 32, wd := 32, acc := .ro }
def FT_NOW64_ns : Fld := { base := 0x100040, s0 := 0x0, s1 := 0x0, s2 := 0x0, lo := 0, wd := 32, acc := .ro }
def reg_FT_NOW64 : RegDef := {
  name := "FT_NOW64", base := 0x100040, width := 64, n0 := 1, s0 := 0x0, n1 := 1, s1 := 0x0, n2 := 1, s2 := 0x0,
  flds := [FT_NOW64_sec, FT_NOW64_ns] }
def FT_SNAP_snap : Fld := { base := 0x100048, s0 := 0x0, s1 := 0x0, s2 := 0x0, lo := 0, wd := 1, acc := .wo }
def reg_FT_SNAP : RegDef := {
  name := "FT_SNAP", base := 0x100048, width := 32, n0 := 1, s0 := 0x0, n1 := 1, s1 := 0x0, n2 := 1, s2 := 0x0,
  flds := [FT_SNAP_snap] }
def FT_SNAP_SEC_sec : Fld := { base := 0x100050, s0 := 0x0, s1 := 0x0, s2 := 0x0, lo := 0, wd := 48, acc := .ro }
def reg_FT_SNAP_SEC : RegDef := {
  name := "FT_SNAP_SEC", base := 0x100050, width := 64, n0 := 1, s0 := 0x0, n1 := 1, s1 := 0x0, n2 := 1, s2 := 0x0,
  flds := [FT_SNAP_SEC_sec] }
def FT_SNAP_NS_ns : Fld := { base := 0x100058, s0 := 0x0, s1 := 0x0, s2 := 0x0, lo := 16, wd := 32, acc := .ro }
def FT_SNAP_NS_frac : Fld := { base := 0x100058, s0 := 0x0, s1 := 0x0, s2 := 0x0, lo := 0, wd := 16, acc := .ro }
def reg_FT_SNAP_NS : RegDef := {
  name := "FT_SNAP_NS", base := 0x100058, width := 64, n0 := 1, s0 := 0x0, n1 := 1, s1 := 0x0, n2 := 1, s2 := 0x0,
  flds := [FT_SNAP_NS_ns, FT_SNAP_NS_frac] }
def FT_CTRL_lock_ns : Fld := { base := 0x100060, s0 := 0x0, s1 := 0x0, s2 := 0x0, lo := 16, wd := 16, acc := .rw, rst := fun _ _ _ => 0x14 }
def FT_CTRL_lock_count : Fld := { base := 0x100060, s0 := 0x0, s1 := 0x0, s2 := 0x0, lo := 8, wd := 8, acc := .rw, rst := fun _ _ _ => 0x8 }
def FT_CTRL_source : Fld := { base := 0x100060, s0 := 0x0, s1 := 0x0, s2 := 0x0, lo := 0, wd := 2, acc := .rw }
def reg_FT_CTRL : RegDef := {
  name := "FT_CTRL", base := 0x100060, width := 32, n0 := 1, s0 := 0x0, n1 := 1, s1 := 0x0, n2 := 1, s2 := 0x0,
  flds := [FT_CTRL_lock_ns, FT_CTRL_lock_count, FT_CTRL_source] }
def FT_STATUS_ref_lost : Fld := { base := 0x100068, s0 := 0x0, s1 := 0x0, s2 := 0x0, lo := 7, wd := 1, acc := .w1c }
def FT_STATUS_pps_lost : Fld := { base := 0x100068, s0 := 0x0, s1 := 0x0, s2 := 0x0, lo := 6, wd := 1, acc := .w1c }
def FT_STATUS_stepped : Fld := { base := 0x100068, s0 := 0x0, s1 := 0x0, s2 := 0x0, lo := 5, wd := 1, acc := .w1c }
def FT_STATUS_state : Fld := { base := 0x100068, s0 := 0x0, s1 := 0x0, s2 := 0x0, lo := 0, wd := 3, acc := .ro }
def reg_FT_STATUS : RegDef := {
  name := "FT_STATUS", base := 0x100068, width := 32, n0 := 1, s0 := 0x0, n1 := 1, s1 := 0x0, n2 := 1, s2 := 0x0,
  flds := [FT_STATUS_ref_lost, FT_STATUS_pps_lost, FT_STATUS_stepped, FT_STATUS_state] }
def FT_RATE_adj : Fld := { base := 0x100070, s0 := 0x0, s1 := 0x0, s2 := 0x0, lo := 0, wd := 32, acc := .rw }
def reg_FT_RATE : RegDef := {
  name := "FT_RATE", base := 0x100070, width := 32, n0 := 1, s0 := 0x0, n1 := 1, s1 := 0x0, n2 := 1, s2 := 0x0,
  flds := [FT_RATE_adj] }
def FT_STEP_NS_delta : Fld := { base := 0x100078, s0 := 0x0, s1 := 0x0, s2 := 0x0, lo := 0, wd := 64, acc := .rw }
def reg_FT_STEP_NS : RegDef := {
  name := "FT_STEP_NS", base := 0x100078, width := 64, n0 := 1, s0 := 0x0, n1 := 1, s1 := 0x0, n2 := 1, s2 := 0x0,
  flds := [FT_STEP_NS_delta] }
def FT_SET_SEC_sec : Fld := { base := 0x100080, s0 := 0x0, s1 := 0x0, s2 := 0x0, lo := 0, wd := 48, acc := .rw }
def reg_FT_SET_SEC : RegDef := {
  name := "FT_SET_SEC", base := 0x100080, width := 64, n0 := 1, s0 := 0x0, n1 := 1, s1 := 0x0, n2 := 1, s2 := 0x0,
  flds := [FT_SET_SEC_sec] }
def FT_SET_NS_ns : Fld := { base := 0x100088, s0 := 0x0, s1 := 0x0, s2 := 0x0, lo := 0, wd := 32, acc := .rw }
def reg_FT_SET_NS : RegDef := {
  name := "FT_SET_NS", base := 0x100088, width := 32, n0 := 1, s0 := 0x0, n1 := 1, s1 := 0x0, n2 := 1, s2 := 0x0,
  flds := [FT_SET_NS_ns] }
def FT_STEP_CTRL_refused : Fld := { base := 0x100090, s0 := 0x0, s1 := 0x0, s2 := 0x0, lo := 3, wd := 1, acc := .w1c }
def FT_STEP_CTRL_busy : Fld := { base := 0x100090, s0 := 0x0, s1 := 0x0, s2 := 0x0, lo := 2, wd := 1, acc := .ro }
def FT_STEP_CTRL_set_go : Fld := { base := 0x100090, s0 := 0x0, s1 := 0x0, s2 := 0x0, lo := 1, wd := 1, acc := .wo }
def FT_STEP_CTRL_step_go : Fld := { base := 0x100090, s0 := 0x0, s1 := 0x0, s2 := 0x0, lo := 0, wd := 1, acc := .wo }
def reg_FT_STEP_CTRL : RegDef := {
  name := "FT_STEP_CTRL", base := 0x100090, width := 32, n0 := 1, s0 := 0x0, n1 := 1, s1 := 0x0, n2 := 1, s2 := 0x0,
  flds := [FT_STEP_CTRL_refused, FT_STEP_CTRL_busy, FT_STEP_CTRL_set_go, FT_STEP_CTRL_step_go] }
def FT_PPS_CFG_cable_ns : Fld := { base := 0x100098, s0 := 0x0, s1 := 0x0, s2 := 0x0, lo := 16, wd := 16, acc := .rw }
def FT_PPS_CFG_out_en : Fld := { base := 0x100098, s0 := 0x0, s1 := 0x0, s2 := 0x0, lo := 1, wd := 1, acc := .rw }
def FT_PPS_CFG_edge : Fld := { base := 0x100098, s0 := 0x0, s1 := 0x0, s2 := 0x0, lo := 0, wd := 1, acc := .rw }
def reg_FT_PPS_CFG : RegDef := {
  name := "FT_PPS_CFG", base := 0x100098, width := 32, n0 := 1, s0 := 0x0, n1 := 1, s1 := 0x0, n2 := 1, s2 := 0x0,
  flds := [FT_PPS_CFG_cable_ns, FT_PPS_CFG_out_en, FT_PPS_CFG_edge] }
def FT_PPS_ERR_err : Fld := { base := 0x1000A0, s0 := 0x0, s1 := 0x0, s2 := 0x0, lo := 0, wd := 32, acc := .ro }
def reg_FT_PPS_ERR : RegDef := {
  name := "FT_PPS_ERR", base := 0x1000A0, width := 32, n0 := 1, s0 := 0x0, n1 := 1, s1 := 0x0, n2 := 1, s2 := 0x0,
  flds := [FT_PPS_ERR_err] }
def FT_LAUNCH_CFG_horizon_s : Fld := { base := 0x1000A8, s0 := 0x0, s1 := 0x0, s2 := 0x0, lo := 24, wd := 8, acc := .rw, rst := fun _ _ _ => 0x3C }
def FT_LAUNCH_CFG_prefetch_us : Fld := { base := 0x1000A8, s0 := 0x0, s1 := 0x0, s2 := 0x0, lo := 20, wd := 4, acc := .rw, rst := fun _ _ _ => 0x4 }
def FT_LAUNCH_CFG_late_action : Fld := { base := 0x1000A8, s0 := 0x0, s1 := 0x0, s2 := 0x0, lo := 16, wd := 1, acc := .rw }
def FT_LAUNCH_CFG_late_ns : Fld := { base := 0x1000A8, s0 := 0x0, s1 := 0x0, s2 := 0x0, lo := 0, wd := 16, acc := .rw, rst := fun _ _ _ => 0x3E8 }
def reg_FT_LAUNCH_CFG : RegDef := {
  name := "FT_LAUNCH_CFG", base := 0x1000A8, width := 32, n0 := 1, s0 := 0x0, n1 := 1, s1 := 0x0, n2 := 1, s2 := 0x0,
  flds := [FT_LAUNCH_CFG_horizon_s, FT_LAUNCH_CFG_prefetch_us, FT_LAUNCH_CFG_late_action, FT_LAUNCH_CFG_late_ns] }
def FT_LAUNCH_LATE_count : Fld := { base := 0x1000B0, s0 := 0x0, s1 := 0x0, s2 := 0x0, lo := 0, wd := 32, acc := .rc }
def reg_FT_LAUNCH_LATE : RegDef := {
  name := "FT_LAUNCH_LATE", base := 0x1000B0, width := 32, n0 := 1, s0 := 0x0, n1 := 1, s1 := 0x0, n2 := 1, s2 := 0x0,
  flds := [FT_LAUNCH_LATE_count] }
def FT_WHEEL_STAT_overflow : Fld := { base := 0x100100, s0 := 0x8, s1 := 0x0, s2 := 0x0, lo := 16, wd := 16, acc := .rc }
def FT_WHEEL_STAT_pending : Fld := { base := 0x100100, s0 := 0x8, s1 := 0x0, s2 := 0x0, lo := 0, wd := 16, acc := .ro }
def reg_FT_WHEEL_STAT : RegDef := {
  name := "FT_WHEEL_STAT", base := 0x100100, width := 32, n0 := 4, s0 := 0x8, n1 := 1, s1 := 0x0, n2 := 1, s2 := 0x0,
  flds := [FT_WHEEL_STAT_overflow, FT_WHEEL_STAT_pending] }
def FT_WDOG_CFG_action : Fld := { base := 0x100200, s0 := 0x10, s1 := 0x0, s2 := 0x0, lo := 30, wd := 2, acc := .rw }
def FT_WDOG_CFG_expired : Fld := { base := 0x100200, s0 := 0x10, s1 := 0x0, s2 := 0x0, lo := 29, wd := 1, acc := .w1c }
def FT_WDOG_CFG_enable : Fld := { base := 0x100200, s0 := 0x10, s1 := 0x0, s2 := 0x0, lo := 28, wd := 1, acc := .rw }
def FT_WDOG_CFG_period_ms : Fld := { base := 0x100200, s0 := 0x10, s1 := 0x0, s2 := 0x0, lo := 0, wd := 28, acc := .rw }
def reg_FT_WDOG_CFG : RegDef := {
  name := "FT_WDOG_CFG", base := 0x100200, width := 32, n0 := 16, s0 := 0x10, n1 := 1, s1 := 0x0, n2 := 1, s2 := 0x0,
  flds := [FT_WDOG_CFG_action, FT_WDOG_CFG_expired, FT_WDOG_CFG_enable, FT_WDOG_CFG_period_ms] }
def FT_WDOG_KICK_kick : Fld := { base := 0x100208, s0 := 0x10, s1 := 0x0, s2 := 0x0, lo := 0, wd := 1, acc := .wo }
def reg_FT_WDOG_KICK : RegDef := {
  name := "FT_WDOG_KICK", base := 0x100208, width := 32, n0 := 16, s0 := 0x10, n1 := 1, s1 := 0x0, n2 := 1, s2 := 0x0,
  flds := [FT_WDOG_KICK_kick] }

/-- The registers of the FT_ block after its common header. -/
def tbl_FT : List RegDef := [
  reg_FT_NOW64,
  reg_FT_SNAP,
  reg_FT_SNAP_SEC,
  reg_FT_SNAP_NS,
  reg_FT_CTRL,
  reg_FT_STATUS,
  reg_FT_RATE,
  reg_FT_STEP_NS,
  reg_FT_SET_SEC,
  reg_FT_SET_NS,
  reg_FT_STEP_CTRL,
  reg_FT_PPS_CFG,
  reg_FT_PPS_ERR,
  reg_FT_LAUNCH_CFG,
  reg_FT_LAUNCH_LATE,
  reg_FT_WHEEL_STAT,
  reg_FT_WDOG_CFG,
  reg_FT_WDOG_KICK]

/-! ### SEC_ registers (03_boot_images.md) -/

def SEC_BOOT_STATUS_last_status : Fld := { base := 0x200040, s0 := 0x0, s1 := 0x0, s2 := 0x0, lo := 16, wd := 16, acc := .ro }
def SEC_BOOT_STATUS_cuff_open : Fld := { base := 0x200040, s0 := 0x0, s1 := 0x0, s2 := 0x0, lo := 11, wd := 1, acc := .ro }
def SEC_BOOT_STATUS_dual_equal : Fld := { base := 0x200040, s0 := 0x0, s1 := 0x0, s2 := 0x0, lo := 10, wd := 1, acc := .ro }
def SEC_BOOT_STATUS_retired_other : Fld := { base := 0x200040, s0 := 0x0, s1 := 0x0, s2 := 0x0, lo := 9, wd := 1, acc := .ro }
def SEC_BOOT_STATUS_slot : Fld := { base := 0x200040, s0 := 0x0, s1 := 0x0, s2 := 0x0, lo := 8, wd := 1, acc := .ro }
def SEC_BOOT_STATUS_state : Fld := { base := 0x200040, s0 := 0x0, s1 := 0x0, s2 := 0x0, lo := 0, wd := 3, acc := .ro }
def reg_SEC_BOOT_STATUS : RegDef := {
  name := "SEC_BOOT_STATUS", base := 0x200040, width := 32, n0 := 1, s0 := 0x0, n1 := 1, s1 := 0x0, n2 := 1, s2 := 0x0,
  flds := [SEC_BOOT_STATUS_last_status, SEC_BOOT_STATUS_cuff_open, SEC_BOOT_STATUS_dual_equal, SEC_BOOT_STATUS_retired_other, SEC_BOOT_STATUS_slot, SEC_BOOT_STATUS_state] }
def SEC_BOOT_REC_fail_count : Fld := { base := 0x200048, s0 := 0x0, s1 := 0x0, s2 := 0x0, lo := 16, wd := 16, acc := .ro }
def SEC_BOOT_REC_b_tried : Fld := { base := 0x200048, s0 := 0x0, s1 := 0x0, s2 := 0x0, lo := 1, wd := 1, acc := .ro }
def SEC_BOOT_REC_a_tried : Fld := { base := 0x200048, s0 := 0x0, s1 := 0x0, s2 := 0x0, lo := 0, wd := 1, acc := .ro }
def reg_SEC_BOOT_REC : RegDef := {
  name := "SEC_BOOT_REC", base := 0x200048, width := 32, n0 := 1, s0 := 0x0, n1 := 1, s1 := 0x0, n2 := 1, s2 := 0x0,
  flds := [SEC_BOOT_REC_fail_count, SEC_BOOT_REC_b_tried, SEC_BOOT_REC_a_tried] }
def SEC_IMAGE_INFO_seq : Fld := { base := 0x200050, s0 := 0x0, s1 := 0x0, s2 := 0x0, lo := 32, wd := 32, acc := .ro }
def SEC_IMAGE_INFO_secver : Fld := { base := 0x200050, s0 := 0x0, s1 := 0x0, s2 := 0x0, lo := 16, wd := 16, acc := .ro }
def SEC_IMAGE_INFO_key_index : Fld := { base := 0x200050, s0 := 0x0, s1 := 0x0, s2 := 0x0, lo := 8, wd := 2, acc := .ro }
def reg_SEC_IMAGE_INFO : RegDef := {
  name := "SEC_IMAGE_INFO", base := 0x200050, width := 64, n0 := 1, s0 := 0x0, n1 := 1, s1 := 0x0, n2 := 1, s2 := 0x0,
  flds := [SEC_IMAGE_INFO_seq, SEC_IMAGE_INFO_secver, SEC_IMAGE_INFO_key_index] }
def SEC_LOAD_PROGRESS_seg_done : Fld := { base := 0x200058, s0 := 0x0, s1 := 0x0, s2 := 0x0, lo := 0, wd := 16, acc := .ro }
def reg_SEC_LOAD_PROGRESS : RegDef := {
  name := "SEC_LOAD_PROGRESS", base := 0x200058, width := 32, n0 := 1, s0 := 0x0, n1 := 1, s1 := 0x0, n2 := 1, s2 := 0x0,
  flds := [SEC_LOAD_PROGRESS_seg_done] }
def SEC_FUSE_CTR_target : Fld := { base := 0x200060, s0 := 0x0, s1 := 0x0, s2 := 0x0, lo := 16, wd := 10, acc := .ro }
def SEC_FUSE_CTR_deferred : Fld := { base := 0x200060, s0 := 0x0, s1 := 0x0, s2 := 0x0, lo := 14, wd := 1, acc := .ro }
def SEC_FUSE_CTR_busy : Fld := { base := 0x200060, s0 := 0x0, s1 := 0x0, s2 := 0x0, lo := 13, wd := 1, acc := .ro }
def SEC_FUSE_CTR_count : Fld := { base := 0x200060, s0 := 0x0, s1 := 0x0, s2 := 0x0, lo := 0, wd := 10, acc := .ro }
def reg_SEC_FUSE_CTR : RegDef := {
  name := "SEC_FUSE_CTR", base := 0x200060, width := 32, n0 := 1, s0 := 0x0, n1 := 1, s1 := 0x0, n2 := 1, s2 := 0x0,
  flds := [SEC_FUSE_CTR_target, SEC_FUSE_CTR_deferred, SEC_FUSE_CTR_busy, SEC_FUSE_CTR_count] }
def SEC_KEY_STATE_revoked : Fld := { base := 0x200068, s0 := 0x0, s1 := 0x0, s2 := 0x0, lo := 4, wd := 4, acc := .ro }
def SEC_KEY_STATE_present : Fld := { base := 0x200068, s0 := 0x0, s1 := 0x0, s2 := 0x0, lo := 0, wd := 4, acc := .ro, rst := fun _ _ _ => 1 }
def reg_SEC_KEY_STATE : RegDef := {
  name := "SEC_KEY_STATE", base := 0x200068, width := 32, n0 := 1, s0 := 0x0, n1 := 1, s1 := 0x0, n2 := 1, s2 := 0x0,
  flds := [SEC_KEY_STATE_revoked, SEC_KEY_STATE_present] }
def SEC_MBOX_CMD_go : Fld := { base := 0x200100, s0 := 0x80, s1 := 0x0, s2 := 0x0, lo := 31, wd := 1, acc := .wo }
def SEC_MBOX_CMD_length : Fld := { base := 0x200100, s0 := 0x80, s1 := 0x0, s2 := 0x0, lo := 16, wd := 13, acc := .rw }
def SEC_MBOX_CMD_arg : Fld := { base := 0x200100, s0 := 0x80, s1 := 0x0, s2 := 0x0, lo := 8, wd := 8, acc := .rw }
def SEC_MBOX_CMD_opcode : Fld := { base := 0x200100, s0 := 0x80, s1 := 0x0, s2 := 0x0, lo := 0, wd := 8, acc := .rw }
def reg_SEC_MBOX_CMD : RegDef := {
  name := "SEC_MBOX_CMD", base := 0x200100, width := 32, n0 := 2, s0 := 0x80, n1 := 1, s1 := 0x0, n2 := 1, s2 := 0x0,
  flds := [SEC_MBOX_CMD_go, SEC_MBOX_CMD_length, SEC_MBOX_CMD_arg, SEC_MBOX_CMD_opcode] }
def SEC_MBOX_STATUS_status : Fld := { base := 0x200108, s0 := 0x80, s1 := 0x0, s2 := 0x0, lo := 16, wd := 16, acc := .ro }
def SEC_MBOX_STATUS_busy : Fld := { base := 0x200108, s0 := 0x80, s1 := 0x0, s2 := 0x0, lo := 0, wd := 1, acc := .ro }
def reg_SEC_MBOX_STATUS : RegDef := {
  name := "SEC_MBOX_STATUS", base := 0x200108, width := 32, n0 := 2, s0 := 0x80, n1 := 1, s1 := 0x0, n2 := 1, s2 := 0x0,
  flds := [SEC_MBOX_STATUS_status, SEC_MBOX_STATUS_busy] }
def SEC_MBOX_OFF_offset : Fld := { base := 0x200110, s0 := 0x80, s1 := 0x0, s2 := 0x0, lo := 0, wd := 26, acc := .rw }
def reg_SEC_MBOX_OFF : RegDef := {
  name := "SEC_MBOX_OFF", base := 0x200110, width := 64, n0 := 2, s0 := 0x80, n1 := 1, s1 := 0x0, n2 := 1, s2 := 0x0,
  flds := [SEC_MBOX_OFF_offset] }
def SEC_MBOX_BUF_data : Fld := { base := 0x201000, s0 := 0x1000, s1 := 0x8, s2 := 0x0, lo := 0, wd := 64, acc := .rw }
def reg_SEC_MBOX_BUF : RegDef := {
  name := "SEC_MBOX_BUF", base := 0x201000, width := 64, n0 := 2, s0 := 0x1000, n1 := 512, s1 := 0x8, n2 := 1, s2 := 0x0,
  flds := [SEC_MBOX_BUF_data] }

/-- The registers of the SEC_ block after its common header. -/
def tbl_SEC : List RegDef := [
  reg_SEC_BOOT_STATUS,
  reg_SEC_BOOT_REC,
  reg_SEC_IMAGE_INFO,
  reg_SEC_LOAD_PROGRESS,
  reg_SEC_FUSE_CTR,
  reg_SEC_KEY_STATE,
  reg_SEC_MBOX_CMD,
  reg_SEC_MBOX_STATUS,
  reg_SEC_MBOX_OFF,
  reg_SEC_MBOX_BUF]

/-! ### MEM_ registers (04_memories_ecc.md) -/

def MEM_INFO_fenced : Fld := { base := 0x3600040, s0 := 0x0, s1 := 0x0, s2 := 0x0, lo := 40, wd := 8, acc := .ro }
def MEM_INFO_spared : Fld := { base := 0x3600040, s0 := 0x0, s1 := 0x0, s2 := 0x0, lo := 32, wd := 8, acc := .ro }
def MEM_INFO_usable_mib : Fld := { base := 0x3600040, s0 := 0x0, s1 := 0x0, s2 := 0x0, lo := 0, wd := 32, acc := .ro, rst := fun _ _ _ => 0xBD00 }
def reg_MEM_INFO : RegDef := {
  name := "MEM_INFO", base := 0x3600040, width := 64, n0 := 1, s0 := 0x0, n1 := 1, s1 := 0x0, n2 := 1, s2 := 0x0,
  flds := [MEM_INFO_fenced, MEM_INFO_spared, MEM_INFO_usable_mib] }
def MEM_FILL_STATUS_fill_us : Fld := { base := 0x3600048, s0 := 0x0, s1 := 0x0, s2 := 0x0, lo := 16, wd := 16, acc := .ro }
def MEM_FILL_STATUS_fill_err : Fld := { base := 0x3600048, s0 := 0x0, s1 := 0x0, s2 := 0x0, lo := 1, wd := 1, acc := .ro }
def MEM_FILL_STATUS_done : Fld := { base := 0x3600048, s0 := 0x0, s1 := 0x0, s2 := 0x0, lo := 0, wd := 1, acc := .ro }
def reg_MEM_FILL_STATUS : RegDef := {
  name := "MEM_FILL_STATUS", base := 0x3600048, width := 32, n0 := 1, s0 := 0x0, n1 := 1, s1 := 0x0, n2 := 1, s2 := 0x0,
  flds := [MEM_FILL_STATUS_fill_us, MEM_FILL_STATUS_fill_err, MEM_FILL_STATUS_done] }
def MEM_PATROL_CFG_period_s : Fld := { base := 0x3600050, s0 := 0x0, s1 := 0x0, s2 := 0x0, lo := 16, wd := 16, acc := .rw, rst := fun _ _ _ => 0x258 }
def MEM_PATROL_CFG_enable : Fld := { base := 0x3600050, s0 := 0x0, s1 := 0x0, s2 := 0x0, lo := 0, wd := 1, acc := .rw, rst := fun _ _ _ => 0x1 }
def reg_MEM_PATROL_CFG : RegDef := {
  name := "MEM_PATROL_CFG", base := 0x3600050, width := 32, n0 := 1, s0 := 0x0, n1 := 1, s1 := 0x0, n2 := 1, s2 := 0x0,
  flds := [MEM_PATROL_CFG_period_s, MEM_PATROL_CFG_enable] }
def MEM_ERR_CFG_ce_window_ms : Fld := { base := 0x3600058, s0 := 0x0, s1 := 0x0, s2 := 0x0, lo := 16, wd := 16, acc := .rw, rst := fun _ _ _ => 0x3E8 }
def MEM_ERR_CFG_ce_thresh : Fld := { base := 0x3600058, s0 := 0x0, s1 := 0x0, s2 := 0x0, lo := 4, wd := 12, acc := .rw, rst := fun _ _ _ => 0x40 }
def MEM_ERR_CFG_ce_each : Fld := { base := 0x3600058, s0 := 0x0, s1 := 0x0, s2 := 0x0, lo := 0, wd := 1, acc := .rw }
def reg_MEM_ERR_CFG : RegDef := {
  name := "MEM_ERR_CFG", base := 0x3600058, width := 32, n0 := 1, s0 := 0x0, n1 := 1, s1 := 0x0, n2 := 1, s2 := 0x0,
  flds := [MEM_ERR_CFG_ce_window_ms, MEM_ERR_CFG_ce_thresh, MEM_ERR_CFG_ce_each] }
def MEM_SCRUB_BASE_value : Fld := { base := 0x3600060, s0 := 0x0, s1 := 0x0, s2 := 0x0, lo := 0, wd := 64, acc := .rw }
def reg_MEM_SCRUB_BASE : RegDef := {
  name := "MEM_SCRUB_BASE", base := 0x3600060, width := 64, n0 := 1, s0 := 0x0, n1 := 1, s1 := 0x0, n2 := 1, s2 := 0x0,
  flds := [MEM_SCRUB_BASE_value] }
def MEM_SCRUB_LEN_value : Fld := { base := 0x3600068, s0 := 0x0, s1 := 0x0, s2 := 0x0, lo := 0, wd := 64, acc := .rw }
def reg_MEM_SCRUB_LEN : RegDef := {
  name := "MEM_SCRUB_LEN", base := 0x3600068, width := 64, n0 := 1, s0 := 0x0, n1 := 1, s1 := 0x0, n2 := 1, s2 := 0x0,
  flds := [MEM_SCRUB_LEN_value] }
def MEM_SCRUB_REC_value : Fld := { base := 0x3600070, s0 := 0x0, s1 := 0x0, s2 := 0x0, lo := 0, wd := 64, acc := .rw }
def reg_MEM_SCRUB_REC : RegDef := {
  name := "MEM_SCRUB_REC", base := 0x3600070, width := 64, n0 := 1, s0 := 0x0, n1 := 1, s1 := 0x0, n2 := 1, s2 := 0x0,
  flds := [MEM_SCRUB_REC_value] }
def MEM_SCRUB_CMD_mode : Fld := { base := 0x3600078, s0 := 0x0, s1 := 0x0, s2 := 0x0, lo := 4, wd := 1, acc := .rw }
def MEM_SCRUB_CMD_abort : Fld := { base := 0x3600078, s0 := 0x0, s1 := 0x0, s2 := 0x0, lo := 1, wd := 1, acc := .wo }
def MEM_SCRUB_CMD_go : Fld := { base := 0x3600078, s0 := 0x0, s1 := 0x0, s2 := 0x0, lo := 0, wd := 1, acc := .wo }
def reg_MEM_SCRUB_CMD : RegDef := {
  name := "MEM_SCRUB_CMD", base := 0x3600078, width := 32, n0 := 1, s0 := 0x0, n1 := 1, s1 := 0x0, n2 := 1, s2 := 0x0,
  flds := [MEM_SCRUB_CMD_mode, MEM_SCRUB_CMD_abort, MEM_SCRUB_CMD_go] }
def MEM_SCRUB_STATUS_status : Fld := { base := 0x3600080, s0 := 0x0, s1 := 0x0, s2 := 0x0, lo := 16, wd := 16, acc := .ro }
def MEM_SCRUB_STATUS_busy : Fld := { base := 0x3600080, s0 := 0x0, s1 := 0x0, s2 := 0x0, lo := 0, wd := 1, acc := .ro }
def reg_MEM_SCRUB_STATUS : RegDef := {
  name := "MEM_SCRUB_STATUS", base := 0x3600080, width := 32, n0 := 1, s0 := 0x0, n1 := 1, s1 := 0x0, n2 := 1, s2 := 0x0,
  flds := [MEM_SCRUB_STATUS_status, MEM_SCRUB_STATUS_busy] }
def MEM_SPARE_CFG_spare_en : Fld := { base := 0x3600088, s0 := 0x0, s1 := 0x0, s2 := 0x0, lo := 0, wd := 1, acc := .rwl, rst := fun _ _ _ => 0x1 }
def reg_MEM_SPARE_CFG : RegDef := {
  name := "MEM_SPARE_CFG", base := 0x3600088, width := 32, n0 := 1, s0 := 0x0, n1 := 1, s1 := 0x0, n2 := 1, s2 := 0x0,
  flds := [MEM_SPARE_CFG_spare_en] }
def MEM_SPARE_CMD_go : Fld := { base := 0x3600090, s0 := 0x0, s1 := 0x0, s2 := 0x0, lo := 31, wd := 1, acc := .wo }
def MEM_SPARE_CMD_pc : Fld := { base := 0x3600090, s0 := 0x0, s1 := 0x0, s2 := 0x0, lo := 0, wd := 6, acc := .rw }
def reg_MEM_SPARE_CMD : RegDef := {
  name := "MEM_SPARE_CMD", base := 0x3600090, width := 32, n0 := 1, s0 := 0x0, n1 := 1, s1 := 0x0, n2 := 1, s2 := 0x0,
  flds := [MEM_SPARE_CMD_go, MEM_SPARE_CMD_pc] }
def MEM_SPARE_STATUS_status : Fld := { base := 0x3600098, s0 := 0x0, s1 := 0x0, s2 := 0x0, lo := 16, wd := 16, acc := .ro }
def MEM_SPARE_STATUS_pc : Fld := { base := 0x3600098, s0 := 0x0, s1 := 0x0, s2 := 0x0, lo := 8, wd := 6, acc := .ro }
def MEM_SPARE_STATUS_busy : Fld := { base := 0x3600098, s0 := 0x0, s1 := 0x0, s2 := 0x0, lo := 0, wd := 1, acc := .ro }
def reg_MEM_SPARE_STATUS : RegDef := {
  name := "MEM_SPARE_STATUS", base := 0x3600098, width := 32, n0 := 1, s0 := 0x0, n1 := 1, s1 := 0x0, n2 := 1, s2 := 0x0,
  flds := [MEM_SPARE_STATUS_status, MEM_SPARE_STATUS_pc, MEM_SPARE_STATUS_busy] }
def MEM_PC_STATE_ce : Fld := { base := 0x3600100, s0 := 0x8, s1 := 0x0, s2 := 0x0, lo := 16, wd := 16, acc := .rc }
def MEM_PC_STATE_ue : Fld := { base := 0x3600100, s0 := 0x8, s1 := 0x0, s2 := 0x0, lo := 8, wd := 8, acc := .rc }
def MEM_PC_STATE_state : Fld := { base := 0x3600100, s0 := 0x8, s1 := 0x0, s2 := 0x0, lo := 0, wd := 2, acc := .ro }
def reg_MEM_PC_STATE : RegDef := {
  name := "MEM_PC_STATE", base := 0x3600100, width := 32, n0 := 64, s0 := 0x8, n1 := 1, s1 := 0x0, n2 := 1, s2 := 0x0,
  flds := [MEM_PC_STATE_ce, MEM_PC_STATE_ue, MEM_PC_STATE_state] }

/-- The registers of the MEM_ block after its common header. -/
def tbl_MEM : List RegDef := [
  reg_MEM_INFO,
  reg_MEM_FILL_STATUS,
  reg_MEM_PATROL_CFG,
  reg_MEM_ERR_CFG,
  reg_MEM_SCRUB_BASE,
  reg_MEM_SCRUB_LEN,
  reg_MEM_SCRUB_REC,
  reg_MEM_SCRUB_CMD,
  reg_MEM_SCRUB_STATUS,
  reg_MEM_SPARE_CFG,
  reg_MEM_SPARE_CMD,
  reg_MEM_SPARE_STATUS,
  reg_MEM_PC_STATE]

/-! ### HIF_ registers (05_host_interface.md) -/

def HIF_LINK_CFG_bifurcate : Fld := { base := 0x300040, s0 := 0x80000, s1 := 0x0, s2 := 0x0, lo := 0, wd := 1, acc := .rwl }
def reg_HIF_LINK_CFG : RegDef := {
  name := "HIF_LINK_CFG", base := 0x300040, width := 32, n0 := 2, s0 := 0x80000, n1 := 1, s1 := 0x0, n2 := 1, s2 := 0x0,
  flds := [HIF_LINK_CFG_bifurcate] }
def HIF_LINK_STATUS_link_b : Fld := { base := 0x300048, s0 := 0x80000, s1 := 0x0, s2 := 0x0, lo := 16, wd := 16, acc := .ro }
def HIF_LINK_STATUS_up : Fld := { base := 0x300048, s0 := 0x80000, s1 := 0x0, s2 := 0x0, lo := 15, wd := 1, acc := .ro }
def HIF_LINK_STATUS_no_flit : Fld := { base := 0x300048, s0 := 0x80000, s1 := 0x0, s2 := 0x0, lo := 14, wd := 1, acc := .ro }
def HIF_LINK_STATUS_width : Fld := { base := 0x300048, s0 := 0x80000, s1 := 0x0, s2 := 0x0, lo := 8, wd := 5, acc := .ro }
def HIF_LINK_STATUS_rate : Fld := { base := 0x300048, s0 := 0x80000, s1 := 0x0, s2 := 0x0, lo := 4, wd := 4, acc := .ro }
def HIF_LINK_STATUS_downs : Fld := { base := 0x300048, s0 := 0x80000, s1 := 0x0, s2 := 0x0, lo := 0, wd := 4, acc := .ro }
def reg_HIF_LINK_STATUS : RegDef := {
  name := "HIF_LINK_STATUS", base := 0x300048, width := 32, n0 := 2, s0 := 0x80000, n1 := 1, s1 := 0x0, n2 := 1, s2 := 0x0,
  flds := [HIF_LINK_STATUS_link_b, HIF_LINK_STATUS_up, HIF_LINK_STATUS_no_flit, HIF_LINK_STATUS_width, HIF_LINK_STATUS_rate, HIF_LINK_STATUS_downs] }
def HIF_IDENT_subsys_id : Fld := { base := 0x300050, s0 := 0x80000, s1 := 0x0, s2 := 0x0, lo := 48, wd := 16, acc := .rwl }
def HIF_IDENT_subsys_vendor : Fld := { base := 0x300050, s0 := 0x80000, s1 := 0x0, s2 := 0x0, lo := 32, wd := 16, acc := .rwl }
def HIF_IDENT_device_id : Fld := { base := 0x300050, s0 := 0x80000, s1 := 0x0, s2 := 0x0, lo := 16, wd := 16, acc := .ro, rst := fun _ _ _ => 0x6408 }
def HIF_IDENT_vendor_id : Fld := { base := 0x300050, s0 := 0x80000, s1 := 0x0, s2 := 0x0, lo := 0, wd := 16, acc := .ro, rst := fun _ _ _ => 0x1E9B }
def reg_HIF_IDENT : RegDef := {
  name := "HIF_IDENT", base := 0x300050, width := 64, n0 := 2, s0 := 0x80000, n1 := 1, s1 := 0x0, n2 := 1, s2 := 0x0,
  flds := [HIF_IDENT_subsys_id, HIF_IDENT_subsys_vendor, HIF_IDENT_device_id, HIF_IDENT_vendor_id] }
def HIF_CPL_TO_CFG_default_us : Fld := { base := 0x300058, s0 := 0x80000, s1 := 0x0, s2 := 0x0, lo := 0, wd := 16, acc := .rw, rst := fun _ _ _ => 0x2710 }
def reg_HIF_CPL_TO_CFG : RegDef := {
  name := "HIF_CPL_TO_CFG", base := 0x300058, width := 32, n0 := 2, s0 := 0x80000, n1 := 1, s1 := 0x0, n2 := 1, s2 := 0x0,
  flds := [HIF_CPL_TO_CFG_default_us] }
def HIF_ATC_STATUS_inv_pending : Fld := { base := 0x300060, s0 := 0x80000, s1 := 0x0, s2 := 0x0, lo := 16, wd := 6, acc := .ro }
def HIF_ATC_STATUS_valid : Fld := { base := 0x300060, s0 := 0x80000, s1 := 0x0, s2 := 0x0, lo := 0, wd := 14, acc := .ro }
def reg_HIF_ATC_STATUS : RegDef := {
  name := "HIF_ATC_STATUS", base := 0x300060, width := 32, n0 := 2, s0 := 0x80000, n1 := 1, s1 := 0x0, n2 := 1, s2 := 0x0,
  flds := [HIF_ATC_STATUS_inv_pending, HIF_ATC_STATUS_valid] }
def HIF_PF_CFG_msix_vectors : Fld := { base := 0x300100, s0 := 0x80000, s1 := 0x8, s2 := 0x0, lo := 16, wd := 12, acc := .rwl, rst := fun _ _ _ => 0x3F }
def HIF_PF_CFG_class_sel : Fld := { base := 0x300100, s0 := 0x80000, s1 := 0x8, s2 := 0x0, lo := 8, wd := 2, acc := .rwl }
def HIF_PF_CFG_bar4_en : Fld := { base := 0x300100, s0 := 0x80000, s1 := 0x8, s2 := 0x0, lo := 1, wd := 1, acc := .rwl, rst := fun _ _ _ => 0x1 }
def HIF_PF_CFG_enable : Fld := { base := 0x300100, s0 := 0x80000, s1 := 0x8, s2 := 0x0, lo := 0, wd := 1, acc := .rwl, rst := fun _ j _ => if j = 0 then 1 else 0 }
def reg_HIF_PF_CFG : RegDef := {
  name := "HIF_PF_CFG", base := 0x300100, width := 32, n0 := 2, s0 := 0x80000, n1 := 8, s1 := 0x8, n2 := 1, s2 := 0x0,
  flds := [HIF_PF_CFG_msix_vectors, HIF_PF_CFG_class_sel, HIF_PF_CFG_bar4_en, HIF_PF_CFG_enable] }
def HIF_PF_STATUS_gen : Fld := { base := 0x300180, s0 := 0x80000, s1 := 0x8, s2 := 0x0, lo := 24, wd := 8, acc := .ro }
def HIF_PF_STATUS_rd_out : Fld := { base := 0x300180, s0 := 0x80000, s1 := 0x8, s2 := 0x0, lo := 8, wd := 14, acc := .ro }
def HIF_PF_STATUS_d3 : Fld := { base := 0x300180, s0 := 0x80000, s1 := 0x8, s2 := 0x0, lo := 4, wd := 1, acc := .ro }
def HIF_PF_STATUS_flr_busy : Fld := { base := 0x300180, s0 := 0x80000, s1 := 0x8, s2 := 0x0, lo := 3, wd := 1, acc := .ro }
def HIF_PF_STATUS_bme : Fld := { base := 0x300180, s0 := 0x80000, s1 := 0x8, s2 := 0x0, lo := 2, wd := 1, acc := .ro }
def HIF_PF_STATUS_ready : Fld := { base := 0x300180, s0 := 0x80000, s1 := 0x8, s2 := 0x0, lo := 1, wd := 1, acc := .ro }
def HIF_PF_STATUS_present : Fld := { base := 0x300180, s0 := 0x80000, s1 := 0x8, s2 := 0x0, lo := 0, wd := 1, acc := .ro }
def reg_HIF_PF_STATUS : RegDef := {
  name := "HIF_PF_STATUS", base := 0x300180, width := 32, n0 := 2, s0 := 0x80000, n1 := 8, s1 := 0x8, n2 := 1, s2 := 0x0,
  flds := [HIF_PF_STATUS_gen, HIF_PF_STATUS_rd_out, HIF_PF_STATUS_d3, HIF_PF_STATUS_flr_busy, HIF_PF_STATUS_bme, HIF_PF_STATUS_ready, HIF_PF_STATUS_present] }
def HIF_ERR_CNT_count : Fld := { base := 0x300200, s0 := 0x80000, s1 := 0x8, s2 := 0x0, lo := 0, wd := 32, acc := .rc }
def reg_HIF_ERR_CNT : RegDef := {
  name := "HIF_ERR_CNT", base := 0x300200, width := 32, n0 := 2, s0 := 0x80000, n1 := 8, s1 := 0x8, n2 := 1, s2 := 0x0,
  flds := [HIF_ERR_CNT_count] }

/-- The registers of the HIF_ block after its common header. -/
def tbl_HIF : List RegDef := [
  reg_HIF_LINK_CFG,
  reg_HIF_LINK_STATUS,
  reg_HIF_IDENT,
  reg_HIF_CPL_TO_CFG,
  reg_HIF_ATC_STATUS,
  reg_HIF_PF_CFG,
  reg_HIF_PF_STATUS,
  reg_HIF_ERR_CNT]

/-! ### SLC_ registers (06_slices.md) -/

def SLC_CMD_go : Fld := { base := 0x400040, s0 := 0x0, s1 := 0x0, s2 := 0x0, lo := 31, wd := 1, acc := .wo }
def SLC_CMD_op : Fld := { base := 0x400040, s0 := 0x0, s1 := 0x0, s2 := 0x0, lo := 24, wd := 3, acc := .rw }
def SLC_CMD_slice : Fld := { base := 0x400040, s0 := 0x0, s1 := 0x0, s2 := 0x0, lo := 0, wd := 12, acc := .rw }
def reg_SLC_CMD : RegDef := {
  name := "SLC_CMD", base := 0x400040, width := 32, n0 := 1, s0 := 0x0, n1 := 1, s1 := 0x0, n2 := 1, s2 := 0x0,
  flds := [SLC_CMD_go, SLC_CMD_op, SLC_CMD_slice] }
def SLC_CMD_STATUS_status : Fld := { base := 0x400048, s0 := 0x0, s1 := 0x0, s2 := 0x0, lo := 16, wd := 16, acc := .ro }
def SLC_CMD_STATUS_slice : Fld := { base := 0x400048, s0 := 0x0, s1 := 0x0, s2 := 0x0, lo := 4, wd := 12, acc := .ro }
def SLC_CMD_STATUS_busy : Fld := { base := 0x400048, s0 := 0x0, s1 := 0x0, s2 := 0x0, lo := 0, wd := 1, acc := .ro }
def reg_SLC_CMD_STATUS : RegDef := {
  name := "SLC_CMD_STATUS", base := 0x400048, width := 32, n0 := 1, s0 := 0x0, n1 := 1, s1 := 0x0, n2 := 1, s2 := 0x0,
  flds := [SLC_CMD_STATUS_status, SLC_CMD_STATUS_slice, SLC_CMD_STATUS_busy] }
def SLC_STATUS_orphan_tags : Fld := { base := 0x400050, s0 := 0x0, s1 := 0x0, s2 := 0x0, lo := 46, wd := 18, acc := .ro }
def SLC_STATUS_clearing_pages : Fld := { base := 0x400050, s0 := 0x0, s1 := 0x0, s2 := 0x0, lo := 31, wd := 15, acc := .ro }
def reg_SLC_STATUS : RegDef := {
  name := "SLC_STATUS", base := 0x400050, width := 64, n0 := 1, s0 := 0x0, n1 := 1, s1 := 0x0, n2 := 1, s2 := 0x0,
  flds := [SLC_STATUS_orphan_tags, SLC_STATUS_clearing_pages] }
def SLC_QUOTA_ERR_status : Fld := { base := 0x400058, s0 := 0x0, s1 := 0x0, s2 := 0x0, lo := 16, wd := 16, acc := .ro }
def SLC_QUOTA_ERR_count : Fld := { base := 0x400058, s0 := 0x0, s1 := 0x0, s2 := 0x0, lo := 0, wd := 16, acc := .rc }
def reg_SLC_QUOTA_ERR : RegDef := {
  name := "SLC_QUOTA_ERR", base := 0x400058, width := 32, n0 := 1, s0 := 0x0, n1 := 1, s1 := 0x0, n2 := 1, s2 := 0x0,
  flds := [SLC_QUOTA_ERR_status, SLC_QUOTA_ERR_count] }
def SLC_POOL_in_use_sum : Fld := { base := 0x400100, s0 := 0x8, s1 := 0x0, s2 := 0x0, lo := 42, wd := 22, acc := .ro }
def SLC_POOL_reserve_sum : Fld := { base := 0x400100, s0 := 0x8, s1 := 0x0, s2 := 0x0, lo := 21, wd := 21, acc := .ro }
def SLC_POOL_total : Fld := { base := 0x400100, s0 := 0x8, s1 := 0x0, s2 := 0x0, lo := 0, wd := 21, acc := .ro, rst := fun i _ _ => poolTotal i }
def reg_SLC_POOL : RegDef := {
  name := "SLC_POOL", base := 0x400100, width := 64, n0 := 16, s0 := 0x8, n1 := 1, s1 := 0x0, n2 := 1, s2 := 0x0,
  flds := [SLC_POOL_in_use_sum, SLC_POOL_reserve_sum, SLC_POOL_total] }
def SLC_BIND_pasid : Fld := { base := 0x410000, s0 := 0x20, s1 := 0x0, s2 := 0x0, lo := 44, wd := 20, acc := .rw }
def SLC_BIND_pasid_en : Fld := { base := 0x410000, s0 := 0x20, s1 := 0x0, s2 := 0x0, lo := 43, wd := 1, acc := .rw }
def SLC_BIND_hif : Fld := { base := 0x410000, s0 := 0x20, s1 := 0x0, s2 := 0x0, lo := 40, wd := 1, acc := .rw }
def SLC_BIND_pf : Fld := { base := 0x410000, s0 := 0x20, s1 := 0x0, s2 := 0x0, lo := 37, wd := 3, acc := .rw }
def SLC_BIND_host_en : Fld := { base := 0x410000, s0 := 0x20, s1 := 0x0, s2 := 0x0, lo := 36, wd := 1, acc := .rw, rst := fun i _ _ => if i = 0 then 1 else 0 }
def SLC_BIND_db_count : Fld := { base := 0x410000, s0 := 0x20, s1 := 0x0, s2 := 0x0, lo := 20, wd := 12, acc := .rw, rst := fun i _ _ => if i = 0 then 0x40 else 0 }
def SLC_BIND_db_base : Fld := { base := 0x410000, s0 := 0x20, s1 := 0x0, s2 := 0x0, lo := 8, wd := 12, acc := .rw }
def SLC_BIND_sock_en : Fld := { base := 0x410000, s0 := 0x20, s1 := 0x0, s2 := 0x0, lo := 3, wd := 1, acc := .rw }
def SLC_BIND_socket : Fld := { base := 0x410000, s0 := 0x20, s1 := 0x0, s2 := 0x0, lo := 0, wd := 3, acc := .rw }
def reg_SLC_BIND : RegDef := {
  name := "SLC_BIND", base := 0x410000, width := 64, n0 := 4096, s0 := 0x20, n1 := 1, s1 := 0x0, n2 := 1, s2 := 0x0,
  flds := [SLC_BIND_pasid, SLC_BIND_pasid_en, SLC_BIND_hif, SLC_BIND_pf, SLC_BIND_host_en, SLC_BIND_db_count, SLC_BIND_db_base, SLC_BIND_sock_en, SLC_BIND_socket] }
def SLC_STATE_gen : Fld := { base := 0x410008, s0 := 0x20, s1 := 0x0, s2 := 0x0, lo := 56, wd := 8, acc := .ro }
def SLC_STATE_evring_en : Fld := { base := 0x410008, s0 := 0x20, s1 := 0x0, s2 := 0x0, lo := 48, wd := 1, acc := .rw, rst := fun i _ _ => if i = 0 then 1 else 0 }
def SLC_STATE_evring : Fld := { base := 0x410008, s0 := 0x20, s1 := 0x0, s2 := 0x0, lo := 32, wd := 16, acc := .rw }
def SLC_STATE_priv : Fld := { base := 0x410008, s0 := 0x20, s1 := 0x0, s2 := 0x0, lo := 3, wd := 1, acc := .ro, rst := fun i _ _ => if i = 0 then 1 else 0 }
def SLC_STATE_state : Fld := { base := 0x410008, s0 := 0x20, s1 := 0x0, s2 := 0x0, lo := 0, wd := 3, acc := .ro, rst := fun i _ _ => if i = 0 then 1 else 0 }
def reg_SLC_STATE : RegDef := {
  name := "SLC_STATE", base := 0x410008, width := 64, n0 := 4096, s0 := 0x20, n1 := 1, s1 := 0x0, n2 := 1, s2 := 0x0,
  flds := [SLC_STATE_gen, SLC_STATE_evring_en, SLC_STATE_evring, SLC_STATE_priv, SLC_STATE_state] }
def SLC_DISCARD_mismatch : Fld := { base := 0x410010, s0 := 0x20, s1 := 0x0, s2 := 0x0, lo := 32, wd := 32, acc := .rc }
def SLC_DISCARD_late : Fld := { base := 0x410010, s0 := 0x20, s1 := 0x0, s2 := 0x0, lo := 0, wd := 32, acc := .rc }
def reg_SLC_DISCARD : RegDef := {
  name := "SLC_DISCARD", base := 0x410010, width := 64, n0 := 4096, s0 := 0x20, n1 := 1, s1 := 0x0, n2 := 1, s2 := 0x0,
  flds := [SLC_DISCARD_mismatch, SLC_DISCARD_late] }
def SLC_QUOTA_in_use : Fld := { base := 0x440000, s0 := 0x80, s1 := 0x8, s2 := 0x0, lo := 42, wd := 22, acc := .ro }
def SLC_QUOTA_limit : Fld := { base := 0x440000, s0 := 0x80, s1 := 0x8, s2 := 0x0, lo := 21, wd := 21, acc := .rw, rst := fun i j _ => if i = 0 then poolTotal j else 0 }
def SLC_QUOTA_reserve : Fld := { base := 0x440000, s0 := 0x80, s1 := 0x8, s2 := 0x0, lo := 0, wd := 21, acc := .rw }
def reg_SLC_QUOTA : RegDef := {
  name := "SLC_QUOTA", base := 0x440000, width := 64, n0 := 4096, s0 := 0x80, n1 := 16, s1 := 0x8, n2 := 1, s2 := 0x0,
  flds := [SLC_QUOTA_in_use, SLC_QUOTA_limit, SLC_QUOTA_reserve] }

/-- The registers of the SLC_ block after its common header. -/
def tbl_SLC : List RegDef := [
  reg_SLC_CMD,
  reg_SLC_CMD_STATUS,
  reg_SLC_STATUS,
  reg_SLC_QUOTA_ERR,
  reg_SLC_POOL,
  reg_SLC_BIND,
  reg_SLC_STATE,
  reg_SLC_DISCARD,
  reg_SLC_QUOTA]

/-! ### RNG_ registers (07_rings.md) -/

def RNG_CMD_go : Fld := { base := 0x500040, s0 := 0x0, s1 := 0x0, s2 := 0x0, lo := 31, wd := 1, acc := .wo }
def RNG_CMD_op : Fld := { base := 0x500040, s0 := 0x0, s1 := 0x0, s2 := 0x0, lo := 28, wd := 3, acc := .rw }
def RNG_CMD_flush : Fld := { base := 0x500040, s0 := 0x0, s1 := 0x0, s2 := 0x0, lo := 27, wd := 1, acc := .rw }
def RNG_CMD_ring : Fld := { base := 0x500040, s0 := 0x0, s1 := 0x0, s2 := 0x0, lo := 0, wd := 16, acc := .rw }
def reg_RNG_CMD : RegDef := {
  name := "RNG_CMD", base := 0x500040, width := 32, n0 := 1, s0 := 0x0, n1 := 1, s1 := 0x0, n2 := 1, s2 := 0x0,
  flds := [RNG_CMD_go, RNG_CMD_op, RNG_CMD_flush, RNG_CMD_ring] }
def RNG_CMD_STATUS_status : Fld := { base := 0x500048, s0 := 0x0, s1 := 0x0, s2 := 0x0, lo := 16, wd := 16, acc := .ro }
def RNG_CMD_STATUS_busy : Fld := { base := 0x500048, s0 := 0x0, s1 := 0x0, s2 := 0x0, lo := 0, wd := 1, acc := .ro }
def reg_RNG_CMD_STATUS : RegDef := {
  name := "RNG_CMD_STATUS", base := 0x500048, width := 32, n0 := 1, s0 := 0x0, n1 := 1, s1 := 0x0, n2 := 1, s2 := 0x0,
  flds := [RNG_CMD_STATUS_status, RNG_CMD_STATUS_busy] }
def RNG_HUSK_BASE_base : Fld := { base := 0x500050, s0 := 0x0, s1 := 0x0, s2 := 0x0, lo := 0, wd := 64, acc := .rwl }
def reg_RNG_HUSK_BASE : RegDef := {
  name := "RNG_HUSK_BASE", base := 0x500050, width := 64, n0 := 1, s0 := 0x0, n1 := 1, s1 := 0x0, n2 := 1, s2 := 0x0,
  flds := [RNG_HUSK_BASE_base] }
def RNG_CFG_idle_us : Fld := { base := 0x500058, s0 := 0x0, s1 := 0x0, s2 := 0x0, lo := 16, wd := 16, acc := .rw, rst := fun _ _ _ => 0x64 }
def RNG_CFG_refetch_max : Fld := { base := 0x500058, s0 := 0x0, s1 := 0x0, s2 := 0x0, lo := 8, wd := 8, acc := .rw, rst := fun _ _ _ => 0x4 }
def RNG_CFG_refetch_us : Fld := { base := 0x500058, s0 := 0x0, s1 := 0x0, s2 := 0x0, lo := 0, wd := 8, acc := .rw, rst := fun _ _ _ => 0x1 }
def reg_RNG_CFG : RegDef := {
  name := "RNG_CFG", base := 0x500058, width := 32, n0 := 1, s0 := 0x0, n1 := 1, s1 := 0x0, n2 := 1, s2 := 0x0,
  flds := [RNG_CFG_idle_us, RNG_CFG_refetch_max, RNG_CFG_refetch_us] }
def RNG_STATUS_resident : Fld := { base := 0x500060, s0 := 0x0, s1 := 0x0, s2 := 0x0, lo := 16, wd := 16, acc := .ro }
def RNG_STATUS_loading : Fld := { base := 0x500060, s0 := 0x0, s1 := 0x0, s2 := 0x0, lo := 0, wd := 16, acc := .ro }
def reg_RNG_STATUS : RegDef := {
  name := "RNG_STATUS", base := 0x500060, width := 32, n0 := 1, s0 := 0x0, n1 := 1, s1 := 0x0, n2 := 1, s2 := 0x0,
  flds := [RNG_STATUS_resident, RNG_STATUS_loading] }
def RNG_DB_DROP_count : Fld := { base := 0x500080, s0 := 0x8, s1 := 0x0, s2 := 0x0, lo := 0, wd := 32, acc := .rc }
def reg_RNG_DB_DROP : RegDef := {
  name := "RNG_DB_DROP", base := 0x500080, width := 32, n0 := 5, s0 := 0x8, n1 := 1, s1 := 0x0, n2 := 1, s2 := 0x0,
  flds := [RNG_DB_DROP_count] }
def RNG_CTX_STAGE_ctx : Fld := { base := 0x500100, s0 := 0x8, s1 := 0x0, s2 := 0x0, lo := 0, wd := 64, acc := .rw }
def reg_RNG_CTX_STAGE : RegDef := {
  name := "RNG_CTX_STAGE", base := 0x500100, width := 64, n0 := 8, s0 := 0x8, n1 := 1, s1 := 0x0, n2 := 1, s2 := 0x0,
  flds := [RNG_CTX_STAGE_ctx] }
def RNG_DB_MAP_valid : Fld := { base := 0x510000, s0 := 0x4, s1 := 0x0, s2 := 0x0, lo := 31, wd := 1, acc := .ro }
def RNG_DB_MAP_ring : Fld := { base := 0x510000, s0 := 0x4, s1 := 0x0, s2 := 0x0, lo := 0, wd := 16, acc := .ro }
def reg_RNG_DB_MAP : RegDef := {
  name := "RNG_DB_MAP", base := 0x510000, width := 32, n0 := 65536, s0 := 0x4, n1 := 1, s1 := 0x0, n2 := 1, s2 := 0x0,
  flds := [RNG_DB_MAP_valid, RNG_DB_MAP_ring] }

/-- The registers of the RNG_ block after its common header. -/
def tbl_RNG : List RegDef := [
  reg_RNG_CMD,
  reg_RNG_CMD_STATUS,
  reg_RNG_HUSK_BASE,
  reg_RNG_CFG,
  reg_RNG_STATUS,
  reg_RNG_DB_DROP,
  reg_RNG_CTX_STAGE,
  reg_RNG_DB_MAP]

/-! ### PRT_ registers (08_network_ports.md) -/

def PRT_GRP_MODE_g800 : Fld := { base := 0x800040, s0 := 0x20000, s1 := 0x0, s2 := 0x0, lo := 8, wd := 1, acc := .rws }
def PRT_GRP_MODE_quad1 : Fld := { base := 0x800040, s0 := 0x20000, s1 := 0x0, s2 := 0x0, lo := 4, wd := 4, acc := .rws, rst := fun _ _ _ => 0x3 }
def PRT_GRP_MODE_quad0 : Fld := { base := 0x800040, s0 := 0x20000, s1 := 0x0, s2 := 0x0, lo := 0, wd := 4, acc := .rws, rst := fun _ _ _ => 0x3 }
def reg_PRT_GRP_MODE : RegDef := {
  name := "PRT_GRP_MODE", base := 0x800040, width := 32, n0 := 8, s0 := 0x20000, n1 := 1, s1 := 0x0, n2 := 1, s2 := 0x0,
  flds := [PRT_GRP_MODE_g800, PRT_GRP_MODE_quad1, PRT_GRP_MODE_quad0] }
def PRT_GRP_STATUS_ports_up : Fld := { base := 0x800048, s0 := 0x20000, s1 := 0x0, s2 := 0x0, lo := 24, wd := 8, acc := .ro }
def PRT_GRP_STATUS_rx_inverted : Fld := { base := 0x800048, s0 := 0x20000, s1 := 0x0, s2 := 0x0, lo := 16, wd := 8, acc := .ro }
def PRT_GRP_STATUS_reversed : Fld := { base := 0x800048, s0 := 0x20000, s1 := 0x0, s2 := 0x0, lo := 15, wd := 1, acc := .ro }
def PRT_GRP_STATUS_refuse_cause : Fld := { base := 0x800048, s0 := 0x20000, s1 := 0x0, s2 := 0x0, lo := 0, wd := 4, acc := .ro }
def reg_PRT_GRP_STATUS : RegDef := {
  name := "PRT_GRP_STATUS", base := 0x800048, width := 32, n0 := 8, s0 := 0x20000, n1 := 1, s1 := 0x0, n2 := 1, s2 := 0x0,
  flds := [PRT_GRP_STATUS_ports_up, PRT_GRP_STATUS_rx_inverted, PRT_GRP_STATUS_reversed, PRT_GRP_STATUS_refuse_cause] }
def PRT_GRP_BOARD_lane_reverse : Fld := { base := 0x800050, s0 := 0x20000, s1 := 0x0, s2 := 0x0, lo := 8, wd := 1, acc := .rwl }
def PRT_GRP_BOARD_tx_invert : Fld := { base := 0x800050, s0 := 0x20000, s1 := 0x0, s2 := 0x0, lo := 0, wd := 8, acc := .rwl }
def reg_PRT_GRP_BOARD : RegDef := {
  name := "PRT_GRP_BOARD", base := 0x800050, width := 32, n0 := 8, s0 := 0x20000, n1 := 1, s1 := 0x0, n2 := 1, s2 := 0x0,
  flds := [PRT_GRP_BOARD_lane_reverse, PRT_GRP_BOARD_tx_invert] }
def PRT_LANE_STATUS_short_gnd : Fld := { base := 0x800080, s0 := 0x20000, s1 := 0x8, s2 := 0x0, lo := 11, wd := 1, acc := .w1c }
def PRT_LANE_STATUS_short_lane : Fld := { base := 0x800080, s0 := 0x20000, s1 := 0x8, s2 := 0x0, lo := 10, wd := 1, acc := .w1c }
def PRT_LANE_STATUS_los : Fld := { base := 0x800080, s0 := 0x20000, s1 := 0x8, s2 := 0x0, lo := 9, wd := 1, acc := .ro }
def PRT_LANE_STATUS_shut : Fld := { base := 0x800080, s0 := 0x20000, s1 := 0x8, s2 := 0x0, lo := 8, wd := 1, acc := .ro }
def PRT_LANE_STATUS_state : Fld := { base := 0x800080, s0 := 0x20000, s1 := 0x8, s2 := 0x0, lo := 0, wd := 3, acc := .ro }
def reg_PRT_LANE_STATUS : RegDef := {
  name := "PRT_LANE_STATUS", base := 0x800080, width := 32, n0 := 8, s0 := 0x20000, n1 := 8, s1 := 0x8, n2 := 1, s2 := 0x0,
  flds := [PRT_LANE_STATUS_short_gnd, PRT_LANE_STATUS_short_lane, PRT_LANE_STATUS_los, PRT_LANE_STATUS_shut, PRT_LANE_STATUS_state] }
def PRT_PORT_CFG_max_frame : Fld := { base := 0x800100, s0 := 0x20000, s1 := 0x40, s2 := 0x0, lo := 48, wd := 16, acc := .rws, rst := fun _ _ _ => 0x2580 }
def PRT_PORT_CFG_cut_through : Fld := { base := 0x800100, s0 := 0x20000, s1 := 0x40, s2 := 0x0, lo := 39, wd := 1, acc := .rws, rst := fun _ _ _ => 0x1 }
def PRT_PORT_CFG_pause_rx_en : Fld := { base := 0x800100, s0 := 0x20000, s1 := 0x40, s2 := 0x0, lo := 38, wd := 1, acc := .rws, rst := fun _ _ _ => 0x1 }
def PRT_PORT_CFG_pfc_rx_en : Fld := { base := 0x800100, s0 := 0x20000, s1 := 0x40, s2 := 0x0, lo := 37, wd := 1, acc := .rws }
def PRT_PORT_CFG_pfc_tx_en : Fld := { base := 0x800100, s0 := 0x20000, s1 := 0x40, s2 := 0x0, lo := 36, wd := 1, acc := .rws }
def PRT_PORT_CFG_pfc_classes : Fld := { base := 0x800100, s0 := 0x20000, s1 := 0x40, s2 := 0x0, lo := 28, wd := 8, acc := .rws }
def PRT_PORT_CFG_fec : Fld := { base := 0x800100, s0 := 0x20000, s1 := 0x40, s2 := 0x0, lo := 10, wd := 2, acc := .rws, rst := fun _ _ _ => 0x2 }
def PRT_PORT_CFG_lt_en : Fld := { base := 0x800100, s0 := 0x20000, s1 := 0x40, s2 := 0x0, lo := 9, wd := 1, acc := .rws, rst := fun _ _ _ => 0x1 }
def PRT_PORT_CFG_an_en : Fld := { base := 0x800100, s0 := 0x20000, s1 := 0x40, s2 := 0x0, lo := 8, wd := 1, acc := .rws, rst := fun _ _ _ => 0x1 }
def PRT_PORT_CFG_media : Fld := { base := 0x800100, s0 := 0x20000, s1 := 0x40, s2 := 0x0, lo := 6, wd := 2, acc := .rws, rst := fun _ _ _ => 0x3 }
def PRT_PORT_CFG_enable : Fld := { base := 0x800100, s0 := 0x20000, s1 := 0x40, s2 := 0x0, lo := 0, wd := 1, acc := .rws }
def reg_PRT_PORT_CFG : RegDef := {
  name := "PRT_PORT_CFG", base := 0x800100, width := 64, n0 := 8, s0 := 0x20000, n1 := 8, s1 := 0x40, n2 := 1, s2 := 0x0,
  flds := [PRT_PORT_CFG_max_frame, PRT_PORT_CFG_cut_through, PRT_PORT_CFG_pause_rx_en, PRT_PORT_CFG_pfc_rx_en, PRT_PORT_CFG_pfc_tx_en, PRT_PORT_CFG_pfc_classes, PRT_PORT_CFG_fec, PRT_PORT_CFG_lt_en, PRT_PORT_CFG_an_en, PRT_PORT_CFG_media, PRT_PORT_CFG_enable] }
def PRT_PORT_STATUS_stopped_rx : Fld := { base := 0x800108, s0 := 0x20000, s1 := 0x40, s2 := 0x0, lo := 24, wd := 8, acc := .ro }
def PRT_PORT_STATUS_xoff_tx : Fld := { base := 0x800108, s0 := 0x20000, s1 := 0x40, s2 := 0x0, lo := 16, wd := 8, acc := .ro }
def PRT_PORT_STATUS_an_mismatch : Fld := { base := 0x800108, s0 := 0x20000, s1 := 0x40, s2 := 0x0, lo := 8, wd := 1, acc := .ro }
def PRT_PORT_STATUS_remote_fault : Fld := { base := 0x800108, s0 := 0x20000, s1 := 0x40, s2 := 0x0, lo := 7, wd := 1, acc := .ro }
def PRT_PORT_STATUS_local_fault : Fld := { base := 0x800108, s0 := 0x20000, s1 := 0x40, s2 := 0x0, lo := 6, wd := 1, acc := .ro }
def PRT_PORT_STATUS_an_done : Fld := { base := 0x800108, s0 := 0x20000, s1 := 0x40, s2 := 0x0, lo := 5, wd := 1, acc := .ro }
def PRT_PORT_STATUS_lt_done : Fld := { base := 0x800108, s0 := 0x20000, s1 := 0x40, s2 := 0x0, lo := 4, wd := 1, acc := .ro }
def PRT_PORT_STATUS_state : Fld := { base := 0x800108, s0 := 0x20000, s1 := 0x40, s2 := 0x0, lo := 0, wd := 3, acc := .ro }
def reg_PRT_PORT_STATUS : RegDef := {
  name := "PRT_PORT_STATUS", base := 0x800108, width := 32, n0 := 8, s0 := 0x20000, n1 := 8, s1 := 0x40, n2 := 1, s2 := 0x0,
  flds := [PRT_PORT_STATUS_stopped_rx, PRT_PORT_STATUS_xoff_tx, PRT_PORT_STATUS_an_mismatch, PRT_PORT_STATUS_remote_fault, PRT_PORT_STATUS_local_fault, PRT_PORT_STATUS_an_done, PRT_PORT_STATUS_lt_done, PRT_PORT_STATUS_state] }
def PRT_PFC_CFG_quanta : Fld := { base := 0x800110, s0 := 0x20000, s1 := 0x40, s2 := 0x0, lo := 16, wd := 16, acc := .rw, rst := fun _ _ _ => 0xFFFF }
def PRT_PFC_CFG_refresh : Fld := { base := 0x800110, s0 := 0x20000, s1 := 0x40, s2 := 0x0, lo := 1, wd := 15, acc := .rw, rst := fun _ _ _ => 0x3FFF }
def reg_PRT_PFC_CFG : RegDef := {
  name := "PRT_PFC_CFG", base := 0x800110, width := 32, n0 := 8, s0 := 0x20000, n1 := 8, s1 := 0x40, n2 := 1, s2 := 0x0,
  flds := [PRT_PFC_CFG_quanta, PRT_PFC_CFG_refresh] }
def PRT_TS_CFG_pfc_wd_ms : Fld := { base := 0x800118, s0 := 0x20000, s1 := 0x40, s2 := 0x0, lo := 16, wd := 16, acc := .rw }
def PRT_TS_CFG_pfc_wd_drop : Fld := { base := 0x800118, s0 := 0x20000, s1 := 0x40, s2 := 0x0, lo := 1, wd := 1, acc := .rw }
def PRT_TS_CFG_one_step_en : Fld := { base := 0x800118, s0 := 0x20000, s1 := 0x40, s2 := 0x0, lo := 0, wd := 1, acc := .rw, rst := fun _ _ _ => 0x1 }
def reg_PRT_TS_CFG : RegDef := {
  name := "PRT_TS_CFG", base := 0x800118, width := 32, n0 := 8, s0 := 0x20000, n1 := 8, s1 := 0x40, n2 := 1, s2 := 0x0,
  flds := [PRT_TS_CFG_pfc_wd_ms, PRT_TS_CFG_pfc_wd_drop, PRT_TS_CFG_one_step_en] }
def PRT_CNT_count : Fld := { base := 0x801000, s0 := 0x20000, s1 := 0x200, s2 := 0x8, lo := 0, wd := 64, acc := .ro }
def reg_PRT_CNT : RegDef := {
  name := "PRT_CNT", base := 0x801000, width := 64, n0 := 8, s0 := 0x20000, n1 := 8, s1 := 0x200, n2 := 21, s2 := 0x8,
  flds := [PRT_CNT_count] }

/-- The registers of the PRT_ block after its common header. -/
def tbl_PRT : List RegDef := [
  reg_PRT_GRP_MODE,
  reg_PRT_GRP_STATUS,
  reg_PRT_GRP_BOARD,
  reg_PRT_LANE_STATUS,
  reg_PRT_PORT_CFG,
  reg_PRT_PORT_STATUS,
  reg_PRT_PFC_CFG,
  reg_PRT_TS_CFG,
  reg_PRT_CNT]

/-! ### PIPE_ registers (09_parsing.md, 10_forwarding_tables.md) -/

def PIPE_VER_COMMIT_discard : Fld := { base := 0x1000040, s0 := 0x200000, s1 := 0x0, s2 := 0x0, lo := 1, wd := 1, acc := .wo }
def PIPE_VER_COMMIT_commit : Fld := { base := 0x1000040, s0 := 0x200000, s1 := 0x0, s2 := 0x0, lo := 0, wd := 1, acc := .wo }
def reg_PIPE_VER_COMMIT : RegDef := {
  name := "PIPE_VER_COMMIT", base := 0x1000040, width := 32, n0 := 9, s0 := 0x200000, n1 := 1, s1 := 0x0, n2 := 1, s2 := 0x0,
  flds := [PIPE_VER_COMMIT_discard, PIPE_VER_COMMIT_commit] }
def PIPE_VER_STATUS_refuse_cause : Fld := { base := 0x1000048, s0 := 0x200000, s1 := 0x0, s2 := 0x0, lo := 28, wd := 4, acc := .ro }
def PIPE_VER_STATUS_refused : Fld := { base := 0x1000048, s0 := 0x200000, s1 := 0x0, s2 := 0x0, lo := 17, wd := 1, acc := .w1c }
def PIPE_VER_STATUS_dirty : Fld := { base := 0x1000048, s0 := 0x200000, s1 := 0x0, s2 := 0x0, lo := 16, wd := 1, acc := .ro }
def PIPE_VER_STATUS_live_count : Fld := { base := 0x1000048, s0 := 0x200000, s1 := 0x0, s2 := 0x0, lo := 12, wd := 3, acc := .ro, rst := fun _ _ _ => 0x1 }
def PIPE_VER_STATUS_oldest : Fld := { base := 0x1000048, s0 := 0x200000, s1 := 0x0, s2 := 0x0, lo := 8, wd := 4, acc := .ro }
def PIPE_VER_STATUS_staged : Fld := { base := 0x1000048, s0 := 0x200000, s1 := 0x0, s2 := 0x0, lo := 4, wd := 4, acc := .ro, rst := fun _ _ _ => 0x1 }
def PIPE_VER_STATUS_active : Fld := { base := 0x1000048, s0 := 0x200000, s1 := 0x0, s2 := 0x0, lo := 0, wd := 4, acc := .ro }
def reg_PIPE_VER_STATUS : RegDef := {
  name := "PIPE_VER_STATUS", base := 0x1000048, width := 32, n0 := 9, s0 := 0x200000, n1 := 1, s1 := 0x0, n2 := 1, s2 := 0x0,
  flds := [PIPE_VER_STATUS_refuse_cause, PIPE_VER_STATUS_refused, PIPE_VER_STATUS_dirty, PIPE_VER_STATUS_live_count, PIPE_VER_STATUS_oldest, PIPE_VER_STATUS_staged, PIPE_VER_STATUS_active] }
def PIPE_PARSE_CFG_vxlan_port : Fld := { base := 0x1000050, s0 := 0x200000, s1 := 0x0, s2 := 0x0, lo := 48, wd := 16, acc := .rws, rst := fun _ _ _ => 0x12B5 }
def PIPE_PARSE_CFG_geneve_port : Fld := { base := 0x1000050, s0 := 0x200000, s1 := 0x0, s2 := 0x0, lo := 32, wd := 16, acc := .rws, rst := fun _ _ _ => 0x17C1 }
def PIPE_PARSE_CFG_mplsudp_port : Fld := { base := 0x1000050, s0 := 0x200000, s1 := 0x0, s2 := 0x0, lo := 16, wd := 16, acc := .rws, rst := fun _ _ _ => 0x19EB }
def PIPE_PARSE_CFG_encap_en : Fld := { base := 0x1000050, s0 := 0x200000, s1 := 0x0, s2 := 0x0, lo := 0, wd := 5, acc := .rws, rst := fun _ _ _ => 0x1F }
def reg_PIPE_PARSE_CFG : RegDef := {
  name := "PIPE_PARSE_CFG", base := 0x1000050, width := 64, n0 := 9, s0 := 0x200000, n1 := 1, s1 := 0x0, n2 := 1, s2 := 0x0,
  flds := [PIPE_PARSE_CFG_vxlan_port, PIPE_PARSE_CFG_geneve_port, PIPE_PARSE_CFG_mplsudp_port, PIPE_PARSE_CFG_encap_en] }
def PIPE_HASH_CFG_seed : Fld := { base := 0x1000058, s0 := 0x200000, s1 := 0x0, s2 := 0x0, lo := 0, wd := 32, acc := .rws }
def reg_PIPE_HASH_CFG : RegDef := {
  name := "PIPE_HASH_CFG", base := 0x1000058, width := 32, n0 := 9, s0 := 0x200000, n1 := 1, s1 := 0x0, n2 := 1, s2 := 0x0,
  flds := [PIPE_HASH_CFG_seed] }
def PIPE_BASIC_CFG_flood_dest : Fld := { base := 0x1000060, s0 := 0x200000, s1 := 0x0, s2 := 0x0, lo := 48, wd := 16, acc := .rws }
def PIPE_BASIC_CFG_exc_dest : Fld := { base := 0x1000060, s0 := 0x200000, s1 := 0x0, s2 := 0x0, lo := 32, wd := 16, acc := .rws }
def PIPE_BASIC_CFG_rxq_grp : Fld := { base := 0x1000060, s0 := 0x200000, s1 := 0x0, s2 := 0x0, lo := 24, wd := 8, acc := .rws }
def PIPE_BASIC_CFG_class_dscp : Fld := { base := 0x1000060, s0 := 0x200000, s1 := 0x0, s2 := 0x0, lo := 23, wd := 1, acc := .rws }
def PIPE_BASIC_CFG_dflt_vlan : Fld := { base := 0x1000060, s0 := 0x200000, s1 := 0x0, s2 := 0x0, lo := 0, wd := 12, acc := .rws, rst := fun _ _ _ => 0x1 }
def reg_PIPE_BASIC_CFG : RegDef := {
  name := "PIPE_BASIC_CFG", base := 0x1000060, width := 64, n0 := 9, s0 := 0x200000, n1 := 1, s1 := 0x0, n2 := 1, s2 := 0x0,
  flds := [PIPE_BASIC_CFG_flood_dest, PIPE_BASIC_CFG_exc_dest, PIPE_BASIC_CFG_rxq_grp, PIPE_BASIC_CFG_class_dscp, PIPE_BASIC_CFG_dflt_vlan] }
def PIPE_BASIC_MAC_router_mac : Fld := { base := 0x1000068, s0 := 0x200000, s1 := 0x0, s2 := 0x0, lo := 0, wd := 48, acc := .rws }
def reg_PIPE_BASIC_MAC : RegDef := {
  name := "PIPE_BASIC_MAC", base := 0x1000068, width := 64, n0 := 9, s0 := 0x200000, n1 := 1, s1 := 0x0, n2 := 1, s2 := 0x0,
  flds := [PIPE_BASIC_MAC_router_mac] }
def PIPE_SRC_CFG_dflt_dest : Fld := { base := 0x1000100, s0 := 0x200000, s1 := 0x8, s2 := 0x0, lo := 48, wd := 16, acc := .rws }
def PIPE_SRC_CFG_exc_dest : Fld := { base := 0x1000100, s0 := 0x200000, s1 := 0x8, s2 := 0x0, lo := 32, wd := 16, acc := .rws }
def PIPE_SRC_CFG_slice : Fld := { base := 0x1000100, s0 := 0x200000, s1 := 0x8, s2 := 0x0, lo := 20, wd := 12, acc := .rws }
def PIPE_SRC_CFG_class : Fld := { base := 0x1000100, s0 := 0x200000, s1 := 0x8, s2 := 0x0, lo := 17, wd := 3, acc := .rws }
def PIPE_SRC_CFG_deep_action : Fld := { base := 0x1000100, s0 := 0x200000, s1 := 0x8, s2 := 0x0, lo := 14, wd := 2, acc := .rws }
def PIPE_SRC_CFG_malformed_action : Fld := { base := 0x1000100, s0 := 0x200000, s1 := 0x8, s2 := 0x0, lo := 12, wd := 2, acc := .rws }
def PIPE_SRC_CFG_hsel : Fld := { base := 0x1000100, s0 := 0x200000, s1 := 0x8, s2 := 0x0, lo := 10, wd := 2, acc := .rws }
def reg_PIPE_SRC_CFG : RegDef := {
  name := "PIPE_SRC_CFG", base := 0x1000100, width := 64, n0 := 9, s0 := 0x200000, n1 := 10, s1 := 0x8, n2 := 1, s2 := 0x0,
  flds := [PIPE_SRC_CFG_dflt_dest, PIPE_SRC_CFG_exc_dest, PIPE_SRC_CFG_slice, PIPE_SRC_CFG_class, PIPE_SRC_CFG_deep_action, PIPE_SRC_CFG_malformed_action, PIPE_SRC_CFG_hsel] }
def PIPE_STAGE_CFG_miss_act : Fld := { base := 0x1000200, s0 := 0x200000, s1 := 0x40, s2 := 0x0, lo := 48, wd := 16, acc := .rws }
def PIPE_STAGE_CFG_miss_en : Fld := { base := 0x1000200, s0 := 0x200000, s1 := 0x40, s2 := 0x0, lo := 47, wd := 1, acc := .rws }
def PIPE_STAGE_CFG_base_act : Fld := { base := 0x1000200, s0 := 0x200000, s1 := 0x40, s2 := 0x0, lo := 16, wd := 16, acc := .rws }
def PIPE_STAGE_CFG_nsel : Fld := { base := 0x1000200, s0 := 0x200000, s1 := 0x40, s2 := 0x0, lo := 8, wd := 4, acc := .rws }
def PIPE_STAGE_CFG_type : Fld := { base := 0x1000200, s0 := 0x200000, s1 := 0x40, s2 := 0x0, lo := 0, wd := 2, acc := .rws }
def reg_PIPE_STAGE_CFG : RegDef := {
  name := "PIPE_STAGE_CFG", base := 0x1000200, width := 64, n0 := 9, s0 := 0x200000, n1 := 16, s1 := 0x40, n2 := 1, s2 := 0x0,
  flds := [PIPE_STAGE_CFG_miss_act, PIPE_STAGE_CFG_miss_en, PIPE_STAGE_CFG_base_act, PIPE_STAGE_CFG_nsel, PIPE_STAGE_CFG_type] }
def PIPE_STAGE_SEL_src : Fld := { base := 0x1000208, s0 := 0x200000, s1 := 0x40, s2 := 0x4, lo := 30, wd := 2, acc := .rws }
def PIPE_STAGE_SEL_layer : Fld := { base := 0x1000208, s0 := 0x200000, s1 := 0x40, s2 := 0x4, lo := 28, wd := 2, acc := .rws }
def PIPE_STAGE_SEL_id : Fld := { base := 0x1000208, s0 := 0x200000, s1 := 0x40, s2 := 0x4, lo := 20, wd := 8, acc := .rws }
def PIPE_STAGE_SEL_lsb : Fld := { base := 0x1000208, s0 := 0x200000, s1 := 0x40, s2 := 0x4, lo := 12, wd := 8, acc := .rws }
def PIPE_STAGE_SEL_wm1 : Fld := { base := 0x1000208, s0 := 0x200000, s1 := 0x40, s2 := 0x4, lo := 5, wd := 7, acc := .rws }
def reg_PIPE_STAGE_SEL : RegDef := {
  name := "PIPE_STAGE_SEL", base := 0x1000208, width := 32, n0 := 9, s0 := 0x200000, n1 := 16, s1 := 0x40, n2 := 8, s2 := 0x4,
  flds := [PIPE_STAGE_SEL_src, PIPE_STAGE_SEL_layer, PIPE_STAGE_SEL_id, PIPE_STAGE_SEL_lsb, PIPE_STAGE_SEL_wm1] }
def PIPE_TCAM_MAP_en : Fld := { base := 0x1000600, s0 := 0x200000, s1 := 0x4, s2 := 0x0, lo := 4, wd := 1, acc := .rws }
def PIPE_TCAM_MAP_stage : Fld := { base := 0x1000600, s0 := 0x200000, s1 := 0x4, s2 := 0x0, lo := 0, wd := 4, acc := .rws }
def reg_PIPE_TCAM_MAP : RegDef := {
  name := "PIPE_TCAM_MAP", base := 0x1000600, width := 32, n0 := 9, s0 := 0x200000, n1 := 64, s1 := 0x4, n2 := 1, s2 := 0x0,
  flds := [PIPE_TCAM_MAP_en, PIPE_TCAM_MAP_stage] }
def PIPE_EM_MAP_en : Fld := { base := 0x1000700, s0 := 0x200000, s1 := 0x4, s2 := 0x0, lo := 4, wd := 1, acc := .rws }
def PIPE_EM_MAP_stage : Fld := { base := 0x1000700, s0 := 0x200000, s1 := 0x4, s2 := 0x0, lo := 0, wd := 4, acc := .rws }
def reg_PIPE_EM_MAP : RegDef := {
  name := "PIPE_EM_MAP", base := 0x1000700, width := 32, n0 := 9, s0 := 0x200000, n1 := 16, s1 := 0x4, n2 := 1, s2 := 0x0,
  flds := [PIPE_EM_MAP_en, PIPE_EM_MAP_stage] }
def PIPE_RXQ_GRP_count_m1 : Fld := { base := 0x1000800, s0 := 0x200000, s1 := 0x8, s2 := 0x0, lo := 32, wd := 12, acc := .rws }
def PIPE_RXQ_GRP_base : Fld := { base := 0x1000800, s0 := 0x200000, s1 := 0x8, s2 := 0x0, lo := 0, wd := 12, acc := .rws }
def reg_PIPE_RXQ_GRP : RegDef := {
  name := "PIPE_RXQ_GRP", base := 0x1000800, width := 64, n0 := 9, s0 := 0x200000, n1 := 256, s1 := 0x8, n2 := 1, s2 := 0x0,
  flds := [PIPE_RXQ_GRP_count_m1, PIPE_RXQ_GRP_base] }
def PIPE_ACT_IDX_idx : Fld := { base := 0x1001000, s0 := 0x200000, s1 := 0x0, s2 := 0x0, lo := 0, wd := 16, acc := .rw }
def reg_PIPE_ACT_IDX : RegDef := {
  name := "PIPE_ACT_IDX", base := 0x1001000, width := 32, n0 := 9, s0 := 0x200000, n1 := 1, s1 := 0x0, n2 := 1, s2 := 0x0,
  flds := [PIPE_ACT_IDX_idx] }
def PIPE_ACT_DATA_data : Fld := { base := 0x1001008, s0 := 0x200000, s1 := 0x8, s2 := 0x0, lo := 0, wd := 64, acc := .rw }
def reg_PIPE_ACT_DATA : RegDef := {
  name := "PIPE_ACT_DATA", base := 0x1001008, width := 64, n0 := 9, s0 := 0x200000, n1 := 4, s1 := 0x8, n2 := 1, s2 := 0x0,
  flds := [PIPE_ACT_DATA_data] }
def PIPE_ACT_CMD_read : Fld := { base := 0x1001028, s0 := 0x200000, s1 := 0x0, s2 := 0x0, lo := 1, wd := 1, acc := .wo }
def PIPE_ACT_CMD_write : Fld := { base := 0x1001028, s0 := 0x200000, s1 := 0x0, s2 := 0x0, lo := 0, wd := 1, acc := .wo }
def reg_PIPE_ACT_CMD : RegDef := {
  name := "PIPE_ACT_CMD", base := 0x1001028, width := 32, n0 := 9, s0 := 0x200000, n1 := 1, s1 := 0x0, n2 := 1, s2 := 0x0,
  flds := [PIPE_ACT_CMD_read, PIPE_ACT_CMD_write] }
def PIPE_CNT_count : Fld := { base := 0x1001100, s0 := 0x200000, s1 := 0x8, s2 := 0x0, lo := 0, wd := 64, acc := .ro }
def reg_PIPE_CNT : RegDef := {
  name := "PIPE_CNT", base := 0x1001100, width := 64, n0 := 9, s0 := 0x200000, n1 := 16, s1 := 0x8, n2 := 1, s2 := 0x0,
  flds := [PIPE_CNT_count] }
def PIPE_EM_CFG_act_base : Fld := { base := 0x1001200, s0 := 0x200000, s1 := 0x40, s2 := 0x0, lo := 48, wd := 16, acc := .rws }
def PIPE_EM_CFG_target : Fld := { base := 0x1001200, s0 := 0x200000, s1 := 0x40, s2 := 0x0, lo := 44, wd := 4, acc := .rws }
def PIPE_EM_CFG_nsel : Fld := { base := 0x1001200, s0 := 0x200000, s1 := 0x40, s2 := 0x0, lo := 40, wd := 4, acc := .rws }
def PIPE_EM_CFG_share : Fld := { base := 0x1001200, s0 := 0x200000, s1 := 0x40, s2 := 0x0, lo := 39, wd := 1, acc := .rws }
def PIPE_EM_CFG_share_rx : Fld := { base := 0x1001200, s0 := 0x200000, s1 := 0x40, s2 := 0x0, lo := 38, wd := 1, acc := .rws }
def PIPE_EM_CFG_evict : Fld := { base := 0x1001200, s0 := 0x200000, s1 := 0x40, s2 := 0x0, lo := 36, wd := 2, acc := .rws }
def PIPE_EM_CFG_sprout_match : Fld := { base := 0x1001200, s0 := 0x200000, s1 := 0x40, s2 := 0x0, lo := 35, wd := 1, acc := .rws, rst := fun _ _ _ => 0x1 }
def PIPE_EM_CFG_confirm : Fld := { base := 0x1001200, s0 := 0x200000, s1 := 0x40, s2 := 0x0, lo := 34, wd := 1, acc := .rws }
def PIPE_EM_CFG_hit_src : Fld := { base := 0x1001200, s0 := 0x200000, s1 := 0x40, s2 := 0x0, lo := 33, wd := 1, acc := .rws }
def PIPE_EM_CFG_ev_learn : Fld := { base := 0x1001200, s0 := 0x200000, s1 := 0x40, s2 := 0x0, lo := 32, wd := 1, acc := .rws, rst := fun _ _ _ => 0x1 }
def PIPE_EM_CFG_age_ms : Fld := { base := 0x1001200, s0 := 0x200000, s1 := 0x40, s2 := 0x0, lo := 16, wd := 16, acc := .rws, rst := fun _ _ _ => 0xEA60 }
def PIPE_EM_CFG_age_m1 : Fld := { base := 0x1001200, s0 := 0x200000, s1 := 0x40, s2 := 0x0, lo := 14, wd := 2, acc := .rws, rst := fun _ _ _ => 0x3 }
def PIPE_EM_CFG_ev_age : Fld := { base := 0x1001200, s0 := 0x200000, s1 := 0x40, s2 := 0x0, lo := 13, wd := 1, acc := .rws }
def reg_PIPE_EM_CFG : RegDef := {
  name := "PIPE_EM_CFG", base := 0x1001200, width := 64, n0 := 9, s0 := 0x200000, n1 := 17, s1 := 0x40, n2 := 1, s2 := 0x0,
  flds := [PIPE_EM_CFG_act_base, PIPE_EM_CFG_target, PIPE_EM_CFG_nsel, PIPE_EM_CFG_share, PIPE_EM_CFG_share_rx, PIPE_EM_CFG_evict, PIPE_EM_CFG_sprout_match, PIPE_EM_CFG_confirm, PIPE_EM_CFG_hit_src, PIPE_EM_CFG_ev_learn, PIPE_EM_CFG_age_ms, PIPE_EM_CFG_age_m1, PIPE_EM_CFG_ev_age] }
def PIPE_LEARN_SEL_src : Fld := { base := 0x1001208, s0 := 0x200000, s1 := 0x40, s2 := 0x4, lo := 30, wd := 2, acc := .rws }
def PIPE_LEARN_SEL_layer : Fld := { base := 0x1001208, s0 := 0x200000, s1 := 0x40, s2 := 0x4, lo := 28, wd := 2, acc := .rws }
def PIPE_LEARN_SEL_id : Fld := { base := 0x1001208, s0 := 0x200000, s1 := 0x40, s2 := 0x4, lo := 20, wd := 8, acc := .rws }
def PIPE_LEARN_SEL_lsb : Fld := { base := 0x1001208, s0 := 0x200000, s1 := 0x40, s2 := 0x4, lo := 12, wd := 8, acc := .rws }
def PIPE_LEARN_SEL_wm1 : Fld := { base := 0x1001208, s0 := 0x200000, s1 := 0x40, s2 := 0x4, lo := 5, wd := 7, acc := .rws }
def reg_PIPE_LEARN_SEL : RegDef := {
  name := "PIPE_LEARN_SEL", base := 0x1001208, width := 32, n0 := 9, s0 := 0x200000, n1 := 16, s1 := 0x40, n2 := 8, s2 := 0x4,
  flds := [PIPE_LEARN_SEL_src, PIPE_LEARN_SEL_layer, PIPE_LEARN_SEL_id, PIPE_LEARN_SEL_lsb, PIPE_LEARN_SEL_wm1] }
def PIPE_FLAP_CFG_move_hold_us : Fld := { base := 0x1001680, s0 := 0x200000, s1 := 0x0, s2 := 0x0, lo := 16, wd := 16, acc := .rw, rst := fun _ _ _ => 0x3E8 }
def PIPE_FLAP_CFG_pin_en : Fld := { base := 0x1001680, s0 := 0x200000, s1 := 0x0, s2 := 0x0, lo := 0, wd := 1, acc := .rw, rst := fun _ _ _ => 0x1 }
def reg_PIPE_FLAP_CFG : RegDef := {
  name := "PIPE_FLAP_CFG", base := 0x1001680, width := 32, n0 := 9, s0 := 0x200000, n1 := 1, s1 := 0x0, n2 := 1, s2 := 0x0,
  flds := [PIPE_FLAP_CFG_move_hold_us, PIPE_FLAP_CFG_pin_en] }
def PIPE_LEARN_STATUS_fifo : Fld := { base := 0x1001688, s0 := 0x200000, s1 := 0x0, s2 := 0x0, lo := 16, wd := 11, acc := .ro }
def PIPE_LEARN_STATUS_flushing : Fld := { base := 0x1001688, s0 := 0x200000, s1 := 0x0, s2 := 0x0, lo := 15, wd := 1, acc := .ro }
def PIPE_LEARN_STATUS_tracked : Fld := { base := 0x1001688, s0 := 0x200000, s1 := 0x0, s2 := 0x0, lo := 0, wd := 9, acc := .ro }
def reg_PIPE_LEARN_STATUS : RegDef := {
  name := "PIPE_LEARN_STATUS", base := 0x1001688, width := 32, n0 := 9, s0 := 0x200000, n1 := 1, s1 := 0x0, n2 := 1, s2 := 0x0,
  flds := [PIPE_LEARN_STATUS_fifo, PIPE_LEARN_STATUS_flushing, PIPE_LEARN_STATUS_tracked] }
def PIPE_TBL_CNT_count : Fld := { base := 0x1001700, s0 := 0x200000, s1 := 0x8, s2 := 0x0, lo := 0, wd := 64, acc := .ro }
def reg_PIPE_TBL_CNT : RegDef := {
  name := "PIPE_TBL_CNT", base := 0x1001700, width := 64, n0 := 9, s0 := 0x200000, n1 := 16, s1 := 0x8, n2 := 1, s2 := 0x0,
  flds := [PIPE_TBL_CNT_count] }

/-- The registers of the PIPE_ block after its common header. -/
def tbl_PIPE : List RegDef := [
  reg_PIPE_VER_COMMIT,
  reg_PIPE_VER_STATUS,
  reg_PIPE_PARSE_CFG,
  reg_PIPE_HASH_CFG,
  reg_PIPE_BASIC_CFG,
  reg_PIPE_BASIC_MAC,
  reg_PIPE_SRC_CFG,
  reg_PIPE_STAGE_CFG,
  reg_PIPE_STAGE_SEL,
  reg_PIPE_TCAM_MAP,
  reg_PIPE_EM_MAP,
  reg_PIPE_RXQ_GRP,
  reg_PIPE_ACT_IDX,
  reg_PIPE_ACT_DATA,
  reg_PIPE_ACT_CMD,
  reg_PIPE_CNT,
  reg_PIPE_EM_CFG,
  reg_PIPE_LEARN_SEL,
  reg_PIPE_FLAP_CFG,
  reg_PIPE_LEARN_STATUS,
  reg_PIPE_TBL_CNT]

/-! ### SWC_ registers (11_switch_core.md) -/

def SWC_CFG_lossless : Fld := { base := 0x2400040, s0 := 0x0, s1 := 0x0, s2 := 0x0, lo := 40, wd := 8, acc := .rws, rst := fun _ _ _ => 0xFF }
def SWC_CFG_lossy_limit : Fld := { base := 0x2400040, s0 := 0x0, s1 := 0x0, s2 := 0x0, lo := 20, wd := 20, acc := .rws, rst := fun _ _ _ => 0x4000 }
def SWC_CFG_mirror_limit : Fld := { base := 0x2400040, s0 := 0x0, s1 := 0x0, s2 := 0x0, lo := 0, wd := 20, acc := .rws, rst := fun _ _ _ => 0x1000 }
def reg_SWC_CFG : RegDef := {
  name := "SWC_CFG", base := 0x2400040, width := 64, n0 := 1, s0 := 0x0, n1 := 1, s1 := 0x0, n2 := 1, s2 := 0x0,
  flds := [SWC_CFG_lossless, SWC_CFG_lossy_limit, SWC_CFG_mirror_limit] }
def SWC_STATUS_refuse_cause : Fld := { base := 0x2400048, s0 := 0x0, s1 := 0x0, s2 := 0x0, lo := 60, wd := 4, acc := .ro }
def SWC_STATUS_shared_size : Fld := { base := 0x2400048, s0 := 0x0, s1 := 0x0, s2 := 0x0, lo := 40, wd := 20, acc := .ro }
def SWC_STATUS_shared_used : Fld := { base := 0x2400048, s0 := 0x0, s1 := 0x0, s2 := 0x0, lo := 20, wd := 20, acc := .ro }
def SWC_STATUS_free : Fld := { base := 0x2400048, s0 := 0x0, s1 := 0x0, s2 := 0x0, lo := 0, wd := 20, acc := .ro, rst := fun _ _ _ => 0x80000 }
def reg_SWC_STATUS : RegDef := {
  name := "SWC_STATUS", base := 0x2400048, width := 64, n0 := 1, s0 := 0x0, n1 := 1, s1 := 0x0, n2 := 1, s2 := 0x0,
  flds := [SWC_STATUS_refuse_cause, SWC_STATUS_shared_size, SWC_STATUS_shared_used, SWC_STATUS_free] }
def SWC_SLEEVE_CMD_go : Fld := { base := 0x2400050, s0 := 0x0, s1 := 0x0, s2 := 0x0, lo := 31, wd := 1, acc := .wo }
def SWC_SLEEVE_CMD_op : Fld := { base := 0x2400050, s0 := 0x0, s1 := 0x0, s2 := 0x0, lo := 28, wd := 3, acc := .rw }
def SWC_SLEEVE_CMD_clone : Fld := { base := 0x2400050, s0 := 0x0, s1 := 0x0, s2 := 0x0, lo := 27, wd := 1, acc := .rw }
def SWC_SLEEVE_CMD_pipe : Fld := { base := 0x2400050, s0 := 0x0, s1 := 0x0, s2 := 0x0, lo := 0, wd := 3, acc := .rw }
def reg_SWC_SLEEVE_CMD : RegDef := {
  name := "SWC_SLEEVE_CMD", base := 0x2400050, width := 32, n0 := 1, s0 := 0x0, n1 := 1, s1 := 0x0, n2 := 1, s2 := 0x0,
  flds := [SWC_SLEEVE_CMD_go, SWC_SLEEVE_CMD_op, SWC_SLEEVE_CMD_clone, SWC_SLEEVE_CMD_pipe] }
def SWC_SLEEVE_STATUS_status : Fld := { base := 0x2400058, s0 := 0x0, s1 := 0x0, s2 := 0x0, lo := 16, wd := 16, acc := .ro }
def SWC_SLEEVE_STATUS_pipe_drained : Fld := { base := 0x2400058, s0 := 0x0, s1 := 0x0, s2 := 0x0, lo := 11, wd := 1, acc := .ro }
def SWC_SLEEVE_STATUS_pipe : Fld := { base := 0x2400058, s0 := 0x0, s1 := 0x0, s2 := 0x0, lo := 8, wd := 3, acc := .ro }
def SWC_SLEEVE_STATUS_state : Fld := { base := 0x2400058, s0 := 0x0, s1 := 0x0, s2 := 0x0, lo := 0, wd := 3, acc := .ro }
def reg_SWC_SLEEVE_STATUS : RegDef := {
  name := "SWC_SLEEVE_STATUS", base := 0x2400058, width := 32, n0 := 1, s0 := 0x0, n1 := 1, s1 := 0x0, n2 := 1, s2 := 0x0,
  flds := [SWC_SLEEVE_STATUS_status, SWC_SLEEVE_STATUS_pipe_drained, SWC_SLEEVE_STATUS_pipe, SWC_SLEEVE_STATUS_state] }
def SWC_CNT_count : Fld := { base := 0x2400100, s0 := 0x8, s1 := 0x0, s2 := 0x0, lo := 0, wd := 64, acc := .ro }
def reg_SWC_CNT : RegDef := {
  name := "SWC_CNT", base := 0x2400100, width := 64, n0 := 16, s0 := 0x8, n1 := 1, s1 := 0x0, n2 := 1, s2 := 0x0,
  flds := [SWC_CNT_count] }
def SWC_ACCT_CFG_xon_delta : Fld := { base := 0x2410000, s0 := 0x10, s1 := 0x0, s2 := 0x0, lo := 48, wd := 16, acc := .rws, rst := fun _ _ _ => 0x20 }
def SWC_ACCT_CFG_alpha : Fld := { base := 0x2410000, s0 := 0x10, s1 := 0x0, s2 := 0x0, lo := 44, wd := 4, acc := .rws, rst := fun _ _ _ => 0x4 }
def SWC_ACCT_CFG_hdrm : Fld := { base := 0x2410000, s0 := 0x10, s1 := 0x0, s2 := 0x0, lo := 24, wd := 20, acc := .rws }
def SWC_ACCT_CFG_min : Fld := { base := 0x2410000, s0 := 0x10, s1 := 0x0, s2 := 0x0, lo := 0, wd := 20, acc := .rws, rst := fun _ _ _ => 0x40 }
def reg_SWC_ACCT_CFG : RegDef := {
  name := "SWC_ACCT_CFG", base := 0x2410000, width := 64, n0 := 556, s0 := 0x10, n1 := 1, s1 := 0x0, n2 := 1, s2 := 0x0,
  flds := [SWC_ACCT_CFG_xon_delta, SWC_ACCT_CFG_alpha, SWC_ACCT_CFG_hdrm, SWC_ACCT_CFG_min] }
def SWC_ACCT_STAT_overflow : Fld := { base := 0x2410008, s0 := 0x10, s1 := 0x0, s2 := 0x0, lo := 42, wd := 1, acc := .w1c }
def SWC_ACCT_STAT_in_hdrm : Fld := { base := 0x2410008, s0 := 0x10, s1 := 0x0, s2 := 0x0, lo := 41, wd := 1, acc := .ro }
def SWC_ACCT_STAT_xoff : Fld := { base := 0x2410008, s0 := 0x10, s1 := 0x0, s2 := 0x0, lo := 40, wd := 1, acc := .ro }
def SWC_ACCT_STAT_peak : Fld := { base := 0x2410008, s0 := 0x10, s1 := 0x0, s2 := 0x0, lo := 20, wd := 20, acc := .rc }
def SWC_ACCT_STAT_cells : Fld := { base := 0x2410008, s0 := 0x10, s1 := 0x0, s2 := 0x0, lo := 0, wd := 20, acc := .ro }
def reg_SWC_ACCT_STAT : RegDef := {
  name := "SWC_ACCT_STAT", base := 0x2410008, width := 64, n0 := 556, s0 := 0x10, n1 := 1, s1 := 0x0, n2 := 1, s2 := 0x0,
  flds := [SWC_ACCT_STAT_overflow, SWC_ACCT_STAT_in_hdrm, SWC_ACCT_STAT_xoff, SWC_ACCT_STAT_peak, SWC_ACCT_STAT_cells] }
def SWC_REPL_HEAD_valid : Fld := { base := 0x2420000, s0 := 0x4, s1 := 0x0, s2 := 0x0, lo := 31, wd := 1, acc := .rw }
def SWC_REPL_HEAD_first : Fld := { base := 0x2420000, s0 := 0x4, s1 := 0x0, s2 := 0x0, lo := 0, wd := 14, acc := .rw }
def reg_SWC_REPL_HEAD : RegDef := {
  name := "SWC_REPL_HEAD", base := 0x2420000, width := 32, n0 := 4096, s0 := 0x4, n1 := 1, s1 := 0x0, n2 := 1, s2 := 0x0,
  flds := [SWC_REPL_HEAD_valid, SWC_REPL_HEAD_first] }
def SWC_REPL_ENT_dest : Fld := { base := 0x2430000, s0 := 0x4, s1 := 0x0, s2 := 0x0, lo := 16, wd := 16, acc := .rw }
def SWC_REPL_ENT_last : Fld := { base := 0x2430000, s0 := 0x4, s1 := 0x0, s2 := 0x0, lo := 15, wd := 1, acc := .rw }
def SWC_REPL_ENT_next : Fld := { base := 0x2430000, s0 := 0x4, s1 := 0x0, s2 := 0x0, lo := 0, wd := 14, acc := .rw }
def reg_SWC_REPL_ENT : RegDef := {
  name := "SWC_REPL_ENT", base := 0x2430000, width := 32, n0 := 16384, s0 := 0x4, n1 := 1, s1 := 0x0, n2 := 1, s2 := 0x0,
  flds := [SWC_REPL_ENT_dest, SWC_REPL_ENT_last, SWC_REPL_ENT_next] }
def SWC_OQ_DEPTH_cells : Fld := { base := 0x2440000, s0 := 0x4, s1 := 0x0, s2 := 0x0, lo := 0, wd := 20, acc := .ro }
def reg_SWC_OQ_DEPTH : RegDef := {
  name := "SWC_OQ_DEPTH", base := 0x2440000, width := 32, n0 := 5712, s0 := 0x4, n1 := 1, s1 := 0x0, n2 := 1, s2 := 0x0,
  flds := [SWC_OQ_DEPTH_cells] }

/-- The registers of the SWC_ block after its common header. -/
def tbl_SWC : List RegDef := [
  reg_SWC_CFG,
  reg_SWC_STATUS,
  reg_SWC_SLEEVE_CMD,
  reg_SWC_SLEEVE_STATUS,
  reg_SWC_CNT,
  reg_SWC_ACCT_CFG,
  reg_SWC_ACCT_STAT,
  reg_SWC_REPL_HEAD,
  reg_SWC_REPL_ENT,
  reg_SWC_OQ_DEPTH]

/-! ### TM_ registers (12_traffic_management.md) -/

def TM_CFG_sample_us : Fld := { base := 0x2600040, s0 := 0x0, s1 := 0x0, s2 := 0x0, lo := 48, wd := 16, acc := .rws }
def TM_CFG_ovh_bytes : Fld := { base := 0x2600040, s0 := 0x0, s1 := 0x0, s2 := 0x0, lo := 40, wd := 8, acc := .rws, rst := fun _ _ _ => 0x14 }
def TM_CFG_apron_guard_ns : Fld := { base := 0x2600040, s0 := 0x0, s1 := 0x0, s2 := 0x0, lo := 32, wd := 8, acc := .rws, rst := fun _ _ _ => 0x8 }
def reg_TM_CFG : RegDef := {
  name := "TM_CFG", base := 0x2600040, width := 64, n0 := 1, s0 := 0x0, n1 := 1, s1 := 0x0, n2 := 1, s2 := 0x0,
  flds := [TM_CFG_sample_us, TM_CFG_ovh_bytes, TM_CFG_apron_guard_ns] }
def TM_STATUS_gate_lists : Fld := { base := 0x2600048, s0 := 0x0, s1 := 0x0, s2 := 0x0, lo := 16, wd := 8, acc := .ro }
def TM_STATUS_refused : Fld := { base := 0x2600048, s0 := 0x0, s1 := 0x0, s2 := 0x0, lo := 4, wd := 1, acc := .w1c }
def TM_STATUS_refuse_cause : Fld := { base := 0x2600048, s0 := 0x0, s1 := 0x0, s2 := 0x0, lo := 0, wd := 4, acc := .ro }
def reg_TM_STATUS : RegDef := {
  name := "TM_STATUS", base := 0x2600048, width := 32, n0 := 1, s0 := 0x0, n1 := 1, s1 := 0x0, n2 := 1, s2 := 0x0,
  flds := [TM_STATUS_gate_lists, TM_STATUS_refused, TM_STATUS_refuse_cause] }
def TM_POLICE_CTRL_all_drop : Fld := { base := 0x2600050, s0 := 0x0, s1 := 0x0, s2 := 0x0, lo := 0, wd := 1, acc := .rw }
def reg_TM_POLICE_CTRL : RegDef := {
  name := "TM_POLICE_CTRL", base := 0x2600050, width := 32, n0 := 1, s0 := 0x0, n1 := 1, s1 := 0x0, n2 := 1, s2 := 0x0,
  flds := [TM_POLICE_CTRL_all_drop] }
def TM_POL_IDX_idx : Fld := { base := 0x2600058, s0 := 0x0, s1 := 0x0, s2 := 0x0, lo := 0, wd := 16, acc := .rw }
def reg_TM_POL_IDX : RegDef := {
  name := "TM_POL_IDX", base := 0x2600058, width := 32, n0 := 1, s0 := 0x0, n1 := 1, s1 := 0x0, n2 := 1, s2 := 0x0,
  flds := [TM_POL_IDX_idx] }
def TM_POL_DATA_data : Fld := { base := 0x2600060, s0 := 0x8, s1 := 0x0, s2 := 0x0, lo := 0, wd := 64, acc := .rw }
def reg_TM_POL_DATA : RegDef := {
  name := "TM_POL_DATA", base := 0x2600060, width := 64, n0 := 8, s0 := 0x8, n1 := 1, s1 := 0x0, n2 := 1, s2 := 0x0,
  flds := [TM_POL_DATA_data] }
def TM_POL_CMD_clear : Fld := { base := 0x26000A0, s0 := 0x0, s1 := 0x0, s2 := 0x0, lo := 2, wd := 1, acc := .wo }
def TM_POL_CMD_read : Fld := { base := 0x26000A0, s0 := 0x0, s1 := 0x0, s2 := 0x0, lo := 1, wd := 1, acc := .wo }
def TM_POL_CMD_write : Fld := { base := 0x26000A0, s0 := 0x0, s1 := 0x0, s2 := 0x0, lo := 0, wd := 1, acc := .wo }
def reg_TM_POL_CMD : RegDef := {
  name := "TM_POL_CMD", base := 0x26000A0, width := 32, n0 := 1, s0 := 0x0, n1 := 1, s1 := 0x0, n2 := 1, s2 := 0x0,
  flds := [TM_POL_CMD_clear, TM_POL_CMD_read, TM_POL_CMD_write] }
def TM_GATE_FORCE_force : Fld := { base := 0x26000A8, s0 := 0x0, s1 := 0x0, s2 := 0x0, lo := 0, wd := 64, acc := .rw }
def reg_TM_GATE_FORCE : RegDef := {
  name := "TM_GATE_FORCE", base := 0x26000A8, width := 64, n0 := 1, s0 := 0x0, n1 := 1, s1 := 0x0, n2 := 1, s2 := 0x0,
  flds := [TM_GATE_FORCE_force] }
def TM_CNT_count : Fld := { base := 0x2600100, s0 := 0x8, s1 := 0x0, s2 := 0x0, lo := 0, wd := 64, acc := .ro }
def reg_TM_CNT : RegDef := {
  name := "TM_CNT", base := 0x2600100, width := 64, n0 := 16, s0 := 0x8, n1 := 1, s1 := 0x0, n2 := 1, s2 := 0x0,
  flds := [TM_CNT_count] }
def TM_SCHED_CFG_strict : Fld := { base := 0x2601000, s0 := 0x40, s1 := 0x0, s2 := 0x0, lo := 8, wd := 8, acc := .rws, rst := fun _ _ _ => 0xC0 }
def TM_SCHED_CFG_gate_en : Fld := { base := 0x2601000, s0 := 0x40, s1 := 0x0, s2 := 0x0, lo := 0, wd := 1, acc := .rws }
def reg_TM_SCHED_CFG : RegDef := {
  name := "TM_SCHED_CFG", base := 0x2601000, width := 32, n0 := 73, s0 := 0x40, n1 := 1, s1 := 0x0, n2 := 1, s2 := 0x0,
  flds := [TM_SCHED_CFG_strict, TM_SCHED_CFG_gate_en] }
def TM_QUANTUM_quantum : Fld := { base := 0x2601008, s0 := 0x40, s1 := 0x4, s2 := 0x0, lo := 0, wd := 20, acc := .rws, rst := fun _ _ _ => 0x2600 }
def reg_TM_QUANTUM : RegDef := {
  name := "TM_QUANTUM", base := 0x2601008, width := 32, n0 := 73, s0 := 0x40, n1 := 8, s1 := 0x4, n2 := 1, s2 := 0x0,
  flds := [TM_QUANTUM_quantum] }
def TM_GATE_CFG_base_time : Fld := { base := 0x2603000, s0 := 0x20, s1 := 0x0, s2 := 0x0, lo := 0, wd := 64, acc := .rws }
def reg_TM_GATE_CFG : RegDef := {
  name := "TM_GATE_CFG", base := 0x2603000, width := 64, n0 := 64, s0 := 0x20, n1 := 1, s1 := 0x0, n2 := 1, s2 := 0x0,
  flds := [TM_GATE_CFG_base_time] }
def TM_GATE_LIST_idle_gates : Fld := { base := 0x2603008, s0 := 0x20, s1 := 0x0, s2 := 0x0, lo := 16, wd := 8, acc := .rws, rst := fun _ _ _ => 0xFF }
def TM_GATE_LIST_count : Fld := { base := 0x2603008, s0 := 0x20, s1 := 0x0, s2 := 0x0, lo := 0, wd := 9, acc := .rws }
def reg_TM_GATE_LIST : RegDef := {
  name := "TM_GATE_LIST", base := 0x2603008, width := 32, n0 := 64, s0 := 0x20, n1 := 1, s1 := 0x0, n2 := 1, s2 := 0x0,
  flds := [TM_GATE_LIST_idle_gates, TM_GATE_LIST_count] }
def TM_GATE_STATUS_cycle_ns : Fld := { base := 0x2603010, s0 := 0x20, s1 := 0x0, s2 := 0x0, lo := 32, wd := 32, acc := .ro }
def TM_GATE_STATUS_entry : Fld := { base := 0x2603010, s0 := 0x20, s1 := 0x0, s2 := 0x0, lo := 24, wd := 8, acc := .ro }
def TM_GATE_STATUS_gates : Fld := { base := 0x2603010, s0 := 0x20, s1 := 0x0, s2 := 0x0, lo := 16, wd := 8, acc := .ro, rst := fun _ _ _ => 0xFF }
def TM_GATE_STATUS_running : Fld := { base := 0x2603010, s0 := 0x20, s1 := 0x0, s2 := 0x0, lo := 0, wd := 1, acc := .ro }
def reg_TM_GATE_STATUS : RegDef := {
  name := "TM_GATE_STATUS", base := 0x2603010, width := 64, n0 := 64, s0 := 0x20, n1 := 1, s1 := 0x0, n2 := 1, s2 := 0x0,
  flds := [TM_GATE_STATUS_cycle_ns, TM_GATE_STATUS_entry, TM_GATE_STATUS_gates, TM_GATE_STATUS_running] }
def TM_GATE_ENT_gates : Fld := { base := 0x2610000, s0 := 0x800, s1 := 0x8, s2 := 0x0, lo := 32, wd := 8, acc := .rws }
def TM_GATE_ENT_interval_ns : Fld := { base := 0x2610000, s0 := 0x800, s1 := 0x8, s2 := 0x0, lo := 0, wd := 32, acc := .rws }
def reg_TM_GATE_ENT : RegDef := {
  name := "TM_GATE_ENT", base := 0x2610000, width := 64, n0 := 64, s0 := 0x800, n1 := 256, s1 := 0x8, n2 := 1, s2 := 0x0,
  flds := [TM_GATE_ENT_gates, TM_GATE_ENT_interval_ns] }
def TM_SHAPER_CFG_burst : Fld := { base := 0x2640000, s0 := 0x10, s1 := 0x0, s2 := 0x0, lo := 40, wd := 24, acc := .rws, rst := fun _ _ _ => 0x2600 }
def TM_SHAPER_CFG_refill_zero : Fld := { base := 0x2640000, s0 := 0x10, s1 := 0x0, s2 := 0x0, lo := 39, wd := 1, acc := .rws }
def TM_SHAPER_CFG_rate_kbps : Fld := { base := 0x2640000, s0 := 0x10, s1 := 0x0, s2 := 0x0, lo := 0, wd := 32, acc := .rws }
def reg_TM_SHAPER_CFG : RegDef := {
  name := "TM_SHAPER_CFG", base := 0x2640000, width := 64, n0 := 4096, s0 := 0x10, n1 := 1, s1 := 0x0, n2 := 1, s2 := 0x0,
  flds := [TM_SHAPER_CFG_burst, TM_SHAPER_CFG_refill_zero, TM_SHAPER_CFG_rate_kbps] }
def TM_SHAPER_STAT_held : Fld := { base := 0x2640008, s0 := 0x10, s1 := 0x0, s2 := 0x0, lo := 32, wd := 1, acc := .ro }
def TM_SHAPER_STAT_tokens : Fld := { base := 0x2640008, s0 := 0x10, s1 := 0x0, s2 := 0x0, lo := 0, wd := 32, acc := .ro }
def reg_TM_SHAPER_STAT : RegDef := {
  name := "TM_SHAPER_STAT", base := 0x2640008, width := 64, n0 := 4096, s0 := 0x10, n1 := 1, s1 := 0x0, n2 := 1, s2 := 0x0,
  flds := [TM_SHAPER_STAT_held, TM_SHAPER_STAT_tokens] }
def TM_Q_LAST_delay_ns : Fld := { base := 0x2660000, s0 := 0x10, s1 := 0x0, s2 := 0x0, lo := 32, wd := 32, acc := .ro }
def TM_Q_LAST_depth : Fld := { base := 0x2660000, s0 := 0x10, s1 := 0x0, s2 := 0x0, lo := 0, wd := 20, acc := .ro }
def reg_TM_Q_LAST : RegDef := {
  name := "TM_Q_LAST", base := 0x2660000, width := 64, n0 := 584, s0 := 0x10, n1 := 1, s1 := 0x0, n2 := 1, s2 := 0x0,
  flds := [TM_Q_LAST_delay_ns, TM_Q_LAST_depth] }
def TM_Q_MAX_delay_ns : Fld := { base := 0x2660008, s0 := 0x10, s1 := 0x0, s2 := 0x0, lo := 32, wd := 32, acc := .rc }
def TM_Q_MAX_depth : Fld := { base := 0x2660008, s0 := 0x10, s1 := 0x0, s2 := 0x0, lo := 0, wd := 20, acc := .rc }
def reg_TM_Q_MAX : RegDef := {
  name := "TM_Q_MAX", base := 0x2660008, width := 64, n0 := 584, s0 := 0x10, n1 := 1, s1 := 0x0, n2 := 1, s2 := 0x0,
  flds := [TM_Q_MAX_delay_ns, TM_Q_MAX_depth] }

/-- The registers of the TM_ block after its common header. -/
def tbl_TM : List RegDef := [
  reg_TM_CFG,
  reg_TM_STATUS,
  reg_TM_POLICE_CTRL,
  reg_TM_POL_IDX,
  reg_TM_POL_DATA,
  reg_TM_POL_CMD,
  reg_TM_GATE_FORCE,
  reg_TM_CNT,
  reg_TM_SCHED_CFG,
  reg_TM_QUANTUM,
  reg_TM_GATE_CFG,
  reg_TM_GATE_LIST,
  reg_TM_GATE_STATUS,
  reg_TM_GATE_ENT,
  reg_TM_SHAPER_CFG,
  reg_TM_SHAPER_STAT,
  reg_TM_Q_LAST,
  reg_TM_Q_MAX]

/-! ### RDM_ registers (13_rdma.md) -/

def RDM_QP_CACHE_CFG_fetch_max : Fld := { base := 0x2800040, s0 := 0x0, s1 := 0x0, s2 := 0x0, lo := 24, wd := 8, acc := .rw, rst := fun _ _ _ => 0x40 }
def RDM_QP_CACHE_CFG_min_idle_us : Fld := { base := 0x2800040, s0 := 0x0, s1 := 0x0, s2 := 0x0, lo := 0, wd := 16, acc := .rw, rst := fun _ _ _ => 0xA }
def reg_RDM_QP_CACHE_CFG : RegDef := {
  name := "RDM_QP_CACHE_CFG", base := 0x2800040, width := 32, n0 := 1, s0 := 0x0, n1 := 1, s1 := 0x0, n2 := 1, s2 := 0x0,
  flds := [RDM_QP_CACHE_CFG_fetch_max, RDM_QP_CACHE_CFG_min_idle_us] }
def RDM_QP_CACHE_STATUS_fetching : Fld := { base := 0x2800048, s0 := 0x0, s1 := 0x0, s2 := 0x0, lo := 24, wd := 8, acc := .ro }
def RDM_QP_CACHE_STATUS_resident : Fld := { base := 0x2800048, s0 := 0x0, s1 := 0x0, s2 := 0x0, lo := 0, wd := 15, acc := .ro }
def reg_RDM_QP_CACHE_STATUS : RegDef := {
  name := "RDM_QP_CACHE_STATUS", base := 0x2800048, width := 32, n0 := 1, s0 := 0x0, n1 := 1, s1 := 0x0, n2 := 1, s2 := 0x0,
  flds := [RDM_QP_CACHE_STATUS_fetching, RDM_QP_CACHE_STATUS_resident] }
def RDM_HWB_CFG_xon : Fld := { base := 0x2800050, s0 := 0x0, s1 := 0x0, s2 := 0x0, lo := 16, wd := 14, acc := .rw, rst := fun _ _ _ => 0x1000 }
def RDM_HWB_CFG_xoff : Fld := { base := 0x2800050, s0 := 0x0, s1 := 0x0, s2 := 0x0, lo := 0, wd := 14, acc := .rw, rst := fun _ _ _ => 0x1800 }
def reg_RDM_HWB_CFG : RegDef := {
  name := "RDM_HWB_CFG", base := 0x2800050, width := 32, n0 := 1, s0 := 0x0, n1 := 1, s1 := 0x0, n2 := 1, s2 := 0x0,
  flds := [RDM_HWB_CFG_xon, RDM_HWB_CFG_xoff] }
def RDM_HWB_STATUS_kib : Fld := { base := 0x2800058, s0 := 0x0, s1 := 0x0, s2 := 0x0, lo := 16, wd := 16, acc := .ro }
def RDM_HWB_STATUS_xoff : Fld := { base := 0x2800058, s0 := 0x0, s1 := 0x0, s2 := 0x0, lo := 14, wd := 1, acc := .ro }
def RDM_HWB_STATUS_packets : Fld := { base := 0x2800058, s0 := 0x0, s1 := 0x0, s2 := 0x0, lo := 0, wd := 14, acc := .ro }
def reg_RDM_HWB_STATUS : RegDef := {
  name := "RDM_HWB_STATUS", base := 0x2800058, width := 32, n0 := 1, s0 := 0x0, n1 := 1, s1 := 0x0, n2 := 1, s2 := 0x0,
  flds := [RDM_HWB_STATUS_kib, RDM_HWB_STATUS_xoff, RDM_HWB_STATUS_packets] }
def RDM_CC_CFG_rate_min_mbps : Fld := { base := 0x2800060, s0 := 0x0, s1 := 0x0, s2 := 0x0, lo := 48, wd := 16, acc := .rws, rst := fun _ _ _ => 0x64 }
def RDM_CC_CFG_g_shift : Fld := { base := 0x2800060, s0 := 0x0, s1 := 0x0, s2 := 0x0, lo := 40, wd := 8, acc := .rws, rst := fun _ _ _ => 0x8 }
def RDM_CC_CFG_rai_mbps : Fld := { base := 0x2800060, s0 := 0x0, s1 := 0x0, s2 := 0x0, lo := 16, wd := 16, acc := .rws, rst := fun _ _ _ => 0x28 }
def RDM_CC_CFG_inc_us : Fld := { base := 0x2800060, s0 := 0x0, s1 := 0x0, s2 := 0x0, lo := 8, wd := 8, acc := .rws, rst := fun _ _ _ => 0x37 }
def RDM_CC_CFG_cnp_gap_us : Fld := { base := 0x2800060, s0 := 0x0, s1 := 0x0, s2 := 0x0, lo := 0, wd := 8, acc := .rws, rst := fun _ _ _ => 0x32 }
def reg_RDM_CC_CFG : RegDef := {
  name := "RDM_CC_CFG", base := 0x2800060, width := 64, n0 := 1, s0 := 0x0, n1 := 1, s1 := 0x0, n2 := 1, s2 := 0x0,
  flds := [RDM_CC_CFG_rate_min_mbps, RDM_CC_CFG_g_shift, RDM_CC_CFG_rai_mbps, RDM_CC_CFG_inc_us, RDM_CC_CFG_cnp_gap_us] }
def RDM_CC_RATE_rate_max_mbps : Fld := { base := 0x2800068, s0 := 0x0, s1 := 0x0, s2 := 0x0, lo := 0, wd := 32, acc := .rws, rst := fun _ _ _ => 0xC3500 }
def reg_RDM_CC_RATE : RegDef := {
  name := "RDM_CC_RATE", base := 0x2800068, width := 32, n0 := 1, s0 := 0x0, n1 := 1, s1 := 0x0, n2 := 1, s2 := 0x0,
  flds := [RDM_CC_RATE_rate_max_mbps] }
def RDM_NP_CFG_cnp_np_us : Fld := { base := 0x2800070, s0 := 0x0, s1 := 0x0, s2 := 0x0, lo := 16, wd := 16, acc := .rws, rst := fun _ _ _ => 0x32 }
def RDM_NP_CFG_cnp_dscp : Fld := { base := 0x2800070, s0 := 0x0, s1 := 0x0, s2 := 0x0, lo := 10, wd := 6, acc := .rws, rst := fun _ _ _ => 0x30 }
def RDM_NP_CFG_cnp_class : Fld := { base := 0x2800070, s0 := 0x0, s1 := 0x0, s2 := 0x0, lo := 4, wd := 3, acc := .rws, rst := fun _ _ _ => 0x6 }
def RDM_NP_CFG_np_en : Fld := { base := 0x2800070, s0 := 0x0, s1 := 0x0, s2 := 0x0, lo := 0, wd := 1, acc := .rws, rst := fun _ _ _ => 0x1 }
def reg_RDM_NP_CFG : RegDef := {
  name := "RDM_NP_CFG", base := 0x2800070, width := 32, n0 := 1, s0 := 0x0, n1 := 1, s1 := 0x0, n2 := 1, s2 := 0x0,
  flds := [RDM_NP_CFG_cnp_np_us, RDM_NP_CFG_cnp_dscp, RDM_NP_CFG_cnp_class, RDM_NP_CFG_np_en] }
def RDM_GSI_CFG_gsi_dest : Fld := { base := 0x2800078, s0 := 0x0, s1 := 0x0, s2 := 0x0, lo := 0, wd := 16, acc := .rw }
def reg_RDM_GSI_CFG : RegDef := {
  name := "RDM_GSI_CFG", base := 0x2800078, width := 32, n0 := 1, s0 := 0x0, n1 := 1, s1 := 0x0, n2 := 1, s2 := 0x0,
  flds := [RDM_GSI_CFG_gsi_dest] }
def RDM_HUSK_MAP_addr : Fld := { base := 0x2800100, s0 := 0x8, s1 := 0x0, s2 := 0x0, lo := 21, wd := 43, acc := .rwl }
def RDM_HUSK_MAP_loc : Fld := { base := 0x2800100, s0 := 0x8, s1 := 0x0, s2 := 0x0, lo := 0, wd := 2, acc := .rwl }
def reg_RDM_HUSK_MAP : RegDef := {
  name := "RDM_HUSK_MAP", base := 0x2800100, width := 64, n0 := 64, s0 := 0x8, n1 := 1, s1 := 0x0, n2 := 1, s2 := 0x0,
  flds := [RDM_HUSK_MAP_addr, RDM_HUSK_MAP_loc] }
def RDM_CNT_count : Fld := { base := 0x2800300, s0 := 0x8, s1 := 0x0, s2 := 0x0, lo := 0, wd := 64, acc := .ro }
def reg_RDM_CNT : RegDef := {
  name := "RDM_CNT", base := 0x2800300, width := 64, n0 := 16, s0 := 0x8, n1 := 1, s1 := 0x0, n2 := 1, s2 := 0x0,
  flds := [RDM_CNT_count] }

/-- The registers of the RDM_ block after its common header. -/
def tbl_RDM : List RegDef := [
  reg_RDM_QP_CACHE_CFG,
  reg_RDM_QP_CACHE_STATUS,
  reg_RDM_HWB_CFG,
  reg_RDM_HWB_STATUS,
  reg_RDM_CC_CFG,
  reg_RDM_CC_RATE,
  reg_RDM_NP_CFG,
  reg_RDM_GSI_CFG,
  reg_RDM_HUSK_MAP,
  reg_RDM_CNT]

/-! ### STQ_ registers (14_storage_queues.md) -/

def STQ_CMD_go : Fld := { base := 0x2A00040, s0 := 0x0, s1 := 0x0, s2 := 0x0, lo := 31, wd := 1, acc := .wo }
def STQ_CMD_op : Fld := { base := 0x2A00040, s0 := 0x0, s1 := 0x0, s2 := 0x0, lo := 28, wd := 3, acc := .rw }
def STQ_CMD_flush : Fld := { base := 0x2A00040, s0 := 0x0, s1 := 0x0, s2 := 0x0, lo := 27, wd := 1, acc := .rw }
def STQ_CMD_volume : Fld := { base := 0x2A00040, s0 := 0x0, s1 := 0x0, s2 := 0x0, lo := 0, wd := 12, acc := .rw }
def reg_STQ_CMD : RegDef := {
  name := "STQ_CMD", base := 0x2A00040, width := 32, n0 := 1, s0 := 0x0, n1 := 1, s1 := 0x0, n2 := 1, s2 := 0x0,
  flds := [STQ_CMD_go, STQ_CMD_op, STQ_CMD_flush, STQ_CMD_volume] }
def STQ_CMD_STATUS_status : Fld := { base := 0x2A00048, s0 := 0x0, s1 := 0x0, s2 := 0x0, lo := 16, wd := 16, acc := .ro }
def STQ_CMD_STATUS_busy : Fld := { base := 0x2A00048, s0 := 0x0, s1 := 0x0, s2 := 0x0, lo := 0, wd := 1, acc := .ro }
def reg_STQ_CMD_STATUS : RegDef := {
  name := "STQ_CMD_STATUS", base := 0x2A00048, width := 32, n0 := 1, s0 := 0x0, n1 := 1, s1 := 0x0, n2 := 1, s2 := 0x0,
  flds := [STQ_CMD_STATUS_status, STQ_CMD_STATUS_busy] }
def STQ_STATUS_refuse_cause : Fld := { base := 0x2A00050, s0 := 0x0, s1 := 0x0, s2 := 0x0, lo := 28, wd := 4, acc := .ro }
def STQ_STATUS_refused : Fld := { base := 0x2A00050, s0 := 0x0, s1 := 0x0, s2 := 0x0, lo := 27, wd := 1, acc := .w1c }
def STQ_STATUS_volumes : Fld := { base := 0x2A00050, s0 := 0x0, s1 := 0x0, s2 := 0x0, lo := 0, wd := 13, acc := .ro }
def reg_STQ_STATUS : RegDef := {
  name := "STQ_STATUS", base := 0x2A00050, width := 32, n0 := 1, s0 := 0x0, n1 := 1, s1 := 0x0, n2 := 1, s2 := 0x0,
  flds := [STQ_STATUS_refuse_cause, STQ_STATUS_refused, STQ_STATUS_volumes] }
def STQ_VOL_STAGE_rec : Fld := { base := 0x2A00100, s0 := 0x8, s1 := 0x0, s2 := 0x0, lo := 0, wd := 64, acc := .rw }
def reg_STQ_VOL_STAGE : RegDef := {
  name := "STQ_VOL_STAGE", base := 0x2A00100, width := 64, n0 := 8, s0 := 0x8, n1 := 1, s1 := 0x0, n2 := 1, s2 := 0x0,
  flds := [STQ_VOL_STAGE_rec] }
def STQ_CNT_count : Fld := { base := 0x2A00200, s0 := 0x8, s1 := 0x0, s2 := 0x0, lo := 0, wd := 64, acc := .ro }
def reg_STQ_CNT : RegDef := {
  name := "STQ_CNT", base := 0x2A00200, width := 64, n0 := 16, s0 := 0x8, n1 := 1, s1 := 0x0, n2 := 1, s2 := 0x0,
  flds := [STQ_CNT_count] }
def STQ_VOL_STATE_elog_low : Fld := { base := 0x2A10000, s0 := 0x8, s1 := 0x0, s2 := 0x0, lo := 48, wd := 16, acc := .ro }
def STQ_VOL_STATE_inflight : Fld := { base := 0x2A10000, s0 := 0x8, s1 := 0x0, s2 := 0x0, lo := 26, wd := 11, acc := .ro }
def STQ_VOL_STATE_queues : Fld := { base := 0x2A10000, s0 := 0x8, s1 := 0x0, s2 := 0x0, lo := 11, wd := 15, acc := .ro }
def STQ_VOL_STATE_cause : Fld := { base := 0x2A10000, s0 := 0x8, s1 := 0x0, s2 := 0x0, lo := 8, wd := 3, acc := .ro }
def STQ_VOL_STATE_pstate : Fld := { base := 0x2A10000, s0 := 0x8, s1 := 0x0, s2 := 0x0, lo := 4, wd := 4, acc := .ro }
def STQ_VOL_STATE_state : Fld := { base := 0x2A10000, s0 := 0x8, s1 := 0x0, s2 := 0x0, lo := 0, wd := 2, acc := .ro }
def reg_STQ_VOL_STATE : RegDef := {
  name := "STQ_VOL_STATE", base := 0x2A10000, width := 64, n0 := 4096, s0 := 0x8, n1 := 1, s1 := 0x0, n2 := 1, s2 := 0x0,
  flds := [STQ_VOL_STATE_elog_low, STQ_VOL_STATE_inflight, STQ_VOL_STATE_queues, STQ_VOL_STATE_cause, STQ_VOL_STATE_pstate, STQ_VOL_STATE_state] }

/-- The registers of the STQ_ block after its common header. -/
def tbl_STQ : List RegDef := [
  reg_STQ_CMD,
  reg_STQ_CMD_STATUS,
  reg_STQ_STATUS,
  reg_STQ_VOL_STAGE,
  reg_STQ_CNT,
  reg_STQ_VOL_STATE]

/-! ### WLK_ registers (15_wilotte_link.md) -/

def WLK_CFG_replay_ns : Fld := { base := 0x2C00040, s0 := 0x20000, s1 := 0x0, s2 := 0x0, lo := 16, wd := 16, acc := .rws, rst := fun _ _ _ => 0x7D0 }
def WLK_CFG_replay_max : Fld := { base := 0x2C00040, s0 := 0x20000, s1 := 0x0, s2 := 0x0, lo := 12, wd := 4, acc := .rws, rst := fun _ _ _ => 0x4 }
def WLK_CFG_media : Fld := { base := 0x2C00040, s0 := 0x20000, s1 := 0x0, s2 := 0x0, lo := 6, wd := 2, acc := .rws, rst := fun _ _ _ => 0x1 }
def WLK_CFG_lt_en : Fld := { base := 0x2C00040, s0 := 0x20000, s1 := 0x0, s2 := 0x0, lo := 5, wd := 1, acc := .rws }
def WLK_CFG_enable : Fld := { base := 0x2C00040, s0 := 0x20000, s1 := 0x0, s2 := 0x0, lo := 0, wd := 1, acc := .rws, rst := fun _ _ _ => 0x1 }
def reg_WLK_CFG : RegDef := {
  name := "WLK_CFG", base := 0x2C00040, width := 32, n0 := 8, s0 := 0x20000, n1 := 1, s1 := 0x0, n2 := 1, s2 := 0x0,
  flds := [WLK_CFG_replay_ns, WLK_CFG_replay_max, WLK_CFG_media, WLK_CFG_lt_en, WLK_CFG_enable] }
def WLK_BOARD_tx_invert : Fld := { base := 0x2C00048, s0 := 0x20000, s1 := 0x0, s2 := 0x0, lo := 0, wd := 8, acc := .rwl }
def reg_WLK_BOARD : RegDef := {
  name := "WLK_BOARD", base := 0x2C00048, width := 32, n0 := 8, s0 := 0x20000, n1 := 1, s1 := 0x0, n2 := 1, s2 := 0x0,
  flds := [WLK_BOARD_tx_invert] }
def WLK_STATUS_refuse_cause : Fld := { base := 0x2C00050, s0 := 0x20000, s1 := 0x0, s2 := 0x0, lo := 28, wd := 4, acc := .ro }
def WLK_STATUS_refused : Fld := { base := 0x2C00050, s0 := 0x20000, s1 := 0x0, s2 := 0x0, lo := 27, wd := 1, acc := .w1c }
def WLK_STATUS_down_cause : Fld := { base := 0x2C00050, s0 := 0x20000, s1 := 0x0, s2 := 0x0, lo := 24, wd := 3, acc := .ro }
def WLK_STATUS_version_mismatch : Fld := { base := 0x2C00050, s0 := 0x20000, s1 := 0x0, s2 := 0x0, lo := 23, wd := 1, acc := .ro }
def WLK_STATUS_credit_low : Fld := { base := 0x2C00050, s0 := 0x20000, s1 := 0x0, s2 := 0x0, lo := 22, wd := 1, acc := .ro }
def WLK_STATUS_rx_inverted : Fld := { base := 0x2C00050, s0 := 0x20000, s1 := 0x0, s2 := 0x0, lo := 8, wd := 8, acc := .ro }
def WLK_STATUS_state : Fld := { base := 0x2C00050, s0 := 0x20000, s1 := 0x0, s2 := 0x0, lo := 0, wd := 3, acc := .ro }
def reg_WLK_STATUS : RegDef := {
  name := "WLK_STATUS", base := 0x2C00050, width := 32, n0 := 8, s0 := 0x20000, n1 := 1, s1 := 0x0, n2 := 1, s2 := 0x0,
  flds := [WLK_STATUS_refuse_cause, WLK_STATUS_refused, WLK_STATUS_down_cause, WLK_STATUS_version_mismatch, WLK_STATUS_credit_low, WLK_STATUS_rx_inverted, WLK_STATUS_state] }
def WLK_PARTNER_ID_id : Fld := { base := 0x2C00058, s0 := 0x20000, s1 := 0x0, s2 := 0x0, lo := 0, wd := 64, acc := .ro }
def reg_WLK_PARTNER_ID : RegDef := {
  name := "WLK_PARTNER_ID", base := 0x2C00058, width := 64, n0 := 8, s0 := 0x20000, n1 := 1, s1 := 0x0, n2 := 1, s2 := 0x0,
  flds := [WLK_PARTNER_ID_id] }
def WLK_PARTNER_CR_vc3 : Fld := { base := 0x2C00060, s0 := 0x20000, s1 := 0x0, s2 := 0x0, lo := 48, wd := 16, acc := .ro }
def WLK_PARTNER_CR_vc2 : Fld := { base := 0x2C00060, s0 := 0x20000, s1 := 0x0, s2 := 0x0, lo := 32, wd := 16, acc := .ro }
def WLK_PARTNER_CR_vc1 : Fld := { base := 0x2C00060, s0 := 0x20000, s1 := 0x0, s2 := 0x0, lo := 16, wd := 16, acc := .ro }
def WLK_PARTNER_CR_vc0 : Fld := { base := 0x2C00060, s0 := 0x20000, s1 := 0x0, s2 := 0x0, lo := 0, wd := 16, acc := .ro }
def reg_WLK_PARTNER_CR : RegDef := {
  name := "WLK_PARTNER_CR", base := 0x2C00060, width := 64, n0 := 8, s0 := 0x20000, n1 := 1, s1 := 0x0, n2 := 1, s2 := 0x0,
  flds := [WLK_PARTNER_CR_vc3, WLK_PARTNER_CR_vc2, WLK_PARTNER_CR_vc1, WLK_PARTNER_CR_vc0] }
def WLK_LOCAL_CR_vc3 : Fld := { base := 0x2C00068, s0 := 0x20000, s1 := 0x0, s2 := 0x0, lo := 48, wd := 16, acc := .ro, rst := fun _ _ _ => 0x400 }
def WLK_LOCAL_CR_vc2 : Fld := { base := 0x2C00068, s0 := 0x20000, s1 := 0x0, s2 := 0x0, lo := 32, wd := 16, acc := .ro, rst := fun _ _ _ => 0x200 }
def WLK_LOCAL_CR_vc1 : Fld := { base := 0x2C00068, s0 := 0x20000, s1 := 0x0, s2 := 0x0, lo := 16, wd := 16, acc := .ro, rst := fun _ _ _ => 0x400 }
def WLK_LOCAL_CR_vc0 : Fld := { base := 0x2C00068, s0 := 0x20000, s1 := 0x0, s2 := 0x0, lo := 0, wd := 16, acc := .ro, rst := fun _ _ _ => 0x400 }
def reg_WLK_LOCAL_CR : RegDef := {
  name := "WLK_LOCAL_CR", base := 0x2C00068, width := 64, n0 := 8, s0 := 0x20000, n1 := 1, s1 := 0x0, n2 := 1, s2 := 0x0,
  flds := [WLK_LOCAL_CR_vc3, WLK_LOCAL_CR_vc2, WLK_LOCAL_CR_vc1, WLK_LOCAL_CR_vc0] }
def WLK_SEQ_unacked : Fld := { base := 0x2C00070, s0 := 0x20000, s1 := 0x0, s2 := 0x0, lo := 40, wd := 11, acc := .ro }
def WLK_SEQ_rx_expected : Fld := { base := 0x2C00070, s0 := 0x20000, s1 := 0x0, s2 := 0x0, lo := 24, wd := 12, acc := .ro }
def WLK_SEQ_tx_acked : Fld := { base := 0x2C00070, s0 := 0x20000, s1 := 0x0, s2 := 0x0, lo := 12, wd := 12, acc := .ro, rst := fun _ _ _ => 0xFFF }
def WLK_SEQ_tx_next : Fld := { base := 0x2C00070, s0 := 0x20000, s1 := 0x0, s2 := 0x0, lo := 0, wd := 12, acc := .ro }
def reg_WLK_SEQ : RegDef := {
  name := "WLK_SEQ", base := 0x2C00070, width := 64, n0 := 8, s0 := 0x20000, n1 := 1, s1 := 0x0, n2 := 1, s2 := 0x0,
  flds := [WLK_SEQ_unacked, WLK_SEQ_rx_expected, WLK_SEQ_tx_acked, WLK_SEQ_tx_next] }
def WLK_LANE_STATUS_short_gnd : Fld := { base := 0x2C00080, s0 := 0x20000, s1 := 0x8, s2 := 0x0, lo := 11, wd := 1, acc := .w1c }
def WLK_LANE_STATUS_short_lane : Fld := { base := 0x2C00080, s0 := 0x20000, s1 := 0x8, s2 := 0x0, lo := 10, wd := 1, acc := .w1c }
def WLK_LANE_STATUS_los : Fld := { base := 0x2C00080, s0 := 0x20000, s1 := 0x8, s2 := 0x0, lo := 9, wd := 1, acc := .ro }
def WLK_LANE_STATUS_shut : Fld := { base := 0x2C00080, s0 := 0x20000, s1 := 0x8, s2 := 0x0, lo := 8, wd := 1, acc := .ro }
def WLK_LANE_STATUS_state : Fld := { base := 0x2C00080, s0 := 0x20000, s1 := 0x8, s2 := 0x0, lo := 0, wd := 3, acc := .ro }
def reg_WLK_LANE_STATUS : RegDef := {
  name := "WLK_LANE_STATUS", base := 0x2C00080, width := 32, n0 := 8, s0 := 0x20000, n1 := 8, s1 := 0x8, n2 := 1, s2 := 0x0,
  flds := [WLK_LANE_STATUS_short_gnd, WLK_LANE_STATUS_short_lane, WLK_LANE_STATUS_los, WLK_LANE_STATUS_shut, WLK_LANE_STATUS_state] }
def WLK_CNT_count : Fld := { base := 0x2C00100, s0 := 0x20000, s1 := 0x8, s2 := 0x0, lo := 0, wd := 64, acc := .ro }
def reg_WLK_CNT : RegDef := {
  name := "WLK_CNT", base := 0x2C00100, width := 64, n0 := 8, s0 := 0x20000, n1 := 16, s1 := 0x8, n2 := 1, s2 := 0x0,
  flds := [WLK_CNT_count] }

/-- The registers of the WLK_ block after its common header. -/
def tbl_WLK : List RegDef := [
  reg_WLK_CFG,
  reg_WLK_BOARD,
  reg_WLK_STATUS,
  reg_WLK_PARTNER_ID,
  reg_WLK_PARTNER_CR,
  reg_WLK_LOCAL_CR,
  reg_WLK_SEQ,
  reg_WLK_LANE_STATUS,
  reg_WLK_CNT]

/-! ### TSK_ registers (16_tenant_sockets.md) -/

def TSK_CFG_rd_timeout_us : Fld := { base := 0x2D00040, s0 := 0x20000, s1 := 0x0, s2 := 0x0, lo := 48, wd := 16, acc := .rw, rst := fun _ _ _ => 0x1F4 }
def TSK_CFG_max_rd : Fld := { base := 0x2D00040, s0 := 0x20000, s1 := 0x0, s2 := 0x0, lo := 36, wd := 12, acc := .rw, rst := fun _ _ _ => 0x400 }
def TSK_CFG_sync_us : Fld := { base := 0x2D00040, s0 := 0x20000, s1 := 0x0, s2 := 0x0, lo := 16, wd := 16, acc := .rw, rst := fun _ _ _ => 0x64 }
def TSK_CFG_rst_delay_ms : Fld := { base := 0x2D00040, s0 := 0x20000, s1 := 0x0, s2 := 0x0, lo := 8, wd := 8, acc := .rw, rst := fun _ _ _ => 0x64 }
def TSK_CFG_attn_auto : Fld := { base := 0x2D00040, s0 := 0x20000, s1 := 0x0, s2 := 0x0, lo := 1, wd := 1, acc := .rw, rst := fun _ _ _ => 0x1 }
def TSK_CFG_auto_power : Fld := { base := 0x2D00040, s0 := 0x20000, s1 := 0x0, s2 := 0x0, lo := 0, wd := 1, acc := .rw, rst := fun _ _ _ => 0x1 }
def reg_TSK_CFG : RegDef := {
  name := "TSK_CFG", base := 0x2D00040, width := 64, n0 := 8, s0 := 0x20000, n1 := 1, s1 := 0x0, n2 := 1, s2 := 0x0,
  flds := [TSK_CFG_rd_timeout_us, TSK_CFG_max_rd, TSK_CFG_sync_us, TSK_CFG_rst_delay_ms, TSK_CFG_attn_auto, TSK_CFG_auto_power] }
def TSK_STATUS_prsnt : Fld := { base := 0x2D00048, s0 := 0x20000, s1 := 0x0, s2 := 0x0, lo := 29, wd := 3, acc := .ro }
def TSK_STATUS_pwr : Fld := { base := 0x2D00048, s0 := 0x20000, s1 := 0x0, s2 := 0x0, lo := 26, wd := 3, acc := .ro }
def TSK_STATUS_flt_input : Fld := { base := 0x2D00048, s0 := 0x20000, s1 := 0x0, s2 := 0x0, lo := 25, wd := 1, acc := .w1c }
def TSK_STATUS_flt_current : Fld := { base := 0x2D00048, s0 := 0x20000, s1 := 0x0, s2 := 0x0, lo := 24, wd := 1, acc := .w1c }
def TSK_STATUS_flt_pg : Fld := { base := 0x2D00048, s0 := 0x20000, s1 := 0x0, s2 := 0x0, lo := 23, wd := 1, acc := .w1c }
def TSK_STATUS_reversed_seen : Fld := { base := 0x2D00048, s0 := 0x20000, s1 := 0x0, s2 := 0x0, lo := 22, wd := 1, acc := .w1c }
def TSK_STATUS_prsnt_fault : Fld := { base := 0x2D00048, s0 := 0x20000, s1 := 0x0, s2 := 0x0, lo := 21, wd := 1, acc := .w1c }
def TSK_STATUS_attn_pressed : Fld := { base := 0x2D00048, s0 := 0x20000, s1 := 0x0, s2 := 0x0, lo := 20, wd := 1, acc := .w1c }
def TSK_STATUS_surprise : Fld := { base := 0x2D00048, s0 := 0x20000, s1 := 0x0, s2 := 0x0, lo := 19, wd := 1, acc := .w1c }
def TSK_STATUS_on_refused : Fld := { base := 0x2D00048, s0 := 0x20000, s1 := 0x0, s2 := 0x0, lo := 18, wd := 1, acc := .w1c }
def TSK_STATUS_i_ma : Fld := { base := 0x2D00048, s0 := 0x20000, s1 := 0x0, s2 := 0x0, lo := 0, wd := 16, acc := .ro }
def reg_TSK_STATUS : RegDef := {
  name := "TSK_STATUS", base := 0x2D00048, width := 32, n0 := 8, s0 := 0x20000, n1 := 1, s1 := 0x0, n2 := 1, s2 := 0x0,
  flds := [TSK_STATUS_prsnt, TSK_STATUS_pwr, TSK_STATUS_flt_input, TSK_STATUS_flt_current, TSK_STATUS_flt_pg, TSK_STATUS_reversed_seen, TSK_STATUS_prsnt_fault, TSK_STATUS_attn_pressed, TSK_STATUS_surprise, TSK_STATUS_on_refused, TSK_STATUS_i_ma] }
def TSK_PWR_CFG_quiesce_ms : Fld := { base := 0x2D00050, s0 := 0x20000, s1 := 0x0, s2 := 0x0, lo := 24, wd := 8, acc := .rw, rst := fun _ _ _ => 0x64 }
def TSK_PWR_CFG_pg_timeout_ms : Fld := { base := 0x2D00050, s0 := 0x20000, s1 := 0x0, s2 := 0x0, lo := 16, wd := 8, acc := .rw, rst := fun _ _ _ => 0x64 }
def TSK_PWR_CFG_i_limit_ma : Fld := { base := 0x2D00050, s0 := 0x20000, s1 := 0x0, s2 := 0x0, lo := 0, wd := 16, acc := .rw, rst := fun _ _ _ => 0x61A8 }
def reg_TSK_PWR_CFG : RegDef := {
  name := "TSK_PWR_CFG", base := 0x2D00050, width := 32, n0 := 8, s0 := 0x20000, n1 := 1, s1 := 0x0, n2 := 1, s2 := 0x0,
  flds := [TSK_PWR_CFG_quiesce_ms, TSK_PWR_CFG_pg_timeout_ms, TSK_PWR_CFG_i_limit_ma] }
def TSK_PWR_CTRL_off : Fld := { base := 0x2D00058, s0 := 0x20000, s1 := 0x0, s2 := 0x0, lo := 1, wd := 1, acc := .wo }
def TSK_PWR_CTRL_on : Fld := { base := 0x2D00058, s0 := 0x20000, s1 := 0x0, s2 := 0x0, lo := 0, wd := 1, acc := .wo }
def reg_TSK_PWR_CTRL : RegDef := {
  name := "TSK_PWR_CTRL", base := 0x2D00058, width := 32, n0 := 8, s0 := 0x20000, n1 := 1, s1 := 0x0, n2 := 1, s2 := 0x0,
  flds := [TSK_PWR_CTRL_off, TSK_PWR_CTRL_on] }
def TSK_IND_attn_led : Fld := { base := 0x2D00060, s0 := 0x20000, s1 := 0x0, s2 := 0x0, lo := 4, wd := 2, acc := .rw }
def TSK_IND_pwr_led : Fld := { base := 0x2D00060, s0 := 0x20000, s1 := 0x0, s2 := 0x0, lo := 2, wd := 2, acc := .rw }
def TSK_IND_pwr_led_sw : Fld := { base := 0x2D00060, s0 := 0x20000, s1 := 0x0, s2 := 0x0, lo := 0, wd := 1, acc := .rw }
def reg_TSK_IND : RegDef := {
  name := "TSK_IND", base := 0x2D00060, width := 32, n0 := 8, s0 := 0x20000, n1 := 1, s1 := 0x0, n2 := 1, s2 := 0x0,
  flds := [TSK_IND_attn_led, TSK_IND_pwr_led, TSK_IND_pwr_led_sw] }
def TSK_WIN_COMMIT_commit : Fld := { base := 0x2D00068, s0 := 0x20000, s1 := 0x0, s2 := 0x0, lo := 0, wd := 1, acc := .wo }
def reg_TSK_WIN_COMMIT : RegDef := {
  name := "TSK_WIN_COMMIT", base := 0x2D00068, width := 32, n0 := 8, s0 := 0x20000, n1 := 1, s1 := 0x0, n2 := 1, s2 := 0x0,
  flds := [TSK_WIN_COMMIT_commit] }
def TSK_WIN_STATUS_win_epoch : Fld := { base := 0x2D00070, s0 := 0x20000, s1 := 0x0, s2 := 0x0, lo := 16, wd := 16, acc := .ro }
def TSK_WIN_STATUS_refuse_cause : Fld := { base := 0x2D00070, s0 := 0x20000, s1 := 0x0, s2 := 0x0, lo := 12, wd := 4, acc := .ro }
def TSK_WIN_STATUS_refused : Fld := { base := 0x2D00070, s0 := 0x20000, s1 := 0x0, s2 := 0x0, lo := 11, wd := 1, acc := .w1c }
def TSK_WIN_STATUS_busy : Fld := { base := 0x2D00070, s0 := 0x20000, s1 := 0x0, s2 := 0x0, lo := 10, wd := 1, acc := .ro }
def TSK_WIN_STATUS_old_inflight : Fld := { base := 0x2D00070, s0 := 0x20000, s1 := 0x0, s2 := 0x0, lo := 0, wd := 10, acc := .ro }
def reg_TSK_WIN_STATUS : RegDef := {
  name := "TSK_WIN_STATUS", base := 0x2D00070, width := 32, n0 := 8, s0 := 0x20000, n1 := 1, s1 := 0x0, n2 := 1, s2 := 0x0,
  flds := [TSK_WIN_STATUS_win_epoch, TSK_WIN_STATUS_refuse_cause, TSK_WIN_STATUS_refused, TSK_WIN_STATUS_busy, TSK_WIN_STATUS_old_inflight] }
def TSK_BYPASS_en : Fld := { base := 0x2D00078, s0 := 0x20000, s1 := 0x0, s2 := 0x0, lo := 31, wd := 1, acc := .rw }
def TSK_BYPASS_rxq : Fld := { base := 0x2D00078, s0 := 0x20000, s1 := 0x0, s2 := 0x0, lo := 0, wd := 12, acc := .rw }
def reg_TSK_BYPASS : RegDef := {
  name := "TSK_BYPASS", base := 0x2D00078, width := 32, n0 := 8, s0 := 0x20000, n1 := 1, s1 := 0x0, n2 := 1, s2 := 0x0,
  flds := [TSK_BYPASS_en, TSK_BYPASS_rxq] }
def TSK_INTR_CFG_count : Fld := { base := 0x2D00080, s0 := 0x20000, s1 := 0x0, s2 := 0x0, lo := 16, wd := 12, acc := .rw }
def TSK_INTR_CFG_base : Fld := { base := 0x2D00080, s0 := 0x20000, s1 := 0x0, s2 := 0x0, lo := 0, wd := 11, acc := .rw }
def reg_TSK_INTR_CFG : RegDef := {
  name := "TSK_INTR_CFG", base := 0x2D00080, width := 32, n0 := 8, s0 := 0x20000, n1 := 1, s1 := 0x0, n2 := 1, s2 := 0x0,
  flds := [TSK_INTR_CFG_count, TSK_INTR_CFG_base] }
def TSK_METER_CFG_burst : Fld := { base := 0x2D00100, s0 := 0x20000, s1 := 0x10, s2 := 0x0, lo := 40, wd := 24, acc := .rws, rst := fun _ _ _ => 0x10000 }
def TSK_METER_CFG_rate : Fld := { base := 0x2D00100, s0 := 0x20000, s1 := 0x10, s2 := 0x0, lo := 0, wd := 32, acc := .rws }
def reg_TSK_METER_CFG : RegDef := {
  name := "TSK_METER_CFG", base := 0x2D00100, width := 64, n0 := 8, s0 := 0x20000, n1 := 4, s1 := 0x10, n2 := 1, s2 := 0x0,
  flds := [TSK_METER_CFG_burst, TSK_METER_CFG_rate] }
def TSK_METER_STAT_held : Fld := { base := 0x2D00108, s0 := 0x20000, s1 := 0x10, s2 := 0x0, lo := 32, wd := 1, acc := .ro }
def TSK_METER_STAT_tokens : Fld := { base := 0x2D00108, s0 := 0x20000, s1 := 0x10, s2 := 0x0, lo := 0, wd := 32, acc := .ro }
def reg_TSK_METER_STAT : RegDef := {
  name := "TSK_METER_STAT", base := 0x2D00108, width := 64, n0 := 8, s0 := 0x20000, n1 := 4, s1 := 0x10, n2 := 1, s2 := 0x0,
  flds := [TSK_METER_STAT_held, TSK_METER_STAT_tokens] }
def TSK_CNT_count : Fld := { base := 0x2D00200, s0 := 0x20000, s1 := 0x8, s2 := 0x0, lo := 0, wd := 64, acc := .ro }
def reg_TSK_CNT : RegDef := {
  name := "TSK_CNT", base := 0x2D00200, width := 64, n0 := 8, s0 := 0x20000, n1 := 16, s1 := 0x8, n2 := 1, s2 := 0x0,
  flds := [TSK_CNT_count] }
def TSK_H2S_BASE_off : Fld := { base := 0x2D01000, s0 := 0x20000, s1 := 0x20, s2 := 0x0, lo := 12, wd := 24, acc := .rw }
def TSK_H2S_BASE_en : Fld := { base := 0x2D01000, s0 := 0x20000, s1 := 0x20, s2 := 0x0, lo := 7, wd := 1, acc := .rw }
def TSK_H2S_BASE_wr_en : Fld := { base := 0x2D01000, s0 := 0x20000, s1 := 0x20, s2 := 0x0, lo := 6, wd := 1, acc := .rw }
def TSK_H2S_BASE_rd_en : Fld := { base := 0x2D01000, s0 := 0x20000, s1 := 0x20, s2 := 0x0, lo := 5, wd := 1, acc := .rw }
def TSK_H2S_BASE_hif : Fld := { base := 0x2D01000, s0 := 0x20000, s1 := 0x20, s2 := 0x0, lo := 4, wd := 1, acc := .rw }
def TSK_H2S_BASE_pf : Fld := { base := 0x2D01000, s0 := 0x20000, s1 := 0x20, s2 := 0x0, lo := 1, wd := 3, acc := .rw }
def reg_TSK_H2S_BASE : RegDef := {
  name := "TSK_H2S_BASE", base := 0x2D01000, width := 64, n0 := 8, s0 := 0x20000, n1 := 16, s1 := 0x20, n2 := 1, s2 := 0x0,
  flds := [TSK_H2S_BASE_off, TSK_H2S_BASE_en, TSK_H2S_BASE_wr_en, TSK_H2S_BASE_rd_en, TSK_H2S_BASE_hif, TSK_H2S_BASE_pf] }
def TSK_H2S_SIZE_size : Fld := { base := 0x2D01008, s0 := 0x20000, s1 := 0x20, s2 := 0x0, lo := 12, wd := 52, acc := .rw }
def reg_TSK_H2S_SIZE : RegDef := {
  name := "TSK_H2S_SIZE", base := 0x2D01008, width := 64, n0 := 8, s0 := 0x20000, n1 := 16, s1 := 0x20, n2 := 1, s2 := 0x0,
  flds := [TSK_H2S_SIZE_size] }
def TSK_H2S_TGT_sock : Fld := { base := 0x2D01010, s0 := 0x20000, s1 := 0x20, s2 := 0x0, lo := 12, wd := 52, acc := .rw }
def reg_TSK_H2S_TGT : RegDef := {
  name := "TSK_H2S_TGT", base := 0x2D01010, width := 64, n0 := 8, s0 := 0x20000, n1 := 16, s1 := 0x20, n2 := 1, s2 := 0x0,
  flds := [TSK_H2S_TGT_sock] }
def TSK_S2H_BASE_base : Fld := { base := 0x2D01200, s0 := 0x20000, s1 := 0x20, s2 := 0x0, lo := 12, wd := 52, acc := .rw }
def TSK_S2H_BASE_en : Fld := { base := 0x2D01200, s0 := 0x20000, s1 := 0x20, s2 := 0x0, lo := 7, wd := 1, acc := .rw }
def TSK_S2H_BASE_wr_en : Fld := { base := 0x2D01200, s0 := 0x20000, s1 := 0x20, s2 := 0x0, lo := 6, wd := 1, acc := .rw }
def TSK_S2H_BASE_rd_en : Fld := { base := 0x2D01200, s0 := 0x20000, s1 := 0x20, s2 := 0x0, lo := 5, wd := 1, acc := .rw }
def TSK_S2H_BASE_kind : Fld := { base := 0x2D01200, s0 := 0x20000, s1 := 0x20, s2 := 0x0, lo := 0, wd := 2, acc := .rw }
def reg_TSK_S2H_BASE : RegDef := {
  name := "TSK_S2H_BASE", base := 0x2D01200, width := 64, n0 := 8, s0 := 0x20000, n1 := 16, s1 := 0x20, n2 := 1, s2 := 0x0,
  flds := [TSK_S2H_BASE_base, TSK_S2H_BASE_en, TSK_S2H_BASE_wr_en, TSK_S2H_BASE_rd_en, TSK_S2H_BASE_kind] }
def TSK_S2H_SIZE_size : Fld := { base := 0x2D01208, s0 := 0x20000, s1 := 0x20, s2 := 0x0, lo := 12, wd := 52, acc := .rw }
def reg_TSK_S2H_SIZE : RegDef := {
  name := "TSK_S2H_SIZE", base := 0x2D01208, width := 64, n0 := 8, s0 := 0x20000, n1 := 16, s1 := 0x20, n2 := 1, s2 := 0x0,
  flds := [TSK_S2H_SIZE_size] }
def TSK_S2H_TGT_tgt : Fld := { base := 0x2D01210, s0 := 0x20000, s1 := 0x20, s2 := 0x0, lo := 12, wd := 52, acc := .rw }
def reg_TSK_S2H_TGT : RegDef := {
  name := "TSK_S2H_TGT", base := 0x2D01210, width := 64, n0 := 8, s0 := 0x20000, n1 := 16, s1 := 0x20, n2 := 1, s2 := 0x0,
  flds := [TSK_S2H_TGT_tgt] }
def TSK_ACT_H2S_BASE_off : Fld := { base := 0x2D01800, s0 := 0x20000, s1 := 0x20, s2 := 0x0, lo := 12, wd := 24, acc := .ro }
def TSK_ACT_H2S_BASE_en : Fld := { base := 0x2D01800, s0 := 0x20000, s1 := 0x20, s2 := 0x0, lo := 7, wd := 1, acc := .ro }
def TSK_ACT_H2S_BASE_wr_en : Fld := { base := 0x2D01800, s0 := 0x20000, s1 := 0x20, s2 := 0x0, lo := 6, wd := 1, acc := .ro }
def TSK_ACT_H2S_BASE_rd_en : Fld := { base := 0x2D01800, s0 := 0x20000, s1 := 0x20, s2 := 0x0, lo := 5, wd := 1, acc := .ro }
def TSK_ACT_H2S_BASE_hif : Fld := { base := 0x2D01800, s0 := 0x20000, s1 := 0x20, s2 := 0x0, lo := 4, wd := 1, acc := .ro }
def TSK_ACT_H2S_BASE_pf : Fld := { base := 0x2D01800, s0 := 0x20000, s1 := 0x20, s2 := 0x0, lo := 1, wd := 3, acc := .ro }
def reg_TSK_ACT_H2S_BASE : RegDef := {
  name := "TSK_ACT_H2S_BASE", base := 0x2D01800, width := 64, n0 := 8, s0 := 0x20000, n1 := 16, s1 := 0x20, n2 := 1, s2 := 0x0,
  flds := [TSK_ACT_H2S_BASE_off, TSK_ACT_H2S_BASE_en, TSK_ACT_H2S_BASE_wr_en, TSK_ACT_H2S_BASE_rd_en, TSK_ACT_H2S_BASE_hif, TSK_ACT_H2S_BASE_pf] }
def TSK_ACT_H2S_SIZE_size : Fld := { base := 0x2D01808, s0 := 0x20000, s1 := 0x20, s2 := 0x0, lo := 12, wd := 52, acc := .ro }
def reg_TSK_ACT_H2S_SIZE : RegDef := {
  name := "TSK_ACT_H2S_SIZE", base := 0x2D01808, width := 64, n0 := 8, s0 := 0x20000, n1 := 16, s1 := 0x20, n2 := 1, s2 := 0x0,
  flds := [TSK_ACT_H2S_SIZE_size] }
def TSK_ACT_H2S_TGT_sock : Fld := { base := 0x2D01810, s0 := 0x20000, s1 := 0x20, s2 := 0x0, lo := 12, wd := 52, acc := .ro }
def reg_TSK_ACT_H2S_TGT : RegDef := {
  name := "TSK_ACT_H2S_TGT", base := 0x2D01810, width := 64, n0 := 8, s0 := 0x20000, n1 := 16, s1 := 0x20, n2 := 1, s2 := 0x0,
  flds := [TSK_ACT_H2S_TGT_sock] }
def TSK_ACT_S2H_BASE_base : Fld := { base := 0x2D01A00, s0 := 0x20000, s1 := 0x20, s2 := 0x0, lo := 12, wd := 52, acc := .ro }
def TSK_ACT_S2H_BASE_en : Fld := { base := 0x2D01A00, s0 := 0x20000, s1 := 0x20, s2 := 0x0, lo := 7, wd := 1, acc := .ro }
def TSK_ACT_S2H_BASE_wr_en : Fld := { base := 0x2D01A00, s0 := 0x20000, s1 := 0x20, s2 := 0x0, lo := 6, wd := 1, acc := .ro }
def TSK_ACT_S2H_BASE_rd_en : Fld := { base := 0x2D01A00, s0 := 0x20000, s1 := 0x20, s2 := 0x0, lo := 5, wd := 1, acc := .ro }
def TSK_ACT_S2H_BASE_kind : Fld := { base := 0x2D01A00, s0 := 0x20000, s1 := 0x20, s2 := 0x0, lo := 0, wd := 2, acc := .ro }
def reg_TSK_ACT_S2H_BASE : RegDef := {
  name := "TSK_ACT_S2H_BASE", base := 0x2D01A00, width := 64, n0 := 8, s0 := 0x20000, n1 := 16, s1 := 0x20, n2 := 1, s2 := 0x0,
  flds := [TSK_ACT_S2H_BASE_base, TSK_ACT_S2H_BASE_en, TSK_ACT_S2H_BASE_wr_en, TSK_ACT_S2H_BASE_rd_en, TSK_ACT_S2H_BASE_kind] }
def TSK_ACT_S2H_SIZE_size : Fld := { base := 0x2D01A08, s0 := 0x20000, s1 := 0x20, s2 := 0x0, lo := 12, wd := 52, acc := .ro }
def reg_TSK_ACT_S2H_SIZE : RegDef := {
  name := "TSK_ACT_S2H_SIZE", base := 0x2D01A08, width := 64, n0 := 8, s0 := 0x20000, n1 := 16, s1 := 0x20, n2 := 1, s2 := 0x0,
  flds := [TSK_ACT_S2H_SIZE_size] }
def TSK_ACT_S2H_TGT_tgt : Fld := { base := 0x2D01A10, s0 := 0x20000, s1 := 0x20, s2 := 0x0, lo := 12, wd := 52, acc := .ro }
def reg_TSK_ACT_S2H_TGT : RegDef := {
  name := "TSK_ACT_S2H_TGT", base := 0x2D01A10, width := 64, n0 := 8, s0 := 0x20000, n1 := 16, s1 := 0x20, n2 := 1, s2 := 0x0,
  flds := [TSK_ACT_S2H_TGT_tgt] }

/-- The registers of the TSK_ block after its common header. -/
def tbl_TSK : List RegDef := [
  reg_TSK_CFG,
  reg_TSK_STATUS,
  reg_TSK_PWR_CFG,
  reg_TSK_PWR_CTRL,
  reg_TSK_IND,
  reg_TSK_WIN_COMMIT,
  reg_TSK_WIN_STATUS,
  reg_TSK_BYPASS,
  reg_TSK_INTR_CFG,
  reg_TSK_METER_CFG,
  reg_TSK_METER_STAT,
  reg_TSK_CNT,
  reg_TSK_H2S_BASE,
  reg_TSK_H2S_SIZE,
  reg_TSK_H2S_TGT,
  reg_TSK_S2H_BASE,
  reg_TSK_S2H_SIZE,
  reg_TSK_S2H_TGT,
  reg_TSK_ACT_H2S_BASE,
  reg_TSK_ACT_H2S_SIZE,
  reg_TSK_ACT_H2S_TGT,
  reg_TSK_ACT_S2H_BASE,
  reg_TSK_ACT_S2H_SIZE,
  reg_TSK_ACT_S2H_TGT]

/-! ### FCR_ registers (17_flow_cores.md) -/

def FCR_CORE_CFG_dom : Fld := { base := 0x3000040, s0 := 0x10000, s1 := 0x0, s2 := 0x0, lo := 8, wd := 6, acc := .rw, rst := fun i _ _ => i }
def FCR_CORE_CFG_sup_en : Fld := { base := 0x3000040, s0 := 0x10000, s1 := 0x0, s2 := 0x0, lo := 4, wd := 1, acc := .rw }
def FCR_CORE_CFG_sup_thread : Fld := { base := 0x3000040, s0 := 0x10000, s1 := 0x0, s2 := 0x0, lo := 0, wd := 4, acc := .rw }
def reg_FCR_CORE_CFG : RegDef := {
  name := "FCR_CORE_CFG", base := 0x3000040, width := 32, n0 := 64, s0 := 0x10000, n1 := 1, s1 := 0x0, n2 := 1, s2 := 0x0,
  flds := [FCR_CORE_CFG_dom, FCR_CORE_CFG_sup_en, FCR_CORE_CFG_sup_thread] }
def FCR_CORE_STATUS_refused : Fld := { base := 0x3000048, s0 := 0x10000, s1 := 0x0, s2 := 0x0, lo := 21, wd := 1, acc := .w1c }
def FCR_CORE_STATUS_refuse_cause : Fld := { base := 0x3000048, s0 := 0x10000, s1 := 0x0, s2 := 0x0, lo := 18, wd := 3, acc := .ro }
def FCR_CORE_STATUS_half_clk : Fld := { base := 0x3000048, s0 := 0x10000, s1 := 0x0, s2 := 0x0, lo := 17, wd := 1, acc := .ro }
def FCR_CORE_STATUS_dl : Fld := { base := 0x3000048, s0 := 0x10000, s1 := 0x0, s2 := 0x0, lo := 16, wd := 1, acc := .w1c }
def FCR_CORE_STATUS_enabled : Fld := { base := 0x3000048, s0 := 0x10000, s1 := 0x0, s2 := 0x0, lo := 0, wd := 16, acc := .ro }
def reg_FCR_CORE_STATUS : RegDef := {
  name := "FCR_CORE_STATUS", base := 0x3000048, width := 32, n0 := 64, s0 := 0x10000, n1 := 1, s1 := 0x0, n2 := 1, s2 := 0x0,
  flds := [FCR_CORE_STATUS_refused, FCR_CORE_STATUS_refuse_cause, FCR_CORE_STATUS_half_clk, FCR_CORE_STATUS_dl, FCR_CORE_STATUS_enabled] }
def FCR_FT_MBOX_state : Fld := { base := 0x3000050, s0 := 0x10000, s1 := 0x0, s2 := 0x0, lo := 0, wd := 3, acc := .wo }
def reg_FCR_FT_MBOX : RegDef := {
  name := "FCR_FT_MBOX", base := 0x3000050, width := 32, n0 := 64, s0 := 0x10000, n1 := 1, s1 := 0x0, n2 := 1, s2 := 0x0,
  flds := [FCR_FT_MBOX_state] }
def FCR_THREAD_CFG_slice : Fld := { base := 0x3000100, s0 := 0x10000, s1 := 0x10, s2 := 0x0, lo := 20, wd := 12, acc := .rw }
def FCR_THREAD_CFG_enable : Fld := { base := 0x3000100, s0 := 0x10000, s1 := 0x10, s2 := 0x0, lo := 0, wd := 1, acc := .rw }
def reg_FCR_THREAD_CFG : RegDef := {
  name := "FCR_THREAD_CFG", base := 0x3000100, width := 32, n0 := 64, s0 := 0x10000, n1 := 16, s1 := 0x10, n2 := 1, s2 := 0x0,
  flds := [FCR_THREAD_CFG_slice, FCR_THREAD_CFG_enable] }
def FCR_THREAD_PC_pc : Fld := { base := 0x3000108, s0 := 0x10000, s1 := 0x10, s2 := 0x0, lo := 0, wd := 64, acc := .rw }
def reg_FCR_THREAD_PC : RegDef := {
  name := "FCR_THREAD_PC", base := 0x3000108, width := 64, n0 := 64, s0 := 0x10000, n1 := 16, s1 := 0x10, n2 := 1, s2 := 0x0,
  flds := [FCR_THREAD_PC_pc] }
def FCR_THREAD_STATUS_wait_obj : Fld := { base := 0x3000200, s0 := 0x10000, s1 := 0x8, s2 := 0x0, lo := 32, wd := 16, acc := .ro }
def FCR_THREAD_STATUS_wait_kind : Fld := { base := 0x3000200, s0 := 0x10000, s1 := 0x8, s2 := 0x0, lo := 28, wd := 4, acc := .ro }
def FCR_THREAD_STATUS_priv : Fld := { base := 0x3000200, s0 := 0x10000, s1 := 0x8, s2 := 0x0, lo := 26, wd := 2, acc := .ro, rst := fun _ _ _ => 0x3 }
def FCR_THREAD_STATUS_state : Fld := { base := 0x3000200, s0 := 0x10000, s1 := 0x8, s2 := 0x0, lo := 0, wd := 3, acc := .ro }
def reg_FCR_THREAD_STATUS : RegDef := {
  name := "FCR_THREAD_STATUS", base := 0x3000200, width := 64, n0 := 64, s0 := 0x10000, n1 := 16, s1 := 0x8, n2 := 1, s2 := 0x0,
  flds := [FCR_THREAD_STATUS_wait_obj, FCR_THREAD_STATUS_wait_kind, FCR_THREAD_STATUS_priv, FCR_THREAD_STATUS_state] }
def FCR_LM_CFG_size : Fld := { base := 0x3000300, s0 := 0x10000, s1 := 0x8, s2 := 0x0, lo := 8, wd := 8, acc := .rw, rst := fun _ _ _ => 0x8 }
def FCR_LM_CFG_base : Fld := { base := 0x3000300, s0 := 0x10000, s1 := 0x8, s2 := 0x0, lo := 0, wd := 7, acc := .rw, rst := fun _ j _ => j * 8 }
def reg_FCR_LM_CFG : RegDef := {
  name := "FCR_LM_CFG", base := 0x3000300, width := 32, n0 := 64, s0 := 0x10000, n1 := 16, s1 := 0x8, n2 := 1, s2 := 0x0,
  flds := [FCR_LM_CFG_size, FCR_LM_CFG_base] }
def FCR_DBG_CTRL_discard_outbox : Fld := { base := 0x3000400, s0 := 0x10000, s1 := 0x8, s2 := 0x0, lo := 4, wd := 1, acc := .wo }
def FCR_DBG_CTRL_halted : Fld := { base := 0x3000400, s0 := 0x10000, s1 := 0x8, s2 := 0x0, lo := 3, wd := 1, acc := .ro }
def FCR_DBG_CTRL_step : Fld := { base := 0x3000400, s0 := 0x10000, s1 := 0x8, s2 := 0x0, lo := 2, wd := 1, acc := .wo }
def FCR_DBG_CTRL_resume : Fld := { base := 0x3000400, s0 := 0x10000, s1 := 0x8, s2 := 0x0, lo := 1, wd := 1, acc := .wo }
def FCR_DBG_CTRL_halt : Fld := { base := 0x3000400, s0 := 0x10000, s1 := 0x8, s2 := 0x0, lo := 0, wd := 1, acc := .wo }
def reg_FCR_DBG_CTRL : RegDef := {
  name := "FCR_DBG_CTRL", base := 0x3000400, width := 32, n0 := 64, s0 := 0x10000, n1 := 16, s1 := 0x8, n2 := 1, s2 := 0x0,
  flds := [FCR_DBG_CTRL_discard_outbox, FCR_DBG_CTRL_halted, FCR_DBG_CTRL_step, FCR_DBG_CTRL_resume, FCR_DBG_CTRL_halt] }
def FCR_DBG_SEL_go : Fld := { base := 0x3000480, s0 := 0x10000, s1 := 0x0, s2 := 0x0, lo := 31, wd := 1, acc := .wo }
def FCR_DBG_SEL_wr : Fld := { base := 0x3000480, s0 := 0x10000, s1 := 0x0, s2 := 0x0, lo := 30, wd := 1, acc := .rw }
def FCR_DBG_SEL_err : Fld := { base := 0x3000480, s0 := 0x10000, s1 := 0x0, s2 := 0x0, lo := 29, wd := 1, acc := .ro }
def FCR_DBG_SEL_thread : Fld := { base := 0x3000480, s0 := 0x10000, s1 := 0x0, s2 := 0x0, lo := 13, wd := 4, acc := .rw }
def FCR_DBG_SEL_reg : Fld := { base := 0x3000480, s0 := 0x10000, s1 := 0x0, s2 := 0x0, lo := 0, wd := 13, acc := .rw }
def reg_FCR_DBG_SEL : RegDef := {
  name := "FCR_DBG_SEL", base := 0x3000480, width := 32, n0 := 64, s0 := 0x10000, n1 := 1, s1 := 0x0, n2 := 1, s2 := 0x0,
  flds := [FCR_DBG_SEL_go, FCR_DBG_SEL_wr, FCR_DBG_SEL_err, FCR_DBG_SEL_thread, FCR_DBG_SEL_reg] }
def FCR_DBG_DATA_data : Fld := { base := 0x3000488, s0 := 0x10000, s1 := 0x0, s2 := 0x0, lo := 0, wd := 64, acc := .rw }
def reg_FCR_DBG_DATA : RegDef := {
  name := "FCR_DBG_DATA", base := 0x3000488, width := 64, n0 := 64, s0 := 0x10000, n1 := 1, s1 := 0x0, n2 := 1, s2 := 0x0,
  flds := [FCR_DBG_DATA_data] }
def FCR_BRK_ADDR_addr : Fld := { base := 0x30004A0, s0 := 0x10000, s1 := 0x10, s2 := 0x0, lo := 0, wd := 64, acc := .rw }
def reg_FCR_BRK_ADDR : RegDef := {
  name := "FCR_BRK_ADDR", base := 0x30004A0, width := 64, n0 := 64, s0 := 0x10000, n1 := 4, s1 := 0x10, n2 := 1, s2 := 0x0,
  flds := [FCR_BRK_ADDR_addr] }
def FCR_BRK_CTL_threads : Fld := { base := 0x30004A8, s0 := 0x10000, s1 := 0x10, s2 := 0x0, lo := 16, wd := 16, acc := .rw }
def FCR_BRK_CTL_kind : Fld := { base := 0x30004A8, s0 := 0x10000, s1 := 0x10, s2 := 0x0, lo := 2, wd := 2, acc := .rw }
def reg_FCR_BRK_CTL : RegDef := {
  name := "FCR_BRK_CTL", base := 0x30004A8, width := 32, n0 := 64, s0 := 0x10000, n1 := 4, s1 := 0x10, n2 := 1, s2 := 0x0,
  flds := [FCR_BRK_CTL_threads, FCR_BRK_CTL_kind] }
def FCR_DL_SNAP_wait_obj : Fld := { base := 0x3000600, s0 := 0x10000, s1 := 0x8, s2 := 0x0, lo := 32, wd := 16, acc := .ro }
def FCR_DL_SNAP_wait_kind : Fld := { base := 0x3000600, s0 := 0x10000, s1 := 0x8, s2 := 0x0, lo := 28, wd := 4, acc := .ro }
def FCR_DL_SNAP_priv : Fld := { base := 0x3000600, s0 := 0x10000, s1 := 0x8, s2 := 0x0, lo := 26, wd := 2, acc := .ro, rst := fun _ _ _ => 0x3 }
def FCR_DL_SNAP_state : Fld := { base := 0x3000600, s0 := 0x10000, s1 := 0x8, s2 := 0x0, lo := 0, wd := 3, acc := .ro }
def reg_FCR_DL_SNAP : RegDef := {
  name := "FCR_DL_SNAP", base := 0x3000600, width := 64, n0 := 64, s0 := 0x10000, n1 := 16, s1 := 0x8, n2 := 1, s2 := 0x0,
  flds := [FCR_DL_SNAP_wait_obj, FCR_DL_SNAP_wait_kind, FCR_DL_SNAP_priv, FCR_DL_SNAP_state] }
def FCR_RXP_CFG_owner : Fld := { base := 0x3000800, s0 := 0x10000, s1 := 0x10, s2 := 0x0, lo := 56, wd := 4, acc := .rws }
def FCR_RXP_CFG_log2_entries : Fld := { base := 0x3000800, s0 := 0x10000, s1 := 0x10, s2 := 0x0, lo := 52, wd := 4, acc := .rws, rst := fun _ _ _ => 0x4 }
def FCR_RXP_CFG_log2_esize : Fld := { base := 0x3000800, s0 := 0x10000, s1 := 0x10, s2 := 0x0, lo := 48, wd := 4, acc := .rws, rst := fun _ _ _ => 0x8 }
def FCR_RXP_CFG_base : Fld := { base := 0x3000800, s0 := 0x10000, s1 := 0x10, s2 := 0x0, lo := 32, wd := 11, acc := .rws }
def FCR_RXP_CFG_enable : Fld := { base := 0x3000800, s0 := 0x10000, s1 := 0x10, s2 := 0x0, lo := 0, wd := 1, acc := .rws }
def reg_FCR_RXP_CFG : RegDef := {
  name := "FCR_RXP_CFG", base := 0x3000800, width := 64, n0 := 64, s0 := 0x10000, n1 := 16, s1 := 0x10, n2 := 1, s2 := 0x0,
  flds := [FCR_RXP_CFG_owner, FCR_RXP_CFG_log2_entries, FCR_RXP_CFG_log2_esize, FCR_RXP_CFG_base, FCR_RXP_CFG_enable] }
def FCR_RXP_STATUS_filled : Fld := { base := 0x3000808, s0 := 0x10000, s1 := 0x10, s2 := 0x0, lo := 0, wd := 9, acc := .ro }
def reg_FCR_RXP_STATUS : RegDef := {
  name := "FCR_RXP_STATUS", base := 0x3000808, width := 32, n0 := 64, s0 := 0x10000, n1 := 16, s1 := 0x10, n2 := 1, s2 := 0x0,
  flds := [FCR_RXP_STATUS_filled] }
def FCR_TXP_CFG_enable : Fld := { base := 0x3000A00, s0 := 0x10000, s1 := 0x8, s2 := 0x0, lo := 31, wd := 1, acc := .rws }
def FCR_TXP_CFG_owner : Fld := { base := 0x3000A00, s0 := 0x10000, s1 := 0x8, s2 := 0x0, lo := 4, wd := 4, acc := .rws }
def FCR_TXP_CFG_pipe : Fld := { base := 0x3000A00, s0 := 0x10000, s1 := 0x8, s2 := 0x0, lo := 0, wd := 3, acc := .rws }
def reg_FCR_TXP_CFG : RegDef := {
  name := "FCR_TXP_CFG", base := 0x3000A00, width := 32, n0 := 64, s0 := 0x10000, n1 := 16, s1 := 0x8, n2 := 1, s2 := 0x0,
  flds := [FCR_TXP_CFG_enable, FCR_TXP_CFG_owner, FCR_TXP_CFG_pipe] }
def FCR_CH_CFG_enable : Fld := { base := 0x3001000, s0 := 0x10000, s1 := 0x8, s2 := 0x0, lo := 31, wd := 1, acc := .rw }
def FCR_CH_CFG_depth : Fld := { base := 0x3001000, s0 := 0x10000, s1 := 0x8, s2 := 0x0, lo := 8, wd := 5, acc := .rw, rst := fun _ _ _ => 0x8 }
def FCR_CH_CFG_owner : Fld := { base := 0x3001000, s0 := 0x10000, s1 := 0x8, s2 := 0x0, lo := 0, wd := 4, acc := .rw }
def reg_FCR_CH_CFG : RegDef := {
  name := "FCR_CH_CFG", base := 0x3001000, width := 32, n0 := 64, s0 := 0x10000, n1 := 64, s1 := 0x8, n2 := 1, s2 := 0x0,
  flds := [FCR_CH_CFG_enable, FCR_CH_CFG_depth, FCR_CH_CFG_owner] }
def FCR_CH_STATUS_held : Fld := { base := 0x3001200, s0 := 0x10000, s1 := 0x8, s2 := 0x0, lo := 16, wd := 5, acc := .ro }
def FCR_CH_STATUS_alarms : Fld := { base := 0x3001200, s0 := 0x10000, s1 := 0x8, s2 := 0x0, lo := 0, wd := 3, acc := .ro }
def reg_FCR_CH_STATUS : RegDef := {
  name := "FCR_CH_STATUS", base := 0x3001200, width := 32, n0 := 64, s0 := 0x10000, n1 := 64, s1 := 0x8, n2 := 1, s2 := 0x0,
  flds := [FCR_CH_STATUS_held, FCR_CH_STATUS_alarms] }
def FCR_CNT_count : Fld := { base := 0x3001400, s0 := 0x10000, s1 := 0x8, s2 := 0x0, lo := 0, wd := 64, acc := .ro }
def reg_FCR_CNT : RegDef := {
  name := "FCR_CNT", base := 0x3001400, width := 64, n0 := 64, s0 := 0x10000, n1 := 8, s1 := 0x8, n2 := 1, s2 := 0x0,
  flds := [FCR_CNT_count] }

/-- The registers of the FCR_ block after its common header. -/
def tbl_FCR : List RegDef := [
  reg_FCR_CORE_CFG,
  reg_FCR_CORE_STATUS,
  reg_FCR_FT_MBOX,
  reg_FCR_THREAD_CFG,
  reg_FCR_THREAD_PC,
  reg_FCR_THREAD_STATUS,
  reg_FCR_LM_CFG,
  reg_FCR_DBG_CTRL,
  reg_FCR_DBG_SEL,
  reg_FCR_DBG_DATA,
  reg_FCR_BRK_ADDR,
  reg_FCR_BRK_CTL,
  reg_FCR_DL_SNAP,
  reg_FCR_RXP_CFG,
  reg_FCR_RXP_STATUS,
  reg_FCR_TXP_CFG,
  reg_FCR_CH_CFG,
  reg_FCR_CH_STATUS,
  reg_FCR_CNT]

/-! ### VLT_ registers (18_cipher_vault.md) -/

def VLT_CFG_lock_lease_us : Fld := { base := 0x3400040, s0 := 0x0, s1 := 0x0, s2 := 0x0, lo := 16, wd := 16, acc := .rw, rst := fun _ _ _ => 0x2710 }
def VLT_CFG_mis_thresh : Fld := { base := 0x3400040, s0 := 0x0, s1 := 0x0, s2 := 0x0, lo := 8, wd := 8, acc := .rw, rst := fun _ _ _ => 0x4 }
def VLT_CFG_lock_max : Fld := { base := 0x3400040, s0 := 0x0, s1 := 0x0, s2 := 0x0, lo := 0, wd := 7, acc := .rw, rst := fun _ _ _ => 0x20 }
def reg_VLT_CFG : RegDef := {
  name := "VLT_CFG", base := 0x3400040, width := 32, n0 := 1, s0 := 0x0, n1 := 1, s1 := 0x0, n2 := 1, s2 := 0x0,
  flds := [VLT_CFG_lock_lease_us, VLT_CFG_mis_thresh, VLT_CFG_lock_max] }
def VLT_STATUS_key_ready : Fld := { base := 0x3400048, s0 := 0x0, s1 := 0x0, s2 := 0x0, lo := 31, wd := 1, acc := .ro }
def VLT_STATUS_zeroising : Fld := { base := 0x3400048, s0 := 0x0, s1 := 0x0, s2 := 0x0, lo := 30, wd := 1, acc := .ro }
def VLT_STATUS_locked : Fld := { base := 0x3400048, s0 := 0x0, s1 := 0x0, s2 := 0x0, lo := 15, wd := 7, acc := .ro }
def VLT_STATUS_fenced : Fld := { base := 0x3400048, s0 := 0x0, s1 := 0x0, s2 := 0x0, lo := 8, wd := 7, acc := .ro }
def VLT_STATUS_free : Fld := { base := 0x3400048, s0 := 0x0, s1 := 0x0, s2 := 0x0, lo := 0, wd := 7, acc := .ro, rst := fun _ _ _ => 0x40 }
def reg_VLT_STATUS : RegDef := {
  name := "VLT_STATUS", base := 0x3400048, width := 32, n0 := 1, s0 := 0x0, n1 := 1, s1 := 0x0, n2 := 1, s2 := 0x0,
  flds := [VLT_STATUS_key_ready, VLT_STATUS_zeroising, VLT_STATUS_locked, VLT_STATUS_fenced, VLT_STATUS_free] }
def VLT_ENG_FENCED_fenced : Fld := { base := 0x3400050, s0 := 0x0, s1 := 0x0, s2 := 0x0, lo := 0, wd := 64, acc := .ro }
def reg_VLT_ENG_FENCED : RegDef := {
  name := "VLT_ENG_FENCED", base := 0x3400050, width := 64, n0 := 1, s0 := 0x0, n1 := 1, s1 := 0x0, n2 := 1, s2 := 0x0,
  flds := [VLT_ENG_FENCED_fenced] }
def VLT_ZEROISE_all : Fld := { base := 0x3400058, s0 := 0x0, s1 := 0x0, s2 := 0x0, lo := 0, wd := 1, acc := .wo }
def reg_VLT_ZEROISE : RegDef := {
  name := "VLT_ZEROISE", base := 0x3400058, width := 32, n0 := 1, s0 := 0x0, n1 := 1, s1 := 0x0, n2 := 1, s2 := 0x0,
  flds := [VLT_ZEROISE_all] }
def VLT_KEY_SEL_slot : Fld := { base := 0x3400060, s0 := 0x0, s1 := 0x0, s2 := 0x0, lo := 0, wd := 16, acc := .rw }
def reg_VLT_KEY_SEL : RegDef := {
  name := "VLT_KEY_SEL", base := 0x3400060, width := 32, n0 := 1, s0 := 0x0, n1 := 1, s1 := 0x0, n2 := 1, s2 := 0x0,
  flds := [VLT_KEY_SEL_slot] }
def VLT_KEY_INFO_state : Fld := { base := 0x3400068, s0 := 0x0, s1 := 0x0, s2 := 0x0, lo := 28, wd := 4, acc := .ro }
def VLT_KEY_INFO_usage : Fld := { base := 0x3400068, s0 := 0x0, s1 := 0x0, s2 := 0x0, lo := 24, wd := 4, acc := .ro }
def VLT_KEY_INFO_size : Fld := { base := 0x3400068, s0 := 0x0, s1 := 0x0, s2 := 0x0, lo := 22, wd := 2, acc := .ro }
def VLT_KEY_INFO_slice : Fld := { base := 0x3400068, s0 := 0x0, s1 := 0x0, s2 := 0x0, lo := 0, wd := 12, acc := .ro }
def reg_VLT_KEY_INFO : RegDef := {
  name := "VLT_KEY_INFO", base := 0x3400068, width := 32, n0 := 1, s0 := 0x0, n1 := 1, s1 := 0x0, n2 := 1, s2 := 0x0,
  flds := [VLT_KEY_INFO_state, VLT_KEY_INFO_usage, VLT_KEY_INFO_size, VLT_KEY_INFO_slice] }
def VLT_CNT_count : Fld := { base := 0x3400100, s0 := 0x8, s1 := 0x0, s2 := 0x0, lo := 0, wd := 64, acc := .ro }
def reg_VLT_CNT : RegDef := {
  name := "VLT_CNT", base := 0x3400100, width := 64, n0 := 8, s0 := 0x8, n1 := 1, s1 := 0x0, n2 := 1, s2 := 0x0,
  flds := [VLT_CNT_count] }
def VLT_ENG_LOCK_brk : Fld := { base := 0x3400200, s0 := 0x8, s1 := 0x0, s2 := 0x0, lo := 31, wd := 1, acc := .wo }
def VLT_ENG_LOCK_locked : Fld := { base := 0x3400200, s0 := 0x8, s1 := 0x0, s2 := 0x0, lo := 30, wd := 1, acc := .ro }
def VLT_ENG_LOCK_holder : Fld := { base := 0x3400200, s0 := 0x8, s1 := 0x0, s2 := 0x0, lo := 16, wd := 10, acc := .ro }
def VLT_ENG_LOCK_slot : Fld := { base := 0x3400200, s0 := 0x8, s1 := 0x0, s2 := 0x0, lo := 0, wd := 16, acc := .ro, rst := fun _ _ _ => 0xFFFF }
def reg_VLT_ENG_LOCK : RegDef := {
  name := "VLT_ENG_LOCK", base := 0x3400200, width := 32, n0 := 64, s0 := 0x8, n1 := 1, s1 := 0x0, n2 := 1, s2 := 0x0,
  flds := [VLT_ENG_LOCK_brk, VLT_ENG_LOCK_locked, VLT_ENG_LOCK_holder, VLT_ENG_LOCK_slot] }

/-- The registers of the VLT_ block after its common header. -/
def tbl_VLT : List RegDef := [
  reg_VLT_CFG,
  reg_VLT_STATUS,
  reg_VLT_ENG_FENCED,
  reg_VLT_ZEROISE,
  reg_VLT_KEY_SEL,
  reg_VLT_KEY_INFO,
  reg_VLT_CNT,
  reg_VLT_ENG_LOCK]

/-! ### PMC_ registers (19_counters_telemetry.md) -/

def PMC_CTRL_refuse_cause : Fld := { base := 0x3800040, s0 := 0x0, s1 := 0x0, s2 := 0x0, lo := 28, wd := 4, acc := .ro }
def PMC_CTRL_refused : Fld := { base := 0x3800040, s0 := 0x0, s1 := 0x0, s2 := 0x0, lo := 27, wd := 1, acc := .w1c }
def PMC_CTRL_snap : Fld := { base := 0x3800040, s0 := 0x0, s1 := 0x0, s2 := 0x0, lo := 0, wd := 1, acc := .wo }
def reg_PMC_CTRL : RegDef := {
  name := "PMC_CTRL", base := 0x3800040, width := 32, n0 := 1, s0 := 0x0, n1 := 1, s1 := 0x0, n2 := 1, s2 := 0x0,
  flds := [PMC_CTRL_refuse_cause, PMC_CTRL_refused, PMC_CTRL_snap] }
def PMC_DUMP_BASE_addr : Fld := { base := 0x3800050, s0 := 0x0, s1 := 0x0, s2 := 0x0, lo := 15, wd := 49, acc := .rw }
def PMC_DUMP_BASE_loc : Fld := { base := 0x3800050, s0 := 0x0, s1 := 0x0, s2 := 0x0, lo := 0, wd := 2, acc := .rw }
def reg_PMC_DUMP_BASE : RegDef := {
  name := "PMC_DUMP_BASE", base := 0x3800050, width := 64, n0 := 1, s0 := 0x0, n1 := 1, s1 := 0x0, n2 := 1, s2 := 0x0,
  flds := [PMC_DUMP_BASE_addr, PMC_DUMP_BASE_loc] }
def PMC_DUMP_CFG_period_us : Fld := { base := 0x3800058, s0 := 0x0, s1 := 0x0, s2 := 0x0, lo := 32, wd := 32, acc := .rw }
def PMC_DUMP_CFG_sets : Fld := { base := 0x3800058, s0 := 0x0, s1 := 0x0, s2 := 0x0, lo := 16, wd := 15, acc := .rw }
def PMC_DUMP_CFG_log2_slots : Fld := { base := 0x3800058, s0 := 0x0, s1 := 0x0, s2 := 0x0, lo := 12, wd := 4, acc := .rw }
def PMC_DUMP_CFG_enable : Fld := { base := 0x3800058, s0 := 0x0, s1 := 0x0, s2 := 0x0, lo := 0, wd := 1, acc := .rw }
def reg_PMC_DUMP_CFG : RegDef := {
  name := "PMC_DUMP_CFG", base := 0x3800058, width := 64, n0 := 1, s0 := 0x0, n1 := 1, s1 := 0x0, n2 := 1, s2 := 0x0,
  flds := [PMC_DUMP_CFG_period_us, PMC_DUMP_CFG_sets, PMC_DUMP_CFG_log2_slots, PMC_DUMP_CFG_enable] }
def PMC_DUMP_T0_t0 : Fld := { base := 0x3800060, s0 := 0x0, s1 := 0x0, s2 := 0x0, lo := 0, wd := 64, acc := .rw }
def reg_PMC_DUMP_T0 : RegDef := {
  name := "PMC_DUMP_T0", base := 0x3800060, width := 64, n0 := 1, s0 := 0x0, n1 := 1, s1 := 0x0, n2 := 1, s2 := 0x0,
  flds := [PMC_DUMP_T0_t0] }
def PMC_DUMP_CMD_now : Fld := { base := 0x3800068, s0 := 0x0, s1 := 0x0, s2 := 0x0, lo := 0, wd := 1, acc := .wo }
def reg_PMC_DUMP_CMD : RegDef := {
  name := "PMC_DUMP_CMD", base := 0x3800068, width := 32, n0 := 1, s0 := 0x0, n1 := 1, s1 := 0x0, n2 := 1, s2 := 0x0,
  flds := [PMC_DUMP_CMD_now] }
def PMC_DUMP_STATUS_seq : Fld := { base := 0x3800070, s0 := 0x0, s1 := 0x0, s2 := 0x0, lo := 32, wd := 32, acc := .ro }
def PMC_DUMP_STATUS_skipped : Fld := { base := 0x3800070, s0 := 0x0, s1 := 0x0, s2 := 0x0, lo := 16, wd := 16, acc := .rc }
def PMC_DUMP_STATUS_failed : Fld := { base := 0x3800070, s0 := 0x0, s1 := 0x0, s2 := 0x0, lo := 1, wd := 1, acc := .w1c }
def PMC_DUMP_STATUS_busy : Fld := { base := 0x3800070, s0 := 0x0, s1 := 0x0, s2 := 0x0, lo := 0, wd := 1, acc := .ro }
def reg_PMC_DUMP_STATUS : RegDef := {
  name := "PMC_DUMP_STATUS", base := 0x3800070, width := 64, n0 := 1, s0 := 0x0, n1 := 1, s1 := 0x0, n2 := 1, s2 := 0x0,
  flds := [PMC_DUMP_STATUS_seq, PMC_DUMP_STATUS_skipped, PMC_DUMP_STATUS_failed, PMC_DUMP_STATUS_busy] }
def PMC_ECC_CNT_ue : Fld := { base := 0x3800100, s0 := 0x8, s1 := 0x0, s2 := 0x0, lo := 32, wd := 32, acc := .ro }
def PMC_ECC_CNT_ce : Fld := { base := 0x3800100, s0 := 0x8, s1 := 0x0, s2 := 0x0, lo := 0, wd := 32, acc := .ro }
def reg_PMC_ECC_CNT : RegDef := {
  name := "PMC_ECC_CNT", base := 0x3800100, width := 64, n0 := 22, s0 := 0x8, n1 := 1, s1 := 0x0, n2 := 1, s2 := 0x0,
  flds := [PMC_ECC_CNT_ue, PMC_ECC_CNT_ce] }
def PMC_CTR_CFG_enable : Fld := { base := 0x3801000, s0 := 0x20, s1 := 0x0, s2 := 0x0, lo := 63, wd := 1, acc := .rw }
def PMC_CTR_CFG_mode : Fld := { base := 0x3801000, s0 := 0x20, s1 := 0x0, s2 := 0x0, lo := 62, wd := 1, acc := .rw }
def PMC_CTR_CFG_chain : Fld := { base := 0x3801000, s0 := 0x20, s1 := 0x0, s2 := 0x0, lo := 61, wd := 1, acc := .rw }
def PMC_CTR_CFG_sample : Fld := { base := 0x3801000, s0 := 0x20, s1 := 0x0, s2 := 0x0, lo := 60, wd := 1, acc := .rw }
def PMC_CTR_CFG_slice_en : Fld := { base := 0x3801000, s0 := 0x20, s1 := 0x0, s2 := 0x0, lo := 59, wd := 1, acc := .rw }
def PMC_CTR_CFG_slice : Fld := { base := 0x3801000, s0 := 0x20, s1 := 0x0, s2 := 0x0, lo := 36, wd := 12, acc := .rw }
def PMC_CTR_CFG_sub : Fld := { base := 0x3801000, s0 := 0x20, s1 := 0x0, s2 := 0x0, lo := 24, wd := 12, acc := .rw }
def PMC_CTR_CFG_event : Fld := { base := 0x3801000, s0 := 0x20, s1 := 0x0, s2 := 0x0, lo := 16, wd := 8, acc := .rw }
def PMC_CTR_CFG_instance : Fld := { base := 0x3801000, s0 := 0x20, s1 := 0x0, s2 := 0x0, lo := 8, wd := 8, acc := .rw }
def PMC_CTR_CFG_block : Fld := { base := 0x3801000, s0 := 0x20, s1 := 0x0, s2 := 0x0, lo := 0, wd := 8, acc := .rw }
def reg_PMC_CTR_CFG : RegDef := {
  name := "PMC_CTR_CFG", base := 0x3801000, width := 64, n0 := 256, s0 := 0x20, n1 := 1, s1 := 0x0, n2 := 1, s2 := 0x0,
  flds := [PMC_CTR_CFG_enable, PMC_CTR_CFG_mode, PMC_CTR_CFG_chain, PMC_CTR_CFG_sample, PMC_CTR_CFG_slice_en, PMC_CTR_CFG_slice, PMC_CTR_CFG_sub, PMC_CTR_CFG_event, PMC_CTR_CFG_instance, PMC_CTR_CFG_block] }
def PMC_CTR_VAL_sampled : Fld := { base := 0x3801008, s0 := 0x20, s1 := 0x0, s2 := 0x0, lo := 49, wd := 1, acc := .w1c }
def PMC_CTR_VAL_wrapped : Fld := { base := 0x3801008, s0 := 0x20, s1 := 0x0, s2 := 0x0, lo := 48, wd := 1, acc := .w1c }
def PMC_CTR_VAL_value : Fld := { base := 0x3801008, s0 := 0x20, s1 := 0x0, s2 := 0x0, lo := 0, wd := 48, acc := .rw }
def reg_PMC_CTR_VAL : RegDef := {
  name := "PMC_CTR_VAL", base := 0x3801008, width := 64, n0 := 256, s0 := 0x20, n1 := 1, s1 := 0x0, n2 := 1, s2 := 0x0,
  flds := [PMC_CTR_VAL_sampled, PMC_CTR_VAL_wrapped, PMC_CTR_VAL_value] }
def PMC_CTR_RELOAD_reload : Fld := { base := 0x3801010, s0 := 0x20, s1 := 0x0, s2 := 0x0, lo := 0, wd := 48, acc := .rw }
def reg_PMC_CTR_RELOAD : RegDef := {
  name := "PMC_CTR_RELOAD", base := 0x3801010, width := 64, n0 := 256, s0 := 0x20, n1 := 1, s1 := 0x0, n2 := 1, s2 := 0x0,
  flds := [PMC_CTR_RELOAD_reload] }
def PMC_CTR_SNAP_value : Fld := { base := 0x3801018, s0 := 0x20, s1 := 0x0, s2 := 0x0, lo := 0, wd := 48, acc := .ro }
def reg_PMC_CTR_SNAP : RegDef := {
  name := "PMC_CTR_SNAP", base := 0x3801018, width := 64, n0 := 256, s0 := 0x20, n1 := 1, s1 := 0x0, n2 := 1, s2 := 0x0,
  flds := [PMC_CTR_SNAP_value] }
def PMC_HIST_CFG_enable : Fld := { base := 0x3803000, s0 := 0x10, s1 := 0x0, s2 := 0x0, lo := 63, wd := 1, acc := .rw }
def PMC_HIST_CFG_freeze : Fld := { base := 0x3803000, s0 := 0x10, s1 := 0x0, s2 := 0x0, lo := 62, wd := 1, acc := .rw }
def PMC_HIST_CFG_clear : Fld := { base := 0x3803000, s0 := 0x10, s1 := 0x0, s2 := 0x0, lo := 61, wd := 1, acc := .wo }
def PMC_HIST_CFG_shift : Fld := { base := 0x3803000, s0 := 0x10, s1 := 0x0, s2 := 0x0, lo := 48, wd := 4, acc := .rw }
def PMC_HIST_CFG_source : Fld := { base := 0x3803000, s0 := 0x10, s1 := 0x0, s2 := 0x0, lo := 32, wd := 8, acc := .rw }
def PMC_HIST_CFG_obj : Fld := { base := 0x3803000, s0 := 0x10, s1 := 0x0, s2 := 0x0, lo := 16, wd := 16, acc := .rw }
def reg_PMC_HIST_CFG : RegDef := {
  name := "PMC_HIST_CFG", base := 0x3803000, width := 64, n0 := 16, s0 := 0x10, n1 := 1, s1 := 0x0, n2 := 1, s2 := 0x0,
  flds := [PMC_HIST_CFG_enable, PMC_HIST_CFG_freeze, PMC_HIST_CFG_clear, PMC_HIST_CFG_shift, PMC_HIST_CFG_source, PMC_HIST_CFG_obj] }
def PMC_HIST_STAT_sat : Fld := { base := 0x3803008, s0 := 0x10, s1 := 0x0, s2 := 0x0, lo := 63, wd := 1, acc := .ro }
def PMC_HIST_STAT_missed : Fld := { base := 0x3803008, s0 := 0x10, s1 := 0x0, s2 := 0x0, lo := 0, wd := 32, acc := .ro }
def reg_PMC_HIST_STAT : RegDef := {
  name := "PMC_HIST_STAT", base := 0x3803008, width := 64, n0 := 16, s0 := 0x10, n1 := 1, s1 := 0x0, n2 := 1, s2 := 0x0,
  flds := [PMC_HIST_STAT_sat, PMC_HIST_STAT_missed] }
def PMC_HIST_BIN_count : Fld := { base := 0x3803800, s0 := 0x80, s1 := 0x4, s2 := 0x0, lo := 0, wd := 32, acc := .ro }
def reg_PMC_HIST_BIN : RegDef := {
  name := "PMC_HIST_BIN", base := 0x3803800, width := 32, n0 := 16, s0 := 0x80, n1 := 32, s1 := 0x4, n2 := 1, s2 := 0x0,
  flds := [PMC_HIST_BIN_count] }

/-- The registers of the PMC_ block after its common header. -/
def tbl_PMC : List RegDef := [
  reg_PMC_CTRL,
  reg_PMC_DUMP_BASE,
  reg_PMC_DUMP_CFG,
  reg_PMC_DUMP_T0,
  reg_PMC_DUMP_CMD,
  reg_PMC_DUMP_STATUS,
  reg_PMC_ECC_CNT,
  reg_PMC_CTR_CFG,
  reg_PMC_CTR_VAL,
  reg_PMC_CTR_RELOAD,
  reg_PMC_CTR_SNAP,
  reg_PMC_HIST_CFG,
  reg_PMC_HIST_STAT,
  reg_PMC_HIST_BIN]

/-! ### HLT_ registers (20_health_test.md) -/

def HLT_CMD_go : Fld := { base := 0x3A00040, s0 := 0x0, s1 := 0x0, s2 := 0x0, lo := 31, wd := 1, acc := .wo }
def HLT_CMD_op : Fld := { base := 0x3A00040, s0 := 0x0, s1 := 0x0, s2 := 0x0, lo := 28, wd := 3, acc := .rw }
def HLT_CMD_drain : Fld := { base := 0x3A00040, s0 := 0x0, s1 := 0x0, s2 := 0x0, lo := 27, wd := 1, acc := .rw }
def HLT_CMD_force : Fld := { base := 0x3A00040, s0 := 0x0, s1 := 0x0, s2 := 0x0, lo := 26, wd := 1, acc := .rw }
def HLT_CMD_kind : Fld := { base := 0x3A00040, s0 := 0x0, s1 := 0x0, s2 := 0x0, lo := 16, wd := 3, acc := .rw }
def HLT_CMD_index : Fld := { base := 0x3A00040, s0 := 0x0, s1 := 0x0, s2 := 0x0, lo := 0, wd := 7, acc := .rw }
def reg_HLT_CMD : RegDef := {
  name := "HLT_CMD", base := 0x3A00040, width := 32, n0 := 1, s0 := 0x0, n1 := 1, s1 := 0x0, n2 := 1, s2 := 0x0,
  flds := [HLT_CMD_go, HLT_CMD_op, HLT_CMD_drain, HLT_CMD_force, HLT_CMD_kind, HLT_CMD_index] }
def HLT_CMD_STATUS_status : Fld := { base := 0x3A00048, s0 := 0x0, s1 := 0x0, s2 := 0x0, lo := 16, wd := 16, acc := .ro }
def HLT_CMD_STATUS_kind : Fld := { base := 0x3A00048, s0 := 0x0, s1 := 0x0, s2 := 0x0, lo := 8, wd := 3, acc := .ro }
def HLT_CMD_STATUS_index : Fld := { base := 0x3A00048, s0 := 0x0, s1 := 0x0, s2 := 0x0, lo := 0, wd := 7, acc := .ro }
def reg_HLT_CMD_STATUS : RegDef := {
  name := "HLT_CMD_STATUS", base := 0x3A00048, width := 32, n0 := 1, s0 := 0x0, n1 := 1, s1 := 0x0, n2 := 1, s2 := 0x0,
  flds := [HLT_CMD_STATUS_status, HLT_CMD_STATUS_kind, HLT_CMD_STATUS_index] }
def HLT_STATUS_brace : Fld := { base := 0x3A00050, s0 := 0x0, s1 := 0x0, s2 := 0x0, lo := 31, wd := 1, acc := .ro }
def HLT_STATUS_brace_rails : Fld := { base := 0x3A00050, s0 := 0x0, s1 := 0x0, s2 := 0x0, lo := 28, wd := 3, acc := .ro }
def HLT_STATUS_epoch_ref : Fld := { base := 0x3A00050, s0 := 0x0, s1 := 0x0, s2 := 0x0, lo := 21, wd := 7, acc := .ro }
def HLT_STATUS_running : Fld := { base := 0x3A00050, s0 := 0x0, s1 := 0x0, s2 := 0x0, lo := 16, wd := 5, acc := .ro }
def HLT_STATUS_fenced : Fld := { base := 0x3A00050, s0 := 0x0, s1 := 0x0, s2 := 0x0, lo := 0, wd := 8, acc := .ro }
def reg_HLT_STATUS : RegDef := {
  name := "HLT_STATUS", base := 0x3A00050, width := 32, n0 := 1, s0 := 0x0, n1 := 1, s1 := 0x0, n2 := 1, s2 := 0x0,
  flds := [HLT_STATUS_brace, HLT_STATUS_brace_rails, HLT_STATUS_epoch_ref, HLT_STATUS_running, HLT_STATUS_fenced] }
def HLT_BOOT_TEST_bank_fail : Fld := { base := 0x3A00058, s0 := 0x0, s1 := 0x0, s2 := 0x0, lo := 16, wd := 16, acc := .ro }
def HLT_BOOT_TEST_xbar_fail : Fld := { base := 0x3A00058, s0 := 0x0, s1 := 0x0, s2 := 0x0, lo := 1, wd := 1, acc := .ro }
def HLT_BOOT_TEST_done : Fld := { base := 0x3A00058, s0 := 0x0, s1 := 0x0, s2 := 0x0, lo := 0, wd := 1, acc := .ro }
def reg_HLT_BOOT_TEST : RegDef := {
  name := "HLT_BOOT_TEST", base := 0x3A00058, width := 32, n0 := 1, s0 := 0x0, n1 := 1, s1 := 0x0, n2 := 1, s2 := 0x0,
  flds := [HLT_BOOT_TEST_bank_fail, HLT_BOOT_TEST_xbar_fail, HLT_BOOT_TEST_done] }
def HLT_DRAIN_CFG_drain_ms : Fld := { base := 0x3A00060, s0 := 0x0, s1 := 0x0, s2 := 0x0, lo := 16, wd := 16, acc := .rw, rst := fun _ _ _ => 0x64 }
def reg_HLT_DRAIN_CFG : RegDef := {
  name := "HLT_DRAIN_CFG", base := 0x3A00060, width := 32, n0 := 1, s0 := 0x0, n1 := 1, s1 := 0x0, n2 := 1, s2 := 0x0,
  flds := [HLT_DRAIN_CFG_drain_ms] }
def HLT_THERM_CFG_warn_c : Fld := { base := 0x3A00068, s0 := 0x0, s1 := 0x0, s2 := 0x0, lo := 56, wd := 8, acc := .rw, rst := fun _ _ _ => 0x5F }
def HLT_THERM_CFG_step1_c : Fld := { base := 0x3A00068, s0 := 0x0, s1 := 0x0, s2 := 0x0, lo := 48, wd := 8, acc := .rw, rst := fun _ _ _ => 0x64 }
def HLT_THERM_CFG_step2_c : Fld := { base := 0x3A00068, s0 := 0x0, s1 := 0x0, s2 := 0x0, lo := 40, wd := 8, acc := .rw, rst := fun _ _ _ => 0x67 }
def HLT_THERM_CFG_trip_c : Fld := { base := 0x3A00068, s0 := 0x0, s1 := 0x0, s2 := 0x0, lo := 32, wd := 8, acc := .rwl, rst := fun _ _ _ => 0x6E }
def HLT_THERM_CFG_hyst_c : Fld := { base := 0x3A00068, s0 := 0x0, s1 := 0x0, s2 := 0x0, lo := 24, wd := 8, acc := .rw, rst := fun _ _ _ => 0x3 }
def reg_HLT_THERM_CFG : RegDef := {
  name := "HLT_THERM_CFG", base := 0x3A00068, width := 64, n0 := 1, s0 := 0x0, n1 := 1, s1 := 0x0, n2 := 1, s2 := 0x0,
  flds := [HLT_THERM_CFG_warn_c, HLT_THERM_CFG_step1_c, HLT_THERM_CFG_step2_c, HLT_THERM_CFG_trip_c, HLT_THERM_CFG_hyst_c] }
def HLT_THERM_STATUS_max_c : Fld := { base := 0x3A00070, s0 := 0x0, s1 := 0x0, s2 := 0x0, lo := 56, wd := 8, acc := .ro }
def HLT_THERM_STATUS_max_sensor : Fld := { base := 0x3A00070, s0 := 0x0, s1 := 0x0, s2 := 0x0, lo := 48, wd := 8, acc := .ro }
def HLT_THERM_STATUS_peak_c : Fld := { base := 0x3A00070, s0 := 0x0, s1 := 0x0, s2 := 0x0, lo := 40, wd := 8, acc := .rc }
def HLT_THERM_STATUS_warn : Fld := { base := 0x3A00070, s0 := 0x0, s1 := 0x0, s2 := 0x0, lo := 2, wd := 1, acc := .ro }
def HLT_THERM_STATUS_step : Fld := { base := 0x3A00070, s0 := 0x0, s1 := 0x0, s2 := 0x0, lo := 0, wd := 2, acc := .ro }
def reg_HLT_THERM_STATUS : RegDef := {
  name := "HLT_THERM_STATUS", base := 0x3A00070, width := 64, n0 := 1, s0 := 0x0, n1 := 1, s1 := 0x0, n2 := 1, s2 := 0x0,
  flds := [HLT_THERM_STATUS_max_c, HLT_THERM_STATUS_max_sensor, HLT_THERM_STATUS_peak_c, HLT_THERM_STATUS_warn, HLT_THERM_STATUS_step] }
def HLT_AON_CAUSE_ft_sec : Fld := { base := 0x3A00078, s0 := 0x0, s1 := 0x0, s2 := 0x0, lo := 32, wd := 32, acc := .ro }
def HLT_AON_CAUSE_count : Fld := { base := 0x3A00078, s0 := 0x0, s1 := 0x0, s2 := 0x0, lo := 24, wd := 8, acc := .ro }
def HLT_AON_CAUSE_rail : Fld := { base := 0x3A00078, s0 := 0x0, s1 := 0x0, s2 := 0x0, lo := 16, wd := 2, acc := .ro }
def HLT_AON_CAUSE_cause : Fld := { base := 0x3A00078, s0 := 0x0, s1 := 0x0, s2 := 0x0, lo := 0, wd := 8, acc := .ro }
def reg_HLT_AON_CAUSE : RegDef := {
  name := "HLT_AON_CAUSE", base := 0x3A00078, width := 64, n0 := 1, s0 := 0x0, n1 := 1, s1 := 0x0, n2 := 1, s2 := 0x0,
  flds := [HLT_AON_CAUSE_ft_sec, HLT_AON_CAUSE_count, HLT_AON_CAUSE_rail, HLT_AON_CAUSE_cause] }
def HLT_EPOCH_HELD_held : Fld := { base := 0x3A00080, s0 := 0x8, s1 := 0x0, s2 := 0x0, lo := 0, wd := 64, acc := .ro }
def reg_HLT_EPOCH_HELD : RegDef := {
  name := "HLT_EPOCH_HELD", base := 0x3A00080, width := 64, n0 := 2, s0 := 0x8, n1 := 1, s1 := 0x0, n2 := 1, s2 := 0x0,
  flds := [HLT_EPOCH_HELD_held] }
def HLT_SUPPLY_CFG_hyst_mv : Fld := { base := 0x3A00100, s0 := 0x10, s1 := 0x0, s2 := 0x0, lo := 32, wd := 16, acc := .rw, rst := fun _ _ _ => 0xA }
def HLT_SUPPLY_CFG_reset_mv : Fld := { base := 0x3A00100, s0 := 0x10, s1 := 0x0, s2 := 0x0, lo := 16, wd := 16, acc := .rwl, rst := fun i _ _ => if i = 2 then 0x2FD else 0x2A3 }
def HLT_SUPPLY_CFG_warn_mv : Fld := { base := 0x3A00100, s0 := 0x10, s1 := 0x0, s2 := 0x0, lo := 0, wd := 16, acc := .rw, rst := fun i _ _ => if i = 2 then 0x328 else 0x2C9 }
def reg_HLT_SUPPLY_CFG : RegDef := {
  name := "HLT_SUPPLY_CFG", base := 0x3A00100, width := 64, n0 := 3, s0 := 0x10, n1 := 1, s1 := 0x0, n2 := 1, s2 := 0x0,
  flds := [HLT_SUPPLY_CFG_hyst_mv, HLT_SUPPLY_CFG_reset_mv, HLT_SUPPLY_CFG_warn_mv] }
def HLT_SUPPLY_STATUS_min_mv : Fld := { base := 0x3A00108, s0 := 0x10, s1 := 0x0, s2 := 0x0, lo := 48, wd := 16, acc := .rc, rst := fun _ _ _ => 0xFFFF }
def HLT_SUPPLY_STATUS_now_mv : Fld := { base := 0x3A00108, s0 := 0x10, s1 := 0x0, s2 := 0x0, lo := 32, wd := 16, acc := .ro }
def HLT_SUPPLY_STATUS_braces : Fld := { base := 0x3A00108, s0 := 0x10, s1 := 0x0, s2 := 0x0, lo := 16, wd := 16, acc := .rc }
def HLT_SUPPLY_STATUS_below_warn : Fld := { base := 0x3A00108, s0 := 0x10, s1 := 0x0, s2 := 0x0, lo := 0, wd := 1, acc := .ro }
def reg_HLT_SUPPLY_STATUS : RegDef := {
  name := "HLT_SUPPLY_STATUS", base := 0x3A00108, width := 64, n0 := 3, s0 := 0x10, n1 := 1, s1 := 0x0, n2 := 1, s2 := 0x0,
  flds := [HLT_SUPPLY_STATUS_min_mv, HLT_SUPPLY_STATUS_now_mv, HLT_SUPPLY_STATUS_braces, HLT_SUPPLY_STATUS_below_warn] }
def HLT_TEMP_peak_c : Fld := { base := 0x3A00200, s0 := 0x8, s1 := 0x0, s2 := 0x0, lo := 16, wd := 8, acc := .rc }
def HLT_TEMP_fault : Fld := { base := 0x3A00200, s0 := 0x8, s1 := 0x0, s2 := 0x0, lo := 8, wd := 1, acc := .ro }
def HLT_TEMP_temp_c : Fld := { base := 0x3A00200, s0 := 0x8, s1 := 0x0, s2 := 0x0, lo := 0, wd := 8, acc := .ro }
def reg_HLT_TEMP : RegDef := {
  name := "HLT_TEMP", base := 0x3A00200, width := 32, n0 := 18, s0 := 0x8, n1 := 1, s1 := 0x0, n2 := 1, s2 := 0x0,
  flds := [HLT_TEMP_peak_c, HLT_TEMP_fault, HLT_TEMP_temp_c] }
def HLT_CNT_count : Fld := { base := 0x3A00300, s0 := 0x8, s1 := 0x0, s2 := 0x0, lo := 0, wd := 64, acc := .ro }
def reg_HLT_CNT : RegDef := {
  name := "HLT_CNT", base := 0x3A00300, width := 64, n0 := 8, s0 := 0x8, n1 := 1, s1 := 0x0, n2 := 1, s2 := 0x0,
  flds := [HLT_CNT_count] }
def HLT_UNIT_last_status : Fld := { base := 0x3A01000, s0 := 0x200, s1 := 0x8, s2 := 0x0, lo := 16, wd := 16, acc := .ro }
def HLT_UNIT_fails : Fld := { base := 0x3A01000, s0 := 0x200, s1 := 0x8, s2 := 0x0, lo := 4, wd := 8, acc := .ro }
def HLT_UNIT_state : Fld := { base := 0x3A01000, s0 := 0x200, s1 := 0x8, s2 := 0x0, lo := 0, wd := 3, acc := .ro }
def reg_HLT_UNIT : RegDef := {
  name := "HLT_UNIT", base := 0x3A01000, width := 32, n0 := 6, s0 := 0x200, n1 := 64, s1 := 0x8, n2 := 1, s2 := 0x0,
  flds := [HLT_UNIT_last_status, HLT_UNIT_fails, HLT_UNIT_state] }

/-- The registers of the HLT_ block after its common header. -/
def tbl_HLT : List RegDef := [
  reg_HLT_CMD,
  reg_HLT_CMD_STATUS,
  reg_HLT_STATUS,
  reg_HLT_BOOT_TEST,
  reg_HLT_DRAIN_CFG,
  reg_HLT_THERM_CFG,
  reg_HLT_THERM_STATUS,
  reg_HLT_AON_CAUSE,
  reg_HLT_EPOCH_HELD,
  reg_HLT_SUPPLY_CFG,
  reg_HLT_SUPPLY_STATUS,
  reg_HLT_TEMP,
  reg_HLT_CNT,
  reg_HLT_UNIT]

/-! ### MGT_ registers (21_management.md) -/

def MGT_INFO_eid : Fld := { base := 0x3C00040, s0 := 0x0, s1 := 0x0, s2 := 0x0, lo := 48, wd := 16, acc := .ro }
def MGT_INFO_tid : Fld := { base := 0x3C00040, s0 := 0x0, s1 := 0x0, s2 := 0x0, lo := 40, wd := 8, acc := .ro }
def MGT_INFO_smbus_addr : Fld := { base := 0x3C00040, s0 := 0x0, s1 := 0x0, s2 := 0x0, lo := 32, wd := 7, acc := .ro, rst := fun _ _ _ => 0x4A }
def MGT_INFO_iana : Fld := { base := 0x3C00040, s0 := 0x0, s1 := 0x0, s2 := 0x0, lo := 0, wd := 32, acc := .ro }
def reg_MGT_INFO : RegDef := {
  name := "MGT_INFO", base := 0x3C00040, width := 64, n0 := 1, s0 := 0x0, n1 := 1, s1 := 0x0, n2 := 1, s2 := 0x0,
  flds := [MGT_INFO_eid, MGT_INFO_tid, MGT_INFO_smbus_addr, MGT_INFO_iana] }
def MGT_STATUS_main : Fld := { base := 0x3C00048, s0 := 0x0, s1 := 0x0, s2 := 0x0, lo := 24, wd := 8, acc := .ro }
def MGT_STATUS_i3c : Fld := { base := 0x3C00048, s0 := 0x0, s1 := 0x0, s2 := 0x0, lo := 23, wd := 1, acc := .ro }
def MGT_STATUS_upd : Fld := { base := 0x3C00048, s0 := 0x0, s1 := 0x0, s2 := 0x0, lo := 22, wd := 1, acc := .ro }
def reg_MGT_STATUS : RegDef := {
  name := "MGT_STATUS", base := 0x3C00048, width := 32, n0 := 1, s0 := 0x0, n1 := 1, s1 := 0x0, n2 := 1, s2 := 0x0,
  flds := [MGT_STATUS_main, MGT_STATUS_i3c, MGT_STATUS_upd] }
def MGT_CTRL_main_reset : Fld := { base := 0x3C00050, s0 := 0x0, s1 := 0x0, s2 := 0x0, lo := 31, wd := 1, acc := .wo }
def reg_MGT_CTRL : RegDef := {
  name := "MGT_CTRL", base := 0x3C00050, width := 32, n0 := 1, s0 := 0x0, n1 := 1, s1 := 0x0, n2 := 1, s2 := 0x0,
  flds := [MGT_CTRL_main_reset] }
def MGT_NCSI_STATUS_package : Fld := { base := 0x3C00058, s0 := 0x0, s1 := 0x0, s2 := 0x0, lo := 29, wd := 3, acc := .ro }
def MGT_NCSI_STATUS_ch_en : Fld := { base := 0x3C00058, s0 := 0x0, s1 := 0x0, s2 := 0x0, lo := 0, wd := 8, acc := .ro }
def reg_MGT_NCSI_STATUS : RegDef := {
  name := "MGT_NCSI_STATUS", base := 0x3C00058, width := 32, n0 := 1, s0 := 0x0, n1 := 1, s1 := 0x0, n2 := 1, s2 := 0x0,
  flds := [MGT_NCSI_STATUS_package, MGT_NCSI_STATUS_ch_en] }
def MGT_LOG_STATUS_next_seq : Fld := { base := 0x3C00060, s0 := 0x0, s1 := 0x0, s2 := 0x0, lo := 0, wd := 64, acc := .ro }
def reg_MGT_LOG_STATUS : RegDef := {
  name := "MGT_LOG_STATUS", base := 0x3C00060, width := 64, n0 := 1, s0 := 0x0, n1 := 1, s1 := 0x0, n2 := 1, s2 := 0x0,
  flds := [MGT_LOG_STATUS_next_seq] }
def MGT_LOG_IDX_seq : Fld := { base := 0x3C00068, s0 := 0x0, s1 := 0x0, s2 := 0x0, lo := 0, wd := 64, acc := .rw }
def reg_MGT_LOG_IDX : RegDef := {
  name := "MGT_LOG_IDX", base := 0x3C00068, width := 64, n0 := 1, s0 := 0x0, n1 := 1, s1 := 0x0, n2 := 1, s2 := 0x0,
  flds := [MGT_LOG_IDX_seq] }
def MGT_LOG_DATA_data : Fld := { base := 0x3C00070, s0 := 0x8, s1 := 0x0, s2 := 0x0, lo := 0, wd := 64, acc := .ro }
def reg_MGT_LOG_DATA : RegDef := {
  name := "MGT_LOG_DATA", base := 0x3C00070, width := 64, n0 := 4, s0 := 0x8, n1 := 1, s1 := 0x0, n2 := 1, s2 := 0x0,
  flds := [MGT_LOG_DATA_data] }
def MGT_H2M_CTRL_go : Fld := { base := 0x3C00100, s0 := 0x0, s1 := 0x0, s2 := 0x0, lo := 31, wd := 1, acc := .wo }
def MGT_H2M_CTRL_busy : Fld := { base := 0x3C00100, s0 := 0x0, s1 := 0x0, s2 := 0x0, lo := 30, wd := 1, acc := .ro }
def MGT_H2M_CTRL_length : Fld := { base := 0x3C00100, s0 := 0x0, s1 := 0x0, s2 := 0x0, lo := 0, wd := 9, acc := .rw }
def reg_MGT_H2M_CTRL : RegDef := {
  name := "MGT_H2M_CTRL", base := 0x3C00100, width := 32, n0 := 1, s0 := 0x0, n1 := 1, s1 := 0x0, n2 := 1, s2 := 0x0,
  flds := [MGT_H2M_CTRL_go, MGT_H2M_CTRL_busy, MGT_H2M_CTRL_length] }
def MGT_M2H_STATUS_valid : Fld := { base := 0x3C00108, s0 := 0x0, s1 := 0x0, s2 := 0x0, lo := 31, wd := 1, acc := .w1c }
def MGT_M2H_STATUS_length : Fld := { base := 0x3C00108, s0 := 0x0, s1 := 0x0, s2 := 0x0, lo := 0, wd := 9, acc := .ro }
def reg_MGT_M2H_STATUS : RegDef := {
  name := "MGT_M2H_STATUS", base := 0x3C00108, width := 32, n0 := 1, s0 := 0x0, n1 := 1, s1 := 0x0, n2 := 1, s2 := 0x0,
  flds := [MGT_M2H_STATUS_valid, MGT_M2H_STATUS_length] }
def MGT_CNT_count : Fld := { base := 0x3C00200, s0 := 0x8, s1 := 0x0, s2 := 0x0, lo := 0, wd := 64, acc := .ro }
def reg_MGT_CNT : RegDef := {
  name := "MGT_CNT", base := 0x3C00200, width := 64, n0 := 8, s0 := 0x8, n1 := 1, s1 := 0x0, n2 := 1, s2 := 0x0,
  flds := [MGT_CNT_count] }
def MGT_H2M_BUF_data : Fld := { base := 0x3C01000, s0 := 0x8, s1 := 0x0, s2 := 0x0, lo := 0, wd := 64, acc := .rw }
def reg_MGT_H2M_BUF : RegDef := {
  name := "MGT_H2M_BUF", base := 0x3C01000, width := 64, n0 := 32, s0 := 0x8, n1 := 1, s1 := 0x0, n2 := 1, s2 := 0x0,
  flds := [MGT_H2M_BUF_data] }
def MGT_M2H_BUF_data : Fld := { base := 0x3C01100, s0 := 0x8, s1 := 0x0, s2 := 0x0, lo := 0, wd := 64, acc := .ro }
def reg_MGT_M2H_BUF : RegDef := {
  name := "MGT_M2H_BUF", base := 0x3C01100, width := 64, n0 := 32, s0 := 0x8, n1 := 1, s1 := 0x0, n2 := 1, s2 := 0x0,
  flds := [MGT_M2H_BUF_data] }

/-- The registers of the MGT_ block after its common header. -/
def tbl_MGT : List RegDef := [
  reg_MGT_INFO,
  reg_MGT_STATUS,
  reg_MGT_CTRL,
  reg_MGT_NCSI_STATUS,
  reg_MGT_LOG_STATUS,
  reg_MGT_LOG_IDX,
  reg_MGT_LOG_DATA,
  reg_MGT_H2M_CTRL,
  reg_MGT_M2H_STATUS,
  reg_MGT_CNT,
  reg_MGT_H2M_BUF,
  reg_MGT_M2H_BUF]

/-! ### PAR_ registers (22_redundant_pair.md) -/

def PAR_CFG_partner_serial : Fld := { base := 0x3E00040, s0 := 0x0, s1 := 0x0, s2 := 0x0, lo := 32, wd := 32, acc := .rws }
def PAR_CFG_prio : Fld := { base := 0x3E00040, s0 := 0x0, s1 := 0x0, s2 := 0x0, lo := 24, wd := 8, acc := .rws, rst := fun _ _ _ => 0x80 }
def PAR_CFG_dual : Fld := { base := 0x3E00040, s0 := 0x0, s1 := 0x0, s2 := 0x0, lo := 16, wd := 8, acc := .rws }
def PAR_CFG_miss_max : Fld := { base := 0x3E00040, s0 := 0x0, s1 := 0x0, s2 := 0x0, lo := 12, wd := 4, acc := .rws, rst := fun _ _ _ => 0x3 }
def PAR_CFG_rx_pipe : Fld := { base := 0x3E00040, s0 := 0x0, s1 := 0x0, s2 := 0x0, lo := 8, wd := 4, acc := .rws }
def PAR_CFG_media : Fld := { base := 0x3E00040, s0 := 0x0, s1 := 0x0, s2 := 0x0, lo := 6, wd := 2, acc := .rws, rst := fun _ _ _ => 0x1 }
def PAR_CFG_lt_en : Fld := { base := 0x3E00040, s0 := 0x0, s1 := 0x0, s2 := 0x0, lo := 5, wd := 1, acc := .rws }
def PAR_CFG_trust_slice : Fld := { base := 0x3E00040, s0 := 0x0, s1 := 0x0, s2 := 0x0, lo := 4, wd := 1, acc := .rws }
def PAR_CFG_mirror_rx : Fld := { base := 0x3E00040, s0 := 0x0, s1 := 0x0, s2 := 0x0, lo := 3, wd := 1, acc := .rws }
def PAR_CFG_preempt : Fld := { base := 0x3E00040, s0 := 0x0, s1 := 0x0, s2 := 0x0, lo := 2, wd := 1, acc := .rws }
def PAR_CFG_enable : Fld := { base := 0x3E00040, s0 := 0x0, s1 := 0x0, s2 := 0x0, lo := 0, wd := 1, acc := .rws }
def reg_PAR_CFG : RegDef := {
  name := "PAR_CFG", base := 0x3E00040, width := 64, n0 := 1, s0 := 0x0, n1 := 1, s1 := 0x0, n2 := 1, s2 := 0x0,
  flds := [PAR_CFG_partner_serial, PAR_CFG_prio, PAR_CFG_dual, PAR_CFG_miss_max, PAR_CFG_rx_pipe, PAR_CFG_media, PAR_CFG_lt_en, PAR_CFG_trust_slice, PAR_CFG_mirror_rx, PAR_CFG_preempt, PAR_CFG_enable] }
def PAR_STATUS_ft_offset_ns : Fld := { base := 0x3E00048, s0 := 0x0, s1 := 0x0, s2 := 0x0, lo := 32, wd := 32, acc := .ro }
def PAR_STATUS_takeovers : Fld := { base := 0x3E00048, s0 := 0x0, s1 := 0x0, s2 := 0x0, lo := 24, wd := 8, acc := .ro }
def PAR_STATUS_refuse_cause : Fld := { base := 0x3E00048, s0 := 0x0, s1 := 0x0, s2 := 0x0, lo := 20, wd := 4, acc := .ro }
def PAR_STATUS_refused : Fld := { base := 0x3E00048, s0 := 0x0, s1 := 0x0, s2 := 0x0, lo := 19, wd := 1, acc := .w1c }
def PAR_STATUS_resync : Fld := { base := 0x3E00048, s0 := 0x0, s1 := 0x0, s2 := 0x0, lo := 18, wd := 1, acc := .w1c }
def PAR_STATUS_id_mismatch : Fld := { base := 0x3E00048, s0 := 0x0, s1 := 0x0, s2 := 0x0, lo := 17, wd := 1, acc := .ro }
def PAR_STATUS_role : Fld := { base := 0x3E00048, s0 := 0x0, s1 := 0x0, s2 := 0x0, lo := 16, wd := 1, acc := .ro }
def PAR_STATUS_sub_state : Fld := { base := 0x3E00048, s0 := 0x0, s1 := 0x0, s2 := 0x0, lo := 8, wd := 8, acc := .ro }
def PAR_STATUS_state : Fld := { base := 0x3E00048, s0 := 0x0, s1 := 0x0, s2 := 0x0, lo := 0, wd := 2, acc := .ro }
def reg_PAR_STATUS : RegDef := {
  name := "PAR_STATUS", base := 0x3E00048, width := 64, n0 := 1, s0 := 0x0, n1 := 1, s1 := 0x0, n2 := 1, s2 := 0x0,
  flds := [PAR_STATUS_ft_offset_ns, PAR_STATUS_takeovers, PAR_STATUS_refuse_cause, PAR_STATUS_refused, PAR_STATUS_resync, PAR_STATUS_id_mismatch, PAR_STATUS_role, PAR_STATUS_sub_state, PAR_STATUS_state] }
def PAR_BOARD_tx_invert : Fld := { base := 0x3E00050, s0 := 0x0, s1 := 0x0, s2 := 0x0, lo := 0, wd := 16, acc := .rwl }
def reg_PAR_BOARD : RegDef := {
  name := "PAR_BOARD", base := 0x3E00050, width := 32, n0 := 1, s0 := 0x0, n1 := 1, s1 := 0x0, n2 := 1, s2 := 0x0,
  flds := [PAR_BOARD_tx_invert] }
def PAR_PARTNER_serial : Fld := { base := 0x3E00058, s0 := 0x0, s1 := 0x0, s2 := 0x0, lo := 0, wd := 64, acc := .ro }
def reg_PAR_PARTNER : RegDef := {
  name := "PAR_PARTNER", base := 0x3E00058, width := 64, n0 := 1, s0 := 0x0, n1 := 1, s1 := 0x0, n2 := 1, s2 := 0x0,
  flds := [PAR_PARTNER_serial] }
def PAR_LINK_link_ns : Fld := { base := 0x3E00060, s0 := 0x0, s1 := 0x0, s2 := 0x0, lo := 0, wd := 16, acc := .rw }
def reg_PAR_LINK : RegDef := {
  name := "PAR_LINK", base := 0x3E00060, width := 32, n0 := 1, s0 := 0x0, n1 := 1, s1 := 0x0, n2 := 1, s2 := 0x0,
  flds := [PAR_LINK_link_ns] }
def PAR_LANE_STATUS_short_gnd : Fld := { base := 0x3E00080, s0 := 0x8, s1 := 0x0, s2 := 0x0, lo := 11, wd := 1, acc := .w1c }
def PAR_LANE_STATUS_short_lane : Fld := { base := 0x3E00080, s0 := 0x8, s1 := 0x0, s2 := 0x0, lo := 10, wd := 1, acc := .w1c }
def PAR_LANE_STATUS_los : Fld := { base := 0x3E00080, s0 := 0x8, s1 := 0x0, s2 := 0x0, lo := 9, wd := 1, acc := .ro }
def PAR_LANE_STATUS_shut : Fld := { base := 0x3E00080, s0 := 0x8, s1 := 0x0, s2 := 0x0, lo := 8, wd := 1, acc := .ro }
def PAR_LANE_STATUS_state : Fld := { base := 0x3E00080, s0 := 0x8, s1 := 0x0, s2 := 0x0, lo := 0, wd := 3, acc := .ro }
def reg_PAR_LANE_STATUS : RegDef := {
  name := "PAR_LANE_STATUS", base := 0x3E00080, width := 32, n0 := 16, s0 := 0x8, n1 := 1, s1 := 0x0, n2 := 1, s2 := 0x0,
  flds := [PAR_LANE_STATUS_short_gnd, PAR_LANE_STATUS_short_lane, PAR_LANE_STATUS_los, PAR_LANE_STATUS_shut, PAR_LANE_STATUS_state] }
def PAR_MIRROR_en : Fld := { base := 0x3E00100, s0 := 0x8, s1 := 0x0, s2 := 0x0, lo := 63, wd := 1, acc := .rw }
def PAR_MIRROR_last : Fld := { base := 0x3E00100, s0 := 0x8, s1 := 0x0, s2 := 0x0, lo := 32, wd := 26, acc := .rw }
def PAR_MIRROR_first : Fld := { base := 0x3E00100, s0 := 0x8, s1 := 0x0, s2 := 0x0, lo := 0, wd := 26, acc := .rw }
def reg_PAR_MIRROR : RegDef := {
  name := "PAR_MIRROR", base := 0x3E00100, width := 64, n0 := 16, s0 := 0x8, n1 := 1, s1 := 0x0, n2 := 1, s2 := 0x0,
  flds := [PAR_MIRROR_en, PAR_MIRROR_last, PAR_MIRROR_first] }
def PAR_CNT_count : Fld := { base := 0x3E00200, s0 := 0x8, s1 := 0x0, s2 := 0x0, lo := 0, wd := 64, acc := .ro }
def reg_PAR_CNT : RegDef := {
  name := "PAR_CNT", base := 0x3E00200, width := 64, n0 := 8, s0 := 0x8, n1 := 1, s1 := 0x0, n2 := 1, s2 := 0x0,
  flds := [PAR_CNT_count] }

/-- The registers of the PAR_ block after its common header. -/
def tbl_PAR : List RegDef := [
  reg_PAR_CFG,
  reg_PAR_STATUS,
  reg_PAR_BOARD,
  reg_PAR_PARTNER,
  reg_PAR_LINK,
  reg_PAR_LANE_STATUS,
  reg_PAR_MIRROR,
  reg_PAR_CNT]

end Sys2Proof.R
end

