-- ==== Sys2Proof/Machine/State.lean ====
section
/-! DEFINITION. The state of the block as plain data: every register field of BAR0 in two sparse stores (`regs` for
current and staged values, `act` for the active values of RWS fields), and the state that no register shows, block by
block. INVENTORY.md lists every piece with its rule and its reset value. -/

namespace Sys2Proof.Machine

/-- `n` as a little-endian string of `k` bytes (00_scope.md R17). -/
def leBytes : Nat → Nat → List Byte
  | 0, _ => []
  | k + 1, n => BitVec.ofNat 8 n :: leBytes k (n / 256)

/-- One holding register of R15: the register it belongs to (BAR0 offset, none: empty) and its 32-bit half. -/
structure Half where
  reg : Option Nat := none
  half : Nat := 0
  deriving DecidableEq, Repr

/-- The register path: a write-side and a read-side holding register for the host and for the management core
(00_scope.md R15), and the value each requester's last read returned (the model's own record of the answer). -/
structure Bus where
  hostW : Half := {}
  hostR : Half := {}
  mgmtW : Half := {}
  mgmtR : Half := {}
  hostData : Nat := 0
  mgmtData : Nat := 0
  flowData : Nat := 0
  deriving DecidableEq, Repr

/-- An event record on its way to an event ring or to the always-on log (07_rings.md R205): source block, instance
and code, the slice concerned, the FT64 of detection and the 16 detail bytes. `toSlice` is the slice whose event ring
receives it; `toLog` says that it goes to the always-on log. -/
structure EventRec where
  block : Nat
  inst : Nat
  code : Nat
  slice : Nat := 0
  lost : Nat := 0
  stamp : Nat := 0
  detail : List Byte := []
  toSlice : Nat := 0
  deriving DecidableEq, Repr

/-- Fabric time and what runs on it (02_fabric_time.md). -/
structure Time where
  /-- FT, in units of 1/(3*2^40) ns since FT 0, so that the increment of R45 is exact. -/
  ft : Nat := 0
  /-- a set was applied since the release (R48) -/
  setSeen : Bool := false
  /-- a set or step was applied since the release (R48, R49) -/
  stepSeen : Bool := false
  /-- hardware servo: rate correction in units of 2^-40 last locked to the 10 MHz reference (R50, R51) -/
  servoRate : Int := 0
  /-- hardware servo: phase still to be slewed, in FT units (R50) -/
  slew : Int := 0
  /-- consecutive PPS edges within lock_ns (R50) -/
  goodEdges : Nat := 0
  /-- FT of the last PPS edge, or of the change to source 2 (R51) -/
  lastPps : Nat := 0
  /-- a step of the servo is held by an epoch (R54) -/
  stepHeld : Bool := false
  /-- FT of the last heartbeat, or of the release (01_architecture.md R40) -/
  beatAt : Nat := 0
  /-- running watchdogs and the FT their period began (R62) -/
  wdog : List (Nat × Nat) := []
  /-- interrupt to the management core raised by a watchdog (R62, action 1) -/
  wdogIrq : Bool := false
  deriving DecidableEq, Repr

/-- One flash slot (03_boot_images.md R72, R73): its four state bytes, its 1 KiB header and its body; a body byte that
is not listed is erased (0xFF). -/
structure Slot where
  word : List Byte
  hdr : List Byte
  body : List Host.Cell := []
  deriving DecidableEq, Repr

/-- A running update session (R84-R88, R96): the mailbox that began it, the target slot (0: A, 1: B), the checked
header, the body bytes that have arrived and the FT of its last command. -/
structure UpdSession where
  mbox : Nat
  target : Nat
  hdr : List Byte
  got : Nat := 0
  last : Nat := 0
  deriving DecidableEq, Repr

/-- What is one-time programmable: the key-hash rows (48 bytes each, empty: none) and the transport key (32 bytes, empty:
none) fused at manufacture, the fuses blown of the anti-rollback counter, the rows whose revoke fuse is blown (R84, R90-R95;
18_cipher_vault.md R475; log entry 3). -/
structure Otp where
  rows : List (List Byte) := [List.replicate 48 0, [], [], []]
  transport : List Byte := List.replicate 32 0
  count : Nat := 0
  revoked : Nat := 0
  deriving DecidableEq, Repr

/-- A fuse that is blown stays blown, and what was fused at manufacture stays: `b` burnt over `a`. -/
def Otp.burnt (a b : Otp) : Otp := { a with count := max a.count b.count, revoked := a.revoked ||| b.revoked }

/-- The security processor, flash and the release of the main domain (03_boot_images.md). -/
structure Sec where
  slotA : Slot
  slotB : Slot
  /-- the fill pass of the running boot attempt is complete (R104) -/
  fillDone : Bool := false
  /-- the main domain's blocks have been released (R70) -/
  mainUp : Bool := false
  /-- update session, at most one (R88) -/
  upd : Option UpdSession := none
  /-- FT at which the cuff opened (R90) -/
  openedAt : Nat := 0
  /-- the automatic fuse commit of this boot has started (R90) -/
  autoDone : Bool := false
  /-- mailbox whose FUSE_COMMIT is executing (R90) -/
  commitMbox : Option Nat := none
  /-- SEC_ events that wait for the cuff before they go to slice 0's ring (R75) -/
  dualEvent : Bool := false
  deriving DecidableEq, Repr

/-- Error accounting of one memory (04_memories_ecc.md R108, R109): corrected errors in the window, whether the
threshold event of the window was raised, the FT second of the last uncorrectable event, the events of that second and
the events suppressed since the last one. -/
structure EccCount where
  ce : Nat := 0
  raised : Bool := false
  sec : Nat := 0
  inSec : Nat := 0
  supp : Nat := 0
  deriving DecidableEq, Repr

/-- A running range scrub (R106, R107). -/
structure Scrub where
  base : Nat
  len : Nat
  recAddr : Nat
  start : Nat
  mode : Nat
  deriving DecidableEq, Repr

/-- The memories (04_memories_ecc.md): HBM bytes by device address, the 8-byte words that read as uncorrectable, the
error accounting of each memory by its number in event details, the running scrub and the answer to the last access. -/
structure MemSt where
  hbm : List Host.Cell := []
  bad : List (Nat × Bool) := []
  counts : List (Nat × EccCount) := []
  windowAt : Nat := 0
  scrub : Option Scrub := none
  rangeRefused : Nat := 0
  ansData : List Byte := []
  ansBad : Bool := false
  ansStatus : Nat := 0
  deriving DecidableEq, Repr

/-- A request that a function holds until the cuff is open and Bus Master Enable is 1 (05_host_interface.md R560): a
posted write of bytes for a slice, with its poison mark. -/
structure HeldWrite where
  slice : Nat
  addr : Nat
  data : List Byte
  bad : Bool
  deriving DecidableEq, Repr

/-- What software can change in a function's configuration space (05_host_interface.md, table Capabilities), the
requests it holds and the errors it has reported. -/
structure Func where
  memEn : Bool := false
  bme : Bool := false
  /-- Bus Master Enable has been set since the function's last reset (R560) -/
  bmeSeen : Bool := false
  pasidEn : Bool := false
  atsEn : Bool := false
  roEn : Bool := true
  cplTo : Nat := 0
  mps : Nat := 0
  mrrs : Nat := 2
  msixEn : Bool := false
  msixMask : Bool := false
  bar0 : Nat := 0
  bar2 : Nat := 0
  bar4 : Nat := 0
  held : List HeldWrite := []
  /-- errors reported in AER status since they were last cleared (R138, table Errors the functions report) -/
  aer : List AerErr := []
  deriving DecidableEq, Repr

/-- What a read of host memory brings data for (R123, R138): a descriptor fetch of the ring engine; a piece of a gathered
read by its number, with the ring and count of the entry it is for; or nothing any more: its tag is an orphan of a slice
under a generation (06_slices.md R170), or the tag of an aborted entry (07_rings.md R203). -/
inductive HostFor where
  | entry
  | job (id : Nat) (work : Option (Nat × Nat))
  | orphan (tag slice gen : Nat)
  | aborted (tag : Nat)
  deriving DecidableEq, Repr

/-- A host read in flight (R123, R141): function, PCIe tag, function generation and slice generation at issue, the ring and
the count that a descriptor fetch is for, the address and length, the FT of issue, the page of the translation cache entry
it was issued under, and what it brings data for, at which offset. -/
structure HostRead where
  fn : Nat
  tag : Nat
  gen : Nat
  slice : Nat
  sgen : Nat
  ring : Nat
  count : Nat
  addr : Nat
  len : Nat
  issued : Nat
  /-- outstanding at a BME clear, FLR or D3hot: its completion is discarded (R144) -/
  old : Bool := false
  under : Option Nat := none
  /-- bytes that earlier completions of it have brought -/
  got : List Byte := []
  for_ : HostFor := .entry
  off : Nat := 0
  deriving DecidableEq, Repr

/-- Who waits for a gathered read of host memory: the work of a ring entry; the RDMA engine through a region (owner number
as for reads toward a module), for an entry or a request of the partner; the engine for the address vector of a UD entry
of a QP, or for the context of a QP; a module's
MRD by socket and tag. -/
inductive JobFor where
  | work (ring count : Nat)
  | mr (owner : Nat) (work : Option (Nat × Nat))
  | av (q : Nat) (work : Option (Nat × Nat))
  | husk (q : Nat)
  | mrd (sock tag : Nat)
  deriving DecidableEq, Repr

/-- A read of host memory for a slice's work, gathered from requests of at most Max_Read_Request_Size that cross no 4 KiB
boundary (R121): who waits, function, slice and its generation, address, length, the pieces not yet issued (address,
length, offset), the number of pieces that have not ended, the data so far and the first failing status. -/
structure HostJob where
  id : Nat
  for_ : JobFor
  fn : Nat
  slice : Nat
  sgen : Nat
  addr : Nat
  len : Nat
  todo : List (Nat × Nat × Nat) := []
  left : Nat
  data : List Host.Cell := []
  status : Nat := 0
  /-- its end has reached the owner -/
  told : Bool := false
  deriving DecidableEq, Repr

/-- One entry of a controller's address translation cache (R127): function, PASID (none: no PASID), untranslated page
address, size in bytes, translated address, permissions; `used` orders the entries by last use. -/
structure AtcEntry where
  fn : Nat
  pasid : Option Nat
  page : Nat
  size : Nat
  target : Nat
  rd : Bool
  wr : Bool
  used : Nat
  deriving DecidableEq, Repr

/-- An outstanding translation request (R127, R129, R130). -/
structure Xlat where
  id : Nat
  fn : Nat
  pasid : Option Nat
  page : Nat
  write : Bool
  stale : Bool := false
  deriving DecidableEq, Repr

/-- An Invalidation Request being processed (R129): its tag, and the reads it waits for (function, PCIe tag). -/
structure Inval where
  fn : Nat
  itag : Nat
  arrived : Nat
  waits : List (Nat × Nat)
  deriving DecidableEq, Repr

/-- One MSI-X table entry (R133). Reset: masked (PRESUMED, log entry 6). -/
structure MsixEntry where
  addr : Nat := 0
  data : Nat := 0
  masked : Bool := true
  deriving DecidableEq, Repr

/-- What the device sends toward the hosts: an interrupt message, a readiness message of a link (controller, link) or
of a function, an Invalidation Completion, a translation request, and the answers to requests. -/
inductive HostMsg where
  | msi (fn addr data : Nat)
  | deviceReady (hif link : Nat)
  | functionReady (fn : Nat)
  | invalCpl (fn itag : Nat)
  | xlatReq (fn id page : Nat)
  | readReq (fn tag addr len : Nat)
  | cplData (fn : Nat) (data : Nat) (bad : Bool := false)
  | cplUr (fn : Nat)
  | cplRrs (fn : Nat)
  deriving DecidableEq, Repr

/-- The host interface outside its registers. A function is numbered 8 × controller + physical function. -/
structure Hif where
  funcs : List (Nat × Func) := []
  reads : List HostRead := []
  /-- gathered reads (R121) and the number of the next one -/
  jobs : List HostJob := []
  nextJob : Nat := 0
  atc : List AtcEntry := []
  xlats : List Xlat := []
  /-- translations that were refused and whose work has not yet failed: function, PASID, page (R128) -/
  xfail : List (Nat × Option Nat × Nat) := []
  invals : List Inval := []
  msix : List (Nat × MsixEntry) := []
  pba : List Nat := []
  nextId : Nat := 0
  /-- functions whose readiness message is still to be sent, and links (100 + 2 × controller + link) (R153) -/
  owed : List Nat := []
  /-- FT at which a link's training last started, by link number 2 × controller + link (R116) -/
  trainAt : List (Nat × Nat) := []
  deriving DecidableEq, Repr

/-- A slice reset or removal in progress (06_slices.md R174): removal or reset, cause, the generation before it, and
whether step 1 still waits for an orphan tag (R171). -/
structure SliceSeq where
  removal : Bool
  cause : Nat
  oldGen : Nat
  waiting : Bool
  deriving DecidableEq, Repr

/-- Slices outside their registers: the sequences in progress by slice, the slice charged for each HBM page (stored as
slice + 1, 0: free), the pages being cleared, the generation of each tag, the tags whose late arrivals are discarded. -/
structure Slc where
  seqs : List (Nat × Option SliceSeq) := []
  pages : List (Nat × Nat) := []
  clearing : List Nat := []
  tagGen : List (Nat × Nat) := []
  deriving DecidableEq, Repr

/-- A completion ready to be written: status, byte count, the type-specific bytes at 0x12 and at 0x18 (07_rings.md,
table Completion layout). -/
structure Cpl where
  status : Nat
  bytes : Nat := 0
  x12 : List Byte := []
  x18 : List Byte := []
  deriving DecidableEq, Repr

/-- A ring entry that has started and has no completion yet (R190-R203): its count, the tag allocated (none: no tag),
the 64 descriptor bytes, the slice of its work and the generations its tag recorded (R169), the FT64 launch time it
waits for, whether it has been performed, the bytes reported to the completion writer, and its completion once it has
finished. -/
structure Flight where
  count : Nat
  tag : Option Nat
  desc : List Byte
  slice : Nat
  sgen : Nat
  fgen : Option Nat := none
  launch : Nat := 0
  fetched : Nat := 0
  staged : Bool := false
  payload : Bool := false
  performed : Bool := false
  reported : Nat := 0
  /-- judged late and sent all the same (02_fabric_time.md R60) -/
  late : Bool := false
  startAt : Nat := 0
  cpl : Option Cpl := none
  deriving DecidableEq, Repr

/-- What the ring engine keeps beside a ring's context: residency and the FT of its last activity (R182), copies read
at and beyond the tail (count, 64 bytes; R192), re-reads of the entry at head (R194), marked counts (R201), whether a
flush runs (R184), the entries in flight in ring order, the interrupt's arming, the cpl_count of the last interrupt and the FT at which pending left 0 (R207), and for
an event ring its sequence number and its lost records (R205, R206). -/
structure RingEng where
  resident : Bool := true
  loading : Bool := false
  used : Nat := 0
  copies : List (Nat × List Byte) := []
  refetch : Nat := 0
  /-- doorbell values that wait for the context's husk to load (R182) -/
  parked : List Nat := []
  marked : List Nat := []
  flushing : Bool := false
  flight : List Flight := []
  armed : Bool := true
  irqAt : Nat := 0
  pendSince : Option Nat := none
  evSeq : Nat := 0
  lost : Nat := 0
  deriving DecidableEq, Repr

/-- A ring: its context (table Ring context) and what the ring engine keeps beside it. -/
structure Ring where
  base : Nat
  log2 : Nat
  type : Nat
  mem : Bool
  anyOrder : Bool
  irqEn : Bool
  rearm : Bool
  wbEn : Bool
  prefetch : Nat
  slice : Nat
  target : Nat
  vector : Nat
  modCount : Nat
  modUs : Nat
  dbEn : Bool
  dbPage : Nat
  tail : Nat
  head : Nat
  cpl : Nat
  ack : Nat
  wbAddr : Nat
  state : Nat
  lastStatus : Nat
  eng : RingEng
  deriving DecidableEq, Repr

/-- A WAIT in progress (R200): the waiting ring and the entry's count, the watched ring, the target count, and the FT
of its timeout. -/
structure WaitOn where
  ring : Nat
  count : Nat
  watched : Nat
  target : Nat
  deadline : Option Nat
  deriving DecidableEq, Repr

/-- An ABORT on its way to the completion writer (R201): its own ring and count, the target's ring and count. -/
structure AbortOn where
  ring : Nat
  count : Nat
  tRing : Nat
  tCount : Nat
  deriving DecidableEq, Repr

/-- A SEND whose frame's copies are not all finished (R561): ring and count, its own number, copies outstanding, whether one was sent
or delivered, the earliest egress stamp of a network port, and the frame's length. -/
structure SendOn where
  ring : Nat
  count : Nat
  id : Nat := 0
  copies : Nat
  sent : Bool := false
  stamp : Nat := 0
  len : Nat
  deriving DecidableEq, Repr

/-- The rings outside the RNG_ registers. -/
structure Rng where
  rings : List (Nat × Option Ring) := []
  waits : List WaitOn := []
  aborts : List AbortOn := []
  sends : List SendOn := []
  nextSend : Nat := 0
  /-- tags of aborted entries that the owning block has not released yet: tag, ring, count, slice (R203) -/
  late : List (Nat × Nat × Nat × Nat) := []
  deriving DecidableEq, Repr

/-- Outside the PRT_ registers (08_network_ports.md), by lane 0-63 (the lane's number is the port's number where the
lane starts a port): signal and short circuits at the lane's pins, the FT at which the current wait of the port began,
the FT until which received PAUSE or PFC stops each class, the FT at which PFC began to hold the class without
interruption, the classes whose watchdog has tripped, the classes whose PFC is ignored, the classes for which the RDMA
husk wait buffer asks for XOFF (13_rdma.md), and the FT of the last PFC frame sent. -/
structure Lane where
  signal : Bool := false
  waitAt : Nat := 0
  stopEnd : List (Nat × Nat) := []
  pfcSince : List (Nat × Nat) := []
  pfcTripped : List Nat := []
  pfcIgnore : List Nat := []
  hwbXoff : Nat := 0
  pfcAt : Nat := 0
  /-- a frame is being received whose tail has not arrived; true: it is already cut as oversize (R218) -/
  rxOpen : Option Bool := none
  deriving DecidableEq, Repr

/-- What a network port or a link has put on the wire: a frame with its FCS right or stomped, a PFC frame (classes
named, classes among them that are stopped, quanta), a flit. -/
inductive Wire where
  | frame (port : Nat) (data : List Byte) (stomped : Bool) (at_ : Nat)
  | pfc (port classes stopped quanta at_ : Nat)
  /-- a flit on a Wilotte link 0-7 or a pair sublink 8, 9 -/
  | flit (link : Nat) (data : List Byte) (at_ : Nat)
  deriving DecidableEq, Repr


/-- A frame on its way to a pipeline (01_architecture.md R24; 09_parsing.md R232): its bytes without FCS, the source
code of the metadata bus, its ingress time, whether it is bad and whether its tail has arrived, the slice, class,
timestamp mode, user field and recirculation count that come with it, and for a SEND the ring and count whose
completion waits for it (07_rings.md R561), for a flow-core frame with ts_req the number of the timestamp owed
(17_flow_cores.md R459). -/
structure Frame where
  data : List Byte
  src : Nat
  stamp : Nat := 0
  /-- ingress FT, in units -/
  at_ : Nat := 0
  bad : Bool := false
  whole : Bool := true
  /-- the frame holds poisoned data (04_memories_ecc.md R101) -/
  poison : Bool := false
  slice : Nat := 0
  cls : Option Nat := none
  ts : Nat := 0
  user : Nat := 0
  recirc : Nat := 0
  send : Option (Nat × Nat) := none
  tsTo : Option Nat := none
  /-- receive queue of a frame that by-passes classification (16_tenant_sockets.md R433) -/
  bypass : Option Nat := none
  deriving DecidableEq, Repr

/-- A classified packet: the frame after the action stage and the fields of its packet descriptor (R254). `pipe` is the
pipeline instance that classified it, `lane` the logical pipeline for which it was admitted, `sent` the cells of it
that the crossbar has moved. -/
structure Pkt where
  frame : Frame
  pipe : Nat
  lane : Nat
  dest : Nat
  mirror : Option Nat := none
  policer : Option Nat := none
  cls : Nat := 0
  ts : Nat := 0
  flags : Nat := 0
  reason : Nat := 0
  hash : Nat := 0
  ver : Nat := 0
  slice : Nat := 0
  user : Nat := 0
  sent : Nat := 0
  /-- bytes that its policer was charged for while its length was unknown (12_traffic_management.md R311); 0: none -/
  polAssumed : Nat := 0
  /-- buckets that the charge was taken from: 1 the C bucket, 2 the E or P bucket, 3 both -/
  polTook : Nat := 0
  /-- ID of the stored frame once its first cell is written; 0 before (11_switch_core.md R291) -/
  sid : Nat := 0
  deriving DecidableEq, Repr

/-- A TCAM entry (10_forwarding_tables.md, table TCAM entry states). Versions count all commits since reset; the
registers show them modulo 16. `state`: 0 EMPTY, 1 LIVE, 2 DELETED, 3 DISABLED; `prev` is the state to which a disabled
entry returns. -/
structure TEnt where
  value : Nat := 0
  mask : Nat := 0
  act : Nat := 0
  add : Nat := 0
  del : Nat := 0
  state : Nat := 0
  prev : Nat := 0
  deriving DecidableEq, Repr

/-- An exact-match entry (table Exact-match entry). -/
structure EmEnt where
  key : Nat
  act : Nat
  learned : Bool := false
  add : Nat := 0
  del : Option Nat := none
  sprout : Bool := false
  hit : Bool := false
  pinned : Bool := false
  age : Nat := 0
  deriving DecidableEq, Repr

/-- A learn request (R275): key, action index, port code, and the raiser's act_base. -/
structure Learn where
  key : Nat
  act : Nat
  port : Nat
  base : Nat
  deriving DecidableEq, Repr

/-- An entry of the flap tracker (R279): the table's stage, the key, the FT of the last applied move, the flap count and
the FT of the first flap of the window. -/
structure Track where
  stage : Nat
  key : Nat
  last : Nat
  count : Nat := 0
  win : Nat := 0
  deriving DecidableEq, Repr

/-- A pipeline outside its registers: the active version counted since reset, the older live versions with the RWS
values they run under (oldest first), the version count at which the registers were staged, frames that wait for
admission from the port group and socket and from the injection sources, the injection source served last (R231),
learn requests by table, the flap tracker, the visits of the ager by table (next index, FT of the pass), and packets
that wait at the crossbar. -/
structure PipeSt where
  ver : Nat := 0
  old : List (Nat × List (Nat × Nat)) := []
  netq : List Frame := []
  injq : List Frame := []
  injLast : Nat := 0
  fifo : List (Nat × List Learn) := []
  track : List Track := []
  ager : List (Nat × Nat × Nat) := []
  xin : List Pkt := []
  deriving DecidableEq, Repr

/-- The pipelines' tables: TCAM entries by pipeline × 65536 + index, exact-match entries by pipeline × 262144 + index,
action entries (32 bytes as a little-endian number) by pipeline × 65536 + index, and the pipelines themselves. -/
structure Tbl where
  tcam : List (Nat × TEnt) := []
  em : List (Nat × Option EmEnt) := []
  acts : List (Nat × Nat) := []
  pipes : List (Nat × PipeSt) := []
  /-- position of the TCAM sweeper: pipeline × 65536 + index (04_memories_ecc.md R111) -/
  sweep : Nat := 0
  deriving DecidableEq, Repr


/-- A frame in the packet buffer (11_switch_core.md R287, R291): an ID, the packet, its cells in all, the bank of each
cell written, the account charged and the cells charged to it, the copies and mirror copies that have not been read,
and the output queues that hold it. -/
structure Stored where
  id : Nat
  pkt : Pkt
  cells : Nat
  banks : List Nat
  acct : Nat
  charged : Nat := 0
  copies : Nat
  mirrors : Nat := 0
  qs : List Nat := []
  /-- all its cells have been written -/
  full : Bool := false
  deriving DecidableEq, Repr

/-- A place in an output queue: the stored frame, the FT of enqueue and whether the copy is a mirror copy. -/
structure QEnt where
  id : Nat
  at_ : Nat
  mirror : Bool := false
  deriving DecidableEq, Repr

/-- The switch core outside its registers: frames stored, output queues by index, cells used in each bank, the cells
each account holds in the shared region and in headroom, the FT second of each account's last overflow event, the
crossbar's two pointers, the RDMA engine's round-robin class, and the next frame ID. -/
structure Swc where
  stored : List Stored := []
  queues : List (Nat × List QEnt) := []
  bankUsed : List (Nat × Nat) := []
  inShared : List (Nat × Nat) := []
  inHdrm : List (Nat × Nat) := []
  overflowSec : List (Nat × Nat) := []
  p : Nat := 0
  q : Nat := 0
  rdmClass : Nat := 0
  nextId : Nat := 1
  /-- the table copy that mirrors writes to pipeline n and the sleeve has begun (R304) -/
  mirroring : Bool := false
  /-- the TAKE in progress clones (R303) -/
  clone : Bool := false
  /-- a destructive test has ended the mirroring to pipeline n (R304) -/
  mirrorLost : Bool := false
  deriving DecidableEq, Repr


/-- Weighted scheduling of one destination (12_traffic_management.md R313): pointer, classes being visited, deficits. -/
structure Dwrr where
  ptr : Nat := 0
  visiting : Nat := 0
  deficit : List (Nat × Nat) := []
  deriving DecidableEq, Repr

/-- Token bucket of a slice shaper, in FT-exact units of 1/(8*10^6) byte·ns (R315-R317): `none` stands for a bucket that is
full (the level equals `burst`). -/
structure Bucket where
  level : Int
  at_ : Nat
  deriving DecidableEq, Repr

/-- A policer (R318-R323): the record bytes 0x00-0x13, the slice charged when allocated, both bucket levels in the
units of `Bucket`, the FT of the last fill, and the colour counters. -/
structure Policer where
  rcd : List Byte := leBytes 16 0 ++ [3, 0, 0, 0]
  slice : Option Nat := none
  tc : Int := 0
  te : Int := 0
  at_ : Nat := 0
  green : Nat := 0
  yellow : Nat := 0
  red : Nat := 0
  deriving DecidableEq, Repr

/-- The gate engine of a port (R324-R328): the list in force (base FT, idle gates, entries as gates and interval), the
adopted list that waits for its first cycle start, and the FT at which its entry began. -/
structure GateList where
  base : Nat
  idle : Nat
  ents : List (Nat × Nat)
  deriving DecidableEq, Repr

structure GateEng where
  cur : Option GateList := none
  next : Option GateList := none
  start : Nat := 0
  overrunSec : Option Nat := none
  deriving DecidableEq, Repr

/-- A frame handed to a destination and not yet finished by it: the port, socket or pair link (as TM destination), the
stored frame's packet, FT of selection, and its class. -/
structure OutFrame where
  d : Nat
  pkt : Pkt
  at_ : Nat
  cls : Nat
  id : Nat
  mirror : Bool
  /-- handed over before its tail was in the buffer (08_network_ports.md R225) -/
  cut : Bool := false
  /-- counted as a gate overrun (R329) -/
  overran : Bool := false
  deriving DecidableEq, Repr

/-- A shaper charge made with an assumed length (R311): stored frame, slice, wire bytes charged. -/
structure Assumed where
  id : Nat
  shaper : Nat
  bytes : Nat
  deriving DecidableEq, Repr

/-- The traffic manager outside its registers. -/
structure TmSt where
  dwrr : List (Nat × Dwrr) := []
  shapers : List (Nat × Option Bucket) := []
  policers : List (Nat × Policer) := []
  gates : List (Nat × GateEng) := []
  out : List OutFrame := []
  assumed : List Assumed := []
  sampleAt : Nat := 0
  deriving DecidableEq, Repr



/-- What waits for a region's revoke (13_rdma.md R355): nothing but the region's end (a slice reset), the MR_REVOKE of a
ring and count, a command of a volume (its slot). -/
inductive RevFor where
  | alone
  | ring (r c : Nat)
  | stq (v slot : Nat)
  deriving DecidableEq, Repr

/-- A memory region by its index (R339, R355). `state`: 0 FREE, 1 VALID, 2 CLOSING; `variant` is the stored variant; `via`
is the slice through whose binding, pages or socket the target is reached (the region's own, but for a command key of a
volume, 14_storage_queues.md R369); `wrote` says that a write went through the region. -/
structure Mr where
  state : Nat := 0
  variant : Nat := 0
  va : Nat := 0
  length : Nat := 0
  target : Nat := 0
  pd : Nat := 0
  kind : Nat := 0
  access : Nat := 0
  slice : Nat := 0
  via : Nat := 0
  wrote : Bool := false
  waiter : RevFor := .alone
  deriving DecidableEq, Repr

/-- An entry of a QP's send queue (R336): ring and count of its descriptor (none: a command capsule of the storage
engine), the descriptor or capsule, its first PSN once it has been started, the PSNs it takes, the bytes of READ
response received, the result of an atomic and whether the response is complete, and the end of its retransmission. -/
structure Wqe where
  own : Option (Nat × Nat)
  desc : List Byte
  psn : Option Nat := none
  psns : Nat := 1
  got : Nat := 0
  value : Nat := 0
  answered : Bool := false
  deriving DecidableEq, Repr

/-- A message that a responder is receiving (R349): a write or a send, the RECV consumed, bytes written so far, and for a
write its length, address and key. -/
structure RxMsg where
  write : Bool
  recv : Option (Nat × Nat) := none
  got : Nat := 0
  total : Nat := 0
  va : Nat := 0
  rkey : Nat := 0
  deriving DecidableEq, Repr

/-- A queue pair (R341-R360). Attributes as in the QP attribute record; requester: send queue, next PSN to assign, next
PSN to transmit, one after the highest PSN transmitted, oldest unacknowledged PSN, start of the retransmit timer,
retransmissions and RNR retries since the last progress, end of an RNR wait, FT before which no packet starts; rates of
R358 (Rc, Rt, alpha, n, FT of the last reaction, FT of the last step); responder: expected PSN, messages completed, the
value of e for which a NAK sequence error was sent, the message being received, results of the last reads and atomics
(PSN, PSNs, value of an atomic); FT of the last CNP sent; residency: resident, a fetch running, FT of the last use, parked
packets; the command of a volume that a storage command waits for is in the storage engine. -/
structure Qp where
  slice : Nat
  state : Nat := 0
  transport : Nat
  flags : Nat := 0
  pd : Nat
  destQpn : Nat := 0
  sqPsn : Nat := 0
  rqPsn : Nat := 0
  qkey : Nat := 0
  sqRing : Nat
  rqRing : Nat
  timeout : Nat := 0
  retry : Nat := 0
  minRnr : Nat := 0
  maxRd : Nat := 0
  pipeCls : Nat
  path : List Byte := List.replicate 48 0
  sq : List Wqe := []
  next : Nat := 0
  tx : Nat := 0
  top : Nat := 0
  una : Nat := 0
  rtAt : Option Nat := none
  retries : Nat := 0
  rnrs : Nat := 0
  rnrEnd : Option Nat := none
  pace : Nat := 0
  rc : Rat := 0
  rt : Rat := 0
  alpha : Rat := 1
  steps : Nat := 0
  reactAt : Option Nat := none
  incAt : Nat := 0
  epsn : Nat := 0
  msn : Nat := 0
  nakFor : Option Nat := none
  msg : Option RxMsg := none
  cache : List (Nat × Nat × Option Nat) := []
  cnpAt : Option Nat := none
  syndrome : Nat := 0
  lastStatus : Nat := 0
  resident : Bool := true
  fetching : Bool := false
  used : Nat := 0
  parked : List Pkt := []
  deriving DecidableEq, Repr

/-- The RDMA engine outside its registers: regions by index, QPs by number, QPs that wait for a resident entry to be
fetched into, ports that hold PFC of a class for the husk wait buffer (8 × port + class), the FT second of the last
drop event of the buffer. -/
structure Rdm where
  mrs : List (Nat × Mr) := []
  qps : List (Nat × Option Qp) := []
  wants : List Nat := []
  fullSec : Option Nat := none
  deriving DecidableEq, Repr



/-- A command of a volume that has been issued to its backend (14_storage_queues.md R372): slot, ring and count, FT of
issue, the region of its command key, its bytes transferred (a socket's aperture), whether it has ended and waits for
its key's revoke, and the completion it then gets. -/
structure StqCmd where
  slot : Nat
  ring : Nat
  count : Nat
  issued : Nat
  key : Option Nat := none
  ended : Option Cpl := none
  deriving DecidableEq, Repr

/-- An answer of a backend on its way to the storage engine: from a QP or flow-core ring or socket, for a volume; the
slot it names, its status and dword 0; `wellFormed` is false for a malformed capsule. -/
structure StqRsp where
  vol : Nat
  slot : Nat
  status : Nat
  dw0 : Nat := 0
  wellFormed : Bool := true
  deriving DecidableEq, Repr

/-- A volume (R362-R383): its record, the slots whose commands are outstanding, FT since when it has been idle, the FT at
which a WAKE notice was sent that is not acknowledged, the number of SLEEP and WAKE notices sent whose acknowledgement is
due (flow core: counts on the ring; socket: message ids), error log records written, slots whose commands have ended without the
backend's answer. State, cause, pstate and counts
stand in STQ_VOL_STATE. -/
structure Vol where
  rcd : List Byte
  cmds : List StqCmd := []
  idleAt : Nat := 0
  wakeAt : Option Nat := none
  wakeNote : Option Nat := none
  wakeAcked : Bool := false
  wakeFor : Option (Nat × Nat) := none
  elog : Nat := 0
  late : List Nat := []
  deriving DecidableEq, Repr

/-- The storage engine outside its registers: volumes, answers of backends that have arrived, work that it has posted to
flow-core rings (ring, count, volume, slot; slot 0xFFFF: a power notice), the running RESTART (volume, flush), and the counts
up to which queues' commands complete `stq_flushed` (ring, count). -/
structure Stq where
  vols : List (Nat × Option Vol) := []
  rsps : List StqRsp := []
  posted : List (Nat × Nat × Nat × Nat) := []
  restart : Option (Nat × Bool) := none
  flushTo : List (Nat × Nat) := []
  deriving DecidableEq, Repr



/-- A transaction on a link (15_wilotte_link.md R395; 16_tenant_sockets.md R406): its channel, its bytes (a header unit
and data units of 16 bytes), whether it is bad, the units that have been sent, the window epoch it was admitted under
(R412), and for a packet the TM destination whose frame it carries. -/
structure Txn where
  vc : Nat
  data : List Byte
  bad : Bool := false
  sent : Nat := 0
  epoch : Nat := 0
  frame : Option Nat := none
  /-- id of an FT_SYNC (16_tenant_sockets.md R421) -/
  sync : Option Nat := none
  /-- ring and count of a COPY_IN whose last write this is -/
  done : Option (Nat × Nat) := none
  /-- FT at which its last unit was received (16_tenant_sockets.md R422) -/
  at_ : Nat := 0
  deriving DecidableEq, Repr

/-- A DATA flit kept for replay (R391): its number, channel, units, bad mark, payload, whether it was ever resent and
the FT at which it was last sent. -/
structure SentFlit where
  seq : Nat
  vc : Nat
  units : Nat
  bad : Bool
  payload : List Byte
  resent : Bool := false
  /-- id of an FT_SYNC that ends in it -/
  sync : Option Nat := none
  at_ : Nat
  deriving DecidableEq, Repr

/-- A link layer: Wilotte links 0-7, pair sublinks A and B as 8 and 9 (22_redundant_pair.md R532). The state (table Link
states) and the FT since when, transmitter: next number, last ack, flits held for replay, the number from which a replay
is being resent, replays without progress; receiver: expected number, whether it has sent a NAK for it, a NAK that is
due; credits by channel: consumed, the partner's count,
the returned count, those in use by what the receive buffer holds, and returns of channel 0 that are withheld; training: TRAIN flits
sent with seen set and received in a row with seen set, a valid one received, a refusal event written in this CONFIG;
transactions to send and partly received ones by channel, received ones in the order of their first units, with the
order number of each. -/
structure Link where
  state : Nat := 0
  since : Nat := 0
  cause : Nat := 0
  txNext : Nat := 0
  acked : Nat := 0xFFF
  held : List SentFlit := []
  replay : Option Nat := none
  replays : Nat := 0
  expect : Nat := 0
  nakSent : Bool := false
  nakDue : Bool := false
  crVc : Nat := 0
  consumed : List (Nat × Nat) := []
  partner : List (Nat × Nat) := []
  returned : List (Nat × Nat) := []
  rxUsed : List (Nat × Nat) := []
  withheld : Nat := 0
  offer : List (Nat × Nat) := []
  seen : Bool := false
  seenSent : Nat := 0
  seenRx : Nat := 0
  refusedEv : Bool := false
  txq : List Txn := []
  part : List (Nat × Txn) := []
  rxq : List (Nat × Txn) := []
  rxNext : Nat := 0
  /-- FT of the uncorrectable codewords of the last millisecond (R402) -/
  fecBad : List Nat := []
  deriving DecidableEq, Repr


/-- Who waits for a read toward a module (16_tenant_sockets.md R416): a read gathered from several MRDs by its number, or
a piece of a COPY_OUT (ring, count), or nobody any more: its tag is an orphan of a slice and of that slice's generation
(06_slices.md R170). -/
inductive RdFor where
  | job (id : Nat)
  | copy (ring count : Nat)
  | orphan (tag slice gen : Nat)
  deriving DecidableEq, Repr

/-- A read toward a module that is outstanding (R412, R416): tag, bytes, their offset in the whole read, window epoch, FT
of issue, requester. -/
structure SockRd where
  tag : Nat
  len : Nat
  off : Nat
  epoch : Nat
  issued : Nat
  for_ : RdFor
  deriving DecidableEq, Repr

/-- A read of a function (BAR4) or of the RDMA engine for a QP or a region (`owner`) that is gathered from MRDs of at most
256 bytes (R407): module address, length, bytes and pieces still missing, the data so far, the first failing status,
and whether it holds poisoned data. -/
structure SockJob where
  id : Nat
  fn : Option Nat
  owner : Nat := 0
  /-- the ring entry that a read of the RDMA engine is for -/
  work : Option (Nat × Nat) := none
  addr : Nat
  len : Nat
  left : Nat
  data : List Host.Cell := []
  status : Nat := 0
  bad : Bool := false
  /-- pieces that wait for a free tag: address, length -/
  todo : List (Nat × Nat) := []
  deriving DecidableEq, Repr

/-- A COPY_OUT in progress (R418): ring and count, memory and module address, length, bytes asked for and written, and
the first failing status. -/
structure CopyOut where
  ring : Nat
  count : Nat
  slice : Nat
  mem : Nat
  sock : Nat
  len : Nat
  asked : Nat := 0
  got : Nat := 0
  status : Nat := 0
  deriving DecidableEq, Repr

/-- A tenant socket outside its registers: FT of entry into the power state and whether PWR_EN's FAULT or OFF path is
pending, device reads outstanding, reads gathered from them and the next such number, tags of module reads whose CPL is owed, COPY_OUTs, meter levels by meter (in 1/10^6
units; none: full), the ids of FT_SYNC and of messages, the acknowledged FT_SYNC whose FT_FOLLOW is due (id, FT sent,
resent), a step since the last FT_FOLLOW, FT of the last FT_SYNC and of the last FT_DREQ, messages that wait for an ACK
(id, code), the acknowledgement of QUIESCE, the FT second of the last no-window event by side, MOD_PG, and the FT of
removal of a module that has not been powered since. -/
structure Sock where
  since : Nat := 0
  rds : List SockRd := []
  jobs : List SockJob := []
  nextJob : Nat := 0
  modRd : List Nat := []
  copies : List CopyOut := []
  meters : List (Nat × Option Bucket) := []
  syncId : Nat := 0
  syncDue : Option (Nat × Nat × Bool) := none
  stepped : Bool := false
  syncAt : Nat := 0
  dreqAt : Option Nat := none
  msgId : Nat := 0
  acks : List (Nat × Nat) := []
  quiesced : Bool := false
  winSec : List (Nat × Nat) := []
  modPg : Bool := false
  gone : Bool := false
  deriving DecidableEq, Repr


/-- What a blocked thread waits for (17_flow_cores.md, table Thread states): wait_kind and wait_obj, and the instruction
that waits with its length; it is performed when the wait is satisfied. -/
structure Blocked where
  kind : Nat
  obj : Nat
  word : Nat
  len : Nat
  deriving DecidableEq, Repr

/-- A thread of a flow core (R435-R468): state (0 DISABLED, 1 RUNNING, 2 BLOCKED, 3 HALTED), privilege mode, PC, x and f
registers that are not 0, CSRs that differ from their reset value by number, outbox, inbox and the number of its words,
the wait, the LR reservation (physical address, bytes, value read), instructions retired, the clock at which it is ready again,
and a step that has not completed (R466). -/
structure Hart where
  state : Nat := 0
  priv : Nat := 3
  pc : Nat := 0
  x : List (Nat × Nat) := []
  f : List (Nat × Nat) := []
  csr : List (Nat × Nat) := []
  out : List Nat := []
  inbox : List Nat := []
  wait : Option Blocked := none
  resv : Option (Nat × Nat × Nat) := none
  instret : Nat := 0
  readyAt : Nat := 0
  /-- the clock until which an access outside its own slice is outstanding (R442) -/
  memUntil : Nat := 0
  stepping : Bool := false
  /-- the breakpoint that halted it before an instruction: resume and step pass over it once -/
  passBrk : Bool := false
  deriving DecidableEq, Repr

/-- A message in a channel: its words and its sender, 0x7FF for the device (R452). -/
structure Msg where
  words : List Nat
  sender : Nat
  deriving DecidableEq, Repr

/-- A receive packet port (R457): entries filled, returned and released since it was configured. -/
structure RxPort where
  filled : Nat := 0
  returned : Nat := 0
  released : Nat := 0
  deriving DecidableEq, Repr

/-- A flow core: local memory, flow-core clocks, the fill thread chosen last, messages by channel, receive ports. -/
structure CoreSt where
  lm : List Host.Cell := []
  clk : Nat := 0
  lastFill : Nat := 15
  chans : List (Nat × List Msg) := []
  rxp : List (Nat × RxPort) := []
  deriving DecidableEq, Repr

/-- An armed alarm (R455): global thread, local channel of its core, requested FT64. -/
structure FcAlarm where
  hart : Nat
  ch : Nat
  time : Nat
  deriving DecidableEq, Repr

/-- A transmit timestamp still owed (R459): its number, core, channel and cookie, copies of the frame, the egress stamp. -/
structure TsOwed where
  id : Nat
  core : Nat
  ch : Nat
  cookie : Nat
  copies : Nat := 1
  stamp : Option Nat := none
  deriving DecidableEq, Repr

/-- The flow cores outside their registers: threads by global number, cores, alarms in the order in which they were armed,
timestamps owed, domains found deadlocked whose condition has not ended (R465). -/
structure Fc where
  harts : List (Nat × Hart) := []
  cores : List (Nat × CoreSt) := []
  alarms : List FcAlarm := []
  owed : List TsOwed := []
  nextTs : Nat := 0
  dlOn : List Nat := []
  deriving DecidableEq, Repr



/-- A key slot (18_cipher_vault.md, table Key slot states): 0 FREE, 1 EMPTY, 2 IMPORTING, 3 LOADED, 4 FAULTY; size 1:
128-bit, 2: 256-bit; usage bits; slice charged; key bytes. -/
structure KeySlot where
  state : Nat := 0
  size : Nat := 0
  usage : Nat := 0
  slice : Nat := 0
  key : List Byte := []
  deriving DecidableEq, Repr

/-- What an engine does for a thread: blocks or one part of a CMAC; the operand values of the instruction, its slot, whether
it asks for the thread's locked engine, the key as loaded, and whether the slot has been zeroised meanwhile. -/
structure VaultOp where
  hart : Nat
  cmac : Bool
  a : Nat
  b : Nat
  slot : Nat
  locked : Bool
  key : List Byte := []
  gone : Bool := false
  deriving DecidableEq, Repr

/-- An engine: the slot it holds (0xFFFF: none), the thread whose lock it carries and the FT of the lock's last
operation, the run, retries in the current FT second. -/
structure VaultEng where
  slot : Nat := 0xFFFF
  holder : Option Nat := none
  lockAt : Nat := 0
  run : Option VaultOp := none
  /-- the lock has ended during the run: the engine becomes free with its end -/
  endLock : Bool := false
  retrySec : Nat := 0
  retries : Nat := 0
  deriving DecidableEq, Repr

/-- A request that waits for an engine (R483): an operation, or a lock with its preload slot. -/
structure VaultReq where
  hart : Nat
  op : Option VaultOp
  preload : Nat := 0xFFFF
  deriving DecidableEq, Repr

/-- Who waits for an import: a ring entry, or a thread (R477). -/
inductive ImportFor where
  | ring (r c : Nat)
  | hart (h : Nat)
  deriving DecidableEq, Repr

/-- A zeroisation that waits for the end of an import of its slot (R474): who waits, whether the slot is then freed. -/
structure ZeroOn where
  slot : Nat
  free : Bool
  for_ : Option ImportFor
  deriving DecidableEq, Repr

/-- An import on its way (R477): target and key-encryption key slots, the blob, who waits. -/
structure ImportOn where
  slot : Nat
  kek : Nat
  blob : List Byte
  for_ : ImportFor
  deriving DecidableEq, Repr

/-- The cipher vault and its key store outside the registers: slots, engines, requests in the order of their arrival, imports
in the order of their arrival, zeroisations that wait, the engine given last, and threads whose lock has ended without their knowing. -/
structure Vlt where
  slots : List (Nat × KeySlot) := []
  engs : List (Nat × VaultEng) := []
  reqs : List VaultReq := []
  imports : List ImportOn := []
  zeros : List ZeroOn := []
  last : Nat := 63
  lost : List Nat := []
  deriving DecidableEq, Repr



/-- A dump record being written (19_counters_telemetry.md R498-R500): number, FT64 of capture, period, sets, the two flags, dumps
lost before it, and its values. -/
structure DumpRec where
  seq : Nat
  stamp : Nat
  period : Nat
  sets : Nat
  flags : Nat
  lost : Nat
  values : List Nat
  deriving DecidableEq, Repr

/-- The counters' block outside its registers: counters whose event had a non-zero value in the last clock (edge mode),
the record being written, the number of the next record, dumps lost since the last one, an FT step or set since it, and the
FT of the next periodic dump. -/
structure Pmc where
  hot : List Nat := []
  dump : Option DumpRec := none
  seq : Nat := 0
  lost : Nat := 0
  stepped : Bool := false
  dumpAt : Option Nat := none
  deriving DecidableEq, Repr


/-- A health command that runs on a unit (20_health_test.md R509-R516): unit, operation (1 TEST, 2 FENCE, 3 RETURN),
`force`, and the FT at which it was accepted. The phase stands in HLT_UNIT.state; `wasFenced` says that the unit was
FENCED when the command came. -/
structure HltCmd where
  kind : Nat
  index : Nat
  op : Nat
  force : Bool := false
  since : Nat := 0
  wasFenced : Bool := false
  deriving DecidableEq, Repr

/-- The health block outside its registers: the commands that run, the FT of entry into brace, pipelines tested whose
tables are empty since (R510), and the die sensors in fault that have no reading. -/
structure Hlt where
  cmds : List HltCmd := []
  braceAt : Nat := 0
  emptied : List Nat := []
  deriving DecidableEq, Repr

/-- Why the island holds the main domain in reset, and since when by its own clock (21_management.md R521;
20_health_test.md R508). `again` records a request that came while a thermal trip holds the domain. -/
structure Hold where
  cause : Nat
  since : Nat
  again : Bool := false
  deriving DecidableEq, Repr

/-- What the device has sent toward the management controller (21_management.md): the answer to an MCTP control command
(command, completion code, data), the answer to a PLDM command (type, command, code, data), a PLDM message of the device
(type, command, data), the answer to a vendor message (command, instance, status, data), FROM_HOST, the answer to an NC-SI
command (command, channel, response code, reason, data), an NC-SI notification (channel, type) and a pass-through frame. -/
inductive BmcMsg where
  | control (cmd code : Nat) (data : List Byte)
  | pldm (type cmd code : Nat) (data : List Byte)
  | pldmRequest (type cmd : Nat) (data : List Byte)
  | vendor (cmd instance_ status : Nat) (data : List Byte)
  | fromHost (data : List Byte)
  | ncsi (cmd channel response reason : Nat) (data : List Byte)
  | aen (channel type : Nat)
  | frame (channel : Nat) (data : List Byte)
  deriving DecidableEq, Repr

/-- An MCTP message being assembled (R522): source, tag, bytes so far, the packet sequence number expected. -/
structure McAsm where
  src : Nat
  tag : Nat
  data : List Byte
  seq : Nat
  deriving DecidableEq, Repr

/-- A PLDM firmware update session (R524): whether the component table has been passed, the offset of the next piece, the
body's length once its header has been taken, the pieces that wait to form a chunk, whether the image has been verified,
and the FT of the island at the last data. -/
structure UpdSess where
  table : Bool := false
  running : Bool := false
  offset : Nat := 0
  body : Nat := 0
  chunk : List Byte := []
  done : Bool := false
  deriving DecidableEq, Repr

/-- An NC-SI channel (R528): whether its initial state has been cleared, enabled, network TX, AEN mask, unicast filters
(0: off), broadcast and multicast filters, VLAN filters (0: off) and mode, frames waiting for the controller and for the
port, and its statistics: commands, frames to the controller, frames from it, frames dropped. -/
structure NcsiCh where
  ready : Bool := false
  en : Bool := false
  tx : Bool := false
  aen : Nat := 0
  macs : List (Nat × Nat) := []
  bcast : Bool := false
  mcast : Bool := false
  vlans : List (Nat × Nat) := []
  vlanMode : Nat := 0
  rxq : List (List Byte) := []
  txq : List (List Byte) := []
  cmds : Nat := 0
  toBmc : Nat := 0
  toWire : Nat := 0
  dropped : Nat := 0
  deriving DecidableEq, Repr

/-- The always-on island's own state outside its registers (03_boot_images.md R70; 21_management.md). -/
structure Island where
  /-- the island's rail is up and AON_RST# is high (23_electrical_package.md R550) -/
  up : Bool := true
  /-- level of MAIN_PG as the island has taken it (R551) -/
  mainPg : Bool := false
  /-- lane straps of the two PCIe controllers as sampled at main power-good, bit h: controller h (R554) -/
  straps : Nat := 0
  /-- the island's own clock, in FT units (R527) -/
  ft : Nat := 0
  /-- main-domain reset held by the island -/
  hold : Option Hold := none
  /-- the always-on log, oldest first, with the sequence number of each record (R526) -/
  log : List (Nat × EventRec) := []
  /-- MCTP messages being assembled -/
  asm : List McAsm := []
  /-- I3C dynamic address (0: none) -/
  dyn : Nat := 0
  /-- the agent has enabled PLDM events, with its buffer size -/
  evBuf : Option Nat := none
  /-- last reported value of each sensor, by sensor ID -/
  sensed : List (Nat × Nat) := []
  upd : Option UpdSess := none
  /-- the NC-SI package is selected -/
  selected : Bool := false
  chans : List (Nat × NcsiCh) := []
  /-- what the device has sent toward the management controller, oldest first: the model's own record -/
  toBmc : List BmcMsg := []
  deriving DecidableEq, Repr


/-- The redundant pair outside its registers (22_redundant_pair.md): heartbeats received in a row while joining and the
sequence number of the last one, its FT, the partner's priority and whether it was primary, the FT at which heartbeats were
last sent and the next number, the number of the next mirror write, and whether this member joins after it has lost its
partner. -/
structure Pair where
  row : Nat := 0
  lastSeq : Option Nat := none
  lastHb : Nat := 0
  prio : Nat := 0
  partnerPrimary : Bool := false
  sentAt : Nat := 0
  hbSeq : Nat := 0
  mirSeq : Nat := 0
  wasLost : Bool := false
  deriving DecidableEq, Repr

/-- What one block's event brings about in another in the same core clock: a slice's reset with its cause, the loss of a
Wilotte link or pair sublink with its cause. The command that causes it carries it out
before it ends. -/
inductive Due where
  | reset (slice cause : Nat)
  | linkLost (link cause : Nat)
  | wake (qp : Nat)
  deriving DecidableEq, Repr

/-- The state of the block. -/
structure State where
  /-- current (for RWS: staged) value of every register field that differs from its reset value, by bit place -/
  regs : List (Nat × Nat) := []
  /-- active value of every RWS field that differs from its reset value (00_scope.md R9) -/
  act : List (Nat × Nat) := []
  bus : Bus := {}
  /-- event records on their way to event rings, oldest first (07_rings.md R205) -/
  evq : List EventRec := []
  /-- event records on their way to the always-on log, oldest first (21_management.md R526) -/
  logq : List EventRec := []
  time : Time := {}
  sec : Sec
  otp : Otp := {}
  mem : MemSt := {}
  hif : Hif := {}
  /-- what the device has written to host memory, by 2^64 × controller + address: a record outside the device (log entry 4) -/
  hostMem : List Host.Cell := []
  /-- host memory bytes that were written as poisoned data (05_host_interface.md R139) -/
  hostBad : List (Nat × Bool) := []
  /-- what the device has sent toward the hosts, oldest first: the model's own record -/
  toHost : List HostMsg := []
  slc : Slc := {}
  rng : Rng := {}
  /-- the 64 network lanes -/
  prt : List (Nat × Lane) := []
  /-- what the ports have sent, oldest first: the model's own record -/
  wire : List Wire := []
  tbl : Tbl := {}
  swc : Swc := {}
  /-- Wilotte links 0-7 and pair sublinks 8 and 9 -/
  links : List (Nat × Link) := []
  socks : List (Nat × Sock) := []
  rdm : Rdm := {}
  stq : Stq := {}
  pair : Pair := {}
  /-- empty between commands -/
  due : List Due := []
  tm : TmSt := {}
  /-- the flow cores' shared L2, by offset (17_flow_cores.md R438) -/
  l2 : List Host.Cell := []
  fc : Fc := {}
  vlt : Vlt := {}
  pmc : Pmc := {}
  hlt : Hlt := {}
  isl : Island := {}
  /-- the model's own counter of free values drawn so far -/
  free : Nat := 0
  /-- the commands that wait, first in first out -/
  pending : List Instr := []
  deriving DecidableEq, Repr

/-- The header of the image that the factory slot holds (03_boot_images.md R73; DESIGN CHOICE, log entry 3): one
segment of 16 bytes at body offset 0 and shared-L2 offset 0, entry 0, sequence number 0, security version 0. -/
def factoryHeader : List Byte :=
  [0x4D, 0x56, 0x54, 0x49] ++ leBytes 2 1 ++ leBytes 2 0x400 ++ leBytes 2 0x6408 ++ leBytes 2 0xA2 ++ leBytes 4 0
    ++ leBytes 4 0 ++ leBytes 2 0 ++ leBytes 2 1 ++ leBytes 4 4096 ++ leBytes 4 0 ++ leBytes 8 0 ++ leBytes 4 0
    ++ leBytes 4 0 ++ leBytes 4 0 ++ leBytes 4 16 ++ leBytes 8 0 ++ List.replicate 960 0

/-- Slot A as delivered: the factory image, VALID (DESIGN CHOICE, log entry 3). -/
def factorySlot : Slot := { word := [0, 0, 0xFF, 0xFF], hdr := factoryHeader }

/-- An erased slot (R72). -/
def erasedSlot : Slot := { word := [0xFF, 0xFF, 0xFF, 0xFF], hdr := List.replicate 1024 0xFF }

/-- The block after reset: every register at its reset value (nothing listed), the island running, the main domain
in reset with the security processor before step 1 of its ROM flow, nothing waiting. -/
def State.reset : State :=
  { sec := { slotA := factorySlot, slotB := erasedSlot } }

/-- What no command touches: the queue, which is the step's, and fuses, which only ever blow. `t` is what the command has
made of `s`. -/
def State.settle (s t : State) : State := { t with pending := s.pending, otp := s.otp.burnt t.otp }

/-- Why a step stops with a fault. No rule of the spec stops the block, so no meaning raises one today; the reason is
kept for an access outside an address space that the spec does not give a status (safe: the machine stops). -/
inductive Fault where
  /-- raised by no meaning: an address that no memory of the spec holds (safe) -/
  | noAddress
  deriving DecidableEq, Repr

/-- Why a step refuses a command. -/
inductive Refusal where
  /-- raised by Dispatch for a command that has no meaning yet (safe) -/
  | notModelled (mnemonic : String)
  deriving DecidableEq, Repr

end Sys2Proof.Machine
end

