-- ==== Sys2Proof/Machine/Ops.lean ====
section
/-! DEFINITION. The named operations over the state that every family of commands uses: reading and writing a register
field, byte memories, fabric time, event records, free values. -/

namespace Sys2Proof.Machine

/-- What a meaning answers. -/
abbrev Out := Host.Outcome State Fault Refusal

/-! ### Register fields -/

/-- The current value of a field (for RWS: the staged value; 00_scope.md R9). -/
def State.rd (s : State) (f : Fld) (i : Nat := 0) (j : Nat := 0) (k : Nat := 0) : Nat :=
  Store.get (f.rst i j k) s.regs (f.key i j k)

/-- Set the current (for RWS: staged) value of a field, cut to the field's width. -/
def State.wr (s : State) (f : Fld) (v : Nat) (i : Nat := 0) (j : Nat := 0) (k : Nat := 0) : State :=
  { s with regs := Store.put (f.rst i j k) s.regs (f.key i j k) (v % 2 ^ f.wd) }

/-- The active value of an RWS field (00_scope.md R9). -/
def State.ac (s : State) (f : Fld) (i : Nat := 0) (j : Nat := 0) (k : Nat := 0) : Nat :=
  Store.get (f.rst i j k) s.act (f.key i j k)

/-- Set the active value of an RWS field. -/
def State.acw (s : State) (f : Fld) (v : Nat) (i : Nat := 0) (j : Nat := 0) (k : Nat := 0) : State :=
  { s with act := Store.put (f.rst i j k) s.act (f.key i j k) (v % 2 ^ f.wd) }

/-- A single-bit field read as a truth value. -/
def State.on (s : State) (f : Fld) (i : Nat := 0) (j : Nat := 0) (k : Nat := 0) : Bool := s.rd f i j k == 1

/-- The active values of the given RWS fields at one index become their staged values (02_fabric_time.md R65). -/
def State.applyStaged (s : State) (fs : List Fld) (i : Nat := 0) (j : Nat := 0) (k : Nat := 0) : State :=
  fs.foldl (fun s f => if f.acc = .rws then s.acw f (s.rd f i j k) i j k else s) s

/-! ### Byte strings and byte memories -/

/-- A little-endian byte string as a number (00_scope.md R17). -/
def leNat : List Byte → Nat
  | [] => 0
  | b :: bs => b.toNat + 256 * leNat bs

/-- A big-endian byte string as a number (packet headers keep network order, R17). -/
def beNat (bs : List Byte) : Nat := leNat bs.reverse

/-- `n` as a big-endian string of `k` bytes. -/
def beBytes (k n : Nat) : List Byte := (leBytes k n).reverse

/-- `n` bytes of a byte string from byte `off` on. -/
def sliceBytes (bs : List Byte) (off n : Nat) : List Byte := (bs.drop off).take n

/-- The little-endian number of `n` bytes at byte `off` of a byte string. -/
def fieldLE (bs : List Byte) (off n : Nat) : Nat := leNat (sliceBytes bs off n)

/-- Bits [hi:lo] of a number. -/
def bits (v hi lo : Nat) : Nat := v / 2 ^ lo % 2 ^ (hi - lo + 1)

/-- Bit `b` of a number. -/
def bit (v b : Nat) : Bool := v / 2 ^ b % 2 == 1

/-- 1 for true, 0 for false. -/
def b2n (b : Bool) : Nat := if b then 1 else 0

/-- `v` with bit `b` set to `x`. -/
def setBit (v b : Nat) (x : Bool) : Nat :=
  if bit v b = x then v else if x then v + 2 ^ b else v - 2 ^ b

/-- A field of `w` bits read as a two's-complement number. -/
def signed (w v : Nat) : Int := if v < 2 ^ (w - 1) then (v : Int) else (v : Int) - (2 : Int) ^ w

/-- A whole number as a two's-complement field of `w` bits. -/
def unsigned (w : Nat) (v : Int) : Nat := (v % (2 : Int) ^ w).toNat

/-- One byte of a byte memory; an unlisted byte reads 0. -/
def Mem.byte (m : List Host.Cell) (a : Nat) : Byte := Store.get 0 m a

/-- Write one byte. -/
def Mem.setByte (m : List Host.Cell) (a : Nat) (b : Byte) : List Host.Cell := Store.put 0 m a b

/-- `n` bytes from address `a` on. -/
def Mem.read (m : List Host.Cell) (a : Nat) : Nat → List Byte
  | 0 => []
  | n + 1 => Mem.byte m a :: Mem.read m (a + 1) n

/-- Write a byte string at address `a`, its first byte at `a`. -/
def Mem.write (m : List Host.Cell) (a : Nat) : List Byte → List Host.Cell
  | [] => m
  | b :: bs => Mem.write (Mem.setByte m a b) (a + 1) bs

/-- Zero the bytes in [lo, hi). -/
def Mem.zero (m : List Host.Cell) (lo hi : Nat) : List Host.Cell := Store.clear m lo hi

/-- The canonical form of a byte memory. -/
abbrev Mem.wf (m : List Host.Cell) : Bool := Store.wf (0 : Byte) m

/-! ### Fabric time (00_scope.md R19-R21; 02_fabric_time.md R45) -/

/-- FT units in one nanosecond. -/
def unitsPerNs : Nat := 3 * 2 ^ 40

/-- FT units in one microsecond, one millisecond and one second. -/
def unitsPerUs : Nat := 1000 * unitsPerNs
def unitsPerMs : Nat := 1000000 * unitsPerNs
def unitsPerSec : Nat := 1000000000 * unitsPerNs

/-- Seconds, nanoseconds and the 2^-16 ns fraction of an FT (R19). -/
def ftSec (u : Nat) : Nat := u / unitsPerSec
def ftNs (u : Nat) : Nat := u % unitsPerSec / unitsPerNs
def ftFrac (u : Nat) : Nat := u % unitsPerNs * 2 ^ 16 / unitsPerNs

/-- The FT64 form of an FT (R20): it truncates to whole nanoseconds. -/
def ft64 (u : Nat) : Nat := (ftSec u % 2 ^ 32) * 2 ^ 32 + ftNs u

/-- FT64 of now. -/
def State.now64 (s : State) : Nat := ft64 s.time.ft

/-- An FT64 whose nanoseconds field is 1,000,000,000 or more is invalid (R21). -/
def ft64Valid (t : Nat) : Bool := t % 2 ^ 32 < 1000000000

/-- The FT that an FT64 names. -/
def ft64Units (t : Nat) : Nat := (t / 2 ^ 32) * unitsPerSec + (t % 2 ^ 32) * unitsPerNs

/-- The largest FT, in units: its seconds field is 2^48 - 1 (R53). -/
def ftLimit : Nat := 2 ^ 48 * unitsPerSec

/-- Let `d` FT units pass: FT runs while the main domain is released (R47), the island's clock always runs (R527).
The phase that the servo slews meanwhile is at most 10 ppm of the time that passes (R50). -/
def State.pass (s : State) (d : Nat) : State :=
  let k : Int := (d / 100000 : Nat)
  let sl := s.time.slew
  let t := { s.time with
    ft := if s.sec.mainUp then s.time.ft + d else s.time.ft
    slew := if sl ≥ 0 then sl - min sl k else sl + min (-sl) k }
  { s with time := t, isl := { s.isl with ft := s.isl.ft + d } }

/-- Let time run on until FT is `u`, when `u` lies ahead. -/
def State.runTo (s : State) (u : Nat) : State := if s.time.ft < u then s.pass (u - s.time.ft) else s

/-- Let time run on until the island's clock is `u`, when `u` lies ahead. -/
def State.runIsland (s : State) (u : Nat) : State := if s.isl.ft < u then s.pass (u - s.isl.ft) else s

/-- The rate correction in force, in units of 2^-40: FT_RATE.adj, or the servo's rate with source 2 (R48-R50). -/
def State.rate (s : State) : Int :=
  if s.rd R.FT_CTRL_source = 2 then s.time.servoRate else signed 32 (s.rd R.FT_RATE_adj)

/-- One core clock: FT advances by 2/3 ns with the rate correction (R45, R49) and by the servo's slew of at most
10 ppm (R50); FT never runs backward here. The island's clock advances by 2/3 ns. -/
def State.tick (s : State) : State :=
  let inc : Int := 2 * (2 ^ 40 + s.rate)
  let lim := inc / 100000
  let d := if s.time.slew ≥ 0 then min s.time.slew lim else -(min (-s.time.slew) lim)
  let s := { s with isl := { s.isl with ft := s.isl.ft + 2 * 2 ^ 40 } }
  if s.sec.mainUp then { s with time := { s.time with ft := s.time.ft + (inc + d).toNat, slew := s.time.slew - d } }
  else s

/-! ### Event records (07_rings.md R205, 21_management.md R526) -/

/-- Write an event record, stamped now, to the event ring of slice `toSlice`. -/
def State.event (s : State) (block inst code : Nat) (detail : List Byte := []) (slice : Nat := 0)
    (toSlice : Nat := 0) : State :=
  let e : EventRec :=
    { block := block, inst := inst, code := code, slice := slice, stamp := s.now64, detail := detail, toSlice := toSlice }
  { s with evq := s.evq ++ [e] }

/-- Write an event record, stamped now, toward the always-on log. -/
def State.logEvent (s : State) (block inst code : Nat) (detail : List Byte := []) (slice : Nat := 0) : State :=
  let e : EventRec :=
    { block := block, inst := inst, code := code, slice := slice, stamp := s.now64, detail := detail }
  { s with logq := s.logq ++ [e] }

/-- Write an event record to slice 0's operator event ring and to the always-on log. -/
def State.eventBoth (s : State) (block inst code : Nat) (detail : List Byte := []) (slice : Nat := 0) : State :=
  (s.event block inst code detail slice).logEvent block inst code detail slice

/-! ### Free values -/

/-- Take the next free value's index: the counter of the state advances. -/
def State.draw (s : State) : Nat × State := (s.free, { s with free := s.free + 1 })

end Sys2Proof.Machine
end

