-- ==== Sys2Proof/Machine/Aes.lean ====
section
/-! DEFINITION. The AES block cipher (FIPS 197), AES Key Wrap (NIST SP 800-38F) and AES-CMAC (NIST SP 800-38B), which
18_cipher_vault.md names. Blocks are lists of 16 byte values. -/

namespace Sys2Proof.Machine

/-- Multiplication by x in GF(2^8). -/
def xtime (b : Nat) : Nat := if b < 128 then 2 * b else (2 * b - 256) ^^^ 0x1B

/-- Product in GF(2^8). -/
def gmul (a b : Nat) : Nat :=
  ((List.range 8).foldl (fun (p : Nat × Nat) i => (if bit b i then p.1 ^^^ p.2 else p.1, xtime p.2)) (0, a)).1

/-- The S-box as one number, its entry for `b` in the byte of weight 256^b; and its inverse. -/
def sboxN : Nat := 0x16bb54b00f2d99416842e6bf0d89a18cdf2855cee9871e9b948ed9691198f8e19e1dc186b95735610ef6034866b53e708a8bbd4b1f74dde8c6b4a61c2e2578ba08ae7a65eaf4566ca94ed58d6d37c8e779e4959162acd3c25c2406490a3a32e0db0b5ede14b8ee4688902a22dc4f816073195d643d7ea7c41744975fec130ccdd2f3ff1021dab6bcf5389d928f40a351a89f3c507f02f94585334d43fbaaefd0cf584c4a39becb6a5bb1fc20ed00d153842fe329b3d63b52a05a6e1b1a2c830975b227ebe28012079a059618c323c7041531d871f1e5a534ccf73f362693fdb7c072a49cafa2d4adf04759fa7dc982ca76abd7fe2b670130c56f6bf27b777c63
def sboxInvN : Nat := 0x7d0c2155631469e126d677ba7e042b17619953833cbbebc8b0f52aae4d3be0a0ef9cc9939f7ae52d0d4ab519a97f51605fec8027591012b131c7078833a8dd1ff45acd78fec0db9a2079d2c64b3e56fc1bbe18aa0e62b76f89c5291d711af1476edf751ce837f9e28535ade72274ac9673e6b4f0cecff297eadc674f4111913a6b8a130103bdafc1020f3fca8f1e2cd00645b3b80558e4f70ad3bc8c00abd890849d8da75746155edab9edfd5048706c92b6655dcc5ca4d41698688664f6f87225d18b6d49a25b76b224d92866a12e084ec3fa420b954cee3d23c2a632947b54cbe9dec444438e3487ff2f9b8239e37cfbd7f3819ea340bf38a53630d56a0952

/-- The S-box. -/
def sub (b : Nat) : Nat := sboxN / 2 ^ (8 * b) % 256

/-- The inverse S-box. -/
def subInv (b : Nat) : Nat := sboxInvN / 2 ^ (8 * b) % 256

/-- Bytes XORed one by one. -/
def xorBytes (a b : List Nat) : List Nat := List.zipWith (· ^^^ ·) a b

/-- The key schedule: round keys as one string of words of 4 bytes; `nk` is 4 or 8. -/
def expandKey (nk : Nat) : Nat → List (List Nat) → Nat → List (List Nat)
  | 0, w, _ => w
  | n + 1, w, rcon =>
    let i := w.length
    let prev := w.getD (i - 1) []
    let t := if i % nk = 0 then
        let r := (prev.drop 1 ++ prev.take 1).map sub
        xorBytes r [rcon, 0, 0, 0]
      else if nk = 8 ∧ i % nk = 4 then prev.map sub
      else prev
    expandKey nk n (w ++ [xorBytes (w.getD (i - nk) []) t]) (if i % nk = 0 then xtime rcon else rcon)

/-- The round keys of a key of 16 or 32 bytes. -/
def roundKeys (key : List Nat) : List (List Nat) :=
  let nk := key.length / 4
  let w := (List.range nk).map (fun i => (key.drop (4 * i)).take 4)
  let all := expandKey nk (4 * (nk + 7) - nk) w 1
  (List.range (nk + 7)).map (fun r => ((all.drop (4 * r)).take 4).flatten)

/-- ShiftRows and its inverse: byte `r + 4c` comes from column `c + r` or `c - r`. -/
def shiftRows (s : List Nat) : List Nat := (List.range 16).map (fun i => s.getD ((i + 4 * (i % 4)) % 16) 0)
def shiftRowsInv (s : List Nat) : List Nat := (List.range 16).map (fun i => s.getD ((i + 16 - 4 * (i % 4)) % 16) 0)

/-- A column times the matrix whose first row is given. -/
def mixWith (row : List Nat) (s : List Nat) : List Nat :=
  (List.range 16).map (fun i =>
    let c := i / 4 * 4
    (List.range 4).foldl (fun a j => a ^^^ gmul (s.getD (c + j) 0) (row.getD ((j + 4 - i % 4) % 4) 0)) 0)

/-- The forward cipher of one block. -/
def aesFwd (key block : List Nat) : List Nat :=
  let ks := roundKeys key
  let n := ks.length - 1
  let s := xorBytes block (ks.getD 0 [])
  let s := (List.range (n - 1)).foldl (fun s r => xorBytes (mixWith [2, 3, 1, 1] (shiftRows (s.map sub))) (ks.getD (r + 1) [])) s
  xorBytes (shiftRows (s.map sub)) (ks.getD n [])

/-- The inverse cipher of one block. -/
def aesInv (key block : List Nat) : List Nat :=
  let ks := roundKeys key
  let n := ks.length - 1
  let s := xorBytes block (ks.getD n [])
  let s := (List.range (n - 1)).foldl (fun s r => mixWith [14, 11, 13, 9] (xorBytes ((shiftRowsInv s).map subInv) (ks.getD (n - 1 - r) []))) s
  xorBytes ((shiftRowsInv s).map subInv) (ks.getD 0 [])

def natsOf (b : List Byte) : List Nat := b.map (·.toNat)
def bytesOf (l : List Nat) : List Byte := l.map (BitVec.ofNat 8)

/-- One block under a key, forward or inverse. -/
def aesBlock (key block : List Byte) (inverse : Bool) : List Byte :=
  bytesOf (if inverse then aesInv (natsOf key) (natsOf block) else aesFwd (natsOf key) (natsOf block))

/-! ### Key unwrap (SP 800-38F, KW) -/

/-- Steps of the unwrapping: the register A and the semiblocks. -/
def unwrapSteps (key : List Nat) (n : Nat) : Nat → List Nat → List (List Nat) → List Nat × List (List Nat)
  | 0, a, r => (a, r)
  | t + 1, a, r =>
    let i := t % n
    let tb := (natsOf (beBytes 8 (t + 1)))
    let d := aesInv key (xorBytes a tb ++ r.getD i [])
    unwrapSteps key n t (d.take 8) (r.set i (d.drop 8))

/-- Unwrap a blob under a key-encryption key: the plaintext, none when the integrity check fails. -/
def keyUnwrap (kek blob : List Byte) : Option (List Byte) :=
  let b := natsOf blob
  let n := b.length / 8 - 1
  let r := (List.range n).map (fun i => (b.drop (8 * (i + 1))).take 8)
  let (a, r) := unwrapSteps (natsOf kek) n (6 * n) (b.take 8) r
  if a = List.replicate 8 0xA6 then some (bytesOf r.flatten) else none

/-! ### CMAC (SP 800-38B) -/

/-- Doubling in GF(2^128), big-endian. -/
def cmacDouble (b : List Byte) : List Byte :=
  let v := beNat b
  beBytes 16 (if bit v 127 then (2 * v % 2 ^ 128) ^^^ 0x87 else 2 * v)

def xorB (a b : List Byte) : List Byte := List.zipWith (· ^^^ ·) a b

/-- Chain whole blocks. -/
def cmacChain (key : List Byte) : Nat → List Byte → List Byte → List Byte
  | 0, c, _ => c
  | n + 1, c, m => if m.isEmpty then c else cmacChain key n (aesBlock key (xorB c (m.take 16)) false) (m.drop 16)

/-- One part of a CMAC: the chaining value afterwards, or the tag after the last part. -/
def cmacPart (key state msg : List Byte) (last : Bool) : List Byte :=
  if last then
    let nb := if msg.isEmpty then 1 else (msg.length + 15) / 16
    let c := cmacChain key (nb - 1) state (msg.take (16 * (nb - 1)))
    let tail := msg.drop (16 * (nb - 1))
    let k1 := cmacDouble (aesBlock key (List.replicate 16 0) false)
    let m := if tail.length = 16 then xorB tail k1 else xorB ((tail ++ [0x80] ++ List.replicate 16 0).take 16) (cmacDouble k1)
    aesBlock key (xorB c m) false
  else cmacChain key (msg.length / 16) state msg

end Sys2Proof.Machine
end

