-- ==== Sys2Proof/Machine/Flags.lean ====
section
/-! DEFINITION. Counters and flags of the registers: saturating and wrapping counters, write-1-to-clear bits, the
peak and minimum registers (00_scope.md R9, R10). -/

namespace Sys2Proof.Machine

/-- Add `n` to a counter that saturates at the largest value of its field. -/
def State.sat (s : State) (f : Fld) (n : Nat := 1) (i : Nat := 0) (j : Nat := 0) (k : Nat := 0) : State :=
  s.wr f (min (s.rd f i j k + n) (2 ^ f.wd - 1)) i j k

/-- Add 1 to a counter that wraps modulo 2 to its width. -/
def State.bump (s : State) (f : Fld) (i : Nat := 0) (j : Nat := 0) (k : Nat := 0) : State :=
  s.wr f (s.rd f i j k + 1) i j k

/-- Add `n` to a counter that wraps modulo 2 to its width. -/
def State.addTo (s : State) (f : Fld) (n : Nat) (i : Nat := 0) (j : Nat := 0) (k : Nat := 0) : State :=
  s.wr f (s.rd f i j k + n) i j k

/-- What a write of `v` to a write-1-to-clear field that holds `cur` leaves (R9). -/
def w1c (cur v : Nat) : Nat := cur - (cur &&& v)

/-- Set every bit of a field. -/
def State.raise (s : State) (f : Fld) (i : Nat := 0) (j : Nat := 0) (k : Nat := 0) : State := s.wr f (2 ^ f.wd - 1) i j k

/-- Keep the highest value in a field. -/
def State.peak (s : State) (f : Fld) (v : Nat) (i : Nat := 0) (j : Nat := 0) (k : Nat := 0) : State :=
  s.wr f (max (s.rd f i j k) v) i j k

/-- Number of bits set among the low `w` bits. -/
def popcount : Nat → Nat → Nat
  | 0, _ => 0
  | w + 1, v => v % 2 + popcount w (v / 2)

end Sys2Proof.Machine
end

