-- ==== Sys2Proof/Machine/Operands.lean ====
section
/-! DEFINITION. The operand forms of a register access: who sends it, which block instance and register an offset of
BAR0 names, the common header of a block, the epoch unit of a block (01_architecture.md R33-R38,
02_fabric_time.md, table Epoch unit numbers). -/

namespace Sys2Proof.Machine

/-- One row of the BAR0 block table (R33): block code, base, instances and their stride, whether the block has basic
and expert levels (R37), its first epoch unit, and its registers. -/
structure BlkDef where
  code : Nat
  base : Nat
  count : Nat
  stride : Nat
  levels : Bool
  unit : Option Nat
  regs : List RegDef

/-- The BAR0 block table. -/
def blocks : List BlkDef := [
  { code := 0x01, base := 0x0000000, count := 1, stride := 0x100000, levels := false, unit := none, regs := R.tbl_GLB },
  { code := 0x02, base := 0x0100000, count := 1, stride := 0x100000, levels := false, unit := some 46, regs := R.tbl_FT },
  { code := 0x03, base := 0x0200000, count := 1, stride := 0x100000, levels := false, unit := none, regs := R.tbl_SEC },
  { code := 0x04, base := 0x0300000, count := 2, stride := 0x80000, levels := false, unit := some 39, regs := R.tbl_HIF },
  { code := 0x05, base := 0x0400000, count := 1, stride := 0x100000, levels := false, unit := some 37, regs := R.tbl_SLC },
  { code := 0x06, base := 0x0500000, count := 1, stride := 0x300000, levels := false, unit := some 38, regs := R.tbl_RNG },
  { code := 0x07, base := 0x0800000, count := 8, stride := 0x20000, levels := true, unit := some 9, regs := R.tbl_PRT },
  { code := 0x08, base := 0x1000000, count := 9, stride := 0x200000, levels := true, unit := some 0, regs := R.tbl_PIPE },
  { code := 0x09, base := 0x2400000, count := 1, stride := 0x200000, levels := true, unit := some 17, regs := R.tbl_SWC },
  { code := 0x0A, base := 0x2600000, count := 1, stride := 0x200000, levels := true, unit := some 18, regs := R.tbl_TM },
  { code := 0x0B, base := 0x2800000, count := 1, stride := 0x200000, levels := true, unit := some 19, regs := R.tbl_RDM },
  { code := 0x0C, base := 0x2A00000, count := 1, stride := 0x200000, levels := true, unit := some 20, regs := R.tbl_STQ },
  { code := 0x0D, base := 0x2C00000, count := 8, stride := 0x20000, levels := false, unit := some 21, regs := R.tbl_WLK },
  { code := 0x0E, base := 0x2D00000, count := 8, stride := 0x20000, levels := true, unit := some 29, regs := R.tbl_TSK },
  { code := 0x0F, base := 0x3000000, count := 64, stride := 0x10000, levels := false, unit := some 47, regs := R.tbl_FCR },
  { code := 0x10, base := 0x3400000, count := 1, stride := 0x200000, levels := false, unit := some 41, regs := R.tbl_VLT },
  { code := 0x11, base := 0x3600000, count := 1, stride := 0x200000, levels := false, unit := some 42, regs := R.tbl_MEM },
  { code := 0x12, base := 0x3800000, count := 1, stride := 0x200000, levels := true, unit := some 43, regs := R.tbl_PMC },
  { code := 0x13, base := 0x3A00000, count := 1, stride := 0x200000, levels := false, unit := some 44, regs := R.tbl_HLT },
  { code := 0x14, base := 0x3C00000, count := 1, stride := 0x200000, levels := false, unit := none, regs := R.tbl_MGT },
  { code := 0x15, base := 0x3E00000, count := 1, stride := 0x200000, levels := false, unit := some 45, regs := R.tbl_PAR }]

/-- The block and the instance that hold a BAR0 offset; none: a reserved range (R34). -/
def blkAt (off : Nat) : Option (BlkDef × Nat) :=
  (blocks.find? (fun b => b.base ≤ off && off < b.base + b.count * b.stride)).map
    (fun b => (b, (off - b.base) / b.stride))

/-- Base offsets of all block instances, in the order of the table. -/
def blkBases : List Nat := blocks.flatMap (fun b => (List.range b.count).map (fun n => b.base + n * b.stride))

/-! The common header of a block instance (R36). The index of these fields is the base offset of the instance. -/

def hdrOwner : Fld := { base := 8, s0 := 1, s1 := 0, s2 := 0, lo := 0, wd := 1, acc := .rw, rst := fun a _ _ => if a = 0x3C00000 then 1 else 0 }
def hdrSeized : Fld := { base := 8, s0 := 1, s1 := 0, s2 := 0, lo := 1, wd := 1, acc := .ro }
def hdrProfile : Fld := { base := 0x10, s0 := 1, s1 := 0, s2 := 0, lo := 0, wd := 1, acc := .rws }
def hdrPreset : Fld := { base := 0x10, s0 := 1, s1 := 0, s2 := 0, lo := 8, wd := 8, acc := .rws }

/-- The block runs at the expert level (R38). -/
def State.expert (s : State) (instBase : Nat) : Bool := s.ac hdrProfile instBase == 1

/-- The built-in behaviour in force at the basic level (R38). -/
def State.preset (s : State) (instBase : Nat) : Nat := s.ac hdrPreset instBase

/-- The register that starts at a BAR0 offset, with its indices. -/
def regAt (off : Nat) : Option (RegDef × Nat × Nat × Nat) :=
  match blkAt off with
  | none => none
  | some (b, _) => b.regs.findSome? (fun r => (r.find off).map (fun ix => (r, ix)))

/-- Base offset of the block instance of an epoch unit (table Epoch unit numbers). -/
def unitBase (u : Nat) : Option Nat :=
  blocks.findSome? (fun b => match b.unit with
    | some u0 => if u0 ≤ u ∧ u < u0 + b.count then some (b.base + (u - u0) * b.stride) else none
    | none => none)

/-- The epoch unit of the block instance at an offset. -/
def unitAt (off : Nat) : Option Nat :=
  match blkAt off with
  | some (b, n) => b.unit.map (· + n)
  | none => none

/-- The unit is armed in a running epoch (02_fabric_time.md R64-R66). -/
def State.armed (s : State) (u : Nat) : Bool :=
  s.rd R.GLB_EPOCH_STATUS_state != 0 && bit (s.rd R.GLB_EPOCH_ARM_arm (u / 64)) (u % 64)

/-- An owner's write is one from the side that the block's owner field names; a flow core counts as the host side
(00_scope.md R16, 17_flow_cores.md R439). -/
def State.ownerOk (s : State) (req : Req) (instBase : Nat) : Bool :=
  match req with
  | .mgmt => s.rd hdrOwner instBase == 1
  | _ => s.rd hdrOwner instBase == 0

/-- Count a write discarded under R16 (01_architecture.md R39). -/
def State.nonOwner (s : State) : State := s.sat R.GLB_NONOWNER_WR_count

/-- Count an owner's write that a rule of its block discards (R39). -/
def State.refusedWr (s : State) : State := s.sat R.GLB_REFUSED_WR_count

/-- The cuff is open (03_boot_images.md R80); with it every RWL field is locked (00_scope.md R12). -/
def State.cuffOpen (s : State) : Bool := s.on R.SEC_BOOT_STATUS_cuff_open

/-- The main domain's blocks have been released by the security processor (R70). -/
def State.mainUp (s : State) : Bool := s.sec.mainUp

/-- The answer of a command that has made `t` of `s`. -/
def State.done (s t : State) : Out := .next (s.settle t)

/-- A command to a block of the main domain has its effect only while that block is out of reset (R70). -/
def State.whenMain (s : State) (f : State → State) : Out := s.done (if s.mainUp then f s else s)

/-- Field `f` of a register takes its part of the value written to the register (00_scope.md R9, R11, R13). -/
def State.putField (s : State) (locked armed : Bool) (f : Fld) (i j k v : Nat) : State :=
  let x := v / 2 ^ f.lo % 2 ^ f.wd
  match f.acc with
  | .rw => s.wr f x i j k
  | .w1c => s.wr f (w1c (s.rd f i j k) x) i j k
  | .rws => if armed then s else s.wr f x i j k
  | .rwl => if locked then s else s.wr f x i j k
  | .ro => s
  | .wo => s
  | .rc => s

/-- All fields of a register take their parts of the value written. -/
def State.putReg (s : State) (armed : Bool) (r : RegDef) (i j k v : Nat) : State :=
  r.flds.foldl (fun t f => t.putField s.cuffOpen armed f i j k v) s

/-- The stored value of a register: its fields at their places, write-only fields as 0 (R9). -/
def State.getReg (s : State) (r : RegDef) (i j k : Nat) : Nat :=
  r.flds.foldl (fun a f => if f.acc = .wo then a else a + s.rd f i j k % 2 ^ f.wd * 2 ^ f.lo) 0

end Sys2Proof.Machine
end

