-- ==== Sys2Proof/Machine/Reset.lean ====
section
/-! DEFINITION. The reset of the main domain, written once (01_architecture.md R31; 02_fabric_time.md R47, R69;
21_management.md R521, R526): every block of the main domain returns to its reset state, the island, the flash slots
and the fuses keep theirs. -/

namespace Sys2Proof.Machine

/-- A register field that a main-domain reset keeps: the MGT_ block, HLT_AON_CAUSE and SEC_BOOT_REC (R94). -/
def keptKey (key : Nat) : Bool :=
  let off := key / 8
  (0x3C00000 ≤ off && off < 0x3E00000) || (0x3A00078 ≤ off && off < 0x3A00080) || (0x200048 ≤ off && off < 0x20004C)

/-- What a port's pins bring does not depend on the main domain. -/
def State.pinLanes (s : State) : List (Nat × Lane) :=
  (s.prt.map (fun p => (p.1, ({ signal := p.2.signal } : Lane)))).filter (fun p => p.2.signal)

/-- HIF_LINK_CFG.bifurcate returns to the level of its strap (05_host_interface.md R119). -/
def State.strapHif (s : State) : State :=
  (s.wr R.HIF_LINK_CFG_bifurcate (b2n (bit s.isl.straps 0)) 0).wr R.HIF_LINK_CFG_bifurcate (b2n (bit s.isl.straps 1)) 1

/-- Everything of the main domain at its reset state; the island, the non-volatile state, and what lies outside the device
(host memory, what has been sent, signals at pins) as they are. -/
def State.clearMain (s : State) : State :=
  let t : State := { State.reset with
    hostMem := s.hostMem
    hostBad := s.hostBad
    toHost := s.toHost
    wire := s.wire
    prt := s.pinLanes
    regs := s.regs.filter (fun p => keptKey p.1)
    sec := { slotA := s.sec.slotA, slotB := s.sec.slotB }
    otp := s.otp
    isl := s.isl
    logq := s.logq
    free := s.free
    pending := s.pending }
  t.strapHif

/-- Record the cause of a main-domain reset in the island (HLT_AON_CAUSE) and write MGT_ record 0x0003 (R526). -/
def State.recordCause (s : State) (cause rail : Nat) : State :=
  let s := (((s.wr R.HLT_AON_CAUSE_cause cause).wr R.HLT_AON_CAUSE_rail rail).sat R.HLT_AON_CAUSE_count).wr
    R.HLT_AON_CAUSE_ft_sec (ftSec s.isl.ft)
  s.logEvent 0x14 0 3 (leBytes 1 cause ++ leBytes 1 rail ++ List.replicate 14 0)

/-- A main-domain reset that the island holds until it releases the domain (R521, R508). -/
def State.mainReset (s : State) (cause : Nat) (rail : Nat := 0) : State :=
  let s := s.clearMain.recordCause cause rail
  { s with isl := { s.isl with hold := some { cause := cause, since := s.isl.ft } } }

/-- A reset request from the management side (cause 3) or a watchdog (cause 4): recorded without a second reset while
a thermal trip holds the domain, ignored while the domain is in reset for another cause (R520, R521). -/
def State.requestReset (s : State) (cause : Nat) : State :=
  match s.isl.hold with
  | some h => if h.cause = 2 then { s with isl := { s.isl with hold := some { h with again := true } } } else s
  | none => if s.isl.mainPg then s.mainReset cause else s

end Sys2Proof.Machine
end

