-- ==== Sys2Proof/Machine/Glb.lean ====
section
/-! DEFINITION. Global control: heartbeat, lapse, seizure and ownership (01_architecture.md R39-R44, R563), and the
epoch controller's own part (02_fabric_time.md R63-R67). -/

namespace Sys2Proof.Machine

/-- A host write to GLB_HOST_HB is a heartbeat, whatever its value (R40, R43). -/
def State.hostBeat (s : State) (v : Nat) : State :=
  let s := (s.wr R.GLB_HOST_HB_beat v).wr R.GLB_HB_STATUS_lapsed 0
  { s with time := { s.time with beatAt := s.time.ft } }

/-- A management write of timeout_ms applies at once; a value of 0 clears lapsed (R40). -/
def State.hbCfg (s : State) (v : Nat) : State :=
  let s := s.wr R.GLB_HB_CFG_timeout_ms v
  if v % 2 ^ 16 = 0 then s.wr R.GLB_HB_STATUS_lapsed 0 else s

/-- The timeout in force: values above 60,000 act as 60,000 (GLB_HB_CFG). -/
def State.hbTimeout (s : State) : Nat := min (s.rd R.GLB_HB_CFG_timeout_ms) 60000

/-- Milliseconds since the last heartbeat, saturating at 0xFFFF (GLB_HB_STATUS). -/
def State.sinceMs (s : State) : Nat := min ((s.time.ft - s.time.beatAt) / unitsPerMs) 0xFFFF

/-- timeout_ms passes without a heartbeat and lapsed becomes 1 (R40). -/
def State.lapse (s : State) : State :=
  if s.hbTimeout = 0 then s
  else (s.runTo (s.time.beatAt + s.hbTimeout * unitsPerMs)).raise R.GLB_HB_STATUS_lapsed

/-- Move every host-owned block instance of the list to the management side (R41). -/
def State.seizeAll (s : State) : List Nat → State
  | [] => s
  | a :: as => (if s.rd hdrOwner a = 0 then (s.wr hdrOwner 1 a).raise hdrSeized a else s).seizeAll as

/-- A management write of seize (R41, R563 event 0x0001). -/
def State.seizeWr (s : State) : State :=
  if s.on R.GLB_HB_STATUS_lapsed then
    let n := (blkBases.filter (fun a => s.rd hdrOwner a == 0)).length
    (s.seizeAll blkBases).eventBoth 1 0 1 (leBytes 2 n ++ List.replicate 14 0)
  else s.raise R.GLB_HB_STATUS_seize_refused

/-- At least one block reads OWNER.seized = 1 (GLB_HB_STATUS.seized). -/
def State.anySeized (s : State) : Bool := blkBases.any (fun a => s.rd hdrSeized a == 1)

/-- The current owner writes a block's owner field; writing it back to 0 clears seized (R36, R43). In MGT_ the field is
read-only. -/
def State.writeOwner (s : State) (a v : Nat) : State :=
  if a = 0x3C00000 then s
  else
    let s := s.wr hdrOwner v a
    if v % 2 = 0 then s.wr hdrSeized 0 a else s

/-! ### The epoch controller -/

/-- Bit u of a pair of 64-bit registers (GLB_EPOCH_ARM, ACK and FENCED). -/
def State.epochBit (s : State) (f : Fld) (u : Nat) : Bool := bit (s.rd f (u / 64)) (u % 64)

def State.setEpochBit (s : State) (f : Fld) (u : Nat) (x : Bool) : State :=
  s.wr f (setBit (s.rd f (u / 64)) (u % 64) x) (u / 64)

/-- The controller returns to idle with a result: every ARM bit clears, T keeps its value (R65). -/
def State.epochEnd (s : State) (result : Nat) : State :=
  (((s.wr R.GLB_EPOCH_STATUS_state 0).wr R.GLB_EPOCH_STATUS_result result).wr R.GLB_EPOCH_ARM_arm 0 0).wr
    R.GLB_EPOCH_ARM_arm 0 1

/-- A write of go (R63): ignored outside idle; refused with result 6 when no unit is armed, with result 5 when T is
invalid, less than 20 us or more than 60 s after FT; otherwise the epoch starts with no acknowledgement. -/
def State.epochGo (s : State) : State :=
  if s.rd R.GLB_EPOCH_STATUS_state ≠ 0 then s
  else
    let t := s.rd R.GLB_EPOCH_T_t
    if s.rd R.GLB_EPOCH_ARM_arm 0 = 0 ∧ s.rd R.GLB_EPOCH_ARM_arm 1 = 0 then s.wr R.GLB_EPOCH_STATUS_result 6
    else if !ft64Valid t || ft64Units t < s.time.ft + 20 * unitsPerUs || s.time.ft + 60 * unitsPerSec < ft64Units t then
      s.wr R.GLB_EPOCH_STATUS_result 5
    else ((s.wr R.GLB_EPOCH_STATUS_state 1).wr R.GLB_EPOCH_ACK_ack 0 0).wr R.GLB_EPOCH_ACK_ack 0 1

/-- A write of cancel during collecting aborts the epoch with result 4 (R65). -/
def State.epochCancel (s : State) : State :=
  if s.rd R.GLB_EPOCH_STATUS_state = 1 then s.epochEnd 4 else s

/-- A write of GLB_EPOCH_CTRL: each bit is judged by the state before the write. -/
def State.epochCtrl (s : State) (v : Nat) : State :=
  if s.rd R.GLB_EPOCH_STATUS_state = 1 then (if bit v 1 then s.epochCancel else s)
  else if bit v 0 then s.epochGo else s

/-- Every armed unit has acknowledged. -/
def State.allAcked (s : State) : Bool :=
  s.rd R.GLB_EPOCH_ARM_arm 0 == s.rd R.GLB_EPOCH_ACK_ack 0 && s.rd R.GLB_EPOCH_ARM_arm 1 == s.rd R.GLB_EPOCH_ACK_ack 1

/-- At T minus 10 us with an acknowledgement missing, the controller aborts with result 2 (R65). -/
def State.epochDeadline (s : State) : State :=
  if s.rd R.GLB_EPOCH_STATUS_state = 1 ∧ s.allAcked = false then
    (s.runTo (ft64Units (s.rd R.GLB_EPOCH_T_t) - 10 * unitsPerUs)).epochEnd 2
  else s

/-- The millisecond-wheel timer of the heartbeat (R40). -/
def execHeartbeatLapse (s : State) : Out := s.whenMain State.lapse

/-- The epoch's deadline passes (R65). -/
def execEpochDeadline (s : State) : Out := s.whenMain State.epochDeadline

end Sys2Proof.Machine
end

