-- ==== Sys2Proof/Machine/Status.lean ====
section
/-! DEFINITION. The status codes of the device (00_scope.md R22), from the chapters' own tables. -/

namespace Sys2Proof.St

/-! Status codes of launch timing (02_fabric_time.md) -/
/-- Sent; lateness exceeded late_ns -/
def late_sent : Nat := 0x0001
/-- Not sent; lateness exceeded late_ns -/
def launch_late : Nat := 0x0210
/-- Not sent; launch beyond horizon_s -/
def launch_far : Nat := 0x0211
/-- Not sent; nanoseconds field invalid -/
def bad_time : Nat := 0x0212

/-! Status codes of boot and images (03_boot_images.md) -/
/-- Header not well-formed (R73) -/
def img_header : Nat := 0x0680
/-- Signature or public key does not verify -/
def img_sig : Nat := 0x0681
/-- Key row absent or revoked -/
def img_key : Nat := 0x0682
/-- seq not above the running image's -/
def img_seq : Nat := 0x0683
/-- secver below the fuse counter -/
def img_secver : Nat := 0x0684
/-- Body digest or boot-time tag mismatch -/
def img_digest : Nat := 0x0685
/-- Another update session runs -/
def upd_busy : Nat := 0x0686
/-- Chunk out of order, short body, or session timed out -/
def upd_order : Nat := 0x0687
/-- Flash erase, program or read-back failed -/
def flash_fail : Nat := 0x0688
/-- FUSE_COMMIT while the cuff is closed -/
def fuse_cuffed : Nat := 0x0689
/-- KEY_REVOKE refused (R95) -/
def key_in_use : Nat := 0x068A

/-! Status codes of memory (04_memories_ecc.md) -/
/-- Data was uncorrectable or poisoned -/
def mem_uncorr : Nat := 0x0701
/-- Address at or above the usable limit -/
def mem_range : Nat := 0x0702
/-- A range scrub already runs -/
def scrub_busy : Nat := 0x0703
/-- Base or length not legal (R106) -/
def scrub_bad_range : Nat := 0x0704
/-- Range scrub ended by abort -/
def scrub_aborted : Nat := 0x0705
/-- No sparing possible (R115) -/
def spare_none : Nat := 0x0706

/-! Status codes of the host interface (05_host_interface.md) -/
/-- Bus Master Enable cleared, or function in D3hot -/
def bme_off : Nat := 0x0101
/-- Work ended by FLR -/
def func_reset : Nat := 0x0102
/-- The link left DL_Active -/
def host_link_down : Nat := 0x0103
/-- A read's completion timeout expired -/
def cpl_timeout : Nat := 0x0104
/-- A read received Unsupported Request -/
def host_ur : Nat := 0x0105
/-- A read received Completer Abort -/
def host_ca : Nat := 0x0106
/-- A read returned poisoned data -/
def host_poison : Nat := 0x0107
/-- Translation refused or not permitted -/
def ats_fault : Nat := 0x0108
/-- PASID Enable is 0 for a slice that needs a PASID -/
def pasid_off : Nat := 0x0109
/-- The slice has no host binding (host_en = 0) (R155) -/
def host_unbound : Nat := 0x010A

/-! Status codes of slices (06_slices.md) -/
/-- Work refused or ended by a slice reset or removal -/
def slice_reset : Nat := 0x0220
/-- in_use at or above limit -/
def quota_exceeded : Nat := 0x0221
/-- No entry free outside other slices' reserves -/
def pool_empty : Nat := 0x0222
/-- Reset or removal already running -/
def slice_busy : Nat := 0x0223
/-- Command not legal in the slice's state, or reserved op -/
def slice_state : Nat := 0x0224
/-- RESET or REMOVE of slice 0 -/
def slice_op0 : Nat := 0x0225
/-- Binding refused (R158) -/
def bind_conflict : Nat := 0x0226
/-- Quota write refused (R164) -/
def reserve_over : Nat := 0x0227
/-- Slice of a packet, descriptor or event ring differs from its target's -/
def slice_mismatch : Nat := 0x0228

/-! Status codes of rings (07_rings.md) -/
/-- Descriptor gen is not the slice's generation -/
def gen_mismatch : Nat := 0x0201
/-- Opcode not legal for the ring type -/
def bad_opcode : Nat := 0x0202
/-- Reserved bit set or field out of range -/
def bad_desc : Nat := 0x0203
/-- Ended by an ABORT -/
def aborted : Nat := 0x0204
/-- ABORT found its target already completed -/
def too_late : Nat := 0x0205
/-- ABORT target not posted -/
def abort_none : Nat := 0x0206
/-- Not started before a flush -/
def ring_flushed : Nat := 0x0207
/-- WAIT timed out -/
def wait_timeout : Nat := 0x0208
/-- Watched ring destroyed or flushed -/
def wait_gone : Nat := 0x0209
/-- Covered entry still read phase 0 (R194) -/
def ring_phase : Nat := 0x020A
/-- Received frame turned bad after its head was written -/
def bad_frame : Nat := 0x020B
/-- Frame longer than its buffer -/
def rx_trunc : Nat := 0x020C
/-- Ring outside the slice's memory -/
def ring_range : Nat := 0x020D
/-- Command not legal in the ring's state -/
def ring_state : Nat := 0x020E
/-- Doorbell page outside the slice's range, or already mapped -/
def ring_conflict : Nat := 0x020F
/-- SEND performed; every copy of its frame was dropped inside the device (R561) -/
def sent_dropped : Nat := 0x0002

/-! Status codes of tables (10_forwarding_tables.md) -/
/-- No free candidate, and eviction not allowed or not possible -/
def tbl_full : Nat := 0x0240
/-- A software entry holds the key in the staged version -/
def tbl_exists : Nat := 0x0241
/-- No entry holds the key, or a lookup missed -/
def tbl_absent : Nat := 0x0242
/-- TCAM index in the wrong state for the command -/
def tbl_slot : Nat := 0x0243
/-- Restore of an entry not DISABLED, or confirm of an entry that is not a sprout -/
def tbl_state : Nat := 0x0244
/-- EM_NEXT found no further entry -/
def tbl_end : Nat := 0x0245
/-- Stage has no exact-match table -/
def tbl_stage : Nat := 0x0246

/-! Status codes of the switch core (11_switch_core.md) -/
/-- Command not legal in the sleeve's state, reserved op, or write or command naming pipeline 8 while mirroring -/
def sleeve_state : Nat := 0x0260
/-- Pipeline to copy from or return to is fenced or under test -/
def sleeve_src : Nat := 0x0261
/-- An epoch that arms unit n or unit 8 is running -/
def sleeve_epoch : Nat := 0x0262

/-! Status codes of the traffic manager (12_traffic_management.md) -/
/-- POL_FREE of a policer that is not allocated -/
def pol_state : Nat := 0x0270

/-! Status codes of remote memory access (13_rdma.md) -/
/-- Operation or transition not legal in the QP's state -/
def qp_state : Nat := 0x0301
/-- Descriptor not on its QP's send ring -/
def qp_ring : Nat := 0x0302
/-- No free QP number in a mapped backing chunk -/
def qp_nohusk : Nat := 0x0303
/-- Attribute missing, illegal or fixed -/
def qp_attr : Nat := 0x0304
/-- Flushed by ERR, SQE or RESET -/
def qp_flushed : Nat := 0x0305
/-- Retransmissions exhausted -/
def retry_exceeded : Nat := 0x0306
/-- RNR retries exhausted -/
def rnr_exceeded : Nat := 0x0307
/-- NAK remote access error received -/
def remote_access : Nat := 0x0308
/-- NAK invalid request received -/
def remote_invalid : Nat := 0x0309
/-- NAK remote operational error received -/
def remote_op : Nat := 0x030A
/-- Local key check failed (R340, R355) -/
def local_prot : Nat := 0x030B
/-- Message longer than its buffer, or UD send longer than the MTU -/
def local_len : Nat := 0x030C
/-- Region record refused (R339) -/
def mr_range : Nat := 0x030D
/-- Key names no VALID region -/
def mr_state : Nat := 0x030E

/-! Status codes of storage (14_storage_queues.md) -/
/-- Blocks beyond capacity -/
def stq_lba_range : Nat := 0x0401
/-- nblocks out of range for the opcode -/
def stq_len : Nat := 0x0402
/-- Buffer outside the ring's memory -/
def stq_buf : Nat := 0x0403
/-- Backend returned a non-zero status; see bstatus -/
def stq_backend : Nat := 0x0404
/-- Backend or wake timeout -/
def stq_timeout : Nat := 0x0405
/-- Not started before a flushing RESTART -/
def stq_flushed : Nat := 0x0406
/-- Backend gone while the command was issued -/
def stq_link : Nat := 0x0407
/-- Command not legal in the volume's state -/
def stq_vol_state : Nat := 0x0408
/-- Volume record field illegal or fixed -/
def stq_vol_attr : Nat := 0x0409
/-- Volume or backend QP in use -/
def stq_busy : Nat := 0x040A
/-- Backend reference refused at CREATE -/
def stq_backend_ref : Nat := 0x040B

/-! MGMT codes (16_tenant_sockets.md) -/
/-- Device to module -/
def SLEEP : Nat := 0x0001
/-- Device to module -/
def WAKE : Nat := 0x0002
/-- Device to module -/
def QUIESCE : Nat := 0x0003
/-- Module to device -/
def ALERT : Nat := 0x0004
/-- Device to module -/
def RING_NOTE : Nat := 0x0006
/-- Device to module -/
def PAIR_ACTIVE : Nat := 0x0007
/-- Both -/
def ACK : Nat := 0x0080

/-! Status codes of tenant sockets (16_tenant_sockets.md) -/
/-- The link went down with the read outstanding -/
def tsk_link_down : Nat := 0x0320
/-- No CPL within rd_timeout_us -/
def tsk_rd_timeout : Nat := 0x0321
/-- No window in the transaction's epoch, or aperture refusal -/
def no_window : Nat := 0x0501
/-- Module absent, unpowered or quiescing -/
def tsk_absent : Nat := 0x0502
/-- Module returned a non-zero CPL status -/
def tsk_module_err : Nat := 0x0503

/-! Status codes of flow cores (17_flow_cores.md) -/
/-- Target channel of a type 5 ring disabled, or its core fenced -/
def fc_no_channel : Nat := 0x0290

/-! Status codes of the cipher vault (18_cipher_vault.md) -/
/-- Slot 0, FREE, or charged to another slice -/
def vx_slot : Nat := 0x0601
/-- Slot EMPTY or IMPORTING, or not EMPTY for an import -/
def vx_slot_state : Nat := 0x0602
/-- Usage bits do not permit the operation -/
def vx_usage : Nat := 0x0603
/-- Slot FAULTY -/
def vx_key_fault : Nat := 0x0604
/-- Slot zeroised during the operation -/
def vx_key_gone : Nat := 0x0605
/-- Forward/inverse check failed; engine fenced -/
def vx_check : Nat := 0x0606
/-- Wrapped key integrity check failed -/
def vx_unwrap : Nat := 0x0607
/-- Wrapped key plaintext or reserved field illegal -/
def vx_attr : Nat := 0x0608
/-- Thread already holds a lock -/
def vx_lock_held : Nat := 0x0609
/-- The thread's lock has ended -/
def vx_lock_lost : Nat := 0x060A
/-- Lock use or release without a lock -/
def vx_no_lock : Nat := 0x060B
/-- Key store not released -/
def vx_not_ready : Nat := 0x060C
/-- CMAC part length illegal -/
def vx_len : Nat := 0x060D

/-! Status codes of health (20_health_test.md) -/
/-- Unit in service without drain, or a command already runs on it -/
def busy : Nat := 0x0801
/-- No such unit, or op not legal in its state -/
def hlt_unit : Nat := 0x0802
/-- Pipeline drain without the sleeve serving it -/
def hlt_no_sleeve : Nat := 0x0803
/-- Test failed; unit FENCED -/
def hlt_failed : Nat := 0x0804
/-- Flow-core threads not disabled within drain_ms -/
def hlt_drain_timeout : Nat := 0x0805
/-- Pseudo-channel cannot be spared -/
def hlt_no_spare : Nat := 0x0806
/-- Unit armed in a running epoch -/
def hlt_epoch : Nat := 0x0807
/-- Crossbar or buffer bank failed at boot -/
def hlt_boot_test : Nat := 0x0808

/-! Status codes of the redundant pair (22_redundant_pair.md) -/
/-- Dual socket served by the partner (R544) -/
def pair_standby : Nat := 0x0504

end Sys2Proof.St
end

