-- ==== Sys2Proof/Machine/Memory.lean ====
section
/-! DEFINITION. Memories, error correction, scrubbing and sparing (04_memories_ecc.md). -/

namespace Sys2Proof.Machine

/-- The usable limit in MiB: 47.25 GiB with spare rows reserved, else 48 GiB (R98). -/
def State.usableMib (s : State) : Nat := if s.on R.MEM_SPARE_CFG_spare_en then 48384 else 49152

/-- The usable limit in bytes. -/
def State.hbmLimit (s : State) : Nat := s.usableMib * 2 ^ 20

/-- Pseudo-channel of a device address (R97). -/
def hbmPc (a : Nat) : Nat := a / 2 ^ 12 % 64

/-- Offset inside the pseudo-channel (R97). -/
def hbmPcOff (a : Nat) : Nat := (a / 2 ^ 18) * 4096 + a % 4096

/-- Place of granule `k` of a spared pseudo-channel `p`: pseudo-channel and offset (R113). -/
def sparePlace (p k : Nat) : Nat × Nat :=
  let e := k % 63
  (if e < p then e else e + 1, 756 * 2 ^ 20 + (k / 63) * 4096)

/-- Physical place of a device address, once sparing is taken into account (R97, R113). -/
def State.hbmPlace (s : State) (a : Nat) : Nat × Nat :=
  let p := hbmPc a
  if s.rd R.MEM_PC_STATE_state p = 2 then
    let q := sparePlace p (a / 2 ^ 18)
    (q.1, q.2 + a % 4096)
  else (p, hbmPcOff a)

/-- Number of an SRAM in event details: 0x1bii (table MEM_ event detail). -/
def sramId (block inst : Nat) : Nat := 0x1000 + 0x100 * block + inst

/-- The accounting of a memory. -/
def State.ecc (s : State) (m : Nat) : EccCount := Store.get {} s.mem.counts m

def State.setEcc (s : State) (m : Nat) (c : EccCount) : State :=
  { s with mem := { s.mem with counts := Store.put {} s.mem.counts m c } }

/-- A MEM_ event: kind, memory, address, syndrome and count in its detail bytes; uncorrectable, TCAM-lost and sparing
events also go to the always-on log (R110). -/
def State.memEvent (s : State) (m addr kind syn count : Nat) : State :=
  let d := leBytes 8 addr ++ leBytes 2 m ++ leBytes 1 kind ++ leBytes 1 syn ++ leBytes 4 count
  let code := Config.eventCode 0x11 kind
  let s := s.event 0x11 0 code d
  if kind = 2 ∨ kind = 4 ∨ kind = 5 then s.logEvent 0x11 0 code d else s

/-- Block code whose counter set counts the errors of a memory (R99; 19_counters_telemetry.md PMC_ECC_CNT). -/
def memBlock (m : Nat) : Nat := if m < 64 then 0x11 else (m - 0x1000) / 0x100

/-- A corrected error in memory `m` (R99, R108). -/
def State.corrected (s : State) (m addr syn : Nat) : State :=
  let s := if m < 64 then s.sat R.MEM_PC_STATE_ce 1 m else s
  let s := s.sat R.PMC_ECC_CNT_ce 1 (memBlock m)
  let c := s.ecc m
  let c' := { c with ce := c.ce + 1 }
  let hit := !c.raised && c'.ce ≥ s.rd R.MEM_ERR_CFG_ce_thresh
  let s := s.setEcc m { c' with raised := c.raised || hit }
  let s := if hit then s.memEvent m addr 1 syn c'.ce else s
  if s.on R.MEM_ERR_CFG_ce_each then s.memEvent m addr 7 syn c'.ce else s

/-- An uncorrectable error in memory `m`: counted, and one event, at most 1,000 in a second for a memory (R99, R109). -/
def State.uncorrectable (s : State) (m addr syn : Nat) : State :=
  let s := if m < 64 then s.sat R.MEM_PC_STATE_ue 1 m else s
  let s := s.sat R.PMC_ECC_CNT_ue 1 (memBlock m)
  let c := s.ecc m
  let now := ftSec s.time.ft
  let c := if c.sec = now then c else { c with sec := now, inSec := 0 }
  if c.inSec < 1000 then
    (s.setEcc m { c with inSec := c.inSec + 1, supp := 0 }).memEvent m addr 2 syn c.supp
  else s.setEcc m { c with supp := c.supp + 1 }

/-- The word at index `w` reads as uncorrectable: poisoned, or in a fenced pseudo-channel (R100, R115). -/
def State.wordBad (s : State) (w : Nat) : Bool :=
  Store.get false s.mem.bad w || s.rd R.MEM_PC_STATE_state (hbmPc (8 * w)) == 3

def State.markWord (s : State) (w : Nat) (b : Bool) : State :=
  { s with mem := { s.mem with bad := Store.put false s.mem.bad w b } }

/-- The indices of the 8-byte words that the bytes [a, a + n) touch. -/
def wordsOf (a n : Nat) : List Nat :=
  if n = 0 then [] else (List.range ((a + n - 1) / 8 - a / 8 + 1)).map (· + a / 8)

/-- Every uncorrectable word among `ws` is counted as it is read (R99). -/
def State.readWords (s : State) : List Nat → State
  | [] => s
  | w :: ws => (if s.wordBad w then s.uncorrectable (hbmPc (8 * w)) (8 * w) 0 else s).readWords ws

/-- An access at or above the usable limit is refused, counted and raises an event (R98). -/
def State.rangeRefusal (s : State) (a : Nat) : State :=
  let s := { s with mem := { s.mem with rangeRefused := s.mem.rangeRefused + 1 } }
  s.event 0x11 0 (Config.eventCode 0x11 0) (leBytes 8 a ++ List.replicate 8 0)

/-- What an HBM read gives: the bytes, whether they are poisoned, a status, and the state with the errors counted. -/
structure HbmRead where
  data : List Byte
  bad : Bool
  status : Nat
  next : State

/-- Read `n` bytes of HBM (R98-R100). -/
def State.hbmRead (s : State) (a n : Nat) : HbmRead :=
  if s.hbmLimit < a + n then
    { data := List.replicate n 0xFF, bad := false, status := St.mem_range, next := s.rangeRefusal a }
  else
    let ws := wordsOf a n
    let bad := ws.any s.wordBad
    { data := Mem.read s.mem.hbm a n, bad := bad, status := if bad then St.mem_uncorr else 0, next := s.readWords ws }

/-- Store the bytes of one word's part at `a` (R100, R102, R103): in a fenced pseudo-channel discarded; a part of a
poisoned word is dropped with an uncorrectable event; poisoned data poisons the whole word. -/
def State.hbmWriteWord (s : State) (a : Nat) (bs : List Byte) (bad : Bool) : State × Nat :=
  let w := a / 8
  if s.rd R.MEM_PC_STATE_state (hbmPc a) = 3 then (s, 0)
  else if bs.length < 8 ∧ Store.get false s.mem.bad w then
    (s.uncorrectable (hbmPc a) (8 * w) 0, St.mem_uncorr)
  else
    let s := { s with mem := { s.mem with hbm := Mem.write s.mem.hbm a bs } }
    (s.markWord w bad, 0)

/-- Write bytes word by word in address order; the status is that of the first word that failed. -/
def State.hbmWriteAux (bad : Bool) : Nat → State → Nat → List Byte → Nat → State × Nat
  | 0, s, _, _, st => (s, st)
  | n + 1, s, a, bs, st =>
    if bs.isEmpty then (s, st)
    else
      let k := 8 - a % 8
      let r := s.hbmWriteWord a (bs.take k) bad
      State.hbmWriteAux bad n r.1 (a + k) (bs.drop k) (if st = 0 then r.2 else st)

/-- Write a byte string to HBM: refused as a whole at or above the usable limit (R98). -/
def State.hbmWrite (s : State) (a : Nat) (bs : List Byte) (bad : Bool := false) : State × Nat :=
  if s.hbmLimit < a + bs.length then (s.rangeRefusal a, St.mem_range)
  else State.hbmWriteAux bad (bs.length + 1) s a bs 0

/-- Zero a range of HBM and its poison marks (the fill R104, page clearing 06_slices.md R176). -/
def State.hbmZero (s : State) (lo hi : Nat) : State :=
  { s with mem := { s.mem with hbm := Mem.zero s.mem.hbm lo hi, bad := Store.clear s.mem.bad (lo / 8) (hi / 8) } }

/-- Record what an access answers. -/
def State.memAnswer (s : State) (data : List Byte) (bad : Bool) (status : Nat) : State :=
  { s with mem := { s.mem with ansData := data, ansBad := bad, ansStatus := status } }

/-- What the decoder found in the words of an access besides stored poison (R99). -/
def State.eccFound (s : State) (m addr : Nat) (f : EccFind) : State :=
  match f with
  | .good => s
  | .single syn => s.corrected m addr syn
  | .double syn => s.uncorrectable m addr syn

/-- One access to HBM (R98-R103). An uncorrectable find leaves the first word touched poisoned. -/
def State.hbmAccess (s : State) (addr : Nat) (op : MemOp) (f : EccFind) : State :=
  match op with
  | .read n =>
    if s.hbmLimit < addr + n then
      let r := s.hbmRead addr n
      r.next.memAnswer r.data r.bad r.status
    else
      let s := match f with
        | .double _ => if Store.get false s.mem.bad (addr / 8) then s else (s.eccFound (hbmPc addr) addr f).markWord (addr / 8) true
        | _ => s.eccFound (hbmPc addr) addr f
      let ws := wordsOf addr n
      let bad := ws.any s.wordBad
      let s := match f with
        | .double _ => s.readWords (ws.drop 1)
        | _ => s.readWords ws
      s.memAnswer (Mem.read s.mem.hbm addr n) bad (if bad then St.mem_uncorr else 0)
  | .write bs bad =>
    let partialWord := addr % 8 ≠ 0 ∨ bs.length % 8 ≠ 0
    let s := if partialWord ∧ addr + bs.length ≤ s.hbmLimit then
        (match f with
         | .double _ => s.markWord (addr / 8) true
         | .single syn => s.corrected (hbmPc addr) addr syn
         | .good => s)
      else s
    let r := s.hbmWrite addr bs bad
    r.1.memAnswer [] false r.2

/-- A memory access (R102): to HBM at a device address, or to an SRAM of the inventory, whose contents are the state
of its block and whose errors are accounted for here. -/
def State.memAccess (s : State) (m : MemName) (addr : Nat) (op : MemOp) (f : EccFind) : State :=
  match m with
  | .hbm => s.hbmAccess addr op f
  | .sram b i =>
    let s := s.eccFound (sramId b i) addr f
    let bad := match f with
      | .double _ => true
      | _ => false
    s.memAnswer [] bad (if bad then St.mem_uncorr else 0)

/-- The corrected-error window ends and every count restarts (R108). -/
def State.ceWindow (s : State) : State :=
  let s := s.runTo (s.mem.windowAt + max (s.rd R.MEM_ERR_CFG_ce_window_ms) 1 * unitsPerMs)
  let cs := s.mem.counts.map (fun p => (p.1, { p.2 with ce := 0, raised := false }))
  { s with mem := { s.mem with counts := cs.filter (fun p => p.2 != ({} : EccCount)), windowAt := s.time.ft } }

/-- The patrol scrubber reads one word (R99): it corrects, counts, and never changes good data. -/
def State.patrolRead (s : State) (m : MemName) (word : Nat) (f : EccFind) : State :=
  if s.on R.MEM_PATROL_CFG_enable then
    match m with
    | .hbm =>
      if s.hbmLimit ≤ 8 * word then s
      else
        let p := hbmPc (8 * word)
        if s.wordBad word then s.uncorrectable p (8 * word) 0
        else match f with
          | .double syn => (s.uncorrectable p (8 * word) syn).markWord word true
          | _ => s.eccFound p (8 * word) f
    | .sram b i => s.eccFound (sramId b i) word f
  else s

/-- A write of MEM_SCRUB_CMD.go (R106, R107). -/
def State.scrubGo (s : State) : State :=
  if s.on R.MEM_SCRUB_STATUS_busy then s.wr R.MEM_SCRUB_STATUS_status St.scrub_busy
  else
    let base := s.rd R.MEM_SCRUB_BASE_value
    let len := s.rd R.MEM_SCRUB_LEN_value
    if base % 4096 ≠ 0 ∨ len % 4096 ≠ 0 ∨ s.hbmLimit < base + len then s.wr R.MEM_SCRUB_STATUS_status St.scrub_bad_range
    else
      let s := s.raise R.MEM_SCRUB_STATUS_busy
      let c : Scrub :=
        { base := base, len := len, recAddr := s.rd R.MEM_SCRUB_REC_value, start := s.now64, mode := s.rd R.MEM_SCRUB_CMD_mode }
      { s with mem := { s.mem with scrub := some c } }

/-- Account for the errors that a scrub finds in its range. -/
def State.scrubFinds (s : State) : List (Nat × EccFind) → State
  | [] => s
  | (a, f) :: fs =>
    let s := s.eccFound (hbmPc a) a f
    (match f with
     | .double _ => s.markWord (a / 8) true
     | _ => s).scrubFinds fs

/-- A scrub ends after `done` bytes: the finds of the decoder and the stored poison are counted, the summary record is
written, a scrub-done event is raised (R107). -/
def State.scrubEnd (s : State) (done : Nat) (finds : List (Nat × EccFind)) (status : Nat) : State :=
  match s.mem.scrub with
  | none => s
  | some c =>
    let done := min done c.len
    let inside := fun a => c.base ≤ a && a < c.base + done
    let finds := finds.filter (fun p => inside p.1 && !Store.get false s.mem.bad (p.1 / 8))
    let old := (s.mem.bad.filter (fun p => p.2 && inside (8 * p.1))).map (8 * ·.1)
    let s := (s.scrubFinds finds).readWords (old.map (· / 8))
    let ces := (finds.filter (fun p => match p.2 with | .single _ => true | _ => false)).length
    let ueAt := (finds.filter (fun p => match p.2 with | .double _ => true | _ => false)).map (·.1 / 8 * 8) ++ old
    let first := ueAt.foldl min (2 ^ 64 - 1)
    let rcd := leBytes 8 c.base ++ leBytes 8 done ++ leBytes 8 c.start ++ leBytes 8 s.now64 ++ leBytes 8 (done / 8)
      ++ leBytes 4 ces ++ leBytes 4 ueAt.length ++ leBytes 8 first ++ leBytes 2 status ++ leBytes 6 0
    let s := (s.hbmWrite c.recAddr rcd).1
    let s := (s.wr R.MEM_SCRUB_STATUS_busy 0).wr R.MEM_SCRUB_STATUS_status status
    let s := { s with mem := { s.mem with scrub := none } }
    s.memEvent (hbmPc c.base) c.base 6 0 (ces + ueAt.length)

/-- A sparing command for pseudo-channel `p` (R113-R115). -/
def State.spareGo (s : State) (p : Nat) : State :=
  if s.on R.MEM_SPARE_STATUS_busy then s
  else
    let s := s.wr R.MEM_SPARE_STATUS_pc p
    if !s.on R.MEM_SPARE_CFG_spare_en || s.rd R.MEM_INFO_spared ≠ 0 then
      let s := if s.rd R.MEM_PC_STATE_state p = 3 then s else s.wr R.MEM_INFO_fenced (s.rd R.MEM_INFO_fenced + 1)
      (s.wr R.MEM_PC_STATE_state 3 p).wr R.MEM_SPARE_STATUS_status St.spare_none
    else (s.raise R.MEM_SPARE_STATUS_busy).wr R.MEM_PC_STATE_state 1 p

/-- The copy completes and the pseudo-channel is spared (R113). -/
def State.spareDone (s : State) : State :=
  if s.on R.MEM_SPARE_STATUS_busy then
    let p := s.rd R.MEM_SPARE_STATUS_pc
    let s := (s.wr R.MEM_SPARE_STATUS_busy 0).wr R.MEM_SPARE_STATUS_status 0
    let s := (s.wr R.MEM_PC_STATE_state 2 p).wr R.MEM_INFO_spared 1
    s.memEvent p 0 5 0 0
  else s

/-- A memory access (R102). -/
def execMemAccess (m : MemName) (addr : Nat) (op : MemOp) (found : EccFind) (s : State) : Out :=
  s.whenMain (·.memAccess m addr op found)

/-- The corrected-error window ends (R108). -/
def execCeWindow (s : State) : Out := s.whenMain State.ceWindow

/-- One read of the patrol scrubber (R99). -/
def execPatrolRead (m : MemName) (word : Nat) (found : EccFind) (s : State) : Out := s.whenMain (·.patrolRead m word found)

/-- The running range scrub reaches the end of its range (R107). -/
def execScrubDone (finds : List (Nat × EccFind)) (s : State) : Out :=
  s.whenMain (fun s => s.scrubEnd (2 ^ 64) finds 0)

/-- The sparing copy completes (R113). -/
def execSpareDone (s : State) : Out := s.whenMain State.spareDone

end Sys2Proof.Machine
end

