-- ==== Sys2Proof/Machine/Boot.lean ====
section
/-! DEFINITION. Start-up, secure boot and image slots (03_boot_images.md), and the pins that start and stop the
domains (23_electrical_package.md R550, R551, R554). -/

namespace Sys2Proof.Machine

/-! ### Flash slots and images -/

/-- The states that a slot's state word decodes to (R72). -/
inductive SlotState where
  | empty | written | valid | retired
  deriving DecidableEq, Repr

/-- A state counts as reached only when its byte and every earlier byte read exactly 0x00 (R72). -/
def slotState (w : List Byte) : SlotState :=
  match w with
  | b0 :: b1 :: b2 :: _ =>
    if b0 ≠ 0 then .empty else if b1 ≠ 0 then .written else if b2 ≠ 0 then .valid else .retired
  | _ => .empty

def wordOf : SlotState → List Byte
  | .empty => [0xFF, 0xFF, 0xFF, 0xFF]
  | .written => [0, 0xFF, 0xFF, 0xFF]
  | .valid => [0, 0, 0xFF, 0xFF]
  | .retired => [0, 0, 0, 0xFF]

/-- Fields of an image header (table Image header). -/
def hdrSeq (h : List Byte) : Nat := fieldLE h 0x10 4
def hdrSecver (h : List Byte) : Nat := fieldLE h 0x14 2
def hdrSegCount (h : List Byte) : Nat := fieldLE h 0x16 2
def hdrBodyLen (h : List Byte) : Nat := fieldLE h 0x18 4
def hdrCommitAfter (h : List Byte) : Nat := fieldLE h 0x1C 4
def hdrKeyIndex (h : List Byte) : Nat := fieldLE h 0x28 1
def hdrEntry (h : List Byte) : Nat := fieldLE h 0x2C 4

/-- Body offset, length and destination of segment `n`. -/
def hdrSeg (h : List Byte) (n : Nat) : Nat × Nat × Nat :=
  (fieldLE h (0x30 + 16 * n) 4, fieldLE h (0x34 + 16 * n) 4, fieldLE h (0x38 + 16 * n) 8)

/-- Two ranges do not overlap. -/
def disjoint (a n b m : Nat) : Bool := a + n ≤ b || b + m ≤ a || n == 0 || m == 0

/-- The header is well-formed (R73). Segment 0's destination is in the shared L2, the others' in HBM. -/
def hdrWellFormed (h : List Byte) : Bool :=
  let n := hdrSegCount h
  let segs := (List.range n).map (fun i => (i, hdrSeg h i))
  let bl := hdrBodyLen h
  let s0 := hdrSeg h 0
  h.take 4 == [0x4D, 0x56, 0x54, 0x49] && fieldLE h 4 2 == 1 && fieldLE h 6 2 == 0x400 && fieldLE h 8 2 == 0x6408
    && fieldLE h 0xA 2 == 0xA2 && 1 ≤ n && n ≤ 16 && bl % 4096 == 0 && bl ≤ 62914560
    && segs.all (fun p => p.2.1 + p.2.2.1 ≤ bl)
    && segs.all (fun p => segs.all (fun q => p.1 ≤ q.1 ||
        (disjoint p.2.1 p.2.2.1 q.2.1 q.2.2.1 && (q.1 == 0 || disjoint p.2.2.2 p.2.2.1 q.2.2.2 q.2.2.1))))
    && s0.2.1 ≤ 4194304 && s0.2.2 + s0.2.1 ≤ 16777216 && hdrEntry h < s0.2.1 && hdrSecver h ≤ 512

/-- Slot 0 is A, slot 1 is B. -/
def State.slot (s : State) (i : Nat) : Slot := if i = 0 then s.sec.slotA else s.sec.slotB

def State.setSlot (s : State) (i : Nat) (x : Slot) : State :=
  if i = 0 then { s with sec := { s.sec with slotA := x } } else { s with sec := { s.sec with slotB := x } }

/-- Row `k` of the key hashes was programmed (R95). -/
def Otp.present (o : Otp) (k : Nat) : Bool := !(o.rows.getD k []).isEmpty

def State.slotSt (s : State) (i : Nat) : SlotState := slotState (s.slot i).word

def State.program (s : State) (i : Nat) (st : SlotState) : State := s.setSlot i { s.slot i with word := wordOf st }

/-- Tried bit of a slot (SEC_BOOT_REC). -/
def State.tried (s : State) (i : Nat) : Bool := if i = 0 then s.on R.SEC_BOOT_REC_a_tried else s.on R.SEC_BOOT_REC_b_tried

def State.clearTried (s : State) : State := (s.wr R.SEC_BOOT_REC_a_tried 0).wr R.SEC_BOOT_REC_b_tried 0

/-- A slot is a boot candidate (R74). -/
def State.candidate (s : State) (i : Nat) : Bool :=
  s.slotSt i == .valid && hdrWellFormed (s.slot i).hdr && s.otp.count ≤ hdrSecver (s.slot i).hdr && !s.tried i

/-- Start booting slot `i`: tried, loading, image information (steps 4 and 5 of the ROM flow). -/
def State.bootSlot (s : State) (i : Nat) : State :=
  let h := (s.slot i).hdr
  let s := if i = 0 then s.raise R.SEC_BOOT_REC_a_tried else s.raise R.SEC_BOOT_REC_b_tried
  let s := (((s.wr R.SEC_BOOT_STATUS_slot i).wr R.SEC_BOOT_STATUS_state 1).wr R.SEC_IMAGE_INFO_seq (hdrSeq h)).wr
    R.SEC_IMAGE_INFO_secver (hdrSecver h)
  let s := s.wr R.SEC_IMAGE_INFO_key_index (hdrKeyIndex h)
  { s with sec := { s.sec with fillDone := false } }

/-- The selection rule (R75, R82): the candidate with the higher seq, slot A on equal seq with dual_equal and a SEC_
event; without a candidate, recovery. -/
def State.selectBoot (s : State) : State :=
  let a := s.candidate 0
  let b := s.candidate 1
  let qa := hdrSeq s.sec.slotA.hdr
  let qb := hdrSeq s.sec.slotB.hdr
  if a && b then
    if qa = qb then
      let s := (s.raise R.SEC_BOOT_STATUS_dual_equal).logEvent 3 0 (Config.eventCode 3 1) (Config.eventDetail 3 1)
      ({ s with sec := { s.sec with dualEvent := true } } : State).bootSlot 0
    else if qb < qa then s.bootSlot 0 else s.bootSlot 1
  else if a then s.bootSlot 0
  else if b then s.bootSlot 1
  else s.wr R.SEC_BOOT_STATUS_state 4

/-- The ROM flow up to the choice of a slot (R77; steps 1 to 4). -/
def State.romFlow (s : State) (romOk : Bool) : State :=
  let s := s.clearTried
  if romOk then s.selectBoot else s.wr R.SEC_BOOT_STATUS_state 5

/-! ### Power and pins -/

/-- The island starts from its own rail and resets its log and cause registers (R70); only flash and fuses keep their
contents. AON_RST# is still low. -/
def State.powerOn (s : State) : State :=
  { State.reset with
    sec := { slotA := s.sec.slotA, slotB := s.sec.slotB }
    otp := s.otp
    hostMem := s.hostMem
    hostBad := s.hostBad
    toHost := s.toHost
    wire := s.wire
    prt := s.pinLanes
    isl := { up := false, toBmc := s.isl.toBmc }
    free := s.free
    pending := s.pending }

/-- AON_RST# rises: the straps are sampled and the island runs (R550, R554). A MAIN_PG that came earlier starts the
main domain now (R551). -/
def State.aonReset (s : State) (addr pkg : Nat) : State :=
  if s.isl.up then s
  else
    let a := if addr < 8 ∨ 0x78 ≤ addr then 0x4A else addr
    let s := (s.wr R.MGT_INFO_smbus_addr a).wr R.MGT_NCSI_STATUS_package pkg
    let s := { s with isl := { s.isl with up := true } }
    if s.isl.mainPg then s.romFlow true else s

/-- MAIN_PG rises: the straps of the PCIe controllers are sampled and the main domain leaves reset when the island runs
and does not hold it (R551, R554). -/
def State.mainPowerGood (s : State) (bif0 bif1 romOk : Bool) : State :=
  if s.isl.mainPg then s
  else
    let s : State := { s with isl := { s.isl with mainPg := true, straps := b2n bif0 + 2 * b2n bif1 } }
    let s := s.strapHif
    if s.isl.up && s.isl.hold.isNone then s.romFlow romOk else s

/-- MAIN_PG low for 1 us or more resets the main domain at once (R551); it stays in reset until MAIN_PG rises. -/
def State.mainPgLoss (s : State) : State :=
  if s.isl.mainPg then
    let s := s.clearMain.recordCause 0 0
    { s with isl := { s.isl with mainPg := false, hold := none } }
  else s

/-- The island releases the main domain to the security processor, 10 ms after a reset of cause 3 or 4 or a supply
reset (R521). A reset held for a thermal trip ends by its own rule (20_health_test.md R508). -/
def State.resetRelease (s : State) (romOk : Bool) : State :=
  match s.isl.hold with
  | some h =>
    if h.cause = 2 then s
    else
      let s := s.runIsland (h.since + 10 * unitsPerMs)
      let s := { s with isl := { s.isl with hold := none } }
      if s.isl.mainPg then s.romFlow romOk else s
  | none => s

/-! ### The boot attempt -/

/-- Every block of the main domain but the security processor is reset (R81). -/
def State.resetOthers (s : State) : State :=
  let t := s.clearMain
  let t := { t with
    regs := s.regs.filter (fun p => keptKey p.1 || (0x200000 * 8 ≤ p.1 && p.1 < 0x300000 * 8))
    sec := { s.sec with mainUp := false, fillDone := false, dualEvent := false } }
  t.strapHif.wr R.SEC_LOAD_PROGRESS_seg_done 0

/-- A boot attempt fails (R81): status and count recorded, a SEC_ event to the log, and the selection rule again. -/
def State.attemptFail (s : State) (status : Nat) : State :=
  let s := (s.resetOthers.wr R.SEC_BOOT_STATUS_last_status status).sat R.SEC_BOOT_REC_fail_count
  (s.logEvent 3 0 (Config.eventCode 3 2) (Config.eventDetail 3 2)).selectBoot

/-- The fill pass ends (R104, R105, 20_health_test.md R517): HBM and every SRAM read zero. A write error fails the
attempt; a failed crossbar or bank test puts the security processor into fault. -/
def State.fillEnd (s : State) (ok : Bool) (us bankFail : Nat) (xbarFail : Bool) : State :=
  if s.rd R.SEC_BOOT_STATUS_state ≠ 1 ∨ s.sec.fillDone then s
  else if bankFail % 2 ^ 16 ≠ 0 || xbarFail then
    let s := (s.wr R.HLT_BOOT_TEST_bank_fail bankFail).wr R.HLT_BOOT_TEST_xbar_fail (b2n xbarFail)
    (s.wr R.SEC_BOOT_STATUS_last_status St.hlt_boot_test).wr R.SEC_BOOT_STATUS_state 5
  else if ok then
    let s := ((s.raise R.MEM_FILL_STATUS_done).wr R.MEM_FILL_STATUS_fill_us (min us 0xFFFF)).raise R.HLT_BOOT_TEST_done
    { s with mem := { s.mem with hbm := [], bad := [] }, sec := { s.sec with fillDone := true } }
  else (s.attemptFail (Config.fillFailStatus 0)).raise R.MEM_FILL_STATUS_fill_err

/-- Copy `n` bytes of a slot's body; a body byte that is not listed is erased. -/
def copyBody (body : List Host.Cell) (src : Nat) : Nat → List Byte
  | 0 => []
  | n + 1 => Store.get 0xFF body src :: copyBody body (src + 1) n

/-- Segment `n` finishes loading, in segment-table order; segment 0 goes to the shared L2 before the release, the
others to HBM after it (R79, steps 5 and 7). -/
def State.segmentLoaded (s : State) (n : Nat) : State :=
  let st := s.rd R.SEC_BOOT_STATUS_state
  let sl := s.slot (s.rd R.SEC_BOOT_STATUS_slot)
  let g := hdrSeg sl.hdr n
  let dn := s.rd R.SEC_LOAD_PROGRESS_seg_done
  let inOrder := dn == 2 ^ n - 1 && n < hdrSegCount sl.hdr
  if (st = 1 ∧ n = 0 ∨ st = 2 ∧ n ≠ 0) ∧ inOrder then
    let s := s.wr R.SEC_LOAD_PROGRESS_seg_done (dn + 2 ^ n)
    let bs := copyBody sl.body g.1 g.2.1
    if n = 0 then { s with l2 := Mem.write s.l2 g.2.2 bs } else (s.hbmWrite g.2.2 bs).1
  else s

/-- Every segment of the image is loaded. -/
def State.allLoaded (s : State) : Bool :=
  s.rd R.SEC_LOAD_PROGRESS_seg_done == 2 ^ hdrSegCount (s.slot (s.rd R.SEC_BOOT_STATUS_slot)).hdr - 1

/-- Release of the main domain with the cuff closed (step 6, R70): FT restarts at 0 in state unset (R47). -/
def State.release (s : State) : State :=
  { (s.wr R.SEC_BOOT_STATUS_state 2) with time := {}, sec := { s.sec with mainUp := true } }

/-- The other slot of the running image is retired when it is VALID with a lower seq (R76). -/
def State.retireOther (s : State) : State :=
  let i := s.rd R.SEC_BOOT_STATUS_slot
  let o := 1 - i
  if s.slotSt o = .valid ∧ hdrSeq (s.slot o).hdr < hdrSeq (s.slot i).hdr then
    (s.program o .retired).raise R.SEC_BOOT_STATUS_retired_other
  else s

/-- The tag matches (R80): every hold releases and every RWL field locks in one core clock, the tried bits clear, SEC_
events are written, the key store is released (18_cipher_vault.md R476), the other slot is retired (R76). -/
def State.openCuff (s : State) : State :=
  if s.rd R.SEC_BOOT_STATUS_state = 2 ∧ s.allLoaded then
    let s := ((s.raise R.SEC_BOOT_STATUS_cuff_open).wr R.SEC_BOOT_STATUS_state 3).clearTried
    let s := s.eventBoth 3 0 (Config.eventCode 3 3) (Config.eventDetail 3 3)
    let s := if s.sec.dualEvent then s.event 3 0 (Config.eventCode 3 1) (Config.eventDetail 3 1) else s
    let s := { s with sec := { s.sec with openedAt := s.time.ft, dualEvent := false } }
    s.retireOther.raise R.VLT_STATUS_key_ready
  else s

/-! ### Updates -/

/-- The 4 KiB buffer of a mailbox as bytes. -/
def State.mboxBytes (s : State) (m n : Nat) : List Byte :=
  ((List.range ((n + 7) / 8)).flatMap (fun j => leBytes 8 (s.rd R.SEC_MBOX_BUF_data m j))).take n

/-- Put bytes into a mailbox buffer from its first byte on, whole 8-byte words. -/
def State.setMbox (s : State) (m : Nat) : Nat → List Byte → State
  | j, b0 :: b1 :: b2 :: b3 :: b4 :: b5 :: b6 :: b7 :: bs =>
    (s.wr R.SEC_MBOX_BUF_data (leNat [b0, b1, b2, b3, b4, b5, b6, b7]) m j).setMbox m (j + 1) bs
  | _, _ => s

/-- A mailbox command completes. -/
def State.mboxDone (s : State) (m status : Nat) : State := s.wr R.SEC_MBOX_STATUS_status status m

def State.endUpd (s : State) : State := { s with sec := { s.sec with upd := none } }

/-- The target of an update (R83, R85). -/
def State.updTarget (s : State) : Nat :=
  if s.rd R.SEC_BOOT_STATUS_state = 4 then
    if s.slotSt 0 ≠ .valid then 0
    else if s.slotSt 1 ≠ .valid then 1
    else if hdrSeq s.sec.slotA.hdr < hdrSeq s.sec.slotB.hdr then 0
    else 1
  else 1 - s.rd R.SEC_BOOT_STATUS_slot

/-- The checks of UPD_BEGIN (R84) in their order; 0 when all hold. -/
def State.updCheck (s : State) (h : List Byte) : Nat :=
  let k := hdrKeyIndex h
  let pk := sliceBytes h 0x160 96
  if !hdrWellFormed h then St.img_header
  else if 4 ≤ k || !s.otp.present k || bit s.otp.revoked k then St.img_key
  else if Config.sha384 pk ≠ s.otp.rows.getD k [] ∨ Config.ecdsaVerify pk (h.take 0x1C0) (sliceBytes h 0x1C0 96) = false
  then St.img_sig
  else if hdrSecver h < s.otp.count then St.img_secver
  else if s.rd R.SEC_BOOT_STATUS_state ≠ 4 ∧ hdrSeq h ≤ s.rd R.SEC_IMAGE_INFO_seq then St.img_seq
  else 0

/-- UPD_BEGIN (R84-R86 step 1, R88). `flashOk` says whether the flash erases and programs. -/
def State.updBegin (s : State) (m : Nat) (flashOk : Bool) : State :=
  if s.sec.upd.isSome then s.mboxDone m St.upd_busy
  else
    let h := s.mboxBytes m 1024
    let st := s.updCheck h
    if st ≠ 0 then s.mboxDone m st
    else
      let t := s.updTarget
      let s := if s.slotSt t = .empty then s else s.program t .retired
      if flashOk then
        let s := s.setSlot t erasedSlot
        let u : UpdSession := { mbox := m, target := t, hdr := h, last := s.time.ft }
        ({ s with sec := { s.sec with upd := some u } } : State).mboxDone m 0
      else s.mboxDone m St.flash_fail

/-- Put a chunk's bytes into a slot's body; a byte that reads as erased is not listed. -/
def putBody (body : List Host.Cell) (a : Nat) : List Byte → List Host.Cell
  | [] => body
  | b :: bs => putBody (Store.put 0xFF body a b) (a + 1) bs

/-- UPD_DATA (R96, R86 step 2). -/
def State.updData (s : State) (m : Nat) (flashOk : Bool) : State :=
  match s.sec.upd with
  | none => s.mboxDone m St.upd_order
  | some u =>
    let off := s.rd R.SEC_MBOX_OFF_offset m
    if u.mbox ≠ m then s.mboxDone m St.upd_order
    else if off ≠ u.got ∨ s.rd R.SEC_MBOX_CMD_length m ≠ 4096 ∨ hdrBodyLen u.hdr < off + 4096 then
      s.endUpd.mboxDone m St.upd_order
    else if flashOk then
      let sl := s.slot u.target
      let s := s.setSlot u.target { sl with body := putBody sl.body off (s.mboxBytes m 4096) }
      ({ s with sec := { s.sec with upd := some { u with got := u.got + 4096, last := s.time.ft } } } : State).mboxDone m 0
    else s.endUpd.mboxDone m St.flash_fail

/-- The header with the computed tag in its tag field (R86 step 3). -/
def taggedHeader (h tag : List Byte) : List Byte := h.take 0x220 ++ (tag ++ List.replicate 48 0).take 48 ++ h.drop 0x250

/-- UPD_END (R86 steps 2 to 5, R82): digest, tagged header, WRITTEN, read-back, VALID. `readOk` says whether the image
reads back as written. -/
def State.updEnd (s : State) (m : Nat) (readOk : Bool) : State :=
  match s.sec.upd with
  | none => s.mboxDone m St.upd_order
  | some u =>
    if u.mbox ≠ m ∨ u.got ≠ hdrBodyLen u.hdr then s.mboxDone m St.upd_order
    else
      let sl := s.slot u.target
      if Config.sha384Body (hdrBodyLen u.hdr) sl.body ≠ sliceBytes u.hdr 0x130 48 then s.endUpd.mboxDone m St.img_digest
      else
        let h := taggedHeader u.hdr (Config.imageTag (u.hdr.take 0x220) sl.body)
        let s := s.setSlot u.target { sl with hdr := h, word := wordOf .written }
        if readOk then
          let s := ((s.program u.target .valid).endUpd).mboxDone m 0
          if s.rd R.SEC_BOOT_STATUS_state = 4 then s.clearTried.selectBoot else s
        else s.endUpd.mboxDone m St.flash_fail

/-- UPD_ABORT (R88): the target's state word stays as the update order left it. -/
def State.updAbort (s : State) (m : Nat) : State := s.endUpd.mboxDone m 0

/-- A session with no command for 10 s ends as if aborted (R88). -/
def State.updTimeout (s : State) : State :=
  match s.sec.upd with
  | none => s
  | some u => ((s.runTo (u.last + 10 * unitsPerSec)).endUpd).mboxDone u.mbox St.upd_order

/-- ACTIVATE requests the main-domain reset that starts a new image (R87). -/
def State.activate (s : State) (m : Nat) : State := (s.mboxDone m 0).requestReset 3

/-! ### Fuses -/

/-- Start a fuse commit to the running image's secver (R90); `m` is the mailbox that asked for it. -/
def State.commitStart (s : State) (m : Option Nat) : State :=
  let fin := fun (s : State) => match m with
    | some m => s.mboxDone m 0
    | none => s
  if s.on R.SEC_FUSE_CTR_busy then fin s
  else
    let t := s.rd R.SEC_IMAGE_INFO_secver
    if t ≤ s.otp.count then fin s
    else
      let s := (s.wr R.SEC_FUSE_CTR_target t).raise R.SEC_FUSE_CTR_busy
      match m with
      | some m => { (s.raise R.SEC_MBOX_STATUS_busy m) with sec := { s.sec with commitMbox := some m } }
      | none => s

/-- FUSE_COMMIT (R90): accepted only while the cuff is open. -/
def State.fuseCommit (s : State) (m : Nat) : State :=
  if s.cuffOpen then s.commitStart (some m) else s.mboxDone m St.fuse_cuffed

/-- commit_after_s after the cuff opened, the automatic commit starts (R90). -/
def State.fuseDeadline (s : State) : State :=
  let c := hdrCommitAfter (s.slot (s.rd R.SEC_BOOT_STATUS_slot)).hdr
  if s.cuffOpen ∧ c ≠ 0 ∧ s.sec.autoDone = false then
    let s := s.runTo (s.sec.openedAt + c * unitsPerSec)
    ({ s with sec := { s.sec with autoDone := true } } : State).commitStart none
  else s

/-- One fuse is blown and verified, 100 us after the one before (R91); in brace the commit is deferred after it. -/
def State.fuseBlown (s : State) : State :=
  if s.on R.SEC_FUSE_CTR_busy ∧ s.on R.SEC_FUSE_CTR_deferred = false then
    let s := s.pass (100 * unitsPerUs)
    let n := s.otp.count + 1
    let s := { s with otp := { s.otp with count := n } }
    if s.rd R.SEC_FUSE_CTR_target ≤ n then
      let s := (s.wr R.SEC_FUSE_CTR_busy 0).wr R.SEC_FUSE_CTR_target 0
      match s.sec.commitMbox with
      | some m =>
        let s := (s.wr R.SEC_MBOX_STATUS_busy 0 m).mboxDone m 0
        { s with sec := { s.sec with commitMbox := none } }
      | none => s
    else if s.on R.HLT_STATUS_brace then s.raise R.SEC_FUSE_CTR_deferred
    else s
  else s

/-- SLOT_QUERY writes both state words and both headers into the mailbox buffer, in this order (R94). -/
def State.slotQuery (s : State) (m : Nat) : State :=
  (s.setMbox m 0 (s.sec.slotA.word ++ s.sec.slotB.word ++ s.sec.slotA.hdr ++ s.sec.slotB.hdr)).mboxDone m 0

/-- KEY_REVOKE (R95). -/
def State.keyRevoke (s : State) (m row : Nat) : State :=
  let live := (List.range 4).filter (fun k => s.otp.present k && !bit s.otp.revoked k)
  if 4 ≤ row || !s.otp.present row then s.mboxDone m St.img_key
  else if (s.rd R.SEC_BOOT_STATUS_state = 3 ∨ s.rd R.SEC_BOOT_STATUS_state = 2) ∧ s.rd R.SEC_IMAGE_INFO_key_index = row
  then s.mboxDone m St.key_in_use
  else if live = [row] then s.mboxDone m St.key_in_use
  else ({ s with otp := { s.otp with revoked := setBit s.otp.revoked row true } } : State).mboxDone m 0

/-- A mailbox takes commands while it is not busy, in boot states 2 and 3; in recovery only the management mailbox does
(R82). -/
def State.mboxTakes (s : State) (m : Nat) : Bool :=
  let st := s.rd R.SEC_BOOT_STATUS_state
  !s.on R.SEC_MBOX_STATUS_busy m && (st == 2 || st == 3 || (st == 4 && m == 1))

/-- A write of SEC_MBOX_CMD[m]: ignored while the mailbox takes no command; go executes the opcode. An opcode the table does not list is reserved and does nothing. -/
def State.mboxCmd (s : State) (m v : Nat) : State :=
  let s := s.putReg false R.reg_SEC_MBOX_CMD m 0 0 v
  if bit v 31 && s.mboxTakes m then
    match bits v 7 0 with
    | 1 => s.updBegin m true
    | 2 => s.updData m true
    | 3 => s.updEnd m true
    | 4 => s.updAbort m
    | 5 => s.activate m
    | 6 => s.fuseCommit m
    | 7 => s.slotQuery m
    | 8 => s.keyRevoke m (bits v 15 8)
    | _ => s
  else s

/-! ### Power loss -/

/-- What the loss leaves in the slots (R89, table Power-loss cases). -/
def State.lossSlots (s : State) (p : LossPoint) : State :=
  let t := match s.sec.upd with
    | some u => u.target
    | none => s.updTarget
  match p with
  | .idle => s
  | .step1 erased => if erased then s.program t .empty else if s.slotSt t = .empty then s else s.program t .retired
  | .program => if s.sec.upd.isSome then s.program t .empty else s
  | .written done => if s.sec.upd.isSome then s.program t (if done then .written else .empty) else s
  | .readBack => if s.sec.upd.isSome then s.program t .written else s
  | .valid done => if s.sec.upd.isSome then s.program t (if done then .valid else .written) else s
  | .retire done => if done then s.retireOther else s

/-- Power to the device is lost: the slots as R89 states, the fuse counter as blown so far (R92), everything volatile
gone. -/
def State.powerLoss (s : State) (p : LossPoint) : State := (s.lossSlots p).powerOn

def execIslandPowerOn (s : State) : Out := s.done s.powerOn
def execAonReset (addr : Fin 128) (pkg : Fin 8) (s : State) : Out := s.done (s.aonReset addr pkg)
def execMainPowerGood (bif0 bif1 romOk : Bool) (s : State) : Out := s.done (s.mainPowerGood bif0 bif1 romOk)
def execFillDone (ok : Bool) (us bankFail : Nat) (xbarFail : Bool) (s : State) : Out := s.done (s.fillEnd ok us bankFail xbarFail)
def execSegmentLoaded (n : Fin 16) (s : State) : Out := s.done (s.segmentLoaded n)
def execBootAttemptFail (status : Nat) (s : State) : Out := s.done (if s.rd R.SEC_BOOT_STATUS_state = 1 ∨ s.rd R.SEC_BOOT_STATUS_state = 2 then s.attemptFail status else s)
def execUpdTimeout (s : State) : Out := s.done s.updTimeout
def execFuseDeadline (s : State) : Out := s.done s.fuseDeadline
def execFuseBlown (s : State) : Out := s.done s.fuseBlown
def execMainResetRelease (romOk : Bool) (s : State) : Out := s.done (s.resetRelease romOk)
def execMainPgLoss (s : State) : Out := s.done s.mainPgLoss
def execPowerLoss (at_ : LossPoint) (s : State) : Out := s.done (s.powerLoss at_)

end Sys2Proof.Machine
end

