-- ==== Sys2Proof/Machine/Slices.lean ====
section
/-! DEFINITION. Slices: bindings, resource pools and quotas, HBM pages, generations (06_slices.md). The reset and
removal sequences, which reach into every block, are in SliceSeq.lean. -/

namespace Sys2Proof.Machine

/-- Without repeats. -/
def dedup (l : List Nat) : List Nat := l.foldl (fun a x => if a.contains x then a else a ++ [x]) []

/-- Slices with a listed register in the binding and state area, and slice 0; every other slice is FREE. -/
def State.knownSlices (s : State) : List Nat :=
  dedup (0 :: (s.regs.filter (fun p => 8 * 0x410000 ≤ p.1 && p.1 < 8 * 0x430000)).map (fun p => (p.1 / 8 - 0x410000) / 0x20))

/-- Slices with a listed quota register. -/
def State.quotaSlices (s : State) : List Nat :=
  dedup ((s.regs.filter (fun p => 8 * 0x440000 ≤ p.1 && p.1 < 8 * 0x4C0000)).map (fun p => (p.1 / 8 - 0x440000) / 0x80))

/-- Slice states (table Slice states). -/
def State.sliceState (s : State) (x : Nat) : Nat := s.rd R.SLC_STATE_state x
def State.sliceActive (s : State) (x : Nat) : Bool := s.sliceState x == 1
def State.sliceGen (s : State) (x : Nat) : Nat := s.rd R.SLC_STATE_gen x

/-- Bound function of a slice, numbered 8 × controller + physical function (R155). -/
def State.sliceFn (s : State) (x : Nat) : Option Nat :=
  if s.on R.SLC_BIND_host_en x then some (8 * s.rd R.SLC_BIND_hif x + s.rd R.SLC_BIND_pf x) else none

/-- The PASID that the slice's requests carry. -/
def State.slicePasid (s : State) (x : Nat) : Option Nat :=
  if s.on R.SLC_BIND_pasid_en x then some (s.rd R.SLC_BIND_pasid x) else none

/-- The slice bound to a socket (R156). -/
def State.sockSlice (s : State) (n : Nat) : Option Nat :=
  s.knownSlices.find? (fun x => s.sliceState x != 0 && s.on R.SLC_BIND_sock_en x && s.rd R.SLC_BIND_socket x == n)

/-! ### Pools (R163) -/

/-- Total of a pool: pool 8 follows the usable limit (table Pools). -/
def State.poolSize (s : State) (p : Nat) : Nat := if p = 8 then s.usableMib / 2 else poolTotal p

def State.inUse (s : State) (x p : Nat) : Nat := s.rd R.SLC_QUOTA_in_use x p

/-- Orphan tags (R170): tag, slice and generation of each; they wait for reads from a socket or from host memory. A slice's
tags count as orphans once its sequence has ended. -/
def State.orphans (s : State) : List (Nat × Nat × Nat) :=
  (s.socks.flatMap (fun p => p.2.rds.filterMap (fun r => match r.for_ with
    | .orphan t x g => some (t, x, g)
    | _ => none)) ++ s.hif.reads.filterMap (fun h => match h.for_ with
    | .orphan t x g => some (t, x, g)
    | _ => none)).foldl (fun a o => if a.contains o then a else a ++ [o]) []

def State.orphanTags (s : State) : Nat := (s.orphans.filter (fun o => s.sliceState o.2.1 != 2 && s.sliceState o.2.1 != 3)).length

/-- Entries held outside every slice: orphan tags (R170) and pages being cleared (R176). -/
def State.poolHeld (s : State) (p : Nat) : Nat :=
  if p = 1 then s.orphanTags else if p = 8 then s.slc.clearing.length else 0

/-- free_unres of R163. -/
def State.freeUnres (s : State) (p : Nat) : Int :=
  let used := s.quotaSlices.foldl (fun a x => a + max (s.inUse x p) (s.rd R.SLC_QUOTA_reserve x p)) 0
  (s.poolSize p : Int) - used - s.poolHeld p

/-- Status of an allocation of one entry of pool `p` to slice `x` (R163; a slice in its sequence: `slice_reset`). -/
def State.allocStatus (s : State) (x p : Nat) : Nat :=
  if s.sliceState x = 2 ∨ s.sliceState x = 3 then St.slice_reset
  else if s.rd R.SLC_QUOTA_limit x p ≤ s.inUse x p then St.quota_exceeded
  else if s.inUse x p < s.rd R.SLC_QUOTA_reserve x p ∨ 0 < s.freeUnres p then 0
  else St.pool_empty

/-- Charge one entry. -/
def State.charge (s : State) (x p : Nat) : State := s.wr R.SLC_QUOTA_in_use (s.inUse x p + 1) x p

/-- Return one entry. -/
def State.uncharge (s : State) (x p : Nat) : State := s.wr R.SLC_QUOTA_in_use (s.inUse x p - 1) x p

/-! ### HBM pages -/

def pageSize : Nat := 2 * 2 ^ 20

/-- The slice charged for an HBM page. -/
def State.pageOwner (s : State) (pg : Nat) : Option Nat :=
  match Store.get 0 s.slc.pages pg with
  | 0 => none
  | n + 1 => some n

def State.setPage (s : State) (pg : Nat) (x : Option Nat) : State :=
  { s with slc := { s.slc with pages := Store.put 0 s.slc.pages pg (match x with | some n => n + 1 | none => 0) } }

/-- Claim `n` pages from page `pg` on for a slice: pages already charged to it pass; a page charged to nobody is
charged to it when its quota of pool 8 allows (DESIGN CHOICE, log entry 7: the spec names no command that charges
pages); any other page refuses. -/
def State.claimPages (s : State) (x pg : Nat) : Nat → Option State
  | 0 => some s
  | n + 1 =>
    match s.pageOwner pg with
    | some y => if y = x then s.claimPages x (pg + 1) n else none
    | none =>
      if s.allocStatus x 8 = 0 ∧ s.slc.clearing.contains pg = false then ((s.charge x 8).setPage pg (some x)).claimPages x (pg + 1) n else none

/-- The HBM range [a, a + n) lies wholly in pages charged to slice `x`; slice 0 may name any address below the usable
limit (R161, 07_rings.md R181). -/
def State.claimHbm (s : State) (x a n : Nat) : Option State :=
  if s.hbmLimit < a + n then none
  else if x = 0 then some s
  else s.claimPages x (a / pageSize) (if n = 0 then 0 else (a + n - 1) / pageSize - a / pageSize + 1)

/-- A released page has been zeroed and returns to pool 8 (R176). -/
def State.pageCleared (s : State) : State :=
  match s.slc.clearing with
  | [] => s
  | pg :: rest =>
    let s := s.hbmZero (pg * pageSize) ((pg + 1) * pageSize)
    ({ s with slc := { s.slc with clearing := rest } } : State).wr R.SLC_STATUS_clearing_pages rest.length

/-! ### Events of a slice (R178) -/

/-- Write an event record to the slice's own event ring as well as to slice 0's; a slice without an event ring of its
own leaves only slice 0's. -/
def State.sliceEvent (s : State) (block inst code x : Nat) (detail : List Byte) : State :=
  let s := s.event block inst code detail x 0
  if x ≠ 0 ∧ s.on R.SLC_STATE_evring_en x then s.event block inst code detail x x else s

/-! ### Quota writes (R164, R165) -/

/-- A quota write is discarded with a status (R164). -/
def State.quotaErr (s : State) (status : Nat) : State :=
  (s.wr R.SLC_QUOTA_ERR_status status).sat R.SLC_QUOTA_ERR_count

/-- A write of SLC_QUOTA[x][p]. -/
def State.quotaWr (s : State) (x p v : Nat) : State :=
  let lim := bits v 41 21
  let rsv := bits v 20 0
  let sum := s.quotaSlices.foldl (fun a y => if y = x then a else a + s.rd R.SLC_QUOTA_reserve y p) rsv
  if lim < rsv ∨ s.poolSize p < sum then s.quotaErr St.reserve_over
  else
    let s := (s.wr R.SLC_QUOTA_limit lim x p).wr R.SLC_QUOTA_reserve rsv x p
    if lim < s.inUse x p then
      s.sliceEvent 5 0 2 x (leBytes 2 x ++ leBytes 1 p ++ leBytes 1 0 ++ leBytes 4 (s.inUse x p) ++ leBytes 4 lim ++ leBytes 4 0)
    else s

/-- PAGE_CLEAR_DONE (R176). -/
def execPageClearDone (s : State) : Out := s.whenMain State.pageCleared

end Sys2Proof.Machine
end

