-- ==== Sys2Proof/Machine/Host.lean ====
section
/-! DEFINITION. The host interface's shared operations (05_host_interface.md): functions and links, requests toward
host memory, the translation cache, MSI-X. The commands of the host interface are in HostCmds.lean. -/

namespace Sys2Proof.Machine

/-! ### Functions and links -/

def State.func (s : State) (fn : Nat) : Func := Store.get {} s.hif.funcs fn

def State.setFunc (s : State) (fn : Nat) (f : Func) : State :=
  { s with hif := { s.hif with funcs := Store.put {} s.hif.funcs fn f } }

/-- Generation of a function. -/
def State.fnGen (s : State) (fn : Nat) : Nat := s.rd R.HIF_PF_STATUS_gen (fn / 8) (fn % 8)

/-- Link of a function: PF4-PF7 are on link b when bifurcated (table Lane configurations). -/
def State.fnLink (s : State) (fn : Nat) : Nat :=
  if s.on R.HIF_LINK_CFG_bifurcate (fn / 8) ∧ 4 ≤ fn % 8 then 1 else 0

/-- Link `l` of a controller is in DL_Active; link b exists only when bifurcated. -/
def State.linkUp (s : State) (hif l : Nat) : Bool :=
  if l = 0 then s.on R.HIF_LINK_STATUS_up hif
  else s.on R.HIF_LINK_CFG_bifurcate hif && bit (s.rd R.HIF_LINK_STATUS_link_b hif) 15

def State.fnEnabled (s : State) (fn : Nat) : Bool := s.on R.HIF_PF_CFG_enable (fn / 8) (fn % 8)

/-- The function exists and its link is in DL_Active (HIF_PF_STATUS.present). -/
def State.fnPresent (s : State) (fn : Nat) : Bool := s.fnEnabled fn && s.linkUp (fn / 8) (s.fnLink fn)

/-- Readiness (R152). -/
def State.fnReady (s : State) (fn : Nat) : Bool :=
  s.cuffOpen && s.fnPresent fn && !s.on R.HIF_PF_STATUS_flr_busy (fn / 8) (fn % 8)

def State.fnD3 (s : State) (fn : Nat) : Bool := s.on R.HIF_PF_STATUS_d3 (fn / 8) (fn % 8)

/-- PCIe tags held by a function, of any generation (HIF_PF_STATUS.rd_out). -/
def State.rdOut (s : State) (fn : Nat) : Nat := (s.hif.reads.filter (·.fn == fn)).length

/-- A function may have one more non-posted request outstanding: it has fewer than 4,096, and its link fewer than 8,192, reads
and translation requests together (R123). -/
def State.npFree (s : State) (fn : Nat) : Bool :=
  let mine := fun (g : Nat) => g / 8 == fn / 8 && s.fnLink g == s.fnLink fn
  s.rdOut fn + (s.hif.xlats.filter (·.fn == fn)).length < 4096
    && (s.hif.reads.filter (fun h => mine h.fn)).length + (s.hif.xlats.filter (fun x => mine x.fn)).length < 8192

/-- The first number from `t` on, modulo the number of tags, that is not held. -/
def freeTag (held : List Nat) : Nat → Nat → Nat
  | 0, t => t % 131072
  | n + 1, t => if held.contains (t % 131072) then freeTag held n (t + 1) else t % 131072

/-- Lowest free PCIe tag of a function. -/
def State.freePcieTag (s : State) (fn : Nat) : Nat :=
  freeTag ((s.hif.reads.filter (·.fn == fn)).map (·.tag)) s.hif.reads.length 0

/-- Count an event of a controller (HIF_ERR_CNT[k]). -/
def State.hifErr (s : State) (fn k : Nat) : State := s.sat R.HIF_ERR_CNT_count 1 (fn / 8) k

/-- Report an error by AER. -/
def State.aer (s : State) (fn : Nat) (e : AerErr) : State :=
  let f := s.func fn
  if f.aer.contains e then s else s.setFunc fn { f with aer := f.aer ++ [e] }

def State.sendHost (s : State) (m : HostMsg) : State := { s with toHost := s.toHost ++ [m] }

/-- The device answers a request with Unsupported Request (R137): a completion and an Unsupported Request error for a
non-posted request, an advisory error for a posted write; each counts in HIF_ERR_CNT[2]. -/
def State.unsupported (s : State) (fn : Nat) (posted : Bool) : State :=
  let s := s.hifErr fn 2
  if posted then s.aer fn .advisory else (s.aer fn .unsupportedRequest).sendHost (.cplUr fn)

/-- The completion timeout of a function in microseconds (R141). -/
def State.cplTimeoutUs (s : State) (fn : Nat) : Nat :=
  let v := (s.func fn).cplTo
  if v = 1 then 100 else if v = 2 then 10000 else max 50 (min 50000 (s.rd R.HIF_CPL_TO_CFG_default_us (fn / 8)))

/-! ### Address translation (R127-R130) -/

/-- Add a cache entry; a full set loses its least recently used entry (8-way set-associative; the set of a page is an
implementation's choice). -/
def State.atcAdd (s : State) (e : AtcEntry) : State :=
  let set := fun (x : AtcEntry) => Config.atcSet x.fn x.page
  let same := s.hif.atc.filter (fun x => x.fn / 8 == e.fn / 8 && set x == set e)
  let old := same.foldl (fun (m : Option AtcEntry) x => match m with
    | some y => if x.used < y.used then some x else some y
    | none => some x) none
  let atc := if same.length < 8 then s.hif.atc else match old with
    | some y => s.hif.atc.filter (· != y)
    | none => s.hif.atc
  { s with hif := { s.hif with atc := atc ++ [{ e with used := s.hif.nextId }], nextId := s.hif.nextId + 1 } }

/-- What a translation gives: the translated address, a wait for a translation completion, or `ats_fault`. -/
inductive Tr where
  | at (addr : Nat) (page : Option Nat)
  | wait
  | fault
  deriving DecidableEq, Repr

/-- Translate an address of a function's request (R127, R128): untranslated while ATS Enable is 0; a hit uses the
translated address; a miss issues a translation request, once, and waits. -/
def State.translate (s : State) (fn : Nat) (pasid : Option Nat) (addr : Nat) (write : Bool) : Tr × State :=
  if !(s.func fn).atsEn then (.at addr none, s)
  else
    let pg := addr / 4096 * 4096
    let hit := s.hif.atc.find? (fun e => e.fn == fn && e.pasid == pasid && e.page ≤ addr && addr < e.page + e.size
      && (if write then e.wr else e.rd))
    match hit with
    | some e =>
      let atc := s.hif.atc.map (fun x => if x = e then { x with used := s.hif.nextId } else x)
      (.at (e.target + (addr - e.page)) (some e.page), { s with hif := { s.hif with atc := atc, nextId := s.hif.nextId + 1 } })
    | none =>
      if s.hif.xfail.contains (fn, pasid, pg) then
        (.fault, { s with hif := { s.hif with xfail := s.hif.xfail.filter (· != (fn, pasid, pg)) } })
      else if s.hif.xlats.any (fun x => x.fn == fn && x.pasid == pasid && x.page == pg && (x.write || !write)) then (.wait, s)
      else if !s.npFree fn then (.wait, s)
      else
        let x : Xlat := { id := s.hif.nextId, fn := fn, pasid := pasid, page := pg, write := write }
        let s := { s with hif := { s.hif with xlats := s.hif.xlats ++ [x], nextId := s.hif.nextId + 1 } }
        (.wait, s.sendHost (.xlatReq fn x.id pg))

/-- Translate every 4 KiB page of a range: the pieces as (translated address, length). -/
def State.translateRange (s : State) (fn : Nat) (pasid : Option Nat) (write : Bool) :
    Nat → Nat → Nat → Option (List (Nat × Nat)) × Bool × State
  | 0, _, _ => (some [], false, s)
  | k + 1, a, n =>
    if n = 0 then (some [], false, s)
    else
      let len := min n (4096 - a % 4096)
      match s.translate fn pasid a write with
      | (.wait, s) => (none, false, s)
      | (.fault, s) => (none, true, s)
      | (.at t _, s) =>
        match s.translateRange fn pasid write k (a + len) (n - len) with
        | (some l, b, s) => (some ((t, len) :: l), b, s)
        | r => r

/-! ### Requests toward host memory (R121, R125, R155, R560) -/

/-- Whether a slice's work may issue a request now. -/
inductive Gate where
  | go (fn : Nat)
  | wait
  | fail (status : Nat)
  deriving DecidableEq, Repr

/-- The conditions of a request: a host binding (R155), PASID Enable (R125), the cuff and Bus Master Enable (R560,
R143, R148). -/
def State.hostGate (s : State) (x : Nat) : Gate :=
  match s.sliceFn x with
  | none => .fail St.host_unbound
  | some fn =>
    let f := s.func fn
    if (s.slicePasid x).isSome ∧ f.pasidEn = false then .fail St.pasid_off
    else if s.cuffOpen = false ∨ f.bmeSeen = false then .wait
    else if f.bme = false ∨ s.fnD3 fn then .fail St.bme_off
    else .go fn

/-- What an access of a slice's work gives: data (or a write done), a wait, or the status the work fails with. -/
inductive Got where
  | ok (data : List Byte)
  | wait
  | fail (status : Nat)
  deriving DecidableEq, Repr

/-- Host address space of a controller in `hostMem`. -/
def hostBase (fn : Nat) : Nat := (fn / 8) * 2 ^ 64

/-! ### Gathered reads (R121, R123, R138) -/

def State.setJob (s : State) (j : HostJob) : State :=
  { s with hif := { s.hif with jobs := s.hif.jobs.map (fun (x : HostJob) => if x.id = j.id then j else x) } }

def State.dropJobs (s : State) (f : HostJob → Bool) : State :=
  { s with hif := { s.hif with jobs := s.hif.jobs.filter (fun j => !f j) } }

/-- The ring entry that a gathered read is for. -/
def JobFor.entry : JobFor → Option (Nat × Nat)
  | .work r c => some (r, c)
  | .mr _ w => w
  | .av _ w => w
  | _ => none

/-- A gathered read that has failed ends without its pieces that have not been issued. -/
def HostJob.stop (j : HostJob) (status : Nat) : HostJob :=
  { j with todo := [], left := j.left - j.todo.length, status := if j.status = 0 then status else j.status }

/-- Requests of a read (R121): address, length and offset of each, at most Max_Read_Request_Size and none across a 4 KiB
boundary. -/
def requests (max_ : Nat) : Nat → Nat → Nat → Nat → List (Nat × Nat × Nat)
  | 0, _, _, _ => []
  | fuel + 1, a, n, off =>
    if n = 0 then []
    else
      let k := min n (min max_ (4096 - a % 4096))
      (a, k, off) :: requests max_ fuel (a + k) (n - k) (off + k)

/-- Max_Read_Request_Size of a function in bytes. -/
def Func.maxRead (f : Func) : Nat := min 4096 (128 * 2 ^ f.mrrs)

/-- Issue requests of one gathered read, as many as the function may have outstanding, each once its page is translated. -/
def State.askHost (id : Nat) : Nat → State → State
  | 0, s => s
  | fuel + 1, s =>
    match s.hif.jobs.find? (·.id == id) with
    | none => s
    | some j => match j.todo with
      | [] => s
      | p :: l =>
        if !s.npFree j.fn then s
        else match s.translate j.fn (s.slicePasid j.slice) p.1 false with
          | (.wait, s) => s
          | (.fault, s) => s.setJob (j.stop St.ats_fault)
          | (.at a pg, s) =>
            let h : HostRead := { fn := j.fn, tag := s.freePcieTag j.fn, gen := s.fnGen j.fn, slice := j.slice, sgen := s.sliceGen j.slice, ring := 0, count := 0, addr := a, len := p.2.1, issued := s.time.ft, under := pg, for_ := .job j.id j.for_.entry, off := p.2.2 }
            let s := s.setJob { j with todo := l }
            let s : State := { s with hif := { s.hif with reads := s.hif.reads ++ [h] } }
            State.askHost id fuel (s.sendHost (.readReq j.fn h.tag a p.2.1))

/-- Issue what may be issued of every gathered read, the oldest first. -/
def State.askAll (s : State) : State := (s.hif.jobs.filter (fun j => !j.todo.isEmpty)).foldl (fun s j => State.askHost j.id (j.todo.length + 1) s) s

/-- Start a gathered read; a zero-length read is one request. -/
def State.gather (s : State) (w : JobFor) (fn x a n : Nat) : State :=
  let ps := if n = 0 then [(a, 0, 0)] else requests (s.func fn).maxRead (n / 128 + n / 4096 + 2) a n 0
  let j : HostJob := { id := s.hif.nextJob, for_ := w, fn := fn, slice := x, sgen := s.sliceGen x, addr := a, len := n, todo := ps, left := ps.length }
  State.askHost j.id (ps.length + 1) { s with hif := { s.hif with jobs := s.hif.jobs ++ [j], nextJob := s.hif.nextJob + 1 } }

/-- The gathered read of an address for someone. -/
def State.hostJob (s : State) (w : JobFor) (x a n : Nat) : Option HostJob :=
  s.hif.jobs.find? (fun j => j.for_ == w && j.slice == x && j.addr == a && j.len == n)

/-- One request of a gathered read has ended. The first failure is kept, but another one before poisoned data, which is
delivered marked (R138). -/
def HostJob.piece (j : HostJob) (off : Nat) (bs : List Byte) (status : Nat) : HostJob :=
  let j := if status = 0 ∨ status = St.host_poison then j else { j with todo := [], left := j.left - j.todo.length }
  { j with left := j.left - 1, data := Mem.write j.data off bs, status := if j.status = 0 ∨ (j.status = St.host_poison ∧ status ≠ 0) then status else j.status }

/-- Take what a gathered read has brought; none: there is no such read. -/
def State.takeJob (s : State) (w : JobFor) (x a n : Nat) : Option (Got × State) :=
  match s.hostJob w x a n with
  | none => none
  | some j =>
    if j.left ≠ 0 then some (.wait, s)
    else
      let s := s.dropJobs (·.id == j.id)
      some (if j.status = 0 then (.ok (Mem.read j.data 0 n), s) else (.fail j.status, s))

/-- Read host memory for a slice's work: what its gathered read has brought, or the start of that read, or a wait for it. -/
def State.hostRead (s : State) (w : JobFor) (x a n : Nat) : Got × State :=
  match s.takeJob w x a n with
  | some r => r
  | none => match s.hostGate x with
    | .wait => (.wait, s)
    | .fail st => (.fail st, s)
    | .go fn =>
      let s := s.gather w fn x a n
      (s.takeJob w x a n).getD (.wait, s)

/-- Start a gathered read that may be issued and has not been started. -/
def State.wantHost (s : State) (w : JobFor) (x a n : Nat) : State :=
  match s.hostJob w x a n, s.hostGate x with
  | none, .go fn => s.gather w fn x a n
  | _, _ => s

/-- A gathered read is still on its way. -/
def State.reading (s : State) (w : JobFor) (x a n : Nat) : Bool :=
  match s.hostJob w x a n with
  | some j => j.left != 0
  | none => false

/-- Store translated pieces of a posted write; a byte written from poisoned data stays marked (R139). -/
def State.storeHost (s : State) (fn : Nat) (bad : Bool) : List (Nat × Nat) → List Byte → State
  | [], _ => s
  | (t, n) :: l, bs =>
    let a := hostBase fn + t
    let marks := (List.range n).foldl (fun m i => Store.put false m (a + i) bad) s.hostBad
    ({ s with hostMem := Mem.write s.hostMem a (bs.take n), hostBad := marks } : State).storeHost fn bad l (bs.drop n)

/-- Issue one posted write of a function. -/
def State.issueWrite (s : State) (fn x a : Nat) (bs : List Byte) (bad : Bool) : Got × State :=
  match s.translateRange fn (s.slicePasid x) true (bs.length / 4096 + 2) a bs.length with
  | (some l, _, s) => (.ok [], s.storeHost fn bad l bs)
  | (none, true, s) => (.fail St.ats_fault, s)
  | (none, false, s) => (.wait, s)

/-- Write host memory for a slice's work. A held write queues behind the function's earlier ones and is issued in
order later (R560). -/
def State.hostWrite (s : State) (x a : Nat) (bs : List Byte) (bad : Bool := false) : Got × State :=
  match s.hostGate x with
  | .wait =>
    match s.sliceFn x with
    | none => (.wait, s)
    | some fn =>
      let f := s.func fn
      (.ok [], s.setFunc fn { f with held := f.held ++ [{ slice := x, addr := a, data := bs, bad := bad }] })
  | .fail st => (.fail st, s)
  | .go fn =>
    if (s.func fn).held.isEmpty then s.issueWrite fn x a bs bad
    else
      let f := s.func fn
      (.ok [], s.setFunc fn { f with held := f.held ++ [{ slice := x, addr := a, data := bs, bad := bad }] })

/-- Read memory that a descriptor of slice `x` names: HBM pages of the slice, or host memory through its binding. -/
def State.readFor (s : State) (w : JobFor) (x : Nat) (hbm : Bool) (a n : Nat) : Got × State :=
  if hbm then
    match s.claimHbm x a n with
    | none => (.fail St.ring_range, s)
    | some s =>
      let r := s.hbmRead a n
      if r.status = 0 then (.ok r.data, r.next) else (.fail r.status, r.next)
  else s.hostRead w x a n

/-- Write memory that a descriptor of slice `x` names. -/
def State.writeFor (s : State) (x : Nat) (hbm : Bool) (a : Nat) (bs : List Byte) (bad : Bool := false) : Got × State :=
  if hbm then
    match s.claimHbm x a bs.length with
    | none => (.fail St.ring_range, s)
    | some s =>
      let r := s.hbmWrite a bs bad
      if r.2 = 0 then (.ok [], r.1) else (.fail r.2, r.1)
  else s.hostWrite x a bs bad

/-! ### MSI-X (R133-R136) -/

def msixKey (fn vec : Nat) : Nat := fn * 2048 + vec

def State.msixEntry (s : State) (fn vec : Nat) : MsixEntry := Store.get {} s.hif.msix (msixKey fn vec)

/-- Number of vectors of a function. -/
def State.msixCount (s : State) (fn : Nat) : Nat := s.rd R.HIF_PF_CFG_msix_vectors (fn / 8) (fn % 8) + 1

/-- The vector can be sent: enabled, not masked, Function Mask 0, Bus Master Enable 1, cuff open (R134, R560). -/
def State.msixSendable (s : State) (fn vec : Nat) : Bool :=
  let f := s.func fn
  f.msixEn && !f.msixMask && f.bme && s.cuffOpen && !s.fnD3 fn && !(s.msixEntry fn vec).masked

def State.msixPending (s : State) (fn vec : Nat) : Bool := s.hif.pba.contains (msixKey fn vec)

def State.setPending (s : State) (fn vec : Nat) (x : Bool) : State :=
  let k := msixKey fn vec
  let p := s.hif.pba.filter (· != k)
  { s with hif := { s.hif with pba := if x then p ++ [k] else p } }

/-- A vector fires (R133, R134): above the table nothing; held, its pending bit; otherwise one message with the entry's
address and data as they stand now (R135). -/
def State.msixFire (s : State) (fn vec : Nat) : State :=
  if s.msixCount fn ≤ vec then s
  else if s.msixSendable fn vec then
    let e := s.msixEntry fn vec
    s.sendHost (.msi fn e.addr e.data)
  else s.setPending fn vec true

/-- A vector has become sendable with its pending bit set: one message, and the bit clears (R134). -/
def State.msixUnmask (s : State) (fn vec : Nat) : State :=
  if s.msixPending fn vec && s.msixSendable fn vec then
    let e := s.msixEntry fn vec
    (s.sendHost (.msi fn e.addr e.data)).setPending fn vec false
  else s

end Sys2Proof.Machine
end

