-- ==== Sys2Proof/Machine/Rings.lean ====
section
/-! DEFINITION. Descriptor rings: contexts, doorbells, starting entries, completions, waits, aborts, event rings and
interrupt moderation (07_rings.md; launch timing 02_fabric_time.md R59-R61). -/

namespace Sys2Proof.Machine

/-! ### Rings and counts -/

def State.ring (s : State) (r : Nat) : Option Ring := Store.get none s.rng.rings r

def State.setRing (s : State) (r : Nat) (x : Ring) : State :=
  { s with rng := { s.rng with rings := Store.put none s.rng.rings r (some x) } }

def State.dropRing (s : State) (r : Nat) : State :=
  { s with rng := { s.rng with rings := Store.put none s.rng.rings r none } }

/-- Change a ring that exists. -/
def State.modRing (s : State) (r : Nat) (f : Ring → Ring) : State :=
  match s.ring r with
  | some x => s.setRing r (f x)
  | none => s

def Ring.eng' (x : Ring) (f : RingEng → RingEng) : Ring := { x with eng := f x.eng }

/-- IDs of the rings that exist. -/
def State.ringIds (s : State) : List Nat := (s.rng.rings.filter (fun p => p.2.isSome)).map (·.1)

/-- Counts are free-running 32-bit numbers (R180). -/
def cnt (n : Nat) : Nat := n % 2 ^ 32

/-- a − b as a 32-bit serial difference. -/
def cdiff (a b : Nat) : Nat := (a + 2 ^ 32 - b % 2 ^ 32) % 2 ^ 32

/-- a is after b (R180). -/
def after (a b : Nat) : Bool := 0 < cdiff a b && cdiff a b < 2 ^ 31

/-- a is before b. -/
def before (a b : Nat) : Bool := after b a

def Ring.size (x : Ring) : Nat := 2 ^ x.log2

/-- Address of the entry for count c (R180). -/
def Ring.entry (x : Ring) (c : Nat) : Nat := x.base + (c % x.size) * 64

/-! ### The context image (table Ring context) -/

/-- The 64 bytes of RNG_CTX_STAGE. -/
def State.stageImage (s : State) : List Byte := (List.range 8).flatMap (fun j => leBytes 8 (s.rd R.RNG_CTX_STAGE_ctx j))

def ctxReserved (b : List Byte) : Bool :=
  bits (fieldLE b 0xA 1) 7 5 == 0 && bits (fieldLE b 0xC 2) 15 12 == 0 && bits (fieldLE b 0x16 2) 14 12 == 0
    && fieldLE b 0x34 8 == 0 && fieldLE b 0x3C 4 == 0

/-- The ring that a context image describes. -/
def ringOf (b : List Byte) (now : Nat) : Ring :=
  let fl := fieldLE b 0xA 1
  let db := fieldLE b 0x16 2
  { base := fieldLE b 0 8, log2 := fieldLE b 8 1, type := fieldLE b 9 1, mem := bit fl 0, anyOrder := bit fl 1,
    irqEn := bit fl 2, rearm := bit fl 3, wbEn := bit fl 4, prefetch := fieldLE b 0xB 1,
    slice := bits (fieldLE b 0xC 2) 11 0, target := fieldLE b 0xE 2, vector := fieldLE b 0x10 2,
    modCount := fieldLE b 0x12 2, modUs := fieldLE b 0x14 2, dbEn := bit db 15, dbPage := bits db 11 0,
    tail := fieldLE b 0x18 4, head := fieldLE b 0x1C 4, cpl := fieldLE b 0x20 4, ack := fieldLE b 0x24 4,
    wbAddr := fieldLE b 0x28 8, state := 0, lastStatus := 0, eng := { used := now, irqAt := fieldLE b 0x20 4 } }

/-- The context image of a ring. -/
def Ring.image (x : Ring) : List Byte :=
  leBytes 8 x.base ++ leBytes 1 x.log2 ++ leBytes 1 x.type
    ++ leBytes 1 (b2n x.mem + 2 * b2n x.anyOrder + 4 * b2n x.irqEn + 8 * b2n x.rearm + 16 * b2n x.wbEn)
    ++ leBytes 1 x.prefetch ++ leBytes 2 x.slice ++ leBytes 2 x.target ++ leBytes 2 x.vector ++ leBytes 2 x.modCount
    ++ leBytes 2 x.modUs ++ leBytes 2 (2 ^ 15 * b2n x.dbEn + x.dbPage) ++ leBytes 4 x.tail ++ leBytes 4 x.head
    ++ leBytes 4 x.cpl ++ leBytes 4 x.ack ++ leBytes 8 x.wbAddr ++ leBytes 2 x.state ++ leBytes 2 x.lastStatus ++ leBytes 12 0

/-- Check 2 of R183: legal fields and alignment; `vector` within the bound function's table. -/
def State.ctxLegal (s : State) (b : List Byte) : Bool :=
  let x := ringOf b 0
  6 ≤ x.log2 && x.log2 ≤ 16 && x.type ≤ 7 && x.prefetch ≤ 32 && ctxReserved b && x.dbPage < 4080
    && (x.type != 7 || x.slice == 0) && x.base % 4096 == 0 && (!x.wbEn || x.wbAddr % 4 == 0)
    && (x.type == 5 || x.type == 6 || !x.irqEn || (match s.sliceFn x.slice with
      | some fn => x.vector < s.msixCount fn
      | none => x.vector < 2048))
    && ((x.type != 5 && x.type != 6) || x.mem)

/-- Check 4 of R183: the ring and its write-back word lie in the slice's memory (R181, R155). -/
def State.ctxRange (s : State) (b : List Byte) : Option State :=
  let x := ringOf b 0
  if x.mem then
    match s.claimHbm x.slice x.base (64 * x.size) with
    | none => none
    | some s => if x.wbEn then s.claimHbm x.slice x.wbAddr 4 else some s
  else if (s.sliceFn x.slice).isSome then some s else none

/-- Index of a doorbell page in RNG_DB_MAP. -/
def dbIndex (fn page : Nat) : Nat := fn * 4096 + page

/-- Check 5 of R183: the page lies in the slice's doorbell range and no other ring holds it. -/
def State.dbFree (s : State) (b : List Byte) (self : Option Nat) : Bool :=
  let x := ringOf b 0
  if !x.dbEn then true
  else match s.sliceFn x.slice with
    | none => false
    | some fn =>
      let i := dbIndex fn x.dbPage
      let base := s.rd R.SLC_BIND_db_base x.slice
      base ≤ x.dbPage && x.dbPage < base + s.rd R.SLC_BIND_db_count x.slice
        && (!s.on R.RNG_DB_MAP_valid i || some (s.rd R.RNG_DB_MAP_ring i) == self)

def State.mapDb (s : State) (x : Ring) (r : Nat) : State :=
  match x.dbEn, s.sliceFn x.slice with
  | true, some fn => (s.raise R.RNG_DB_MAP_valid (dbIndex fn x.dbPage)).wr R.RNG_DB_MAP_ring r (dbIndex fn x.dbPage)
  | _, _ => s

def State.unmapDb (s : State) (x : Ring) : State :=
  match x.dbEn, s.sliceFn x.slice with
  | true, some fn => (s.wr R.RNG_DB_MAP_valid 0 (dbIndex fn x.dbPage)).wr R.RNG_DB_MAP_ring 0 (dbIndex fn x.dbPage)
  | _, _ => s

/-- A ring command completes. -/
def State.ringCmdDone (s : State) (status : Nat) : State := s.wr R.RNG_CMD_STATUS_status status

def State.resident (s : State) : Nat := s.rd R.RNG_STATUS_resident

/-! ### Work in flight -/

/-- Opcode, flags and other fields of a descriptor's header word (table Common descriptor header). -/
def dOpcode (d : List Byte) : Nat := fieldLE d 0 1
def dFlags (d : List Byte) : Nat := fieldLE d 1 1
def dIrq (d : List Byte) : Bool := bit (fieldLE d 0 8) 8
def dFence (d : List Byte) : Bool := bit (fieldLE d 0 8) 9
def dPhase (d : List Byte) : Bool := bit (fieldLE d 0 8) 16
def dGen (d : List Byte) : Nat := bits (fieldLE d 0 8) 41 34
def dSlice (d : List Byte) : Nat := bits (fieldLE d 0 8) 53 42
def dReserved (d : List Byte) : Nat := bits (fieldLE d 0 8) 63 54
def dLaunch (d : List Byte) : Nat := fieldLE d 8 8

/-- Bytes of a descriptor from `lo` on are 0. -/
def zeroFrom (d : List Byte) (lo : Nat) : Bool := (d.drop lo).all (· == 0)

/-- The opcode is legal for a ring (R179, table Ring types; 13_rdma.md R335: a type 3 ring with bit 15 of its target set
takes receives only; 14_storage_queues.md; 16_tenant_sockets.md R418; 17_flow_cores.md, Work rings). -/
def opLegal (x : Ring) (op : Nat) : Bool :=
  let rng := fun a b => a ≤ op && op ≤ b
  match x.type with
  | 0 => rng 0 2 || op == 0x10
  | 1 => op == 0 || op == 0x11
  | 2 => op == 3
  | 3 => rng 0 2 || (if bit x.target 15 then op == 0x27 else rng 0x20 0x2D && op != 0x27)
  | 4 => rng 0 2 || rng 0x30 0x35
  | 5 => rng 0 2 || rng 0x40 0x49
  | 6 => rng 0 2 || rng 0x50 0x51
  | 7 => rng 0 2 || rng 0x60 0x6B || rng 0x70 0x71 || rng 0x78 0x7B
  | _ => false

/-- Tags that any entry holds. -/
def State.tagsHeld (s : State) : List Nat :=
  s.rng.rings.flatMap (fun p => match p.2 with
    | some x => x.eng.flight.filterMap (·.tag)
    | none => []) ++ s.rng.late.map (·.1) ++ s.orphans.map (·.1)

/-- Allocate a tag from pool 1 (R190): which free tag is the device's choice, a free value. -/
def State.allocTag (s : State) (x : Nat) : Option (Nat × State) :=
  if s.allocStatus x 1 = 0 then
    let (i, s) := s.draw
    let held := s.tagsHeld
    some (freeTag held held.length (Config.tagPick i), s.charge x 1)
  else none

def State.tagGen (s : State) (t : Nat) : Nat := Store.get 0 s.slc.tagGen t

/-- The generation of a tag advances (R203). -/
def State.bumpTag (s : State) (t : Nat) : State :=
  { s with slc := { s.slc with tagGen := Store.put 0 s.slc.tagGen t ((s.tagGen t + 1) % 256) } }

/-- The flight entry for a count. -/
def State.flight (s : State) (r c : Nat) : Option Flight :=
  match s.ring r with
  | some x => x.eng.flight.find? (·.count == c)
  | none => none

/-- Change one flight entry. -/
def State.modFlight (s : State) (r c : Nat) (f : Flight → Flight) : State :=
  s.modRing r (fun x => x.eng' (fun e => { e with flight := e.flight.map (fun g => if g.count = c then f g else g) }))

/-- The tag of an aborted entry that the owning block still holds (R203): tag, ring, count, slice. -/
def State.lateOf (s : State) (r c : Nat) : Option (Nat × Nat × Nat × Nat) := s.rng.late.find? (fun l => l.2.1 == r && l.2.2.1 == c)

/-- The owning block releases the tag of an aborted entry (R203): it returns to pool 1, or does so with the entry when the
`aborted` completion is still to be written. -/
def State.lateFree (s : State) (l : Nat × Nat × Nat × Nat) : State :=
  let s : State := { s with rng := { s.rng with late := s.rng.late.filter (· != l) } }
  if (s.flight l.2.1 l.2.2.1).isSome then s else s.uncharge l.2.2.2 1

/-- An arrival under the old tag generation of an aborted entry is discarded and counted (R203). -/
def State.lateDrop (s : State) : State := s.sat R.RNG_DB_DROP_count 1 4

/-- A descriptor's work finishes: its completion goes to the completion writer. An entry already ended by an ABORT
discards the arrival, which is counted, and its tag is released (R203). -/
def State.finish (s : State) (r c : Nat) (k : Cpl) : State :=
  match s.lateOf r c with
  | some l => (s.lateFree l).lateDrop
  | none => match s.flight r c with
    | some g =>
      if g.cpl.isSome then s
      else
        let st := if k.status = 0 ∧ g.late then St.late_sent else k.status
        s.modFlight r c (fun g => { g with performed := true, cpl := some { k with status := st } })
    | none => s

/-- Finish with a status alone. -/
def State.fail (s : State) (r c status : Nat) : State := s.finish r c { status := status }

/-- The bytes performed so far, as reported to the completion writer (R202). -/
def State.report (s : State) (r c n : Nat) : State := s.modFlight r c (fun g => { g with reported := n })

def State.performed (s : State) (r c : Nat) : State := s.modFlight r c (fun g => { g with performed := true })

/-- The oldest entry of a ring that has started, is released, is not performed yet and has one of the opcodes. -/
def State.toPerform (s : State) (r : Nat) (ops : List Nat) : Option Flight :=
  match s.ring r with
  | some x => x.eng.flight.find? (fun g => !g.performed && !g.staged && g.cpl.isNone && ops.contains (dOpcode g.desc))
  | none => none

/-- Perform the oldest such entry. -/
def State.perform (s : State) (r : Nat) (ops : List Nat) (f : Ring → Flight → State → State) : State :=
  match s.ring r, s.toPerform r ops with
  | some x, some g => f x g s
  | _, _ => s

/-! ### Stops and events -/

/-- RNG_ event 0x0001 to the slice's event ring and to slice 0's (R195). -/
def State.ringStopEvent (s : State) (r : Nat) (x : Ring) (status : Nat) : State :=
  s.sliceEvent 6 0 1 x.slice (leBytes 2 r ++ leBytes 2 status ++ leBytes 4 x.head ++ leBytes 8 0)

/-- The ring becomes STOPPED with a status (R195). -/
def State.stopRing (s : State) (r status : Nat) : State :=
  match s.ring r with
  | some x =>
    let x := { x with state := 3, lastStatus := status }
    (s.setRing r x).ringStopEvent r x status
  | none => s

/-! ### Reading entries (R188, R192-R195) -/

/-- A 64-byte entry has been read: a copy of a covered entry is kept, one beyond the tail only when it reads phase 1
and the current generation (R192). The refetch_max-th re-read of the entry at head with phase 0 stops the ring
(R194). -/
def State.gotEntry (s : State) (r c : Nat) (d : List Byte) : State :=
  match s.ring r with
  | none => s
  | some x =>
    let covered := before c x.tail
    if covered && c == x.head && !dPhase d && !(x.state == 2 && x.eng.flushing)
        && 0 < x.eng.refetch && s.rd R.RNG_CFG_refetch_max ≤ x.eng.refetch then
      s.stopRing r St.ring_phase
    else if covered || (dPhase d && dGen d == s.sliceGen x.slice) then
      s.setRing r (x.eng' (fun e => { e with copies := e.copies.filter (·.1 != c) ++ [(c, d)] }))
    else s

/-- The first count that the engine may read and has no copy of: before the tail, or within `prefetch` beyond it. -/
def Ring.wants (x : Ring) : Option Nat :=
  let lim := cdiff x.tail x.head + x.prefetch
  (List.range (min lim x.size)).findSome? (fun i =>
    let c := cnt (x.head + i)
    if x.eng.copies.any (·.1 == c) then none else some c)

/-- Issue the host read of a ring's next entry, when none of the ring is in flight (R121, R123). -/
def State.issueFetch (s : State) (r : Nat) : State :=
  match s.ring r with
  | none => s
  | some x =>
    if x.mem || (x.state != 1 && x.state != 2) || s.hif.reads.any (fun h => h.for_ == .entry && h.ring == r && !h.old) then s
    else match x.wants with
      | none => s
      | some c =>
        match s.hostGate x.slice with
        | .wait => s
        | .fail st => s.stopRing r st
        | .go fn =>
          if !s.npFree fn then s
          else match s.translate fn (s.slicePasid x.slice) (x.entry c) false with
            | (.wait, s) => s
            | (.fault, s) => s.stopRing r St.ats_fault
            | (.at a pg, s) =>
              let h : HostRead := { fn := fn, tag := s.freePcieTag fn, gen := s.fnGen fn, slice := x.slice, sgen := s.sliceGen x.slice, ring := r, count := c, addr := a, len := 64, issued := s.time.ft, under := pg }
              let s := { s with hif := { s.hif with reads := s.hif.reads ++ [h] } }
              s.sendHost (.readReq fn h.tag a 64)

/-- Read an entry of a ring in HBM. -/
def State.readHbmEntry (s : State) (r : Nat) (x : Ring) (c : Nat) : State :=
  let d := s.hbmRead (x.entry c) 64
  if d.status = 0 then d.next.gotEntry r c d.data else d.next.stopRing r d.status

/-- DESCRIPTOR_READ: the engine reads the next entry it may read; a ring in HBM at once, a ring in host memory by a
read request whose completion brings the entry. -/
def State.descRead (s : State) (r : Nat) : State :=
  match s.ring r with
  | none => s
  | some x =>
    if x.state ≠ 1 ∧ x.state ≠ 2 ∨ x.eng.resident = false then s
    else if x.mem then
      match x.wants with
      | none => s
      | some c => s.readHbmEntry r x c
    else s.issueFetch r

/-- REFETCH (R194): the covered entry at head, read with phase 0, is read again refetch_us later. -/
def State.refetch (s : State) (r : Nat) : State :=
  match s.ring r with
  | none => s
  | some x =>
    let bad := x.eng.copies.any (fun p => p.1 == x.head && !dPhase p.2)
    if (x.state = 1 ∨ x.state = 2) ∧ before x.head x.tail ∧ bad then
      let s := s.pass (max (s.rd R.RNG_CFG_refetch_us) 1 * unitsPerUs)
      let x := x.eng' (fun e => { e with copies := e.copies.filter (·.1 != x.head), refetch := e.refetch + 1 })
      let s := s.setRing r x
      if x.mem then s.readHbmEntry r x x.head else s.issueFetch r
    else s

/-! ### Starting an entry (R190, R191) -/

/-- The head entry leaves the copies and head moves on. -/
def Ring.advance (x : Ring) : Ring :=
  { x with head := cnt (x.head + 1), eng := { x.eng with copies := x.eng.copies.filter (·.1 != x.head), refetch := 0, marked := x.eng.marked.filter (· != x.head) } }

/-- Put an entry in flight. -/
def State.launchEntry (s : State) (r : Nat) (x : Ring) (g : Flight) : State :=
  s.setRing r (x.advance.eng' (fun e => { e with flight := e.flight ++ [g], used := s.time.ft }))

/-- An entry that completes without being performed and without a tag. -/
def State.rejectEntry (s : State) (r : Nat) (x : Ring) (d : List Byte) (status : Nat) : State :=
  let g : Flight := { count := x.head, tag := none, desc := d, slice := x.slice, sgen := s.sliceGen x.slice, performed := true, cpl := some { status := status } }
  s.launchEntry r x g

/-- A WAIT of the ring holds its later entries (R200). -/
def State.ringWaits (s : State) (r : Nat) : Bool := s.rng.waits.any (·.ring == r)

/-- The furthest accepted launch (R59). -/
def State.launchFar (s : State) (t : Nat) : Bool :=
  s.time.ft + max (s.rd R.FT_LAUNCH_CFG_horizon_s) 1 * unitsPerSec < ft64Units t

/-- Checks 2 to 5 of R190 on an entry; 0 when all hold. -/
def State.startCheck (s : State) (x : Ring) (d : List Byte) : Nat :=
  if dSlice d ≠ x.slice ∧ x.slice ≠ 0 then St.slice_mismatch
  else if dGen d ≠ s.sliceGen (dSlice d) then St.gen_mismatch
  else if !opLegal x (dOpcode d) then St.bad_opcode
  else if dReserved d ≠ 0 then St.bad_desc
  else if !ft64Valid (dLaunch d) then St.bad_time
  else if dLaunch d ≠ 0 && s.launchFar (dLaunch d) then St.launch_far
  else 0

/-- DESCRIPTOR_START: the entry at head starts, completes with the first failing check, or waits. Answers the count
of an entry that has started its work. -/
def State.startEntry (s : State) (r : Nat) : State × Option Nat :=
  match s.ring r with
  | none => (s, none)
  | some x =>
    if (x.state ≠ 1 ∧ x.state ≠ 2) ∨ before x.head x.tail = false ∨ s.ringWaits r ∨ x.eng.resident = false then (s, none)
    else match x.eng.copies.find? (·.1 == x.head) with
      | none => (s, none)
      | some (_, d) =>
        if !dPhase d then
          if x.state = 2 ∧ x.eng.flushing then (s.setRing r x.advance, none) else (s, none)
        else if x.eng.flushing then (s.rejectEntry r x d St.ring_flushed, none)
        else if x.eng.marked.contains x.head then (s.rejectEntry r x d St.aborted, none)
        else
          let st := s.startCheck x d
          if st ≠ 0 then (s.rejectEntry r x d st, none)
          else if dFence d && !x.eng.flight.isEmpty then (s, none)
          else
            let sl := dSlice d
            if s.sliceState sl = 2 ∨ s.sliceState sl = 3 then (s.rejectEntry r x d St.slice_reset, none)
            else match s.allocTag sl with
              | none => (s, none)
              | some (t, s) =>
                let g : Flight := { count := x.head, tag := some t, desc := d, slice := sl, sgen := s.sliceGen sl, fgen := (s.sliceFn sl).map s.fnGen, launch := dLaunch d, fetched := s.time.ft, staged := dLaunch d != 0, startAt := s.time.ft }
                (s.launchEntry r x g, some x.head)

/-! ### Launch timing (02_fabric_time.md R59-R61) -/

/-- The first staged entry of a ring; it is released only after every earlier entry (R61). -/
def Ring.firstStaged (x : Ring) : Option Flight := x.eng.flight.find? (·.staged)

/-- Entries of all rings that wait for a launch time: they hold level-0 comparators. -/
def State.stagedCount (s : State) : Nat :=
  s.rng.rings.foldl (fun a p => match p.2 with
    | some x => a + (x.eng.flight.filter (·.staged)).length
    | none => a) 0

/-- The entry needs a payload before it can be sent. -/
def needsPayload (g : Flight) : Bool := dOpcode g.desc == 0x10

/-- Fields of a SEND are in order (table SEND descriptor). -/
def sendOk (d : List Byte) : Bool :=
  60 ≤ fieldLE d 0x18 4 && fieldLE d 0x18 4 ≤ 9596 && fieldLE d 0x1C 2 / 32 == 0 && fieldLE d 0x1E 2 == 0 && zeroFrom d 0x30

/-- The payload of a SEND in host memory is asked for (01_architecture.md, Host transmit step 5); what HBM holds is read at the
injection. -/
def State.payloadRead (s : State) (r : Nat) (x : Ring) (g : Flight) : State :=
  if needsPayload g && !x.mem && sendOk g.desc then s.wantHost (.work r g.count) g.slice (fieldLE g.desc 0x10 8) (fieldLE g.desc 0x18 4) else s

/-- The read of a payload has been asked for and not been taken. -/
def State.payloadAsked (s : State) (r c : Nat) : Bool := s.hif.jobs.any (fun j => j.for_ == .work r c)

/-- LAUNCH_PREFETCH: at launch minus prefetch_us the payload of a staged entry is fetched (R59); one in host memory has
arrived once its reads have ended. -/
def State.launchPrefetch (s : State) (r : Nat) : State :=
  match s.ring r with
  | none => s
  | some x => match x.eng.flight.find? (fun g => g.staged && !g.payload && !s.payloadAsked r g.count) with
    | none => s
    | some g =>
      let s := s.runTo (ft64Units g.launch - max (s.rd R.FT_LAUNCH_CFG_prefetch_us) 1 * unitsPerUs)
      let s := if 512 ≤ s.stagedCount then s.sat R.FT_WHEEL_STAT_overflow 1 0 else s
      if needsPayload g && !x.mem && sendOk g.desc then s.payloadRead r x g
      else s.modFlight r g.count (fun g => { g with payload := true })


/-- LAUNCH_RELEASE: at its launch time the first staged entry is released and judged for lateness (R60). -/
def State.launchRelease (s : State) (r : Nat) : State :=
  match s.ring r with
  | none => s
  | some x => match x.firstStaged with
    | none => s
    | some g =>
      let t := ft64Units g.launch
      let s := s.runTo t
      let tooLate := t + s.rd R.FT_LAUNCH_CFG_late_ns * unitsPerNs < s.time.ft
      let late := tooLate || (needsPayload g && !g.payload)
      if late then
        let s := s.sat R.FT_LAUNCH_LATE_count
        if s.on R.FT_LAUNCH_CFG_late_action then
          (s.modFlight r g.count (fun g => { g with staged := false })).fail r g.count St.launch_late
        else s.modFlight r g.count (fun g => { g with staged := false, late := true })
      else s.modFlight r g.count (fun g => { g with staged := false })

/-! ### Interrupts (R207) -/

/-- A ring of type 6 tells the module of the slice's socket instead (16_tenant_sockets.md R418). -/
def State.ringNote (s : State) (r : Nat) (x : Ring) : State :=
  if s.on R.SLC_BIND_sock_en x.slice then
    let n := s.rd R.SLC_BIND_socket x.slice
    let l := Store.get {} s.links n
    let t : Txn := { vc := 3, data := leBytes 1 0x31 ++ leBytes 1 6 ++ leBytes 2 0 ++ leBytes 2 r ++ leBytes 2 0 ++ leBytes 8 x.cpl }
    if l.state = 4 then { s with links := Store.put {} s.links n { l with txq := l.txq ++ [t] } } else s
  else s

/-- The ring fires its vector. -/
def State.ringFire (s : State) (r : Nat) : State :=
  match s.ring r with
  | none => s
  | some x =>
    if x.rearm && !x.eng.armed then s
    else
      let s := s.setRing r (x.eng' (fun e => { e with irqAt := x.cpl, pendSince := none, armed := if x.rearm then false else e.armed }))
      if x.type = 6 then s.ringNote r x
      else match s.sliceFn x.slice with
        | some fn => s.msixFire fn x.vector
        | none => s

/-- The ring signals: interrupt enabled, and not of type 5. -/
def Ring.signals (x : Ring) : Bool := x.irqEn && x.type != 5

/-- Moderation after a completion has been written. -/
def State.moderate (s : State) (r : Nat) (irq : Bool) : State :=
  match s.ring r with
  | none => s
  | some x =>
    if !x.signals then s
    else
      let s := if x.eng.pendSince.isNone then s.setRing r (x.eng' (fun e => { e with pendSince := some s.time.ft })) else s
      if irq || max x.modCount 1 ≤ cdiff x.cpl x.eng.irqAt then s.ringFire r else s

/-- MOD_TIMER: mod_us after pending left 0. -/
def State.modTimer (s : State) (r : Nat) : State :=
  match s.ring r with
  | none => s
  | some x => match x.eng.pendSince with
    | some t => if x.signals ∧ x.modUs ≠ 0 then (s.runTo (t + x.modUs * unitsPerUs)).ringFire r else s
    | none => s

/-! ### Completions (R196-R199, R169) -/

/-- The 64 bytes of a completion. -/
def cplBytes (g : Flight) (k : Cpl) (stamp : Nat) : List Byte :=
  let h := fieldLE g.desc 0 8
  let h := h - b2n (bit h 16) * 2 ^ 16 - bits h 33 17 * 2 ^ 17 + (g.tag.getD 0) * 2 ^ 17
  leBytes 8 h ++ leBytes 8 stamp ++ leBytes 2 k.status ++ (k.x12 ++ List.replicate 2 0).take 2 ++ leBytes 4 k.bytes
    ++ (k.x18 ++ List.replicate 40 0).take 40

/-- The entry whose completion is written next: the first in ring order when it has finished, or any that has. -/
def Ring.nextCpl (x : Ring) : Option Flight :=
  if x.anyOrder then x.eng.flight.find? (·.cpl.isSome)
  else match x.eng.flight with
    | g :: _ => if g.cpl.isSome then some g else none
    | [] => none

/-- The entry leaves the flight and its tag returns to pool 1, but for the tag of an aborted entry that the owning block
still holds (R203). -/
def State.retireFlight (s : State) (r : Nat) (g : Flight) : State :=
  let s := (s.modRing r (fun x => x.eng' (fun e => { e with flight := e.flight.filter (·.count != g.count), used := s.time.ft }))).dropJobs (·.for_ == .work r g.count)
  if g.tag.isSome && (s.lateOf r g.count).isNone then s.uncharge g.slice 1 else s

/-- COMPLETION_WRITE: one completion, the write-back and the interrupt, in this order (R197). A completion whose tag
recorded a generation that has changed is discarded (R169). -/
def State.writeCpl (s : State) (r : Nat) : State :=
  match s.ring r with
  | none => s
  | some x =>
    if x.eng.resident = false then s
    else match x.nextCpl with
    | none => s
    | some g => match g.cpl with
      | none => s
      | some k =>
        let fgNow := (s.sliceFn g.slice).map s.fnGen
        if g.tag.isSome ∧ g.sgen ≠ s.sliceGen g.slice then
          (s.retireFlight r g).sat R.SLC_DISCARD_late 1 g.slice
        else if g.tag.isSome ∧ x.mem = false ∧ g.fgen ≠ fgNow then
          let s := s.retireFlight r g
          match s.sliceFn g.slice with
          | some fn => s.hifErr fn 5
          | none => s
        else
          match s.writeFor x.slice x.mem (x.entry g.count) (cplBytes g k s.now64) with
          | (.wait, s) => s
          | (.fail _, s) => s.retireFlight r g
          | (.ok _, s) =>
            let s := s.retireFlight r g
            let s := s.modRing r (fun x => { x with cpl := cnt (x.cpl + 1) })
            let s := if x.wbEn then (s.writeFor x.slice x.mem x.wbAddr (leBytes 4 (cnt (x.cpl + 1)))).2 else s
            s.moderate r (dIrq g.desc)

/-! ### Tags whose work has been cut off (R203) -/

/-- A read of host memory is outstanding for an entry's work. -/
def State.readingFor (s : State) (r c : Nat) (h : HostRead) : Bool :=
  match h.for_ with
  | .job id _ => s.hif.jobs.any (fun j => j.id == id && j.for_ == .work r c)
  | _ => false

/-- The block that performs an entry holds its tag after an abort (R203): reads of host memory are on their way for it, or it
is being performed and is neither a WAIT, which ends with the abort, nor a posted entry that nothing has begun to fill. -/
def State.holdsTag (s : State) (r : Nat) (g : Flight) : Bool :=
  let o := dOpcode g.desc
  s.hif.reads.any (s.readingFor r g.count) || (g.performed && o != 1 && !((o == 0x11 || o == 3 || o == 0x27) && g.reported == 0))

/-- The entry's tag stays with the block that holds it, and what its reads bring is discarded (R203). -/
def State.tagLate (s : State) (r : Nat) (g : Flight) : State :=
  match g.tag with
  | none => s
  | some t =>
    let late := if s.holdsTag r g then [(t, r, g.count, g.slice)] else []
    let reads := s.hif.reads.map (fun h => if s.readingFor r g.count h then { h with for_ := .aborted t } else h)
    let s : State := { s with rng := { s.rng with late := s.rng.late ++ late }, hif := { s.hif with reads := reads } }
    (s.dropJobs (fun j => j.for_ == .work r g.count)).bumpTag t

/-- What a ring that was STOPPED still has in flight ends without completion when the ring is used anew or ceases to exist
(DESIGN CHOICE, log entry 47); its tags return as after an abort. -/
def State.endFlight (s : State) (r : Nat) (x : Ring) : State :=
  let s : State := { s with rng := { s.rng with waits := s.rng.waits.filter (·.ring != r), aborts := s.rng.aborts.filter (·.ring != r) } }
  x.eng.flight.foldl (fun s g => (if g.cpl.isSome then s else s.tagLate r g).retireFlight r g) s

/-! ### Creating and controlling rings (R183-R185, R565, R566) -/

/-- CREATE: the first failing check's status, or a DISABLED ring. `volOk` says whether the volume that a type 4 ring
names is ACTIVE or FROZEN and belongs to the slice (R363). -/
def State.ringCreate (s : State) (r : Nat) (volOk : Nat → Nat → Bool) : State :=
  let b := s.stageImage
  let x := ringOf b s.time.ft
  if (s.ring r).isSome then s.ringCmdDone St.ring_state
  else if !s.ctxLegal b then s.ringCmdDone St.bad_desc
  else if !s.sliceActive x.slice then s.ringCmdDone St.slice_state
  else match s.ctxRange b with
    | none => s.ringCmdDone St.ring_range
    | some t =>
      if !s.dbFree b none then s.ringCmdDone St.ring_conflict
      else if x.type = 4 ∧ volOk x.target x.slice = false then s.ringCmdDone St.stq_vol_state
      else
        let a0 := t.allocStatus x.slice 0
        let a4 := if x.type = 4 then t.allocStatus x.slice 4 else 0
        if a0 ≠ 0 then s.ringCmdDone a0
        else if a4 ≠ 0 then s.ringCmdDone a4
        else
          let s := t.charge x.slice 0
          let s := if x.type = 4 then s.charge x.slice 4 else s
          let res := s.resident < 32768
          let s := if res then s.wr R.RNG_STATUS_resident (s.resident + 1) else s
          ((s.setRing r (x.eng' (fun e => { e with resident := res }))).mapDb x r).ringCmdDone 0

/-- ENABLE: loads the staged image into a DISABLED ring; all counts start at the image's head. -/
def State.ringEnable (s : State) (r : Nat) : State :=
  match s.ring r with
  | none => s.ringCmdDone St.ring_state
  | some x =>
    let b := s.stageImage
    let y := ringOf b s.time.ft
    if x.state ≠ 0 then s.ringCmdDone St.ring_state
    else if !s.ctxLegal b || y.type != x.type || y.slice != x.slice || y.target != x.target then s.ringCmdDone St.bad_desc
    else match s.ctxRange b with
      | none => s.ringCmdDone St.ring_range
      | some t =>
        if !s.dbFree b (some r) then s.ringCmdDone St.ring_conflict
        else
          let h := y.head
          let y := { y with tail := h, cpl := h, ack := h, state := 1, eng := { y.eng with resident := x.eng.resident, irqAt := h, evSeq := x.eng.evSeq } }
          ((((t.endFlight r x).unmapDb x).setRing r y).mapDb y r).ringCmdDone 0

/-- Posted entries of a receive or event ring that no data has begun to fill complete `ring_flushed` (R565). -/
def Ring.flushPosted (x : Ring) : Ring :=
  let post := fun (g : Flight) => let o := dOpcode g.desc
    (o == 0x11 || o == 3 || o == 0x27) && g.cpl.isNone && g.reported == 0
  x.eng' (fun e => { e with flight := e.flight.map (fun g => if post g then { g with performed := true, cpl := some { status := St.ring_flushed } } else g) })

/-- WAITs that watch a ring complete `wait_gone` when it is destroyed or flushed (R200). -/
def State.goneWaits (s : State) (r : Nat) : State :=
  let ws := s.rng.waits.filter (·.watched == r)
  let s := { s with rng := { s.rng with waits := s.rng.waits.filter (·.watched != r) } }
  ws.foldl (fun s w => s.fail w.ring w.count St.wait_gone) s

/-- DISABLE, with or without flush (R184, R192, R565). Descriptors that a STOPPED ring has in flight complete (table Ring states). -/
def State.ringDisable (s : State) (r : Nat) (flush : Bool) : State :=
  match s.ring r with
  | none => s.ringCmdDone St.ring_state
  | some x =>
    if x.state = 1 then
      let y := { x with state := 2, eng := { x.eng with copies := [], flushing := flush } }
      let y := y.flushPosted
      let s := s.setRing r y
      let s := if flush then s.goneWaits r else s
      s.ringCmdDone 0
    else if x.state = 3 then
      let y := { x with state := 0, eng := { x.eng with copies := [], marked := [], refetch := 0 } }
      (s.setRing r y.flushPosted).ringCmdDone 0
    else s.ringCmdDone St.ring_state

/-- evring_en of the slice falls when the ring that evring names is destroyed (06_slices.md R178). -/
def State.dropEvring (s : State) (r : Nat) (sl : Nat) : State :=
  if s.on R.SLC_STATE_evring_en sl ∧ s.rd R.SLC_STATE_evring sl = r then s.wr R.SLC_STATE_evring_en 0 sl else s

/-- A ring ceases to exist: page unmapped, entries returned to their pools, ID free. -/
def State.removeRing (s : State) (r : Nat) (x : Ring) : State :=
  let s := ((s.endFlight r x).unmapDb x).dropRing r
  let s := if x.eng.resident then s.wr R.RNG_STATUS_resident (s.resident - 1) else s
  let s := s.uncharge x.slice 0
  let s := if x.type = 4 then s.uncharge x.slice 4 else s
  (s.dropEvring r x.slice).goneWaits r

/-- DESTROY of a DISABLED ring. -/
def State.ringDestroy (s : State) (r : Nat) : State :=
  match s.ring r with
  | some x => if x.state = 0 then (s.removeRing r x).ringCmdDone 0 else s.ringCmdDone St.ring_state
  | none => s.ringCmdDone St.ring_state

/-- Write 64 bytes into the context stage. -/
def State.setStage (s : State) (b : List Byte) : State :=
  (List.range 8).foldl (fun s j => s.wr R.RNG_CTX_STAGE_ctx (fieldLE b (8 * j) 8) j) s

/-- READ copies a ring's context into the stage. -/
def State.ringRead (s : State) (r : Nat) : State :=
  match s.ring r with
  | some x => (s.setStage x.image).ringCmdDone 0
  | none => s.ringCmdDone St.ring_state

/-- RING_DRAINED: a STOPPING ring with nothing left to start and nothing in flight becomes DISABLED (R184). A receive
or event ring starts nothing more once it has left ACTIVE. -/
def State.ringDrained (s : State) (r : Nat) : State :=
  match s.ring r with
  | none => s
  | some x =>
    if x.state = 2 ∧ x.eng.flight.isEmpty ∧ before x.head x.tail = false then
      s.setRing r { x with state := 0, eng := { x.eng with flushing := false, copies := [], marked := [], refetch := 0 } }
    else s

/-! ### Residency (R182) -/

/-- A ring is idle: nothing to start, nothing in flight, no copy held. -/
def Ring.idle (x : Ring) : Bool := x.head == x.tail && x.eng.flight.isEmpty && x.eng.copies.isEmpty

/-- HBM address of a ring's husk. -/
def State.huskAddr (s : State) (r : Nat) : Nat := s.rd R.RNG_HUSK_BASE_base + 64 * r

/-- A context that is not resident begins to load. -/
def State.wantResident (s : State) (r : Nat) : State :=
  match s.ring r with
  | some x =>
    if x.eng.resident || x.eng.loading then s
    else (s.setRing r (x.eng' (fun e => { e with loading := true }))).sat R.RNG_STATUS_loading
  | none => s

/-- RING_EVICT: an idle context, idle for idle_us (at once when its volume dozes, 14_storage_queues.md R378), goes to its
husk when a load needs a resident entry and none is free. -/
def State.ringEvict (s : State) (r : Nat) : State :=
  match s.ring r with
  | none => s
  | some x =>
    let us := s.rd R.RNG_CFG_idle_us
    let lru := s.rng.rings.all (fun p => match p.2 with
      | some y => !y.eng.resident || !y.idle || x.eng.used ≤ y.eng.used
      | none => true)
    let dozes := x.type == 4 && s.rd R.STQ_VOL_STATE_pstate (x.target % 4096) != 0
    if x.eng.resident ∧ x.idle ∧ (us ≠ 0 ∨ dozes) ∧ 0 < s.rd R.RNG_STATUS_loading ∧ 32768 ≤ s.resident ∧ lru then
      let s := if dozes then s else s.runTo (x.eng.used + us * unitsPerUs)
      let s := (s.hbmWrite (s.huskAddr r) x.image).1
      (s.setRing r (x.eng' (fun e => { e with resident := false }))).wr R.RNG_STATUS_resident (s.resident - 1)
    else s

/-! ### Doorbells (R186-R188, R207) -/

/-- Count a discarded doorbell. -/
def State.dbDrop (s : State) (k : Nat) : State := s.sat R.RNG_DB_DROP_count 1 k

/-- RNG_ event 0x0002: doorbell overrun. -/
def State.overrunEvent (s : State) (r : Nat) (x : Ring) (count : Nat) : State :=
  s.sliceEvent 6 0 2 x.slice (leBytes 2 r ++ leBytes 2 0 ++ leBytes 4 count ++ leBytes 4 x.cpl ++ leBytes 4 0)

/-- A post (R187). -/
def State.dbPost (s : State) (r : Nat) (x : Ring) (count : Nat) : State :=
  if before count x.tail then s.dbDrop 2
  else if x.size < cdiff count x.cpl then (s.dbDrop 2).overrunEvent r x count
  else if count = x.tail then s
  else (s.setRing r { x with tail := count, eng := { x.eng with used := s.time.ft } }).issueFetch r

/-- An acknowledge: the consumed count is recorded and the interrupt armed again; one behind cpl_count fires at once
(R207). -/
def State.dbAck (s : State) (r : Nat) (x : Ring) (count : Nat) : State :=
  let s := s.setRing r { x with ack := count, eng := { x.eng with armed := true } }
  if x.signals ∧ before count x.cpl then s.ringFire r else s

/-- A doorbell value delivered to a ring (R187): the first failing condition discards and counts it. -/
def State.doorbell (s : State) (r : Nat) (v : Nat) : State :=
  match s.ring r with
  | none => s.dbDrop 0
  | some x =>
    if x.state ≠ 1 ∨ s.sliceActive x.slice = false then s.dbDrop 0
    else if bits v 55 48 ≠ s.sliceGen x.slice then s.dbDrop 1
    else if 1 < bits v 63 60 ∨ bits v 59 56 ≠ 0 ∨ bits v 47 32 ≠ 0 then s.dbDrop 3
    else if x.eng.resident = false then
      (s.setRing r (x.eng' (fun e => { e with parked := e.parked ++ [v] }))).wantResident r
    else if bits v 63 60 = 0 then s.dbPost r x (bits v 31 0)
    else s.dbAck r x (bits v 31 0)

/-- The ACTIVE slice whose doorbell range holds a page of a function (R157). -/
def State.pageSlice (s : State) (fn page : Nat) : Option Nat :=
  s.knownSlices.find? (fun x => s.sliceActive x && s.sliceFn x == some fn && s.rd R.SLC_BIND_db_base x ≤ page
    && page < s.rd R.SLC_BIND_db_base x + s.rd R.SLC_BIND_db_count x)

/-- A doorbell write to a page of BAR2 (R157, R186). -/
def State.pageDoorbell (s : State) (fn page v : Nat) : State :=
  if (s.pageSlice fn page).isNone then s.hifErr fn 1
  else if s.on R.RNG_DB_MAP_valid (dbIndex fn page) then s.doorbell (s.rd R.RNG_DB_MAP_ring (dbIndex fn page)) v
  else s.dbDrop 0

/-- RING_HUSK_LOADED: the load completes when a resident entry is free, and what waited proceeds. -/
def State.huskLoaded (s : State) (r : Nat) : State :=
  match s.ring r with
  | none => s
  | some x =>
    if x.eng.loading ∧ s.resident < 32768 then
      let d := s.hbmRead (s.huskAddr r) 64
      let s := d.next
      let vs := x.eng.parked
      let s := s.setRing r (x.eng' (fun e => { e with resident := true, loading := false, parked := [], used := s.time.ft }))
      let s := (s.wr R.RNG_STATUS_resident (s.resident + 1)).wr R.RNG_STATUS_loading (s.rd R.RNG_STATUS_loading - 1)
      vs.foldl (fun s v => s.doorbell r v) s
    else s

/-! ### NOP, WAIT, ABORT -/

/-- NOP completes with success and a byte count of 0 (R179). -/
def State.nop (s : State) (r : Nat) : State := s.perform r [0] (fun _ g s => s.finish r g.count { status := 0 })

/-- A watched count has reached a WAIT's target (R200). -/
def reached (cplCount target : Nat) : Bool := cdiff cplCount target < 2 ^ 31

/-- WAIT (R200). -/
def State.waitStart (s : State) (r : Nat) : State :=
  s.perform r [1] (fun x g s =>
    let w := fieldLE g.desc 0x10 2
    let t := fieldLE g.desc 0x14 4
    let us := fieldLE g.desc 0x18 4
    if fieldLE g.desc 0x12 2 ≠ 0 ∨ zeroFrom g.desc 0x1C = false then s.fail r g.count St.bad_desc
    else match s.ring w with
      | none => s.fail r g.count St.wait_gone
      | some y =>
        if y.slice ≠ x.slice ∧ x.slice ≠ 0 then s.fail r g.count St.slice_mismatch
        else if reached y.cpl t then s.finish r g.count { status := 0 }
        else
          let o : WaitOn := { ring := r, count := g.count, watched := w, target := t, deadline := if us = 0 then none else some (s.time.ft + us * unitsPerUs) }
          let s := s.performed r g.count
          { s with rng := { s.rng with waits := s.rng.waits ++ [o] } })

def State.dropWait (s : State) (o : WaitOn) : State := { s with rng := { s.rng with waits := s.rng.waits.filter (· != o) } }

/-- WAIT_SATISFIED: the watched count has reached the target of a ring's WAIT. -/
def State.waitDone (s : State) (r : Nat) : State :=
  match s.rng.waits.find? (·.ring == r) with
  | none => s
  | some o => match s.ring o.watched with
    | some y => if reached y.cpl o.target then (s.dropWait o).finish r o.count { status := 0 } else s
    | none => s

/-- WAIT_TIMEOUT: the timeout passes first; success wins a tie (R200). -/
def State.waitTimeout (s : State) (r : Nat) : State :=
  match s.rng.waits.find? (·.ring == r) with
  | none => s
  | some o => match o.deadline with
    | none => s
    | some t =>
      let ok := match s.ring o.watched with
        | some y => reached y.cpl o.target
        | none => false
      if ok then (s.dropWait o).finish r o.count { status := 0 }
      else ((s.runTo t).dropWait o).fail r o.count St.wait_timeout

/-- WAIT_GONE: the watched ring no longer exists or was flushed. -/
def State.waitGone (s : State) (r : Nat) : State :=
  match s.rng.waits.find? (·.ring == r) with
  | none => s
  | some o => match s.ring o.watched with
    | none => (s.dropWait o).fail r o.count St.wait_gone
    | some y => if y.eng.flushing then (s.dropWait o).fail r o.count St.wait_gone else s

/-- ABORT (R201). -/
def State.abortStart (s : State) (r : Nat) : State :=
  s.perform r [2] (fun x g s =>
    let t := fieldLE g.desc 0x10 2
    let c := fieldLE g.desc 0x14 4
    if fieldLE g.desc 0x12 2 ≠ 0 ∨ zeroFrom g.desc 0x18 = false then s.fail r g.count St.bad_desc
    else match s.ring t with
      | none => s.fail r g.count St.abort_none
      | some y =>
        if y.slice ≠ x.slice ∧ x.slice ≠ 0 then s.fail r g.count St.slice_mismatch
        else if before c y.tail = false then s.fail r g.count St.abort_none
        else if before c (cnt (y.tail + 2 ^ 32 - y.size)) then s.fail r g.count St.too_late
        else if before c y.head = false then
          let s := s.setRing t (y.eng' (fun e => { e with marked := e.marked ++ [c] }))
          s.finish r g.count { status := 0 }
        else if y.eng.flight.any (·.count == c) then
          let s := s.performed r g.count
          { s with rng := { s.rng with aborts := s.rng.aborts ++ [{ ring := r, count := g.count, tRing := t, tCount := c }] } }
        else s.fail r g.count St.too_late)

/-- ABORT_ARRIVE (R202, R203): the oldest ABORT reaches the completion writer. A target that has finished keeps its
status and the ABORT is too late; otherwise the target completes `aborted` with the bytes reported so far, and its
tag's generation advances. -/
def State.abortArrive (s : State) : State :=
  match s.rng.aborts with
  | [] => s
  | a :: rest =>
    let s := { s with rng := { s.rng with aborts := rest } }
    match s.flight a.tRing a.tCount with
    | none => s.fail a.ring a.count St.too_late
    | some g =>
      if g.cpl.isSome then s.fail a.ring a.count St.too_late
      else
        let s := s.tagLate a.tRing g
        let s := { s with rng := { s.rng with waits := s.rng.waits.filter (fun w => !(w.ring == a.tRing && w.count == a.tCount)) } }
        let s := s.modFlight a.tRing a.tCount (fun g => { g with performed := true, staged := false, cpl := some { status := St.aborted, bytes := g.reported } })
        s.finish a.ring a.count { status := 0 }

/-! ### Receive and event rings (R204-R206) -/

/-- RECV_BUF posts a receive buffer. -/
def State.recvBuf (s : State) (r : Nat) : State :=
  s.perform r [0x11] (fun _ g s =>
    let n := fieldLE g.desc 0x18 4
    if n < 64 ∨ 16384 < n ∨ zeroFrom g.desc 0x1C = false then s.fail r g.count St.bad_desc else s.performed r g.count)

/-- EVENT_SLOT posts an empty entry on an event ring. -/
def State.eventSlot (s : State) (r : Nat) : State := s.perform r [3] (fun _ g s => s.performed r g.count)

/-- The first posted entry of a ring that nothing fills. -/
def Ring.firstPosted (x : Ring) (op : Nat) : Option Flight :=
  if x.state = 1 then x.eng.flight.find? (fun g => g.performed && g.cpl.isNone && g.reported == 0 && dOpcode g.desc == op) else none

/-- The 32 bytes of an event record (table Event record). -/
def eventBytes (e : EventRec) : List Byte :=
  leBytes 1 e.block ++ leBytes 1 e.inst ++ leBytes 2 e.code ++ leBytes 2 e.slice ++ leBytes 2 e.lost ++ leBytes 8 e.stamp
    ++ (e.detail ++ List.replicate 16 0).take 16

/-- EVENT_RECORD: the oldest waiting record fills the next posted entry of its slice's event ring, or is dropped and
counted in `lost`; the sequence number advances either way (R205, R206). With evring_en 0 there is no ring and the
record is gone. -/
def State.deliverEvent (s : State) : State :=
  match s.evq with
  | [] => s
  | e :: rest =>
    let s := { s with evq := rest }
    if s.on R.SLC_STATE_evring_en e.toSlice = false then s
    else
      let r := s.rd R.SLC_STATE_evring e.toSlice
      match s.ring r with
      | none => s
      | some x =>
        if x.type ≠ 2 then s
        else match x.firstPosted 3 with
          | none => s.setRing r (x.eng' (fun n => { n with evSeq := n.evSeq + 1, lost := min (n.lost + 1) 0xFFFF }))
          | some g =>
            let b := leBytes 8 x.eng.evSeq ++ eventBytes { e with lost := x.eng.lost }
            let s := s.setRing r (x.eng' (fun n => { n with evSeq := n.evSeq + 1, lost := 0 }))
            s.finish r g.count { status := 0, bytes := 32, x18 := b }

/-- evring and evring_en of a slice are written (06_slices.md R178). -/
def State.evringWr (s : State) (sl v : Nat) : State :=
  let r := bits v 47 32
  let en := bit v 48
  let ok := match s.ring r with
    | some x => x.type == 2 && x.slice == sl
    | none => false
  let s := s.wr R.SLC_STATE_evring r sl
  if en && !ok then (s.wr R.SLC_STATE_evring_en 0 sl).quotaErr St.slice_mismatch
  else s.wr R.SLC_STATE_evring_en (b2n en) sl

/-! ### Commands of the ring engine -/

def execRingDrained (r : Fin 65536) (s : State) : Out := s.whenMain (·.ringDrained r)
def execRingHuskLoaded (r : Fin 65536) (s : State) : Out := s.whenMain (·.huskLoaded r)
def execRingEvict (r : Fin 65536) (s : State) : Out := s.whenMain (·.ringEvict r)
def execDescriptorRead (r : Fin 65536) (s : State) : Out := s.whenMain (·.descRead r)
def execRefetch (r : Fin 65536) (s : State) : Out := s.whenMain (·.refetch r)
def execNop (r : Fin 65536) (s : State) : Out := s.whenMain (·.nop r)
def execWait (r : Fin 65536) (s : State) : Out := s.whenMain (·.waitStart r)
def execWaitSatisfied (r : Fin 65536) (s : State) : Out := s.whenMain (·.waitDone r)
def execWaitTimeout (r : Fin 65536) (s : State) : Out := s.whenMain (·.waitTimeout r)
def execWaitGone (r : Fin 65536) (s : State) : Out := s.whenMain (·.waitGone r)
def execAbort (r : Fin 65536) (s : State) : Out := s.whenMain (·.abortStart r)
def execCompletionWrite (r : Fin 65536) (s : State) : Out := s.whenMain (·.writeCpl r)
def execModTimer (r : Fin 65536) (s : State) : Out := s.whenMain (·.modTimer r)
def execRecvBuf (r : Fin 65536) (s : State) : Out := s.whenMain (·.recvBuf r)
def execEventSlot (r : Fin 65536) (s : State) : Out := s.whenMain (·.eventSlot r)
def execEventRecord (s : State) : Out := s.whenMain State.deliverEvent
def execLaunchPrefetch (r : Fin 65536) (s : State) : Out := s.whenMain (·.launchPrefetch r)
def execLaunchRelease (r : Fin 65536) (s : State) : Out := s.whenMain (·.launchRelease r)

/-- DOORBELL_POST: a host writes a post value to a doorbell page of a function (R186). -/
def execDoorbellPost (hif : Fin 2) (pf : Fin 8) (page : Fin 4096) (gen : Fin 256) (count : Nat) (s : State) : Out :=
  s.whenMain (fun s => if s.fnReady (8 * hif + pf) then s.pageDoorbell (8 * hif + pf) page (gen * 2 ^ 48 + count % 2 ^ 32) else s)

/-- DOORBELL_ACK: a host writes an acknowledge value to a doorbell page (R207). -/
def execDoorbellAck (hif : Fin 2) (pf : Fin 8) (page : Fin 4096) (gen : Fin 256) (count : Nat) (s : State) : Out :=
  s.whenMain (fun s => if s.fnReady (8 * hif + pf) then
    s.pageDoorbell (8 * hif + pf) page (2 ^ 60 + gen * 2 ^ 48 + count % 2 ^ 32) else s)

end Sys2Proof.Machine
end

