-- ==== Sys2Proof/Machine/Staged.lean ====
section
/-! DEFINITION. Staged register values as wholes: which key is an RWS field, making the staged values of a range of BAR0
active, and taking staged changes back (00_scope.md R9; 02_fabric_time.md R65; 09_parsing.md R258, R260). -/

namespace Sys2Proof.Machine

/-- The field of a register table that a key of the register store names, if the register begins at `off`. -/
def fldFrom (off key : Nat) : Option Fld :=
  (regAt off).bind (fun r => r.1.flds.find? (fun f => f.lo + 8 * off == key))

/-- The field that a key of the register store names. -/
def fldAt (key : Nat) : Option Fld :=
  let b := key / 8
  match fldFrom (b / 8 * 8) key with
  | some f => some f
  | none => fldFrom (b / 4 * 4) key

/-- The key names the profile or the preset of a block's header (R36). -/
def isProfileKey (key : Nat) : Bool :=
  match blkAt (key / 8) with
  | some (b, n) => b.levels && (key == 8 * (b.base + n * b.stride + 0x10) || key == 8 * (b.base + n * b.stride + 0x11))
  | none => false

/-- The key names an RWS field. -/
def isRws (key : Nat) : Bool :=
  isProfileKey key || (match fldAt key with
    | some f => f.acc == .rws
    | none => false)

/-- The entries of a store whose keys lie in [lo, hi). -/
def Store.within (m : List (Nat × Nat)) (lo hi : Nat) : List (Nat × Nat) := m.filter (fun p => lo ≤ p.1 && p.1 < hi)

/-- Put every entry of `new` into `m`. -/
def Store.merge (m new : List (Nat × Nat)) : List (Nat × Nat) := new.foldl (fun m p => Store.ins p.1 p.2 (Store.drop m p.1)) m

/-- The staged values of all RWS fields in the BAR0 bytes [lo, hi) become active. -/
def State.applyRange (s : State) (lo hi : Nat) : State :=
  let new := (Store.within s.regs (8 * lo) (8 * hi)).filter (fun p => isRws p.1)
  { s with act := Store.merge (Store.clear s.act (8 * lo) (8 * hi)) new }

/-- The staged values of all RWS fields in [lo, hi) go back to the active ones. -/
def State.unstageRange (s : State) (lo hi : Nat) : State :=
  let keep := s.regs.filter (fun p => !(8 * lo ≤ p.1 && p.1 < 8 * hi && isRws p.1))
  { s with regs := Store.merge keep (Store.within s.act (8 * lo) (8 * hi)) }

/-- Some RWS field in [lo, hi) is staged with a value that is not active. -/
def State.stagedRange (s : State) (lo hi : Nat) : Bool :=
  (Store.within s.regs (8 * lo) (8 * hi)).filter (fun p => isRws p.1) != Store.within s.act (8 * lo) (8 * hi)

end Sys2Proof.Machine
end

