-- ==== Sys2Proof/Machine/Tables.lean ====
section
/-! DEFINITION. Forwarding tables: rule versions (09_parsing.md R257-R261), the TCAM and the exact-match tables, table
commands (10_forwarding_tables.md R265-R274, R283-R285, R562), and the TCAM sweeper (04_memories_ecc.md R111, R112).
Versions count all commits since reset; the registers show them modulo 16. -/

namespace Sys2Proof.Machine

/-! ### Pipelines -/

def State.pipe (s : State) (n : Nat) : PipeSt := Store.get {} s.tbl.pipes n

def State.setPipe (s : State) (n : Nat) (p : PipeSt) : State :=
  { s with tbl := { s.tbl with pipes := Store.put {} s.tbl.pipes n p } }

def pipeBase (n : Nat) : Nat := 0x1000000 + n * 0x200000

/-- Count an event of a pipeline (R264) and of its tables. -/
def State.pcnt (s : State) (n c : Nat) : State := s.bump R.PIPE_CNT_count n c
def State.tcnt (s : State) (n c : Nat) : State := s.bump R.PIPE_TBL_CNT_count n c

/-- The pipeline that the sleeve substitutes, and the pipelines on which an operation that names `n` acts: with the
sleeve's mirroring, both copies (11_switch_core.md R304). -/
def State.sleevePipe (s : State) : Nat := s.rd R.SWC_SLEEVE_STATUS_pipe
def State.copies (s : State) (n : Nat) : List Nat :=
  if s.swc.mirroring ∧ n = s.sleevePipe then (if s.swc.mirrorLost then [8] else [n, 8]) else [n]

/-- The value that a field of pipeline `n` has under version `v` (R257, R562). -/
def State.pv (s : State) (n v : Nat) (f : Fld) (j : Nat := 0) (k : Nat := 0) : Nat :=
  let p := s.pipe n
  if p.ver < v then s.rd f n j k
  else if v = p.ver then s.ac f n j k
  else match p.old.find? (·.1 == v) with
    | some (_, m) => Store.get (f.rst n j k) m (f.key n j k)
    | none => s.ac f n j k

/-- The oldest live version. -/
def PipeSt.oldest (p : PipeSt) : Nat := match p.old with
  | (v, _) :: _ => v
  | [] => p.ver

/-- The version registers after a change of the versions. -/
def State.showVer (s : State) (n : Nat) : State :=
  let p := s.pipe n
  (((s.wr R.PIPE_VER_STATUS_active p.ver n).wr R.PIPE_VER_STATUS_staged (p.ver + 1) n).wr
    R.PIPE_VER_STATUS_oldest p.oldest n).wr R.PIPE_VER_STATUS_live_count (p.old.length + 1) n

def State.dirty (s : State) (n : Nat) : State := s.raise R.PIPE_VER_STATUS_dirty n

/-- An absolute version that four bits name: the staged one, or a live one (R283). -/
def State.namedVer (s : State) (n b : Nat) : Option Nat :=
  let p := s.pipe n
  ((p.ver + 1) :: p.ver :: p.old.map (·.1)).find? (· % 16 == b)

/-! ### TCAM -/

def tcamKey (n i : Nat) : Nat := n * 65536 + i

def State.tent (s : State) (n i : Nat) : TEnt := Store.get {} s.tbl.tcam (tcamKey n i)

def State.setTent (s : State) (n i : Nat) (e : TEnt) : State :=
  { s with tbl := { s.tbl with tcam := Store.put {} s.tbl.tcam (tcamKey n i) e } }

/-- Blocks of a stage under a version; stage 16 is the basic program (R262). -/
def State.tcamBlocks (s : State) (n v stage : Nat) : List Nat :=
  if stage = 16 then (List.range 16).map (· + 48)
  else (List.range 64).filter (fun b => s.pv n v R.PIPE_TCAM_MAP_en b == 1 && s.pv n v R.PIPE_TCAM_MAP_stage b == stage)

/-- The entry is visible to version `v` (R257, table TCAM entry states). -/
def TEnt.visible (e : TEnt) (v : Nat) : Bool := (e.state == 1 && e.add ≤ v) || (e.state == 2 && e.add ≤ v && v < e.del)

/-- Entries of the TCAM of pipeline `n`: index and entry, in rising order. -/
def State.tcamOf (s : State) (n : Nat) : List (Nat × TEnt) :=
  (s.tbl.tcam.filter (fun p => tcamKey n 0 ≤ p.1 && p.1 < tcamKey (n + 1) 0)).map (fun p => (p.1 - tcamKey n 0, p.2))

/-- The winning entry of a stage for a 160-bit key (R265). -/
def State.tcamLookup (s : State) (n v stage key : Nat) : Option (Nat × TEnt) :=
  let bs := s.tcamBlocks n v stage
  (s.tcamOf n).find? (fun p => bs.contains (p.1 / 1024) && p.2.visible v && ((key ^^^ p.2.value) &&& p.2.mask) == 0)

/-! ### Exact match -/

def emKey (n i : Nat) : Nat := n * 262144 + i

def State.em (s : State) (n i : Nat) : Option EmEnt := Store.get none s.tbl.em (emKey n i)

def State.setEm (s : State) (n i : Nat) (e : Option EmEnt) : State :=
  { s with tbl := { s.tbl with em := Store.put none s.tbl.em (emKey n i) e } }

def State.emOf (s : State) (n : Nat) : List (Nat × EmEnt) :=
  s.tbl.em.filterMap (fun p => match p.2 with
    | some e => if emKey n 0 ≤ p.1 ∧ p.1 < emKey (n + 1) 0 then some (p.1 - emKey n 0, e) else none
    | none => none)

def rotl32 (x n : Nat) : Nat := (x * 2 ^ n) % 2 ^ 32 + x / 2 ^ (32 - n)

/-- Bucket of a 96-bit key in a bank (R270). -/
def emBucket (b k : Nat) : Nat :=
  let x := (bits k 31 0 ^^^ rotl32 (bits k 63 32) 11) ^^^ rotl32 (bits k 95 64) 22
  let c := (b + 1) * 0x85EBCA6B % 2 ^ 32
  (x ^^^ c) * 0x9E3779B1 % 2 ^ 32 / 2 ^ 20

/-- Banks of a stage's table under a version; stage 16 is the basic table. -/
def State.emBanks (s : State) (n v stage : Nat) : List Nat :=
  if stage = 16 then [12, 13, 14, 15]
  else (List.range 16).filter (fun b => s.pv n v R.PIPE_EM_MAP_en b == 1 && s.pv n v R.PIPE_EM_MAP_stage b == stage)

/-- The table of an entry index is that of the stage. -/
def inBanks (bs : List Nat) (i : Nat) : Bool := bs.contains (i / 16384)

/-- Candidates of a key, lowest bank and way first (R270, R273). -/
def candidates (bs : List Nat) (k : Nat) : List Nat :=
  bs.flatMap (fun b => (List.range 4).map (fun w => b * 16384 + emBucket b k * 4 + w))

def EmEnt.visible (e : EmEnt) (v : Nat) : Bool :=
  e.learned || (e.add ≤ v && (match e.del with
    | some d => v < d
    | none => true))

/-- The entry that a lookup of key `k` would hit (R272); `sprouts` says whether sprouts hit. -/
def State.emFind (s : State) (n v : Nat) (bs : List Nat) (k : Nat) (sprouts : Bool) : Option (Nat × EmEnt) :=
  let c := (candidates bs k).filterMap (fun i => (s.em n i).map (fun e => (i, e)))
  let c := c.filter (fun p => p.2.key == k && p.2.visible v && (!p.2.sprout || sprouts))
  match c.find? (fun p => !p.2.learned) with
  | some p => some p
  | none => c.find? (·.2.learned)

/-- Bytes of an exact-match entry (table Exact-match entry). -/
def EmEnt.image (e : EmEnt) : List Byte :=
  let ver := if e.learned then 0 else e.add % 16 + 16 * (e.del.getD 0 % 16)
  let fl := if e.learned then 3 + 4 * b2n e.sprout + 8 * b2n e.hit + 16 * b2n e.pinned + 32 * e.age
    else 1 + 4 * b2n e.del.isSome
  leBytes 12 e.key ++ leBytes 2 e.act ++ leBytes 1 ver ++ leBytes 1 fl

/-- A learned entry is deleted: its tracker history ends with it (R280). -/
def State.dropLearned (s : State) (n i : Nat) (e : EmEnt) : State :=
  let p := s.pipe n
  let t := p.track.filter (fun t => !(t.key == e.key && inBanks (s.emBanks n p.ver t.stage) i))
  ((s.setEm n i none).setPipe n { p with track := t }).wr R.PIPE_LEARN_STATUS_tracked t.length n

/-- Evictable candidates (R273): learned and not pinned, sprouts alone when there is one. -/
def State.evictable (s : State) (n : Nat) (cs : List Nat) : List (Nat × EmEnt) :=
  let l := (cs.filterMap (fun i => (s.em n i).map (fun e => (i, e)))).filter (fun p => p.2.learned && !p.2.pinned)
  if l.any (·.2.sprout) then l.filter (·.2.sprout) else l

/-- The oldest of some entries: greatest age, lowest index on ties. -/
def oldestOf : List (Nat × EmEnt) → Option (Nat × EmEnt)
  | [] => none
  | p :: l => match oldestOf l with
    | some q => if p.2.age < q.2.age then some q else some p
    | none => some p

/-- Insert an entry (R273): the index taken and the entry evicted, or none when the insertion fails. `policy` 0 never
evicts, 1 evicts a random and 2 the oldest occupant; the random draw is a free value. -/
def State.emInsert (s : State) (n : Nat) (bs : List Nat) (e : EmEnt) (policy : Nat) : Option (Nat × Option EmEnt × State) :=
  let cs := candidates bs e.key
  match cs.find? (fun i => (s.em n i).isNone) with
  | some i => some (i, none, s.setEm n i (some e))
  | none =>
    let l := s.evictable n cs
    if policy = 1 ∧ l.isEmpty = false then
      let (x, s) := s.draw
      match l[Config.evictPick x % l.length]? with
      | some (i, o) => some (i, some o, ((s.dropLearned n i o).setEm n i (some e)).tcnt n 5)
      | none => none
    else if policy = 2 then
      match oldestOf l with
      | some (i, o) => some (i, some o, ((s.dropLearned n i o).setEm n i (some e)).tcnt n 5)
      | none => none
    else none

/-- The policy of a table's evict field. -/
def State.emPolicy (s : State) (n v stage : Nat) : Nat :=
  let p := s.pv n v R.PIPE_EM_CFG_evict stage
  if p = 3 then 0 else p

/-! ### Versions (R257-R260) -/

/-- Width in bits of a header field by ID (table Header fields); 0: no such field. -/
def fieldWidth (id : Nat) : Nat :=
  if id ≤ 1 then 48
  else if id ≤ 5 then 16
  else if id = 6 then 32
  else if id ≤ 0xC then 20
  else if id = 0xD then 3
  else match id with
    | 0x10 => 8 | 0x11 => 8 | 0x12 => 8 | 0x13 => 128 | 0x14 => 128 | 0x15 => 16 | 0x16 => 15 | 0x17 => 20 | 0x18 => 16
    | 0x20 => 16 | 0x21 => 16 | 0x22 => 9 | 0x23 => 16 | 0x24 => 16
    | 0x28 => 24 | 0x29 => 16 | 0x2A => 7 | 0x2B => 24 | 0x2C => 16 | 0x2D => 32
    | 0x30 => 8 | 0x31 => 24 | 0x32 => 24 | 0x33 => 8 | 0x34 => 16 | 0x35 => 32 | 0x36 => 32
    | _ => 0

/-- The five fields of a selector register. -/
structure SelFlds where
  src : Fld
  layer : Fld
  id : Fld
  lsb : Fld
  wm1 : Fld

def stageSel : SelFlds :=
  { src := R.PIPE_STAGE_SEL_src, layer := R.PIPE_STAGE_SEL_layer, id := R.PIPE_STAGE_SEL_id, lsb := R.PIPE_STAGE_SEL_lsb
    wm1 := R.PIPE_STAGE_SEL_wm1 }

def learnSel : SelFlds :=
  { src := R.PIPE_LEARN_SEL_src, layer := R.PIPE_LEARN_SEL_layer, id := R.PIPE_LEARN_SEL_id, lsb := R.PIPE_LEARN_SEL_lsb
    wm1 := R.PIPE_LEARN_SEL_wm1 }

/-- A selector of a version is legal (R244). -/
def State.selLegal (s : State) (n v : Nat) (f : SelFlds) (st j : Nat) : Bool :=
  let id := s.pv n v f.id st j
  let top := s.pv n v f.lsb st j + s.pv n v f.wm1 st j
  match s.pv n v f.src st j with
  | 0 => top < fieldWidth id
  | 1 => id < 64 && 8 * id + top < 512
  | _ => false

/-- Total width of the first `k` selectors. -/
def State.selWidth (s : State) (n v : Nat) (f : SelFlds) (st k : Nat) : Nat :=
  (List.range k).foldl (fun a j => a + s.pv n v f.wm1 st j + 1) 0

/-- Key width of a table type. -/
def typeWidth : Nat → Nat
  | 1 => 160
  | 2 => 96
  | 3 => 16
  | _ => 0

/-- Refusal cause of the staged values of a pipeline; 0 when they are legal (R244, R260, R275). A learn target is
judged for a stage with learn selectors (log entry 9). -/
def State.stagedCause (s : State) (n : Nat) : Nat :=
  let v := (s.pipe n).ver + 1
  let stages := List.range 16
  let ty := fun st => s.pv n v R.PIPE_STAGE_CFG_type st
  let ns := fun st => s.pv n v R.PIPE_STAGE_CFG_nsel st
  let ln := fun st => s.pv n v R.PIPE_EM_CFG_nsel st
  if stages.any (fun st => ln st != 0 && ty (s.pv n v R.PIPE_EM_CFG_target st) != 2) then 2
  else if stages.any (fun st => (ty st != 0 && ns st ≤ 8 && typeWidth (ty st) < s.selWidth n v stageSel st (ns st))
      || (ln st ≤ 8 && 96 < s.selWidth n v learnSel st (ln st))) then 3
  else if (List.range 64).any (fun b => s.pv n v R.PIPE_TCAM_MAP_en b == 1 && ty (s.pv n v R.PIPE_TCAM_MAP_stage b) != 1)
      || stages.any (fun b => s.pv n v R.PIPE_EM_MAP_en b == 1 && ty (s.pv n v R.PIPE_EM_MAP_stage b) != 2) then 4
  else if 3 < s.rd hdrPreset (pipeBase n) then 5
  else if stages.any (fun st => 8 < ns st || 8 < ln st || (List.range (ns st)).any (fun j => !s.selLegal n v stageSel st j)
      || (List.range (ln st)).any (fun j => !s.selLegal n v learnSel st j)) then 6
  else 0

/-- A commit or arm of pipeline `n` is refused. -/
def State.verRefuse (s : State) (n cause : Nat) : State :=
  (s.raise R.PIPE_VER_STATUS_refused n).wr R.PIPE_VER_STATUS_refuse_cause cause n

/-- The staged version of one pipeline instance becomes active (R258). -/
def State.commitOne (s : State) (n : Nat) : State :=
  let p := s.pipe n
  let lo := pipeBase n
  let hi := lo + 0x200000
  let snap := (p.ver, Store.within s.act (8 * lo) (8 * hi))
  (((s.applyRange lo hi).setPipe n { p with ver := p.ver + 1, old := p.old ++ [snap] }).showVer n).wr R.PIPE_VER_STATUS_dirty 0 n

/-- The pipeline is armed in a running epoch; the sleeve acknowledges as the pipeline it mirrors (R304). -/
def State.pipeArmed (s : State) (n : Nat) : Bool :=
  s.armed (if n = 8 ∧ s.swc.mirroring then s.sleevePipe else n)

/-- A write of commit (R258-R261). -/
def State.verCommit (s : State) (n : Nat) : State :=
  if s.pipeArmed n then s.verRefuse n 7
  else if 4 ≤ (s.pipe n).old.length + 1 then s.verRefuse n 1
  else
    let c := s.stagedCause n
    if c ≠ 0 then s.verRefuse n c else (s.copies n).foldl State.commitOne s

/-- TCAM entries of pipeline `n` changed one by one. -/
def State.mapTcam (s : State) (n : Nat) (f : TEnt → TEnt) : State :=
  let m := s.tbl.tcam.map (fun p => if tcamKey n 0 ≤ p.1 && p.1 < tcamKey (n + 1) 0 then (p.1, f p.2) else p)
  { s with tbl := { s.tbl with tcam := m.filter (fun p => p.2 != ({} : TEnt)) } }

/-- Exact-match entries of pipeline `n` changed one by one. -/
def State.mapEm (s : State) (n : Nat) (f : EmEnt → Option EmEnt) : State :=
  let m := s.tbl.em.map (fun p => if emKey n 0 ≤ p.1 && p.1 < emKey (n + 1) 0 then (p.1, p.2.bind f) else p)
  { s with tbl := { s.tbl with em := m.filter (fun p => p.2.isSome) } }

/-- Staged changes of one pipeline instance are dropped (R260, R266). -/
def State.discardOne (s : State) (n : Nat) : State :=
  let v := (s.pipe n).ver + 1
  let lo := pipeBase n
  let s := s.unstageRange lo (lo + 0x200000)
  let s := s.mapTcam n (fun e =>
    if e.add = v ∧ e.state ≠ 0 then {}
    else if e.state = 2 ∧ e.del = v then { e with state := 1, del := 0 }
    else if e.state = 3 ∧ e.prev = 2 ∧ e.del = v then { e with prev := 1, del := 0 }
    else e)
  let s := s.mapEm n (fun e =>
    if e.learned then some e
    else if e.add = v then none
    else if e.del = some v then some { e with del := none }
    else some e)
  s.wr R.PIPE_VER_STATUS_dirty 0 n

/-- A write of discard; during an armed epoch it is ignored. -/
def State.verDiscard (s : State) (n : Nat) : State :=
  if s.pipeArmed n then s else (s.copies n).foldl State.discardOne s

/-- The oldest version of one pipeline instance retires; entries deleted in a version that no live version precedes are
freed (R259). -/
def State.retireOne (s : State) (n : Nat) : State :=
  let p := s.pipe n
  match p.old with
  | [] => s
  | _ :: rest =>
    let p := { p with old := rest }
    let o := p.oldest
    let s := (s.setPipe n p).mapTcam n (fun e =>
      if (e.state = 2 ∨ (e.state = 3 ∧ e.prev = 2)) ∧ e.del ≤ o then {} else e)
    let s := s.mapEm n (fun e => match e.del with
      | some d => if e.learned = false ∧ d ≤ o then none else some e
      | none => some e)
    s.showVer n

/-! ### Table commands -/

/-- Fields of a table command (table Table command descriptor). -/
structure TCmd where
  op : Nat
  pipe : Nat
  stage : Nat
  idx : Nat
  act : Nat
  opt : Nat
  ver : Nat
  key : Nat
  mask : Nat
  deriving DecidableEq, Repr

def tcmdOf (d : List Byte) : TCmd :=
  { op := dOpcode d, pipe := fieldLE d 0x10 1, stage := fieldLE d 0x11 1, idx := fieldLE d 0x12 2, act := fieldLE d 0x14 2
    opt := fieldLE d 0x16 1, ver := fieldLE d 0x17 1, key := fieldLE d 0x18 20, mask := fieldLE d 0x2C 20 }

/-- A reserved bit is set, or the pipe or stage is out of range (R283). -/
def TCmd.malformed (c : TCmd) : Bool :=
  let em := 0x65 ≤ c.op
  8 < c.pipe || 16 < c.stage || bit c.opt 7 || 32 ≤ c.ver || (c.op ≤ 0x63 && c.stage != 0)
    || (c.op != 0x60 && c.mask != 0) || (em && c.key / 2 ^ 96 != 0)

/-- An exact-match key of a command. -/
def TCmd.ekey (c : TCmd) : Nat := c.key % 2 ^ 96

/-- The stage has an exact-match table under version `v` (R283). -/
def State.hasEm (s : State) (n v stage : Nat) : Bool :=
  stage == 16 || (s.pv n v R.PIPE_STAGE_CFG_type stage == 2 && !(s.emBanks n v stage).isEmpty)

/-- The software entry of a key that is visible in the staged version. -/
def State.emStaged (s : State) (n stage k : Nat) : Option (Nat × EmEnt) :=
  let v := (s.pipe n).ver + 1
  ((candidates (s.emBanks n v stage) k).filterMap (fun i => (s.em n i).map (fun e => (i, e)))).find?
    (fun p => !p.2.learned && p.2.key == k && p.2.visible v)

/-- The learned entry of a key, under the active maps. -/
def State.emLearned (s : State) (n stage k : Nat) : Option (Nat × EmEnt) :=
  ((candidates (s.emBanks n (s.pipe n).ver stage) k).filterMap (fun i => (s.em n i).map (fun e => (i, e)))).find?
    (fun p => p.2.learned && p.2.key == k)

/-- Delete a software entry under the staged version: one added in it is freed at once (R266, R283). -/
def State.emDeleteSoft (s : State) (n i : Nat) (e : EmEnt) : State :=
  let v := (s.pipe n).ver + 1
  (if e.add = v then s.setEm n i none else s.setEm n i (some { e with del := some v })).dirty n

/-- What a command answers. -/
abbrev TAns := State × Cpl

def ans (s : State) (st : Nat) : TAns := (s, { status := st })

/-- TCAM_WRITE on one instance (R266, R269). -/
def State.tcamWrite (s : State) (n : Nat) (c : TCmd) : TAns :=
  let e := s.tent n c.idx
  if bit c.opt 2 then
    if e.state = 3 then ans (s.setTent n c.idx { e with state := e.prev, prev := 0, value := c.key, mask := c.mask }) 0
    else ans s St.tbl_state
  else if e.state = 0 then
    ans ((s.setTent n c.idx { value := c.key, mask := c.mask, act := c.act, add := (s.pipe n).ver + 1, state := 1 }).dirty n) 0
  else ans s St.tbl_slot

/-- TCAM_DELETE on one instance. -/
def State.tcamDelete (s : State) (n : Nat) (c : TCmd) : TAns :=
  let e := s.tent n c.idx
  let v := (s.pipe n).ver + 1
  if e.state ≠ 1 then ans s St.tbl_slot
  else ans ((s.setTent n c.idx (if e.add = v then {} else { e with state := 2, del := v })).dirty n) 0

/-- TCAM_MOVE on one instance (R267). -/
def State.tcamMove (s : State) (n : Nat) (c : TCmd) : TAns :=
  let e := s.tent n c.idx
  if (e.state = 1 ∨ e.state = 2) ∧ (s.tent n c.act).state = 0 then ans ((s.setTent n c.idx {}).setTent n c.act e) 0
  else ans s St.tbl_slot

/-- The 64-byte record of TCAM_READ. -/
def TEnt.record (e : TEnt) : List Byte :=
  let off := e.state = 3
  leBytes 20 (if off then 0 else e.value) ++ leBytes 20 (if off then 0 else e.mask) ++ leBytes 2 e.act
    ++ leBytes 1 (e.add % 16 + 16 * (e.del % 16)) ++ leBytes 1 e.state ++ leBytes 20 0

/-- EM_INSERT on one instance (R273, R274). -/
def State.emInsertCmd (s : State) (n : Nat) (c : TCmd) : TAns :=
  let v := (s.pipe n).ver + 1
  if (s.emStaged n c.stage c.ekey).isSome then ans s St.tbl_exists
  else
    let e : EmEnt := { key := c.ekey, act := c.act, add := v }
    let pol := if bit c.opt 0 then s.emPolicy n v c.stage else 0
    match s.emInsert n (s.emBanks n v c.stage) e pol with
    | none => ans s St.tbl_full
    | some (i, o, t) =>
      let t := t.dirty n
      let t := match o with
        | some x => if t.pv n (t.pipe n).ver R.PIPE_EM_CFG_ev_learn c.stage = 1 then
            t.event 8 n 0x14 (leBytes 12 x.key ++ leBytes 2 x.act ++ leBytes 1 c.stage ++ leBytes 1 0)
          else t
        | none => t
      (t, { status := 0, x18 := leBytes 4 i ++ (match o with | some x => x.image | none => leBytes 16 0) })

/-- EM_DELETE on one instance. -/
def State.emDeleteCmd (s : State) (n : Nat) (c : TCmd) : TAns :=
  if bit c.opt 1 then match s.emLearned n c.stage c.ekey with
    | some (i, e) => ans (s.dropLearned n i e) 0
    | none => ans s St.tbl_absent
  else match s.emStaged n c.stage c.ekey with
    | some (i, e) => ans (s.emDeleteSoft n i e) 0
    | none => ans s St.tbl_absent

/-- An entry passes the filter of EM_NEXT and EM_FLUSH (R284). -/
def TCmd.passes (c : TCmd) (e : EmEnt) : Bool :=
  (if e.learned then bit c.opt 4 else bit c.opt 3) && (!bit c.opt 5 || e.sprout) && (!bit c.opt 6 || e.act == c.act)

/-- EM_NEXT (R284). -/
def State.emNext (s : State) (n : Nat) (c : TCmd) : TAns :=
  let bs := s.emBanks n (s.pipe n).ver c.stage
  match (s.emOf n).find? (fun p => c.key % 2 ^ 32 ≤ p.1 && inBanks bs p.1 && c.passes p.2) with
  | some (i, e) => (s, { status := 0, x18 := leBytes 4 i ++ e.image })
  | none => ans s St.tbl_end

/-- EM_FLUSH on one instance (R285, R562). -/
def State.emFlush (s : State) (n : Nat) (c : TCmd) : TAns :=
  let p := s.pipe n
  let ab := s.emBanks n p.ver c.stage
  let sb := s.emBanks n (p.ver + 1) c.stage
  let hit := (s.emOf n).filter (fun q => c.passes q.2
    && (if q.2.learned then inBanks ab q.1 else inBanks sb q.1 && q.2.visible (p.ver + 1)))
  let s := hit.foldl (fun s q => if q.2.learned then s.dropLearned n q.1 q.2 else s.emDeleteSoft n q.1 q.2) s
  (s, { status := 0, x18 := leBytes 4 hit.length })

/-- EM_CONFIRM (R278, R283). -/
def State.emConfirm (s : State) (n : Nat) (c : TCmd) : TAns :=
  match (if bit c.opt 1 then s.emLearned n c.stage c.ekey else s.emStaged n c.stage c.ekey) with
  | none => ans s St.tbl_absent
  | some (i, e) => if e.sprout then ans ((s.setEm n i (some { e with sprout := false })).tcnt n 11) 0 else ans s St.tbl_state

/-- EM_UNPIN (R280, R283). -/
def State.emUnpin (s : State) (n : Nat) (c : TCmd) : TAns :=
  match (if bit c.opt 1 then s.emLearned n c.stage c.ekey else s.emStaged n c.stage c.ekey) with
  | none => ans s St.tbl_absent
  | some (i, e) =>
    if e.learned then ans ((s.dropLearned n i e).setEm n i (some { e with pinned := false })) 0 else ans s St.tbl_state

/-- The version that a lookup command names; none: neither live nor staged. -/
def State.cmdVer (s : State) (n : Nat) (c : TCmd) : Option Nat :=
  if bit c.ver 4 then some (s.pipe n).ver else s.namedVer n (c.ver % 16)

/-- Perform a table command that has been found well-formed. -/
def State.tableCmd (s : State) (c : TCmd) : TAns :=
  let n := c.pipe
  -- what each copy does; the answer is that of the pipeline named
  let both := fun (f : State → Nat → TAns) =>
    let ms := s.copies n
    let a := f s (ms.headD n)
    if a.2.status = 0 then (ms.tail.foldl (fun t m => (f t m).1) a.1, a.2) else a
  let p := s.pipe n
  match c.op with
  | 0x60 => both (fun s m => s.tcamWrite m c)
  | 0x61 => both (fun s m => s.tcamDelete m c)
  | 0x62 => both (fun s m => s.tcamMove m c)
  | 0x64 => match s.cmdVer n c with
    | none => ans s St.bad_desc
    | some v => match s.tcamLookup n v c.stage c.key with
      | some (i, e) => (s, { status := 0, x12 := leBytes 2 e.act, x18 := leBytes 2 i })
      | none => ans s St.tbl_absent
  | 0x65 => if s.hasEm n (p.ver + 1) c.stage then both (fun s m => s.emInsertCmd m c) else ans s St.tbl_stage
  | 0x66 => if s.hasEm n (if bit c.opt 1 then p.ver else p.ver + 1) c.stage then both (fun s m => s.emDeleteCmd m c)
    else ans s St.tbl_stage
  | 0x67 => match s.cmdVer n c with
    | none => ans s St.bad_desc
    | some v =>
      if !s.hasEm n v c.stage then ans s St.tbl_stage
      else match s.emFind n v (s.emBanks n v c.stage) c.ekey true with
        | some (i, e) => (s, { status := 0, x18 := leBytes 4 i ++ e.image })
        | none => ans s St.tbl_absent
  | 0x68 => if s.hasEm n p.ver c.stage then s.emNext n c else ans s St.tbl_stage
  | 0x69 => if s.hasEm n p.ver c.stage || s.hasEm n (p.ver + 1) c.stage then both (fun s m => s.emFlush m c) else ans s St.tbl_stage
  | 0x6A => if s.hasEm n p.ver c.stage then both (fun s m => s.emConfirm m c) else ans s St.tbl_stage
  | _ => if s.hasEm n p.ver c.stage then both (fun s m => s.emUnpin m c) else ans s St.tbl_stage

/-- The pipeline that a table command names is the sleeve's own instance while it mirrors (R304). -/
def State.namesSleeve (s : State) (n : Nat) : Bool := n == 8 && s.swc.mirroring

/-- Perform the oldest started table command with opcode `op` of a ring (R261: it waits while its pipeline is armed). -/
def State.tableDesc (s : State) (r op : Nat) : State :=
  s.perform r [op] (fun x g s =>
    let c := tcmdOf g.desc
    if c.malformed then s.fail r g.count St.bad_desc
    else if s.namesSleeve c.pipe then s.fail r g.count St.sleeve_state
    else if s.pipeArmed c.pipe then s
    else if op = 0x63 then
      match s.writeFor g.slice x.mem (c.key % 2 ^ 64) (s.tent c.pipe c.idx).record with
      | (.wait, s) => s
      | (.fail st, s) => s.fail r g.count st
      | (.ok _, s) => s.finish r g.count { status := 0, bytes := 64 }
    else
      let a := s.tableCmd c
      a.1.finish r g.count a.2)

/-! ### Action entries (R248, R264) -/

def State.action (s : State) (n i : Nat) : Nat := Store.get 0 s.tbl.acts (n * 65536 + i)

def State.setAction (s : State) (n i v : Nat) : State :=
  { s with tbl := { s.tbl with acts := Store.put 0 s.tbl.acts (n * 65536 + i) v } }

/-- A write of PIPE_ACT_CMD.write: PIPE_ACT_DATA goes to entry `idx`, unless the basic program owns it. -/
def State.actWrite (s : State) (n : Nat) : State :=
  let i := s.rd R.PIPE_ACT_IDX_idx n
  if s.ac hdrProfile (pipeBase n) = 0 ∧ 49152 ≤ i then s.refusedWr
  else
    let v := (List.range 4).foldl (fun a j => a + s.rd R.PIPE_ACT_DATA_data n j * 2 ^ (64 * j)) 0
    (s.copies n).foldl (fun s m => s.setAction m i v) s

/-- A write of PIPE_ACT_CMD.read copies entry `idx` into PIPE_ACT_DATA. -/
def State.actRead (s : State) (n : Nat) : State :=
  let v := s.action n (s.rd R.PIPE_ACT_IDX_idx n)
  (List.range 4).foldl (fun s j => s.wr R.PIPE_ACT_DATA_data (v / 2 ^ (64 * j)) n j) s

/-! ### The TCAM sweeper (04_memories_ecc.md R111, R112) -/

/-- The sweeper checks the next entry; one whose parity fails is disabled (R111). -/
def State.tcamSweep (s : State) (parityOk : Bool) : State :=
  let k := s.tbl.sweep
  let e := Store.get ({} : TEnt) s.tbl.tcam k
  let s := { s with tbl := { s.tbl with sweep := (k + 1) % (9 * 65536) } }
  if !parityOk && (e.state == 1 || e.state == 2) then
    { s with tbl := { s.tbl with tcam := Store.put {} s.tbl.tcam k { e with prev := e.state, state := 3 } } }
  else s

/-- The first disabled entry is rewritten from its shadow with a TCAM-restored event, or stays disabled with a
TCAM-lost event when the shadow is uncorrectable (R111, R112). -/
def State.tcamRestore (s : State) (shadowOk : Bool) : State :=
  match s.tbl.tcam.find? (·.2.state == 3) with
  | none => s
  | some (k, e) =>
    let m := sramId 8 (k / 65536)
    if shadowOk then
      let s := { s with tbl := { s.tbl with tcam := Store.put {} s.tbl.tcam k { e with state := e.prev, prev := 0 } } }
      s.memEvent m (k % 65536) 3 0 0
    else s.memEvent m (k % 65536) 4 0 0

def execTcamSweep (parityOk : Bool) (s : State) : Out := s.whenMain (·.tcamSweep parityOk)
def execTcamRestore (shadowOk : Bool) (s : State) : Out := s.whenMain (·.tcamRestore shadowOk)
def execVersionRetire (n : Fin 9) (s : State) : Out := s.whenMain (·.retireOne n)
def execTcamWrite (r : Fin 65536) (s : State) : Out := s.whenMain (·.tableDesc r 0x60)
def execTcamDelete (r : Fin 65536) (s : State) : Out := s.whenMain (·.tableDesc r 0x61)
def execTcamMove (r : Fin 65536) (s : State) : Out := s.whenMain (·.tableDesc r 0x62)
def execTcamRead (r : Fin 65536) (s : State) : Out := s.whenMain (·.tableDesc r 0x63)
def execTcamLookup (r : Fin 65536) (s : State) : Out := s.whenMain (·.tableDesc r 0x64)
def execEmInsert (r : Fin 65536) (s : State) : Out := s.whenMain (·.tableDesc r 0x65)
def execEmDelete (r : Fin 65536) (s : State) : Out := s.whenMain (·.tableDesc r 0x66)
def execEmSearch (r : Fin 65536) (s : State) : Out := s.whenMain (·.tableDesc r 0x67)
def execEmNext (r : Fin 65536) (s : State) : Out := s.whenMain (·.tableDesc r 0x68)
def execEmFlush (r : Fin 65536) (s : State) : Out := s.whenMain (·.tableDesc r 0x69)
def execEmConfirm (r : Fin 65536) (s : State) : Out := s.whenMain (·.tableDesc r 0x6A)
def execEmUnpin (r : Fin 65536) (s : State) : Out := s.whenMain (·.tableDesc r 0x6B)

end Sys2Proof.Machine
end

