-- ==== Sys2Proof/Machine/Learn.lean ====
section
/-! DEFINITION. Learning and aging (10_forwarding_tables.md R275-R282, R286). -/

namespace Sys2Proof.Machine

/-- Waiting learn requests of a table. -/
def PipeSt.fifoOf (p : PipeSt) (st : Nat) : List Learn := Store.get [] p.fifo st

/-- LEARN_STATUS.fifo shows the highest level among the tables. -/
def State.showFifo (s : State) (n : Nat) : State :=
  s.wr R.PIPE_LEARN_STATUS_fifo ((s.pipe n).fifo.foldl (fun a q => max a q.2.length) 0) n

/-- Put a request into the FIFO of one table; a full FIFO drops and counts it (R276). -/
def State.pushLearn (s : State) (n st : Nat) (q : Learn) : State :=
  let p := s.pipe n
  let l := p.fifoOf st
  if 1024 ≤ l.length then s.tcnt n 3
  else (s.setPipe n { p with fifo := Store.put [] p.fifo st (l ++ [q]) }).showFifo n

/-- Raise a learn request for the table of stage `target`: on the learn bus, when shared, every pipeline that accepts
from it receives the request (R275, R286). With the sleeve mirroring, both copies receive it (R304). -/
def State.raiseLearn (s : State) (n target : Nat) (q : Learn) (share : Bool) : State :=
  let on := fun m => m == n || (share && s.ac R.PIPE_EM_CFG_share_rx m target == 1)
  let ns := (List.range 9).filter on
  let ns := dedup (ns.flatMap s.copies)
  ns.foldl (fun s m => s.pushLearn m target q) s

/-! ### Events (tables PIPE_ table event codes, Table event detail) -/

def tblDetail (k act st other : Nat) : List Byte := leBytes 12 k ++ leBytes 2 act ++ leBytes 1 st ++ leBytes 1 other

/-- A table event, when its gate bit of PIPE_EM_CFG is set. -/
def State.tblEvent (s : State) (n st code : Nat) (gate : Option Fld) (k act other : Nat) : State :=
  let on := match gate with
    | some f => s.ac f n st == 1
    | none => true
  if on then s.event 8 n code (tblDetail k act st other) else s

/-! ### Learning (R277-R280) -/

def State.showTrack (s : State) (n : Nat) : State := s.wr R.PIPE_LEARN_STATUS_tracked (s.pipe n).track.length n

def isTrack (st k : Nat) (t : Track) : Bool := t.stage == st && t.key == k

/-- The tracked entry whose last move is oldest. -/
def oldestTrack : List Track → Option Track
  | [] => none
  | t :: l => match oldestTrack l with
    | some u => if u.last < t.last then some u else some t
    | none => some t

/-- Put a track into the tracker; a full tracker loses the entry whose last move is oldest (R279). -/
def State.putTrack (s : State) (n : Nat) (t : Track) : State :=
  let p := s.pipe n
  let l := p.track.filter (fun u => !isTrack t.stage t.key u)
  if 256 ≤ l.length then
    let l' := match oldestTrack l with
      | some o => l.filter (· != o)
      | none => l
    ((s.setPipe n { p with track := l' ++ [t] }).tcnt n 13).showTrack n
  else (s.setPipe n { p with track := l ++ [t] }).showTrack n

/-- The flap rule for a move of a table's entry (R279): the track afterwards and whether the move is refused and the
entry pinned; whether the move is a flap. -/
def State.flapRule (s : State) (n st k : Nat) : Track × Bool × Bool :=
  let now := s.time.ft
  match (s.pipe n).track.find? (isTrack st k) with
  | none => ({ stage := st, key := k, last := now }, false, false)
  | some t =>
    let hold := max (s.rd R.PIPE_FLAP_CFG_move_hold_us n) 1 * unitsPerUs
    if now - t.last ≤ hold then
      let fresh := t.count = 0 ∨ t.win + unitsPerSec < now
      let c := if fresh then 1 else t.count + 1
      let w := if fresh then now else t.win
      if 4 ≤ c ∧ s.on R.PIPE_FLAP_CFG_pin_en n then ({ t with count := c, win := w }, true, true)
      else ({ t with count := c, win := w, last := now }, false, true)
    else ({ t with last := now }, false, false)

/-- The table applies a move (R277, R279). -/
def State.learnMove (s : State) (n st i : Nat) (e : EmEnt) (q : Learn) : State :=
  if e.pinned then s.tcnt n 8
  else
    let r := s.flapRule n st e.key
    let s := if r.2.2 then s.tcnt n 14 else s
    let s := s.putTrack n r.1
    if r.2.1 then
      ((s.setEm n i (some { e with pinned := true })).tcnt n 7).tblEvent n st 0x12 none e.key e.act q.port
    else
      let prev := (e.act + 65536 - q.base % 65536) % 65536
      ((s.setEm n i (some { e with act := q.act, hit := true, age := 0 })).tcnt n 1).tblEvent n st 0x11
        (some R.PIPE_EM_CFG_ev_learn) e.key q.act prev

/-- The table applies one request (R277). -/
def State.learnOne (s : State) (n st : Nat) (q : Learn) : State :=
  let v := (s.pipe n).ver
  let bs := s.emBanks n v st
  match s.emFind n v bs q.key true with
  | some (i, e) =>
    if !e.learned then s.tcnt n 9
    else if e.act = q.act then
      let conf := e.sprout && s.ac R.PIPE_EM_CFG_confirm n st == 0
      let s := (s.setEm n i (some { e with hit := true, age := 0, sprout := e.sprout && !conf })).tcnt n 2
      if conf then s.tcnt n 11 else s
    else s.learnMove n st i e q
  | none =>
    let e : EmEnt := { key := q.key, act := q.act, learned := true, sprout := true, hit := true }
    match s.emInsert n bs e (s.emPolicy n v st) with
    | none => (s.tcnt n 4).tblEvent n st 0x15 (some R.PIPE_EM_CFG_ev_learn) q.key q.act 0
    | some (_, o, s) =>
      let s := (s.tcnt n 0).tblEvent n st 0x10 (some R.PIPE_EM_CFG_ev_learn) q.key q.act 0
      match o with
      | some x => s.tblEvent n st 0x14 (some R.PIPE_EM_CFG_ev_learn) x.key x.act 0
      | none => s

/-- LEARN_APPLY: the oldest request of a table's FIFO (R276). -/
def State.learnApply (s : State) (n st : Nat) : State :=
  let p := s.pipe n
  match p.fifoOf st with
  | [] => s
  | q :: l => ((s.setPipe n { p with fifo := Store.put [] p.fifo st l }).showFifo n).learnOne n st q

/-! ### Aging (R281, R282) -/

/-- The ager's visit of one learned entry. -/
def State.agerEntry (s : State) (n st i : Nat) (e : EmEnt) : State :=
  if e.hit then s.setEm n i (some { e with hit := false, age := 0 })
  else if e.sprout then
    ((s.dropLearned n i e).tcnt n 12).tblEvent n st 0x16 (some R.PIPE_EM_CFG_ev_age) e.key e.act 0
  else if s.ac R.PIPE_EM_CFG_age_m1 n st + 1 ≤ e.age + 1 then
    ((s.dropLearned n i e).tcnt n 6).tblEvent n st 0x13 (some R.PIPE_EM_CFG_ev_age) e.key e.act 0
  else s.setEm n i (some { e with age := e.age + 1 })

/-- AGER_VISIT: the next learned entry of a table in index order; when the pass is over, the next pass starts at the
period boundary. -/
def State.agerVisit (s : State) (n st : Nat) : State :=
  let ms := s.ac R.PIPE_EM_CFG_age_ms n st
  if ms = 0 then s
  else
    let p := s.pipe n
    let bs := s.emBanks n p.ver st
    let pos := Store.get (0, 0) p.ager st
    let l := (s.emOf n).filter (fun q => q.2.learned && inBanks bs q.1)
    match l.find? (fun q => pos.1 ≤ q.1) with
    | some (i, e) => (s.setPipe n { p with ager := Store.put (0, 0) p.ager st (i + 1, pos.2) }).agerEntry n st i e
    | none =>
      let t := pos.2 + ms * unitsPerMs
      let s := s.runTo t
      match l.head? with
      | some (i, e) => (s.setPipe n { p with ager := Store.put (0, 0) p.ager st (i + 1, t) }).agerEntry n st i e
      | none => s.setPipe n { p with ager := Store.put (0, 0) p.ager st (0, t) }

def execLearnApply (n : Fin 9) (st : Fin 17) (s : State) : Out := s.whenMain (·.learnApply n st)
def execAgerVisit (n : Fin 9) (st : Fin 17) (s : State) : Out := s.whenMain (·.agerVisit n st)

end Sys2Proof.Machine
end

