-- ==== Sys2Proof/Machine/Parse.lean ====
section
/-! DEFINITION. The parser: headers, layers, onion depth, length checks, extracted fields, and the symmetric hash
(09_parsing.md R233-R242, R255, R256). Header bytes are in network order; the frame has no FCS. Header lengths that the
spec takes from a standard: ARP 28, BTH 12, PTP 34 bytes, ICMP and ICMPv6 their first 4 bytes (log entry 8). -/

namespace Sys2Proof.Machine

/-- One layer: valid bits, fields by ID (table Header fields), first byte of the layer, number of tags, and the places
of its Ethernet and IP headers. -/
structure Layer where
  hv : Nat := 0
  flds : List (Nat × Nat) := []
  start : Nat := 0
  tags : Nat := 0
  eth : Option Nat := none
  ip : Option Nat := none
  /-- the layer begins with this EtherType when it does not begin with Ethernet -/
  first : Nat := 0
  deriving DecidableEq, Repr

/-- A parse in progress, or its result: the frame, the layers up to the current one, flags and cause, the end of the
enclosing datagram and the stated end of the innermost one. -/
structure Parse where
  d : List Byte
  len : Nat
  lay : List Layer := [{}]
  deep : Bool := false
  malformed : Bool := false
  trail : Bool := false
  frag : Bool := false
  cause : Nat := 0
  stop : Nat
  ipEnd : Nat
  deriving DecidableEq, Repr

/-- Headers that may come next. -/
inductive Hdr where
  | eth | mpls | arp | ipv4 | ipv6 | udp | tcp | icmp | vxlan | geneve | gre | bth | ptp
  deriving DecidableEq, Repr

/-- The parser's configuration (PIPE_PARSE_CFG). -/
structure ParseCfg where
  vxlan : Nat
  geneve : Nat
  mplsUdp : Nat
  encap : Nat
  deriving DecidableEq, Repr

namespace Parse

/-- The big-endian number of `n` bytes at `p`. -/
def u (x : Parse) (p n : Nat) : Nat := beNat (sliceBytes x.d p n)

def cur (x : Parse) : Layer := x.lay.getLastD {}

def setCur (x : Parse) (l : Layer) : Parse := { x with lay := x.lay.dropLast ++ [l] }

/-- A header passes its checks: its valid bit and fields stand. -/
def ok (x : Parse) (b : Nat) (fs : List (Nat × Nat)) : Parse :=
  let l := x.cur
  x.setCur { l with hv := setBit l.hv b true, flds := fs ++ l.flds.filter (fun p => !fs.any (·.1 == p.1)) }

/-- The next header, or the end of the parse. -/
abbrev Next := Parse × Option (Hdr × Nat)

def fin (x : Parse) : Next := (x, none)

def deeper (x : Parse) (c : Nat) : Next := ({ x with deep := true, cause := c }, none)

def bad (x : Parse) (c : Nat) : Next := ({ x with malformed := true, cause := c }, none)

/-- `n` bytes at `p` lie within the 512 header bytes (deep cause 6) and before the end (malformed cause 7), in this
order (R237). -/
def room (x : Parse) (p n : Nat) (k : Next) : Next :=
  if 512 < p + n then x.deeper 6 else if x.stop < p + n then x.bad 7 else k

/-- An encapsulation starts a new layer at `p`; a fourth layer is deep (R235, R236, R238). -/
def newLayer (x : Parse) (p : Nat) (first : Nat) (h : Hdr) : Next :=
  if 3 ≤ x.lay.length then x.deeper 1
  else ({ x with lay := x.lay ++ [{ start := p, first := first }] }, some (h, p))

/-- An IP datagram ends at `e` as stated (R240). -/
def datagram (x : Parse) (e : Nat) : Parse :=
  { x with trail := x.trail || 64 < x.stop - e, stop := min x.stop e, ipEnd := e }

/-- What follows an EtherType. -/
def afterEther (x : Parse) (et p : Nat) : Next :=
  if et = 0x8847 ∨ et = 0x8848 then (x, some (.mpls, p))
  else if et = 0x0806 then (x, some (.arp, p))
  else if et = 0x0800 then (x, some (.ipv4, p))
  else if et = 0x86DD then (x, some (.ipv6, p))
  else if et = 0x88F7 then (x, some (.ptp, p))
  else x.fin

/-- The 802.1Q tags after an Ethernet header: at most two in a layer (deep cause 2). -/
def tags (x : Parse) : Nat → Nat → Nat → Next
  | 0, _, _ => x.fin
  | k + 1, et, p =>
    if et = 0x8100 ∨ et = 0x88A8 then
      let n := x.cur.tags
      if n = 2 then x.deeper 2
      else x.room p 4 (
        let tci := x.u p 2
        let nt := x.u (p + 2) 2
        let fs := if n = 0 then [(3, et), (4, tci), (2, nt)] else [(5, tci), (2, nt)]
        let y := x.ok (1 + n) fs
        let l := y.cur
        (y.setCur { l with tags := n + 1 }).tags k nt (p + 4))
    else x.afterEther et p

def eth (x : Parse) (p : Nat) : Next :=
  x.room p 14 (
    let et := x.u (p + 12) 2
    let y := x.ok 0 [(0, x.u p 6), (1, x.u (p + 6) 6), (2, et)]
    let l := y.cur
    (y.setCur { l with eth := some p }).tags 4 et (p + 14))

/-- An MPLS label stack from label `n` on (deep cause 3 for a seventh label). -/
def labels (x : Parse) (fs : List (Nat × Nat)) : Nat → Nat → Nat → Next
  | 0, _, _ => x.fin
  | k + 1, n, p =>
    if n = 6 then (x.ok 3 fs).deeper 3
    else x.room p 4 (
      let e := x.u p 4
      let fs := (if n = 0 then [(6, e)] else []) ++ [(7 + n, e / 4096), (0xD, n + 1)] ++ fs.filter (·.1 != 0xD)
      if bit e 8 then
        let y := x.ok 3 fs
        let nib := if p + 4 < x.stop then x.u (p + 4) 1 / 16 else 0
        if nib = 4 then (y, some (.ipv4, p + 4))
        else if nib = 6 then (y, some (.ipv6, p + 4))
        else y.fin
      else x.labels fs k (n + 1) (p + 4))

def arp (x : Parse) (p : Nat) : Next :=
  x.room p 28 (x.ok 4 [(0x34, x.u (p + 6) 2), (0x35, x.u (p + 14) 4), (0x36, x.u (p + 24) 4)]).fin

/-- What follows an IP header's protocol number (R234, R235). -/
def afterIp (x : Parse) (c : ParseCfg) (proto p : Nat) : Next :=
  if proto = 17 then (x, some (.udp, p))
  else if proto = 6 then (x, some (.tcp, p))
  else if proto = 1 ∨ proto = 58 then (x, some (.icmp, p))
  else if proto = 47 && bit c.encap 2 then (x, some (.gre, p))
  else if proto = 4 && bit c.encap 4 then x.newLayer p 0x0800 .ipv4
  else if proto = 41 && bit c.encap 4 then x.newLayer p 0x86DD .ipv6
  else x.fin

/-- The layer's IP header stands at `p`. -/
def setIp (x : Parse) (p : Nat) : Parse := let l := x.cur; x.setCur { l with ip := some p }

/-- IPv4: the depth limit, then the checks 2, 7, 8, 1 (R237, R239). -/
def ipv4 (x : Parse) (c : ParseCfg) (p : Nat) : Next :=
  if 512 < p + 20 then x.deeper 6
  else if x.stop ≤ p then x.bad 7
  else
    let ihl := x.u p 1 % 16
    if ihl < 5 then x.bad 2
    else x.room p (4 * ihl) (
      let tot := x.u (p + 2) 2
      if tot < 4 * ihl then x.bad 8
      else if x.len - p < tot then x.bad 1
      else
        let fw := x.u (p + 6) 2
        let proto := x.u (p + 9) 1
        let y := (x.ok 5 [(0x10, x.u (p + 1) 1), (0x11, proto), (0x12, x.u (p + 8) 1), (0x13, x.u (p + 12) 4),
          (0x14, x.u (p + 16) 4), (0x15, tot), (0x16, fw % 2 ^ 15)]).setIp p
        let y := y.datagram (p + tot)
        if fw % 2 ^ 13 ≠ 0 then { y with frag := true }.fin
        else (if bit fw 13 then { y with frag := true } else y).afterIp c proto (p + 4 * ihl))

/-- The IPv6 extension headers (R234, R236, R241). -/
def exts (x : Parse) (c : ParseCfg) (later : Bool) : Nat → Nat → Nat → Nat → Next
  | 0, _, _, _ => x.fin
  | k + 1, n, nh, p =>
    if nh = 0 ∨ nh = 43 ∨ nh = 44 ∨ nh = 60 then
      if n = 2 then x.deeper 4
      else x.room p 8 (
        let hl := if nh = 44 then 8 else (x.u (p + 1) 1 + 1) * 8
        x.room p hl (
          let fw := x.u (p + 2) 2
          let prev := (x.cur.flds.find? (·.1 == 0x18)).elim 0 (·.2)
          let nxt := x.u p 1
          let fs := [(0x18, prev + nh * 2 ^ (8 * (1 - n))), (0x11, nxt)]
            ++ (if nh = 44 then [(0x16, fw / 8 + 2 ^ 13 * (fw % 2))] else [])
          let y := x.ok 7 fs
          let y := if nh = 44 ∧ (fw / 8 ≠ 0 ∨ fw % 2 = 1) then { y with frag := true } else y
          y.exts c (later || (nh == 44 && fw / 8 != 0)) k (n + 1) nxt (p + hl)))
    else if later then x.fin
    else x.afterIp c nh p

/-- IPv6: the depth limit, then the checks 7, 4, 5. -/
def ipv6 (x : Parse) (c : ParseCfg) (p : Nat) : Next :=
  x.room p 40 (
    let pl := x.u (p + 4) 2
    if pl = 0 then x.bad 4
    else if x.len - p < pl + 40 then x.bad 5
    else
      let w := x.u p 4
      let nh := x.u (p + 6) 1
      let y := (x.ok 6 [(0x10, w / 2 ^ 20 % 256), (0x11, nh), (0x12, x.u (p + 7) 1), (0x13, x.u (p + 8) 16),
        (0x14, x.u (p + 24) 16), (0x15, pl), (0x17, w % 2 ^ 20)]).setIp p
      (y.datagram (p + 40 + pl)).exts c false 4 0 nh (p + 40))

/-- UDP; what follows is the first match of R234. -/
def udp (x : Parse) (c : ParseCfg) (p : Nat) : Next :=
  x.room p 8 (
    let n := x.u (p + 4) 2
    if n < 8 ∨ x.ipEnd - p < n then x.bad 3
    else
      let dp := x.u (p + 2) 2
      let y := x.ok 8 [(0x20, x.u p 2), (0x21, dp), (0x23, n)]
      if dp = 4791 then (y, some (.bth, p + 8))
      else if dp = 319 ∨ dp = 320 then (y, some (.ptp, p + 8))
      else if dp = c.vxlan && bit c.encap 0 then (y, some (.vxlan, p + 8))
      else if dp = c.geneve && bit c.encap 1 then (y, some (.geneve, p + 8))
      else if dp = c.mplsUdp && bit c.encap 3 then y.newLayer (p + 8) 0x8847 .mpls
      else y.fin)

def tcp (x : Parse) (p : Nat) : Next :=
  x.room p 20 (x.ok 9 [(0x20, x.u p 2), (0x21, x.u (p + 2) 2), (0x22, x.u (p + 12) 2 % 512)]).fin

def icmp (x : Parse) (p : Nat) : Next := x.room p 4 (x.ok 10 [(0x24, x.u p 2)]).fin

def bth (x : Parse) (p : Nat) : Next :=
  x.room p 12 (x.ok 14 [(0x30, x.u p 1), (0x31, x.u (p + 5) 3), (0x32, x.u (p + 9) 3)]).fin

def ptp (x : Parse) (p : Nat) : Next := x.room p 34 (x.ok 15 [(0x33, x.u p 1)]).fin

def vxlan (x : Parse) (p : Nat) : Next :=
  x.room p 8 ((x.ok 11 [(0x28, x.u (p + 4) 3)]).newLayer (p + 8) 0 .eth)

/-- The options of a Geneve header end where the header ends. -/
def geneveOpts (x : Parse) (he : Nat) : Nat → Nat → Bool
  | 0, _ => true
  | k + 1, p => if p = he then true else if he < p + 4 then false else x.geneveOpts he k (p + 4 + x.u (p + 3) 1 % 32 * 4)

def geneve (x : Parse) (p : Nat) : Next :=
  x.room p 8 (
    let ol := x.u p 1 % 64 * 4
    let he := p + 8 + ol
    if 64 < ol then x.deeper 5
    else if 512 < he then x.deeper 6
    else if x.len < he then x.bad 6
    else x.room p (8 + ol) (
      if !x.geneveOpts he 17 (p + 8) then x.bad 6
      else
        let proto := x.u (p + 2) 2
        let fst := if ol = 0 then 0 else x.u (p + 8) 3
        let y := x.ok 12 [(0x28, x.u (p + 4) 3), (0x29, proto), (0x2A, ol), (0x2B, fst)]
        if proto = 0x6558 then y.newLayer he 0 .eth
        else if proto = 0x0800 then y.newLayer he 0x0800 .ipv4
        else if proto = 0x86DD then y.newLayer he 0x86DD .ipv6
        else y.fin))

def gre (x : Parse) (p : Nat) : Next :=
  x.room p 4 (
    let b0 := x.u p 1
    if x.u (p + 1) 1 % 8 ≠ 0 ∨ bit b0 6 then x.fin
    else
      let hl := 4 + 4 * (b2n (bit b0 7) + b2n (bit b0 5) + b2n (bit b0 4))
      x.room p hl (
        let key := if bit b0 5 then x.u (p + (if bit b0 7 then 8 else 4)) 4 else 0
        let proto := x.u (p + 2) 2
        let y := x.ok 13 [(0x2C, proto), (0x2D, key)]
        if proto = 0x6558 then y.newLayer (p + hl) 0 .eth
        else if proto = 0x0800 then y.newLayer (p + hl) 0x0800 .ipv4
        else if proto = 0x86DD then y.newLayer (p + hl) 0x86DD .ipv6
        else if proto = 0x8847 then y.newLayer (p + hl) 0x8847 .mpls
        else y.fin))

def hdr (x : Parse) (c : ParseCfg) (h : Hdr) (p : Nat) : Next :=
  match h with
  | .eth => x.eth p
  | .mpls => x.labels [] 8 0 p
  | .arp => x.arp p
  | .ipv4 => x.ipv4 c p
  | .ipv6 => x.ipv6 c p
  | .udp => x.udp c p
  | .tcp => x.tcp p
  | .icmp => x.icmp p
  | .vxlan => x.vxlan p
  | .geneve => x.geneve p
  | .gre => x.gre p
  | .bth => x.bth p
  | .ptp => x.ptp p

/-- Parse header after header; 32 headers are more than three layers hold. -/
def run (c : ParseCfg) : Nat → Next → Parse
  | 0, (x, _) => x
  | _ + 1, (x, none) => x
  | k + 1, (x, some (h, p)) => run c k (x.hdr c h p)

end Parse

/-- Parse a frame without FCS. -/
def parseFrame (c : ParseCfg) (d : List Byte) : Parse :=
  let x : Parse := { d := d, len := d.length, stop := d.length, ipEnd := d.length }
  Parse.run c 32 (x, some (.eth, 0))

namespace Parse

def layer (x : Parse) (n : Nat) : Layer := x.lay.getD n {}

def valid (x : Parse) (n b : Nat) : Bool := bit (x.layer n).hv b

/-- A field of a layer; 0 when its header is not valid (R242). -/
def fld (x : Parse) (n id : Nat) : Nat := ((x.layer n).flds.find? (·.1 == id)).elim 0 (·.2)

/-- The layers that hold a valid header. -/
def validLayers (x : Parse) : List Nat := (List.range 3).filter (fun n => (x.layer n).hv != 0)

/-- Byte `parse` of the metadata bus (R243). -/
def parseByte (x : Parse) : Nat := max 1 x.validLayers.length + 4 * (x.lay.length - 1) + 16 * x.cause

/-- The layer that the hash uses among those with a header of the valid bits (R255, R256). -/
def hashLayer (hsel : Nat) (p : Nat → Bool) : Option Nat :=
  let ls := (List.range 3).filter p
  if hsel = 1 then ls.head? else ls.getLast?

end Parse

/-- fold of R255. -/
def fold128 (a : Nat) : Nat := (bits a 127 96 ^^^ bits a 95 64) ^^^ (bits a 63 32 ^^^ bits a 31 0)

/-- The mixing of R255. -/
def hashMix (seed sip dip sport dport proto : Nat) : Nat :=
  let k := (fold128 sip ^^^ fold128 dip) ^^^ ((sport ^^^ dport) * 2 ^ 16 + proto * 2 ^ 8) ^^^ seed
  let h := k * 0x9E3779B1 % 2 ^ 32
  h ^^^ (h / 2 ^ 15)

/-- The symmetric hash of a packet (R255, R256). -/
def Parse.hash (x : Parse) (hsel seed : Nat) : Nat :=
  match Parse.hashLayer hsel (fun n => x.valid n 5 || x.valid n 6) with
  | some n =>
    let l4 := (x.valid n 8 || x.valid n 9) && !x.frag
    hashMix seed (x.fld n 0x13) (x.fld n 0x14) (if l4 then x.fld n 0x20 else 0) (if l4 then x.fld n 0x21 else 0) (x.fld n 0x11)
  | none =>
    match Parse.hashLayer hsel (fun n => x.valid n 0) with
    | some n => hashMix seed (x.fld n 0 % 2 ^ 32) (x.fld n 1 % 2 ^ 32) (x.fld n 2) 0 0
    | none => hashMix seed 0 0 0 0 0

end Sys2Proof.Machine
end

