-- ==== Sys2Proof/Machine/Policer.lean ====
section
/-! DEFINITION. Token buckets, slice shapers' tokens and policers (12_traffic_management.md R310, R311, R315-R323).
Bucket levels are counted in 1/8,000,000 byte, so that kb/s times nanoseconds is exact. -/

namespace Sys2Proof.Machine

def tokUnit : Int := 8000000

/-- Tokens that accrue from one FT to another at a rate in kb/s, at 1 ns resolution; none after a backward step until
FT passes the earlier FT (R316). -/
def accrued (kbps old now : Nat) : Int := ((kbps * (now / unitsPerNs - old / unitsPerNs) : Nat) : Int)

/-- Whole bytes of a level, rounded down. -/
def tokBytes (l : Int) : Int := l.fdiv tokUnit

/-! ### Policer records (R318-R322) -/

def State.policer (s : State) (i : Nat) : Policer := Store.get {} s.tm.policers i

def State.setPolicer (s : State) (i : Nat) (p : Policer) : State :=
  { s with tm := { s.tm with policers := Store.put {} s.tm.policers i p } }

def Policer.cir (p : Policer) : Nat := fieldLE p.rcd 0 4
def Policer.pir (p : Policer) : Nat := fieldLE p.rcd 4 4
def Policer.cbs (p : Policer) : Int := ((fieldLE p.rcd 8 3 : Nat) : Int) * tokUnit
def Policer.ebs (p : Policer) : Int := ((fieldLE p.rcd 0xC 3 : Nat) : Int) * tokUnit
def Policer.modeByte (p : Policer) : Nat := fieldLE p.rcd 0x10 1
def Policer.mode (p : Policer) : Nat := p.modeByte % 4
def Policer.caByte (p : Policer) : Nat := fieldLE p.rcd 0x11 1 % 16
def Policer.yellowAct (p : Policer) : Nat := fieldLE p.rcd 0x12 1 % 4
def Policer.redAct (p : Policer) : Nat := fieldLE p.rcd 0x12 1 / 4 % 4
def Policer.yellowCls (p : Policer) : Nat := fieldLE p.rcd 0x13 1 % 8
def Policer.redCls (p : Policer) : Nat := fieldLE p.rcd 0x13 1 / 8 % 8

/-- Fill both buckets up to now (R318): in srTCM the overflow of C fills E, in trTCM each has its own rate. -/
def Policer.fill (p : Policer) (now : Nat) : Policer :=
  let c := p.tc + accrued p.cir p.at_ now
  let tc := min c p.cbs
  let te := if p.mode = 1 then p.te + accrued p.pir p.at_ now else p.te + (c - tc)
  { p with tc := tc, te := min te p.ebs, at_ := max p.at_ now }

/-- The colours. -/
inductive Colour where
  | green | yellow | red
  deriving DecidableEq, Repr

/-- Meter `b` bytes that come in with a colour (R318): the output colour and the buckets afterwards. -/
def Policer.meter (p : Policer) (inc : Colour) (b : Nat) : Colour × Policer :=
  let n := (b : Int) * tokUnit
  match p.mode with
  | 0 =>
    if inc = .green ∧ n ≤ p.tc then (.green, { p with tc := p.tc - n })
    else if inc ≠ .red ∧ n ≤ p.te then (.yellow, { p with te := p.te - n })
    else (.red, p)
  | 1 =>
    if inc = .red ∨ p.te < n then (.red, p)
    else if inc = .yellow ∨ p.tc < n then (.yellow, { p with te := p.te - n })
    else (.green, { p with te := p.te - n, tc := p.tc - n })
  | 2 => (.green, p)
  | _ => (.red, p)

/-- Byte `i` of a packet's 16-byte user field. -/
def userByte (u i : Nat) : Nat := u / 2 ^ (8 * i) % 256

/-- The incoming colour (R319). -/
def Policer.inColour (p : Policer) (user : Nat) : Colour :=
  if bit p.modeByte 2 then
    match userByte user p.caByte % 4 with
    | 0 => .green
    | 1 => .yellow
    | _ => .red
  else .green

/-- The user field with a colour written into bits [1:0] of byte `i`. -/
def markUser (u i : Nat) (c : Colour) : Nat :=
  let v := match c with | .green => 0 | .yellow => 1 | .red => 2
  let b := userByte u i
  u - b * 2 ^ (8 * i) + (b - b % 4 + v) * 2 ^ (8 * i)

/-- Count a packet by colour in its policer and in TM_CNT. -/
def State.polCount (s : State) (i : Nat) (p : Policer) (c : Colour) : State :=
  match c with
  | .green => (s.setPolicer i { p with green := (p.green + 1) % 2 ^ 64 }).bump R.TM_CNT_count 1
  | .yellow => (s.setPolicer i { p with yellow := (p.yellow + 1) % 2 ^ 64 }).bump R.TM_CNT_count 2
  | .red => (s.setPolicer i { p with red := (p.red + 1) % 2 ^ 64 }).bump R.TM_CNT_count 3

/-- What metering gives: dropped, or passed with a class and a user field. -/
structure Metered where
  next : State
  pass : Bool
  cls : Nat
  user : Nat
  took : Nat := 0

/-- Meter a packet of `b` bytes that names policer `i` (R308, R318-R321). -/
def State.police (s : State) (i b cls user : Nat) : Metered :=
  let p := s.policer i
  if p.mode = 3 || s.on R.TM_POLICE_CTRL_all_drop then
    let s := ((s.polCount i p .red).bump R.TM_CNT_count 4).bump R.TM_CNT_count 5
    { next := s, pass := false, cls := cls, user := user }
  else
    let r := (if p.mode = 2 then p else p.fill s.time.ft).meter (p.inColour user) b
    let s := s.polCount i r.2 r.1
    let took := match r.1 with
      | .green => if p.mode = 0 then 1 else if p.mode = 1 then 3 else 0
      | .yellow => 2
      | .red => 0
    let act := match r.1 with
      | .green => some cls
      | .yellow => if p.yellowAct = 0 then some cls else if p.yellowAct = 1 then some p.yellowCls
          else if p.yellowAct = 2 then none else some cls
      | .red => if p.redAct = 0 then none else if p.redAct = 2 then some p.redCls else some cls
    match act with
    | some c => { next := s, pass := true, cls := c, user := if bit p.modeByte 3 then markUser user p.caByte r.1 else user, took := took }
    | none => { next := s.bump R.TM_CNT_count 4, pass := false, cls := cls, user := user }

/-- Give back `b` bytes to the buckets from which a metering took them (R311), capped at their sizes: `took` 1 the C
bucket, 2 the E or P bucket, 3 both. -/
def State.polReturn (s : State) (i took b : Nat) : State :=
  let p := s.policer i
  let n := (b : Int) * tokUnit
  s.setPolicer i { p with tc := if bit took 0 then min (p.tc + n) p.cbs else p.tc, te := if bit took 1 then min (p.te + n) p.ebs else p.te }

/-! ### The record interface (R322) -/

/-- The 64 bytes of a policer's record. -/
def Policer.image (p : Policer) : List Byte :=
  p.rcd ++ leBytes 2 (match p.slice with | some x => 0x8000 + x | none => 0) ++ leBytes 10 0
    ++ leBytes 4 (unsigned 32 (tokBytes p.tc)) ++ leBytes 4 (unsigned 32 (tokBytes p.te))
    ++ leBytes 8 p.green ++ leBytes 8 p.yellow ++ leBytes 8 p.red

/-- The bytes 0x00-0x13 of the record in TM_POL_DATA. -/
def State.polData (s : State) : List Byte := ((List.range 3).flatMap (fun j => leBytes 8 (s.rd R.TM_POL_DATA_data j))).take 20

/-- A write of TM_POL_CMD.write. -/
def State.polWrite (s : State) : State :=
  let i := s.rd R.TM_POL_IDX_idx
  let p := s.policer i
  if p.slice.isNone then s.refusedWr
  else
    let p := { p with rcd := s.polData, at_ := s.time.ft }
    let z := bit p.modeByte 4
    s.setPolicer i { p with tc := if z then 0 else p.cbs, te := if z then 0 else p.ebs }

/-- A write of TM_POL_CMD.read: the record, its buckets filled up to now. -/
def State.polRead (s : State) : State :=
  let b := ((s.policer (s.rd R.TM_POL_IDX_idx)).fill s.time.ft).image
  (List.range 8).foldl (fun s j => s.wr R.TM_POL_DATA_data (fieldLE b (8 * j) 8) j) s

/-- A write of TM_POL_CMD.clear. -/
def State.polClear (s : State) : State :=
  let i := s.rd R.TM_POL_IDX_idx
  s.setPolicer i { s.policer i with green := 0, yellow := 0, red := 0 }

/-! ### Allocation (R323) -/

/-- Policers allocated to a slice. -/
def State.policersOf (s : State) (x : Nat) : List Nat := (s.tm.policers.filter (fun p => p.2.slice == some x)).map (·.1)

/-- The first policer at or after `t` that is not allocated. -/
def State.freePolicer (s : State) : Nat → Nat → Nat
  | 0, t => t % 65536
  | n + 1, t => if (s.policer (t % 65536)).slice.isSome then s.freePolicer n (t + 1) else t % 65536

/-- POL_ALLOC. Which free policer it gives is the device's choice, a free value. -/
def State.polAlloc (s : State) (r : Nat) : State :=
  s.perform r [0x70] (fun _ g s =>
    let x := fieldLE g.desc 0x10 2
    if 4096 ≤ x ∨ zeroFrom g.desc 0x12 = false then s.fail r g.count St.bad_desc
    else if !s.sliceActive x then s.fail r g.count St.slice_state
    else
      let st := s.allocStatus x 6
      if st ≠ 0 then s.fail r g.count st
      else
        let (k, s) := s.draw
        let i := s.freePolicer 65536 (Config.tagPick k)
        ((s.charge x 6).setPolicer i { slice := some x }).finish r g.count { status := 0, x18 := leBytes 2 i })

/-- A policer returns to its reset configuration and to pool 6. -/
def State.polDrop (s : State) (i : Nat) : State :=
  match (s.policer i).slice with
  | some x => (s.setPolicer i {}).uncharge x 6
  | none => s

/-- POL_FREE. -/
def State.polFree (s : State) (r : Nat) : State :=
  s.perform r [0x71] (fun _ g s =>
    let i := fieldLE g.desc 0x12 2
    if fieldLE g.desc 0x10 2 ≠ 0 ∨ zeroFrom g.desc 0x14 = false then s.fail r g.count St.bad_desc
    else if (s.policer i).slice.isNone then s.fail r g.count St.pol_state
    else (s.polDrop i).finish r g.count { status := 0 })

/-! ### Slice shapers (R315-R317) -/

def State.shaperOn (s : State) (x : Nat) : Bool := s.ac R.TM_SHAPER_CFG_rate_kbps x != 0

def State.burst (s : State) (x : Nat) : Int := ((s.ac R.TM_SHAPER_CFG_burst x : Nat) : Int) * tokUnit

/-- Token level of shaper `x` now. -/
def State.tokens (s : State) (x : Nat) : Int :=
  match Store.get none s.tm.shapers x with
  | some b => min (b.level + accrued (s.ac R.TM_SHAPER_CFG_rate_kbps x) b.at_ s.time.ft) (s.burst x)
  | none => s.burst x

/-- Set a shaper's level as of now; TM_SHAPER_STAT shows it. -/
def State.setTokens (s : State) (x : Nat) (l : Int) : State :=
  let old := (Store.get none s.tm.shapers x).elim 0 (fun (b : Bucket) => b.at_)
  let b : Bucket := { level := min l (s.burst x), at_ := max old s.time.ft }
  { s with tm := { s.tm with shapers := Store.put none s.tm.shapers x (some b) } }

/-- Frames of slice `x` are held by its shaper (R315). -/
def State.shaperHolds (s : State) (x : Nat) : Bool := s.shaperOn x && s.tokens x ≤ 0

/-- Subtract wire bytes from the tokens of a slice. -/
def State.shaperCharge (s : State) (x w : Nat) : State :=
  if s.shaperOn x then s.setTokens x (s.tokens x - (w : Int) * tokUnit) else s

/-- The tokens become `burst` or 0 when a new configuration applies (R317). -/
def State.shaperRefill (s : State) (x : Nat) : State :=
  s.setTokens x (if s.ac R.TM_SHAPER_CFG_refill_zero x = 1 then 0 else s.burst x)

/-- Step 8 of a slice's reset or removal sets the tokens to `burst` (R317). -/
def State.shaperFull (s : State) (x : Nat) : State := s.setTokens x (s.burst x)

def execPolAlloc (r : Fin 65536) (s : State) : Out := s.whenMain (·.polAlloc r)
def execPolFree (r : Fin 65536) (s : State) : Out := s.whenMain (·.polFree r)

end Sys2Proof.Machine
end

