-- ==== Sys2Proof/Machine/PortCfg.lean ====
section
/-! DEFINITION. The configuration of the network ports in force, at the basic and the expert level
(08_network_ports.md R209-R211, R230). -/

namespace Sys2Proof.Machine

/-- Base offset of port group `g`. -/
def prtBase (g : Nat) : Nat := 0x800000 + 0x20000 * g

/-- Mode of a quad: the codes of table Quad modes, 6: the group runs as one 800G port. -/
def State.quadMode (s : State) (g q : Nat) : Nat :=
  if s.expert (prtBase g) then
    if s.ac R.PRT_GRP_MODE_g800 g = 1 then 6
    else if q = 0 then s.ac R.PRT_GRP_MODE_quad0 g else s.ac R.PRT_GRP_MODE_quad1 g
  else match s.preset (prtBase g) with
    | 0 => 3
    | 1 => 6
    | 2 => 1
    | 3 => 2
    | 4 => 4
    | 5 => 5
    | _ => 0

/-- Lanes of the port that starts at lane `l` of its group (0: no port starts there) in a quad mode (R209, R210). -/
def spanOf (mode l : Nat) : Nat :=
  match mode with
  | 1 => if l % 4 = 0 then 4 else 0
  | 2 => if l % 2 = 0 then 2 else 0
  | 3 => 1
  | 4 => 1
  | 5 => 1
  | 6 => if l = 0 then 8 else 0
  | _ => 0

/-- Rate of a port in Gb/s by quad mode (tables Port rates and Quad modes). -/
def rateOf (mode : Nat) : Nat :=
  match mode with
  | 1 => 400
  | 2 => 200
  | 3 => 100
  | 4 => 50
  | 5 => 25
  | 6 => 800
  | _ => 0

/-- A FEC that a rate allows (table Port rates). -/
def fecOk (rate fec : Nat) : Bool := if 100 ≤ rate then fec == 2 else fec == 0 || fec == 1

def State.portMode (s : State) (p : Nat) : Nat := s.quadMode (p / 8) (p % 8 / 4)

/-- Lanes of port `p`; 0: the port does not exist (R210). -/
def State.portLanes (s : State) (p : Nat) : Nat := if p < 64 then spanOf (s.portMode p) (p % 8) else 0

def State.portExists (s : State) (p : Nat) : Bool := s.portLanes p != 0

def State.portRate (s : State) (p : Nat) : Nat := rateOf (s.portMode p)

def State.prtExpert (s : State) (p : Nat) : Bool := s.expert (prtBase (p / 8))

/-- A field of PRT_PORT_CFG at the expert level, its basic value at the basic level (R230). -/
def State.portCfg (s : State) (f : Fld) (basic p : Nat) : Nat := if s.prtExpert p then s.ac f (p / 8) (p % 8) else basic

def State.portEnabled (s : State) (p : Nat) : Bool := s.portExists p && s.portCfg R.PRT_PORT_CFG_enable 1 p == 1
def State.portMedia (s : State) (p : Nat) : Nat := s.portCfg R.PRT_PORT_CFG_media 3 p
def State.portFec (s : State) (p : Nat) : Nat := s.portCfg R.PRT_PORT_CFG_fec (if 100 ≤ s.portRate p then 2 else 1) p
def State.portAn (s : State) (p : Nat) : Bool := s.portCfg R.PRT_PORT_CFG_an_en 1 p == 1 && 2 ≤ s.portMedia p
def State.portLt (s : State) (p : Nat) : Bool := s.portCfg R.PRT_PORT_CFG_lt_en 1 p == 1 && 2 ≤ s.portMedia p
def State.maxFrame (s : State) (p : Nat) : Nat := s.portCfg R.PRT_PORT_CFG_max_frame 9600 p
def State.cutThrough (s : State) (p : Nat) : Bool := s.portCfg R.PRT_PORT_CFG_cut_through 1 p == 1
def State.pauseRxEn (s : State) (p : Nat) : Bool := s.portCfg R.PRT_PORT_CFG_pause_rx_en 1 p == 1
def State.pfcRxEn (s : State) (p : Nat) : Bool := s.portCfg R.PRT_PORT_CFG_pfc_rx_en 0 p == 1

/-- Classes for which the port sends PFC (R221). -/
def State.pfcTxMask (s : State) (p : Nat) : Nat :=
  if s.portCfg R.PRT_PORT_CFG_pfc_tx_en 0 p = 1 then s.portCfg R.PRT_PORT_CFG_pfc_classes 0 p else 0

/-- One-step rewriting is allowed; at the basic level it is (R230). -/
def State.oneStepEn (s : State) (p : Nat) : Bool := !s.prtExpert p || s.rd R.PRT_TS_CFG_one_step_en (p / 8) (p % 8) == 1

def State.portState (s : State) (p : Nat) : Nat := s.rd R.PRT_PORT_STATUS_state (p / 8) (p % 8)
def State.portUp (s : State) (p : Nat) : Bool := s.portState p == 2

/-- Count in a port's counters. -/
def State.prtCnt (s : State) (p c : Nat) (n : Nat := 1) : State := s.addTo R.PRT_CNT_count n (p / 8) (p % 8) c

/-- What a port keeps outside its registers. -/
def State.lane (s : State) (l : Nat) : Lane := Store.get {} s.prt l

def State.setLane (s : State) (l : Nat) (x : Lane) : State := { s with prt := Store.put {} s.prt l x }

/-- Class `c` of port `p` is stopped by received PAUSE or PFC (R220). -/
def State.stopped (s : State) (p c : Nat) : Bool :=
  bit (s.rd R.PRT_PORT_STATUS_stopped_rx (p / 8) (p % 8)) c && s.time.ft < Store.get 0 (s.lane p).stopEnd c

/-- FT units of a number of quanta at the port's rate: a quantum is 512 bit times (R220). -/
def State.quantaUnits (s : State) (p q : Nat) : Nat := q * 512 * unitsPerNs / max (s.portRate p) 1

end Sys2Proof.Machine
end

