-- ==== Sys2Proof/Machine/Pipeline.lean ====
section
/-! DEFINITION. Packet pipelines: admission, parse actions, match stages, basic programs, the action stage's edits and
the packet descriptor (09_parsing.md R231-R256, R262, R263; 01_architecture.md R24-R28). -/

namespace Sys2Proof.Machine

/-- The unit counts as fenced: DRAINING, TESTING or FENCED (20_health_test.md R511). -/
def State.fencedUnit (s : State) (kind i : Nat) : Bool :=
  let st := s.rd R.HLT_UNIT_state kind i
  st == 1 || st == 2 || st == 4

/-- A unit whose registers answer all ones and take no writes: TESTING or FENCED (R512). -/
def State.closedUnit (s : State) (kind i : Nat) : Bool :=
  s.rd R.HLT_UNIT_state kind i == 2 || s.rd R.HLT_UNIT_state kind i == 4

/-! ### SEND's copies (07_rings.md R561), named by ring and the SEND's own number -/

def State.sendOf (s : State) (t : Nat × Nat) : Option SendOn := s.rng.sends.find? (fun o => o.ring == t.1 && o.id == t.2)

def State.setSend (s : State) (t : Nat × Nat) (x : Option SendOn) : State :=
  let l := s.rng.sends.filter (fun o => !(o.ring == t.1 && o.id == t.2))
  { s with rng := { s.rng with sends := match x with | some o => l ++ [o] | none => l } }

/-- Change a timestamp that is owed; one whose frame has no copy left and was never transmitted is owed no more. -/
def State.modOwed (s : State) (i : Nat) (f : TsOwed → TsOwed) : State :=
  let l := s.fc.owed.map (fun o => if o.id = i then f o else o)
  { s with fc := { s.fc with owed := l.filter (fun o => o.copies != 0 || o.stamp.isSome) } }

/-- One more copy of a SEND's frame exists, or `n` more. -/
def State.moreCopies (s : State) (f : Frame) (n : Nat) : State :=
  let s := match f.tsTo with
    | some i => s.modOwed i (fun o => { o with copies := o.copies + n })
    | none => s
  match f.send with
  | none => s
  | some t => match s.sendOf t with
    | some o => s.setSend t (some { o with copies := o.copies + n })
    | none => s

/-- A copy of a frame is finished: sent or delivered, or dropped; `stamp` is the egress FT64 when a network port's MAC
took its last byte. The SEND completes with its last copy. -/
def State.copyDone (s : State) (f : Frame) (sent : Bool) (stamp : Nat := 0) : State :=
  let s := match f.tsTo with
    | some i => s.modOwed i (fun o => { o with copies := o.copies - 1, stamp := if stamp = 0 ∨ o.stamp.isSome then o.stamp else some stamp })
    | none => s
  match f.send with
  | none => s
  | some t => match s.sendOf t with
    | none => s
    | some o =>
      let st := if o.stamp = 0 then stamp else if stamp = 0 then o.stamp else min o.stamp stamp
      let o := { o with copies := o.copies - 1, sent := o.sent || sent, stamp := st }
      let s := if stamp = 0 then s else s.report t.1 o.count o.len
      if o.copies = 0 then
        let tsReq := f.ts = 1
        (s.setSend t none).finish t.1 o.count
          { status := if o.sent then 0 else St.sent_dropped, bytes := o.len, x18 := leBytes 8 (if tsReq then o.stamp else 0) }
      else s.setSend t (some o)

/-! ### Admission (R231, R232) -/

/-- The logical pipeline whose sources a pipeline instance serves now: the sleeve serves the pipeline it substitutes
from SWITCHING until BACK_SWITCHING (11_switch_core.md, table Sleeve states). -/
def State.laneOf (s : State) (n : Nat) : Option Nat :=
  let st := s.rd R.SWC_SLEEVE_STATUS_state
  let away := st == 3 || st == 4 || st == 5
  if n = 8 then (if away then some s.sleevePipe else none)
  else if away ∧ n = s.sleevePipe then none else some n

/-- A frame joins the port group's and socket's queue of a pipeline, or its injection queue. -/
def State.toPipe (s : State) (n : Nat) (f : Frame) : State :=
  let p := s.pipe n
  if f.src < 0x200 then s.setPipe n { p with netq := p.netq ++ [f] } else s.setPipe n { p with injq := p.injq ++ [f] }

/-- Number of an injection source in the round robin: ring engine, RDMA, storage, flow cores, pair link. -/
def injSource (src : Nat) : Nat := if src = 0x300 then 0 else if src = 0x301 then 1 else if src = 0x302 then 2
  else if src = 0x303 then 4 else 3

/-- The next frame that a pipeline admits: the port group and socket first, then the injection sources in turn, without
the RDMA engine's frames while back-pressure holds its injection (`rdmaHeld`, 11_switch_core.md R300). -/
def PipeSt.next (p : PipeSt) (rdmaHeld : Bool) : Option (Frame × PipeSt) :=
  let ready := fun (f : Frame) => !(rdmaHeld && injSource f.src == 1)
  match p.netq with
  | f :: l => some (f, { p with netq := l })
  | [] =>
    let turn := (List.range 5).map (fun i => (p.injLast + 1 + i) % 5)
    match turn.find? (fun k => p.injq.any (fun f => ready f && injSource f.src == k)) with
    | none => none
    | some k => match p.injq.find? (fun f => injSource f.src == k) with
      | some f => some (f, { p with injq := p.injq.erase f, injLast := k })
      | none => none

/-- Index of a source in PIPE_SRC_CFG. -/
def srcIndex (src : Nat) : Nat := if src < 0x40 then src % 8 else if src < 0x108 ∧ 0x100 ≤ src then 8 else 9

/-! ### The metadata bus as a 512-bit number (R243) -/

def putBits (v lo w x : Nat) : Nat := v - bits v (lo + w - 1) lo * 2 ^ lo + x % 2 ^ w * 2 ^ lo

/-- Classification in progress: the bus, the parse, whether a rewrite was given, what ended it. -/
structure Chain where
  s : State
  bus : Nat
  rewrite : Bool := false
  actionDrop : Bool := false

def busDest (b : Nat) : Nat := bits b 0x8F 0x80
def busSlice (b : Nat) : Nat := bits b 0x3B 0x30
def busCls (b : Nat) : Nat := bits b 0x92 0x90
def busTs (b : Nat) : Nat := bits b 0x94 0x93
def busReason (b : Nat) : Nat := bits b 0xCF 0xC0
def busFlag (b k : Nat) : Bool := bit b (0x10 + k)
def setFlag (b k : Nat) (x : Bool) : Nat := setBit b (0x10 + k) x

/-- A part of an action entry: `n` bytes at byte `off`. -/
def actField (a off n : Nat) : Nat := a / 2 ^ (8 * off) % 2 ^ (8 * n)

/-- The value of a selector (R244). -/
def State.selValue (s : State) (n v : Nat) (f : SelFlds) (st j : Nat) (bus : Nat) (x : Parse) : Nat :=
  let id := s.pv n v f.id st j
  let lsb := s.pv n v f.lsb st j
  let w := s.pv n v f.wm1 st j + 1
  let whole := if s.pv n v f.src st j = 1 then bus / 2 ^ (8 * id)
    else
      let l := s.pv n v f.layer st j
      x.fld (if l = 3 then x.validLayers.getLastD 0 else l) id
  whole / 2 ^ lsb % 2 ^ w

/-- A key: the selectors concatenated, selector 0 on top, zeros below up to the table's width (R244). -/
def State.stageKey (s : State) (n v : Nat) (f : SelFlds) (st k width : Nat) (bus : Nat) (x : Parse) : Nat :=
  let r := (List.range k).foldl (fun (a : Nat × Nat) j =>
    let w := s.pv n v f.wm1 st j + 1
    (a.1 * 2 ^ w + s.selValue n v f st j bus x, a.2 + w)) (0, 0)
  r.1 * 2 ^ (width - r.2)

/-- Port code of a source (R275). -/
def portCode (src : Nat) : Option Nat :=
  if src < 64 then some src else if 0x100 ≤ src ∧ src < 0x108 then some (64 + (src - 0x100)) else none

/-- The learn request of stage `st` (R275), built on the bus as the stage sees it. -/
def State.learnReq (s : State) (n v st : Nat) (bus : Nat) (x : Parse) : State :=
  let target := s.ac R.PIPE_EM_CFG_target n st
  match portCode (bits bus 15 0) with
  | none => s.tcnt n 10
  | some pc =>
    if s.ac R.PIPE_STAGE_CFG_type n target ≠ 2 then s.tcnt n 10
    else
      let base := s.ac R.PIPE_EM_CFG_act_base n st
      let key := s.stageKey n v learnSel st (s.ac R.PIPE_EM_CFG_nsel n st) 96 bus x
      s.raiseLearn n target { key := key, act := (base + pc) % 65536, port := pc, base := base } (s.ac R.PIPE_EM_CFG_share n st == 1)

/-- The source may have its slice changed by match actions (R26, R247). -/
def sliceFree (src : Nat) : Bool := src < 0x40 || (0x200 ≤ src && src < 0x240)

/-- Write `len` bytes of a value at bus byte `off`, at most up to byte 0x3F; out of range nothing is written (R246). -/
def metaWrite (bus off len v : Nat) : Nat :=
  if off < 0x20 ∨ 0x40 ≤ off ∨ len = 0 ∨ 8 < len then bus
  else
    let w := 8 * min len (0x40 - off)
    putBits bus (8 * off) w v

/-- Apply an action entry to the bus (R246, R247): every field but `stop`, `next` and `learn`. -/
def Chain.apply (c : Chain) (n a : Nat) : Chain :=
  let op := fun k => bit a k
  let b := c.bus
  let b := if op 0 then setFlag (putBits b 0x80 16 (actField a 4 2)) 4 true else b
  let b := if op 1 then
      let m := actField a 6 2
      if m / 4096 = 0 then setFlag b 6 false else setFlag (putBits b 0xB0 16 m) 6 true
    else b
  let b := if op 2 then setFlag (putBits b 0xA0 16 (actField a 8 2)) 5 true else b
  let free := sliceFree (bits b 15 0)
  let b := if op 3 && free then putBits b 0x30 12 (actField a 0xA 2) else b
  let s := if op 3 && !free then c.s.pcnt n 9 else c.s
  let b := if op 4 then putBits b 0x90 3 (actField a 0xC 1) else b
  let b := if op 5 then putBits b 0x93 2 (actField a 0xC 1 / 8) else b
  let b := if op 6 then putBits b 0xC0 16 (actField a 0xE 2) else b
  let b := if op 7 then putBits b 0xD0 16 (actField a 0x10 2) else b
  let b := if op 8 then putBits (putBits b 0xE0 16 (actField a 0x12 2)) 0xF0 16 (actField a 0x14 2) else b
  let b := if op 9 then metaWrite b (actField a 0x16 1) (actField a 0x17 1) (actField a 0x18 8) else b
  let b := if op 10 then setFlag (putBits b 0x80 16 0) 4 true else b
  let d := (op 0 && actField a 4 2 / 4096 == 0) || op 10
  { s := s, bus := b, rewrite := c.rewrite || op 7, actionDrop := if op 0 || op 10 then d else c.actionDrop }

/-- Look a stage's key up (R245, R265, R272): the action index of a hit, and the state with the hit bit set. -/
def State.stageLookup (s : State) (n v st : Nat) (bus : Nat) (x : Parse) : Option Nat × State :=
  let k := s.ac R.PIPE_STAGE_CFG_nsel n st
  match s.ac R.PIPE_STAGE_CFG_type n st with
  | 1 => ((s.tcamLookup n v st (s.stageKey n v stageSel st k 160 bus x)).map (·.2.act), s)
  | 2 =>
    match s.emFind n v (s.emBanks n v st) (s.stageKey n v stageSel st k 96 bus x) (s.ac R.PIPE_EM_CFG_sprout_match n st == 1) with
    | some (i, e) =>
      (some e.act, if e.learned && s.ac R.PIPE_EM_CFG_hit_src n st == 0 then s.setEm n i (some { e with hit := true }) else s)
    | none => (none, s)
  | _ => (some ((s.ac R.PIPE_STAGE_CFG_base_act n st + s.stageKey n v stageSel st k 16 bus x) % 65536), s)

/-- Run the match stages from stage `st` on (R244-R247). -/
def Chain.stages (n v : Nat) (x : Parse) : Nat → Nat → Chain → Chain
  | 0, _, c => c
  | fuel + 1, st, c =>
    if 16 ≤ st then c
    else if c.s.ac R.PIPE_STAGE_CFG_type n st = 0 then Chain.stages n v x fuel (st + 1) c
    else
      let r := c.s.stageLookup n v st c.bus x
      let act := match r.1 with
        | some a => some a
        | none => if r.2.ac R.PIPE_STAGE_CFG_miss_en n st = 1 then some (r.2.ac R.PIPE_STAGE_CFG_miss_act n st) else none
      match act with
      | none => Chain.stages n v x fuel (st + 1) { c with s := r.2 }
      | some i =>
        let a := r.2.action n i
        let s := if bit a 12 then r.2.learnReq n v st c.bus x else r.2
        let c := ({ c with s := s } : Chain).apply n a
        if bit a 10 || bit a 11 then c
        else
          let nx := actField a 0xD 1 % 32
          if nx = 0 then Chain.stages n v x fuel (st + 1) c
          else if 16 ≤ nx then c
          else if nx ≤ st then Chain.stages n v x fuel (st + 1) { c with s := c.s.pcnt n 11 }
          else Chain.stages n v x fuel nx c

/-! ### Basic programs (R262, R263) -/

/-- Key of the basic bridge: VLAN and MAC, as selectors of 12 and 48 bits (log entry 10). -/
def bridgeKey (vlan mac : Nat) : Nat := (vlan * 2 ^ 48 + mac) * 2 ^ 36

/-- Give the bus a destination. -/
def Chain.toDest (c : Chain) (d : Nat) : Chain := { c with bus := setFlag (putBits c.bus 0x80 16 d) 4 true }

/-- The action of an entry of the basic bridge: a learned index names the port or socket of its port code (log entry
10), any other index an action entry. -/
def Chain.bridgeAct (c : Chain) (n i : Nat) : Chain :=
  if 49152 ≤ i ∧ i < 49152 + 64 then c.toDest (0x1000 + (i - 49152))
  else if 49152 + 64 ≤ i ∧ i < 49152 + 72 then c.toDest (0x2000 + (i - 49152 - 64))
  else c.apply n (c.s.action n i)

/-- Bridge: learn the source, look the destination up, flood a miss, broadcast and multicast. -/
def Chain.bridge (c : Chain) (n v : Nat) (x : Parse) : Chain :=
  let vlan := if x.valid 0 1 then x.fld 0 4 % 4096 else c.s.ac R.PIPE_BASIC_CFG_dflt_vlan n
  let flood := c.s.ac R.PIPE_BASIC_CFG_flood_dest n
  let s := match portCode (bits c.bus 15 0) with
    | some pc => c.s.raiseLearn n 16 { key := bridgeKey vlan (x.fld 0 1), act := (49152 + pc) % 65536, port := pc, base := 49152 }
        (c.s.ac R.PIPE_EM_CFG_share n 16 == 1)
    | none => c.s.tcnt n 10
  let c := { c with s := s }
  let dm := x.fld 0 0
  if bit dm 40 then c.toDest flood
  else match s.emFind n v (s.emBanks n v 16) (bridgeKey vlan dm) (s.ac R.PIPE_EM_CFG_sprout_match n 16 == 1) with
    | some (i, e) =>
      let s := if e.learned && s.ac R.PIPE_EM_CFG_hit_src n 16 == 0 then s.setEm n i (some { e with hit := true }) else s
      ({ c with s := s } : Chain).bridgeAct n e.act
    | none => c.toDest flood

/-- Router: longest-prefix match on layer 0's destination address; the action entry of a hit, with a TTL decrement. -/
def Chain.route (c : Chain) (n v : Nat) (x : Parse) : Chain :=
  if x.valid 0 5 || x.valid 0 6 then
    match c.s.tcamLookup n v 16 (x.fld 0 0x14 * 2 ^ 32) with
    | some (_, e) =>
      let c := c.apply n (c.s.action n e.act)
      { c with bus := setBit c.bus (0xE0 + 4) true }
    | none => c
  else c

/-- The built-in program of a preset. -/
def Chain.basic (c : Chain) (n v preset : Nat) (x : Parse) : Chain :=
  let tos := x.fld 0 0x10
  let ip := x.valid 0 5 || x.valid 0 6
  let cls := if c.s.ac R.PIPE_BASIC_CFG_class_dscp n = 0 ∧ x.valid 0 1 then some (x.fld 0 4 / 2 ^ 13)
    else if ip then some (tos / 4 / 8) else none
  let c := match cls with
    | some k => { c with bus := putBits c.bus 0x90 3 k }
    | none => c
  let rocev2 := x.valid 0 8 && x.fld 0 0x21 == 4791
  let c := match preset with
    | 0 => c.bridge n v x
    | 1 => c.route n v x
    | 2 => if x.fld 0 0 = c.s.ac R.PIPE_BASIC_MAC_router_mac n then c.route n v x else c.bridge n v x
    | _ => c.toDest (0x4000 + c.s.ac R.PIPE_BASIC_CFG_rxq_grp n)
  if rocev2 then { c.toDest 0x6000 with actionDrop := false } else c

/-! ### Action stage (R253) -/

/-- Ones' complement sum of 16-bit words. -/
def onesSum : List Byte → Nat → Nat
  | a :: b :: l, acc => onesSum l (acc + a.toNat * 256 + b.toNat)
  | [a], acc => acc + a.toNat * 256
  | [], acc => acc

def foldSum (x : Nat) : Nat := let y := x % 65536 + x / 65536; y % 65536 + y / 65536

/-- The Internet checksum of a byte string. -/
def inetSum (bs : List Byte) : Nat := 65535 - foldSum (foldSum (onesSum bs 0))

/-- Replace `new.length` bytes at `off`. -/
def putAt (bs : List Byte) (off : Nat) (new : List Byte) : List Byte := bs.take off ++ new ++ bs.drop (off + new.length)

/-- An IPv4 header with its checksum recomputed. -/
def fixIpv4 (h : List Byte) : List Byte :=
  let z := putAt h 10 [0, 0]
  putAt z 10 (beBytes 2 (inetSum z))

/-- Decrement the TTL or hop limit of the IP header at `off`; none when it is 0 or 1. -/
def decTtl (d : List Byte) (off : Nat) (v4 : Bool) : Option (List Byte) :=
  if v4 then
    let ttl := fieldLE d (off + 8) 1
    let hl := fieldLE d off 1 % 16 * 4
    if ttl ≤ 1 then none
    else some (putAt d off (fixIpv4 (putAt (sliceBytes d off hl) 8 [BitVec.ofNat 8 (ttl - 1)])))
  else
    let hop := fieldLE d (off + 7) 1
    if hop ≤ 1 then none else some (putAt d (off + 7) [BitVec.ofNat 8 (hop - 1)])

/-- The edits of the action stage; none when an edit cannot apply. `macs` are the rewrite record's 12 bytes. -/
def editFrame (d : List Byte) (x : Parse) (edit pushTci : Nat) (macs : Option (List Byte)) : Option (List Byte) :=
  let rm := edit % 4
  let tagOp := edit / 4 % 4
  let l := x.layer rm
  if x.lay.length ≤ rm then none
  else
    -- 1: layers; the number of bytes by which a later header moves toward the start is `cut - pre`
    let body := d.drop l.start
    let pre : Option (List Byte) :=
      if rm = 0 ∨ l.first = 0 then some []
      else macs.map (fun m => m ++ beBytes 2 l.first)
    match pre with
    | none => none
    | some pre =>
      let d1 := pre ++ body
      -- 2: MAC addresses
      let d2 := match macs with
        | some m => putAt d1 0 m
        | none => d1
      -- 3: the outer tag
      let tagged := rm ≤ 2 ∧ 0 < l.tags ∧ pre = []
      let d3 : Option (List Byte × Int) := match tagOp with
        | 0 => some (d2, 0)
        | 1 => some (d2.take 12 ++ [0x81, 0x00] ++ beBytes 2 pushTci ++ d2.drop 12, 4)
        | 2 => if tagged then some (d2.take 12 ++ d2.drop 16, -4) else none
        | _ => if tagged then some (putAt d2 14 (beBytes 2 pushTci), 0) else none
      match d3 with
      | none => none
      | some (d3, sh) =>
        -- 4: TTL
        if bit edit 4 then
          match (List.range 3).find? (fun i => rm ≤ i && (x.layer i).ip.isSome) with
          | none => none
          | some i =>
            let off : Int := ((x.layer i).ip.getD 0 : Nat) - (l.start : Int) + (pre.length : Int) + sh
            decTtl d3 off.toNat (x.valid i 5)
        else some d3

/-! ### Destinations (R249, R252) -/

/-- The destination is of a defined kind with an index in range, and no fenced flow core's port. -/
def State.destOk (s : State) (d : Nat) : Bool :=
  let i := d % 4096
  match d / 4096 with
  | 0 => i == 0
  | 1 => i < 64
  | 2 => i < 8
  | 3 => true
  | 4 => i < 256
  | 5 => i < 1024 && !s.fencedUnit 1 (i / 16)
  | 6 => i == 0
  | 7 => true
  | 8 => i == 0
  | _ => false

/-- A receive queue group resolves to a receive queue (R252). -/
def State.resolve (s : State) (n d h : Nat) : Nat :=
  if d / 4096 = 4 then
    let g := d % 4096
    0x3000 + (s.ac R.PIPE_RXQ_GRP_base n g + h % (s.ac R.PIPE_RXQ_GRP_count_m1 n g + 1)) % 4096
  else d

/-! ### PACKET_ADMIT -/

/-- A frame is dropped inside the device. -/
def State.dropFrame (s : State) (f : Frame) : State := s.copyDone f false

/-- The bus at admission (R232, R243). -/
def State.admitBus (s : State) (n : Nat) (f : Frame) (x : Parse) : Nat :=
  let i := srcIndex f.src
  let v := (s.pipe n).ver % 16
  let sl := if f.src < 0x40 then s.ac R.PIPE_SRC_CFG_slice n i else f.slice
  let cls := f.cls.getD (s.ac R.PIPE_SRC_CFG_class n i)
  let hs := s.ac R.PIPE_SRC_CFG_hsel n i
  let fl := b2n x.deep + 2 * b2n x.malformed + 4 * b2n x.trail + 8 * b2n x.frag
  let hv := (x.layer 0).hv + (x.layer 1).hv * 2 ^ 16 + (x.layer 2).hv * 2 ^ 32
  f.src + fl * 2 ^ 16 + x.parseByte * 2 ^ 32 + (v + 16 * f.recirc) * 2 ^ 40 + sl % 4096 * 2 ^ 48 + hv * 2 ^ 64
    + f.data.length * 2 ^ 112 + (cls % 8 + 8 * f.ts) * 2 ^ 144 + (if hs ≤ 1 then hs else 0) * 2 ^ 152 + f.user * 2 ^ 256

/-- Classification of an admitted frame (R250, R251): the chain's end, or none when the parse action drops it. The Bool
says that no stage has run. -/
def State.classify (s : State) (n : Nat) (f : Frame) (x : Parse) : Option Chain × State :=
  let i := srcIndex f.src
  let v := (s.pipe n).ver
  let bus := s.admitBus n f x
  let s := if x.deep then s.pcnt n 3 else s
  let s := if x.malformed then s.pcnt n 5 else s
  let s := if x.trail then s.pcnt n 7 else s
  let exc := s.ac R.PIPE_SRC_CFG_exc_dest n i
  let run := fun (s : State) =>
    let c : Chain := { s := s, bus := bus }
    if s.expert (pipeBase n) then c.stages n v x 16 0 else c.basic n v (s.preset (pipeBase n)) x
  let toExc := fun (s : State) (why : Nat) => (({ s := s, bus := putBits bus 0xC0 16 why } : Chain).toDest exc)
  if x.malformed then
    match s.ac R.PIPE_SRC_CFG_malformed_action n i with
    | 1 => (some (toExc s 2), s)
    | 2 => (some (run s), s)
    | _ => (none, s.pcnt n 6)
  else if x.deep then
    match s.ac R.PIPE_SRC_CFG_deep_action n i with
    | 1 => (some (run s), s)
    | 2 => (some (toExc s 1), s)
    | _ => (none, s.pcnt n 4)
  else (some (run s), s)

/-- The destination after the chain and the drops it counts (R251). -/
def Chain.settle (c : Chain) (n src : Nat) : Chain × Nat :=
  if busFlag c.bus 4 then
    let d := busDest c.bus
    ({ c with s := if d / 4096 = 0 ∧ c.actionDrop then c.s.pcnt n 1 else c.s }, d)
  else
    let d := c.s.ac R.PIPE_SRC_CFG_dflt_dest n (srcIndex src)
    ({ c with s := if d / 4096 = 0 then c.s.pcnt n 2 else c.s }, d)

/-- The packet that a classified frame becomes, or none when it is dropped (R249, R252-R254, R308). -/
def Chain.finish (c : Chain) (n lane : Nat) (f : Frame) (x : Parse) : State × Option Pkt :=
  let r := c.settle n f.src
  let s := r.1.s
  let b := r.1.bus
  let d := r.2
  if d / 4096 = 0 ∧ d % 4096 = 0 then (s.dropFrame f, none)
  else
    let macs := if r.1.rewrite then some (leBytes 12 (s.action n (bits b 0xDF 0xD0))) else none
    let edited := editFrame f.data x (bits b 0xEF 0xE0) (bits b 0xFF 0xF0) macs
    let basic := !s.expert (pipeBase n)
    let exc := if basic then s.ac R.PIPE_BASIC_CFG_exc_dest n else s.ac R.PIPE_SRC_CFG_exc_dest n (srcIndex f.src)
    let (s, d, data, why) := match edited with
      | some e => (s, d, e, busReason b)
      | none => (s.pcnt n 13, exc, f.data, 3)
    if s.destOk d = false then ((s.pcnt n 10).dropFrame f, none)
    else if d = 0 then (s.dropFrame f, none)
    else
      let h := x.hash (bits b 0x99 0x98) (s.ac R.PIPE_HASH_CFG_seed n)
      let mir := if busFlag b 6 then some (bits b 0xBF 0xB0) else none
      let (s, mir) := match mir with
        | some m => if s.destOk m then (s, some (s.resolve n m h)) else (s.pcnt n 10, none)
        | none => (s, none)
      let fl := b2n (busFlag b 5) + 2 * b2n mir.isSome + 4 * b2n x.deep + 8 * b2n x.malformed + 16 * b2n x.trail
      let pol := if busFlag b 5 then some (bits b 0xAF 0xA0) else none
      let pk : Pkt :=
        { frame := { f with data := data }, pipe := n, lane := lane, dest := s.resolve n d h, mirror := mir, policer := pol
          cls := busCls b, ts := busTs b, flags := fl, reason := why, hash := h, ver := bits b 0x2B 0x28, slice := busSlice b
          user := bits b 0x17F 0x100 }
      match pol with
      | none => (s, some pk)
      | some i =>
        let known := f.whole
        let assumed := if f.src < 0x40 then s.maxFrame f.src else 9600
        let m := s.police i (if known then data.length + 4 else assumed) pk.cls pk.user
        if m.pass then (m.next, some { pk with cls := m.cls, user := m.user, polAssumed := if known then 0 else assumed, polTook := m.took })
        else (m.next.dropFrame f, none)

/-- PACKET_ADMIT: pipeline instance `n` admits one frame, classifies it and hands it to the crossbar. -/
def State.packetAdmit (s : State) (n : Nat) : State :=
  match s.laneOf n with
  | none => s
  | some lane => match (s.pipe lane).next (s.on R.SWC_ACCT_STAT_xoff (521 + 4 * lane)) with
    | none => s
    | some (f, p) =>
      let s := s.setPipe lane p
      if s.fencedUnit 0 n then (s.bump R.SWC_CNT_count 6).dropFrame f
      else if 4 ≤ f.recirc then (s.pcnt n 8).dropFrame f
      else
        let inj := 0x200 ≤ f.src
        let f := if inj && f.src != 0x303 then { f with stamp := s.now64, at_ := s.time.ft } else f
        let s := s.pcnt n 0
        let s := if inj then s.pcnt n 14 else s
        match f.bypass with
        | some q =>
          let pk : Pkt := { frame := f, pipe := n, lane := lane, dest := 0x3000 + q, cls := s.ac R.PIPE_SRC_CFG_class n 8, slice := f.slice, ver := (s.pipe n).ver % 16 }
          s.setPipe n { s.pipe n with xin := (s.pipe n).xin ++ [pk] }
        | none =>
        let cfg : ParseCfg := { vxlan := s.ac R.PIPE_PARSE_CFG_vxlan_port n, geneve := s.ac R.PIPE_PARSE_CFG_geneve_port n, mplsUdp := s.ac R.PIPE_PARSE_CFG_mplsudp_port n, encap := s.ac R.PIPE_PARSE_CFG_encap_en n }
        let x := parseFrame cfg f.data
        match s.classify n f x with
        | (none, s) => s.dropFrame f
        | (some c, _) => match c.finish n lane f x with
          | (s, none) => s
          | (s, some pk) =>
            let p := s.pipe n
            s.setPipe n { p with xin := p.xin ++ [pk] }

def execPacketAdmit (n : Fin 9) (s : State) : Out := s.whenMain (·.packetAdmit n)

end Sys2Proof.Machine
end

