-- ==== Sys2Proof/Machine/Switch.lean ====
section
/-! DEFINITION. The switch core: cells and banks, the crossbar, output queues, mirroring, replication, buffer accounts
(11_switch_core.md R287-R302, R307). The sleeve's commands are in Sleeve.lean. -/

namespace Sys2Proof.Machine

def swcBase : Nat := 0x2400000

/-- Cells of a frame of `l` bytes (R287). -/
def cellsOf (l : Nat) : Nat := 1 + (l - 192 + 255) / 256

def State.swcCnt (s : State) (c : Nat) (n : Nat := 1) : State := s.addTo R.SWC_CNT_count n c

/-! ### Accounts (R295-R299, R307) -/

/-- Account of a packet, by the source of its frame (table Accounts): an injection is charged to the logical pipeline
into which its source injects, the pair link's transit frames to the ring engine's account (22_redundant_pair.md
R542). -/
def acctOf (k : Pkt) : Nat :=
  let src := k.frame.src
  if src < 0x40 then 8 * src + k.cls
  else if 0x100 ≤ src ∧ src < 0x108 then 512 + (src - 0x100)
  else 520 + 4 * k.lane + (if src = 0x301 then 1 else if src = 0x302 then 2 else if src < 0x240 then 3 else 0)

/-- The configuration of an account. -/
structure AcctCfg where
  min : Nat
  hdrm : Nat
  alpha : Nat
  delta : Nat

/-- Headroom of a port at 100 m and 400 ns by its rate (section PFC headroom). -/
def hdrmOf (rate : Nat) : Nat :=
  if rate = 800 then 2016 else if rate = 400 then 1123 else if rate = 200 then 676 else if rate = 100 then 453
  else if rate = 50 then 342 else if rate = 25 then 286 else 0

/-- The configuration in force (R299, R307). -/
def State.acctCfg (s : State) (a : Nat) : AcctCfg :=
  if s.expert swcBase then
    { min := s.ac R.SWC_ACCT_CFG_min a, hdrm := s.ac R.SWC_ACCT_CFG_hdrm a, alpha := s.ac R.SWC_ACCT_CFG_alpha a, delta := s.ac R.SWC_ACCT_CFG_xon_delta a }
  else if a < 512 then
    { min := 64, hdrm := if s.portExists (a / 8) && bit (s.pfcTxMask (a / 8)) (a % 8) then hdrmOf (s.portRate (a / 8)) else 0, alpha := 4, delta := 32 }
  else if a < 520 then { min := 1024, hdrm := 2048, alpha := 4, delta := 32 }
  else { min := 256, hdrm := 512, alpha := 4, delta := 32 }

/-- Size of the shared region (R295). -/
def State.sharedSize (s : State) : Nat :=
  524288 - (List.range 556).foldl (fun t a => let c := s.acctCfg a; t + c.min + c.hdrm) 0

def State.sharedUsed (s : State) : Nat := s.swc.inShared.foldl (fun t p => t + p.2) 0

/-- The XOFF level of an account (R296). -/
def State.xoffLevel (s : State) (a : Nat) : Nat :=
  let c := s.acctCfg a
  c.min + (s.sharedSize - s.sharedUsed) * 2 ^ c.alpha / 16

/-- A class is lossless (R298, R307). -/
def State.lossless (s : State) (c : Nat) : Bool :=
  if s.expert swcBase then bit (s.ac R.SWC_CFG_lossless) c else if s.preset swcBase = 1 then 3 ≤ c else true

def State.acctCells (s : State) (a : Nat) : Nat := s.rd R.SWC_ACCT_STAT_cells a

def State.acctXoff (s : State) (a : Nat) : Bool := s.on R.SWC_ACCT_STAT_xoff a

/-- Set an account's count and its peak. -/
def State.setCells (s : State) (a n : Nat) : State := (s.wr R.SWC_ACCT_STAT_cells n a).peak R.SWC_ACCT_STAT_peak n a

def State.setShared (s : State) (a n : Nat) : State := { s with swc := { s.swc with inShared := Store.put 0 s.swc.inShared a n } }

def State.setHdrm (s : State) (a n : Nat) : State :=
  ({ s with swc := { s.swc with inHdrm := Store.put 0 s.swc.inHdrm a n } } : State).wr R.SWC_ACCT_STAT_in_hdrm (b2n (n != 0)) a

/-- The account holds a cell of a lossless frame: only such frames set `xoff` (R298). -/
def State.holdsLossless (s : State) (a : Nat) : Bool :=
  s.swc.stored.any (fun f => f.acct == a && f.charged != 0 && s.lossless f.pkt.cls)

/-- `xoff` of one account follows its level (R296). -/
def State.acctEval (s : State) (a : Nat) : State :=
  let n := s.acctCells a
  let lv := s.xoffLevel a
  if s.acctXoff a then
    if n ≤ lv - (s.acctCfg a).delta then s.wr R.SWC_ACCT_STAT_xoff 0 a else s
  else if lv ≤ n && s.holdsLossless a then (s.raise R.SWC_ACCT_STAT_xoff a).swcCnt 8
  else s

/-- Accounts whose `xoff` is set. -/
def State.xoffAccts (s : State) : List Nat :=
  (s.regs.filter (fun p => 8 * 0x2410000 ≤ p.1 && p.1 < 8 * 0x2420000 && p.1 % 128 == 64 + 40)).map (fun p => (p.1 / 8 - 0x2410000) / 16)

/-- Both levels are computed again for every account that holds cells or back-pressure (R296). -/
def State.acctClock (s : State) : State :=
  (dedup (s.swc.stored.map (·.acct) ++ s.xoffAccts)).foldl State.acctEval s

/-- Charge one cell to an account (R295, R297, R298): minimum, shared region, and for a lossless frame while `xoff` is
set headroom; none when it cannot be charged. -/
def State.chargeCell (s : State) (a : Nat) (lossless : Bool) : Option State :=
  let c := s.acctCfg a
  let n := s.acctCells a
  let sh := Store.get 0 s.swc.inShared a
  let hd := Store.get 0 s.swc.inHdrm a
  let room := s.sharedUsed < s.sharedSize
  if n - sh - hd < c.min then some (s.setCells a (n + 1))
  else if !(lossless && s.acctXoff a) && room then some ((s.setShared a (sh + 1)).setCells a (n + 1))
  else if lossless && hd < c.hdrm then some ((s.setHdrm a (hd + 1)).setCells a (n + 1))
  else none

/-- Credit `k` freed cells: headroom first, then the shared region, then the minimum (R295). -/
def State.creditCells (s : State) (a k : Nat) : State :=
  let hd := Store.get 0 s.swc.inHdrm a
  let sh := Store.get 0 s.swc.inShared a
  let h := min hd k
  let r := min sh (k - h)
  (((s.setHdrm a (hd - h)).setShared a (sh - r)).wr R.SWC_ACCT_STAT_cells (s.acctCells a - k) a)

/-- An overflow of an account (R297): counted, flagged, the first in each second an event. -/
def State.acctOverflow (s : State) (a : Nat) : State :=
  let s := (s.swcCnt 2).raise R.SWC_ACCT_STAT_overflow a
  let now := ftSec s.time.ft + 1
  if Store.get 0 s.swc.overflowSec a = now then s
  else
    let s := { s with swc := { s.swc with overflowSec := Store.put 0 s.swc.overflowSec a now } }
    s.event 9 0 1 (leBytes 2 a ++ leBytes 4 (s.acctCells a) ++ List.replicate 10 0)

/-! ### Output queues (R291-R294) -/

def State.queue (s : State) (q : Nat) : List QEnt := Store.get [] s.swc.queues q

def State.setQueue (s : State) (q : Nat) (l : List QEnt) : State :=
  { s with swc := { s.swc with queues := Store.put [] s.swc.queues q l } }

def State.qDepth (s : State) (q : Nat) : Nat := s.rd R.SWC_OQ_DEPTH_cells q

/-- Set the depth of a queue; TM_Q_MAX keeps the highest (12_traffic_management.md R330). -/
def State.setDepth (s : State) (q n : Nat) : State :=
  let s := s.wr R.SWC_OQ_DEPTH_cells n q
  if q < 584 then s.peak R.TM_Q_MAX_depth n q else s

/-- Output queue of a destination for a class (index of SWC_OQ_DEPTH). -/
def queueOf (d c : Nat) : Option Nat :=
  let i := d % 4096
  match d / 4096 with
  | 1 => if i < 64 then some (8 * i + c) else none
  | 2 => if i < 8 then some (512 + 8 * i + c) else none
  | 3 => some (592 + i)
  | 5 => if i < 1024 then some (4688 + i) else none
  | 6 => if i = 0 then some (584 + c) else none
  | 8 => if i = 0 then some (576 + c) else none
  | _ => none

/-- Link layer of a Wilotte link or pair sublink. -/
def State.link (s : State) (n : Nat) : Link := Store.get {} s.links n

def State.setLink (s : State) (n : Nat) (l : Link) : State := { s with links := Store.put {} s.links n l }

/-- The members are PAIRED (22_redundant_pair.md, table Pair states). -/
def State.paired (s : State) : Bool := s.rd R.PAR_STATUS_state == 2

/-- The destination is DISABLED, absent or fenced (R292; 15_wilotte_link.md R404; 22_redundant_pair.md R541). -/
def State.destGone (s : State) (d : Nat) : Bool :=
  let i := d % 4096
  match d / 4096 with
  | 1 => !s.portExists i || s.portState i == 0 || s.fencedUnit 4 (i / 8)
  | 2 => (s.link i).state != 4 || s.fencedUnit 3 i
  | 5 => s.ac R.FCR_RXP_CFG_enable (i / 16) (i % 16) != 1 || s.fencedUnit 1 (i / 16)
  | 8 => !s.paired
  | _ => false

/-- Stored frame by its ID. -/
def State.stored (s : State) (id : Nat) : Option Stored := s.swc.stored.find? (·.id == id)

def State.modStored (s : State) (id : Nat) (f : Stored → Stored) : State :=
  { s with swc := { s.swc with stored := s.swc.stored.map (fun x => if x.id = id then f x else x) } }

/-- Free cells of the banks. -/
def State.freeBanks (s : State) (bs : List Nat) : State :=
  bs.foldl (fun s b => { s with swc := { s.swc with bankUsed := Store.put 0 s.swc.bankUsed b (Store.get 0 s.swc.bankUsed b - 1) } }) s

/-- Release what a stored frame no longer needs: its account's charge once every copy but mirror copies is gone, its
cells once every copy is gone (R294, R295). A frame that is still being written keeps both. -/
def State.settleStored (s : State) (id : Nat) : State :=
  match s.stored id with
  | none => s
  | some f =>
    if !f.full || f.copies != 0 then s
    else
      let s := (s.creditCells f.acct f.charged).modStored id (fun f => { f with charged := 0 })
      if f.mirrors = 0 then
        let s := s.freeBanks f.banks
        { s with swc := { s.swc with stored := s.swc.stored.filter (·.id != id) } }
      else s

/-- A copy of a stored frame is gone. -/
def State.lessCopy (s : State) (id : Nat) (mirror : Bool) : State :=
  (s.modStored id (fun f => if mirror then { f with mirrors := f.mirrors - 1 } else { f with copies := f.copies - 1 })).settleStored id

/-- Take the head of a queue out of it; its cells written so far leave the depth. -/
def State.popQueue (s : State) (q : Nat) : Option (QEnt × State) :=
  match s.queue q with
  | [] => none
  | e :: l =>
    let n := (s.stored e.id).elim 0 (·.banks.length)
    some (e, ((s.setQueue q l).setDepth q (s.qDepth q - n)).modStored e.id (fun f => { f with qs := f.qs.erase q }))

/-- Drop a copy that has left its queue; `count` counts it. -/
def State.dropCopy (s : State) (e : QEnt) : State :=
  let s := match s.stored e.id, e.mirror with
    | some f, false => s.copyDone f.pkt.frame false
    | _, _ => s
  s.lessCopy e.id e.mirror

/-- Discard every frame of a queue, counting each (R292, or `count` for a port's own counter under R216). -/
def State.flushQueueAux (count : State → State) (q : Nat) : Nat → State → State
  | 0, s => s
  | n + 1, s => match s.popQueue q with
    | none => s
    | some (e, s) => State.flushQueueAux count q n (count (s.dropCopy e))

def State.flushQueue (s : State) (q : Nat) (count : State → State := (·.swcCnt 6)) : State :=
  (State.flushQueueAux count q (s.queue q).length s).acctClock

/-- The destinations on a replication list (R294): at most 64 entries; those beyond, entries of kind 7 or unknown kinds
and an invalid head are counted in repl_drop. An entry of kind 0 names no copy. -/
def State.replList (s : State) (k : Pkt) : Nat → Nat → List Nat → Nat → List Nat × Nat
  | 0, _, acc, bad => (acc, bad)
  | n + 1, i, acc, bad =>
    let d := s.rd R.SWC_REPL_ENT_dest i
    let known := (d / 4096 == 0) || (d / 4096 == 4 && d % 4096 < 256) || (queueOf d 0).isSome
    let r := if d / 4096 = 4 ∧ known then s.resolve k.pipe d k.hash else d
    let acc' := if known ∧ d / 4096 ≠ 0 ∧ acc.length < 64 then acc ++ [r] else acc
    let bad' := if !known ∨ (d / 4096 ≠ 0 ∧ 64 ≤ acc.length) then bad + 1 else bad
    if s.on R.SWC_REPL_ENT_last i then (acc', bad') else s.replList k n (s.rd R.SWC_REPL_ENT_next i) acc' bad'

/-- Destinations of a packet's copies, with those that are gone counted and left out. -/
def State.targets (s : State) (k : Pkt) : List Nat × State :=
  let r : List Nat × State :=
    if k.dest / 4096 = 7 then
      let g := k.dest % 4096
      if s.on R.SWC_REPL_HEAD_valid g then
        let l := s.replList k 16384 (s.rd R.SWC_REPL_HEAD_first g) [] 0
        (l.1, s.swcCnt 5 l.2)
      else ([], s.swcCnt 5)
    else ([k.dest], s)
  let gone := (r.1.filter r.2.destGone).length
  (r.1.filter (fun d => !r.2.destGone d), r.2.swcCnt 6 gone)

/-- Put a copy of a stored frame at the end of an output queue. -/
def State.enqueue (s : State) (id q : Nat) (mirror : Bool) : State :=
  let e : QEnt := { id := id, at_ := s.time.ft, mirror := mirror }
  (((s.setQueue q (s.queue q ++ [e])).setDepth q (s.qDepth q + 1)).modStored id (fun f => { f with qs := f.qs ++ [q] })).swcCnt 1

/-- The mirror copy (R293): only while the mirror destination's queue holds fewer than `mirror_limit` cells. -/
def State.mirrorCopy (s : State) (id : Nat) (k : Pkt) : State :=
  match k.mirror with
  | none => s
  | some d =>
    match queueOf d k.cls with
    | none => s
    | some q =>
      if s.destGone d then s.swcCnt 6
      else if s.qDepth q < s.ac R.SWC_CFG_mirror_limit then
        (s.modStored id (fun f => { f with mirrors := 1 })).enqueue id q true
      else s.swcCnt 4

/-! ### The crossbar (R289) -/

/-- Cells of a packet that its pipeline has ready: the last cell of a frame whose tail has not arrived is not. -/
def Pkt.ready (k : Pkt) : Nat :=
  let c := cellsOf k.frame.data.length
  (if k.frame.whole then c else max 1 (c - 1)) - k.sent

/-- The packet waits for cells of its source that the other pipeline still holds (R305). -/
def State.heldBySwitch (s : State) (n : Nat) (k : Pkt) : Bool :=
  let st := s.rd R.SWC_SLEEVE_STATUS_state
  let m := s.sleevePipe
  let old := if (st = 3 ∨ st = 4) ∧ n = 8 then some m else if (st = 6 ∨ st = 0) ∧ n = m then some 8 else none
  match old with
  | some o => (s.pipe o).xin.any (fun x => x.frame.src == k.frame.src)
  | none => false

/-- Cells that the first packets of an input have ready in order, up to 2. -/
def State.requestOf (s : State) (n : Nat) : List Pkt → Nat
  | [] => 0
  | k :: l =>
    if s.heldBySwitch n k then 0
    else
      let r := k.ready
      if 2 ≤ r then 2
      else if k.sent + r < cellsOf k.frame.data.length then r
      else min 2 (r + s.requestOf n l)

def State.request (s : State) (n : Nat) : Nat := s.requestOf n (s.pipe n).xin

/-- Input `n` waits only because of a hold of R305. -/
def State.inputHeld (s : State) (n : Nat) : Bool := match (s.pipe n).xin with
  | k :: _ => s.heldBySwitch n k
  | [] => false

def State.setXin (s : State) (n : Nat) (l : List Pkt) : State := s.setPipe n { s.pipe n with xin := l }

/-- Write one cell of a stored frame to a bank; each queue that holds the frame grows by it. -/
def State.writeCell (s : State) (id bank : Nat) (last : Bool) : State :=
  let s := { s with swc := { s.swc with bankUsed := Store.put 0 s.swc.bankUsed bank (Store.get 0 s.swc.bankUsed bank + 1) } }
  (s.modStored id (fun f => { f with banks := f.banks ++ [bank], charged := f.charged + 1, full := last })).swcCnt 0

/-- The first cell of a packet at the crossbar (R292-R294, R297, R298). -/
def State.firstCell (s : State) (n bank : Nat) (k : Pkt) (rest : List Pkt) : State :=
  let (ts, s) := s.targets k
  let drop := fun (s : State) => (s.setXin n rest).dropFrame k.frame
  let a := acctOf k
  let ll := s.lossless k.cls
  match ts with
  | [] => drop s
  | t0 :: _ =>
    let q0 := (queueOf t0 k.cls).getD 0
    if !ll && (s.ac R.SWC_CFG_lossy_limit ≤ s.qDepth q0 || s.xoffLevel a ≤ s.acctCells a) then drop (s.swcCnt 3)
    else match s.chargeCell a ll with
      | none => drop (if ll then s.acctOverflow a else s.swcCnt 3)
      | some s =>
        let id := s.swc.nextId
        let k := { k with sid := id, sent := 1 }
        let cells := cellsOf k.frame.data.length
        let f : Stored := { id := id, pkt := k, cells := cells, banks := [], acct := a, copies := ts.length }
        let s : State := { s with swc := { s.swc with stored := s.swc.stored ++ [f], nextId := id + 1 } }
        let s := s.moreCopies k.frame (ts.length - 1)
        let s := s.writeCell id bank (cells == 1 && k.frame.whole)
        let s := ts.foldl (fun s t => match queueOf t k.cls with | some q => s.enqueue id q false | none => s) s
        let s := s.mirrorCopy id k
        s.setXin n (if cells = 1 then rest else k :: rest)

/-- Bytes of a frame that its first `c` cells hold (R287). -/
def cellBytes (c : Nat) : Nat := if c = 0 then 0 else 192 + 256 * (c - 1)

/-- A frame ends early at the cells it has, bad (R297, R298). -/
def State.cutStored (s : State) (id : Nat) : State :=
  (s.modStored id (fun f =>
    let fr := f.pkt.frame
    { f with cells := f.banks.length, full := true, pkt := { f.pkt with frame := { fr with data := fr.data.take (cellBytes f.banks.length), bad := true, whole := true } } })).swcCnt 7

/-- A further cell of a packet. -/
def State.nextCell (s : State) (n bank : Nat) (k : Pkt) (rest : List Pkt) : State :=
  let a := acctOf k
  match s.chargeCell a (s.lossless k.cls) with
  | none => ((s.acctOverflow a).cutStored k.sid).setXin n rest |>.settleStored k.sid
  | some s =>
    let k := { k with sent := k.sent + 1 }
    let last := k.sent == cellsOf k.frame.data.length
    let s := s.writeCell k.sid bank (last && k.frame.whole)
    let s := match s.stored k.sid with
      | some f => f.qs.foldl (fun (s : State) q => s.setDepth q (s.qDepth q + 1)) s
      | none => s
    (s.setXin n (if last then rest else k :: rest)).settleStored k.sid

/-- Grant the next cell of input `n` to a bank. -/
def State.grantCell (s : State) (n bank : Nat) : State :=
  match (s.pipe n).xin with
  | [] => s
  | k :: rest =>
    if k.ready = 0 then s
    else if k.sent = 0 then s.firstCell n bank k rest else s.nextCell n bank k rest

/-- One matching of inputs to free banks (R289): the grants in order, as (input, bank). -/
def matching : List (Nat × Nat) → List Nat → List (Nat × Nat)
  | [], _ => []
  | (i, r) :: l, free => (free.take r).map (fun b => (i, b)) ++ matching l (free.drop r)

/-- XBAR_MATCH: one core clock of the central scheduler. -/
def State.xbarMatch (s : State) : State :=
  let order := (List.range 9).map (fun k => (s.swc.p + k) % 9)
  let reqs := (order.map (fun i => (i, s.request i))).filter (fun x => x.2 != 0)
  let free := ((List.range 16).map (fun k => (s.swc.q + k) % 16)).filter (fun b => Store.get 0 s.swc.bankUsed b < 32768)
  let g := matching reqs free
  let asked := reqs.foldl (fun t x => t + x.2) 0
  let s := s.swcCnt 9 (asked - g.length)
  let s := if (List.range 9).any s.inputHeld then s.swcCnt 10 else s
  let s := match g.head?, g.getLast? with
    | some f, some l => { s with swc := { s.swc with p := (f.1 + 1) % 9, q := (l.2 + 1) % 16 } }
    | _, _ => s
  (g.foldl (fun s x => s.grantCell x.1 x.2) s).acctClock

/-- XBAR_MATCH (R289). -/
def execXbarMatch (s : State) : Out := s.whenMain State.xbarMatch

end Sys2Proof.Machine
end

