-- ==== Sys2Proof/Machine/Sleeve.lean ====
section
/-! DEFINITION. The sleeve: substitution of a pipeline, cloning and return (11_switch_core.md R303-R306). -/

namespace Sys2Proof.Machine

def State.sleeveState (s : State) : Nat := s.rd R.SWC_SLEEVE_STATUS_state

def State.setSleeve (s : State) (st : Nat) : State := s.wr R.SWC_SLEEVE_STATUS_state st

def State.sleeveDone (s : State) (status : Nat) : State := s.wr R.SWC_SLEEVE_STATUS_status status

/-- A key of the register store lies in pipeline instance `n` among what a copy moves: not the identity and ownership of
the instance, not its counters. -/
def copiedKey (n key : Nat) : Bool :=
  let b := key / 8
  let o := b - pipeBase n
  pipeBase n ≤ b && b < pipeBase (n + 1) && 0x10 ≤ o
    && !(0x1100 ≤ o && o < 0x1180) && !(0x1688 ≤ o && o < 0x1690) && !(0x1700 ≤ o && o < 0x1780)

/-- Copy the register values of one instance over another's in a store. -/
def copyKeys (src dst : Nat) (m : List (Nat × Nat)) : List (Nat × Nat) :=
  let new := (m.filter (fun p => copiedKey src p.1)).map (fun p => (p.1 - 8 * pipeBase src + 8 * pipeBase dst, p.2))
  Store.merge (m.filter (fun p => !copiedKey dst p.1)) new

/-- Copy the entries of one instance's table over another's. -/
def copyTbl {α : Type} (src dst width : Nat) (m : List (Nat × α)) : List (Nat × α) :=
  let new := (m.filter (fun p => p.1 / width == src)).map (fun p => (p.1 % width + dst * width, p.2))
  new.foldl (fun m p => Store.ins p.1 p.2 m) (m.filter (fun p => p.1 / width != dst))

/-- The copy of R304: every table entry, the registers with their active and staged values, the version state; the
target's flap tracker starts empty. The model moves the whole copy when it starts and mirrors every write from then on
(R304), so the two agree when it ends. -/
def State.clonePipe (s : State) (src dst : Nat) : State :=
  let p := s.pipe src
  let q := s.pipe dst
  let old := p.old.map (fun v => (v.1, copyKeys src dst v.2))
  let s := s.setPipe dst { q with ver := p.ver, old := old, track := [] }
  { s with
    regs := copyKeys src dst s.regs
    act := copyKeys src dst s.act
    tbl := { s.tbl with tcam := copyTbl src dst 65536 s.tbl.tcam, em := copyTbl src dst 262144 s.tbl.em, acts := copyTbl src dst 65536 s.tbl.acts } }

/-- Leave the tables of an instance empty (SRAM clear of R306; a destructive test, 20_health_test.md R510). -/
def State.emptyTables (s : State) (n : Nat) : State :=
  { s with tbl := { s.tbl with
      tcam := Store.clear s.tbl.tcam (n * 65536) ((n + 1) * 65536)
      em := Store.clear s.tbl.em (n * 262144) ((n + 1) * 262144)
      acts := Store.clear s.tbl.acts (n * 65536) ((n + 1) * 65536) } }

/-- The epoch controller is not idle and unit `n` or unit 8 is armed (R303). -/
def State.sleeveEpoch (s : State) (n : Nat) : Bool := s.armed n || s.armed 8

/-- TAKE puts the sleeve in place of pipeline `n` (R303; 20_health_test.md R511). -/
def State.sleeveTake (s : State) (n : Nat) (clone : Bool) : State :=
  if s.sleeveState ≠ 0 || s.fencedUnit 0 8 then s.sleeveDone St.sleeve_state
  else if clone && s.fencedUnit 0 n then s.sleeveDone St.sleeve_src
  else if s.sleeveEpoch n then s.sleeveDone St.sleeve_epoch
  else
    let s := (((s.setSleeve 1).wr R.SWC_SLEEVE_STATUS_pipe n).wr R.SWC_SLEEVE_STATUS_pipe_drained 0).sleeveDone 0
    { s with swc := { s.swc with clone := clone } }

/-- RETURN gives the substituted pipeline its work back (R303). -/
def State.sleeveReturn (s : State) (clone : Bool) : State :=
  let n := s.sleevePipe
  if s.sleeveState ≠ 4 then s.sleeveDone St.sleeve_state
  else if s.fencedUnit 0 n then s.sleeveDone St.sleeve_src
  else if s.sleeveEpoch n then s.sleeveDone St.sleeve_epoch
  else
    let s := (s.sleeveDone 0).wr R.SWC_SLEEVE_STATUS_pipe_drained 0
    if clone then
      let s := (s.clonePipe 8 n).setSleeve 5
      { s with swc := { s.swc with mirroring := true, mirrorLost := false } }
    else s.setSleeve 6

/-- A write of go (table SWC_ register fields). -/
def State.sleeveGo (s : State) : State :=
  let clone := s.on R.SWC_SLEEVE_CMD_clone
  match s.rd R.SWC_SLEEVE_CMD_op with
  | 1 => s.sleeveTake (s.rd R.SWC_SLEEVE_CMD_pipe) clone
  | 2 => s.sleeveReturn clone
  | _ => s.sleeveDone St.sleeve_state

/-- SLEEVE_WAKE_DONE: power-up and SRAM clear are done (R306). -/
def State.sleeveWoken (s : State) : State :=
  if s.sleeveState = 1 then
    let s := s.emptyTables 8
    if s.swc.clone then
      let s := (s.clonePipe s.sleevePipe 8).setSleeve 2
      { s with swc := { s.swc with mirroring := true, mirrorLost := false } }
    else s.setSleeve 3
  else s

/-- SLEEVE_COPY_DONE (R304). -/
def State.sleeveCopied (s : State) : State :=
  if s.sleeveState = 2 then s.setSleeve 3 else if s.sleeveState = 5 then s.setSleeve 6 else s

/-- SLEEVE_SWITCH_DONE: every source has switched and the old pipeline has had every cell granted (R305, R306). -/
def State.sleeveSwitched (s : State) : State :=
  let n := s.sleevePipe
  if s.sleeveState = 3 ∧ (s.pipe n).xin.isEmpty then
    ((s.setSleeve 4).raise R.SWC_SLEEVE_STATUS_pipe_drained).event 9 0 0x10 (leBytes 1 n ++ List.replicate 15 0)
  else if s.sleeveState = 6 ∧ (s.pipe 8).xin.isEmpty then
    let s := ((s.setSleeve 0).wr R.SWC_SLEEVE_STATUS_pipe_drained 0).event 9 0 0x11 (leBytes 1 n ++ List.replicate 15 0)
    { s with swc := { s.swc with mirroring := false, mirrorLost := false } }
  else s

def execSleeveWakeDone (s : State) : Out := s.whenMain State.sleeveWoken
def execSleeveCopyDone (s : State) : Out := s.whenMain State.sleeveCopied
def execSleeveSwitchDone (s : State) : Out := s.whenMain State.sleeveSwitched

end Sys2Proof.Machine
end

