-- ==== Sys2Proof/Machine/Tm.lean ====
section
/-! DEFINITION. The traffic manager behind the buffer: eligibility, strict priority and DWRR, gate control lists,
sampling, length correction (12_traffic_management.md R309-R317, R324-R331; 08_network_ports.md R225). Destinations are
numbered as in R309: 0-63 ports, 64-71 sockets, 72 the pair link. -/

namespace Sys2Proof.Machine

def tmBase : Nat := 0x2600000

def State.tmCnt (s : State) (c : Nat) : State := s.bump R.TM_CNT_count c

/-! ### Gate control lists (R324-R329) -/

def State.gateEng (s : State) (p : Nat) : GateEng := Store.get {} s.tm.gates p

def State.setGateEng (s : State) (p : Nat) (g : GateEng) : State :=
  { s with tm := { s.tm with gates := Store.put {} s.tm.gates p g } }

def State.gateEn (s : State) (p : Nat) : Bool := p < 64 && s.ac R.TM_SCHED_CFG_gate_en p == 1

/-- The list that the active registers of a port describe. -/
def State.gateCfg (s : State) (p : Nat) : GateList :=
  { base := ft64Units (s.ac R.TM_GATE_CFG_base_time p), idle := s.ac R.TM_GATE_LIST_idle_gates p
    ents := (List.range (s.ac R.TM_GATE_LIST_count p)).map (fun e => (s.ac R.TM_GATE_ENT_gates p e, s.ac R.TM_GATE_ENT_interval_ns p e)) }

/-- Length of the cycle, in FT units. -/
def GateList.cycle (l : GateList) : Nat := l.ents.foldl (fun t e => t + e.2) 0 * unitsPerNs

/-- First cycle start at or after an FT. -/
def GateList.startAt (l : GateList) (t : Nat) : Nat :=
  if t ≤ l.base ∨ l.cycle = 0 then l.base else l.base + (t - l.base + l.cycle - 1) / l.cycle * l.cycle

/-- The list in force at a port now: an adopted list takes over at its first cycle start (R326). -/
def State.gateList (s : State) (p : Nat) : Option GateList :=
  let g := s.gateEng p
  match g.next with
  | some l => if g.start ≤ s.time.ft then some l else g.cur
  | none => g.cur

/-- The entry in force at an offset into the cycle, with what is left of it: index, gates, FT units to its end. -/
def entryAt : List (Nat × Nat) → Nat → Nat → Option (Nat × Nat × Nat)
  | [], _, _ => none
  | (g, iv) :: l, i, off => if off < iv * unitsPerNs then some (i, g, iv * unitsPerNs - off) else entryAt l (i + 1) (off - iv * unitsPerNs)

/-- The entry that FT names (R324, R327). -/
def State.gateEntry (s : State) (p : Nat) : Option (Nat × Nat × Nat) :=
  match s.gateList p with
  | none => none
  | some l => if s.time.ft < l.base ∨ l.cycle = 0 then none else entryAt l.ents 0 ((s.time.ft - l.base) % l.cycle)

def State.gateForced (s : State) (p : Nat) : Bool := bit (s.rd R.TM_GATE_FORCE_force) p

/-- Classes open at a port now (R324, R326-R328). -/
def State.gatesOpen (s : State) (p : Nat) : Nat :=
  if s.gateForced p || !s.gateEn p then 0xFF
  else match s.gateEntry p with
    | some e => e.2.1
    | none => match s.gateList p with
      | some l => l.idle
      | none => (s.gateEng p).next.elim (s.ac R.TM_GATE_LIST_idle_gates p) (·.idle)

/-- FT units from the start of a list of entries to the first one that closes class `c`. -/
def firstClosed (c : Nat) : List (Nat × Nat) → Nat → Option Nat
  | [], _ => none
  | (g, iv) :: l, t => if bit g c then firstClosed c l (t + iv * unitsPerNs) else some t

/-- FT at which class `c` of port `p` next closes; none: it never does (R325). -/
def State.gateClose (s : State) (p c : Nat) : Option Nat :=
  match s.gateList p with
  | none => none
  | some l =>
    if l.cycle = 0 then none
    else match s.gateEntry p with
      | none => (firstClosed c l.ents 0).map (l.base + ·)
      | some e => (firstClosed c (l.ents.drop (e.1 + 1) ++ l.ents) 0).map (s.time.ft + e.2.2 + ·)

/-- The apron of a frame of `l` bytes at a port, in FT units (R325). -/
def State.apron (s : State) (p l : Nat) : Nat :=
  let r := max (s.portRate p) 1
  (((l + 24) * 8 + r - 1) / r + s.ac R.TM_CFG_apron_guard_ns) * unitsPerNs

/-! ### Lengths (R310, R311) -/

/-- L of a frame that leaves by destination `d`: its length, or the `max_frame` of the egress while the tail has not
arrived. -/
def State.lenFor (s : State) (d : Nat) (k : Pkt) : Nat :=
  if k.frame.whole then k.frame.data.length else (if d < 64 then s.maxFrame d else 9600) - 4

/-- Wire bytes W. -/
def State.wireFor (s : State) (d : Nat) (k : Pkt) : Nat := s.lenFor d k + 4 + s.ac R.TM_CFG_ovh_bytes

/-! ### Eligibility (R312, R225) -/

/-- Rate of a source in Gb/s for cut-through: a socket counts as 750. -/
def State.srcRate (s : State) (src : Nat) : Nat :=
  if src < 0x40 then s.portRate src else if 0x100 ≤ src ∧ src < 0x108 then 750 else 0

/-- The frame is cut through to destination `d` (R225). -/
def State.cutOk (s : State) (d : Nat) (k : Pkt) : Bool :=
  let r := s.srcRate k.frame.src
  if d < 64 then s.cutThrough d && s.portRate d ≤ r && r != 0 && s.portUp d && !s.stopped d k.cls
  else d < 72 && 750 ≤ r

/-- Units of a transaction of `l` data bytes. -/
def txnUnits (l : Nat) : Nat := 1 + (l + 15) / 16

/-- Credits of channel `v` that a link's transmitter may still use (15_wilotte_link.md R396). -/
def Link.credits (l : Link) (v : Nat) : Nat :=
  (Store.get 0 l.offer v + Store.get 0 l.partner v + 4096 - Store.get 0 l.consumed v % 4096) % 4096

/-- The sublink of a frame toward the pair partner (22_redundant_pair.md R541). -/
def State.pairSub (s : State) (k : Pkt) : Option Nat :=
  let a := (s.link 8).state == 4
  let b := (s.link 9).state == 4
  if a && b then some (if k.hash % 2 = 0 then 8 else 9) else if a then some 8 else if b then some 9 else none

/-- The link by which a frame leaves for destination `d` ≥ 64. -/
def State.linkFor (s : State) (d : Nat) (k : Pkt) : Option Nat :=
  if d < 72 then (if (s.link (d - 64)).state = 4 then some (d - 64) else none) else s.pairSub k

/-- The link holds credits for the frame; one of unknown length counts as 38 (R398). -/
def State.creditOk (s : State) (d : Nat) (k : Pkt) : Bool :=
  match s.linkFor d k with
  | none => false
  | some n => (if k.frame.whole then cellsOf k.frame.data.length else 38) ≤ (s.link n).credits 0

/-- First output queue of a destination. -/
def tmQueue (d c : Nat) : Nat := 8 * d + c

/-- Why the head frame of a class queue is not eligible: 6 its shaper, 7 the gate, 9 the apron, 10 pause, 11 credits (the
numbers of the counters). -/
def State.holds (s : State) (d c : Nat) (k : Pkt) : List Nat :=
  let gate :=
    if 64 ≤ d || s.gateForced d || !s.gateEn d then []
    else if !bit (s.gatesOpen d) c then [7]
    else match s.gateClose d c with
      | none => []
      | some t => if s.time.ft + s.apron d (s.lenFor d k) ≤ t then [] else [9]
  (if s.shaperHolds k.slice then [6] else []) ++ gate ++ (if d < 64 && s.stopped d c then [10] else [])
    ++ (if 64 ≤ d && !s.creditOk d k then [11] else [])

/-- The head frame of a class queue that may leave at all: wholly in the buffer, or cut through. -/
def State.headReady (s : State) (d c : Nat) : Option (Stored × QEnt) :=
  match s.queue (tmQueue d c) with
  | [] => none
  | e :: _ => match s.stored e.id with
    | none => none
    | some f => if f.full || s.cutOk d f.pkt then some (f, e) else none

/-- The head frame of a class queue when it is eligible (R312). -/
def State.eligible (s : State) (d c : Nat) : Option Stored :=
  match s.headReady d c with
  | none => none
  | some (f, _) => if (s.holds d c f.pkt).isEmpty then some f else none

/-- Count the decisions in which a non-empty queue was ineligible for one cause alone. -/
def State.countHeld (s : State) (d : Nat) : State :=
  (List.range 8).foldl (fun s c => match s.headReady d c with
    | none => s
    | some (f, _) => match s.holds d c f.pkt with
      | [x] => s.tmCnt x
      | _ => s) s

/-! ### The choice (R313, R331) -/

/-- Strict classes of a destination. -/
def State.strictMask (s : State) (d : Nat) : Nat :=
  if s.expert tmBase then s.ac R.TM_SCHED_CFG_strict d
  else match s.preset tmBase with
    | 0 => 0xC0
    | 1 => 0
    | 2 => 0x80
    | _ => 0xFF

/-- Quantum of a class. -/
def State.quantum (s : State) (d c : Nat) : Nat :=
  if s.expert tmBase then s.ac R.TM_QUANTUM_quantum d c
  else if s.preset tmBase = 2 then (if c < 2 then 9728 else if c < 4 then 19456 else 38912) else 9728

def State.dwrr (s : State) (d : Nat) : Dwrr := Store.get {} s.tm.dwrr d

def State.setDwrr (s : State) (d : Nat) (x : Dwrr) : State := { s with tm := { s.tm with dwrr := Store.put {} s.tm.dwrr d x } }

/-- The next weighted class at or after `c`, wrapping. -/
def weightedFrom (strict c : Nat) : Nat :=
  ((List.range 8).map (fun i => (c + i) % 8)).find? (fun w => !bit strict w) |>.getD 0

/-- The loop over the weighted group. `head` gives W of an eligible class's head frame. -/
def dwrrLoop (strict : Nat) (head quantum : Nat → Option Nat) : Nat → Dwrr → Option (Nat × Dwrr)
  | 0, _ => none
  | n + 1, x =>
    let w := weightedFrom strict x.ptr
    let skip : Dwrr := { x with visiting := setBit x.visiting w false, ptr := weightedFrom strict (w + 1) }
    match head w with
    | none => dwrrLoop strict head quantum n skip
    | some b =>
      let df := Store.get 0 x.deficit w + (if bit x.visiting w then 0 else (quantum w).getD 0)
      let x := { x with ptr := w, visiting := setBit x.visiting w true, deficit := Store.put 0 x.deficit w df }
      if b ≤ df then some (w, { x with deficit := Store.put 0 x.deficit w (df - b) })
      else dwrrLoop strict head quantum n { x with visiting := setBit x.visiting w false, ptr := weightedFrom strict (w + 1) }

/-- The class that destination `d` serves next, with the weighted group's state (R313). -/
def State.choose (s : State) (d : Nat) : Option (Nat × Dwrr) :=
  let strict := s.strictMask d
  let el := (List.range 8).map (fun c => (s.eligible d c).map (fun f => s.wireFor d f.pkt))
  let head := fun c => (el[c]?).getD none
  match [7, 6, 5, 4, 3, 2, 1, 0].find? (fun c => bit strict c && (head c).isSome) with
  | some c => some (c, s.dwrr d)
  | none =>
    if (List.range 8).any (fun c => !bit strict c && (head c).isSome) then
      dwrrLoop strict head (fun c => some (s.quantum d c)) 1400 (s.dwrr d)
    else none

/-- The header unit of a transaction (16_tenant_sockets.md, table Header unit). -/
def txnHeader (type sub len tag status arg : Nat) : List Byte :=
  leBytes 1 type ++ leBytes 1 sub ++ leBytes 2 len ++ leBytes 2 tag ++ leBytes 2 status ++ leBytes 8 arg

/-- Bytes filled with zeros to whole units. -/
def padUnits (bs : List Byte) : List Byte := bs ++ List.replicate ((16 - bs.length % 16) % 16) 0

/-- The PKT transaction of a frame toward a module (16_tenant_sockets.md R406) or toward the partner
(22_redundant_pair.md R541). -/
def pktTxn (d : Nat) (k : Pkt) : Txn :=
  let st := if d = 72 then k.slice % 4096 + 4096 * (k.frame.recirc % 8) else k.reason
  { vc := 0, data := txnHeader 1 k.cls k.frame.data.length 0 st k.frame.stamp ++ padUnits k.frame.data, bad := k.frame.bad || k.frame.poison, frame := some d }

/-- Hand a selected frame to its destination: a port's MAC, or the transmit queue of a link. A stored frame that is bad
is dropped before a link sends it (08_network_ports.md R226). -/
def State.handOver (s : State) (d c : Nat) (f : Stored) (e : QEnt) : State :=
  let o : OutFrame := { d := d, pkt := f.pkt, at_ := s.time.ft, cls := c, id := e.id, mirror := e.mirror, cut := !f.full }
  let fr := f.pkt.frame
  if 64 ≤ d ∧ f.full ∧ (fr.bad ∨ fr.poison) then
    (if e.mirror then s else s.copyDone fr false).lessCopy e.id e.mirror
  else
  let s := { s with tm := { s.tm with out := s.tm.out ++ [o] } }
  if d < 64 then s
  else match s.linkFor d f.pkt with
    | none => s
    | some n => let l := s.link n; s.setLink n { l with txq := l.txq ++ [pktTxn d f.pkt] }

/-- Highest dequeue delay of a queue (R330). -/
def State.noteDelay (s : State) (q : Nat) (e : QEnt) : State :=
  s.peak R.TM_Q_MAX_delay_ns (min ((s.time.ft - e.at_) / unitsPerNs) 0xFFFFFFFF) q

/-- The destination can take a frame: it has none in hand, a port is UP, a link is ACTIVE. -/
def State.destFree (s : State) (d : Nat) : Bool :=
  !s.tm.out.any (·.d == d) && (if d < 64 then s.portUp d else if d < 72 then (s.link (d - 64)).state == 4 else s.paired)

/-- One decision for destination `d`. -/
def State.tmSelect (s : State) (d : Nat) : State :=
  if !s.destFree d then s
  else
    let s := s.countHeld d
    match s.choose d with
    | none => s
    | some (c, x) =>
      let q := tmQueue d c
      match s.eligible d c, s.popQueue q with
      | some f, some (e, s) =>
        let w := s.wireFor d f.pkt
        let x := if (s.queue q).isEmpty && !bit (s.strictMask d) c then { x with deficit := Store.put 0 x.deficit c 0, visiting := setBit x.visiting c false } else x
        let s := (s.setDwrr d x).noteDelay q e
        let s := s.shaperCharge f.pkt.slice w
        let s := if f.pkt.frame.whole then s
          else { s with tm := { s.tm with assumed := s.tm.assumed ++ [{ id := f.id, shaper := f.pkt.slice, bytes := w }] } }
        (s.tmCnt 0).handOver d c f e
      | _, _ => s

/-! ### Gate events -/

/-- FT at which a frame in transmission has left the ball: frame, FCS, preamble and gap at the port's rate. -/
def State.txEnd (s : State) (o : OutFrame) : Nat :=
  let r := max (s.portRate o.d) 1
  o.at_ + (((s.lenFor o.d o.pkt + 24) * 8 + r - 1) / r) * unitsPerNs

/-- A frame in transmission whose class is closed now completes and counts as an overrun (R329). -/
def State.gateOverrun (s : State) (p : Nat) : State :=
  match s.tm.out.find? (fun o => o.d == p && !o.overran) with
  | none => s
  | some o =>
    if bit (s.gatesOpen p) o.cls || s.txEnd o ≤ s.time.ft then s
    else
      let s := { s with tm := { s.tm with out := s.tm.out.map (fun (x : OutFrame) => if x.d = p then { x with overran := true } else x) } }
      let s := s.tmCnt 8
      let g := s.gateEng p
      let now := ftSec s.time.ft
      if g.overrunSec = some now then s
      else
        let ns := (s.txEnd o - s.time.ft) / unitsPerNs
        (s.setGateEng p { g with overrunSec := some now }).event 0xA 0 1 (leBytes 1 p ++ leBytes 1 o.cls ++ leBytes 2 0 ++ leBytes 4 ns ++ leBytes 8 0)

/-- At T an epoch's list of a port is adopted (R326): the old list stays in force until the first cycle start of the
new one at or after T. -/
def State.gateAdopt (s : State) (p : Nat) : State :=
  let g := s.gateEng p
  if !s.gateEn p then s.setGateEng p { g with cur := none, next := none }
  else
    let l := s.gateCfg p
    if s.gateList p = some l then s
    else s.setGateEng p { g with cur := s.gateList p, next := some l, start := l.startAt s.time.ft }

/-- GATE_LIST_START (R326). -/
def State.gateStart (s : State) (p : Nat) : State :=
  let g := s.gateEng p
  match g.next with
  | none => s
  | some l =>
    let s := s.runTo g.start
    let s := s.setGateEng p { g with cur := some l, next := none }
    (s.event 0xA 0 2 (leBytes 1 p ++ leBytes 7 0 ++ leBytes 8 (ft64 g.start))).gateOverrun p

/-- GATE_ENTRY_CHANGE (R324): time runs to the end of the entry in force. -/
def State.gateChange (s : State) (p : Nat) : State :=
  match s.gateEn p, s.gateList p with
  | true, some l =>
    if s.time.ft < l.base then (s.runTo l.base).gateOverrun p
    else match s.gateEntry p with
      | some e => (s.runTo (s.time.ft + e.2.2)).gateOverrun p
      | none => s
  | _, _ => s

/-- A write of TM_GATE_FORCE (R328). -/
def State.gateForce (s : State) (v : Nat) : State :=
  let old := s.rd R.TM_GATE_FORCE_force
  let s := s.wr R.TM_GATE_FORCE_force v
  ((List.range 64).filter (fun p => bit old p && !bit v p)).foldl State.gateOverrun s

/-- TM_SAMPLE (R330). -/
def State.tmSample (s : State) : State :=
  let us := s.ac R.TM_CFG_sample_us
  if us = 0 then s
  else
    let s := s.runTo (s.tm.sampleAt + us * unitsPerUs)
    let s := { s with tm := { s.tm with sampleAt := s.time.ft } }
    (List.range 584).foldl (fun s q =>
      let d := match s.queue q with
        | e :: _ => min ((s.time.ft - e.at_) / unitsPerNs) 0xFFFFFFFF
        | [] => 0
      (s.wr R.TM_Q_LAST_depth (s.qDepth q) q).wr R.TM_Q_LAST_delay_ns d q) s

/-! ### LENGTH_CORRECT (R311) -/

/-- A frame's tail has arrived. -/
def Frame.tail (f : Frame) (bad : Bool) : Frame := { f with whole := true, bad := f.bad || bad }

/-- Apply a change to the frame from source `src` whose tail has not arrived, wherever the device holds it. -/
def State.mapTail (s : State) (src : Nat) (g : Frame → Frame) : State :=
  let ff := fun (f : Frame) => if f.src = src ∧ f.whole = false then g f else f
  let fk := fun (k : Pkt) => { k with frame := ff k.frame }
  { s with
    tbl := { s.tbl with pipes := s.tbl.pipes.map (fun p => (p.1, { p.2 with netq := p.2.netq.map ff, xin := p.2.xin.map fk })) }
    swc := { s.swc with stored := s.swc.stored.map (fun x =>
      let k := fk x.pkt
      { x with pkt := k, full := x.full || (k.frame.whole && x.banks.length == x.cells) }) }
    tm := { s.tm with out := s.tm.out.map (fun o => { o with pkt := fk o.pkt }) } }

/-- The packets from source `src` whose tail has not arrived. -/
def State.openPkts (s : State) (src : Nat) : List Pkt :=
  let p := fun (k : Pkt) => k.frame.src == src && !k.frame.whole
  (s.tbl.pipes.flatMap (fun x => x.2.xin.filter p)) ++ (s.swc.stored.map (·.pkt)).filter p ++ (s.tm.out.map (·.pkt)).filter p

/-- The tail of the frame that source `src` is delivering arrives: the overcharged difference returns to the buckets
from which it was taken, and the frame is whole, good or bad. -/
def State.lengthCorrect (s : State) (src : Nat) (bad : Bool) : State :=
  match s.openPkts src with
  | [] => s.mapTail src (·.tail bad)
  | k :: _ =>
    let l := k.frame.data.length
    let s1 := match k.policer with
      | some i => if l + 4 < k.polAssumed then s.polReturn i k.polTook (k.polAssumed - (l + 4)) else s
      | none => s
    let w := l + 4 + s.ac R.TM_CFG_ovh_bytes
    let mine := s1.tm.assumed.filter (fun a => a.id == k.sid && k.sid != 0)
    let s2 := mine.foldl (fun s a => if s.shaperOn a.shaper then s.setTokens a.shaper (s.tokens a.shaper + ((a.bytes - w : Nat) : Int) * tokUnit) else s) s1
    let s3 := { s2 with tm := { s2.tm with assumed := s2.tm.assumed.filter (fun a => !(a.id == k.sid && k.sid != 0)) } }
    let s4 := if k.polAssumed ≠ 0 ∨ !mine.isEmpty then s3.tmCnt 12 else s3
    (s4.mapTail src (·.tail bad)).settleStored k.sid

def execGateEntryChange (p : Fin 64) (s : State) : Out := s.whenMain (·.gateChange p)
def execGateListStart (p : Fin 64) (s : State) : Out := s.whenMain (·.gateStart p)
def execTmSample (s : State) : Out := s.whenMain State.tmSample

end Sys2Proof.Machine
end

