-- ==== Sys2Proof/Machine/Ports.lean ====
section
/-! DEFINITION. Network ports: port states, reception, pause and PFC, transmission and one-step timestamps, lane faults
(08_network_ports.md R209-R230). -/

namespace Sys2Proof.Machine

def State.setPort (s : State) (p : Nat) (f : Fld) (v : Nat) : State := s.wr f v (p / 8) (p % 8)

def State.portBit (s : State) (p : Nat) (f : Fld) : Bool := s.on f (p / 8) (p % 8)

/-- Lanes of port `p`. -/
def State.lanesOf (s : State) (p : Nat) : List Nat := (List.range (s.portLanes p)).map (p + ·)

/-- The port that a lane belongs to. -/
def State.portOfLane (s : State) (l : Nat) : Option Nat :=
  ((List.range 8).map (fun k => l / 8 * 8 + k)).find? (fun p => p ≤ l && l < p + s.portLanes p)

def State.laneShut (s : State) (l : Nat) : Bool := s.on R.PRT_LANE_STATUS_shut (l / 8) (l % 8)

/-- Set the state of every lane of a port that is not shut. -/
def State.setLanes (s : State) (p st : Nat) : State :=
  (s.lanesOf p).foldl (fun s l => if s.laneShut l then s else s.wr R.PRT_LANE_STATUS_state st (l / 8) (l % 8)) s

def State.clearLos (s : State) (p : Nat) : State := (s.lanesOf p).foldl (fun s l => s.wr R.PRT_LANE_STATUS_los 0 (l / 8) (l % 8)) s

def State.waitNow (s : State) (p : Nat) : State := s.setLane p { s.lane p with waitAt := s.time.ft }

def State.setPortUp (s : State) (p : Nat) (up : Bool) : State :=
  s.wr R.PRT_GRP_STATUS_ports_up (setBit (s.rd R.PRT_GRP_STATUS_ports_up (p / 8)) (p % 8) up) (p / 8)

/-! ### Transmission (R216, R223-R226) -/

/-- The frame that a port is transmitting. -/
def State.outOf (s : State) (d : Nat) : Option OutFrame := s.tm.out.find? (·.d == d)

/-- A destination has finished with its frame. -/
def State.outDone (s : State) (o : OutFrame) (sent : Bool) (stamp : Nat := 0) : State :=
  let s := { s with tm := { s.tm with out := s.tm.out.filter (fun x => !(x.d == o.d && x.id == o.id && x.mirror == o.mirror)) } }
  let s := if o.mirror then s else s.copyDone o.pkt.frame sent stamp
  (s.lessCopy o.id o.mirror).acctClock

/-- Put a frame on the wire of port `p`: padded to 60 bytes, counted with its FCS. -/
def State.putWire (s : State) (p : Nat) (data : List Byte) (stomped : Bool) : State :=
  let data := data ++ List.replicate (60 - data.length) 0
  let s := { s with wire := s.wire ++ [Wire.frame p data stomped s.time.ft] }
  let s := (s.prtCnt p 10).prtCnt p 11 (data.length + 4)
  if stomped then s.prtCnt p 12 else s

/-- A frame in transmission ends with a stomped FCS, padded to 64 bytes (R216, R226). -/
def State.abortTx (s : State) (p : Nat) : State :=
  match s.outOf p with
  | none => s
  | some o => (s.putWire p o.pkt.frame.data true).outDone o false

/-- Where the PTP message of a frame lies: its offset, and the UDP header's offset with whether IPv6 carries it (R223).
Tags of 802.1Q before the EtherType are passed over. -/
def ptpAt (d : List Byte) : Option (Nat × Option (Nat × Bool)) :=
  let et := fun o => beNat (sliceBytes d o 2)
  let tag := fun o => et o == 0x8100 || et o == 0x88A8
  let o := if tag 12 then (if tag 16 then 20 else 16) else 12
  let ip := o + 2
  if et o = 0x88F7 then some (ip, none)
  else if et o = 0x0800 ∧ fieldLE d (ip + 9) 1 = 17 then
    let u := ip + fieldLE d ip 1 % 16 * 4
    if et (u + 2) = 319 then some (u + 8, some (u, false)) else none
  else if et o = 0x86DD ∧ fieldLE d (ip + 6) 1 = 17 then
    let u := ip + 40
    if et (u + 2) = 319 then some (u + 8, some (u, true)) else none
  else none

/-- Rewrite the two bytes at `off` behind a PTP message so that the sum of the UDP payload from `u` to `n` stays what it
was in `old` (R224). -/
def fixTrailer (old new : List Byte) (u n off : Nat) : List Byte :=
  let z := putAt new off [0, 0]
  let so := foldSum (foldSum (onesSum (sliceBytes old u n) 0))
  let sn := foldSum (foldSum (onesSum (sliceBytes z u n) 0))
  let t := foldSum (so + (65535 - sn))
  let t := if (off - u) % 2 = 0 then t else t % 256 * 256 + t / 256
  putAt z off (beBytes 2 t)

/-- One-step rewriting of a frame that leaves now (R223, R224); none: the frame lacks what the mode needs. -/
def oneStep (mode : Nat) (d : List Byte) (ingress now : Nat) : Option (List Byte) :=
  match ptpAt d with
  | none => none
  | some (o, udp) =>
    let len := beNat (sliceBytes d (o + 2) 2)
    if 4 ≤ fieldLE d o 1 % 16 ∨ d.length < o + 44 then none
    else
      let d' := if mode = 2 then putAt d (o + 34) (beBytes 6 (ftSec now) ++ beBytes 4 (ftNs now))
        else
          let res := (now - ingress) * 2 ^ 16 / unitsPerNs
          putAt d (o + 8) (beBytes 8 ((beNat (sliceBytes d (o + 8) 8) + res) % 2 ^ 64))
      match udp with
      | none => some d'
      | some (u, false) => some (putAt d' (u + 6) [0, 0])
      | some (u, true) =>
        let ul := beNat (sliceBytes d (u + 4) 2)
        if ul < len + 10 ∨ d.length < o + len + 2 then none else some (fixTrailer d d' u ul (o + len))

/-- FRAME_TRANSMIT: port `p` sends the last byte of the frame it has in hand, once its tail is in the buffer. -/
def State.frameTransmit (s : State) (p : Nat) : State :=
  match s.outOf p with
  | none => s
  | some o => match s.stored o.id with
    | none => s
    | some f =>
      if !f.full || !s.portUp p then s
      else
        let fr := f.pkt.frame
        let o := { o with pkt := f.pkt }
        let bad := fr.bad || fr.poison
        if bad && !o.cut then (s.prtCnt p 14).outDone o false
        else
          let lim := s.maxFrame p - 4
          let long := lim < fr.data.length
          let mode := f.pkt.ts
          let step := if 2 ≤ mode then (if s.oneStepEn p then oneStep mode fr.data fr.at_ s.time.ft else none) else some fr.data
          let s := if step.isNone then s.prtCnt p 20 else s
          let s := s.putWire p ((step.getD fr.data).take lim) (bad || long)
          s.outDone o true s.now64

/-! ### PFC transmission (R221, R301) -/

/-- Classes for which the port is to assert XOFF now. -/
def State.xoffWanted (s : State) (p : Nat) : Nat :=
  let m := s.pfcTxMask p
  let h := (s.lane p).hwbXoff
  (List.range 8).foldl (fun a c => if bit m c && (s.acctXoff (8 * p + c) || bit h c) then a + 2 ^ c else a) 0

/-- Send a PFC frame that names `classes`, stopping those of `stop`. -/
def State.sendPfc (s : State) (p classes stop : Nat) : State :=
  let q := s.rd R.PRT_PFC_CFG_quanta (p / 8) (p % 8)
  let s := { s with wire := s.wire ++ [Wire.pfc p classes stop q s.time.ft] }
  (s.setLane p { s.lane p with pfcAt := s.time.ft }).prtCnt p 13

/-- PFC_SEND: after the frame in transmission, one PFC frame for every class whose state has changed. -/
def State.pfcSend (s : State) (p : Nat) : State :=
  let want := s.xoffWanted p
  let sent := s.rd R.PRT_PORT_STATUS_xoff_tx (p / 8) (p % 8)
  if !s.portUp p || want == sent || (s.outOf p).isSome then s
  else (s.sendPfc p (want ^^^ sent) (want &&& (want ^^^ sent))).setPort p R.PRT_PORT_STATUS_xoff_tx want

/-- PFC_REFRESH: 2 × refresh quanta after the last PFC frame, while XOFF holds. -/
def State.pfcRefresh (s : State) (p : Nat) : State :=
  let sent := s.rd R.PRT_PORT_STATUS_xoff_tx (p / 8) (p % 8)
  if !s.portUp p || sent == 0 then s
  else
    let r := s.rd R.PRT_PFC_CFG_refresh (p / 8) (p % 8)
    let s := s.runTo ((s.lane p).pfcAt + s.quantaUnits p (2 * r))
    s.sendPfc p sent sent

/-! ### Port states (table Port states) -/

/-- Port event. -/
def State.portEvent (s : State) (p code : Nat) (d : List Byte) : State :=
  s.event 7 (p / 8) code ((leBytes 1 p ++ d ++ List.replicate 15 0).take 16)

/-- The frame being received when the signal goes is bad (R218). -/
def State.endRx (s : State) (p : Nat) : State :=
  match (s.lane p).rxOpen with
  | none => s
  | some _ => ((s.setLane p { s.lane p with rxOpen := none }).prtCnt p 6).lengthCorrect p true

/-- What the device sends toward the management controller. -/
def State.toMgmt (s : State) (m : BmcMsg) : State := { s with isl := { s.isl with toBmc := s.isl.toBmc ++ [m] } }

/-- An NC-SI channel: channel n is port n of group 0 (21_management.md R528). -/
def State.ncsi (s : State) (n : Nat) : NcsiCh := Store.get {} s.isl.chans n

/-- The notification of a link status change, where the channel of the port has it enabled. -/
def State.linkAen (s : State) (p : Nat) : State :=
  if p < 8 && (s.ncsi p).ready && bit (s.ncsi p).aen 0 then s.toMgmt (.aen p 0) else s

/-- Port `p` leaves UP. -/
def State.portDown (s : State) (p cause : Nat) : State :=
  if s.portUp p then
    let s := ((s.endRx p).abortTx p).setPortUp p false
    (((s.prtCnt p 17).setPort p R.PRT_PORT_STATUS_xoff_tx 0).portEvent p 2 (leBytes 1 cause)).linkAen p
  else s

/-- Port `p` enters TRAINING and starts negotiation and training afresh (R213). -/
def State.train (s : State) (p : Nat) : State :=
  let s := ((s.setPort p R.PRT_PORT_STATUS_state 1).setPort p R.PRT_PORT_STATUS_an_done 0).setPort p R.PRT_PORT_STATUS_lt_done 0
  (s.setLanes p 1).waitNow p

/-- An enabled port starts when the cuff is open and its group is in service; a port with a shut lane is in LANE_FAULT
(R213, R227). -/
def State.startPort (s : State) (p : Nat) : State :=
  if s.portEnabled p && s.cuffOpen && !s.fencedUnit 4 (p / 8) && s.portState p == 0 then
    if (s.lanesOf p).any s.laneShut then s.setPort p R.PRT_PORT_STATUS_state 4 else s.train p
  else s

/-- Port `p` goes to DISABLED: a frame in transmission ends stomped, frames queued for it are discarded and counted
(R216). -/
def State.disablePort (s : State) (p : Nat) : State :=
  let s := (s.portDown p 3).setPort p R.PRT_PORT_STATUS_state 0
  let s := (((s.setPort p R.PRT_PORT_STATUS_an_done 0).setPort p R.PRT_PORT_STATUS_lt_done 0).setPort p R.PRT_PORT_STATUS_an_mismatch 0).setLanes p 0
  let s := (s.setPort p R.PRT_PORT_STATUS_remote_fault 0).setPort p R.PRT_PORT_STATUS_local_fault 0
  (List.range 8).foldl (fun s c => s.flushQueue (8 * p + c) (·.prtCnt p 14)) s

/-- AN_RESOLVED (R212). -/
def State.anResolved (s : State) (p rate : Nat) : State :=
  if s.portState p = 1 ∧ s.portAn p then
    if rate = s.portRate p then ((s.setPort p R.PRT_PORT_STATUS_an_done 1).setPort p R.PRT_PORT_STATUS_an_mismatch 0).waitNow p
    else ((s.setPort p R.PRT_PORT_STATUS_an_mismatch 1).setPort p R.PRT_PORT_STATUS_an_done 0).waitNow p
  else s

/-- AN_RESTART (R212): every second while the partner resolves to another rate. -/
def State.anRestart (s : State) (p : Nat) : State :=
  if s.portState p = 1 ∧ s.portBit p R.PRT_PORT_STATUS_an_mismatch then
    ((s.runTo ((s.lane p).waitAt + unitsPerSec)).setPort p R.PRT_PORT_STATUS_an_done 0).waitNow p
  else s

/-- TRAIN_TIMEOUT (R212): training does not reach a trained state within 1 s. -/
def State.trainTimeout (s : State) (p : Nat) : State :=
  if s.portState p = 1 ∧ s.portLt p ∧ (s.portBit p R.PRT_PORT_STATUS_an_done ∨ s.portAn p = false) then
    (((s.runTo ((s.lane p).waitAt + unitsPerSec)).prtCnt p 18).setPort p R.PRT_PORT_STATUS_an_done 0).waitNow p
  else s

/-- Lanes of port `p` among a mask of lanes of its group become the corrected ones (R214). -/
def State.setInverted (s : State) (p inv : Nat) : State :=
  let g := p / 8
  let v := (s.lanesOf p).foldl (fun v l => setBit v (l % 8) (bit inv (l % 8))) (s.rd R.PRT_GRP_STATUS_rx_inverted g)
  s.wr R.PRT_GRP_STATUS_rx_inverted v g

/-- FAULT_TIMEOUT: a fault lasting 10 ms. -/
def State.faultTimeout (s : State) (p : Nat) : State :=
  if s.portState p = 3 then (s.runTo ((s.lane p).waitAt + 10 * unitsPerMs)).train p else s

/-- PORT_UP: the PCS is aligned and there is no fault. `inv` are the lanes of the group whose inverted polarity the
receiver has corrected (R214). -/
def State.portUpEvent (s : State) (p inv : Nat) : State :=
  let st := s.portState p
  let fromTraining := st = 1 ∧ (s.portAn p = false ∨ s.portBit p R.PRT_PORT_STATUS_an_done)
  let fromFault := st = 3 ∧ s.time.ft < (s.lane p).waitAt + 10 * unitsPerMs
  if s.cuffOpen ∧ (fromTraining ∨ fromFault) then
    let s := ((s.setPort p R.PRT_PORT_STATUS_state 2).setPort p R.PRT_PORT_STATUS_lt_done (b2n (s.portLt p))).setPortUp p true
    let s := ((s.setPort p R.PRT_PORT_STATUS_local_fault 0).setPort p R.PRT_PORT_STATUS_remote_fault 0).setLanes p 2
    (((s.clearLos p).setInverted p inv).portEvent p 1 []).linkAen p
  else s

/-- PORT_FAULT: a local or remote fault. -/
def State.portFault (s : State) (p : Nat) (remote : Bool) : State :=
  if s.portState p = 2 ∨ s.portState p = 3 then
    let was := s.portUp p
    let s := s.portDown p 1
    let s := s.setPort p (if remote then R.PRT_PORT_STATUS_remote_fault else R.PRT_PORT_STATUS_local_fault) 1
    let s := s.setPort p R.PRT_PORT_STATUS_state 3
    if was then s.waitNow p else s
  else s

/-- LOSS_OF_SIGNAL at a lane: its port goes to TRAINING and retries without limit; nothing is latched (R229). -/
def State.lossOfSignal (s : State) (l : Nat) : State :=
  match s.portOfLane l with
  | none => s
  | some p =>
    if s.portState p = 1 ∨ s.portState p = 2 ∨ s.portState p = 3 then
      let s := (s.portDown p 0).train p
      (s.wr R.PRT_LANE_STATUS_los 1 (l / 8) (l % 8)).wr R.PRT_LANE_STATUS_state 3 (l / 8) (l % 8)
    else s

/-- GROUP_REVERSAL: detected in 800G and in 2 × 400G from the alignment markers (R215). -/
def State.groupReversal (s : State) (g : Nat) : State :=
  if s.quadMode g 0 = 6 ∨ (s.quadMode g 0 = 1 ∧ s.quadMode g 1 = 1) then
    (s.raise R.PRT_GRP_STATUS_reversed g).event 7 g 4 (leBytes 1 g ++ List.replicate 15 0)
  else s

/-! ### Received pause and PFC (R219, R220, R222) -/

/-- Class `c` is released. -/
def State.releaseClass (s : State) (p c : Nat) : State :=
  let x := s.lane p
  let s := s.setLane p { x with stopEnd := Store.put 0 x.stopEnd c 0, pfcSince := Store.drop x.pfcSince c, pfcTripped := x.pfcTripped.filter (· != c) }
  s.setPort p R.PRT_PORT_STATUS_stopped_rx (setBit (s.rd R.PRT_PORT_STATUS_stopped_rx (p / 8) (p % 8)) c false)

/-- Class `c` is stopped for a number of quanta; a later frame replaces what is left. -/
def State.stopClass (s : State) (p c q : Nat) (pfc : Bool) : State :=
  if q = 0 then s.releaseClass p c
  else
    let was := s.stopped p c
    let x := s.lane p
    let since := if pfc then (if was && x.pfcSince.any (·.1 == c) then x.pfcSince else Store.ins c s.time.ft (Store.drop x.pfcSince c)) else x.pfcSince
    let s := s.setLane p { x with stopEnd := Store.put 0 x.stopEnd c (s.time.ft + s.quantaUnits p q), pfcSince := since, pfcTripped := if was then x.pfcTripped else x.pfcTripped.filter (· != c) }
    s.setPort p R.PRT_PORT_STATUS_stopped_rx (setBit (s.rd R.PRT_PORT_STATUS_stopped_rx (p / 8) (p % 8)) c true)

/-- PAUSE_RX: a received PAUSE frame. -/
def State.pauseRx (s : State) (p q : Nat) : State :=
  if !s.portUp p then s
  else if s.pauseRxEn p then (List.range 8).foldl (fun s c => s.stopClass p c q false) (s.prtCnt p 7)
  else s.prtCnt p 9

/-- PFC_RX: a received PFC frame names classes and gives each its quanta. A class that the port ignores since its
watchdog tripped listens again at quanta 0 (R222). -/
def State.pfcRx (s : State) (p classes : Nat) (quanta : List Nat) : State :=
  if !s.portUp p then s
  else if s.pfcRxEn p then
    (List.range 8).foldl (fun s c =>
      if !bit classes c then s
      else
        let q := (quanta[c]?).getD 0 % 65536
        let x := s.lane p
        if x.pfcIgnore.contains c then
          if q = 0 then (s.setLane p { x with pfcIgnore := x.pfcIgnore.filter (· != c) }).releaseClass p c else s
        else s.stopClass p c q true) (s.prtCnt p 8)
  else s.prtCnt p 9

/-- PAUSE_EXPIRE: a class's time runs out. -/
def State.pauseExpire (s : State) (p c : Nat) : State :=
  if bit (s.rd R.PRT_PORT_STATUS_stopped_rx (p / 8) (p % 8)) c then
    (s.runTo (Store.get 0 (s.lane p).stopEnd c)).releaseClass p c
  else s

/-- PFC_WATCHDOG (R222): PFC has stopped a class without interruption for pfc_wd_ms. -/
def State.pfcWatchdog (s : State) (p c : Nat) : State :=
  let ms := s.rd R.PRT_TS_CFG_pfc_wd_ms (p / 8) (p % 8)
  let x := s.lane p
  match x.pfcSince.find? (·.1 == c) with
  | none => s
  | some (_, t) =>
    let due := max s.time.ft (t + ms * unitsPerMs)
    if ms = 0 || x.pfcTripped.contains c || !s.stopped p c || Store.get 0 x.stopEnd c < due then s
    else
      let s := s.runTo due
      let s := (s.prtCnt p 19).portEvent p 5 (leBytes 1 c)
      if s.portBit p R.PRT_TS_CFG_pfc_wd_drop then
        let s := s.releaseClass p c
        s.setLane p { s.lane p with pfcIgnore := (s.lane p).pfcIgnore ++ [c] }
      else s.setLane p { x with pfcTripped := x.pfcTripped ++ [c] }

/-! ### Reception (R218, R219, R223) -/

/-- Count what the tail of a frame shows. -/
def State.countFcs (s : State) (p : Nat) (f : Fcs) : State :=
  match f with
  | .good => s
  | .wrong => s.prtCnt p 2
  | .stomp => s.prtCnt p 3
  | .pcs => s.prtCnt p 6

/-- A MAC control frame is consumed by the port (R219). -/
def State.macControl (s : State) (p : Nat) (data : List Byte) (f : Fcs) : State :=
  let op := beNat (sliceBytes data 14 2)
  if f ≠ .good then (s.countFcs p f).prtCnt p 9
  else if op = 1 then s.pauseRx p (beNat (sliceBytes data 16 2))
  else if op = 0x0101 then
    s.pfcRx p (beNat (sliceBytes data 16 2)) ((List.range 8).map (fun c => beNat (sliceBytes data (18 + 2 * c) 2)))
  else s.prtCnt p 9

/-- The MAC's checks of a received frame of `data` (without FCS): the frame that goes on, if any. `whole` says that its
tail has arrived; otherwise LENGTH_CORRECT brings what the tail shows. -/
def State.macReceive (s : State) (p : Nat) (data : List Byte) (whole : Bool) (f : Fcs) : State × Option Frame :=
  if !s.portUp p || (s.lane p).rxOpen.isSome then (s, none)
  else if data.length + 4 < 64 then (s.prtCnt p 4, none)
  else if beNat (sliceBytes data 12 2) = 0x8808 then ((s.prtCnt p 0).prtCnt p 1 (data.length + 4) |>.macControl p data f, none)
  else
    let lim := s.maxFrame p - 4
    let long := lim < data.length
    let data := data.take lim
    let s := (s.prtCnt p 0).prtCnt p 1 (data.length + 4)
    let s := if long then s.prtCnt p 5 else if whole then s.countFcs p f else s
    let s := if whole then s else s.setLane p { s.lane p with rxOpen := some long }
    (s, some { data := data, src := p, stamp := s.now64, at_ := s.time.ft, bad := long || (whole && f != .good), whole := whole })

/-- LENGTH_CORRECT: the tail of the frame that port `p` is receiving arrives (R218; 12_traffic_management.md R311). -/
def State.tailArrives (s : State) (p : Nat) (f : Fcs) : State :=
  match (s.lane p).rxOpen with
  | none => s
  | some long =>
    let s := s.setLane p { s.lane p with rxOpen := none }
    let s := if long then s else s.countFcs p f
    s.lengthCorrect p (f != .good)

/-! ### Lane faults (R227, R228) -/

/-- Shut the transmitter of network lane `l`. -/
def State.shutLane (s : State) (l : Nat) (pair : Bool) : State :=
  let s := (s.raise R.PRT_LANE_STATUS_shut (l / 8) (l % 8)).wr R.PRT_LANE_STATUS_state 4 (l / 8) (l % 8)
  s.raise (if pair then R.PRT_LANE_STATUS_short_lane else R.PRT_LANE_STATUS_short_gnd) (l / 8) (l % 8)

/-- The port of a shut lane enters LANE_FAULT; its other lanes idle. -/
def State.laneFault (s : State) (l : Nat) : State :=
  match s.portOfLane l with
  | none => s
  | some p => if s.portState p = 0 ∨ s.portState p = 4 then s
      else ((s.portDown p 2).setPort p R.PRT_PORT_STATUS_state 4).setLanes p 0

/-- A network lane is shorted to ground or to the supply, or to another lane (R227). -/
def State.netLaneShort (s : State) (l : Nat) (other : Option Nat) : State :=
  let s := s.shutLane l other.isSome
  let s := match other with
    | some m => s.shutLane m true
    | none => s
  let s := s.laneFault l
  let s := match other with
    | some m => s.laneFault m
    | none => s
  s.eventBoth 7 (l / 8) 3 (leBytes 1 l ++ leBytes 1 (b2n other.isSome) ++ leBytes 1 (other.getD 0) ++ List.replicate 13 0)

/-- The operator firmware writes 1 to a lane's fault bit (R228): the lane is driven again, and shut again while the
short persists. -/
def State.netLaneRetry (s : State) (l : Nat) (persists : Bool) : State :=
  let g := l / 8
  let k := l % 8
  if !s.laneShut l then s
  else
    let kind := s.on R.PRT_LANE_STATUS_short_lane g k
    let s := ((s.wr R.PRT_LANE_STATUS_short_gnd 0 g k).wr R.PRT_LANE_STATUS_short_lane 0 g k).wr R.PRT_LANE_STATUS_shut 0 g k
    let s := s.wr R.PRT_LANE_STATUS_state 0 g k
    if persists then
      (s.shutLane l kind).eventBoth 7 g 3 (leBytes 1 l ++ leBytes 1 (b2n kind) ++ List.replicate 14 0)
    else match s.portOfLane l with
      | none => s
      | some p => if s.portState p = 4 ∧ (s.lanesOf p).all (fun l => !s.laneShut l) then s.train p else s

/-! ### Commands -/

/-- TM_SELECT: a PFC frame that a port owes goes ahead of every queued data frame (R221). -/
def execTmSelect (d : Fin 73) (s : State) : Out := s.whenMain (fun s => (if d.val < 64 then s.pfcSend d else s).tmSelect d)

def execLengthCorrect (p : Fin 64) (fcs : Fcs) (s : State) : Out := s.whenMain (·.tailArrives p fcs)
def execAnResolved (p : Fin 64) (rate : Nat) (s : State) : Out := s.whenMain (·.anResolved p rate)
def execAnRestart (p : Fin 64) (s : State) : Out := s.whenMain (·.anRestart p)
def execTrainTimeout (p : Fin 64) (s : State) : Out := s.whenMain (·.trainTimeout p)
def execPortUp (p : Fin 64) (inv : Fin 256) (s : State) : Out := s.whenMain (·.portUpEvent p inv)
def execPortFault (p : Fin 64) (remote : Bool) (s : State) : Out := s.whenMain (·.portFault p remote)
def execFaultTimeout (p : Fin 64) (s : State) : Out := s.whenMain (·.faultTimeout p)
def execLossOfSignal (l : Fin 64) (s : State) : Out := s.whenMain (·.lossOfSignal l)
def execGroupReversal (g : Fin 8) (s : State) : Out := s.whenMain (·.groupReversal g)
def execPauseRx (p : Fin 64) (quanta : Fin 65536) (s : State) : Out := s.whenMain (·.pauseRx p quanta)
def execPfcRx (p : Fin 64) (classes : Fin 256) (quanta : List Nat) (s : State) : Out := s.whenMain (·.pfcRx p classes quanta)
def execPauseExpire (p : Fin 64) (c : Fin 8) (s : State) : Out := s.whenMain (·.pauseExpire p c)
def execPfcSend (p : Fin 64) (s : State) : Out := s.whenMain (·.pfcSend p)
def execPfcRefresh (p : Fin 64) (s : State) : Out := s.whenMain (·.pfcRefresh p)
def execPfcWatchdog (p : Fin 64) (c : Fin 8) (s : State) : Out := s.whenMain (·.pfcWatchdog p c)

end Sys2Proof.Machine
end

