-- ==== Sys2Proof/Machine/Deliver.lean ====
section
/-! DEFINITION. Packets between rings and the fabric: SEND and receive rings (07_rings.md R204, R561; 09_parsing.md R252;
11_switch_core.md R300; 06_slices.md R162). -/

namespace Sys2Proof.Machine

/-- Back-pressure holds the injection of source `k` (0 ring engine, 1 RDMA, 2 storage, 3 flow cores) into pipeline `q`
(R295, R300). -/
def State.injHeld (s : State) (q k : Nat) : Bool := s.acctXoff (520 + 4 * q + k)

/-- The next entry of a ring is a SEND into a pipeline that back-pressure holds: it is not started (R300). -/
def State.sendHeld (s : State) (r : Nat) : Bool :=
  match s.ring r with
  | none => false
  | some x => x.type == 0 && s.injHeld (x.target % 8) 0
      && x.eng.copies.any (fun p => p.1 == x.head && dOpcode p.2 == 0x10)

/-- The SEND of a ring that is injected next: the oldest one; on a ring whose completions come in any order, the oldest one
whose payload is not on its way (DEDUCED from R198, log entry 47). -/
def State.nextSend (s : State) (r : Nat) : Option Flight :=
  match s.ring r with
  | some x =>
    if x.anyOrder then x.eng.flight.find? (fun g => !g.performed && !g.staged && g.cpl.isNone && dOpcode g.desc == 0x10
      && !s.reading (.work r g.count) g.slice (fieldLE g.desc 0x10 8) (fieldLE g.desc 0x18 4))
    else s.toPerform r [0x10]
  | none => none

/-- SEND: the frame, read from the ring's memory, enters the pipeline that the ring's context names (R24, R561). -/
def State.sendFrame (s : State) (r : Nat) : State :=
  match s.ring r, s.nextSend r with
  | some x, some g =>
    let len := fieldLE g.desc 0x18 4
    let m := fieldLE g.desc 0x1C 2
    if !sendOk g.desc then s.fail r g.count St.bad_desc
    else match s.readFor (.work r g.count) g.slice x.mem (fieldLE g.desc 0x10 8) len with
      | (.wait, s) => s
      | (.fail st, s) => s.fail r g.count st
      | (.ok data, s) =>
        let f : Frame := { data := data, src := 0x300, slice := g.slice, cls := if bit m 3 then some (m % 8) else none, ts := b2n (bit m 4), user := fieldLE g.desc 0x20 16, send := some (r, s.rng.nextSend) }
        let i := s.rng.nextSend
        let s := (s.performed r g.count).setSend (r, i) (some { ring := r, count := g.count, id := i, copies := 1, len := len })
        let s : State := { s with rng := { s.rng with nextSend := i + 1 } }
        s.toPipe (x.target % 8) f
  | _, _ => s

/-- The receive ring of a queue: the ACTIVE ring of type 1 whose target holds its number, the lowest ID of several. -/
def State.rxRing (s : State) (q : Nat) : Option (Nat × Ring) :=
  s.rng.rings.findSome? (fun p => match p.2 with
    | some x => if x.type = 1 ∧ x.state = 1 ∧ x.target = q then some (p.1, x) else none
    | none => none)

/-- Bytes 0x18-0x29 of a receive completion. -/
def rxDetail (k : Pkt) : List Byte :=
  leBytes 8 k.frame.stamp ++ leBytes 4 k.hash ++ leBytes 2 (k.flags / 4 % 8) ++ leBytes 1 k.ver ++ leBytes 1 k.cls ++ leBytes 2 k.reason

/-- A frame at the head of an internal receiver's queue is finished with: delivered or dropped. -/
def State.consume (s : State) (q : Nat) (delivered : Bool) : State :=
  match s.popQueue q with
  | none => s
  | some (e, s) =>
    let s := match s.stored e.id, e.mirror with
      | some f, false => s.copyDone f.pkt.frame delivered
      | _, _ => s
    (s.lessCopy e.id e.mirror).acctClock

/-- The frame at the head of an output queue, once it is wholly in the buffer. -/
def State.headFull (s : State) (q : Nat) : Option Pkt :=
  match s.queue q with
  | [] => none
  | e :: _ => match s.stored e.id with
    | some f => if f.full then some f.pkt else none
    | none => none

/-- RX_DELIVER: receive queue `n` gives its first frame to the next posted buffer. -/
def State.rxDeliver (s : State) (n : Nat) : State :=
  let q := 592 + n
  match s.headFull q with
  | none => s
  | some k => match s.rxRing n with
    | none => (s.pcnt k.pipe 12).consume q false
    | some (r, x) =>
      if k.slice ≠ x.slice then (s.sat R.SLC_DISCARD_mismatch 1 x.slice).consume q false
      else match x.firstPosted 0x11 with
        | none => s
        | some g =>
          let n := k.frame.data.length
          let max := fieldLE g.desc 0x18 4
          match s.writeFor g.slice x.mem (fieldLE g.desc 0x10 8) (k.frame.data.take max) k.frame.poison with
          | (.wait, s) => s
          | (.fail st, s) => (s.fail r g.count st).consume q false
          | (.ok _, s) =>
            let st := if k.frame.bad then St.bad_frame else if k.frame.poison then St.mem_uncorr else if max < n then St.rx_trunc else 0
            (s.finish r g.count { status := st, bytes := n, x12 := leBytes 2 k.frame.src, x18 := rxDetail k }).consume q true

def execSend (r : Fin 65536) (s : State) : Out := s.whenMain (·.sendFrame r)
def execRxDeliver (n : Fin 4096) (s : State) : Out := s.whenMain (·.rxDeliver n)

end Sys2Proof.Machine
end

