-- ==== Sys2Proof/Machine/Link.lean ====
section
/-! DEFINITION. The link layer of Wilotte links 0-7 and of the pair sublinks 8 and 9: flits, sequence numbers and replay,
credits, training and link states (15_wilotte_link.md R384-R405; 22_redundant_pair.md R532, R533). -/

namespace Sys2Proof.Machine

/-! ### Flits (R387-R389) -/

/-- One byte of the check value's shift register. -/
def crcByte (c b : Nat) : Nat :=
  let step := fun (c : Nat) (_ : Nat) => let x := c * 2 % 2 ^ 64; if c < 2 ^ 63 then x else x ^^^ 0x1B
  (List.range 8).foldl step (c ^^^ (b * 2 ^ 56))

/-- Bytes through the check value's shift register. The match on the register's value only makes Lean's kernel compute it
byte by byte. -/
def crcOver : List Byte → Nat → Nat
  | [], c => c
  | b :: bs, c => match c with
    | 0 => crcOver bs (crcByte 0 b.toNat)
    | n + 1 => crcOver bs (crcByte (n + 1) b.toNat)

/-- The check value of the first 248 bytes of a flit: bytes 0xF7 down to 0x00 through the register, then inverted. -/
def flitCheck (bs : List Byte) : Nat := 2 ^ 64 - 1 - crcOver (bs.take 248).reverse 0

/-- The fields of a flit (table Flit header). -/
structure Flit where
  type : Nat
  vc : Nat := 0
  bad : Bool := false
  units : Nat := 0
  seq : Nat := 0
  ack : Nat := 0xFFF
  crVc : Nat := 0
  cr : Nat := 0
  payload : List Byte := []

/-- The 256 bytes of a flit. -/
def Flit.bytes (f : Flit) : List Byte :=
  let h := f.type + f.vc * 2 ^ 4 + b2n f.bad * 2 ^ 6 + f.units * 2 ^ 8 + f.seq * 2 ^ 12 + f.ack * 2 ^ 24 + f.crVc * 2 ^ 36 + f.cr * 2 ^ 38
  let b := leBytes 8 h ++ (f.payload ++ List.replicate 240 0).take 240
  b ++ leBytes 8 (flitCheck b)

/-- The flit passes its check: 256 bytes with the right check value, in a codeword that could be corrected. -/
def flitGood (bs : List Byte) (fecOk : Bool) : Bool := fecOk && bs.length == 256 && fieldLE bs 0xF8 8 == flitCheck bs

/-- The fields of 256 received bytes. -/
def flitOf (bs : List Byte) : Flit :=
  let h := fieldLE bs 0 8
  { type := bits h 3 0, vc := bits h 5 4, bad := bit h 6, units := bits h 11 8, seq := bits h 23 12, ack := bits h 35 24
    crVc := bits h 37 36, cr := bits h 49 38, payload := sliceBytes bs 8 240 }

/-- The header breaks a rule of its table (R389). -/
def flitIllegal (bs : List Byte) : Bool :=
  let h := fieldLE bs 0 8
  let f := flitOf bs
  bits h 63 50 != 0 || bit h 7 || (if f.type = 1 then f.units == 0 else f.units != 0 || f.bad || f.vc != 0 || (f.type != 3 && f.seq != 0))

/-- `a` is before `b` in 12-bit serial arithmetic. -/
def before12 (a b : Nat) : Bool := let d := (b + 4096 - a % 4096) % 4096; 0 < d && d < 2048

/-! ### Link registers and states -/

/-- Count in a Wilotte link's counters; a pair sublink has none. -/
def State.lcnt (s : State) (n c : Nat) (k : Nat := 1) : State := if n < 8 then s.addTo R.WLK_CNT_count k n c else s

def State.modLink (s : State) (n : Nat) (f : Link → Link) : State := s.setLink n (f (s.link n))

/-- Set the state of a link, as of now; WLK_STATUS or PAR_STATUS shows it. -/
def State.setLinkState (s : State) (n st : Nat) : State :=
  let s := s.modLink n (fun l => { l with state := st, since := s.time.ft })
  if n < 8 then s.wr R.WLK_STATUS_state st n
  else
    let v := s.rd R.PAR_STATUS_sub_state
    let lo := if n = 8 then 0 else 4
    s.wr R.PAR_STATUS_sub_state (v - bits v (lo + 2) lo * 2 ^ lo + st * 2 ^ lo)

/-- A lane register of a link: Wilotte lane registers by link and lane, pair lanes 0-15. -/
def State.llane (s : State) (n : Nat) (w p : Fld) (l : Nat) : Nat := if n < 8 then s.rd w n l else s.rd p (8 * (n - 8) + l)

def State.setLlane (s : State) (n : Nat) (w p : Fld) (l v : Nat) : State := if n < 8 then s.wr w v n l else s.wr p v (8 * (n - 8) + l)

def State.linkShut (s : State) (n l : Nat) : Bool := s.llane n R.WLK_LANE_STATUS_shut R.PAR_LANE_STATUS_shut l == 1

def State.anyShut (s : State) (n : Nat) : Bool := (List.range 8).any (s.linkShut n)

def State.setLaneStates (s : State) (n st : Nat) : State :=
  (List.range 8).foldl (fun s l => if s.linkShut n l then s else s.setLlane n R.WLK_LANE_STATUS_state R.PAR_LANE_STATUS_state l st) s

/-- Replay timeout in ns and the largest number of replays without progress; the pair link has no registers for them
and uses the reset values of a Wilotte link. -/
def State.replayNs (s : State) (n : Nat) : Nat := if n < 8 then s.ac R.WLK_CFG_replay_ns n else 0x7D0
def State.replayMax (s : State) (n : Nat) : Nat := if n < 8 then s.ac R.WLK_CFG_replay_max n else 4

/-- The module's supply is on: ON or QUIESCING (16_tenant_sockets.md, table Power states). -/
def State.modPowered (s : State) (n : Nat) : Bool := let p := s.rd R.TSK_STATUS_pwr n; p == 3 || p == 4

/-- The link may leave DISABLED. -/
def State.linkEnabled (s : State) (n : Nat) : Bool :=
  s.cuffOpen && (if n < 8 then s.ac R.WLK_CFG_enable n == 1 && s.modPowered n && !s.fencedUnit 3 n else s.ac R.PAR_CFG_enable == 1)

/-- DISABLED to DETECT. -/
def State.linkStart (s : State) (n : Nat) : State :=
  if (s.link n).state = 0 ∧ s.linkEnabled n then s.setLinkState n 1 else s

/-- Event of a link: WLK_ events carry the socket in byte 0. -/
def State.linkEvent (s : State) (n code : Nat) (d : List Byte) : State :=
  if n < 8 then s.event 0xD n code ((leBytes 1 n ++ d ++ List.replicate 15 0).take 16) else s

/-! ### Link down (R402-R404) -/

/-- The socket's destination is absent: the frame in hand is lost and the frames queued are discarded (R292). -/
def State.dropDest (s : State) (d : Nat) : State :=
  let s := match s.outOf d with
    | some o => s.outDone o false
    | none => s
  (List.range 8).foldl (fun s c => s.flushQueue (tmQueue d c)) s

/-- Transactions partly received end and are marked bad. -/
def Link.endPart (l : Link) : Link :=
  { l with rxq := l.rxq ++ l.part.map (fun p => (p.1 / 4, { p.2 with bad := true })), part := [] }

/-- A down cause ends an ACTIVE link (R404); in DOWN it is only counted; cause 7 disables a link that is not up. -/
def State.linkDown (s : State) (n cause : Nat) : State :=
  let l := s.link n
  if l.state = 5 then s.lcnt n 14
  else if l.state ≠ 4 then (if cause = 7 ∧ l.state ≠ 0 then (s.setLinkState n 0).setLaneStates n 0 else s)
  else
    let un := l.held.length
    let mirrors := (l.txq.filter (·.vc == 1)).length + (l.held.filter (·.vc == 1)).foldl (fun a h => a + h.units) 0 / 2
    let s := if 8 ≤ n ∧ mirrors ≠ 0 then (s.addTo R.PAR_CNT_count mirrors 4).raise R.PAR_STATUS_resync else s
    let l := l.endPart
    let mine := l.txq.filterMap (·.frame)
    let copies := l.txq.filterMap (·.done)
    let l := { l with held := [], replay := none, consumed := [], partner := [], returned := [], rxUsed := [], withheld := 0, offer := [], txq := [], cause := cause }
    let s := (s.setLink n l).setLinkState n 5
    let s := (s.lcnt n 14).setLaneStates n 1
    let s := if n < 8 then s.wr R.WLK_STATUS_down_cause cause n else s
    let s := mine.foldl (fun s d => match s.outOf d with | some o => s.outDone o false | none => s) s
    let s := if n < 8 then s.dropDest (64 + n) else s
    let s := copies.foldl (fun s p => s.finish p.1 p.2 { status := if cause = 7 then St.tsk_absent else St.tsk_link_down }) s
    let s := s.linkEvent n 2 (leBytes 1 cause ++ leBytes 2 0 ++ leBytes 2 un)
    { s with due := s.due ++ [.linkLost n cause] }

/-- A protocol error (R389, R398). -/
def State.linkProtocol (s : State) (n : Nat) : State := (s.lcnt n 15).linkDown n 5

/-- DOWN_END: DOWN flits have been sent for 1 µs. After cause 7, or with its module
unpowered, it is DISABLED; a link that is enabled again trains afresh (R405). -/
def State.downEnd (s : State) (n : Nat) : State :=
  let l := s.link n
  if l.state = 5 then
    let s := s.runTo (l.since + unitsPerUs)
    if l.cause = 7 || !s.linkEnabled n then ((s.setLinkState n 0).setLaneStates n 0).linkStart n else s.setLinkState n 1
  else s

/-! ### Training (R400, R401, R533) -/

/-- LINK_SIGNAL_DETECT: signal on all eight lanes and no lane shut. -/
def State.linkSignal (s : State) (n : Nat) : State :=
  if (s.link n).state = 1 ∧ s.anyShut n = false then
    let s := (List.range 8).foldl (fun s l => s.setLlane n R.WLK_LANE_STATUS_los R.PAR_LANE_STATUS_los l 0) s
    (s.setLinkState n 2).setLaneStates n 1
  else s

/-- LINK_LOCK: FEC, alignment-marker and flit-boundary lock on all lanes; `inv` are the lanes whose polarity was
corrected (R386). -/
def State.linkLock (s : State) (n inv : Nat) : State :=
  if (s.link n).state = 2 then
    let s := (s.modLink n (fun l => { l with seen := false, seenSent := 0, seenRx := 0, refusedEv := false })).setLinkState n 3
    if n < 8 then ((s.wr R.WLK_STATUS_version_mismatch 0 n).wr R.WLK_STATUS_credit_low 0 n).wr R.WLK_STATUS_rx_inverted inv n
    else s.wr R.PAR_STATUS_id_mismatch 0
  else s

/-- LOCK_TIMEOUT and CONFIG_TIMEOUT return the link to DETECT. -/
def State.linkTimeout (s : State) (n st ms : Nat) : State :=
  let l := s.link n
  if l.state = st then ((s.runTo (l.since + ms * unitsPerMs)).lcnt n 13).setLinkState n 1 else s

/-- A sublink has become ACTIVE: a member without a partner joins (22_redundant_pair.md, table Pair states). -/
def State.pairJoin (s : State) : State :=
  let st := s.rd R.PAR_STATUS_state
  if st = 0 ∨ st = 3 then
    ({ s with pair := { s.pair with row := 0, lastSeq := none, wasLost := st == 3, lastHb := s.time.ft } } : State).wr R.PAR_STATUS_state 1
  else s

/-- The handshake is complete on this side: the link is ACTIVE with everything afresh. -/
def State.linkActive (s : State) (n : Nat) : State :=
  let l := s.link n
  if l.state = 3 ∧ 16 ≤ l.seenSent ∧ 8 ≤ l.seenRx then
    let f : Link := { offer := l.offer, rxq := l.rxq, rxNext := l.rxNext }
    let s := (((s.setLink n f).setLinkState n 4).setLaneStates n 2)
    if n < 8 then s.linkEvent n 1 (leBytes 7 0 ++ leBytes 8 (s.rd R.WLK_PARTNER_ID_id n)) else s.pairJoin
  else s

/-- The partner's TRAIN payload. -/
def trainOffers (p : List Byte) : List Nat := (List.range 4).map (fun v => fieldLE p (0x10 + 2 * v) 2)

/-- Offers within the ranges of table Virtual channels. -/
def offersOk (o : List Nat) : Bool :=
  let a := fun i => (o[i]?).getD 0
  38 ≤ a 0 && a 0 ≤ 2048 && [1, 2, 3].all (fun i => 32 ≤ a i && a i ≤ 2048)

/-- TRAIN_RX in CONFIG. -/
def State.trainRx (s : State) (n : Nat) (bs : List Byte) (fecOk : Bool) : State :=
  let l := s.link n
  let f := flitOf bs
  if l.state ≠ 3 then s
  else if !flitGood bs fecOk then (s.lcnt n 2).modLink n (fun l => { l with seenRx := 0 })
  else if f.type ≠ 4 then s
  else
    let s := s.lcnt n 1
    let ver := fieldLE f.payload 0 2
    let role := fieldLE f.payload 2 1
    let seen := bit (fieldLE f.payload 3 1) 0
    let id := fieldLE f.payload 8 8
    let o := trainOffers f.payload
    let badVer := ver != 1
    let badCr := !offersOk o
    let want := s.ac R.PAR_CFG_partner_serial
    let badId := 8 ≤ n && want != 0 && id % 2 ^ 32 != want
    let valid := !badVer && !badCr && !badId && role == (if n < 8 then 1 else 2)
    if valid then
      let s := s.modLink n (fun l => { l with seen := true, seenRx := if seen then l.seenRx + 1 else 0, offer := (o.zipIdx.map (fun p => (p.2, p.1))).filter (fun p => p.2 != 0) })
      let s := if n < 8 then
          (((((s.wr R.WLK_PARTNER_ID_id id n).wr R.WLK_PARTNER_CR_vc0 (o.getD 0 0) n).wr R.WLK_PARTNER_CR_vc1 (o.getD 1 0) n).wr R.WLK_PARTNER_CR_vc2 (o.getD 2 0) n).wr R.WLK_PARTNER_CR_vc3 (o.getD 3 0) n)
        else s.wr R.PAR_PARTNER_serial id
      s.linkActive n
    else
      let s := s.modLink n (fun l => { l with seenRx := 0 })
      if n < 8 then
        if badVer || badCr then
          let s := if badVer then s.raise R.WLK_STATUS_version_mismatch n else s
          let s := if badCr then s.raise R.WLK_STATUS_credit_low n else s
          if l.refusedEv then s
          else (s.modLink n (fun l => { l with refusedEv := true })).linkEvent n 4 (leBytes 1 (b2n badVer + 2 * b2n badCr) ++ leBytes 2 ver)
        else s
      else if badId then
        let s := s.raise R.PAR_STATUS_id_mismatch
        if l.refusedEv then s
        else (s.modLink n (fun l => { l with refusedEv := true })).event 0x15 0 6 (leBytes 8 0 ++ leBytes 8 id)
      else s

/-! ### Transmission (R390-R394, R396) -/

/-- Units of a transaction in all. -/
def Txn.total (t : Txn) : Nat := t.data.length / 16

/-- Credits that a transaction needs (table Virtual channels). -/
def Txn.need (t : Txn) : Nat := if t.vc = 0 then cellsOf (fieldLE t.data 2 2) else t.total

/-- The tail of the frame that a PKT carries is in the buffer. -/
def State.txnWhole (s : State) (t : Txn) : Bool :=
  match t.frame with
  | none => true
  | some d => match s.outOf d with
    | some o => (s.stored o.id).elim true (·.full)
    | none => true

/-- The frame that a PKT carries has turned bad (R399). -/
def State.txnBad (s : State) (t : Txn) : Bool :=
  t.bad || (match t.frame with
    | none => false
    | some d => match s.outOf d with
      | some o => (s.stored o.id).elim false (fun f => f.pkt.frame.bad || f.pkt.frame.poison)
      | none => false)

/-- Units of a transaction that can be sent now: the last one waits for the frame's tail. -/
def State.txnReady (s : State) (t : Txn) : Nat := (if s.txnWhole t then t.total else t.total - 1) - t.sent

/-- A transaction may be started or goes on (R396); one of unknown length counts as 38 credits. -/
def State.txnStart (s : State) (l : Link) (t : Txn) : Bool :=
  0 < t.sent || (if s.txnWhole t then t.need else 38) ≤ l.credits t.vc

/-- A flit being filled with units of one channel. -/
structure Fill where
  link : Link
  payload : List Byte := []
  bad : Bool := false
  sync : Option Nat := none
  ended : List Txn := []

/-- Fill a flit of channel `v`: units of its transactions in order, at most 15, none after a bad end. -/
def State.fill (s : State) (v : Nat) : Nat → Fill → Fill
  | 0, x => x
  | fuel + 1, x =>
    let room := 15 - x.payload.length / 16
    match x.link.txq.find? (·.vc == v) with
    | none => x
    | some t =>
      let m := min room (s.txnReady t)
      if m = 0 || x.bad || !s.txnStart x.link t then x
      else
        let l := if t.sent = 0 then { x.link with consumed := Store.put 0 x.link.consumed v ((Store.get 0 x.link.consumed v + t.need) % 4096) } else x.link
        let out := sliceBytes t.data (16 * t.sent) (16 * m)
        let t' := { t with sent := t.sent + m }
        if t'.sent = t.total then
          s.fill v fuel { x with link := { l with txq := l.txq.erase t }, payload := x.payload ++ out, bad := s.txnBad t, sync := x.sync <|> t.sync, ended := x.ended ++ [t'] }
        else
          { x with link := { l with txq := l.txq.map (fun y => if y = t then t' else y) }, payload := x.payload ++ out }

/-- Channels that have something to send now. -/
def State.readyVcs (s : State) (l : Link) : List Nat :=
  if 1024 ≤ l.held.length then []
  else [0, 1, 2, 3].filter (fun v => match l.txq.find? (·.vc == v) with
    | some t => s.txnReady t != 0 && s.txnStart l t
    | none => false)

/-- A transaction's first units wait for credits. -/
def State.creditStall (s : State) (l : Link) : Bool :=
  [0, 1, 2, 3].any (fun v => match l.txq.find? (·.vc == v) with
    | some t => !s.txnStart l t
    | none => false)

/-- A transaction's last unit has been sent. -/
def State.txnSent (s : State) (n : Nat) (t : Txn) : State :=
  let s := match t.frame with
    | none => s
    | some d => match s.outOf d with
      | some o => (if n < 8 then s.bump R.TSK_CNT_count n 1 else s.bump R.PAR_CNT_count 0).outDone o true
      | none => s
  let s := if n < 8 ∧ fieldLE t.data 0 1 = 0x30 then
      let k := Store.get ({} : Sock) s.socks n
      { s with socks := Store.put {} s.socks n { k with modRd := k.modRd.erase (fieldLE t.data 4 2) } }
    else s
  match t.done with
  | some (r, c) => match s.flight r c with
    | some g => s.finish r c { status := 0, bytes := fieldLE g.desc 0x20 4 }
    | none => s
  | none => s

/-- Put a flit on the wire; each flit reports the next channel's credits (R390). -/
def State.sendFlit (s : State) (n : Nat) (f : Flit) : State :=
  let l := s.link n
  let live := l.state = 4
  let f := if live then { f with ack := (l.expect + 4095) % 4096, crVc := l.crVc, cr := Store.get 0 l.returned l.crVc % 4096 } else f
  let s := s.modLink n (fun l => { l with crVc := if live then (l.crVc + 1) % 4 else l.crVc })
  { s with wire := s.wire ++ [Wire.flit n f.bytes s.time.ft] }.lcnt n 0

/-- The device's TRAIN payload. -/
def State.trainPayload (s : State) (n : Nat) : List Byte :=
  let l := s.link n
  leBytes 2 1 ++ leBytes 1 (if n < 8 then 0 else 2) ++ leBytes 1 (b2n l.seen) ++ leBytes 1 (if n < 8 then n else n - 8) ++ leBytes 3 0
    ++ leBytes 8 (s.rd R.GLB_SERIAL_serial) ++ leBytes 2 1024 ++ leBytes 2 1024 ++ leBytes 2 512 ++ leBytes 2 1024

/-- Start a replay from number `q` (R393, R394): one that would take the count above replay_max is not made and the link
goes down with cause 3. -/
def State.startReplay (s : State) (n q : Nat) : State :=
  let l := s.link n
  if s.replayMax n ≤ l.replays then s.linkDown n 3
  else (s.setLink n { l with replay := some q, replays := l.replays + 1 }).lcnt n 8

/-- The back-pressured account of a link's channel 0: the socket's, or the transit account of the pair (R397, R542). -/
def State.linkAcct (s : State) (n : Nat) : Nat := if n < 8 then 512 + n else 520 + 4 * s.ac R.PAR_CFG_rx_pipe

/-- Returns of channel 0 that were withheld are reported once `xoff` has cleared (R397). -/
def State.releaseCredits (s : State) (n : Nat) : State :=
  let l := s.link n
  if l.withheld ≠ 0 ∧ s.acctXoff (s.linkAcct n) = false then
    s.setLink n { l with withheld := 0, returned := Store.put 0 l.returned 0 ((Store.get 0 l.returned 0 + l.withheld) % 4096) }
  else s

/-- A flit of an ACTIVE link: a NAK that is due, then the replay, then new DATA, otherwise CTRL. -/
def State.activeFlit (s : State) (n : Nat) : State :=
  let s := s.releaseCredits n
  let l := s.link n
  let s := if s.creditStall l then s.lcnt n 12 else s
  if l.nakDue then ((s.setLink n { l with nakDue := false }).lcnt n 5).sendFlit n { type := 3, seq := l.expect }
  else
    match l.replay.bind (fun q => l.held.find? (·.seq == q)) with
    | some h =>
      let nx := (h.seq + 1) % 4096
      let held := l.held.map (fun x => if x.seq = h.seq then { x with resent := true, at_ := s.time.ft } else x)
      let s := s.setLink n { l with held := held, replay := if l.held.any (·.seq == nx) then some nx else none }
      (s.lcnt n 9).sendFlit n { type := 1, vc := h.vc, bad := h.bad, units := h.units, seq := h.seq, payload := h.payload }
    | none =>
      let l := { l with replay := none }
      match s.readyVcs l with
      | [] => (s.setLink n l).sendFlit n { type := 2 }
      | v0 :: vs =>
        let (k, s) := if vs.isEmpty || (8 ≤ n && vs.contains 3) then (0, s) else s.draw
        let all := v0 :: vs
        let v := if 8 ≤ n && vs.contains 3 then 3 else if vs.isEmpty then v0 else all.getD (Config.vcPick k % all.length) v0
        let x := s.fill v 15 { link := l }
        let h : SentFlit := { seq := l.txNext, vc := v, units := x.payload.length / 16, bad := x.bad, payload := x.payload, sync := x.sync, at_ := s.time.ft }
        let s := s.setLink n { x.link with held := x.link.held ++ [h], txNext := (l.txNext + 1) % 4096 }
        let s := s.sendFlit n { type := 1, vc := v, bad := x.bad, units := h.units, seq := h.seq, payload := h.payload }
        x.ended.foldl (fun s t => s.txnSent n t) s

/-- FLIT_TRANSMIT: one flit time of a link's transmitter. -/
def State.flitTransmit (s : State) (n : Nat) : State :=
  match (s.link n).state with
  | 0 => s
  | 3 =>
    let s := s.sendFlit n { type := 4, payload := s.trainPayload n }
    (s.modLink n (fun l => if l.seen then { l with seenSent := l.seenSent + 1 } else l)).linkActive n
  | 4 => s.activeFlit n
  | 5 => s.sendFlit n { type := 5, payload := leBytes 1 (s.link n).cause }
  | _ => s.sendFlit n { type := 2 }

/-! ### Reception (R389, R392, R393, R395-R398) -/

/-- Units of a transaction by its header (16_tenant_sockets.md, table Transaction types; 22_redundant_pair.md, table Pair
transactions); one of a reserved type ends with its header. -/
def headUnits (pair : Bool) (h : List Byte) : Nat :=
  let t := fieldLE h 0 1
  let len := fieldLE h 2 2
  if t = 0x01 then txnUnits len
  else if pair then (if t = 0x41 then 2 else 1)
  else if t = 0x10 ∨ t = 0x30 then txnUnits len
  else if t = 0x13 ∨ t = 0x33 ∨ t = 0x35 then 2
  else 1

/-- The ack of a flit frees the DATA flits it covers (R391, R394); an FT_SYNC among them makes its FT_FOLLOW due. -/
def State.takeAck (s : State) (n a : Nat) : State :=
  let l := s.link n
  if l.held.any (·.seq == a) then
    let gone := l.held.filter (fun h => !before12 a h.seq)
    let keep := l.held.filter (fun h => before12 a h.seq)
    let rp := match l.replay with
      | some q => if before12 a q then some q else keep.head?.map (·.seq)
      | none => none
    let s := s.setLink n { l with held := keep, acked := a, replays := 0, replay := rp }
    match gone.find? (·.sync.isSome) with
    | some h =>
      let k := Store.get ({} : Sock) s.socks n
      if n < 8 then { s with socks := Store.put {} s.socks n { k with syncDue := h.sync.map (fun i => (i, h.at_, h.resent)) } } else s
    | none => s
  else s

/-- The acknowledgement and the credit count of a flit that passes its check. -/
def State.takeHeader (s : State) (n : Nat) (f : Flit) : State :=
  (s.modLink n (fun l => { l with partner := Store.put 0 l.partner f.crVc f.cr })).takeAck n f.ack

/-- The receiver asks for a replay, at most once for each expected number (R392). -/
def State.wantNak (s : State) (n : Nat) : State :=
  s.modLink n (fun l => if l.nakSent then l else { l with nakSent := true, nakDue := true })

/-- The device's offer for a channel. -/
def localOffer (v : Nat) : Nat := if v = 2 then 512 else 1024

/-- Take the next units of channel `v` into its stream: none when they go beyond the credits offered (R398). `bad` marks
the last transaction that ends. The key of a partly received transaction is 4 × its order number + channel. -/
def takeUnits (pair : Bool) (v : Nat) (bad : Bool) : Nat → List Byte → Link → Option Link
  | 0, _, l => some l
  | fuel + 1, bs, l =>
    if bs.isEmpty then
      some l
    else
      let cur := l.part.find? (fun p => p.1 % 4 == v)
      let (key, t) := cur.getD (4 * l.rxNext + v, { vc := v, data := [] })
      let l := if cur.isNone then { l with rxNext := l.rxNext + 1 } else l
      let head := if t.data.isEmpty then bs.take 16 else t.data.take 16
      let total := 16 * headUnits pair head
      let need := if v = 0 then cellsOf (fieldLE head 2 2) else total / 16
      let used := Store.get 0 l.rxUsed v
      if cur.isNone ∧ localOffer v < used + need then none
      else
        let l := if cur.isNone then { l with rxUsed := Store.put 0 l.rxUsed v (used + need) } else l
        let m := min bs.length (total - t.data.length)
        let t := { t with data := t.data ++ bs.take m }
        let rest := bs.drop m
        let part := l.part.filter (fun p => p.1 % 4 != v)
        if t.data.length = total then
          takeUnits pair v bad fuel rest { l with part := part, rxq := l.rxq ++ [(key / 4, { t with bad := bad && rest.isEmpty })] }
        else takeUnits pair v bad fuel rest { l with part := part ++ [(key, t)] }

/-- A flit that fails its check, or lies in an uncorrectable codeword: discarded, and in ACTIVE taken as a lost DATA flit
(R389, R392). More than 16 uncorrectable codewords within 1 ms take the link down (R402). -/
def State.flitLost (s : State) (n : Nat) (fecOk : Bool) : State :=
  let s := s.lcnt n 2
  let s := if fecOk then s else
    let l := s.link n
    let recent := (l.fecBad ++ [s.time.ft]).filter (fun t => s.time.ft < t + unitsPerMs)
    (s.setLink n { l with fecBad := recent }).lcnt n 4
  if (s.link n).state ≠ 4 then s
  else if 16 < (s.link n).fecBad.length then s.linkDown n 2
  else s.wantNak n

/-- A flit received by an ACTIVE link. -/
def State.flitRx (s : State) (n : Nat) (bs : List Byte) (fecOk : Bool) (act : State → Flit → State) : State :=
  let st := (s.link n).state
  if st ≠ 4 ∧ st ≠ 3 then s
  else
    let s := s.lcnt n 1
    if !flitGood bs fecOk then s.flitLost n fecOk
    else if st ≠ 4 then s
    else
      let f := flitOf bs
      if f.type = 0 ∨ 6 ≤ f.type then s.lcnt n 11
      else if flitIllegal bs then s.linkProtocol n
      else if f.type = 4 then s
      else act (s.takeHeader n f) f

/-- DATA_FLIT_RX (R392). -/
def State.dataFlit (s : State) (n : Nat) (f : Flit) : State :=
  let l := s.link n
  if f.seq = l.expect then
    match takeUnits (8 ≤ n) f.vc f.bad 16 (f.payload.take (16 * f.units)) l with
    | none => s.linkProtocol n
    | some x =>
      let rxq := x.rxq.map (fun e => if l.rxq.any (·.1 == e.1) then e else (e.1, { e.2 with at_ := s.time.ft }))
      s.setLink n { x with expect := (l.expect + 1) % 4096, nakSent := false, nakDue := false, rxq := rxq }
  else if before12 f.seq l.expect then s.lcnt n 7
  else (s.lcnt n 7).wantNak n

/-- NAK_RX (R393). -/
def State.nakRx (s : State) (n : Nat) (f : Flit) : State :=
  let s := s.lcnt n 6
  let l := s.link n
  if !l.held.any (·.seq == f.seq) then s.lcnt n 10
  else match l.replay with
    | none => s.startReplay n f.seq
    | some q => if before12 f.seq q then s.startReplay n f.seq else s

/-- REPLAY_TIMEOUT (R394): the oldest unacknowledged DATA flit has waited replay_ns since it was last sent. -/
def State.replayTimeout (s : State) (n : Nat) : State :=
  let l := s.link n
  match l.held with
  | [] => s
  | h :: _ => if l.state = 4 then (s.runTo (h.at_ + s.replayNs n * unitsPerNs)).startReplay n h.seq else s

/-- A transaction leaves the receive buffer: its credits return, those of channel 0 only while the account of the link
holds no `xoff` (R397). -/
def State.leaveRx (s : State) (n : Nat) (e : Nat × Txn) : State :=
  let l := s.link n
  let v := e.2.vc
  let k := if v = 0 then cellsOf (fieldLE e.2.data 2 2) else headUnits (8 ≤ n) (e.2.data.take 16)
  let l := { l with rxq := l.rxq.erase e, rxUsed := Store.put 0 l.rxUsed v (Store.get 0 l.rxUsed v - k) }
  if l.state ≠ 4 then s.setLink n l
  else if v = 0 ∧ s.acctXoff (s.linkAcct n) then s.setLink n { l with withheld := l.withheld + k }
  else s.setLink n { l with returned := Store.put 0 l.returned v ((Store.get 0 l.returned v + k) % 4096) }

/-- Queue a transaction for transmission. -/
def State.sendTxn (s : State) (n : Nat) (t : Txn) : State :=
  if (s.link n).state = 4 then s.modLink n (fun l => { l with txq := l.txq ++ [t] }) else s

/-! ### Lane faults (R403) -/

/-- A lane of a link is shorted: its transmitter is shut, and the link goes down with cause 6. -/
def State.linkLaneShort (s : State) (n l : Nat) (other : Option Nat) (evented : Bool := true) : State :=
  let shut := fun (s : State) (l : Nat) (pair : Bool) =>
    let s := (s.setLlane n R.WLK_LANE_STATUS_shut R.PAR_LANE_STATUS_shut l 1).setLlane n R.WLK_LANE_STATUS_state R.PAR_LANE_STATUS_state l 4
    if pair then s.setLlane n R.WLK_LANE_STATUS_short_lane R.PAR_LANE_STATUS_short_lane l 1
    else s.setLlane n R.WLK_LANE_STATUS_short_gnd R.PAR_LANE_STATUS_short_gnd l 1
  let s := shut s l other.isSome
  let s := match other with
    | some m => shut s m true
    | none => s
  let s := s.linkDown n 6
  let o := if n = 9 then 8 else 0
  let d := leBytes 1 (o + l) ++ leBytes 1 (b2n other.isSome) ++ leBytes 1 (other.elim 0 (· + o)) ++ List.replicate 13 0
  if !evented then s else if n < 8 then s.eventBoth 0xD n 3 d else s.event 0x15 0 5 d

/-- A write of 1 to a link lane's fault bit (R228, R403). -/
def State.linkLaneRetry (s : State) (n l : Nat) (persists : Bool) : State :=
  if !s.linkShut n l then s
  else
    let kind := s.llane n R.WLK_LANE_STATUS_short_lane R.PAR_LANE_STATUS_short_lane l == 1
    let s := (s.setLlane n R.WLK_LANE_STATUS_shut R.PAR_LANE_STATUS_shut l 0).setLlane n R.WLK_LANE_STATUS_state R.PAR_LANE_STATUS_state l 0
    let s := (s.setLlane n R.WLK_LANE_STATUS_short_gnd R.PAR_LANE_STATUS_short_gnd l 0).setLlane n R.WLK_LANE_STATUS_short_lane R.PAR_LANE_STATUS_short_lane l 0
    if persists then s.linkLaneShort n l (if kind then some l else none) else s

end Sys2Proof.Machine
end

