-- ==== Sys2Proof/Machine/SockOps.lean ====
section
/-! DEFINITION. Tenant sockets, the device's side: reaching a module (16_tenant_sockets.md R407-R416, R429, R431; 22_redundant_pair.md R544):
the windows of the active copy, writes and reads that the device sends, and what ends a read. -/

namespace Sys2Proof.Machine

def tskBase (n : Nat) : Nat := 0x2D00000 + 0x20000 * n

def State.sock (s : State) (n : Nat) : Sock := Store.get {} s.socks n

def State.setSock (s : State) (n : Nat) (k : Sock) : State := { s with socks := Store.put {} s.socks n k }

def State.modSock (s : State) (n : Nat) (f : Sock → Sock) : State := s.setSock n (f (s.sock n))

def State.tskCnt (s : State) (n c : Nat) : State := s.bump R.TSK_CNT_count n c

def State.sockPwr (s : State) (n : Nat) : Nat := s.rd R.TSK_STATUS_pwr n

/-- A secondary's dual socket: the partner serves its module (R544). -/
def State.standby (s : State) (n : Nat) : Bool := bit (s.ac R.PAR_CFG_dual) n && s.rd R.PAR_STATUS_role == 1

/-- Why the device does not reach the module of socket `n`; 0: it does (R429, R431, R544). A module that is absent,
unpowered or quiescing comes first. -/
def State.modStatus (s : State) (n : Nat) : Nat :=
  if s.sockPwr n ≠ 3 ∨ s.fencedUnit 3 n then St.tsk_absent
  else if s.standby n then St.pair_standby
  else if (s.link n).state ≠ 4 then St.tsk_link_down
  else 0

/-- The socket bound to a slice. -/
def State.sliceSock (s : State) (x : Nat) : Option Nat := if s.on R.SLC_BIND_sock_en x then some (s.rd R.SLC_BIND_socket x) else none

/-- Event 0x0007: the first refusal for want of a window in each second; side 0 host, 1 socket (R410). -/
def State.noWindow (s : State) (n side addr : Nat) : State :=
  let s := s.tskCnt n 6
  let k := s.sock n
  let now := ftSec s.time.ft + 1
  if Store.get 0 k.winSec side = now then s
  else (s.setSock n { k with winSec := Store.put 0 k.winSec side now }).event 0xE n 7 (leBytes 1 n ++ leBytes 1 side ++ leBytes 6 0 ++ leBytes 8 addr)

/-- Socket address that a host-to-socket window of the active copy gives to BAR4 offset `o` of function `fn` (R409). -/
def State.h2s (s : State) (n fn o len : Nat) (write : Bool) : Option Nat :=
  (List.range 16).findSome? (fun w =>
    let off := s.rd R.TSK_ACT_H2S_BASE_off n w * 4096
    let size := s.rd R.TSK_ACT_H2S_SIZE_size n w * 4096
    let ok := s.on R.TSK_ACT_H2S_BASE_en n w && 8 * s.rd R.TSK_ACT_H2S_BASE_hif n w + s.rd R.TSK_ACT_H2S_BASE_pf n w == fn
      && (if write then s.on R.TSK_ACT_H2S_BASE_wr_en n w else s.on R.TSK_ACT_H2S_BASE_rd_en n w)
    if ok && off ≤ o && o + len ≤ off + size then some (s.rd R.TSK_ACT_H2S_TGT_sock n w * 4096 + (o - off)) else none)

def State.winEpoch (s : State) (n : Nat) : Nat := s.rd R.TSK_WIN_STATUS_win_epoch n

/-- Pieces of an access, split at 256-byte address boundaries (R407): address, length. -/
def pieces : Nat → Nat → Nat → List (Nat × Nat)
  | 0, _, _ => []
  | fuel + 1, a, n =>
    if n = 0 then []
    else
      let k := min n (256 - a % 256)
      (a, k) :: pieces fuel (a + k) (n - k)

/-- The MWRs of a write toward a module, the last one carrying the completion of a COPY_IN. -/
def State.moduleWrite (s : State) (n a : Nat) (bs : List Byte) (bad : Bool) (done : Option (Nat × Nat) := none) : State :=
  let ps := pieces (bs.length / 256 + 2) a bs.length
  ps.foldl (fun s p =>
    let last := p.1 + p.2 = a + bs.length
    let t : Txn := { vc := 1, data := txnHeader 0x10 0 p.2 0 0 p.1 ++ padUnits (sliceBytes bs (p.1 - a) p.2), bad := bad, epoch := s.winEpoch n, done := if last then done else none }
    (s.tskCnt n 4).sendTxn n t) s

/-- Tags free for device reads of a socket. -/
def State.freeTags (s : State) (n : Nat) : Nat := 4096 - (s.sock n).rds.length

/-- Issue one MRD. -/
def State.moduleMrd (s : State) (n a len off : Nat) (for_ : RdFor) : State :=
  let k := s.sock n
  let held := k.rds.map (·.tag)
  let tag := ((List.range (held.length + 1)).find? (fun t => !held.contains t)).getD 0
  let r : SockRd := { tag := tag, len := len, off := off, epoch := s.winEpoch n, issued := s.time.ft, for_ := for_ }
  let s := s.setSock n { k with rds := k.rds ++ [r] }
  (s.tskCnt n 5).sendTxn n { vc := 2, data := txnHeader 0x20 0 len tag 0 a, epoch := s.winEpoch n }

/-- Issue pieces of gathered reads while tags are free. -/
def State.issueJobs (n : Nat) : Nat → State → State
  | 0, s => s
  | fuel + 1, s =>
    let k := s.sock n
    match k.jobs.find? (fun j => !j.todo.isEmpty) with
    | none => s
    | some j => match j.todo with
      | [] => s
      | p :: l =>
        if s.freeTags n = 0 then s
        else
          let s := s.setSock n { k with jobs := k.jobs.map (fun (x : SockJob) => if x.id = j.id then { x with todo := l } else x) }
          State.issueJobs n fuel (s.moduleMrd n p.1 p.2 (p.1 - j.addr) (.job j.id))

/-- Start a read gathered from MRDs; its pieces go out as tags are free. -/
def State.startJob (s : State) (n : Nat) (fn : Option Nat) (owner a len : Nat) (work : Option (Nat × Nat) := none) : State :=
  let ps := if len = 0 then [(a, 0)] else pieces (len / 256 + 2) a len
  let k := s.sock n
  let j : SockJob := { id := k.nextJob, fn := fn, owner := owner, work := work, addr := a, len := len, left := ps.length, todo := ps }
  State.issueJobs n ps.length (s.setSock n { k with jobs := k.jobs ++ [j], nextJob := k.nextJob + 1 })

/-- All ones of `len` bytes. -/
def allOnes (len : Nat) : Nat := 2 ^ (8 * len) - 1

/-- A gathered read of a function has ended: the BAR4 read is answered with its data, or with all ones (R416). -/
def State.answerJob (s : State) (j : SockJob) : State :=
  match j.fn with
  | some fn => s.sendHost (.cplData fn (if j.status = 0 then leNat (Mem.read j.data 0 j.len) else allOnes j.len) (j.bad && j.status == 0))
  | none => s

def mrMax : Nat := 1048576

/-- Owner number of a read toward a module by QP `q` through region `i`; `q` = 0 is the region itself. -/
def jobOwner (q i : Nat) : Nat := q * mrMax + i

/-- The RDMA engine goes on for the QP whose gathered read has ended. -/
def State.wakeOwner (s : State) (owner : Nat) : State :=
  let q := owner / mrMax
  if q = 0 ∨ s.due.contains (.wake q) then s else { s with due := s.due ++ [.wake q] }

/-- One piece of a gathered read has ended. -/
def State.jobPiece (s : State) (n id off : Nat) (bs : List Byte) (bad : Bool) (status : Nat) : State :=
  let k := s.sock n
  match k.jobs.find? (·.id == id) with
  | none => s
  | some j =>
    let rest := if status = 0 then j.todo else []
    let left := if status = 0 then j.left - 1 else j.left - 1 - j.todo.length
    let j' := { j with left := left, todo := rest, data := Mem.write j.data off bs, bad := j.bad || bad, status := if j.status = 0 then status else j.status }
    let keep := k.jobs.filter (·.id != id)
    if j'.left = 0 ∧ j.fn.isSome then (s.setSock n { k with jobs := keep }).answerJob j'
    else
      let s := s.setSock n { k with jobs := keep ++ [j'] }
      if j'.left = 0 then s.wakeOwner j'.owner else s

/-- The read toward a module of an address for the RDMA engine. -/
def State.modJob (s : State) (n owner : Nat) (work : Option (Nat × Nat)) (a len : Nat) : Option SockJob :=
  (s.sock n).jobs.find? (fun j => j.fn.isNone && j.owner == owner && j.work == work && j.addr == a && j.len == len)

/-- Take what a read toward the module has brought to the RDMA engine, start it, or wait for it (R411, R412): `owner`
names the QP or region that reads. -/
def State.moduleRead (s : State) (n owner : Nat) (work : Option (Nat × Nat)) (a len : Nat) : Got × Bool × State :=
  let k := s.sock n
  match s.modJob n owner work a len with
  | some j =>
    if j.left ≠ 0 then (.wait, false, s)
    else
      let s := s.setSock n { k with jobs := k.jobs.filter (·.id != j.id) }
      if j.status = 0 then (.ok (Mem.read j.data 0 len), j.bad, s) else (.fail j.status, false, s)
  | none =>
    let st := s.modStatus n
    if st ≠ 0 then (.fail st, false, s)
    else (.wait, false, s.startJob n none owner a len work)

/-! ### COPY_OUT (R418) -/

/-- The COPY_OUT of a ring and count. -/
def State.copyOut (s : State) (n r c : Nat) : Option CopyOut := (s.sock n).copies.find? (fun o => o.ring == r && o.count == c)

def State.setCopy (s : State) (n : Nat) (o : CopyOut) : State :=
  s.modSock n (fun k => { k with copies := k.copies.filter (fun x => !(x.ring == o.ring && x.count == o.count)) ++ [o] })

/-- Issue MRDs of a COPY_OUT, as many as tags are free; none after a piece has failed. -/
def State.copyIssue (n r c : Nat) : Nat → State → State
  | 0, s => s
  | fuel + 1, s =>
    match s.copyOut n r c with
    | none => s
    | some o =>
      if o.status ≠ 0 ∨ o.len ≤ o.asked ∨ s.freeTags n = 0 ∨ (s.lateOf r c).isSome then s
      else
        let a := o.sock + o.asked
        let k := min (o.len - o.asked) (256 - a % 256)
        State.copyIssue n r c fuel ((s.setCopy n { o with asked := o.asked + k }).moduleMrd n a k o.asked (.copy r c))

/-- A COPY_OUT with nothing outstanding completes when all its bytes have been written or one piece has failed. -/
def State.copyEnd (s : State) (n r c : Nat) : State :=
  match s.copyOut n r c with
  | none => s
  | some o =>
    let open_ := (s.sock n).rds.any (fun x => x.for_ == .copy r c)
    if open_ ∨ (o.status = 0 ∧ o.got < o.len ∧ (s.lateOf r c).isNone) then s
    else
      let s := s.modSock n (fun k => { k with copies := k.copies.erase o })
      s.finish r c { status := o.status, bytes := o.got }

/-- One piece of a COPY_OUT has ended: its bytes go to HBM, but not those of one that was aborted (07_rings.md R203). -/
def State.copyPiece (s : State) (n r c off : Nat) (bs : List Byte) (bad : Bool) (status : Nat) : State :=
  match s.copyOut n r c with
  | none => s
  | some o =>
    if (s.lateOf r c).isSome then (if status = 0 then s.lateDrop else s).copyEnd n r c
    else
      let (st, s) := if status ≠ 0 then (status, s) else
        match s.writeFor o.slice true (o.mem + off) bs bad with
        | (.fail e, s) => (e, s)
        | (_, s) => (0, s)
      let o := { o with got := if st = 0 then o.got + bs.length else o.got, status := if o.status = 0 then st else o.status }
      let s := s.setCopy n o
      let s := if st = 0 then s.report r c o.got else s
      (State.copyIssue n r c 4096 s).copyEnd n r c

/-! ### What ends a read -/

/-- Freed tags go to what waits for one. -/
def State.issueMore (s : State) (n : Nat) : State :=
  let s := State.issueJobs n 4096 s
  (s.sock n).copies.foldl (fun s o => (State.copyIssue n o.ring o.count 4096 s).copyEnd n o.ring o.count) s

/-- A device read toward the module ends with data or a status. -/
def State.readDone (s : State) (n : Nat) (r : SockRd) (bs : List Byte) (bad : Bool) (status : Nat) : State :=
  let s := s.modSock n (fun k => { k with rds := k.rds.erase r })
  let s := match r.for_ with
    | .job id => s.jobPiece n id r.off (if status = 0 then bs else []) bad status
    | .copy rg c => s.copyPiece n rg c r.off bs bad status
    | .orphan _ x _ => if status = 0 then s.sat R.SLC_DISCARD_late 1 x else s
  s.issueMore n

/-- Every device read toward the module fails, those that wait for a tag too (R429, R431). -/
def State.failReads (s : State) (n status : Nat) : State :=
  let stop := fun (j : SockJob) => if j.todo.isEmpty then j else { j with todo := [], left := j.left - j.todo.length, status := if j.status = 0 then status else j.status }
  let s := s.modSock n (fun k => { k with jobs := k.jobs.map stop, copies := k.copies.map (fun (o : CopyOut) => { o with status := if o.status = 0 then status else o.status }) })
  let over_ := (s.sock n).jobs.filter (fun j => j.left == 0 && j.fn.isSome)
  let s := over_.foldl (fun s j => (s.modSock n (fun k => { k with jobs := k.jobs.erase j })).answerJob j) s
  let s := (s.sock n).rds.foldl (fun s r => s.readDone n r [] false status) s
  let s := ((s.sock n).jobs.filter (fun j => j.left == 0 && j.fn.isNone)).foldl (fun s j => s.wakeOwner j.owner) s
  (s.sock n).copies.foldl (fun s o => s.copyEnd n o.ring o.count) s

end Sys2Proof.Machine
end

