-- ==== Sys2Proof/Machine/Mr.lean ====
section
/-! DEFINITION. Memory regions and their keys (13_rdma.md R339, R340, R355, R356), and work of a ring that starts in ring
order. -/

namespace Sys2Proof.Machine

/-- Perform the oldest entry of a family of opcodes that has not been performed, when it has one of the opcodes `ops`:
work of the family starts in ring order. -/
def State.performNext (s : State) (r : Nat) (fam : Nat → Bool) (ops : List Nat) (f : Ring → Flight → State → State) : State :=
  match s.ring r with
  | none => s
  | some x => match x.eng.flight.find? (fun g => !g.performed && g.cpl.isNone && fam (dOpcode g.desc)) with
    | none => s
    | some g => if g.staged || !ops.contains (dOpcode g.desc) then s else f x g s

/-! ### Regions -/

def State.mr (s : State) (i : Nat) : Mr := Store.get {} s.rdm.mrs i

def State.setMr (s : State) (i : Nat) (m : Mr) : State := { s with rdm := { s.rdm with mrs := Store.put {} s.rdm.mrs i m } }

/-- Owner numbers of the gathered reads of the RDMA engine. -/
def State.mrOwners (s : State) : List Nat :=
  s.socks.flatMap (fun p => (p.2.jobs.filter (·.fn.isNone)).map (·.owner)) ++ s.hif.jobs.filterMap (fun j => match j.for_ with
    | .mr o _ => some o
    | _ => none)

/-- QP `q` has an access in flight through region `i`. -/
def State.mrBusy (s : State) (q i : Nat) : Bool := s.mrOwners.contains (jobOwner q i)

/-- Some access of a QP is in flight through region `i`. -/
def State.mrInUse (s : State) (i : Nat) : Bool := s.mrOwners.any (fun o => o % mrMax == i && mrMax ≤ o)

/-- What the reads of a QP have brought that nothing will take any more is dropped. -/
def State.dropReads (s : State) (q : Nat) : State :=
  let mine := fun (o : Nat) => o / mrMax == q
  let s := s.dropJobs (fun j => j.left == 0 && match j.for_ with
    | .mr o _ => mine o
    | .av p _ => p == q
    | _ => false)
  { s with socks := s.socks.map (fun p =>
      let k : Sock := p.2
      (p.1, { k with jobs := k.jobs.filter (fun j => !(j.fn.isNone && j.left == 0 && mine j.owner)) })) }

/-- Access bits of a region. -/
def accLocal : Nat := 1
def accRead : Nat := 2
def accWrite : Nat := 4
def accAtomic : Nat := 8

/-- An access through a key by QP `q` of a slice and protection domain is permitted (R340): the region. An access that
passed before the revoke completes (R355). -/
def State.keyCheck (s : State) (q slice pd key addr len need : Nat) : Option (Nat × Mr) :=
  let i := key / 256
  let m := s.mr i
  if i < mrMax && (m.state == 1 || (m.state == 2 && s.mrBusy q i)) && m.variant == key % 256 && m.slice == slice
      && m.pd == pd && m.va ≤ addr && addr + len ≤ m.va + m.length && m.access &&& need == need then some (i, m)
  else none

/-- The socket and socket address of an offset in a region of kind socket (R411). -/
def State.mrSock (s : State) (m : Mr) (t len : Nat) (write : Bool) : Option (Nat × Nat) :=
  match s.sliceSock m.via, s.sliceFn m.via with
  | some n, some fn => (s.h2s n fn t len write).map (fun a => (n, a))
  | _, _ => none

/-- Read through a region for QP `q` and the work of a ring entry: data and whether it is poisoned. -/
def State.mrRead (s : State) (q i : Nat) (w : Option (Nat × Nat)) (m : Mr) (addr n : Nat) : Got × Bool × State :=
  let t := m.target + (addr - m.va)
  match m.kind with
  | 0 =>
    let r := s.hostRead (.mr (jobOwner q i) w) m.via t n
    (r.1, false, r.2)
  | 1 =>
    let r := s.hbmRead t n
    if r.status = St.mem_range then (.fail r.status, false, r.next) else (.ok r.data, r.bad, r.next)
  | _ =>
    match s.mrSock m t n false with
    | some (k, a) => s.moduleRead k (jobOwner q i) w a n
    | none => match s.sliceSock m.via with
      | some k => (.fail St.no_window, false, s.noWindow k 0 t)
      | none => (.fail St.no_window, false, s)

/-- Start a read through a region that `mrRead` will wait for. -/
def State.mrWant (s : State) (q i : Nat) (w : Option (Nat × Nat)) (m : Mr) (addr n : Nat) : State :=
  let t := m.target + (addr - m.va)
  match m.kind with
  | 0 => s.wantHost (.mr (jobOwner q i) w) m.via t n
  | 1 => s
  | _ =>
    match s.mrSock m t n false with
    | some (k, a) => if (s.modJob k (jobOwner q i) w a n).isNone && s.modStatus k == 0 then s.startJob k none (jobOwner q i) a n w else s
    | none => s

/-- A read through a region is still on its way. -/
def State.mrReading (s : State) (q i : Nat) (w : Option (Nat × Nat)) (m : Mr) (addr n : Nat) : Bool :=
  let t := m.target + (addr - m.va)
  match m.kind with
  | 0 => s.reading (.mr (jobOwner q i) w) m.via t n
  | 1 => false
  | _ =>
    match s.mrSock m t n false with
    | some (k, a) => (s.modJob k (jobOwner q i) w a n).elim false (·.left != 0)
    | none => false

/-- Write through a region. -/
def State.mrWrite (s : State) (i : Nat) (m : Mr) (addr : Nat) (bs : List Byte) (bad : Bool) : Got × State :=
  let t := m.target + (addr - m.va)
  let s := s.setMr i { m with wrote := true }
  match m.kind with
  | 0 => s.hostWrite m.via t bs bad
  | 1 =>
    let r := s.hbmWrite t bs bad
    (if r.2 = 0 then .ok [] else .fail r.2, r.1)
  | _ =>
    match s.mrSock m t bs.length true with
    | some (k, a) =>
      let st := s.modStatus k
      if st = 0 then (.ok [], s.moduleWrite k a bs bad) else (.fail st, s.tskCnt k 7)
    | none => match s.sliceSock m.via with
      | some k => (.fail St.no_window, s.noWindow k 0 t)
      | none => (.fail St.no_window, s)

/-- The range [o, o + len) lies in enabled host-to-socket windows of a socket that name a function (R339). -/
def State.inWindows (s : State) (n fn : Nat) : Nat → Nat → Nat → Bool
  | 0, _, len => len == 0
  | fuel + 1, o, len =>
    if len = 0 then true
    else
      let fits := (List.range 16).filterMap (fun w =>
        let off := s.rd R.TSK_ACT_H2S_BASE_off n w * 4096
        let size := s.rd R.TSK_ACT_H2S_SIZE_size n w * 4096
        if s.on R.TSK_ACT_H2S_BASE_en n w && 8 * s.rd R.TSK_ACT_H2S_BASE_hif n w + s.rd R.TSK_ACT_H2S_BASE_pf n w == fn && off ≤ o && o < off + size
        then some (off + size - o) else none)
      match fits with
      | [] => false
      | k :: _ => s.inWindows n fn fuel (o + min k len) (len - min k len)

/-- The region that a 64-byte record describes for a slice. -/
def mrOf (b : List Byte) (slice variant : Nat) : Mr :=
  { state := 1, variant := variant, va := fieldLE b 0 8, length := fieldLE b 8 8, target := fieldLE b 0x10 8, pd := fieldLE b 0x18 4
    kind := fieldLE b 0x1C 1, access := fieldLE b 0x1D 1, slice := slice, via := slice }

/-- A region record is in order (R339); the state has the HBM pages charged. -/
def State.mrLegal (s : State) (b : List Byte) (slice : Nat) : Option State :=
  let m := mrOf b slice 0
  if m.length = 0 ∨ 2 ^ 46 < m.length ∨ 2 ^ 64 < m.va + m.length ∨ 2 < m.kind ∨ 15 < m.access ∨ (b.drop 0x1E).any (· != 0) then none
  else match m.kind with
    | 0 => if (s.sliceFn slice).isSome then some s else none
    | 1 => s.claimHbm slice m.target m.length
    | _ => match s.sliceSock slice, s.sliceFn slice with
      | some n, some fn => if s.inWindows n fn 17 m.target m.length && m.access < 8 then some s else none
      | _, _ => none

/-- Lowest number from `lo` on that is not in use. -/
def lowestFree (used : List Nat) (lo : Nat) : Nat := ((List.range (used.length + 1)).map (· + lo)).find? (fun i => !used.contains i) |>.getD lo

/-- Register a region: its index, or the status of the refused allocation from pool 7. -/
def State.mrAdd (s : State) (slice : Nat) (m : Mr) : Except Nat (Nat × State) :=
  let st := s.allocStatus slice 7
  if st ≠ 0 then .error st
  else
    let i := lowestFree ((s.rdm.mrs.filter (fun p => p.2.state != 0)).map (·.1)) 0
    .ok (i, (s.charge slice 7).setMr i { m with variant := (s.mr i).variant })

/-- Key of a region. -/
def State.mrKey (s : State) (i : Nat) : Nat := i * 256 + (s.mr i).variant

/-- A VALID region closes in one core clock (R355). -/
def State.mrClose (s : State) (i : Nat) (w : RevFor) : State := s.setMr i { s.mr i with state := 2, waiter := w }

/-- The region ends: its index returns to pool 7 and its stored variant advances. -/
def State.mrFree (s : State) (i : Nat) : State :=
  let m := s.mr i
  (s.setMr i { variant := (m.variant + 1) % 256 }).uncharge m.slice 7

/-- Every access that passed the check has landed (R355, R356): the status of the zero-length read behind the last write
toward the host or a module, or none while something is still on its way. -/
def State.mrLanded (s : State) (i : Nat) : Option Nat × State :=
  let m := s.mr i
  if s.mrInUse i then (none, s)
  else if !m.wrote then (some 0, s)
  else match m.kind with
    | 0 =>
      match s.hostGate m.via with
      | .fail st => (some st, s)
      | .wait => (none, s)
      | .go fn =>
        if (s.func fn).held.isEmpty then
          match s.hostRead (.mr (jobOwner 0 i) none) m.via m.target 0 with
          | (.wait, s) => (none, s)
          | (.fail st, s) => (some st, s)
          | (.ok _, s) => (some 0, s)
        else (none, s)
    | 1 => (some 0, s)
    | _ =>
      match s.sliceSock m.via with
      | none => (some 0, s)
      | some n =>
        match s.mrSock m m.target 0 false with
        | none => (some 0, s)
        | some (_, a) => match s.moduleRead n (jobOwner 0 i) none a 0 with
          | (.wait, _, s) => (none, s)
          | (.fail st, _, s) => (some st, s)
          | (.ok _, _, s) => (some 0, s)

/-! ### MR_REG and MR_REVOKE -/

/-- The rings of the RDMA engine: bit 15 of `target` makes a receive ring (R335). -/
def Ring.recvRing (x : Ring) : Bool := x.type == 3 && bit x.target 15
def Ring.workRing (x : Ring) : Bool := x.type == 3 && !bit x.target 15

def rdmaOp (o : Nat) : Bool := 0x20 ≤ o && o ≤ 0x2F

/-- Perform the next RDMA descriptor of a ring when it has opcode `op`. -/
def State.rdmaNext (s : State) (r op : Nat) (f : Ring → Flight → State → State) : State := s.performNext r rdmaOp [op] f

/-- The control descriptor is in order: reserved bytes and, but for opcodes 0x29-0x2B and 0x2D, `qpn_key` are 0. -/
def ctlOk (d : List Byte) (named : Bool) : Bool := zeroFrom d 0x1C && (named || fieldLE d 0x18 4 == 0)

/-- MR_REG (R339). -/
def State.mrReg (s : State) (r : Nat) : State :=
  s.rdmaNext r 0x2C (fun x g s =>
    if !ctlOk g.desc false then s.fail r g.count St.bad_desc
    else match s.readFor (.work r g.count) g.slice x.mem (fieldLE g.desc 0x10 8) 64 with
      | (.wait, s) => s
      | (.fail st, s) => s.fail r g.count st
      | (.ok b, s) => match s.mrLegal b g.slice with
        | none => s.fail r g.count St.mr_range
        | some t => match t.mrAdd g.slice (mrOf b g.slice 0) with
          | .error st => s.fail r g.count st
          | .ok (i, t) => t.finish r g.count { status := 0, x18 := leBytes 4 (t.mrKey i) })

/-- MR_REVOKE (R355, R356): a VALID region of the slice whose variant matches closes. -/
def State.mrRevoke (s : State) (r : Nat) : State :=
  s.rdmaNext r 0x2D (fun _ g s =>
    let key := fieldLE g.desc 0x18 4
    let i := key / 256
    let m := s.mr i
    if !ctlOk g.desc true || fieldLE g.desc 0x10 8 != 0 then s.fail r g.count St.bad_desc
    else if mrMax ≤ i ∨ m.state ≠ 1 ∨ m.variant ≠ key % 256 ∨ (m.slice ≠ g.slice ∧ g.slice ≠ 0) then s.fail r g.count St.mr_state
    else (s.performed r g.count).mrClose i (.ring r g.count))

def execMrReg (r : Fin 65536) (s : State) : Out := s.whenMain (·.mrReg r)
def execMrRevoke (r : Fin 65536) (s : State) : Out := s.whenMain (·.mrRevoke r)

end Sys2Proof.Machine
end

