-- ==== Sys2Proof/Machine/StqOps.lean ====
section
/-! DEFINITION. Volumes: records, the end of a command, the error log and the freeze (14_storage_queues.md R369, R372,
R380, R381). -/

namespace Sys2Proof.Machine

def stqBase : Nat := 0x2A00000

def State.vol (s : State) (v : Nat) : Option Vol := Store.get none s.stq.vols v

def State.setVol (s : State) (v : Nat) (x : Option Vol) : State := { s with stq := { s.stq with vols := Store.put none s.stq.vols v x } }

def State.modVol (s : State) (v : Nat) (f : Vol → Vol) : State :=
  match s.vol v with
  | some x => s.setVol v (some (f x))
  | none => s

def State.stqCnt (s : State) (c : Nat) (n : Nat := 1) : State := s.addTo R.STQ_CNT_count n c

/-- Fields of a volume record (table Volume record). -/
def Vol.capacity (x : Vol) : Nat := fieldLE x.rcd 0 8
def Vol.slice (x : Vol) : Nat := fieldLE x.rcd 8 2 % 4096
def Vol.shift (x : Vol) : Nat := fieldLE x.rcd 0xA 1
def Vol.backend (x : Vol) : Nat := fieldLE x.rcd 0xB 1
def Vol.maxBlocks (x : Vol) : Nat := fieldLE x.rcd 0xC 4
def Vol.nsid (x : Vol) : Nat := fieldLE x.rcd 0x10 4
def Vol.bref (x : Vol) : Nat := fieldLE x.rcd 0x14 4 % (if x.backend = 0 then 2 ^ 24 else if x.backend = 1 then 2 ^ 16 else 8)
def Vol.depth (x : Vol) : Nat := fieldLE x.rcd 0x18 2
def Vol.exit2 (x : Vol) : Nat := fieldLE x.rcd 0x20 4
def Vol.elogAddr (x : Vol) : Nat := fieldLE x.rcd 0x28 8

/-- A timing value: the record's at the expert level, the preset's at the basic level (R383). -/
def State.volMs (s : State) (x : Vol) (off : Nat) (p0 p1 p2 : Nat) : Nat :=
  if s.expert stqBase then fieldLE x.rcd off 2 else
    match s.preset stqBase with
    | 0 => p0
    | 1 => p1
    | _ => p2

def State.cmdTimeout (s : State) (x : Vol) : Nat := s.volMs x 0x1A 30000 30000 8000
def State.idle1 (s : State) (x : Vol) : Nat := s.volMs x 0x1C 100 0 100
def State.idle2 (s : State) (x : Vol) : Nat := if x.backend = 0 then 0 else s.volMs x 0x1E 0 0 10000

def State.volState (s : State) (v : Nat) : Nat := s.rd R.STQ_VOL_STATE_state v

/-- The volume that names a QP as its backend (R365). -/
def State.qpVol (s : State) (q : Nat) : Option Nat :=
  (s.stq.vols.find? (fun p => match p.2 with
    | some x => x.backend == 0 && x.bref == q
    | none => false)).map (·.1)

/-- An address of the slice's memory lies in HBM: a page charged to the slice, or, for a slice without a host binding, any
(DEDUCED, log entry 31: the record carries no bit that says which). -/
def State.inHbm (s : State) (x a : Nat) : Bool := s.pageOwner (a / pageSize) == some x || (s.sliceFn x).isNone

/-- One record of the error log (R381). -/
def State.elogWrite (s : State) (v : Nat) (x : Vol) (ring : Nat) (g : Flight) (k : Cpl) (cause : Nat) : State :=
  let n := x.elog
  let b := leBytes 8 n ++ leBytes 8 s.now64 ++ leBytes 2 k.status ++ (k.x12 ++ [0, 0]).take 2 ++ leBytes 2 ring ++ leBytes 1 (dOpcode g.desc)
    ++ leBytes 1 cause ++ sliceBytes g.desc 0x18 8 ++ sliceBytes g.desc 0x14 4 ++ leBytes 4 (g.tag.getD 0) ++ List.replicate 24 0
  let s := s.setVol v (some { x with elog := n + 1 })
  (s.writeFor x.slice (s.inHbm x.slice x.elogAddr) (x.elogAddr + n % 64 * 64) b).2

/-- A command of a volume completes: counters, the error log for a status of class 0x04, the idle time restarts (R378). -/
def State.stqFinish (s : State) (v ring count : Nat) (k : Cpl) (cause : Nat := 0) : State :=
  match s.flight ring count with
  | none => s.finish ring count k
  | some g =>
    let op := dOpcode g.desc
    let s := s.stqCnt 1
    let s := if k.status = 0 ∧ op = 0x30 then s.stqCnt 2 k.bytes else if k.status = 0 ∧ op = 0x31 then s.stqCnt 3 k.bytes else s
    let s := if k.status = St.stq_backend then s.stqCnt 4 else if k.status = St.stq_timeout then s.stqCnt 5
      else if k.status = St.stq_flushed then s.stqCnt 7 else s
    let s := s.modVol v (fun x => { x with idleAt := s.time.ft })
    let s := match s.vol v with
      | some x => if k.status / 256 = 4 then s.elogWrite v x ring g k cause else s
      | none => s
    s.finish ring count k

/-- An issued command ends: at once, or once its key has been revoked (R369). -/
def State.stqEnd (s : State) (v slot : Nat) (k : Cpl) (cause : Nat := 0) : State :=
  match s.vol v with
  | none => s
  | some x => match x.cmds.find? (fun c => c.slot == slot && c.ended.isNone) with
    | none => s
    | some c =>
      match c.key with
      | some i =>
        let s := s.setVol v (some { x with cmds := x.cmds.map (fun (y : StqCmd) => if y.slot = slot then { y with ended := some k } else y) })
        if (s.mr i).state = 1 then s.mrClose i (.stq v slot) else s
      | none => (s.setVol v (some { x with cmds := x.cmds.erase c })).stqFinish v c.ring c.count k cause

/-- The key of an ended command has been revoked: the command completes (R369). -/
def State.stqKeyGone (s : State) (v slot : Nat) : State :=
  match s.vol v with
  | none => s
  | some x => match x.cmds.find? (·.slot == slot) with
    | none => s
    | some c => match c.ended with
      | none => s
      | some k => (s.setVol v (some { x with cmds := x.cmds.erase c })).stqFinish v c.ring c.count k

/-- Every issued command of a volume fails with `stq_link`: the backend is gone (R380). -/
def State.stqLost (s : State) (v cause : Nat) : State :=
  match s.vol v with
  | none => s
  | some x => (x.cmds.filter (·.ended.isNone)).foldl (fun s c => s.stqEnd v c.slot { status := St.stq_link } cause) s

/-- A freeze cause (R380, R381); causes 2, 5 and 6 take the backend away. -/
def State.freeze (s : State) (v cause : Nat) : State :=
  let s := if s.volState v ≠ 1 then s
    else match s.vol v with
      | none => s
      | some x =>
        let s := ((s.wr R.STQ_VOL_STATE_state 2 v).wr R.STQ_VOL_STATE_cause cause v).stqCnt 6
        s.sliceEvent 0xC 0 1 x.slice (Config.freezeDetail v cause x.elog)
  if cause = 2 ∨ cause = 5 ∨ cause = 6 then s.stqLost v cause else s

/-- Volumes of a backend. -/
def State.volsOf (s : State) (backend bref : Nat) : List Nat :=
  (s.stq.vols.filter (fun p => match p.2 with
    | some x => x.backend == backend && x.bref == bref
    | none => false)).map (·.1)

end Sys2Proof.Machine
end

