-- ==== Sys2Proof/Machine/RocePkt.lean ====
section
/-! DEFINITION. RoCEv2 packets: reading a received frame and building one (13_rdma.md, table RoCEv2 support, R333, R334).
Header layouts, opcodes, syndromes, the RNR timer codes and the ICRC are those of the InfiniBand Architecture
Specification and its Annex A17, which the chapter follows without restating them (PRESUMED, log entry 11). -/

namespace Sys2Proof.Machine

/-! ### The invariant CRC -/

/-- One byte of a reflected CRC-32. -/
def crc32Byte (c b : Nat) : Nat :=
  (List.range 8).foldl (fun c _ => if c % 2 = 1 then (c / 2) ^^^ 0xEDB88320 else c / 2) (c ^^^ b)

def crc32 (bs : List Byte) : Nat := (bs.foldl (fun c b => crc32Byte c b.toNat) 0xFFFFFFFF) ^^^ 0xFFFFFFFF

/-- Bytes `off` .. of a string set to 0xFF. -/
def ones (bs : List Byte) (off n : Nat) : List Byte := putAt bs off (List.replicate n 0xFF)

/-- The ICRC of a packet: IP header, UDP header, BTH and the rest, with the fields that routers may change set to ones. -/
def icrcOf (v6 : Bool) (ip udp rest : List Byte) : Nat :=
  let ip := if v6 then ones (ones (putAt ip 0 (ip.take 1 |>.map (fun b => b ||| 0x0F))) 1 3) 7 1
    else ones (ones (ones ip 1 1) 8 1) 10 2
  crc32 (List.replicate 8 0xFF ++ ip ++ ones udp 6 2 ++ ones rest 4 1)

/-! ### Receiving -/

/-- A received RoCEv2 packet: fields of the base transport header and what follows it without padding and ICRC;
`ok` says that ICRC, UDP checksum and lengths are right. -/
structure Roce where
  ok : Bool
  v6 : Bool
  ce : Bool
  op : Nat
  se : Bool
  tver : Nat
  pkey : Nat
  dqp : Nat
  ackReq : Bool
  psn : Nat
  body : List Byte
  /-- source and destination address, for the 40 bytes before a UD message -/
  ipHdr : List Byte
  deriving DecidableEq, Repr

/-- The IP pseudo-header's sum over a UDP datagram is right. -/
def udpSumOk (v6 : Bool) (ip dgram : List Byte) : Bool :=
  let pseudo := if v6 then sliceBytes ip 8 32 ++ beBytes 4 dgram.length ++ [0, 0, 0, 17]
    else sliceBytes ip 12 8 ++ [0, 17] ++ beBytes 2 dgram.length
  inetSum (pseudo ++ dgram) == 0

/-- Read a frame as a RoCEv2 packet. -/
def roceOf (d : List Byte) : Option Roce :=
  let be := fun o n => beNat (sliceBytes d o n)
  let l3 := if be 12 2 = 0x8100 then 18 else 14
  let et := be (l3 - 2) 2
  let v6 := et == 0x86DD
  let hl := if v6 then 40 else 4 * (be l3 1 % 16)
  let total := if v6 then 40 + be (l3 + 4) 2 else be (l3 + 2) 2
  let proto := if v6 then be (l3 + 6) 1 else be (l3 + 9) 1
  if (et ≠ 0x0800 ∧ et ≠ 0x86DD) ∨ proto ≠ 17 ∨ hl < 20 ∨ total < hl + 24 ∨ d.length < l3 + total ∨ be (l3 + hl + 2) 2 ≠ 4791 then none
  else
    let ip := sliceBytes d l3 hl
    let dgram := sliceBytes d (l3 + hl) (total - hl)
    let udp := dgram.take 8
    let b := dgram.drop 8
    let rest := b.take (b.length - 4)
    let bb := fun o n => beNat (sliceBytes b o n)
    let tc := if v6 then be l3 2 / 16 % 256 else be (l3 + 1) 1
    let pad := bb 1 1 / 16 % 4
    let sum := beNat (sliceBytes udp 6 2)
    some {
      ok := leNat (b.drop (b.length - 4)) == icrcOf v6 ip udp rest && beNat (sliceBytes udp 4 2) == dgram.length
        && (sum == 0 || udpSumOk v6 ip dgram) && 12 + pad ≤ rest.length && rest.length % 4 == 0
      v6 := v6, ce := tc % 4 == 3, op := bb 0 1, se := 128 ≤ bb 1 1, tver := bb 1 1 % 16, pkey := bb 2 2, dqp := bb 5 3
      ackReq := 128 ≤ bb 8 1, psn := bb 9 3, body := (rest.drop 12).take (rest.length - 12 - pad)
      ipHdr := if v6 then ip else List.replicate 20 0 ++ ip.take 20 }

/-- What an opcode is: its operation and its place in a message. -/
inductive RoceKind where
  | send (first last imm : Bool)
  | write (first last imm : Bool)
  | readReq
  | readRsp (first last : Bool)
  | ack
  | atomicAck
  | atomic (cmp : Bool)
  | ud (imm : Bool)
  | cnp
  deriving DecidableEq, Repr

def roceKind (op : Nat) : Option RoceKind :=
  match op with
  | 0x00 => some (.send true false false)
  | 0x01 => some (.send false false false)
  | 0x02 => some (.send false true false)
  | 0x03 => some (.send false true true)
  | 0x04 => some (.send true true false)
  | 0x05 => some (.send true true true)
  | 0x06 => some (.write true false false)
  | 0x07 => some (.write false false false)
  | 0x08 => some (.write false true false)
  | 0x09 => some (.write false true true)
  | 0x0A => some (.write true true false)
  | 0x0B => some (.write true true true)
  | 0x0C => some .readReq
  | 0x0D => some (.readRsp true false)
  | 0x0E => some (.readRsp false false)
  | 0x0F => some (.readRsp false true)
  | 0x10 => some (.readRsp true true)
  | 0x11 => some .ack
  | 0x12 => some .atomicAck
  | 0x13 => some (.atomic true)
  | 0x14 => some (.atomic false)
  | 0x64 => some (.ud false)
  | 0x65 => some (.ud true)
  | 0x81 => some .cnp
  | _ => none

/-- Bytes of the extended headers of a kind, before its payload. -/
def extLen : RoceKind → Nat
  | .send _ _ imm => if imm then 4 else 0
  | .write first _ imm => (if first then 16 else 0) + (if imm then 4 else 0)
  | .readReq => 16
  | .readRsp first last => if first || last then 4 else 0
  | .ack => 4
  | .atomicAck => 12
  | .atomic _ => 28
  | .ud imm => 8 + (if imm then 4 else 0)
  | .cnp => 16

/-- The headers fit the opcode: extended headers present, and no payload where the opcode has none (R333). -/
def shapeOk (k : RoceKind) (body : List Byte) : Bool :=
  let n := extLen k
  n ≤ body.length && (match k with
    | .readReq | .ack | .atomicAck | .atomic _ | .cnp => body.length == n
    | _ => true)

/-- The kinds that answer a requester. -/
def RoceKind.isResponse : RoceKind → Bool
  | .readRsp _ _ | .ack | .atomicAck => true
  | _ => false

/-! ### Building -/

/-- What a packet to be sent holds: destination QP, opcode, PSN, AckReq and solicited bits, extended headers, payload. -/
structure RoceTx where
  dqp : Nat
  op : Nat
  psn : Nat
  ackReq : Bool := false
  se : Bool := false
  ext : List Byte := []
  payload : List Byte := []
  dscp : Option Nat := none

/-- A frame of local QP `q` along a path record. -/
def roceFrame (path : List Byte) (q ident : Nat) (t : RoceTx) : List Byte :=
  let tos := fieldLE path 0xE 1
  let v6 := bit tos 6
  let vlan := fieldLE path 0xC 2
  let tag := if bit vlan 15 then [0x81, 0x00] ++ beBytes 2 (bits vlan 14 12 * 2 ^ 13 + bits vlan 11 0) else []
  let tc := 4 * (t.dscp.getD (tos % 64)) + 2
  let pad := (4 - t.payload.length % 4) % 4
  let mig := if Config.bthMig then 64 else 0
  let rest := beBytes 1 t.op ++ beBytes 1 (128 * b2n t.se + mig + 16 * pad) ++ [0xFF, 0xFF, 0] ++ beBytes 3 t.dqp
    ++ beBytes 1 (128 * b2n t.ackReq) ++ beBytes 3 t.psn ++ t.ext ++ t.payload ++ List.replicate pad 0
  let ulen := rest.length + 12
  let hop := sliceBytes path 0xF 1
  let sip := sliceBytes path 0x10 16
  let dip := sliceBytes path 0x20 16
  let sport := 0xC000 + ((q % 2 ^ 14) ^^^ (q / 2 ^ 14 % 2 ^ 10))
  let ip4 := [0x45] ++ beBytes 1 tc ++ beBytes 2 (20 + ulen) ++ beBytes 2 ident ++ [0x40, 0] ++ hop ++ [17, 0, 0] ++ sip.drop 12 ++ dip.drop 12
  let ip := if v6 then beBytes 4 (6 * 2 ^ 28 + tc * 2 ^ 20) ++ beBytes 2 ulen ++ [17] ++ hop ++ sip ++ dip
    else putAt ip4 10 (beBytes 2 (inetSum ip4))
  let udp0 := beBytes 2 sport ++ beBytes 2 4791 ++ beBytes 2 ulen ++ [0, 0]
  let crc := leBytes 4 (icrcOf v6 ip udp0 rest)
  let sum := inetSum (sip ++ dip ++ beBytes 4 ulen ++ [0, 0, 0, 17] ++ udp0 ++ rest ++ crc)
  let udp := if v6 then putAt udp0 6 (beBytes 2 (if sum = 0 then 0xFFFF else sum)) else udp0
  path.take 12 ++ tag ++ (if v6 then [0x86, 0xDD] else [0x08, 0x00]) ++ ip ++ udp ++ rest ++ crc

/-- Acknowledge extended header. -/
def aeth (syndrome msn : Nat) : List Byte := beBytes 1 syndrome ++ beBytes 3 msn

/-- Syndromes: acknowledgement without a credit count, RNR NAK with a timer code, NAKs. -/
def synAck : Nat := 0x1F
def synRnr (code : Nat) : Nat := 0x20 + code % 32
def synSeq : Nat := 0x60
def synInvalid : Nat := 0x61
def synAccess : Nat := 0x62
def synOp : Nat := 0x63

/-- RNR timer codes in units of 10 µs. -/
def rnrTens (code : Nat) : Nat :=
  ([65536, 1, 2, 3, 4, 6, 8, 12, 16, 24, 32, 48, 64, 96, 128, 192, 256, 384, 512, 768, 1024, 1536, 2048, 3072, 4096, 6144, 8192, 12288,
    16384, 24576, 32768, 49152] : List Nat).getD (code % 32) 0

/-- PSN arithmetic modulo 2^24. -/
def psn (n : Nat) : Nat := n % 2 ^ 24
def psnSub (a b : Nat) : Nat := (a + 2 ^ 24 - b % 2 ^ 24) % 2 ^ 24
/-- p is before e; p is after e. -/
def psnBefore (p e : Nat) : Bool := 1 ≤ psnSub e p && psnSub e p ≤ 2 ^ 23
def psnAfter (p e : Nat) : Bool := 1 ≤ psnSub p e && psnSub p e ≤ 2 ^ 23 - 1

end Sys2Proof.Machine
end

