-- ==== Sys2Proof/Machine/Qp.lean ====
section
/-! DEFINITION. Queue pairs: residency, the husk wait buffer, injection and pacing, flush and errors, and the requester
(13_rdma.md R336-R360). The responder is in Responder.lean. -/

namespace Sys2Proof.Machine

def rdmBase : Nat := 0x2800000

def State.qp (s : State) (q : Nat) : Option Qp := Store.get none s.rdm.qps q

def State.setQp (s : State) (q : Nat) (x : Option Qp) : State := { s with rdm := { s.rdm with qps := Store.put none s.rdm.qps q x } }

def State.modQp (s : State) (q : Nat) (f : Qp → Qp) : State :=
  match s.qp q with
  | some x => s.setQp q (some (f x))
  | none => s

def State.rdmCnt (s : State) (c : Nat) : State := s.bump R.RDM_CNT_count c

/-- The QPs that exist. -/
def State.qpList (s : State) : List (Nat × Qp) := s.rdm.qps.filterMap (fun p => p.2.map (fun x => (p.1, x)))

/-- Path MTU in bytes. -/
def Qp.mtu (x : Qp) : Nat := 128 * 2 ^ (x.flags % 8)

/-- The attributes that the preset supplies at the basic level (R360): timeout, retry_cnt, rnr_retry, min_rnr, cc_en. -/
def rdmPreset (p : Nat) : Nat × Nat × Nat × Nat × Bool :=
  if p = 1 then (12, 7, 7, 1, true) else if p = 2 then (14, 7, 7, 12, false) else (14, 7, 7, 12, true)

def State.rdmExpert (s : State) : Bool := s.expert rdmBase
def State.qpTimeout (s : State) (x : Qp) : Nat := if s.rdmExpert then x.timeout % 32 else (rdmPreset (s.preset rdmBase)).1
def State.qpRetry (s : State) (x : Qp) : Nat := if s.rdmExpert then x.retry % 8 else (rdmPreset (s.preset rdmBase)).2.1
def State.qpRnrRetry (s : State) (x : Qp) : Nat := if s.rdmExpert then x.retry / 8 % 8 else (rdmPreset (s.preset rdmBase)).2.2.1
def State.qpMinRnr (s : State) (x : Qp) : Nat := if s.rdmExpert then x.minRnr % 32 else (rdmPreset (s.preset rdmBase)).2.2.2.1
def State.qpCc (s : State) (x : Qp) : Bool := if s.rdmExpert then bit x.flags 6 else (rdmPreset (s.preset rdmBase)).2.2.2.2

/-! ### Residency (R345, R346) -/

/-- The husk of a QP: in HBM, in host memory, or nowhere, and its address (R344). -/
def State.huskPlace (s : State) (q : Nat) : Nat × Nat :=
  (s.rd R.RDM_HUSK_MAP_loc (q / 4096), s.rd R.RDM_HUSK_MAP_addr (q / 4096) * 2 ^ 21 + q % 4096 * 512)

/-- The backing chunk of a QP number is mapped. -/
def State.huskMapped (s : State) (q : Nat) : Bool := let l := s.rd R.RDM_HUSK_MAP_loc (q / 4096); l == 1 || l == 2

/-- A volume that names the QP dozes: its context is evictable at once (14_storage_queues.md R378). -/
def State.qpDozes (s : State) (q : Nat) : Bool :=
  match s.qpVol q with
  | some v => s.rd R.STQ_VOL_STATE_pstate v != 0
  | none => false

/-- The context may be evicted. -/
def Qp.evictable (x : Qp) : Bool := x.resident && !x.fetching && x.parked.isEmpty

/-- The context has been used within min_idle_us. -/
def State.qpRecent (s : State) (q : Nat) (x : Qp) : Bool :=
  !s.qpDozes q && s.time.ft < x.used + s.rd R.RDM_QP_CACHE_CFG_min_idle_us * unitsPerUs

/-- The least recently used of some contexts, one used recently only when all were. -/
def State.lruQp (s : State) (l : List (Nat × Qp)) : Option Nat :=
  let old := l.filter (fun p => !s.qpRecent p.1 p.2)
  let from_ := if old.isEmpty then l else old
  (from_.foldl (fun (m : Option (Nat × Qp)) p => match m with
    | some y => if p.2.used < y.2.used then some p else some y
    | none => some p) none).map (·.1)

/-- The context that a fetch for slice `sl` evicts (R345). -/
def State.victim (s : State) (sl : Nat) : Option Nat :=
  let ev := s.qpList.filter (fun p => p.2.evictable)
  let own := ev.filter (fun p => p.2.slice == sl)
  if own.isEmpty then s.lruQp (ev.filter (fun p => s.rd R.SLC_QUOTA_reserve p.2.slice 3 < s.inUse p.2.slice 3)) else s.lruQp own

/-- Write a context back as a husk (R346). -/
def State.evictQp (s : State) (q : Nat) : State :=
  match s.qp q with
  | none => s
  | some x =>
    let (i, s) := s.draw
    let b := (Config.husk q i ++ List.replicate 512 0).take 512
    let p := s.huskPlace q
    let s := if p.1 = 1 then (s.hbmWrite p.2 b).1 else (s.hostWrite 0 p.2 b).2
    let s := (s.setQp q (some { x with resident := false })).uncharge x.slice 3
    (s.wr R.RDM_QP_CACHE_STATUS_resident (s.rd R.RDM_QP_CACHE_STATUS_resident - 1)).rdmCnt 7

/-- Start the fetches that can run: a resident entry under R163 for the QP's slice, at most `fetch_max` at once. -/
def State.startFetches (s : State) : State :=
  s.rdm.wants.foldl (fun s q =>
    match s.qp q with
    | none => { s with rdm := { s.rdm with wants := s.rdm.wants.erase q } }
    | some x =>
      if s.rd R.RDM_QP_CACHE_STATUS_fetching < max (s.rd R.RDM_QP_CACHE_CFG_fetch_max) 1 ∧ s.allocStatus x.slice 3 = 0 then
        let s : State := { s with rdm := { s.rdm with wants := s.rdm.wants.erase q } }
        let s := (((s.charge x.slice 3).setQp q (some { x with fetching := true })).sat R.RDM_QP_CACHE_STATUS_fetching).rdmCnt 6
        if (s.huskPlace q).1 = 1 then s else s.wantHost (.husk q) 0 (s.huskPlace q).2 512
      else s) s

/-- Something needs the QP's context: it is there, or its fetch is asked for. -/
def State.needQp (s : State) (q : Nat) : Bool × State :=
  match s.qp q with
  | none => (false, s)
  | some x =>
    if x.resident then (true, s.setQp q (some { x with used := s.time.ft }))
    else if x.fetching || s.rdm.wants.contains q then (false, s.startFetches)
    else (false, ({ s with rdm := { s.rdm with wants := s.rdm.wants ++ [q] } } : State).startFetches)

/-- QP_EVICT: the context that a waiting fetch evicts, or the least recently used one of a slice that holds more than its
limit (06_slices.md R167). -/
def State.qpEvict (s : State) (q : Nat) : State :=
  match s.qp q with
  | none => s
  | some x =>
    let over_ := s.rd R.SLC_QUOTA_limit x.slice 3 < s.inUse x.slice 3
      && s.lruQp (s.qpList.filter (fun p => p.2.evictable && p.2.slice == x.slice)) == some q
    let wanted := s.rdm.wants.any (fun w => match s.qp w with
      | some y => s.allocStatus y.slice 3 != 0 && s.victim y.slice == some q
      | none => false)
    if x.evictable && (over_ || wanted) then (s.evictQp q).startFetches else s

/-! ### The husk wait buffer (R347, R348) -/

/-- Bytes and packets parked. -/
def State.parkedPkts (s : State) : List Pkt := s.qpList.flatMap (fun p => p.2.parked)

/-- Show the buffer's fill and set or release XOFF. -/
def State.hwbShow (s : State) : State :=
  let l := s.parkedPkts
  let s := (s.wr R.RDM_HWB_STATUS_packets l.length).wr R.RDM_HWB_STATUS_kib ((l.foldl (fun a k => a + k.frame.data.length) 0) / 1024)
  if s.rd R.RDM_HWB_CFG_xoff ≤ l.length then s.raise R.RDM_HWB_STATUS_xoff
  else if l.length ≤ s.rd R.RDM_HWB_CFG_xon ∧ s.on R.RDM_HWB_STATUS_xoff then
    let s := s.wr R.RDM_HWB_STATUS_xoff 0
    (s.prt.map (·.1)).foldl (fun s p => s.setLane p { s.lane p with hwbXoff := 0 }) s
  else s

/-- Park a packet of a QP, or drop it when the buffer is full. -/
def State.park (s : State) (q : Nat) (k : Pkt) : State :=
  let l := s.parkedPkts
  let bytes := l.foldl (fun a k => a + k.frame.data.length) 0
  if 8192 ≤ l.length ∨ 4 * 2 ^ 20 < bytes + k.frame.data.length then
    let s := s.rdmCnt 5
    let now := ftSec s.time.ft
    if s.rdm.fullSec = some now then s
    else ({ s with rdm := { s.rdm with fullSec := some now } } : State).event 0xB 0 2 (leBytes 4 q ++ leBytes 2 l.length ++ List.replicate 10 0)
  else
    let s := ((s.modQp q (fun x => { x with parked := x.parked ++ [k] })).rdmCnt 4).hwbShow
    if s.on R.RDM_HWB_STATUS_xoff ∧ k.frame.src < 64 then
      let ln := s.lane k.frame.src
      s.setLane k.frame.src { ln with hwbXoff := setBit ln.hwbXoff k.cls true }
    else s

/-! ### Injection and pacing (R358, R359) -/

/-- Send one packet of a QP: no earlier than its pace allows, into a pipeline with a class. -/
def State.inject (s : State) (q pipe cls : Nat) (path : List Byte) (t : RoceTx) (poison : Bool := false) : State :=
  match s.qp q with
  | none => s
  | some x =>
    let s := s.runTo x.pace
    let (i, s) := s.draw
    let d := roceFrame path q (Config.ipv4Id i) t
    let bits := (d.length + 4 + s.ac R.TM_CFG_ovh_bytes) * 8
    let wait : Rat := (((bits * 1000 * unitsPerNs : Nat) : Int) : Rat) / x.rc
    let s := s.modQp q (fun x => { x with pace := s.time.ft + wait.ceil.toNat, used := s.time.ft })
    let f : Frame := { data := d, src := 0x301, slice := x.slice, cls := some cls, poison := poison }
    (s.rdmCnt 1).toPipe pipe f

/-- Send a request packet. -/
def State.injectReq (s : State) (q : Nat) (x : Qp) (path : List Byte) (t : RoceTx) (poison : Bool := false) : State :=
  s.inject q (x.pipeCls % 16 % 8) (x.pipeCls / 16 % 8) path t poison

/-! ### Send queue entries -/

def Wqe.op (w : Wqe) : Nat := if w.own.isNone then 0x20 else dOpcode w.desc
def Wqe.atomic (w : Wqe) : Bool := w.op == 0x25 || w.op == 0x26
def Wqe.reads (w : Wqe) : Bool := w.op == 0x24 || w.atomic
def Wqe.len (w : Wqe) : Nat := if w.own.isNone then w.desc.length else if w.atomic then 8 else fieldLE w.desc 0x20 4
def Wqe.lkey (w : Wqe) : Nat := fieldLE w.desc 0x14 4
def Wqe.laddr (w : Wqe) : Nat := fieldLE w.desc 0x18 8
def Wqe.raddr (w : Wqe) : Nat := if w.atomic then fieldLE w.desc 0x20 8 else fieldLE w.desc 0x28 8
def Wqe.rkey (w : Wqe) : Nat := if w.atomic then fieldLE w.desc 0x28 4 else fieldLE w.desc 0x30 4
def Wqe.imm (w : Wqe) : Option Nat := if w.op = 0x21 ∨ w.op = 0x23 then some (fieldLE w.desc 0x24 4) else none
def Wqe.solicited (w : Wqe) : Bool := w.own.isSome && (w.op == 0x20 || w.op == 0x21) && bit (fieldLE w.desc 0 8) 10

/-- PSNs that an entry takes at a path MTU. -/
def Wqe.count (w : Wqe) (mtu : Nat) : Nat := if w.atomic then 1 else max 1 ((w.len + mtu - 1) / mtu)

/-- The completion of a data descriptor (table RDMA completions). -/
def Wqe.cpl (w : Wqe) (q status bytes syndrome : Nat) : Cpl :=
  { status := status, bytes := bytes, x12 := leBytes 2 syndrome, x18 := leBytes 4 q ++ leBytes 4 0 ++ leBytes 8 w.value }

/-- An entry leaves the send queue with a completion. -/
def State.wqeEnd (s : State) (q : Nat) (w : Wqe) (status bytes syndrome : Nat) : State :=
  let s := s.modQp q (fun x => { x with sq := x.sq.erase w })
  match w.own with
  | some (r, c) => s.finish r c (w.cpl q status bytes syndrome)
  | none => s

/-! ### Flush and errors (R352) -/

/-- QPs that name a receive ring. -/
def State.recvSharers (s : State) (r : Nat) : Nat := (s.qpList.filter (fun p => p.2.rqRing == r)).length

/-- The entries of the send queue that are left complete `qp_flushed` in order. -/
def State.flushSq (s : State) (q : Nat) : State :=
  match s.qp q with
  | none => s
  | some x => x.sq.foldl (fun s w => s.wqeEnd q w St.qp_flushed 0 0) s

/-- The RECVs of an unshared receive ring that are left complete `qp_flushed`. -/
def State.flushRq (s : State) (q : Nat) : State :=
  match s.qp q with
  | none => s
  | some x =>
    let mine := match x.msg with
      | some m => m.recv
      | none => none
    let s := match mine with
      | some (r, c) => s.finish r c { status := St.qp_flushed, x18 := leBytes 4 q }
      | none => s
    let s := s.modQp q (fun x => { x with msg := none })
    if s.recvSharers x.rqRing = 1 then
      match s.ring x.rqRing with
      | none => s
      | some r => (r.eng.flight.filter (fun g => g.performed && g.cpl.isNone && dOpcode g.desc == 0x27)).foldl
          (fun s g => s.finish x.rqRing g.count { status := St.qp_flushed, x18 := leBytes 4 q }) s
    else s

/-- The volume behind a QP that has left RTS freezes (14_storage_queues.md R380, cause 2). -/
def State.qpLeft (s : State) (q : Nat) : State :=
  match s.qpVol q with
  | some v => s.freeze v 2
  | none => s

/-- The QP enters ERR with a status. -/
def State.qpErr (s : State) (q status syndrome : Nat) : State :=
  match s.qp q with
  | none => s
  | some x =>
    if x.state = 5 then s
    else
      let s := s.setQp q (some { x with state := 5, lastStatus := status, syndrome := if syndrome = 0 then x.syndrome else syndrome, rtAt := none, rnrEnd := none })
      let s := s.sliceEvent 0xB 0 1 x.slice (leBytes 4 q ++ leBytes 2 status ++ leBytes 1 syndrome ++ List.replicate 9 0)
      (((s.flushSq q).flushRq q).qpLeft q).dropReads q

/-- The QP enters SQE: a UD send has failed locally (R351). -/
def State.qpSqe (s : State) (q status : Nat) : State :=
  ((s.modQp q (fun x => { x with state := 4, lastStatus := status })).flushSq q).qpLeft q

/-- An entry fails locally: it completes with the status, and the QP moves to ERR, or to SQE for a UD send. -/
def State.wqeFail (s : State) (q : Nat) (x : Qp) (w : Wqe) (status : Nat) (syndrome : Nat := 0) : State :=
  let acked := match w.psn with
    | some p => if psnAfter x.una p then psnSub x.una p * x.mtu else 0
    | none => 0
  let bytes := if w.reads then w.got else min acked w.len
  let s := s.wqeEnd q w status bytes syndrome
  if x.transport = 1 ∧ syndrome = 0 ∧ status ≠ St.local_prot then s.qpSqe q status else s.qpErr q status syndrome

/-! ### Transmitting (R350, R351) -/

/-- What came of an attempt to send a packet: sent, or the entry waits, or it has failed. -/
inductive Tx where
  | sent (s : State)
  | wait (s : State)
  | fail (s : State) (status : Nat)

/-- Bytes of a local buffer. -/
def State.localRead (s : State) (q : Nat) (x : Qp) (w : Wqe) (off n : Nat) : Got × Bool × State :=
  if w.own.isNone then (.ok (sliceBytes w.desc off n), false, s)
  else if n = 0 then (.ok [], false, s)
  else match s.keyCheck q x.slice x.pd w.lkey (w.laddr + off) n 0 with
    | none => (.fail St.local_prot, false, s)
    | some (i, m) => s.mrRead q i w.own m (w.laddr + off) n

/-- Start the read of a local buffer that `localRead` will wait for; whether it is on its way. -/
def State.localWant (s : State) (q : Nat) (x : Qp) (w : Wqe) (off n : Nat) : Bool × State :=
  if w.own.isNone || n == 0 then (false, s)
  else match s.keyCheck q x.slice x.pd w.lkey (w.laddr + off) n 0 with
    | none => (false, s)
    | some (i, m) =>
      let s := s.mrWant q i w.own m (w.laddr + off) n
      (s.mrReading q i w.own m (w.laddr + off) n, s)

/-- Extended header of a write or read: address, key, length. -/
def reth (va key len : Nat) : List Byte := beBytes 8 va ++ beBytes 4 key ++ beBytes 4 len

/-- Send packet `i` of a started RC entry. -/
def State.sendRc (s : State) (q : Nat) (x : Qp) (w : Wqe) (p i : Nat) : Tx :=
  let mtu := x.mtu
  let n := w.count mtu
  let first := i = 0
  let last := i + 1 = n
  let req := last || i % 16 == 15
  if w.op = 0x24 then
    let t : RoceTx := { dqp := x.destQpn, op := 0x0C, psn := p, ackReq := true, ext := reth (w.raddr + i * mtu) w.rkey (w.len - i * mtu) }
    .sent (s.injectReq q x x.path t)
  else if w.atomic then
    let e := beBytes 8 w.raddr ++ beBytes 4 w.rkey ++ beBytes 8 (fieldLE w.desc 0x30 8) ++ beBytes 8 (fieldLE w.desc 0x38 8)
    .sent (s.injectReq q x x.path { dqp := x.destQpn, op := if w.op = 0x25 then 0x13 else 0x14, psn := p, ackReq := true, ext := e })
  else
    match s.localRead q x w (i * mtu) (min mtu (w.len - i * mtu)) with
    | (.wait, _, s) => .wait s
    | (.fail st, _, s) => .fail s st
    | (.ok d, bad, s) =>
      let wr := w.op == 0x22 || w.op == 0x23
      let base := if wr then 6 else 0
      let k := if first && last then 4 else if first then 0 else if last then 2 else 1
      let im := match w.imm with
        | some v => if last then beBytes 4 v else []
        | none => []
      let op := base + k + (if im.isEmpty then 0 else 1)
      let e := (if wr && first then reth w.raddr w.rkey w.len else []) ++ im
      .sent (s.injectReq q x x.path { dqp := x.destQpn, op := op, psn := p, ackReq := req, se := w.solicited && last, ext := e, payload := d } bad)

/-- Send a UD entry along its address vector, read from the ring's memory (R351). -/
def State.sendUd (s : State) (q : Nat) (x : Qp) (w : Wqe) (p : Nat) : Tx :=
  match w.own with
  | none => .wait s
  | some (r, _) => match s.ring r with
    | none => .wait s
    | some rg =>
      let pre := if x.mtu < w.len then (false, s) else s.localWant q x w 0 w.len
      if pre.1 then .wait (if rg.mem then pre.2 else pre.2.wantHost (.av q w.own) x.slice (fieldLE w.desc 0x28 8) 64)
      else match pre.2.readFor (.av q w.own) x.slice rg.mem (fieldLE w.desc 0x28 8) 64 with
      | (.wait, s) => .wait s
      | (.fail st, s) => .fail s st
      | (.ok av, s) =>
        if x.mtu < w.len then .fail s St.local_len
        else if bit (fieldLE av 0xE 1) 7 ∨ fieldLE av 0x33 1 ≠ 0 ∨ (av.drop 0x38).any (· != 0) then .fail s St.bad_desc
        else match s.localRead q x w 0 w.len with
          | (.wait, _, s) => .wait s
          | (.fail st, _, s) => .fail s st
          | (.ok d, bad, s) =>
            let deth := beBytes 4 (fieldLE av 0x34 4) ++ [0] ++ beBytes 3 q
            let im := match w.imm with
              | some v => beBytes 4 v
              | none => []
            .sent (s.injectReq q x (av.take 48) { dqp := fieldLE av 0x30 3, op := if im.isEmpty then 0x64 else 0x65, psn := p, ackReq := false, se := w.solicited, ext := deth ++ im, payload := d } bad)

/-- Reads and atomics outstanding as requester. -/
def Qp.readsOut (x : Qp) : Nat := (x.sq.filter (fun w => w.reads && w.psn.isSome && !w.answered)).length

/-- The local sink of a read or atomic passes its check. -/
def State.sinkOk (s : State) (q : Nat) (x : Qp) (w : Wqe) : Bool :=
  !w.reads || w.len == 0 || (s.keyCheck q x.slice x.pd w.lkey w.laddr w.len accLocal).isSome

/-- Transmit what the QP may transmit: from the PSN where its transmitter stands, then entries not yet started. -/
def State.pumpQp (q : Nat) : Nat → State → State
  | 0, s => s
  | fuel + 1, s =>
    match s.qp q with
    | none => s
    | some x =>
      if x.state ≠ 3 ∨ x.resident = false ∨ x.rnrEnd.isSome then s
      else if x.tx ≠ x.next then
        match x.sq.find? (fun w => match w.psn with
          | some p0 => psnSub x.tx p0 < w.psns
          | none => false) with
        | none => s.setQp q (some { x with tx := x.next })
        | some w =>
          let p0 := w.psn.getD 0
          let i := psnSub x.tx p0
          let tx := if x.transport = 1 then s.sendUd q x w x.tx else s.sendRc q x w x.tx i
          match tx with
          | .wait s => s
          | .fail s st => s.wqeFail q x w st
          | .sent s =>
            let nx := if w.op = 0x24 then psn (p0 + w.psns) else psn (x.tx + 1)
            let again := psnBefore x.tx x.top
            let s := if again then s.rdmCnt 9 else s
            let s := s.modQp q (fun x => { x with tx := nx, top := if psnAfter nx x.top then nx else x.top, rtAt := if x.transport = 1 then none else if x.rtAt.isNone then some s.time.ft else x.rtAt })
            let s := if x.transport = 1 then (s.wqeEnd q w 0 w.len 0).modQp q (fun x => { x with una := nx }) else s
            State.pumpQp q fuel s
      else
        match x.sq.find? (·.psn.isNone) with
        | none => s
        | some w =>
          if w.reads ∧ x.maxRd % 16 + 1 ≤ x.readsOut then s
          else if s.sinkOk q x w = false then s.wqeFail q x w St.local_prot
          else
            let n := if x.transport = 1 then 1 else w.count x.mtu
            let w' := { w with psn := some x.next, psns := n }
            State.pumpQp q fuel (s.setQp q (some { x with sq := x.sq.map (fun y => if y = w then w' else y), next := psn (x.next + n) }))

/-- Packets and entries that a pump may have to go through. -/
def Qp.work (x : Qp) : Nat := x.sq.foldl (fun a w => a + w.count x.mtu + 1) 1

def State.pump (s : State) (q : Nat) : State :=
  match s.qp q with
  | some x => State.pumpQp q (x.work + 2 ^ 4) s
  | none => s

/-- Transmit for every QP whose send ring is `r`. -/
def State.pumpRing (s : State) (r : Nat) : State := (s.qpList.filter (fun p => p.2.sqRing == r)).foldl (fun s p => s.pump p.1) s

/-! ### Posting work (R336) -/

/-- A data or atomic descriptor is in order. -/
def rdmaDescOk (d : List Byte) : Bool :=
  let op := dOpcode d
  fieldLE d 0x13 1 == 0 && (if op = 0x25 ∨ op = 0x26 then
      fieldLE d 0x2C 4 == 0 && fieldLE d 0x18 8 % 8 == 0 && fieldLE d 0x20 8 % 8 == 0 && (op == 0x25 || fieldLE d 0x38 8 == 0)
    else fieldLE d 0x20 4 ≤ 2 ^ 31 && zeroFrom d 0x34)

/-- Append the next descriptor of opcode `op` to its QP's send queue and transmit (R336, R350). -/
def State.rdmaPost (s : State) (r op : Nat) : State :=
  (s.rdmaNext r op (fun _ g s =>
    let q := fieldLE g.desc 0x10 3
    if !rdmaDescOk g.desc then s.fail r g.count St.bad_desc
    else match s.qp q with
      | none => s.fail r g.count St.qp_ring
      | some x =>
        if x.sqRing ≠ r then s.fail r g.count St.qp_ring
        else if (s.qpVol q).isSome then s.fail r g.count St.stq_busy
        else
          let n := s.needQp q
          if !n.1 then n.2
          else
            let s := n.2
            if x.state = 5 ∨ x.state = 4 then s.fail r g.count St.qp_flushed
            else if x.state ≠ 3 ∨ (x.transport = 1 ∧ op ≠ 0x20 ∧ op ≠ 0x21) then s.fail r g.count St.qp_state
            else (s.performed r g.count).modQp q (fun x => { x with sq := x.sq ++ [{ own := some (r, g.count), desc := g.desc }] }))).pumpRing r

/-! ### Acknowledgements (R350) -/

/-- Entries at the front of the send queue that are wholly acknowledged complete. -/
def State.reap (q : Nat) : Nat → State → State
  | 0, s => s
  | fuel + 1, s =>
    match s.qp q with
    | none => s
    | some x => match x.sq with
      | [] => s
      | w :: _ => match w.psn with
        | none => s
        | some p =>
          let ends := psn (p + w.psns)
          let done := if w.reads then w.answered else ends == x.una || psnBefore ends x.una
          if done then State.reap q fuel (s.wqeEnd q w 0 w.len 0) else s

/-- Every PSN before `p` is acknowledged, but none from the first read or atomic without its response on; progress
restarts the timer and the counters. -/
def State.ackTo (s : State) (q p : Nat) : State :=
  match s.qp q with
  | none => s
  | some x =>
    let stop := x.sq.findSome? (fun w => if w.reads && !w.answered then w.psn.map (fun a => psn (a + w.got / x.mtu)) else none)
    let p := match stop with
      | some a => if psnAfter p a then a else p
      | none => p
    if psnAfter p x.una ∧ (p = x.top ∨ psnBefore p x.top) then
      let tx := if psnBefore x.tx p then p else x.tx
      State.reap q (x.sq.length + 1) (s.setQp q (some { x with una := p, tx := tx, retries := 0, rnrs := 0, rtAt := if p = x.top then none else some s.time.ft }))
    else s

/-- Retransmit from `p`, counting against `retry_cnt` (R350); `syndrome` is that of the NAK that asks for it, 0 for none. -/
def State.retransmit (s : State) (q p syndrome : Nat) : State :=
  match s.qp q with
  | none => s
  | some x =>
    if s.qpRetry x ≤ x.retries then
      match x.sq with
      | w :: _ => s.wqeFail q x w St.retry_exceeded syndrome
      | [] => s.qpErr q St.retry_exceeded syndrome
    else (s.setQp q (some { x with retries := x.retries + 1, tx := p, rtAt := some s.time.ft })).pump q

/-- The oldest unacknowledged entry fails with what the responder reported. -/
def State.remoteError (s : State) (q status syndrome : Nat) : State :=
  match s.qp q with
  | none => s
  | some x => match x.sq with
    | w :: _ => s.wqeFail q x w status syndrome
    | [] => s.qpErr q status syndrome

/-- An AETH for PSN `p` arrives. -/
def State.takeAeth (s : State) (q p syndrome : Nat) : State :=
  let s := if syndrome < 0x20 then s else s.modQp q (fun x => { x with syndrome := syndrome })
  if syndrome < 0x20 then ((s.ackTo q (psn (p + 1))).pump q)
  else
    let s := s.ackTo q p
    if syndrome < 0x40 then
      match s.qp q with
      | none => s
      | some x =>
        if s.qpRnrRetry x ≠ 7 ∧ s.qpRnrRetry x ≤ x.rnrs then s.remoteError q St.rnr_exceeded syndrome
        else s.setQp q (some { x with rnrs := x.rnrs + 1, tx := p, rnrEnd := some (s.time.ft + rnrTens syndrome * 10 * unitsPerUs), rtAt := none })
    else if syndrome = synSeq then s.retransmit q p syndrome
    else if syndrome = synInvalid then s.remoteError q St.remote_invalid syndrome
    else if syndrome = synAccess then s.remoteError q St.remote_access syndrome
    else if syndrome = synOp then s.remoteError q St.remote_op syndrome
    else s

/-- Data of a read response or the result of an atomic goes into the local region (R354). -/
def State.sinkWrite (s : State) (q : Nat) (x : Qp) (w : Wqe) (off : Nat) (d : List Byte) (bad : Bool) : Got × State :=
  if d.isEmpty then (.ok [], s)
  else if (match w.own with
    | some (r, c) => (s.lateOf r c).isSome
    | none => false) then (.ok [], s.lateDrop)
  else match s.keyCheck q x.slice x.pd w.lkey (w.laddr + off) d.length accLocal with
    | none => (.fail St.local_prot, s)
    | some (i, m) => s.mrWrite i m (w.laddr + off) d bad

/-- What came of a packet: it is done with, or it must wait for a translation or for data that it reads. -/
inductive Rx where
  | done (s : State)
  | wait (s : State)

/-- A response arrives at the requester; what it brings for an aborted entry is discarded (07_rings.md R203). -/
def State.takeResponse (s : State) (q : Nat) (x : Qp) (k : RoceKind) (p : Roce) : Rx :=
  let syn := (p.body.head?.map (·.toNat)).getD 0
  match k with
  | .ack => .done (s.takeAeth q p.psn syn)
  | .readRsp _ _ =>
    match x.sq.find? (fun w => w.op == 0x24 && w.psn.isSome && !w.answered) with
    | none => .done s
    | some w =>
      let at_ := psnSub p.psn (w.psn.getD 0)
      if at_ * x.mtu ≠ w.got then .done s
      else
        let d := (p.body.drop (extLen k)).take (w.len - w.got)
        match s.sinkWrite q x w w.got d false with
        | (.wait, s) => .wait s
        | (.fail st, s) => .done (s.wqeFail q x w st)
        | (.ok _, s) =>
          let n := at_ + 1
          let w' := { w with got := w.got + d.length, answered := n == w.psns }
          let s := s.modQp q (fun x => { x with sq := x.sq.map (fun y => if y = w then w' else y) })
          .done ((s.ackTo q (psn (p.psn + 1))).pump q)
  | .atomicAck =>
    match x.sq.find? (fun w => w.atomic && w.psn == some p.psn && !w.answered) with
    | none => .done s
    | some w =>
      let v := beNat (sliceBytes p.body 4 8)
      match s.sinkWrite q x w 0 (leBytes 8 v) false with
      | (.wait, s) => .wait s
      | (.fail st, s) => .done (s.wqeFail q x w st)
      | (.ok _, s) =>
        let w' := { w with value := v, answered := true, got := 8 }
        let s := s.modQp q (fun x => { x with sq := x.sq.map (fun y => if y = w then w' else y) })
        .done ((s.ackTo q (psn (p.psn + 1))).pump q)
  | _ => .done s

/-- RETRANSMIT_TIMEOUT (R350). -/
def State.rtTimeout (s : State) (q : Nat) : State :=
  match s.qp q with
  | none => s
  | some x => match x.rtAt with
    | none => s
    | some t =>
      let code := s.qpTimeout x
      if code = 0 ∨ x.state ≠ 3 ∨ x.una = x.top then s
      else
        let s := s.runTo (t + 4096 * 2 ^ code * unitsPerNs)
        let n := s.needQp q
        if n.1 then (n.2.rdmCnt 10).retransmit q x.una 0 else n.2

/-- RNR_TIMER (R350). -/
def State.rnrTimer (s : State) (q : Nat) : State :=
  match s.qp q with
  | none => s
  | some x => match x.rnrEnd with
    | none => s
    | some t =>
      let s := s.runTo t
      let n := s.needQp q
      if n.1 then (n.2.modQp q (fun x => { x with rnrEnd := none, rtAt := some s.time.ft })).pump q else n.2

/-! ### Reaction point (R358) -/

/-- Rate floor and ceiling in Mb/s. -/
def State.rateMin (s : State) : Rat := ((s.ac R.RDM_CC_CFG_rate_min_mbps : Nat) : Int)
def State.rateMax (s : State) : Rat := ((s.ac R.RDM_CC_RATE_rate_max_mbps : Nat) : Int)

/-- The gain 2^-g_shift. -/
def State.gain (s : State) : Rat := 1 / (((2 ^ s.ac R.RDM_CC_CFG_g_shift : Nat) : Int) : Rat)

/-- A CNP has arrived for a QP. -/
def State.react (s : State) (q : Nat) : State :=
  match s.qp q with
  | none => s
  | some x =>
    let near := match x.reactAt with
      | some t => s.time.ft < t + s.ac R.RDM_CC_CFG_cnp_gap_us * unitsPerUs
      | none => false
    if !s.qpCc x || near then s
    else
      let cut := x.rc * (1 - x.alpha / 2)
      s.setQp q (some { x with rt := x.rc, rc := if cut < s.rateMin then s.rateMin else cut, alpha := x.alpha + s.gain * (1 - x.alpha), steps := 0, reactAt := some s.time.ft, incAt := s.time.ft })

/-- CC_INCREASE: inc_us without a reaction. -/
def State.ccIncrease (s : State) (q : Nat) : State :=
  match s.qp q with
  | none => s
  | some x =>
    if !s.qpCc x then s
    else
      let s := s.runTo (x.incAt + s.ac R.RDM_CC_CFG_inc_us * unitsPerUs)
      let n := x.steps + 1
      let up := x.rt + ((s.ac R.RDM_CC_CFG_rai_mbps : Nat) : Int)
      let rt := if 5 < n then (if s.rateMax < up then s.rateMax else up) else x.rt
      let mid := (rt + x.rc) / 2
      s.setQp q (some { x with alpha := x.alpha * (1 - s.gain), steps := n, rt := rt, rc := if s.rateMax < mid then s.rateMax else mid, incAt := s.time.ft })

def execRdmaSend (r : Fin 65536) (s : State) : Out := s.whenMain (·.rdmaPost r 0x20)
def execRdmaSendImm (r : Fin 65536) (s : State) : Out := s.whenMain (·.rdmaPost r 0x21)
def execRdmaWrite (r : Fin 65536) (s : State) : Out := s.whenMain (·.rdmaPost r 0x22)
def execRdmaWriteImm (r : Fin 65536) (s : State) : Out := s.whenMain (·.rdmaPost r 0x23)
def execRdmaRead (r : Fin 65536) (s : State) : Out := s.whenMain (·.rdmaPost r 0x24)
def execCmpSwap (r : Fin 65536) (s : State) : Out := s.whenMain (·.rdmaPost r 0x25)
def execFetchAdd (r : Fin 65536) (s : State) : Out := s.whenMain (·.rdmaPost r 0x26)
def execRetransmitTimeout (q : Fin 262144) (s : State) : Out := s.whenMain (·.rtTimeout q)
def execRnrTimer (q : Fin 262144) (s : State) : Out := s.whenMain (·.rnrTimer q)
def execQpEvict (q : Fin 262144) (s : State) : Out := s.whenMain (·.qpEvict q)
def execCcIncrease (q : Fin 262144) (s : State) : Out := s.whenMain (·.ccIncrease q)

end Sys2Proof.Machine
end

