-- ==== Sys2Proof/Machine/Responder.lean ====
section
/-! DEFINITION. The responder and the reception of RoCEv2 packets (13_rdma.md R333, R337, R347, R349, R353, R358; the table
Responder handling). -/

namespace Sys2Proof.Machine

/-- Answer a packet: into the pipeline that admitted it, with its class (R359). -/
def State.reply (s : State) (q : Nat) (x : Qp) (k : Pkt) (t : RoceTx) (poison : Bool := false) : State :=
  s.inject q k.lane k.cls x.path { t with dqp := x.destQpn } poison

/-- An ACK of PSN `p`. -/
def State.sendAck (s : State) (q : Nat) (x : Qp) (k : Pkt) (p : Nat) : State :=
  let msn := match s.qp q with
    | some y => y.msn
    | none => x.msn
  s.reply q x k { dqp := 0, op := 0x11, psn := p, ext := aeth synAck msn }

/-- A NAK with PSN `p`. -/
def State.sendNak (s : State) (q : Nat) (x : Qp) (k : Pkt) (p syndrome : Nat) : State :=
  let s := s.reply q x k { dqp := 0, op := 0x11, psn := p, ext := aeth syndrome x.msn }
  let s := if syndrome = synSeq then s.rdmCnt 8 else if syndrome = synAccess then s.rdmCnt 12
    else if syndrome < 0x40 then s.rdmCnt 11 else s
  s.modQp q (fun x => { x with syndrome := syndrome })

/-- A NAK that takes the QP to ERR (R349). -/
def State.nakErr (s : State) (q : Nat) (x : Qp) (k : Pkt) (p syndrome status : Nat) : State :=
  (s.sendNak q x k p syndrome).qpErr q status syndrome

/-- What a packet needs of the receive queue: the RECV of the message in progress or the next one (R337), for a storage QP
one of the engine's own buffers (14_storage_queues.md R365). The RECV of a message may have been aborted (07_rings.md R203). -/
inductive Buf where
  | recv (r c : Nat) (lkey laddr len : Nat)
  | gone (r c : Nat)
  | capsule (v : Nat)
  | none_
  deriving DecidableEq, Repr

def State.recvBufOf (s : State) (q : Nat) (x : Qp) (held : Option (Nat × Nat)) : Buf :=
  let of := fun (r : Nat) (g : Flight) => Buf.recv r g.count (fieldLE g.desc 0x10 4) (fieldLE g.desc 0x18 8) (fieldLE g.desc 0x14 4)
  match held with
  | some (r, c) => match s.flight r c with
    | some g => if g.cpl.isSome then .gone r c else of r g
    | none => .gone r c
  | none =>
    match s.qpVol q with
    | some v => match s.vol v with
      | some y => if (s.stq.rsps.filter (·.vol == v)).length < y.depth then .capsule v else .none_
      | none => .none_
    | none => match s.ring x.rqRing with
      | none => .none_
      | some rg => match rg.firstPosted 0x27 with
        | some g => of x.rqRing g
        | none => .none_

/-- A RECV completes (table RDMA completions). -/
def State.recvDone (s : State) (q r c status bytes : Nat) (imm : Option Nat) (ud solicited wimm : Bool) (srcQp : Nat) (k : Pkt) : State :=
  let fl := b2n imm.isSome + 2 * b2n ud + 4 * b2n solicited + 8 * b2n wimm
  s.finish r c { status := status, bytes := bytes, x12 := leBytes 2 fl, x18 := leBytes 4 q ++ leBytes 4 srcQp ++ leBytes 4 (imm.getD 0) ++ leBytes 2 k.frame.src }

/-- An NVMe-oF response capsule of 16 bytes (the NVMe standard's completion entry): dword 0, command identifier and status field. -/
def capsuleRsp (v : Nat) (d : List Byte) : StqRsp :=
  { vol := v, slot := fieldLE d 12 2, status := fieldLE d 14 2 / 2, dw0 := fieldLE d 0 4, wellFormed := d.length == 16 }

/-- The packet at e is done with: e and, at the end of a message, the message count advance. -/
def State.expectNext (s : State) (q n : Nat) (last : Bool) (m : Option RxMsg) : State :=
  s.modQp q (fun x => { x with epsn := psn (x.epsn + n), msn := if last then psn (x.msn + 1) else x.msn, msg := m, nakFor := none })

/-- Acknowledge the last packet of a message and any with AckReq. -/
def State.ackIf (s : State) (q : Nat) (x : Qp) (k : Pkt) (p : Roce) (last : Bool) : State :=
  if last || p.ackReq then s.sendAck q x k p.psn else s

/-- The payload's size fits its place in the message. -/
def sizeOk (mtu n : Nat) (first last : Bool) : Bool := if last then n ≤ mtu && (first || 0 < n) else n == mtu

/-- A send packet at e. -/
def State.rxSend (s : State) (q : Nat) (x : Qp) (k : Pkt) (p : Roce) (first last immed : Bool) : Rx :=
  let d := p.body.drop (if immed then 4 else 0)
  let imm := if immed then some (beNat (p.body.take 4)) else none
  let inMsg := match x.msg with
    | some m => !m.write
    | none => false
  if (first && x.msg.isSome) || (!first && !inMsg) || !sizeOk x.mtu d.length first last then
    .done (s.nakErr q x k p.psn synInvalid St.remote_invalid)
  else
    let m := x.msg.getD { write := false }
    match s.recvBufOf q x m.recv with
    | .none_ => .done (s.sendNak q x k p.psn (synRnr (s.qpMinRnr x)))
    | .capsule v =>
      let s : State := { s with stq := { s.stq with rsps := s.stq.rsps ++ [capsuleRsp v d] } }
      if first && last && d.length ≤ 64 then .done ((s.expectNext q 1 true none).ackIf q x k p true)
      else .done (s.nakErr q x k p.psn synInvalid St.remote_invalid)
    | .gone r c =>
      let s := if last then s.finish r c { status := 0 } else s.lateDrop
      .done ((s.expectNext q 1 last (if last then none else some { m with got := m.got + d.length })).ackIf q x k p last)
    | .recv r c lkey laddr len =>
      if len < m.got + d.length then
        let s := s.recvDone q r c St.local_len m.got none false false false 0 k
        .done ((s.modQp q (fun x => { x with msg := none })).nakErr q x k p.psn synInvalid St.remote_invalid)
      else
        let wrote : Got × State := if d.isEmpty then (.ok [], s) else
          match s.keyCheck q x.slice x.pd lkey (laddr + m.got) d.length accLocal with
          | none => (.fail St.local_prot, s)
          | some (i, rg) => s.mrWrite i rg (laddr + m.got) d false
        match wrote with
        | (.wait, s) => .wait s
        | (.fail st, s) =>
          let s := s.recvDone q r c st m.got none false false false 0 k
          .done ((s.modQp q (fun x => { x with msg := none })).qpErr q st 0)
        | (.ok _, s) =>
          let got := m.got + d.length
          if last then
            let s := s.recvDone q r c 0 got imm false p.se false 0 k
            .done ((s.expectNext q 1 true none).ackIf q x k p true)
          else
            let s := s.report r c got
            .done ((s.expectNext q 1 false (some { m with recv := some (r, c), got := got })).ackIf q x k p false)

/-- A write packet at e. -/
def State.rxWrite (s : State) (q : Nat) (x : Qp) (k : Pkt) (p : Roce) (first last immed : Bool) : Rx :=
  let h := if first then 16 else 0
  let imm := if immed then some (beNat (sliceBytes p.body h 4)) else none
  let d := p.body.drop (h + if immed then 4 else 0)
  let inMsg := match x.msg with
    | some m => m.write
    | none => false
  let m : RxMsg := if first then { write := true, va := beNat (p.body.take 8), rkey := beNat (sliceBytes p.body 8 4), total := beNat (sliceBytes p.body 12 4) }
    else x.msg.getD { write := true }
  let fits := if last then m.got + d.length == m.total else m.got + d.length < m.total
  if (first && x.msg.isSome) || (!first && !inMsg) || !sizeOk x.mtu d.length first last || !fits || 2 ^ 31 < m.total then
    .done (s.nakErr q x k p.psn synInvalid St.remote_invalid)
  else
    let whole := m.total == 0 || (bit x.flags 4 && (s.keyCheck q x.slice x.pd m.rkey m.va m.total accWrite).isSome)
    let part := s.keyCheck q x.slice x.pd m.rkey (m.va + m.got) d.length accWrite
    if !whole || (!d.isEmpty && part.isNone) then .done (s.nakErr q x k p.psn synAccess St.remote_access)
    else
      let buf := if immed then s.recvBufOf q x none else Buf.recv 0 0 0 0 0
      match buf with
      | .none_ => .done (s.sendNak q x k p.psn (synRnr (s.qpMinRnr x)))
      | _ =>
        let wrote : Got × State := match part with
          | some (i, rg) => if d.isEmpty then (.ok [], s) else s.mrWrite i rg (m.va + m.got) d false
          | none => (.ok [], s)
        match wrote with
        | (.wait, s) => .wait s
        | (.fail st, s) => .done (s.nakErr q x k p.psn synOp st)
        | (.ok _, s) =>
          let got := m.got + d.length
          let s := match immed, buf with
            | true, .recv r c _ _ _ => s.recvDone q r c 0 got imm false p.se true 0 k
            | _, _ => s
          .done ((s.expectNext q 1 last (if last then none else some { m with got := got })).ackIf q x k p last)

/-- The responses of a READ: address and length of the data of each. -/
def chunks (mtu : Nat) : Nat → Nat → Nat → List (Nat × Nat)
  | 0, _, _ => []
  | fuel + 1, a, n => if n = 0 then [] else (a, min n mtu) :: chunks mtu fuel (a + min n mtu) (n - min n mtu)

/-- The data of a READ's responses, taken in order; none: wait. -/
def State.takeChunks (s : State) (q i : Nat) (m : Mr) : List (Nat × Nat) → Option (Except Nat (List (List Byte × Bool))) × State
  | [] => (some (.ok []), s)
  | c :: cs =>
    match s.mrRead q i none m c.1 c.2 with
    | (.wait, _, s) => (none, s)
    | (.fail st, _, s) => (some (.error st), s)
    | (.ok d, bad, s) => match s.takeChunks q i m cs with
      | (some (.ok l), s) => (some (.ok ((d, bad) :: l)), s)
      | r => r

/-- Read what a READ asks for: every read is started, and the data is taken once all of it is there; none: wait. -/
def State.readChunks (s : State) (q i : Nat) (m : Mr) (mtu n va len : Nat) : Option (Except Nat (List (List Byte × Bool))) × State :=
  let cs := chunks mtu n va len
  let s := cs.foldl (fun s c => s.mrWant q i none m c.1 c.2) s
  if cs.any (fun c => s.mrReading q i none m c.1 c.2) then (none, s) else s.takeChunks q i m cs

/-- Record an executed read or atomic: the last `max_rd` are kept. -/
def Qp.remember (x : Qp) (p n : Nat) (v : Option Nat) : Qp :=
  let l := x.cache ++ [(p, n, v)]
  { x with cache := l.drop (l.length - (x.maxRd / 16 % 16 + 1)) }

/-- A READ request with PSN `p`: executed now, or again. The Bool says that it is at e. -/
def State.rxRead (s : State) (q : Nat) (x : Qp) (k : Pkt) (p : Roce) (fresh : Bool) : Rx :=
  let va := beNat (p.body.take 8)
  let key := beNat (sliceBytes p.body 8 4)
  let len := beNat (sliceBytes p.body 12 4)
  let n := max 1 ((len + x.mtu - 1) / x.mtu)
  let access := bit x.flags 3 && (len == 0 || (s.keyCheck q x.slice x.pd key va len accRead).isSome)
  if fresh && x.msg.isSome || 2 ^ 31 < len then .done (s.nakErr q x k p.psn synInvalid St.remote_invalid)
  else if !access then .done (s.nakErr q x k p.psn synAccess St.remote_access)
  else
    let r := if len = 0 then (some (Except.ok [([], false)]), s) else s.readChunks q (key / 256) (s.mr (key / 256)) x.mtu n va len
    match r with
    | (none, s) => .wait s
    | (some (.error st), s) => .done (s.nakErr q x k p.psn synOp st)
    | (some (.ok l), s) =>
      let s := if fresh then (s.expectNext q n true none).modQp q (·.remember p.psn n none) else s
      let msn := match s.qp q with
        | some y => y.msn
        | none => x.msn
      .done (l.zipIdx.foldl (fun s c =>
        let i := c.2
        let op := if n = 1 then 0x10 else if i = 0 then 0x0D else if i + 1 = n then 0x0F else 0x0E
        s.reply q x k { dqp := 0, op := op, psn := psn (p.psn + i), ext := if op = 0x0E then [] else aeth synAck msn, payload := c.1.1 } c.1.2) s)

/-- The response of an atomic. -/
def State.atomicReply (s : State) (q : Nat) (x : Qp) (k : Pkt) (p v : Nat) : State :=
  let msn := match s.qp q with
    | some y => y.msn
    | none => x.msn
  s.reply q x k { dqp := 0, op := 0x12, psn := p, ext := aeth synAck msn ++ beBytes 8 v }

/-- An atomic at e (R353): read, compute, write, in one step. -/
def State.rxAtomic (s : State) (q : Nat) (x : Qp) (k : Pkt) (p : Roce) (cmp : Bool) : Rx :=
  let va := beNat (p.body.take 8)
  let key := beNat (sliceBytes p.body 8 4)
  let v1 := beNat (sliceBytes p.body 12 8)
  let v2 := beNat (sliceBytes p.body 20 8)
  if x.msg.isSome || va % 8 != 0 then .done (s.nakErr q x k p.psn synInvalid St.remote_invalid)
  else if !bit x.flags 5 then .done (s.nakErr q x k p.psn synAccess St.remote_access)
  else match s.keyCheck q x.slice x.pd key va 8 accAtomic with
    | none => .done (s.nakErr q x k p.psn synAccess St.remote_access)
    | some (i, m) => match s.mrRead q i none m va 8 with
      | (.wait, _, s) => .wait s
      | (.fail st, _, s) => .done (s.nakErr q x k p.psn synOp st)
      | (.ok d, bad, s) =>
        if bad then .done (s.nakErr q x k p.psn synOp St.mem_uncorr)
        else
          let old := leNat d
          let new := if cmp then (if old = v2 then v1 else old) else (old + v1) % 2 ^ 64
          match s.mrWrite i (s.mr i) va (leBytes 8 new) false with
          | (.wait, s) => .wait s
          | (.fail st, s) => .done (s.nakErr q x k p.psn synOp st)
          | (.ok _, s) => .done (((s.expectNext q 1 true none).modQp q (·.remember p.psn 1 (some old))).atomicReply q x k p.psn old)

/-- A UD packet (R351). -/
def State.rxUd (s : State) (q : Nat) (x : Qp) (k : Pkt) (p : Roce) (immed : Bool) : Rx :=
  let key := beNat (p.body.take 4)
  let src := beNat (sliceBytes p.body 5 3)
  let imm := if immed then some (beNat (sliceBytes p.body 8 4)) else none
  let d := p.ipHdr ++ p.body.drop (8 + if immed then 4 else 0)
  if key ≠ x.qkey then .done (s.rdmCnt 15)
  else match s.recvBufOf q x none with
    | .recv r c lkey laddr len =>
      if len < d.length then .done (s.recvDone q r c St.local_len 0 none true false false src k)
      else match s.keyCheck q x.slice x.pd lkey laddr d.length accLocal with
        | none => .done ((s.recvDone q r c St.local_prot 0 none true false false src k).qpErr q St.local_prot 0)
        | some (i, m) => match s.mrWrite i m laddr d false with
          | (.wait, s) => .wait s
          | (.fail st, s) => .done ((s.recvDone q r c st 0 none true false false src k).qpErr q st 0)
          | (.ok _, s) => .done (s.recvDone q r c 0 d.length imm true p.se false src k)
    | _ => .done (s.rdmCnt 15)

/-- A request packet of an RC QP, by its PSN (table Responder handling). -/
def State.rxRequest (s : State) (q : Nat) (x : Qp) (k : Pkt) (p : Roce) (kind : RoceKind) : Rx :=
  if p.psn = x.epsn then
    match kind with
    | .send first last imm => s.rxSend q x k p first last imm
    | .write first last imm => s.rxWrite q x k p first last imm
    | .readReq => s.rxRead q x k p true
    | .atomic cmp => s.rxAtomic q x k p cmp
    | _ => .done s
  else if psnBefore p.psn x.epsn then
    match kind with
    | .send _ _ _ | .write _ _ _ => .done (s.sendAck q x k (psn (x.epsn + 2 ^ 24 - 1)))
    | .readReq => s.rxRead q x k p false
    | .atomic _ => match x.cache.find? (·.1 == p.psn) with
      | some (_, _, some v) => .done (s.atomicReply q x k p.psn v)
      | _ => .done s
    | _ => .done s
  else if x.nakFor = some x.epsn then .done s
  else .done ((s.modQp q (fun y => { y with nakFor := some x.epsn })).sendNak q x k x.epsn synSeq)

/-- A CNP toward the sender of a packet that arrived with ECN CE (R358). -/
def State.noteCe (s : State) (q : Nat) (x : Qp) (k : Pkt) : State :=
  let due : Bool := match x.cnpAt with
    | some t => t + s.ac R.RDM_NP_CFG_cnp_np_us * unitsPerUs ≤ s.time.ft
    | none => true
  if s.ac R.RDM_NP_CFG_np_en == 1 && due then
    let s := s.modQp q (fun x => { x with cnpAt := some s.time.ft })
    let t : RoceTx := { dqp := x.destQpn, op := 0x81, psn := 0, ext := List.replicate 16 0, dscp := some (s.ac R.RDM_NP_CFG_cnp_dscp) }
    (s.inject q k.lane (s.ac R.RDM_NP_CFG_cnp_class) x.path t).rdmCnt 13
  else s

/-- A packet for a resident QP. -/
def State.rxPacket (s : State) (q : Nat) (k : Pkt) (p : Roce) (kind : RoceKind) : Rx :=
  match s.qp q with
  | none => .done (s.rdmCnt 3)
  | some x =>
    let ud := match kind with
      | .ud _ => true
      | _ => false
    if x.state ≤ 1 then .done (s.rdmCnt 3)
    else if x.state = 5 then .done s
    else if kind = .cnp then .done ((s.rdmCnt 14).react q)
    else if ud != (x.transport == 1) then .done (s.rdmCnt 2)
    else
      let r := match kind with
        | .ud imm => s.rxUd q x k p imm
        | _ => if kind.isResponse then (if x.state = 3 then s.takeResponse q x kind p else .done s) else s.rxRequest q x k p kind
      match r with
      | .done s => .done (if p.ce && x.transport == 0 then s.noteCe q x k else s)
      | .wait s => .wait s

/-! ### From the output queues -/

/-- The class that the round robin serves next (11_switch_core.md, table Schedulers). -/
def State.rdmaPick (s : State) : Option (Nat × Pkt) :=
  ((List.range 8).map (fun i => (s.swc.rdmClass + i) % 8)).findSome? (fun c => (s.headFull (584 + c)).map (fun k => (c, k)))

/-- The frame at the head of a class of the RDMA engine's queues is taken. -/
def State.rdmaTaken (s : State) (c : Nat) : State :=
  ((({ s with swc := { s.swc with rdmClass := (c + 1) % 8 } } : State).rdmCnt 0).consume (584 + c) true)

/-- A packet to QP 1 goes on, unchanged, to `gsi_dest` with reason 0x0010; 0 drops it (R333). -/
def State.toGsi (s : State) (c : Nat) (k : Pkt) : State :=
  let d := s.rd R.RDM_GSI_CFG_gsi_dest
  let s := s.modStored k.sid (fun f => { f with copies := f.copies + 1 })
  let s := s.rdmaTaken c
  let k := { k with dest := d, reason := 0x10 }
  let (ts, s) := if s.destOk d then s.targets k else ([], s)
  let s := ts.foldl (fun s t => match queueOf t k.cls, s.stored k.sid with
    | some qn, some f =>
      let id := s.swc.nextId
      let f' : Stored := { f with id := id, pkt := { k with sid := id, frame := { k.frame with send := none } }, charged := 0, copies := 1, mirrors := 0, qs := [] }
      let used := f.banks.foldl (fun m b => Store.put 0 m b (Store.get 0 m b + 1)) s.swc.bankUsed
      let s : State := { s with swc := { s.swc with stored := s.swc.stored ++ [f'], nextId := id + 1, bankUsed := used } }
      (s.enqueue id qn false).setDepth qn (s.qDepth qn + f.banks.length)
    | _, _ => s) s
  s.lessCopy k.sid false

/-- What the RDMA engine makes of a frame: a packet in order with its kind, one for QP 1, or a bad one. -/
inductive RxClass where
  | good (p : Roce) (k : RoceKind)
  | gsi
  | bad
  deriving DecidableEq, Repr

def rxClass (k : Pkt) : RxClass :=
  match roceOf k.frame.data with
  | none => .bad
  | some p => match roceKind p.op with
    | none => .bad
    | some kd => if !p.ok || p.pkey % 32768 != 0x7FFF || p.tver != 0 || !shapeOk kd p.body || k.frame.bad || k.frame.poison then .bad
      else if p.dqp = 1 then .gsi else .good p kd

/-- The next packet of the kinds that a command takes: requests and everything that is refused, responses, or CNPs. -/
inductive RxSel where
  | request | response | cnp
  deriving DecidableEq, Repr

def RxClass.sel : RxClass → RxSel
  | .good _ .cnp => .cnp
  | .good _ k => if k.isResponse then .response else .request
  | _ => .request

/-- Take the next packet of the RDMA engine's queues when it is of the selected kind. -/
def State.rdmaRx (s : State) (sel : RxSel) : State :=
  match s.rdmaPick with
  | none => s
  | some (c, k) =>
    let cl := rxClass k
    if cl.sel ≠ sel then s
    else match cl with
      | .bad => (s.rdmaTaken c).rdmCnt 2
      | .gsi => s.toGsi c k
      | .good p kd =>
        match s.qp p.dqp with
        | none => (s.rdmaTaken c).rdmCnt 3
        | some x =>
          if x.resident && x.parked.isEmpty then
            match (s.needQp p.dqp).2.rxPacket p.dqp k p kd with
            | .done s => s.rdmaTaken c
            | .wait s => s
          else ((s.rdmaTaken c).needQp p.dqp).2.park p.dqp k

/-- Parked packets of a resident QP are processed in order, up to one that must wait. -/
def State.unpark (q : Nat) : Nat → State → State
  | 0, s => s
  | fuel + 1, s =>
    match s.qp q with
    | none => s
    | some x => match x.parked with
      | [] => s
      | k :: l => match rxClass k with
        | .good p kd => match s.rxPacket q k p kd with
          | .done s => State.unpark q fuel (s.modQp q (fun x => { x with parked := l }))
          | .wait s => s
        | _ => State.unpark q fuel (s.modQp q (fun x => { x with parked := l }))

/-- HUSK_FETCH_DONE (R344, R345, R347): the husk is read, the parked packets are processed, other fetches start. A husk that
cannot be read moves the QP to ERR with the status. -/
def State.fetchDone (s : State) (q : Nat) : State :=
  match s.qp q with
  | none => s
  | some x =>
    let done := fun (s : State) =>
      let s := s.modQp q (fun x => { x with resident := true, fetching := false, used := s.time.ft })
      (s.wr R.RDM_QP_CACHE_STATUS_fetching (s.rd R.RDM_QP_CACHE_STATUS_fetching - 1)).wr R.RDM_QP_CACHE_STATUS_resident (s.rd R.RDM_QP_CACHE_STATUS_resident + 1)
    let go := fun (s : State) => ((State.unpark q (x.parked.length + 1) s).hwbShow.pump q).startFetches
    if x.fetching then
      let p := s.huskPlace q
      if p.1 = 1 then
        let r := s.hbmRead p.2 512
        go (if r.status = 0 then done r.next else (done r.next).qpErr q r.status 0)
      else match s.hostRead (.husk q) 0 p.2 512 with
        | (.wait, s) => s
        | (.fail st, s) => go ((done s).qpErr q st 0)
        | (.ok _, s) => go (done s)
    else if x.resident then go s
    else s

/-- The RDMA engine goes on for a QP whose read has ended: parked packets, the packet that waits at the head of the engine's
queues, and what the QP may transmit. A QP that takes no data any more drops it. -/
def State.wakeQp (s : State) (q : Nat) : State :=
  match s.qp q with
  | none => s.dropReads q
  | some x =>
    if x.state ≤ 1 ∨ x.state = 5 then s.dropReads q
    else if x.resident = false then s
    else
      let s := if x.parked.isEmpty then s else (State.unpark q (x.parked.length + 1) s).hwbShow
      let s := match s.rdmaPick with
        | some (_, k) => match rxClass k with
          | .good p kd => if p.dqp = q && (RxClass.good p kd).sel == RxSel.request then s.rdmaRx .request else s
          | _ => s
        | none => s
      s.pump q

def execRocePacketRx (s : State) : Out := s.whenMain (·.rdmaRx .request)
def execAckRx (s : State) : Out := s.whenMain (·.rdmaRx .response)
def execCnpRx (s : State) : Out := s.whenMain (·.rdmaRx .cnp)
def execHuskFetchDone (q : Fin 262144) (s : State) : Out := s.whenMain (·.fetchDone q)

end Sys2Proof.Machine
end

