-- ==== Sys2Proof/Machine/Rdma.lean ====
section
/-! DEFINITION. Queue pair control and posted receives (13_rdma.md R337, R341-R343, R360). -/

namespace Sys2Proof.Machine

/-- RECV posts a receive buffer (R337). -/
def State.recvPost (s : State) (r : Nat) : State :=
  s.rdmaNext r 0x27 (fun _ g s =>
    let n := fieldLE g.desc 0x14 4
    if n = 0 ∨ 2 ^ 31 < n ∨ zeroFrom g.desc 0x20 = false then s.fail r g.count St.bad_desc else s.performed r g.count)

/-- Bytes [a, b) of a record are 0. -/
def zeroIn (d : List Byte) (a n : Nat) : Bool := (sliceBytes d a n).all (· == 0)

/-- The reserved fields of a QP attribute record are 0. -/
def qpRecOk (b : List Byte) : Bool :=
  fieldLE b 6 2 < 128 && fieldLE b 0x20 1 < 32 && fieldLE b 0x21 1 < 64 && fieldLE b 0x22 1 < 32 && zeroIn b 0x25 3 && fieldLE b 0x28 4 < 4096
    && zeroIn b 0x2C 4 && fieldLE b 0x3E 1 < 128 && zeroIn b 0x74 12

/-- A work or receive ring of a slice. -/
def State.ringFor (s : State) (r slice : Nat) (recv : Bool) : Bool :=
  match s.ring r with
  | some x => x.slice == slice && (if recv then x.recvRing else x.workRing)
  | none => false

/-- The QP that a create record describes. -/
def State.newQp (s : State) (b : List Byte) (slice : Nat) : Qp :=
  { slice := slice, transport := fieldLE b 5 1, pd := fieldLE b 8 4, sqRing := fieldLE b 0x1C 2, rqRing := fieldLE b 0x1E 2
    pipeCls := fieldLE b 0x24 1, rc := s.rateMax, rt := s.rateMax, used := s.time.ft, incAt := s.time.ft }

/-- Lowest free QP number from 2 on whose backing chunk is mapped (R341). -/
def State.freeQpn (s : State) : Option Nat :=
  let used := (s.qpList).map (·.1)
  (List.range 64).findSome? (fun c =>
    if s.huskMapped (4096 * c) then
      let lo := if c = 0 then 2 else 4096 * c
      let q := lowestFree (used.filter (fun q => q / 4096 == c)) lo
      if q < 4096 * (c + 1) then some q else none
    else none)

/-- A resident entry for a slice: one allowed by R163, or that of an evicted context. -/
def State.entryFor (s : State) (slice : Nat) : Option State :=
  if s.allocStatus slice 3 = 0 then some (s.charge slice 3)
  else match s.victim slice with
    | some v => let t := s.evictQp v; if t.allocStatus slice 3 = 0 then some (t.charge slice 3) else none
    | none => none

/-- QP_CREATE (R341). -/
def State.qpCreate (s : State) (r : Nat) : State :=
  s.rdmaNext r 0x28 (fun x g s0 =>
    let s := s0
    if !ctlOk g.desc false then s.fail r g.count St.bad_desc
    else match s.readFor (.work r g.count) g.slice x.mem (fieldLE g.desc 0x10 8) 128 with
      | (.wait, s) => s
      | (.fail st, s) => s.fail r g.count st
      | (.ok b, s) =>
        let n := s.newQp b g.slice
        if !qpRecOk b || 1 < n.transport || 128 ≤ n.pipeCls || 7 < n.pipeCls % 16 || !s.ringFor n.sqRing g.slice false || !s.ringFor n.rqRing g.slice true then
          s.fail r g.count St.qp_attr
        else
          let st := s.allocStatus g.slice 2
          if st ≠ 0 then s.fail r g.count st
          else match s.freeQpn with
            | none => s.fail r g.count St.qp_nohusk
            | some q => match s.entryFor g.slice with
              | none => s0
              | some s =>
                let s := (s.charge g.slice 2).setQp q (some n)
                (s.wr R.RDM_QP_CACHE_STATUS_resident (s.rd R.RDM_QP_CACHE_STATUS_resident + 1)).finish r g.count { status := 0, x18 := leBytes 4 q })

/-- A transition of the table QP states is legal. -/
def qpMove (a b transport : Nat) : Bool :=
  match a, b with
  | 0, 1 => true
  | 1, 2 => true
  | 2, 3 => true
  | 4, 3 => transport == 1
  | 1, 5 | 2, 5 | 3, 5 | 4, 5 => true
  | 1, 0 | 2, 0 | 3, 0 | 4, 0 | 5, 0 => true
  | _, _ => false

/-- Mask bits that a transport uses: all but qkey for RC; sq_psn, MTU and qkey for UD (DEDUCED, log entry 29). -/
def qpMaskUsed (transport : Nat) : Nat := if transport = 0 then 0xBFF else 0x428

/-- Mask bits that a transition requires (R342). -/
def qpMaskNeed (a b transport : Nat) (expert : Bool) : Nat :=
  match a, b with
  | 1, 2 => if transport = 0 then 0x36 else 0x400
  | 2, 3 => if transport = 0 then (if expert then 0xC8 else 8) else 8
  | _, _ => 0

/-- The masked attributes of a record are in range. -/
def qpAttrOk (b : List Byte) (m : Nat) : Bool :=
  (!bit m 1 || fieldLE b 0x0F 1 == 0) && (!bit m 2 || fieldLE b 0x17 1 == 0) && (!bit m 3 || fieldLE b 0x13 1 == 0)
    && (!bit m 5 || (1 ≤ fieldLE b 6 2 % 8 && fieldLE b 6 2 % 8 ≤ 5))

/-- The masked attributes of a record (table QP attribute record). -/
def Qp.attrs (x : Qp) (b : List Byte) (m : Nat) : Qp :=
  let pick := fun (i : Nat) (new old : Nat) => if bit m i then new else old
  let fl := fieldLE b 6 2
  { x with
    flags := pick 5 (fl % 8) (x.flags % 8) + 8 * pick 0 (fl / 8 % 8) (x.flags / 8 % 8) + 64 * pick 11 (fl / 64 % 2) (x.flags / 64 % 2)
    destQpn := pick 1 (fieldLE b 0xC 3) x.destQpn
    rqPsn := pick 2 (fieldLE b 0x14 3) x.rqPsn
    sqPsn := pick 3 (fieldLE b 0x10 3) x.sqPsn
    path := if bit m 4 then sliceBytes b 0x30 48 else x.path
    timeout := pick 6 (fieldLE b 0x20 1) x.timeout
    retry := pick 7 (fieldLE b 0x21 1) x.retry
    minRnr := pick 8 (fieldLE b 0x22 1) x.minRnr
    maxRd := pick 9 (fieldLE b 0x23 1) x.maxRd
    qkey := pick 10 (fieldLE b 0x18 4) x.qkey }

/-- What entering a state sets up. -/
def State.qpEnter (s : State) (x : Qp) (st : Nat) : Qp :=
  if st = 2 then { x with state := 2, epsn := x.rqPsn, msn := 0, nakFor := none, msg := none, cache := [] }
  else if st = 3 then
    (if x.state = 4 then { x with state := 3 }
     else { x with state := 3, next := x.sqPsn, tx := x.sqPsn, top := x.sqPsn, una := x.sqPsn, rc := s.rateMax, rt := s.rateMax, alpha := 1, steps := 0, incAt := s.time.ft })
  else { x with state := st }

/-- The QP that a control descriptor names on its own send ring (R336); otherwise the status. -/
def State.ctlQp (s : State) (r q : Nat) : Except Nat Qp :=
  match s.qp q with
  | none => .error St.qp_ring
  | some x => if x.sqRing = r then .ok x else .error St.qp_ring

/-- QP_MODIFY (R342, R352, R360). -/
def State.qpModify (s : State) (r : Nat) : State :=
  s.rdmaNext r 0x29 (fun rg g s =>
    let q := fieldLE g.desc 0x18 4
    if !ctlOk g.desc true then s.fail r g.count St.bad_desc
    else match s.ctlQp r q with
      | .error st => s.fail r g.count st
      | .ok x =>
        let n := s.needQp q
        if !n.1 then n.2
        else match n.2.readFor (.work r g.count) g.slice rg.mem (fieldLE g.desc 0x10 8) 128 with
          | (.wait, s) => s
          | (.fail st, s) => s.fail r g.count st
          | (.ok b, s) =>
            let nst := fieldLE b 4 1
            let m0 := fieldLE b 0x28 4
            let ex := s.rdmExpert
            let m := if ex then m0 else m0 - (m0 &&& 0x9C0)
            let need := qpMaskNeed x.state nst x.transport ex
            if !qpMove x.state nst x.transport then s.fail r g.count St.qp_state
            else if !qpRecOk b || m &&& qpMaskUsed x.transport != m || m &&& need != need || !qpAttrOk b m then s.fail r g.count St.qp_attr
            else
              let s := s.modQp q (·.attrs b m)
              let s :=
                if nst = 5 then s.qpErr q 0 0
                else if nst = 0 then
                  let s := ((s.flushSq q).flushRq q).qpLeft q
                  s.modQp q (fun x => { s.newQp [] x.slice with transport := x.transport, pd := x.pd, sqRing := x.sqRing, rqRing := x.rqRing, pipeCls := x.pipeCls, resident := x.resident, fetching := x.fetching, parked := x.parked })
                else s.modQp q (fun x => s.qpEnter x nst)
              (s.finish r g.count { status := 0 }).startFetches)

/-- The attribute record of a QP (table QP attribute record). -/
def State.qpRecord (s : State) (q : Nat) (x : Qp) : List Byte :=
  leBytes 4 q ++ leBytes 1 x.state ++ leBytes 1 x.transport ++ leBytes 2 x.flags ++ leBytes 4 x.pd ++ leBytes 4 x.destQpn ++ leBytes 4 x.sqPsn
    ++ leBytes 4 x.rqPsn ++ leBytes 4 x.qkey ++ leBytes 2 x.sqRing ++ leBytes 2 x.rqRing ++ leBytes 1 (s.qpTimeout x)
    ++ leBytes 1 (s.qpRetry x + 8 * s.qpRnrRetry x) ++ leBytes 1 (s.qpMinRnr x) ++ leBytes 1 x.maxRd ++ leBytes 1 x.pipeCls ++ leBytes 3 0
    ++ leBytes 8 0 ++ x.path ++ leBytes 4 x.top ++ leBytes 4 x.epsn ++ leBytes 4 (psnSub x.top x.una) ++ leBytes 4 x.rc.floor.toNat
    ++ leBytes 1 (b2n x.resident) ++ leBytes 1 x.syndrome ++ leBytes 2 x.lastStatus ++ leBytes 12 0

/-- QP_QUERY. -/
def State.qpQuery (s : State) (r : Nat) : State :=
  s.rdmaNext r 0x2A (fun rg g s =>
    let q := fieldLE g.desc 0x18 4
    if !ctlOk g.desc true then s.fail r g.count St.bad_desc
    else match s.ctlQp r q with
      | .error st => s.fail r g.count st
      | .ok _ =>
        let n := s.needQp q
        if !n.1 then n.2
        else match n.2.qp q with
          | none => n.2
          | some x => match n.2.writeFor g.slice rg.mem (fieldLE g.desc 0x10 8) (n.2.qpRecord q x) with
            | (.wait, s) => s
            | (.fail st, s) => s.fail r g.count st
            | (.ok _, s) => s.finish r g.count { status := 0 })

/-- A QP ceases to exist: its number returns to pool 2 and its resident entry to pool 3 (R343). -/
def State.qpGone (s : State) (q : Nat) (x : Qp) : State :=
  let s := (((s.setQp q none).dropReads q).dropJobs (·.for_ == .husk q)).uncharge x.slice 2
  let s := if x.resident then (s.uncharge x.slice 3).wr R.RDM_QP_CACHE_STATUS_resident (s.rd R.RDM_QP_CACHE_STATUS_resident - 1)
    else if x.fetching then (s.uncharge x.slice 3).wr R.RDM_QP_CACHE_STATUS_fetching (s.rd R.RDM_QP_CACHE_STATUS_fetching - 1) else s
  s.hwbShow.startFetches

/-- QP_DESTROY (R343). -/
def State.qpDestroy (s : State) (r : Nat) : State :=
  s.rdmaNext r 0x2B (fun _ g s =>
    let q := fieldLE g.desc 0x18 4
    if !ctlOk g.desc true || fieldLE g.desc 0x10 8 != 0 then s.fail r g.count St.bad_desc
    else match s.ctlQp r q with
      | .error st => s.fail r g.count st
      | .ok x =>
        if (x.state = 0 ∨ x.state = 5) ∧ x.sq.isEmpty then (s.qpGone q x).finish r g.count { status := 0 }
        else s.fail r g.count St.qp_state)

def execRecv (r : Fin 65536) (s : State) : Out := s.whenMain (·.recvPost r)
def execQpCreate (r : Fin 65536) (s : State) : Out := s.whenMain (·.qpCreate r)
def execQpModify (r : Fin 65536) (s : State) : Out := s.whenMain (·.qpModify r)
def execQpQuery (r : Fin 65536) (s : State) : Out := s.whenMain (·.qpQuery r)
def execQpDestroy (r : Fin 65536) (s : State) : Out := s.whenMain (·.qpDestroy r)

/-- REVOKE_DONE: every permitted access through a closing region has landed; its waiter completes, the index is freed and
its variant advances (R355, R356). -/
def State.revokeDone (s : State) (i : Nat) : State :=
  let m := s.mr i
  if m.state ≠ 2 then s
  else match s.mrLanded i with
    | (none, s) => s
    | (some st, s) =>
      let s := s.mrFree i
      match m.waiter with
      | .alone => s
      | .ring r c => s.finish r c { status := st }
      | .stq v slot => s.stqKeyGone v slot

def execRevokeDone (i : Fin 1048576) (s : State) : Out := s.whenMain (·.revokeDone i)

end Sys2Proof.Machine
end

