-- ==== Sys2Proof/Machine/Stq.lean ====
section
/-! DEFINITION. Storage command queues: volumes' commands, starting a command at its backend, its answer and its timeout,
power states (14_storage_queues.md R362-R383). -/

namespace Sys2Proof.Machine

/-! ### Set-up commands (R362, R364, R382) -/

/-- The 64 bytes of STQ_VOL_STAGE. -/
def State.volStage (s : State) : List Byte := (List.range 8).flatMap (fun j => leBytes 8 (s.rd R.STQ_VOL_STAGE_rec j))

def State.volCmdDone (s : State) (status : Nat) : State := s.wr R.STQ_CMD_STATUS_status status

/-- Rings that name a volume. -/
def State.volQueues (s : State) (v : Nat) : List (Nat × Ring) :=
  s.rng.rings.filterMap (fun p => match p.2 with
    | some x => if x.type = 4 ∧ x.target % 4096 = v then some (p.1, x) else none
    | none => none)

/-- Check 2 of R362 without the error log's place. -/
def volLegal (b : List Byte) : Bool :=
  let cap := fieldLE b 0 8
  let sh := fieldLE b 0xA 1
  let mb := fieldLE b 0xC 4
  let dp := fieldLE b 0x18 2
  1 ≤ cap && cap ≤ 2 ^ 48 && fieldLE b 8 2 < 4096 && (sh == 9 || sh == 12) && fieldLE b 0xB 1 ≤ 2 && 1 ≤ mb && mb ≤ 65536
    && mb * 2 ^ sh ≤ 2 ^ 24 && 1 ≤ dp && dp ≤ 1024 && fieldLE b 0x1A 2 != 0 && zeroIn b 0x24 4 && zeroIn b 0x30 16 && fieldLE b 0x28 8 % 4096 == 0

/-- The error log lies in the slice's memory. -/
def State.elogPlace (s : State) (x : Vol) : Option State :=
  if s.inHbm x.slice x.elogAddr then s.claimHbm x.slice x.elogAddr 4096 else some s

/-- Check 4 of R362: the backend is valid. -/
def State.backendOk (s : State) (x : Vol) : Bool :=
  match x.backend with
  | 0 => (match s.qp x.bref with
    | some q => q.slice == 0 && q.transport == 0 && q.state == 3 && (s.qpVol x.bref).isNone
    | none => false)
  | 1 => (match s.ring x.bref with
    | some r => r.state == 1 && r.type == 5 && r.slice == 0
    | none => false)
  | _ => s.sliceSock x.slice == some x.bref

/-- CREATE (R362). -/
def State.volCreate (s : State) (v : Nat) : State :=
  let b := s.volStage
  let x : Vol := { rcd := b, idleAt := s.time.ft }
  if s.volState v ≠ 0 then s.volCmdDone St.stq_vol_state
  else if !volLegal b then s.volCmdDone St.stq_vol_attr
  else match s.elogPlace x with
    | none => s.volCmdDone St.stq_vol_attr
    | some t =>
      if !s.sliceActive x.slice then s.volCmdDone St.slice_state
      else if !s.backendOk x then s.volCmdDone St.stq_backend_ref
      else
        let t := ((t.setVol v (some x)).wr R.STQ_VOL_STATE_state 1 v).sat R.STQ_STATUS_volumes
        ((t.wr R.STQ_VOL_STATE_pstate 0 v).wr R.STQ_VOL_STATE_cause 0 v).volCmdDone 0

/-- The fields that MODIFY may change, zeroed: bref, depth, cmd_timeout_ms, idle1_ms, idle2_ms, exit2_us. -/
def volFixed (b : List Byte) : List Byte := putAt b 0x14 (List.replicate 16 0)

/-- MODIFY (R364). -/
def State.volModify (s : State) (v : Nat) : State :=
  let b := s.volStage
  match s.vol v with
  | none => s.volCmdDone St.stq_vol_state
  | some x =>
    if s.volState v ≠ 2 then s.volCmdDone St.stq_vol_state
    else if volFixed b != volFixed x.rcd || !volLegal b then s.volCmdDone St.stq_vol_attr
    else (s.setVol v (some { x with rcd := b })).volCmdDone 0

/-- DESTROY (R364). -/
def State.volDestroy (s : State) (v : Nat) : State :=
  match s.vol v with
  | none => s.volCmdDone St.stq_vol_state
  | some x =>
    if (s.volQueues v).isEmpty ∧ x.cmds.isEmpty then
      let s := ((s.setVol v none).wr R.STQ_VOL_STATE_state 0 v).wr R.STQ_STATUS_volumes (s.rd R.STQ_STATUS_volumes - 1)
      ((s.wr R.STQ_VOL_STATE_pstate 0 v).wr R.STQ_VOL_STATE_cause 0 v).volCmdDone 0
    else s.volCmdDone St.stq_busy

/-- READ (R364). -/
def State.volRead (s : State) (v : Nat) : State :=
  match s.vol v with
  | none => s.volCmdDone St.stq_vol_state
  | some x => ((List.range 8).foldl (fun s j => s.wr R.STQ_VOL_STAGE_rec (fieldLE x.rcd (8 * j) 8) j) s).volCmdDone 0

/-- RESTART begins: it waits until no command of the volume is in flight (R382). -/
def State.volRestart (s : State) (v : Nat) (flush : Bool) : State :=
  if s.volState v ≠ 2 then s.volCmdDone St.stq_vol_state
  else { s.raise R.STQ_CMD_STATUS_busy with stq := { s.stq with restart := some (v, flush) } }

/-- A write of STQ_CMD. -/
def State.stqCmd (s : State) (val : Nat) : State :=
  let s := s.putReg false R.reg_STQ_CMD 0 0 0 val
  let v := bits val 11 0
  if bit val 31 && !s.on R.STQ_CMD_STATUS_busy then
    match bits val 30 28 with
    | 1 => s.volCreate v
    | 2 => s.volModify v
    | 3 => s.volRestart v (bit val 27)
    | 4 => s.volDestroy v
    | 5 => s.volRead v
    | _ => s.volCmdDone St.stq_vol_state
  else s

def stqOp (o : Nat) : Bool := 0x30 ≤ o && o ≤ 0x35

/-- Commands of a queue that have not been started. -/
def Ring.unstarted (x : Ring) : List Flight := x.eng.flight.filter (fun g => !g.performed && g.cpl.isNone && stqOp (dOpcode g.desc))

/-- VOL_RESTART_RESUME (R382). -/
def State.restartResume (s : State) : State :=
  match s.stq.restart with
  | none => s
  | some (v, flush) => match s.vol v with
    | none => s
    | some x =>
      if !x.cmds.isEmpty then s
      else
        let qs := s.volQueues v
        let s := if flush then
            let s := qs.foldl (fun s q => q.2.unstarted.foldl (fun s g => s.stqFinish v q.1 g.count { status := St.stq_flushed }) s) s
            { s with stq := { s.stq with flushTo := s.stq.flushTo.filter (fun f => !qs.any (fun q => q.1 == f.1)) ++ qs.map (fun q => (q.1, q.2.tail)) } }
          else s
        let s : State := { s with stq := { s.stq with restart := none } }
        let s := s.modVol v (fun x => { x with wakeAt := none, wakeNote := none, wakeAcked := false, wakeFor := none, idleAt := s.time.ft })
        let s := ((s.wr R.STQ_VOL_STATE_state 1 v).wr R.STQ_VOL_STATE_pstate 0 v).wr R.STQ_VOL_STATE_cause 0 v
        (s.wr R.STQ_CMD_STATUS_busy 0).volCmdDone 0

/-! ### Notices to a backend -/

/-- Send a MGMT message to a module; its id. -/
def State.sendMgmt (s : State) (n code arg : Nat) : Nat × State :=
  let k := s.sock n
  let id := k.msgId
  let s := s.setSock n { k with msgId := (id + 1) % 65536, acks := k.acks ++ [(id, code)] }
  (id, s.sendTxn n { vc := 3, data := txnHeader 0x31 code 0 id 0 arg })

/-- Post a descriptor of the storage engine to a flow-core ring (R370): its count, or none while the ring has no room or is
not ACTIVE. -/
def State.postWork (s : State) (r op : Nat) (body : List Byte) : Option (Nat × State) :=
  match s.ring r with
  | none => none
  | some x =>
    if x.state ≠ 1 ∨ x.type ≠ 5 ∨ x.size ≤ cdiff x.tail x.cpl then none
    else
      let h := op + 2 ^ 16 + s.sliceGen 0 * 2 ^ 34
      let d := leBytes 8 h ++ leBytes 8 0 ++ (body ++ List.replicate 48 0).take 48
      let s := (s.writeFor x.slice x.mem (x.entry x.tail) d).2
      some (x.tail, match s.ring r with
        | some x => s.dbPost r x (cnt (x.tail + 1))
        | none => s)

/-- A power notice to the backend of a volume (R370, R371): new power state 2 SLEEP, 0 awake; the notice's number. -/
def State.powerNotice (s : State) (v : Nat) (x : Vol) (pstate : Nat) : Option (Nat × State) :=
  if x.backend = 1 then
    (s.postWork x.bref 0x49 (leBytes 1 pstate)).map (fun p =>
      (p.1, { p.2 with stq := { p.2.stq with posted := p.2.stq.posted ++ [(x.bref, p.1, v, 0xFFFF)] } }))
  else if x.backend = 2 then some (s.sendMgmt x.bref (if pstate = 2 then 1 else 2) v)
  else none

/-! ### Starting a command (R366, R368-R371, R375, R376) -/

def cNblocks (d : List Byte) : Nat := fieldLE d 0x14 4
def cLba (d : List Byte) : Nat := fieldLE d 0x18 8
def cBuf (d : List Byte) : Nat := fieldLE d 0x20 8
def cFua (d : List Byte) : Bool := bit (fieldLE d 0x10 2) 0

/-- A FLUSH waits for every earlier WRITE, WRITE_ZEROES and DEALLOCATE of its queue (R376). -/
def Ring.flushWaits (x : Ring) (g : Flight) : Bool :=
  x.eng.flight.any (fun e => before e.count g.count && e.cpl.isNone && [0x31, 0x33, 0x34].contains (dOpcode e.desc))

/-- The command of a queue that starts next: in ring order, but a FLUSH that waits does not hold later ones. -/
def Ring.nextCmd (x : Ring) : Option Flight := x.unstarted.find? (fun g => !(dOpcode g.desc == 0x32 && x.flushWaits g))

/-- The checks of R366; the state has the buffer's pages charged. -/
def State.cmdCheck (s : State) (x : Vol) (rg : Ring) (slice : Nat) (d : List Byte) : Except Nat State :=
  let op := dOpcode d
  let n := cNblocks d
  let none_ := op = 0x32 ∨ op = 0x35
  let rw := op = 0x30 ∨ op = 0x31
  if fieldLE d 0x10 2 / (if rw then 2 else 1) ≠ 0 ∨ fieldLE d 0x12 2 ≠ 0 ∨ zeroFrom d 0x28 = false then .error St.bad_desc
  else if (none_ ∧ n ≠ 0) ∨ (¬ none_ ∧ (n = 0 ∨ x.maxBlocks < n)) then .error St.stq_len
  else if x.capacity < cLba d + n then .error St.stq_lba_range
  else if rw ∨ op = 0x35 then
    let bytes := if op = 0x35 then 64 else n * 2 ^ x.shift
    if rg.mem then (match s.claimHbm slice (cBuf d) bytes with
      | some s => .ok s
      | none => .error St.stq_buf)
    else if (s.sliceFn slice).isSome ∧ cBuf d + bytes ≤ 2 ^ 64 then .ok s else .error St.stq_buf
  else .ok s

/-- The submission queue entry of a command (the NVMe standard's layout, PRESUMED, log entry 11). -/
def State.sqe (s : State) (x : Vol) (slot : Nat) (d : List Byte) (key : Option Nat) : List Byte :=
  let op := dOpcode d
  let code := if op = 0x30 then 2 else if op = 0x31 then 1 else if op = 0x32 then 0 else if op = 0x33 then 8 else 9
  let dptr := match key with
    | some i => leBytes 8 (cBuf d) ++ leBytes 3 (cNblocks d * 2 ^ x.shift) ++ leBytes 4 (s.mrKey i) ++ leBytes 1 0x40
    | none => if op = 0x34 then (Config.dsmPointer s.free ++ List.replicate 16 0).take 16 else List.replicate 16 0
  let cdw := if op = 0x32 then leBytes 12 0
    else if op = 0x34 then leBytes 4 0 ++ leBytes 4 4 ++ leBytes 4 0
    else leBytes 8 (cLba d) ++ leBytes 4 (cNblocks d - 1 + if cFua d then 2 ^ 30 else 0)
  leBytes 1 code ++ leBytes 1 0x40 ++ leBytes 2 slot ++ leBytes 4 x.nsid ++ leBytes 16 0 ++ dptr ++ cdw ++ leBytes 12 0

/-- Lowest slot that no command holds; on a socket, whose answers name the slot alone, none of any of its volumes. -/
def State.freeSlot (s : State) (x : Vol) : Nat :=
  let mine := x.cmds.map (·.slot)
  let other := if x.backend = 2 then (s.volsOf 2 x.bref).flatMap (fun v => (s.vol v).elim [] (fun y => y.cmds.map (·.slot))) else []
  lowestFree (mine ++ other) 0

/-- The core of a flow-core ring is fenced. -/
def State.ringCoreFenced (s : State) (r : Nat) : Bool :=
  match s.ring r with
  | some x => s.fencedUnit 1 (bits x.target 11 6)
  | none => true

/-- Issue a command to its backend; none: it must wait. A backend that is gone freezes the volume. -/
def State.issueCmd (s : State) (v : Nat) (x : Vol) (r : Nat) (rg : Ring) (g : Flight) : State :=
  let slot := s.freeSlot x
  let d := g.desc
  let op := dOpcode d
  let start := fun (s : State) (key : Option Nat) =>
    let s := s.modVol v (fun x => { x with cmds := x.cmds ++ [{ slot := slot, ring := r, count := g.count, issued := s.time.ft, key := key }] })
    ((s.wr R.STQ_VOL_STATE_pstate 0 v).stqCnt 0).performed r g.count
  match x.backend with
  | 0 =>
    match s.qp x.bref with
    | none => s.freeze v 2
    | some q =>
      if q.state ≠ 3 then s.freeze v 2
      else
        let send := fun (s : State) (key : Option Nat) =>
          let b := s.sqe x slot d key
          let s := (start { s with free := s.free + 1 } key).modQp x.bref (fun q => { q with sq := q.sq ++ [{ own := none, desc := b }] })
          (s.needQp x.bref).2.pump x.bref
        if op = 0x30 ∨ op = 0x31 then
          let m : Mr := { state := 1, va := cBuf d, length := cNblocks d * 2 ^ x.shift, target := cBuf d, pd := q.pd, kind := b2n rg.mem, access := if op = 0x30 then accWrite else accRead, slice := 0, via := g.slice }
          match s.mrAdd 0 m with
          | .error _ => s
          | .ok (i, s) => send (s.stqCnt 9) (some i)
        else send s none
  | 1 =>
    if (s.ring x.bref).elim true (·.state != 1) || s.ringCoreFenced x.bref then s.freeze v 5
    else
      let body := leBytes 2 v ++ leBytes 1 op ++ leBytes 1 (fieldLE d 0x10 1) ++ leBytes 4 (cNblocks d) ++ leBytes 8 (cLba d) ++ leBytes 8 (cBuf d)
        ++ leBytes 2 x.slice ++ leBytes 2 slot
      match s.postWork x.bref 0x48 body with
      | none => s
      | some (c, s) => start { s with stq := { s.stq with posted := s.stq.posted ++ [(x.bref, c, v, slot)] } } none
  | _ =>
    if s.modStatus x.bref ≠ 0 then s.freeze v 6
    else if x.depth ≤ slot then s
    else
      let moves := op = 0x30 ∨ op = 0x31
      let u1 := leBytes 4 (cNblocks d) ++ leBytes 2 v ++ leBytes 1 (fieldLE d 0x10 1) ++ leBytes 1 x.shift ++ leBytes 8 (if moves then 2 ^ 63 + slot * 2 ^ 24 else 0)
      start (s.sendTxn x.bref { vc := 1, data := txnHeader 0x13 op 0 slot 0 (cLba d) ++ u1 }) none

/-- Start the next command of queue `r` when its opcode is among `ops` (R366, R375, R378, R380). -/
def State.stqStart (s : State) (r : Nat) (ops : List Nat) : State :=
  match s.ring r with
  | none => s
  | some rg =>
    let v := rg.target % 4096
    match rg.nextCmd, s.vol v with
    | some g, some x =>
      if rg.type ≠ 4 ∨ g.staged ∨ !ops.contains (dOpcode g.desc) then s
      else if s.stq.flushTo.any (fun f => f.1 == r && before g.count f.2) then s.stqFinish v r g.count { status := St.stq_flushed }
      else match s.cmdCheck x rg g.slice g.desc with
        | .error st => s.stqFinish v r g.count { status := st }
        | .ok t =>
          if s.volState v ≠ 1 ∨ x.depth ≤ x.cmds.length then s
          else if s.rd R.STQ_VOL_STATE_pstate v = 2 then
            if x.wakeAt.isSome then s
            else match t.powerNotice v x 0 with
              | none => s
              | some (id, t) => (t.modVol v (fun x => { x with wakeAt := some t.time.ft, wakeNote := some id, wakeAcked := false, wakeFor := some (r, g.count) })).stqCnt 12
          else t.issueCmd v x r rg g
    | _, _ => s

/-- IDENTIFY (R367): served by the engine whatever the volume's state; it writes the volume info record. -/
def State.identify (s : State) (r : Nat) : State :=
  match s.ring r with
  | none => s
  | some rg =>
    let v := rg.target % 4096
    match rg.eng.flight.find? (fun g => !g.performed && !g.staged && g.cpl.isNone && dOpcode g.desc == 0x35), s.vol v with
    | some g, some x => match s.cmdCheck x rg g.slice g.desc with
      | .error st => s.stqFinish v r g.count { status := st }
      | .ok s =>
        let b := leBytes 8 x.capacity ++ leBytes 1 x.shift ++ leBytes 1 x.backend ++ leBytes 1 (s.rd R.STQ_VOL_STATE_pstate v) ++ leBytes 1 (s.volState v)
          ++ leBytes 4 x.maxBlocks ++ leBytes 4 3 ++ leBytes 4 (if x.backend = 0 then 0 else x.exit2) ++ leBytes 8 x.elog ++ List.replicate 32 0
        match s.writeFor g.slice rg.mem (cBuf g.desc) b with
        | (.wait, s) => s
        | (.fail st, s) => s.finish r g.count { status := st }
        | (.ok _, s) => s.finish r g.count { status := 0, bytes := 64 }
    | _, _ => s

/-! ### Answers (R367, R372, R380, R420) -/

/-- An answer of a backend. -/
def State.stqAnswer (s : State) (a : StqRsp) : State :=
  match s.vol a.vol with
  | none => s.stqCnt 8
  | some x =>
    if !a.wellFormed || x.depth ≤ a.slot then s.freeze a.vol 4
    else match x.cmds.find? (fun c => c.slot == a.slot && c.ended.isNone) with
      | none =>
        if x.late.contains a.slot || x.backend == 2 || x.cmds.any (·.slot == a.slot) then
          (s.stqCnt 8).modVol a.vol (fun x => { x with late := x.late.erase a.slot })
        else s.freeze a.vol 4
      | some c =>
        let g := s.flight c.ring c.count
        let op := (g.map (fun g => dOpcode g.desc)).getD 0
        let n := (g.map (fun g => cNblocks g.desc)).getD 0
        let x18 := if x.backend = 0 then leBytes 4 a.dw0 else []
        let path := x.backend == 0 && bits a.status 10 8 == 3
        let k : Cpl := if a.status = 0 then { status := 0, bytes := if op = 0x30 ∨ op = 0x31 then n * 2 ^ x.shift else 0, x18 := x18 }
          else { status := St.stq_backend, x12 := leBytes 2 a.status, x18 := x18 }
        let s := s.stqEnd a.vol a.slot k (if path then 3 else 0)
        if path then s.freeze a.vol 3 else s

/-- BACKEND_RESPONSE: the oldest answer that has arrived. -/
def State.backendResponse (s : State) : State :=
  match s.stq.rsps with
  | [] => s
  | a :: l => ({ s with stq := { s.stq with rsps := l } } : State).stqAnswer a

/-- STQ_CMD_TIMEOUT (R372, R379): of an issued command by its slot, or of a WAKE. -/
def State.stqTimeout (s : State) (v : Nat) (slot : Option Nat) : State :=
  match s.vol v with
  | none => s
  | some x =>
    let ms := s.cmdTimeout x * unitsPerMs
    match slot with
    | some n => match x.cmds.find? (fun c => c.slot == n && c.ended.isNone) with
      | none => s
      | some c =>
        let s := (s.runTo (c.issued + ms)).modVol v (fun x => { x with late := x.late ++ [n] })
        (s.stqEnd v n { status := St.stq_timeout } 1).freeze v 1
    | none => match x.wakeAt, x.wakeFor with
      | some t, some (r, c) =>
        if x.wakeAcked then s
        else
          let s := (s.runTo (t + ms)).modVol v (fun x => { x with wakeAt := none, wakeNote := none, wakeFor := none })
          (s.stqFinish v r c { status := St.stq_timeout } 1).freeze v 1
      | _, _ => s

/-! ### Power states (R378, R379) -/

/-- FT since when a volume is idle; none while it is not. -/
def State.idleSince (s : State) (v : Nat) (x : Vol) : Option Nat :=
  let qs := s.volQueues v
  if x.cmds.isEmpty ∧ qs.all (fun q => q.2.head == q.2.tail && q.2.unstarted.isEmpty) then some (qs.foldl (fun t q => max t q.2.eng.used) x.idleAt) else none

/-- DOZE. -/
def State.doze (s : State) (v : Nat) : State :=
  match s.vol v with
  | none => s
  | some x => match s.idleSince v x with
    | none => s
    | some t =>
      let ms := s.idle1 x
      if ms ≠ 0 ∧ s.volState v = 1 ∧ s.rd R.STQ_VOL_STATE_pstate v = 0 then
        (((s.runTo (t + ms * unitsPerMs)).wr R.STQ_VOL_STATE_pstate 1 v).stqCnt 10)
      else s

/-- SLEEP: the backend is told. -/
def State.volSleep (s : State) (v : Nat) : State :=
  match s.vol v with
  | none => s
  | some x => match s.idleSince v x with
    | none => s
    | some t =>
      let ms := s.idle2 x
      if ms ≠ 0 ∧ s.volState v = 1 ∧ s.rd R.STQ_VOL_STATE_pstate v ≠ 2 then
        let s := ((s.runTo (t + ms * unitsPerMs)).wr R.STQ_VOL_STATE_pstate 2 v).stqCnt 11
        match s.powerNotice v x 2 with
        | some (_, s) => s
        | none => s
      else s

/-- WAKE_ACK: the acknowledgement of the WAKE has arrived; the first command starts. -/
def State.wakeAck (s : State) (v : Nat) : State :=
  match s.vol v with
  | none => s
  | some x =>
    if x.wakeAcked then
      let s := (s.setVol v (some { x with wakeAt := none, wakeNote := none, wakeAcked := false, wakeFor := none })).wr R.STQ_VOL_STATE_pstate 0 v
      match x.wakeFor with
      | some (r, _) => s.stqStart r [0x30, 0x31, 0x32, 0x33, 0x34]
      | none => s
    else s

/-- The acknowledgement with a notice's number has arrived from a backend. -/
def State.noticeAcked (s : State) (backend bref id : Nat) : State :=
  (s.volsOf backend bref).foldl (fun s v => s.modVol v (fun x => if x.wakeNote = some id then { x with wakeAcked := true } else x)) s

/-- The completion of a descriptor that the storage engine posted to a flow-core ring (R370). -/
def State.workDone (s : State) (r c status : Nat) : State :=
  match s.stq.posted.find? (fun p => p.1 == r && p.2.1 == c) with
  | none => s
  | some p =>
    let s : State := { s with stq := { s.stq with posted := s.stq.posted.erase p } }
    if p.2.2.2 = 0xFFFF then s.noticeAcked 1 r c
    else { s with stq := { s.stq with rsps := s.stq.rsps ++ [{ vol := p.2.2.1, slot := p.2.2.2, status := status }] } }

/-- An ABORT reaches an issued command (R373): it ends `aborted`, with a key once that is revoked. Answers whether the
engine ends it itself. -/
def State.stqAbort (s : State) (r c : Nat) : Option State :=
  match s.ring r with
  | none => none
  | some rg =>
    let v := rg.target % 4096
    match s.vol v with
    | none => none
    | some x => match if rg.type = 4 then x.cmds.find? (fun m => m.ring == r && m.count == c && m.ended.isNone) else none with
      | none => none
      | some m => some ((s.modVol v (fun x => { x with late := x.late ++ [m.slot] })).stqEnd v m.slot { status := St.aborted })

def execVolRestartResume (s : State) : Out := s.whenMain State.restartResume
def execStqRead (r : Fin 65536) (s : State) : Out := s.whenMain (·.stqStart r [0x30])
def execStqWrite (r : Fin 65536) (s : State) : Out := s.whenMain (·.stqStart r [0x31])
def execStqFlush (r : Fin 65536) (s : State) : Out := s.whenMain (·.stqStart r [0x32])
def execWriteZeroes (r : Fin 65536) (s : State) : Out := s.whenMain (·.stqStart r [0x33])
def execDeallocate (r : Fin 65536) (s : State) : Out := s.whenMain (·.stqStart r [0x34])
def execIdentify (r : Fin 65536) (s : State) : Out := s.whenMain (·.identify r)
def execBackendResponse (s : State) : Out := s.whenMain State.backendResponse
def execStqCmdTimeout (v : Fin 4096) (slot : Option (Fin 1024)) (s : State) : Out := s.whenMain (·.stqTimeout v (slot.map (·.val)))
def execDoze (v : Fin 4096) (s : State) : Out := s.whenMain (·.doze v)
def execSleep (v : Fin 4096) (s : State) : Out := s.whenMain (·.volSleep v)
def execWakeAck (v : Fin 4096) (s : State) : Out := s.whenMain (·.wakeAck v)

end Sys2Proof.Machine
end

