-- ==== Sys2Proof/Machine/Sockets.lean ====
section
/-! DEFINITION. Tenant sockets: what a module sends, windows, meters, copies, fabric time toward a module, presence and
power (16_tenant_sockets.md R406-R434; 22_redundant_pair.md R544). -/

namespace Sys2Proof.Machine

/-! ### Header fields and checks (R406, R407) -/

def Txn.type (t : Txn) : Nat := fieldLE t.data 0 1
def Txn.sub (t : Txn) : Nat := fieldLE t.data 1 1
def Txn.len (t : Txn) : Nat := fieldLE t.data 2 2
def Txn.tag (t : Txn) : Nat := fieldLE t.data 4 2
def Txn.status (t : Txn) : Nat := fieldLE t.data 6 2
def Txn.arg (t : Txn) : Nat := fieldLE t.data 8 8

/-- The data of a transaction. -/
def Txn.body (t : Txn) : List Byte := (t.data.drop 16).take t.len

/-- An access of `n` bytes at `a` stays inside one 4 KiB page (R407). -/
def inPage (a n : Nat) : Bool := n == 0 || a / 4096 == (a + n - 1) / 4096

/-- The header of a transaction from a module keeps the limits of its type, on the channel of its type (R406, R407, R423). -/
def Txn.legal (t : Txn) : Bool :=
  match t.type with
  | 0x01 => t.vc == 0 && 60 ≤ t.len && t.len ≤ 9596
  | 0x10 => t.vc == 1 && 1 ≤ t.len && t.len ≤ 256 && inPage t.arg t.len && t.arg + t.len ≤ 2 ^ 64
  | 0x11 | 0x12 | 0x14 => t.vc == 1 && t.len == 0
  | 0x20 => t.vc == 2 && t.len ≤ 256 && inPage t.arg t.len && t.arg + t.len ≤ 2 ^ 64 && t.tag < 4096
  | 0x30 => t.vc == 3 && t.len ≤ 256 && t.tag < 4096
  | 0x31 => t.vc == 3 && t.len == 0 && (t.sub == 4 || t.sub == 0x80)
  | 0x34 => t.vc == 3 && t.len == 0
  | _ => false

/-- Discard received transactions that are malformed, with their credits returned (R406). -/
def State.dropMalformed (s : State) (n : Nat) : State :=
  let bad := (s.link n).rxq.filter (fun e => !e.2.legal)
  bad.foldl (fun s e => (s.leaveRx n e).tskCnt n 14) s

/-- The oldest received transaction of a type (and of a MGMT code), when no earlier one of the types `after_` is still
in the receive buffer, whole or in part (R408). -/
def State.nextTxn (s : State) (n type : Nat) (sub : Option Nat := none) (behindWrites : Bool := false) : Option (Nat × Txn) :=
  let l := s.link n
  match l.rxq.find? (fun e => e.2.type == type && (match sub with
    | some c => e.2.sub == c
    | none => true)) with
  | none => none
  | some e =>
    let held := l.rxq.any (fun x => x.2.type == 0x10 && x.1 < e.1) || l.part.any (fun p => p.2.type == 0x10 && p.1 / 4 < e.1)
    if behindWrites && held then none else some e

/-! ### Meters (R424, R434) -/

/-- Rate and burst of a meter: Mb/s and bytes for meters 0-2, events per second and events for meter 3; rate 0: disabled. -/
def State.meterCfg (s : State) (n m : Nat) : Nat × Nat :=
  if s.expert (tskBase n) then
    let b := s.ac R.TSK_METER_CFG_burst n m
    (s.ac R.TSK_METER_CFG_rate n m, if b = 0 then 16 else b)
  else match s.preset (tskBase n) with
    | 1 => if m < 3 then (400000, 65536) else (1000000, 1024)
    | 2 => if m < 3 then (100000, 65536) else (250000, 1024)
    | _ => (0, 16)

/-- What one byte or one event counts in a meter's level, so that the rate times nanoseconds is exact. -/
def meterUnit (m : Nat) : Int := if m < 3 then tokUnit else 1000000000

/-- Level units that accrue in a nanosecond. -/
def meterRate (m rate : Nat) : Nat := if m < 3 then rate * 1000 else rate

/-- Level of a meter now. -/
def State.meterLevel (s : State) (n m : Nat) : Int :=
  let c := s.meterCfg n m
  let full := ((c.2 : Nat) : Int) * meterUnit m
  match Store.get none (s.sock n).meters m with
  | some b => min (b.level + accrued (meterRate m c.1) b.at_ s.time.ft) full
  | none => full

def State.setMeter (s : State) (n m : Nat) (l : Int) : State :=
  s.modSock n (fun k =>
    let old := (Store.get none k.meters m).elim 0 (fun (b : Bucket) => b.at_)
    let b : Bucket := { level := l, at_ := max old s.time.ft }
    { k with meters := Store.put none k.meters m (some b) })

/-- A meter is enabled and its tokens are at or below 0. -/
def State.meterHolds (s : State) (n m : Nat) : Bool := (s.meterCfg n m).1 != 0 && s.meterLevel n m ≤ 0

/-- Charge a meter: units of 16 bytes, or events. -/
def State.meterCharge (s : State) (n m k : Nat) : State :=
  if (s.meterCfg n m).1 = 0 then s else s.setMeter n m (s.meterLevel n m - (k : Int) * (if m < 3 then 16 else 1) * meterUnit m)

/-- Tokens of a meter become its burst. -/
def State.meterFill (s : State) (n m : Nat) : State := s.setMeter n m (((s.meterCfg n m).2 : Nat) * meterUnit m)

/-! ### Transactions from the module (R408-R424, R432, R433) -/

/-- How a socket's transactions are judged before anything else: 0 accepted, else the status of a read's CPL (R432, R544;
06_slices.md R174 step 2). -/
def State.sockGate (s : State) (n : Nat) : Nat :=
  if s.standby n then St.pair_standby
  else match s.sockSlice n with
    | none => St.slice_state
    | some x => if s.sliceState x = 1 then 0 else if s.sliceState x = 2 ∨ s.sliceState x = 3 then St.slice_reset else St.slice_state

/-- Count a transaction that the gate discards. -/
def State.gateCount (s : State) (n : Nat) : State := if s.standby n then s.bump R.PAR_CNT_count 6 else s.tskCnt n 13

/-- SOCKET_PKT_RX: the next PKT joins the pipeline that serves the socket. -/
def State.sockPkt (s : State) (n : Nat) : State :=
  match s.nextTxn n 0x01 with
  | none => s
  | some e =>
    if s.sockGate n ≠ 0 then (((s.tskCnt n 0).gateCount n).leaveRx n e)
    else if s.meterHolds n 0 then s
    else
      let s := ((s.meterCharge n 0 e.2.total).tskCnt n 0).leaveRx n e
      let byp := s.on R.TSK_BYPASS_en n
      let s := if byp then s.tskCnt n 15 else s
      let f : Frame := { data := e.2.body, src := 0x100 + n, stamp := s.now64, at_ := s.time.ft, bad := e.2.bad, slice := (s.sockSlice n).getD 0, bypass := if byp then some (s.rd R.TSK_BYPASS_rxq n) else none }
      s.toPipe n f

/-- The HBM range lies wholly in pages charged to the slice; slice 0 may name any below the usable limit. -/
def State.ownHbm (s : State) (x a n : Nat) : Bool :=
  a + n ≤ s.hbmLimit && (x == 0 || (List.range (if n = 0 then 0 else (a + n - 1) / pageSize - a / pageSize + 1)).all (fun i => s.pageOwner (a / pageSize + i) == some x))

/-- Where an access of the module goes: host memory or HBM of a slice at an address. -/
structure SockTgt where
  slice : Nat
  hbm : Bool
  addr : Nat

/-- Socket-to-host translation by the active windows (R410). -/
def State.s2h (s : State) (n x a len : Nat) (write : Bool) : Option SockTgt :=
  (List.range 16).findSome? (fun w =>
    let base := s.rd R.TSK_ACT_S2H_BASE_base n w * 4096
    let size := s.rd R.TSK_ACT_S2H_SIZE_size n w * 4096
    let kind := s.rd R.TSK_ACT_S2H_BASE_kind n w
    let ok := s.on R.TSK_ACT_S2H_BASE_en n w && kind < 2 && (if write then s.on R.TSK_ACT_S2H_BASE_wr_en n w else s.on R.TSK_ACT_S2H_BASE_rd_en n w)
    let t := s.rd R.TSK_ACT_S2H_TGT_tgt n w * 4096 + (a - base)
    if ok && base ≤ a && a + len ≤ base + size && (kind == 0 || s.ownHbm x t len) then some { slice := x, hbm := kind == 1, addr := t } else none)

/-- The command of a socket's volumes that holds a slot. -/
def State.slotCmd (s : State) (n slot : Nat) : Option (Nat × Vol × StqCmd) :=
  (s.volsOf 2 n).findSome? (fun v => (s.vol v).bind (fun x => (x.cmds.find? (fun c => c.slot == slot && c.ended.isNone)).map (fun c => (v, x, c))))

/-- The storage aperture (R419): a MWR reaches the buffer of a READ, a MRD that of a WRITE. -/
def State.aperture (s : State) (n a len : Nat) (write : Bool) : Option SockTgt :=
  let off := a % 2 ^ 24
  match s.slotCmd n (bits a 33 24) with
  | none => none
  | some (_, x, c) => match s.ring c.ring, s.flight c.ring c.count with
    | some rg, some g =>
      if dOpcode g.desc = (if write then 0x30 else 0x31) ∧ off + len ≤ cNblocks g.desc * 2 ^ x.shift ∧ bits a 62 34 = 0 then
        some { slice := g.slice, hbm := rg.mem, addr := cBuf g.desc + off }
      else none
    | _, _ => none

/-- Target of a module's access. -/
def State.modTarget (s : State) (n a len : Nat) (write : Bool) : Option SockTgt :=
  if bit a 63 then s.aperture n a len write else match s.sockSlice n with
    | some x => s.s2h n x a len write
    | none => none

/-- SOCKET_MWR_RX: the next MWR is performed; a write toward host memory may have to wait for a translation. -/
def State.sockMwr (s : State) (n : Nat) : State :=
  match s.nextTxn n 0x10 with
  | none => s
  | some e =>
    let t := e.2
    if s.sockGate n ≠ 0 then ((s.tskCnt n 2).gateCount n).leaveRx n e
    else if s.meterHolds n 1 then s
    else
      let take := fun (s : State) => ((s.meterCharge n 1 t.total).tskCnt n 2).leaveRx n e
      match s.modTarget n t.arg t.len true with
      | none => (take s).noWindow n 1 t.arg
      | some g =>
        let bs := t.body
        if g.hbm then (take s).hbmWrite g.addr bs t.bad |>.1
        else match s.hostWrite g.slice g.addr bs t.bad with
          | (.wait, s) => s
          | (_, s) => take s

/-- Send a CPL. -/
def State.sendCpl (s : State) (n tag status : Nat) (bs : List Byte) (bad : Bool) : State :=
  s.sendTxn n { vc := 3, data := txnHeader 0x30 0 bs.length tag status 0 ++ padUnits bs, bad := bad, epoch := s.winEpoch n }

/-- The host read of a module's MRD has ended: its CPL, with poisoned data in a flit that says so (R410, R415). -/
def State.mrdEnd (s : State) (n tag : Nat) (j : HostJob) : State :=
  let poison := j.status = St.host_poison
  if (s.sock n).modRd.contains tag then
    (if j.status = 0 ∨ poison then s.sendCpl n tag 0 (Mem.read j.data 0 j.len) poison else s.sendCpl n tag j.status [] false)
  else s

/-- SOCKET_MRD_RX: the next MRD is read and answered with a CPL (R410, R414, R415), toward host memory once its reads have
ended. -/
def State.sockMrd (s : State) (n : Nat) : State :=
  match s.nextTxn n 0x20 none true with
  | none => s
  | some e =>
    let t := e.2
    let k := s.sock n
    if k.modRd.contains t.tag then ((s.tskCnt n 3).tskCnt n 10).leaveRx n e
    else if max 1 (s.rd R.TSK_CFG_max_rd n) ≤ k.modRd.length then s
    else
      let take := fun (s : State) => ((s.tskCnt n 3).modSock n (fun k => { k with modRd := k.modRd ++ [t.tag] })).leaveRx n e
      let gate := s.sockGate n
      if gate ≠ 0 then ((take s).gateCount n).sendCpl n t.tag gate [] false
      else if s.meterHolds n 2 then s
      else
        let take := fun (s : State) => (take s).meterCharge n 2 (1 + (t.len + 15) / 16)
        match s.modTarget n t.arg t.len false with
        | none => ((take s).noWindow n 1 t.arg).sendCpl n t.tag St.no_window [] false
        | some g =>
          if g.hbm then
            let r := (take s).hbmRead g.addr t.len
            if r.status = St.mem_range then r.next.sendCpl n t.tag r.status [] false else r.next.sendCpl n t.tag 0 r.data r.bad
          else match s.hostRead (.mrd n t.tag) g.slice g.addr t.len with
            | (.wait, s) => if (s.hostJob (.mrd n t.tag) g.slice g.addr t.len).isSome then take s else s
            | (.fail st, s) => (take s).sendCpl n t.tag st [] false
            | (.ok bs, s) => (take s).sendCpl n t.tag 0 bs false

/-- Meter 3 takes one event, or drops it (R424). -/
def State.meterEvent (s : State) (n : Nat) : Option State := if s.meterHolds n 3 then none else some (s.meterCharge n 3 1)

/-- SOCKET_DB_RX (R417). -/
def State.sockDb (s : State) (n : Nat) : State :=
  match s.nextTxn n 0x11 none true with
  | none => s
  | some e =>
    let s := s.leaveRx n e
    if s.sockGate n ≠ 0 then s.gateCount n
    else match s.meterEvent n with
      | none => s.tskCnt n 9
      | some s => match s.ring e.2.tag, s.sockSlice n with
        | some x, some y => if x.slice = y then s.doorbell e.2.tag e.2.arg else s.tskCnt n 11
        | _, _ => s.tskCnt n 11

/-- SOCKET_INTR_RX (R417). -/
def State.sockIntr (s : State) (n : Nat) : State :=
  match s.nextTxn n 0x12 none true with
  | none => s
  | some e =>
    let s := s.leaveRx n e
    let i := e.2.tag
    let vec := s.rd R.TSK_INTR_CFG_base n + i
    if s.sockGate n ≠ 0 then s.gateCount n
    else match s.meterEvent n with
      | none => s.tskCnt n 9
      | some s => match (s.sockSlice n).bind s.sliceFn with
        | some fn => if i < s.rd R.TSK_INTR_CFG_count n ∧ vec < s.msixCount fn then s.msixFire fn vec else s.tskCnt n 12
        | none => s.tskCnt n 12

/-- STQ_RSP (R420): the command of the slot completes; one that names a slot beyond the depth of the socket's volumes
freezes them, any other is a late answer. -/
def State.sockRsp (s : State) (n : Nat) : State :=
  match s.nextTxn n 0x14 none true with
  | none => s
  | some e =>
    if s.sockGate n ≠ 0 then (s.gateCount n).leaveRx n e
    else if s.meterHolds n 1 then s
    else
      let s := (s.meterCharge n 1 1).leaveRx n e
      let slot := e.2.tag
      match s.slotCmd n slot with
      | some (v, _, _) => s.stqAnswer { vol := v, slot := slot, status := e.2.status }
      | none =>
        let vs := s.volsOf 2 n
        if vs.isEmpty || vs.any (fun v => (s.vol v).elim false (fun x => slot < x.depth)) then s.stqCnt 8
        else vs.foldl (fun s v => s.freeze v 4) s

/-- The timeout of device reads (TSK_CFG.rd_timeout_us, 10-65,535). -/
def State.rdTimeout (s : State) (n : Nat) : Nat := max 10 (s.rd R.TSK_CFG_rd_timeout_us n) * unitsPerUs

/-- SOCKET_RD_TIMEOUT (R416). -/
def State.sockRdTimeout (s : State) (n tag : Nat) : State :=
  match (s.sock n).rds.find? (·.tag == tag) with
  | none => s
  | some r => ((s.runTo (r.issued + s.rdTimeout n)).tskCnt n 8).readDone n r [] false St.tsk_rd_timeout

/-- SOCKET_CPL_RX (R416): the timeout wins a tie; data of another length than the read asked for is malformed. -/
def State.sockCpl (s : State) (n : Nat) : State :=
  match s.nextTxn n 0x30 with
  | none => s
  | some e =>
    let t := e.2
    let s := s.leaveRx n e
    match (s.sock n).rds.find? (·.tag == t.tag) with
    | none => s.tskCnt n 8
    | some r =>
      if r.issued + s.rdTimeout n ≤ s.time.ft then (s.sockRdTimeout n t.tag).tskCnt n 8
      else if t.status ≠ 0 then s.readDone n r [] false St.tsk_module_err
      else if t.len ≠ r.len then s.tskCnt n 14
      else s.readDone n r t.body t.bad 0

/-- MGMT_ACK_RX (R423). -/
def State.sockAck (s : State) (n : Nat) : State :=
  match s.nextTxn n 0x31 (some 0x80) with
  | none => s
  | some e =>
    let s := s.leaveRx n e
    match (s.sock n).acks.find? (·.1 == e.2.tag) with
    | none => s
    | some a =>
      let s := s.modSock n (fun k => { k with acks := k.acks.erase a, quiesced := k.quiesced || a.2 == 3 })
      if a.2 = 2 then s.noticeAcked 2 n a.1 else s

/-- ALERT (R423). -/
def State.sockAlert (s : State) (n : Nat) : State :=
  match s.nextTxn n 0x31 (some 4) with
  | none => s
  | some e =>
    let s := s.leaveRx n e
    match s.meterEvent n with
    | none => s.tskCnt n 9
    | some s =>
      let d := leBytes 2 e.2.status ++ leBytes 6 0 ++ leBytes 8 e.2.arg
      match s.sockSlice n with
      | some x => s.sliceEvent 0xE n 8 x d
      | none => s.event 0xE n 8 d

/-- METER_RELEASE (R424): the tokens of meter `m` have come back above 0 and the transaction it holds leaves. -/
def State.meterRelease (s : State) (n m : Nat) : State :=
  if s.meterHolds n m then
    let r := meterRate m (s.meterCfg n m).1
    let ns := (-(s.meterLevel n m)).toNat / r + 1
    let s := s.runTo (s.time.ft + ns * unitsPerNs)
    match m with
    | 0 => s.sockPkt n
    | 1 => match (s.link n).rxq.find? (fun e => e.2.type == 0x10 || e.2.type == 0x14) with
      | some e => if e.2.type = 0x10 then s.sockMwr n else s.sockRsp n
      | none => s
    | _ => s.sockMrd n
  else s

/-! ### Windows (R409, R412, R413) -/

/-- The ranges of enabled shadow windows: host-to-socket by function, socket-to-host. -/
def State.h2sShadow (s : State) (n : Nat) : List (Nat × Nat × Nat × Nat) :=
  (List.range 16).filterMap (fun w => if s.on R.TSK_H2S_BASE_en n w then
    some (8 * s.rd R.TSK_H2S_BASE_hif n w + s.rd R.TSK_H2S_BASE_pf n w, s.rd R.TSK_H2S_BASE_off n w * 4096, s.rd R.TSK_H2S_SIZE_size n w * 4096, s.rd R.TSK_H2S_TGT_sock n w * 4096) else none)

def State.s2hShadow (s : State) (n : Nat) : List (Nat × Nat × Nat × Nat) :=
  (List.range 16).filterMap (fun w => if s.on R.TSK_S2H_BASE_en n w ∧ s.rd R.TSK_S2H_BASE_kind n w < 2 then
    some (s.rd R.TSK_S2H_BASE_kind n w, s.rd R.TSK_S2H_BASE_base n w * 4096, s.rd R.TSK_S2H_SIZE_size n w * 4096, s.rd R.TSK_S2H_TGT_tgt n w * 4096) else none)

/-- Two of the ranges overlap. -/
def anyOverlap : List (Nat × Nat) → Bool
  | [] => false
  | (a, k) :: l => l.any (fun p => a < p.1 + p.2 && p.1 < a + k) || anyOverlap l

/-- Why a commit of the shadow windows is refused; 0: it is not (R413). -/
def State.winCheck (s : State) (n : Nat) : Nat :=
  let h := s.h2sShadow n
  let m := s.s2hShadow n
  let fns := dedup (h.map (·.1))
  if fns.any (fun f => anyOverlap ((h.filter (·.1 == f)).map (fun w => (w.2.1, w.2.2.1)))) || anyOverlap (m.map (fun w => (w.2.1, w.2.2.1))) then 1
  else if h.any (fun w => w.2.2.1 == 0 || 2 ^ 36 < w.2.1 + w.2.2.1 || bit w.2.2.2 63) || m.any (fun w => w.2.2.1 == 0 || bit w.2.1 63) then 2
  else if m.any (fun w => w.1 == 1 && !(match s.sockSlice n with
    | some x => s.ownHbm x w.2.2.2 w.2.2.1
    | none => false)) then 3
  else if s.on R.TSK_WIN_STATUS_busy n then 4
  else 0

/-- A refused commit or arm (R413). -/
def State.winRefuse (s : State) (n cause : Nat) : State := (s.raise R.TSK_WIN_STATUS_refused n).wr R.TSK_WIN_STATUS_refuse_cause cause n

/-- Old-epoch transactions in flight (R412). -/
def State.oldInflight (s : State) (n : Nat) : Nat :=
  let e := s.winEpoch n
  let l := s.link n
  (l.txq.filter (fun t => t.epoch != e && ((t.type == 0x10 && t.sent == 0) || t.type == 0x30))).length + ((s.sock n).rds.filter (·.epoch != e)).length

/-- Pairs of a shadow and an active field. -/
def winFields : List (Fld × Fld) := [
  (R.TSK_H2S_BASE_off, R.TSK_ACT_H2S_BASE_off), (R.TSK_H2S_BASE_en, R.TSK_ACT_H2S_BASE_en), (R.TSK_H2S_BASE_wr_en, R.TSK_ACT_H2S_BASE_wr_en),
  (R.TSK_H2S_BASE_rd_en, R.TSK_ACT_H2S_BASE_rd_en), (R.TSK_H2S_BASE_hif, R.TSK_ACT_H2S_BASE_hif), (R.TSK_H2S_BASE_pf, R.TSK_ACT_H2S_BASE_pf),
  (R.TSK_H2S_SIZE_size, R.TSK_ACT_H2S_SIZE_size), (R.TSK_H2S_TGT_sock, R.TSK_ACT_H2S_TGT_sock), (R.TSK_S2H_BASE_base, R.TSK_ACT_S2H_BASE_base),
  (R.TSK_S2H_BASE_en, R.TSK_ACT_S2H_BASE_en), (R.TSK_S2H_BASE_wr_en, R.TSK_ACT_S2H_BASE_wr_en), (R.TSK_S2H_BASE_rd_en, R.TSK_ACT_S2H_BASE_rd_en),
  (R.TSK_S2H_BASE_kind, R.TSK_ACT_S2H_BASE_kind), (R.TSK_S2H_SIZE_size, R.TSK_ACT_S2H_SIZE_size), (R.TSK_S2H_TGT_tgt, R.TSK_ACT_S2H_TGT_tgt)]

/-- The shadow windows become active and the epoch advances; what is in flight is of the old one. -/
def State.winApply (s : State) (n : Nat) : State :=
  let copy := fun (s : State) (w : Nat) => winFields.foldl (fun (s : State) (p : Fld × Fld) => s.wr p.2 (s.rd p.1 n w) n w) s
  let s := (List.range 16).foldl copy s
  let s := s.wr R.TSK_WIN_STATUS_win_epoch (s.winEpoch n + 1) n
  s.wr R.TSK_WIN_STATUS_busy (b2n (s.oldInflight n != 0)) n

/-- WIN_COMMIT: a write of `commit` outside an epoch that arms the socket's unit (R412, R413). -/
def State.winCommit (s : State) (n : Nat) : State :=
  let c := s.winCheck n
  if c ≠ 0 then s.winRefuse n c
  else if s.armed (29 + n) then s.winRefuse n 6
  else s.winApply n

/-- WIN_DRAINED: the last transaction of the old epoch has finished. -/
def State.winDrained (s : State) (n : Nat) : State :=
  if s.on R.TSK_WIN_STATUS_busy n ∧ s.oldInflight n = 0 then s.wr R.TSK_WIN_STATUS_busy 0 n else s

/-- The socket on whose side an access of a function without a window is counted: the one of the function's slice. -/
def State.fnSocket (s : State) (fn : Nat) : Option Nat := (List.range 8).find? (fun n => ((s.sockSlice n).bind s.sliceFn) == some fn)

/-- BAR4_ACCESS (R409, R416, R428-R431, R544; 06_slices.md R174 step 2): `write` holds the bytes of a write. -/
def State.bar4 (s : State) (fn o len : Nat) (write : Option (List Byte)) : State :=
  let len := match write with
    | some bs => bs.length
    | none => len
  if !s.fnReady fn || s.rd R.HIF_PF_CFG_bar4_en (fn / 8) (fn % 8) == 0 || !(s.func fn).memEn || s.fnD3 fn then s.unsupported fn write.isSome
  else match (List.range 8).findSome? (fun n => (s.h2s n fn o len write.isSome).map (fun a => (n, a))) with
    | none =>
      let s := match s.fnSocket fn with
        | some n => s.noWindow n 0 o
        | none => s
      s.unsupported fn write.isSome
    | some (n, a) =>
      let gone := match s.sockSlice n with
        | some x => s.sliceState x == 2 || s.sliceState x == 3
        | none => false
      let st := if gone then St.tsk_absent else s.modStatus n
      match write with
      | some bs =>
        if st = 0 then s.moduleWrite n a bs false
        else if st = St.pair_standby then s
        else s.tskCnt n 7
      | none =>
        if st = 0 then s.startJob n (some fn) 0 a len
        else
          let s := if st = St.tsk_absent then s.tskCnt n 7 else s
          s.sendHost (.cplData fn (allOnes len))

/-! ### Copies (R418) -/

def copyOk (d : List Byte) : Bool := let n := fieldLE d 0x20 4; 1 ≤ n && n ≤ 2 ^ 24 && zeroFrom d 0x24 && !bit (fieldLE d 0x18 8) 63 && fieldLE d 0x18 8 + n ≤ 2 ^ 63

/-- Why the module of the ring's slice cannot be reached. -/
def State.copyStatus (s : State) (x : Ring) : Nat := match s.sliceSock x.slice with
  | some n => s.modStatus n
  | none => St.tsk_absent

/-- COPY_IN. -/
def State.copyIn (s : State) (r : Nat) : State :=
  s.perform r [0x50] (fun x g s =>
    if !copyOk g.desc then s.fail r g.count St.bad_desc
    else match s.readFor (.work r g.count) g.slice true (fieldLE g.desc 0x10 8) (fieldLE g.desc 0x20 4) with
      | (.wait, s) => s
      | (.fail st, s) => s.fail r g.count st
      | (.ok bs, t) =>
        let st := s.copyStatus x
        if st ≠ 0 then s.fail r g.count st
        else (t.performed r g.count).moduleWrite (s.rd R.SLC_BIND_socket x.slice) (fieldLE g.desc 0x18 8) bs false (some (r, g.count)))

/-- COPY_OUT. -/
def State.copyOutStart (s : State) (r : Nat) : State :=
  s.perform r [0x51] (fun x g s =>
    let mem := fieldLE g.desc 0x10 8
    let len := fieldLE g.desc 0x20 4
    if !copyOk g.desc then s.fail r g.count St.bad_desc
    else match s.claimHbm g.slice mem len with
      | none => s.fail r g.count St.ring_range
      | some t =>
        let st := s.copyStatus x
        if st ≠ 0 then s.fail r g.count st
        else
          let n := s.rd R.SLC_BIND_socket x.slice
          let o : CopyOut := { ring := r, count := g.count, slice := g.slice, mem := mem, sock := fieldLE g.desc 0x18 8, len := len }
          State.copyIssue n r g.count 4096 ((t.performed r g.count).setCopy n o))

/-! ### Fabric time (R421, R422) -/

/-- A full FT as 96 bits in the low bytes of a unit (00_scope.md R19). -/
def ftUnit (u : Nat) : List Byte := leBytes 16 (ftSec u % 2 ^ 48 * 2 ^ 48 + ftNs u * 2 ^ 16 + ftFrac u)

/-- FT_SYNC: sync_us after the last one, or after the link became ACTIVE. -/
def State.ftSync (s : State) (n : Nat) : State :=
  let us := s.rd R.TSK_CFG_sync_us n
  if us = 0 ∨ (s.link n).state ≠ 4 then s
  else
    let k := s.sock n
    let s := s.runTo (max k.syncAt (s.link n).since + us * unitsPerUs)
    let s := s.modSock n (fun k => { k with syncAt := s.time.ft, syncId := (k.syncId + 1) % 65536 })
    s.sendTxn n { vc := 3, data := txnHeader 0x32 (s.rd R.FT_STATUS_state % 8) 0 k.syncId 0 0, sync := some k.syncId }

/-- FT_FOLLOW: the flit of an FT_SYNC has been acknowledged. -/
def State.ftFollow (s : State) (n : Nat) : State :=
  let k := s.sock n
  match k.syncDue with
  | none => s
  | some (id, at_, resent) =>
    let s := s.setSock n { k with syncDue := none, stepped := false }
    s.sendTxn n { vc := 3, data := txnHeader 0x33 (b2n resent + 2 * b2n k.stepped) 0 id 0 0 ++ ftUnit at_ }

/-- FT_DREQ: answered with the FT of its arrival; those beyond one in a microsecond are discarded. -/
def State.ftDreq (s : State) (n : Nat) : State :=
  match s.nextTxn n 0x34 with
  | none => s
  | some e =>
    let s := s.leaveRx n e
    let t := e.2.at_
    if (s.sock n).dreqAt.elim false (fun p => t < p + unitsPerUs) then s
    else (s.modSock n (fun k => { k with dreqAt := some t })).sendTxn n { vc := 3, data := txnHeader 0x35 0 0 e.2.tag 0 0 ++ ftUnit t }

/-! ### Presence and power (R425-R430) -/

def State.tskEvent (s : State) (n code : Nat) (d : List Byte) (log : Bool := false) : State :=
  let b := (leBytes 1 n ++ d ++ List.replicate 15 0).take 16
  if log then s.eventBoth 0xE n code b else s.event 0xE n code b

def State.setPwr (s : State) (n st : Nat) : State := (s.wr R.TSK_STATUS_pwr st n).modSock n (fun k => { k with since := s.time.ft })

def State.pwrFaults (s : State) (n : Nat) : Bool := s.on R.TSK_STATUS_flt_input n || s.on R.TSK_STATUS_flt_current n || s.on R.TSK_STATUS_flt_pg n

/-- A power request (R426). -/
def State.powerRequest (s : State) (n : Nat) : State :=
  if s.sockPwr n = 0 ∧ s.rd R.TSK_STATUS_prsnt n = 1 ∧ s.cuffOpen ∧ s.pwrFaults n = false ∧ s.fencedUnit 3 n = false then s.setPwr n 1
  else s.raise R.TSK_STATUS_on_refused n

/-- QUIESCING begins (R428 steps 1 and 2). -/
def State.startQuiesce (s : State) (n : Nat) : State :=
  if s.sockPwr n ≠ 3 then s
  else
    let s := (s.setPwr n 4).modSock n (fun k => { k with quiesced := false })
    let s := (s.volsOf 2 n).foldl (fun s v => s.freeze v 6) s
    (s.sendMgmt n 3 0).2

/-- A write of TSK_PWR_CTRL: each bit is judged by the state before the write. -/
def State.pwrCtrl (s : State) (n v : Nat) : State :=
  let on_ := s.sockPwr n = 3
  let s := if bit v 0 then s.powerRequest n else s
  if bit v 1 && on_ then s.startQuiesce n else s

/-- What the loss of a module's link or power ends: device reads, owed CPLs, storage commands; a partly received MWR is
performed, marked bad (R429, R431). -/
def State.moduleLost (s : State) (n status : Nat) : State :=
  let s := s.modSock n (fun k => { k with modRd := [], acks := [], syncDue := none })
  let s := s.dropJobs (fun j => match j.for_ with
    | .mrd k _ => k == n
    | _ => false)
  let s := s.failReads n status
  (s.volsOf 2 n).foldl (fun s v => s.freeze v 6) s

/-- Removal of power by surprise or fault: the link goes down with cause 7 and the bound slice is reset with cause 4. -/
def State.powerLost (s : State) (n st : Nat) : State :=
  let s := ((s.setPwr n st).linkDown n 7).moduleLost n St.tsk_absent
  let s := s.modSock n (fun k => { k with gone := true })
  match s.sockSlice n with
  | some x => { s with due := s.due ++ [.reset x 4] }
  | none => s

/-- PRESENCE_CHANGE: the pins have held a combination for its debounce time (R425, R429). -/
def State.presence (s : State) (n : Nat) (a b : Bool) : State :=
  let p := if a then (if b then 2 else 0) else (if b then 3 else 1)
  let o := s.rd R.TSK_STATUS_prsnt n
  if p = o then s
  else
    let s := s.wr R.TSK_STATUS_prsnt p n
    let w := s.sockPwr n
    let s := if o = 1 ∧ w ≠ 0 ∧ w ≠ 5 then
        let s := (s.raise R.TSK_STATUS_surprise n).tskEvent n 2 (leBytes 1 w) true
        s.powerLost n 0
      else s
    match p with
    | 1 =>
      let s := s.tskEvent n 1 []
      if s.on R.TSK_CFG_auto_power n then s.powerRequest n else s
    | 2 => (s.raise R.TSK_STATUS_reversed_seen n).tskEvent n 5 [] true
    | 3 => (s.raise R.TSK_STATUS_prsnt_fault n).tskEvent n 0xA []
    | _ => s

/-- ATTN_PRESS (R426). -/
def State.attnPress (s : State) (n : Nat) : State :=
  let s := (s.raise R.TSK_STATUS_attn_pressed n).tskEvent n 6 []
  if s.on R.TSK_CFG_attn_auto n then (if s.sockPwr n = 0 then s.powerRequest n else if s.sockPwr n = 3 then s.startQuiesce n else s) else s

/-- MOD_PG asserted in POWERING. -/
def State.modPgUp (s : State) (n : Nat) : State :=
  if s.sockPwr n = 1 then (s.setPwr n 2).modSock n (fun k => { k with modPg := true }) else s

/-- PG_TIMEOUT. -/
def State.pgTimeout (s : State) (n : Nat) : State :=
  if s.sockPwr n = 1 then
    let s := s.runTo ((s.sock n).since + max 1 (s.rd R.TSK_PWR_CFG_pg_timeout_ms n) * unitsPerMs)
    ((s.raise R.TSK_STATUS_flt_pg n).setPwr n 5).tskEvent n 4 (leBytes 1 2 ++ leBytes 2 (s.rd R.TSK_STATUS_i_ma n)) true
  else s

/-- RESET_DELAY_END: the module runs; `ma` is the current measured. -/
def State.resetDelayEnd (s : State) (n ma : Nat) : State :=
  if s.sockPwr n = 2 then
    let s := s.runTo ((s.sock n).since + max 1 (s.rd R.TSK_CFG_rst_delay_ms n) * unitsPerMs)
    let s := ((s.wr R.TSK_STATUS_i_ma (min ma 0xFFFF) n).setPwr n 3).modSock n (fun k => { k with gone := false })
    (s.tskEvent n 3 (leBytes 1 0 ++ leBytes 2 (min ma 0xFFFF))).linkStart n
  else s

/-- No transaction toward the module is in flight. -/
def State.towardIdle (s : State) (n : Nat) : Bool := (s.sock n).rds.isEmpty && (s.sock n).jobs.all (·.todo.isEmpty) && (s.link n).txq.isEmpty

/-- QUIESCE_WAIT_END (R428 steps 2 to 4). -/
def State.quiesceEnd (s : State) (n : Nat) : State :=
  if s.sockPwr n = 4 then
    let s := if (s.sock n).quiesced then s else s.runTo ((s.sock n).since + max 1 (s.rd R.TSK_PWR_CFG_quiesce_ms n) * unitsPerMs)
    if s.towardIdle n then (s.setPwr n 0).linkDown n 7 else s
  else s

/-- POWER_FAULT (R430): the fault input, or a current above the limit. -/
def State.powerFault (s : State) (n : Nat) (current removed : Bool) (ma : Nat) : State :=
  if current && ma ≤ max 100 (s.rd R.TSK_PWR_CFG_i_limit_ma n) then s
  else
    let s := s.wr R.TSK_STATUS_i_ma (min ma 0xFFFF) n
    let s := if current then s.raise R.TSK_STATUS_flt_current n else s.raise R.TSK_STATUS_flt_input n
    let s := if removed then s.raise R.TSK_STATUS_surprise n else s
    let s := s.tskEvent n 4 (leBytes 1 (b2n current) ++ leBytes 2 (min ma 0xFFFF)) true
    s.powerLost n 5

/-- W1C of the fault bits: the power state leaves FAULT once all are clear. -/
def State.faultCleared (s : State) (n : Nat) : State := if s.sockPwr n = 5 ∧ s.pwrFaults n = false then s.setPwr n 0 else s

/-! ### Commands -/

def execSocketPktRx (n : Fin 8) (s : State) : Out := s.whenMain (·.sockPkt n)
def execSocketMwrRx (n : Fin 8) (s : State) : Out := s.whenMain (·.sockMwr n)
def execSocketMrdRx (n : Fin 8) (s : State) : Out := s.whenMain (·.sockMrd n)
def execSocketDbRx (n : Fin 8) (s : State) : Out := s.whenMain (·.sockDb n)
def execSocketIntrRx (n : Fin 8) (s : State) : Out := s.whenMain (·.sockIntr n)
def execStqRsp (n : Fin 8) (s : State) : Out := s.whenMain (·.sockRsp n)
def execMgmtAckRx (n : Fin 8) (s : State) : Out := s.whenMain (·.sockAck n)
def execAlert (n : Fin 8) (s : State) : Out := s.whenMain (·.sockAlert n)
def execFtSync (n : Fin 8) (s : State) : Out := s.whenMain (·.ftSync n)
def execFtFollow (n : Fin 8) (s : State) : Out := s.whenMain (·.ftFollow n)
def execFtDreq (n : Fin 8) (s : State) : Out := s.whenMain (·.ftDreq n)
def execMeterRelease (n : Fin 8) (m : Fin 3) (s : State) : Out := s.whenMain (·.meterRelease n m)
def execWinDrained (n : Fin 8) (s : State) : Out := s.whenMain (·.winDrained n)
def execBar4Access (hif : Fin 2) (pf : Fin 8) (off len : Nat) (write : Option (List Byte)) (s : State) : Out :=
  s.whenMain (·.bar4 (8 * hif + pf) (off % 2 ^ 36) (min len 4096) write)
def execCopyIn (r : Fin 65536) (s : State) : Out := s.whenMain (·.copyIn r)
def execCopyOut (r : Fin 65536) (s : State) : Out := s.whenMain (·.copyOutStart r)
def execAttnPress (n : Fin 8) (s : State) : Out := s.whenMain (·.attnPress n)
def execModPg (n : Fin 8) (s : State) : Out := s.whenMain (·.modPgUp n)
def execPgTimeout (n : Fin 8) (s : State) : Out := s.whenMain (·.pgTimeout n)
def execResetDelayEnd (n : Fin 8) (ma : Nat) (s : State) : Out := s.whenMain (·.resetDelayEnd n ma)

end Sys2Proof.Machine
end

