-- ==== Sys2Proof/Machine/Hart.lean ====
section
/-! DEFINITION. Flow cores: threads, their registers and memory, traps, waits (17_flow_cores.md R435-R444, R456). The
RISC-V unprivileged and privileged specifications that R435 names are taken as published (log entry 20). -/

namespace Sys2Proof.Machine

def w64 (v : Nat) : Nat := v % 2 ^ 64

/-! ### Threads and cores -/

def State.hart (s : State) (h : Nat) : Hart := Store.get {} s.fc.harts h

def State.setHart (s : State) (h : Nat) (x : Hart) : State := { s with fc := { s.fc with harts := Store.put {} s.fc.harts h x } }

def State.modHart (s : State) (h : Nat) (f : Hart → Hart) : State := s.setHart h (f (s.hart h))

def State.fcore (s : State) (c : Nat) : CoreSt := Store.get {} s.fc.cores c

def State.setFcore (s : State) (c : Nat) (x : CoreSt) : State := { s with fc := { s.fc with cores := Store.put {} s.fc.cores c x } }

def State.fcnt (s : State) (c k : Nat) (n : Nat := 1) : State := s.addTo R.FCR_CNT_count n c k

/-- Slice of a thread; threads are numbered 16 × core + thread. -/
def State.hartSlice (s : State) (h : Nat) : Nat := s.rd R.FCR_THREAD_CFG_slice (h / 16) (h % 16)

/-- Channel domain of a core. -/
def State.dom (s : State) (c : Nat) : Nat := s.rd R.FCR_CORE_CFG_dom c

/-- The deadlock condition of a domain has ended (R465). -/
def State.clearDl (s : State) (d : Nat) : State := if s.fc.dlOn.contains d then { s with fc := { s.fc with dlOn := s.fc.dlOn.filter (· != d) } } else s

/-- Set the state of a thread: any change ends the deadlock of its domain. -/
def State.setHartState (s : State) (h st : Nat) : State := (s.modHart h (fun x => { x with state := st })).clearDl (s.dom (h / 16))

/-! ### Integer, floating-point and control registers -/

def State.xr (s : State) (h r : Nat) : Nat := if r = 0 then 0 else Store.get 0 (s.hart h).x r

def State.xw (s : State) (h r v : Nat) : State := if r = 0 then s else s.modHart h (fun k => { k with x := Store.put 0 k.x r (w64 v) })

def State.fr (s : State) (h r : Nat) : Nat := Store.get 0 (s.hart h).f r

/-- misa: RV64, extensions A, C, D, F, I, M, S, U and a non-standard one. -/
def misaValue : Nat := 2 ^ 63 + 2 ^ 0 + 2 ^ 2 + 2 ^ 3 + 2 ^ 5 + 2 ^ 8 + 2 ^ 12 + 2 ^ 18 + 2 ^ 20 + 2 ^ 23

/-- Reset value of a CSR's stored value: mstatus with UXL and SXL for 64 bits, mtimecmp all ones (R437), the others 0. -/
def csrReset (n : Nat) : Nat := if n = 0x300 then 0xA00000000 else if n = 0x7C0 then 2 ^ 64 - 1 else 0

def State.csr (s : State) (h n : Nat) : Nat := Store.get (csrReset n) (s.hart h).csr n

def State.csrw (s : State) (h n v : Nat) : State := s.modHart h (fun k => { k with csr := Store.put (csrReset n) k.csr n (w64 v) })

/-- Write an f register: the floating-point state becomes dirty (mstatus.FS and SD). -/
def State.fw (s : State) (h r v : Nat) : State :=
  let s := s.modHart h (fun k => { k with f := Store.put 0 k.f r (w64 v) })
  let m := s.csr h 0x300
  s.csrw h 0x300 (m - bits m 14 13 * 2 ^ 13 - b2n (bit m 63) * 2 ^ 63 + 3 * 2 ^ 13 + 2 ^ 63)

/-- Put a field of `w` bits at `lo` of a number. -/
def putFld (v lo w x : Nat) : Nat := v - bits v (lo + w - 1) lo * 2 ^ lo + x % 2 ^ w * 2 ^ lo

/-! ### Interrupts and traps (R437, R453, R456) -/

/-- Pending interrupts: software 3, timer 7, deadlock 16, counter sample 17. -/
def State.mipOf (s : State) (h : Nat) : Nat :=
  let p := s.csr h 0x344
  putFld p 7 1 (b2n (s.csr h 0x7C0 ≤ s.now64))

/-- Set an interrupt pending. -/
def State.raiseInt (s : State) (h code : Nat) : State := s.csrw h 0x344 (setBit (s.csr h 0x344) code true)

/-- What a trap does to the status, the privilege mode and the PC: to mode `to` with the cause and trap value. -/
def State.enterTrap (s : State) (h : Nat) (toS int : Bool) (cause tval : Nat) : State :=
  let k := s.hart h
  let m := s.csr h 0x300
  let code := cause + (if int then 2 ^ 63 else 0)
  let vec := s.csr h (if toS then 0x105 else 0x305)
  let target := vec / 4 * 4 + (if int && vec % 4 == 1 then 4 * cause else 0)
  let s := if toS then
      let m := putFld (putFld (putFld m 5 1 (m / 2)) 1 1 0) 8 1 (k.priv % 2)
      (((s.csrw h 0x300 m).csrw h 0x141 k.pc).csrw h 0x142 code).csrw h 0x143 tval
    else
      let m := putFld (putFld (putFld m 7 1 (m / 8)) 3 1 0) 11 2 k.priv
      (((s.csrw h 0x300 m).csrw h 0x341 k.pc).csrw h 0x342 code).csrw h 0x343 tval
  s.modHart h (fun k => { k with priv := if toS then 1 else 3, pc := w64 target })

/-- A step that was asked for is complete: the thread halts (R466). -/
def State.stepDone (s : State) (h : Nat) : State :=
  if (s.hart h).stepping then (s.modHart h (fun k => { k with stepping := false })).setHartState h 3 else s

/-- Take an exception: to S mode when it is delegated and the thread does not run in M mode. -/
def State.trap (s : State) (h cause tval : Nat) : State :=
  let toS := (s.hart h).priv ≠ 3 && bit (s.csr h 0x302) cause
  let tval := if cause = 19 ∨ cause = 24 ∨ Config.tvalKept cause then tval else 0
  ((s.modHart h (fun k => { k with passBrk := false })).enterTrap h toS false cause tval).stepDone h

/-- An instruction of `len` bytes has been performed. -/
def State.retire (s : State) (h len : Nat) : State :=
  (s.modHart h (fun k => { k with pc := w64 (k.pc + len), instret := k.instret + 1, passBrk := false })).stepDone h

/-- The interrupt that the thread takes: its code and whether it goes to S mode. Software before timer before the local
ones. -/
def State.takenInt (s : State) (h : Nat) : Option (Nat × Bool) :=
  let k := s.hart h
  let m := s.csr h 0x300
  let on_ := s.mipOf h &&& s.csr h 0x304
  let deleg := s.csr h 0x303
  let order := [3, 7, 16, 17]
  let mOk := k.priv < 3 || bit m 3
  let sOk := k.priv < 1 || (k.priv == 1 && bit m 1)
  match order.find? (fun c => bit on_ c && !bit deleg c && mOk) with
  | some c => some (c, false)
  | none => (order.find? (fun c => bit on_ c && bit deleg c && sOk)).map (fun c => (c, true))

/-! ### Physical memory of a thread (R438-R442) -/

/-- Where a physical address of a thread lies. -/
inductive Phys where
  | lm (core off : Nat)
  | l2 (off : Nat)
  | hbm (addr : Nat)
  | bar0 (off : Nat)
  deriving DecidableEq, Repr

/-- The thread's own local slice: offset in the core's local memory. -/
def State.ownLm (s : State) (h a n : Nat) : Option Nat :=
  if a + n ≤ s.rd R.FCR_LM_CFG_size (h / 16) (h % 16) * 4096 then some (s.rd R.FCR_LM_CFG_base (h / 16) (h % 16) * 4096 + a) else none

/-- Table Thread physical address map: what an access of `n` bytes at `a` in privilege mode `priv` reaches. -/
def State.phys (s : State) (h priv a n : Nat) : Option Phys :=
  let sl := s.hartSlice h
  match s.ownLm h a n with
  | some o => some (.lm (h / 16) o)
  | none =>
    if 0x1000000 ≤ a ∧ a + n ≤ 0x1080000 then (if sl = 0 ∧ priv = 3 then some (.lm (h / 16) (a - 0x1000000)) else none)
    else if 0x2000000 ≤ a ∧ a + n ≤ 0x3000000 then (if sl = 0 then some (.l2 (a - 0x2000000)) else none)
    else if 0x1000000000 ≤ a ∧ a < 0x2000000000 then
      let b := a - 0x1000000000
      if b + n ≤ s.hbmLimit && s.ownHbm sl b n then some (.hbm b) else none
    else if 0x2000000000 ≤ a ∧ a + n ≤ 0x2004000000 then (if sl = 0 ∧ priv = 3 then some (.bar0 (a - 0x2000000000)) else none)
    else none

/-- Read bytes of a thread's memory other than BAR0: the bytes, and whether they are poisoned. -/
def State.physRead (s : State) (p : Phys) (n : Nat) : List Byte × Bool × State :=
  match p with
  | .lm c o => (Mem.read (s.fcore c).lm o n, false, s)
  | .l2 o => (Mem.read s.l2 o n, false, s)
  | .hbm a => let r := s.hbmRead a n; (r.data, r.status != 0, r.next)
  | .bar0 _ => (List.replicate n 0, false, s)

/-- The place of a physical address in one numbering of all memories. -/
def Phys.key : Phys → Nat
  | .lm c o => 2 ^ 60 + c * 2 ^ 19 + o
  | .l2 o => 2 ^ 61 + o
  | .hbm a => 2 ^ 62 + a
  | .bar0 o => 2 ^ 63 + o

/-- A store to `n` bytes ends every other thread's reservation of them. -/
def State.breakResv (s : State) (h : Nat) (p : Phys) (n : Nat) : State :=
  let k := p.key
  let hit := fun (x : Hart) => match x.resv with
    | some (a, m, _) => decide (a < k + n) && decide (k < a + m)
    | none => false
  let drop := s.fc.harts.map (fun e => if e.1 != h && hit e.2 then (e.1, { e.2 with resv := none }) else e)
  { s with fc := { s.fc with harts := drop } }

/-- Write bytes of a thread's memory other than BAR0. -/
def State.physWrite (s : State) (h : Nat) (p : Phys) (bs : List Byte) : State :=
  let s := s.breakResv h p bs.length
  match p with
  | .lm c o => let k := s.fcore c; s.setFcore c { k with lm := Mem.write k.lm o bs }
  | .l2 o => { s with l2 := Mem.write s.l2 o bs }
  | .hbm a => (s.hbmWrite a bs).1
  | .bar0 _ => s

/-- Read the thread's own local slice. -/
def State.lmRead (s : State) (h a n : Nat) : Option (List Byte) := (s.ownLm h a n).map (fun o => Mem.read (s.fcore (h / 16)).lm o n)

/-- Write the thread's own local slice. -/
def State.lmWrite (s : State) (h a : Nat) (bs : List Byte) : State :=
  match s.ownLm h a bs.length with
  | some o => s.physWrite h (.lm (h / 16) o) bs
  | none => s

/-! ### Waits (R456) -/

/-- The thread blocks on an instruction. -/
def State.block (s : State) (h kind obj word len : Nat) : State :=
  (s.modHart h (fun k => { k with wait := some { kind := kind, obj := obj, word := word, len := len } })).setHartState h 2

/-- The blocking instruction of a thread completes: its destination register takes a value. -/
def State.wakeWith (s : State) (h : Nat) (v : Nat) : State :=
  match (s.hart h).wait with
  | none => s
  | some b =>
    let s := (s.modHart h (fun k => { k with wait := none })).setHartState h 1
    (s.xw h (bits b.word 11 7) v).retire h b.len

/-- What an instruction of the channel extension does: it is done and its destination register takes a value, it blocks
with a wait_kind and wait_obj, or it raises the channel fault with a reason, or is illegal. -/
inductive ChRes where
  | done (s : State) (v : Option Nat)
  | wait (s : State) (kind obj : Nat)
  | fault (reason : Nat)
  | illegal

end Sys2Proof.Machine
end

