-- ==== Sys2Proof/Machine/Vault.lean ====
section
/-! DEFINITION. The cipher vault: key slots, engines, runs, locks, imports, zeroisation (18_cipher_vault.md R471-R486;
17_flow_cores.md R463). -/

namespace Sys2Proof.Machine

def State.vcnt (s : State) (c : Nat) (n : Nat := 1) : State := s.addTo R.VLT_CNT_count n c

def State.keyReady (s : State) : Bool := s.on R.VLT_STATUS_key_ready

/-- A slot before anything has been done to it: slot 0 is EMPTY with usage `wrap`, the others FREE (R475). -/
def slotDefault (i : Nat) : KeySlot := if i = 0 then { state := 1, usage := 8 } else {}

def State.keySlot (s : State) (i : Nat) : KeySlot := Store.get (slotDefault i) s.vlt.slots i

def State.setSlotK (s : State) (i : Nat) (k : KeySlot) : State := { s with vlt := { s.vlt with slots := Store.put (slotDefault i) s.vlt.slots i k } }

def State.eng (s : State) (e : Nat) : VaultEng := Store.get {} s.vlt.engs e

def State.setEng (s : State) (e : Nat) (x : VaultEng) : State := { s with vlt := { s.vlt with engs := Store.put {} s.vlt.engs e x } }

def State.engFenced (s : State) (e : Nat) : Bool := bit (s.rd R.VLT_ENG_FENCED_fenced) e || s.fencedUnit 2 e

/-- The engine is idle, unlocked and not fenced. -/
def State.engFree (s : State) (e : Nat) : Bool := (s.eng e).run.isNone && (s.eng e).holder.isNone && !s.engFenced e

def State.lockedCount (s : State) : Nat := ((List.range 64).filter (fun e => (s.eng e).holder.isSome)).length

/-- The engine whose lock a thread holds. -/
def State.lockOf (s : State) (h : Nat) : Option Nat := (List.range 64).find? (fun e => (s.eng e).holder == some h && !(s.eng e).endLock)

/-! ### Checks (R481) -/

/-- Steps 1 to 4: `use` is the usage bit needed. -/
def State.slotCheck (s : State) (slice i : Nat) (use : Option Nat) : Nat :=
  let k := s.keySlot i
  if !s.keyReady then St.vx_not_ready
  else if i = 0 ∨ k.state = 0 ∨ k.slice ≠ slice then St.vx_slot
  else if k.state = 4 then St.vx_key_fault
  else if k.state ≠ 3 then St.vx_slot_state
  else match use with
    | some b => if bit k.usage b then 0 else St.vx_usage
    | none => 0

/-- Step 5. -/
def State.lockCheck (s : State) (h : Nat) : Nat :=
  if (s.lockOf h).isSome then 0 else if s.vlt.lost.contains h then St.vx_lock_lost else St.vx_no_lock

/-- A thread has been told that its lock has ended. -/
def State.toldLost (s : State) (h : Nat) : State := { s with vlt := { s.vlt with lost := s.vlt.lost.filter (· != h) } }

/-- Put an operation into the queue of requests, or answer the first failing check. -/
def State.vaultAsk (s : State) (h slot use : Nat) (locked : Bool) (op : VaultOp) : ChRes :=
  let st := s.slotCheck (s.hartSlice h) slot (some use)
  if st ≠ 0 then .done s (some st)
  else
    let lk := if locked then s.lockCheck h else 0
    if lk ≠ 0 then .done (s.toldLost h) (some lk)
    else .wait { s with vlt := { s.vlt with reqs := s.vlt.reqs ++ [{ hart := h, op := some op }] } } 8 0

/-! ### The instructions (R463, R483-R486) -/

/-- vx.blk. -/
def State.vxBlk (s : State) (h a b : Nat) : ChRes :=
  let n := bits b 31 24 + 1
  if bits b 23 18 ≠ 0 ∨ b / 2 ^ 32 ≠ 0 then .fault 4
  else if a % 16 ≠ 0 ∨ (s.ownLm h a (16 * n)).isNone then .fault 6
  else s.vaultAsk h (b % 65536) (if bit b 16 then 1 else 0) (bit b 17) { hart := h, cmac := false, a := a, b := b, slot := b % 65536, locked := bit b 17 }

/-- vx.lock. -/
def State.vxLock (s : State) (h a : Nat) : ChRes :=
  if a / 65536 ≠ 0 then .fault 4
  else if !s.keyReady then .done s (some St.vx_not_ready)
  else if (s.lockOf h).isSome then .done s (some St.vx_lock_held)
  else .wait { s with vlt := { s.vlt with reqs := s.vlt.reqs ++ [{ hart := h, op := none, preload := a }] } } 8 0

/-- Fields of a CMAC block. -/
def cmMsg (b : List Byte) : Nat := fieldLE b 0 8
def cmLen (b : List Byte) : Nat := fieldLE b 8 4
def cmSlot (b : List Byte) : Nat := fieldLE b 0xC 2
def cmFlags (b : List Byte) : Nat := fieldLE b 0xE 1

/-- vx.cmac. -/
def State.vxCmac (s : State) (h a b : Nat) : ChRes :=
  if b / 2 ≠ 0 then .fault 4
  else if a % 16 ≠ 0 then .fault 6
  else match s.lmRead h a 48 with
    | none => .fault 6
    | some blk =>
      let len := cmLen blk
      let first := bit (cmFlags blk) 0
      let last := bit (cmFlags blk) 1
      match (if len = 0 then some (Phys.l2 0) else s.phys h (s.hart h).priv (cmMsg blk) len) with
      | none | some (.bar0 _) => .fault 6
      | some _ =>
        let locked := bit b 0
        match s.vaultAsk h (cmSlot blk) 2 locked { hart := h, cmac := true, a := a, b := b, slot := cmSlot blk, locked := locked } with
        | .wait t k o =>
          if cmFlags blk / 4 ≠ 0 ∨ fieldLE blk 0xF 1 ≠ 0 ∨ fieldLE blk 0x20 16 ≠ 0 then .done s (some St.vx_attr)
          else if 65536 < len ∨ (!last ∧ (len = 0 ∨ len % 16 ≠ 0)) ∨ (len = 0 ∧ !(first && last)) then .done s (some St.vx_len)
          else .wait t k o
        | r => r

/-! ### Locks (R484) -/

/-- The lock of an engine ends; `lost` when its holder has not ended it itself. -/
def State.endLockOf (s : State) (e : Nat) (lost : Bool) : State :=
  let x := s.eng e
  match x.holder with
  | none => s
  | some h =>
    let s := if x.run.isSome then s.setEng e { x with endLock := true } else s.setEng e { x with holder := none, endLock := false }
    if lost then { s with vlt := { s.vlt with lost := if s.vlt.lost.contains h then s.vlt.lost else s.vlt.lost ++ [h] } } else s

/-- vx.unlock. -/
def State.vxUnlock (s : State) (h : Nat) : ChRes :=
  match s.lockOf h with
  | some e => .done (s.endLockOf e false) (some 0)
  | none => .done (s.toldLost h) (some St.vx_no_lock)

/-- LOCK_LEASE_EXPIRE. -/
def State.leaseExpire (s : State) (e : Nat) : State :=
  let us := s.rd R.VLT_CFG_lock_lease_us
  let x := s.eng e
  if x.holder.isSome ∧ x.run.isNone ∧ us ≠ 0 then ((s.runTo (x.lockAt + us * unitsPerUs)).vcnt 7).endLockOf e true else s

/-! ### Giving engines (R472, R483) -/

/-- VLT_ event 0x0002: an uncorrectable key read makes the slot FAULTY (R480). -/
def State.keyFault (s : State) (i : Nat) : State :=
  let k := s.keySlot i
  (s.setSlotK i { k with state := 4 }).eventBoth 0x10 0 2 (leBytes 2 i ++ leBytes 2 k.slice ++ List.replicate 12 0)

/-- At thermal step 2, engines 32-63 take no new runs (20_health_test.md R507). -/
def State.engCool (s : State) (e : Nat) : Bool := e < 32 || s.rd R.HLT_THERM_STATUS_step != 2

/-- The free engine after the one last given; for a run, one that takes runs. -/
def State.nextEng (s : State) (run : Bool) : Option Nat :=
  ((List.range 64).map (fun i => (s.vlt.last + 1 + i) % 64)).find? (fun e => s.engFree e && (!run || s.engCool e))

/-- The request that is served next: the longest-waiting one that can be. -/
def State.nextReq (s : State) : Option (VaultReq × Nat) :=
  s.vlt.reqs.findSome? (fun q => match q.op with
    | some o => if o.locked then (match s.lockOf q.hart with
        | some e => if s.engCool e then some (q, e) else none
        | none => some (q, 64)) else (s.nextEng true).map (fun e => (q, e))
    | none => if s.lockedCount < s.rd R.VLT_CFG_lock_max then (s.nextEng false).map (fun e => (q, e)) else none)

/-- Load a slot's key into an engine. -/
def State.loadKey (s : State) (e i : Nat) : State :=
  if (s.eng e).slot = i then s else (s.setEng e { s.eng e with slot := i }).vcnt 3

/-- LOCK_GRANT: an engine is given to the longest-waiting request; `keyBad`: the key read finds an uncorrectable error. -/
def State.lockGrant (s : State) (keyBad : Bool) : State :=
  match s.nextReq with
  | none => s
  | some (q, e) =>
    let s : State := { s with vlt := { s.vlt with reqs := s.vlt.reqs.erase q } }
    let given := fun (s : State) => { s with vlt := { s.vlt with last := e } }
    match q.op with
    | some o =>
      if e = 64 then (s.toldLost q.hart).wakeWith q.hart St.vx_lock_lost
      else
        let k := s.keySlot o.slot
        if k.state ≠ 3 then s.wakeWith q.hart (if k.state = 4 then St.vx_key_fault else St.vx_key_gone)
        else if keyBad && (s.eng e).slot != o.slot then (s.keyFault o.slot).wakeWith q.hart St.vx_key_fault
        else
          let s := s.loadKey e o.slot
          let s := s.setEng e { s.eng e with run := some { o with key := k.key }, lockAt := s.time.ft }
          if o.locked then s else given s
    | none =>
      let st := if q.preload = 0xFFFF then 0 else s.slotCheck (s.hartSlice q.hart) q.preload none
      if st ≠ 0 then s.wakeWith q.hart st
      else if q.preload ≠ 0xFFFF ∧ keyBad ∧ (s.eng e).slot ≠ q.preload then (s.keyFault q.preload).wakeWith q.hart St.vx_key_fault
      else
        let s := if q.preload = 0xFFFF then s else s.loadKey e q.preload
        let s := s.setEng e { s.eng e with holder := some q.hart, lockAt := s.time.ft, endLock := false }
        ((given s).toldLost q.hart).wakeWith q.hart e

/-! ### The end of a run (R471, R473, R478, R482, R485) -/

/-- Fence an engine (R473, 20_health_test.md R513). -/
def State.fenceEng (s : State) (e : Nat) (o : VaultOp) : State :=
  let s := (s.wr R.VLT_ENG_FENCED_fenced (setBit (s.rd R.VLT_ENG_FENCED_fenced) e true)).wr R.HLT_UNIT_state 4 2 e
  ((s.vcnt 5).endLockOf e true).eventBoth 0x10 0 1 (leBytes 1 e ++ leBytes 1 0 ++ leBytes 2 o.slot ++ leBytes 2 o.hart ++ List.replicate 10 0)

/-- Blocks of a run. -/
def State.runBlocks (s : State) (o : VaultOp) : Nat :=
  if o.cmac then (match s.lmRead o.hart o.a 48 with
    | some b => max 1 ((cmLen b + 15) / 16) + 1
    | none => 1)
  else bits o.b 31 24 + 1

/-- The transformed blocks of a run, the first `n`. -/
def blockResults (key : List Byte) (inverse : Bool) : Nat → List Byte → List Byte
  | 0, _ => []
  | n + 1, bs => aesBlock key (bs.take 16) inverse ++ blockResults key inverse n (bs.drop 16)

/-- Results of a run whose first `n` blocks are good: written to the thread's memory and counted. -/
def State.runResults (s : State) (o : VaultOp) (n total : Nat) : State × Nat :=
  if o.cmac then
    if n < total then (s, 0)
    else match s.lmRead o.hart o.a 48 with
      | none => (s, 0)
      | some b =>
        let len := cmLen b
        let st := if bit (cmFlags b) 0 then List.replicate 16 0 else sliceBytes b 0x10 16
        let msg := if len = 0 then ([], false, s) else match s.phys o.hart (s.hart o.hart).priv (cmMsg b) len with
          | some p => s.physRead p len
          | none => ([], false, s)
        if msg.2.1 then (msg.2.2, St.mem_uncorr)
        else ((msg.2.2.vcnt 2 (total - 1)).lmWrite o.hart (o.a + 0x10) (cmacPart o.key st msg.1 (bit (cmFlags b) 1)), 0)
  else match s.lmRead o.hart o.a (16 * n) with
    | none => (s, 0)
    | some bs => ((s.vcnt (if bit o.b 16 then 1 else 0) n).lmWrite o.hart o.a (blockResults o.key (bit o.b 16) n bs), 0)

/-- VAULT_RUN_DONE: the run of engine `e` ends. `fail`: the block that failed the check twice; `retries`: blocks that passed
the second computation; `started`: the blocks started when the slot was zeroised. -/
def State.vaultRunDone (s : State) (e : Nat) (fail : Option Nat) (retries started : Nat) : State :=
  let x := s.eng e
  match x.run with
  | none => s
  | some o =>
    let total := s.runBlocks o
    let sec := ftSec s.time.ft
    let rt := retries + (if x.retrySec = sec then x.retries else 0)
    let bad := fail.isSome || max 1 (s.rd R.VLT_CFG_mis_thresh) < rt
    let n := min total (min (fail.getD total) (if o.gone then started else total))
    let s := (s.setEng e { x with run := none, retrySec := sec, retries := rt, lockAt := s.time.ft }).vcnt 4 retries
    let s := if x.endLock then s.setEng e { s.eng e with holder := none, endLock := false } else s
    let r := s.runResults o n total
    let s := r.1
    let s := if bad then s.fenceEng e o else s
    let st := if bad then St.vx_check else if n < total then St.vx_key_gone else r.2
    s.wakeWith o.hart st

/-! ### Zeroisation and import (R474, R477-R479) -/

/-- Zeroise a slot that no import holds: it becomes EMPTY, leaves every engine, and a run on it ends `vx_key_gone`; with
`free` it returns to pool 5. -/
def State.slotZero (s : State) (i : Nat) (free : Bool) : State :=
  let k := s.keySlot i
  let engs := s.vlt.engs.map (fun p =>
    let x : VaultEng := p.2
    let x := if x.slot = i then { x with slot := 0xFFFF } else x
    (p.1, { x with run := x.run.map (fun o => if o.slot = i then { o with gone := true } else o) }))
  let s : State := { s with vlt := { s.vlt with engs := engs.filter (fun p => p.2 != ({} : VaultEng)) } }
  if free then (s.setSlotK i {}).uncharge k.slice 5 else s.setSlotK i { state := 1, slice := k.slice }

/-- Tell who waits for an import or a zeroisation its status. -/
def State.tellImport (s : State) (w : ImportFor) (status : Nat) : State :=
  match w with
  | .ring r c => s.finish r c { status := status }
  | .hart h => s.wakeWith h status

/-- Zeroise a slot for a command, at once or after the import that holds it; `true`: it waits. -/
def State.zeroFor (s : State) (i : Nat) (free : Bool) (w : Option ImportFor) : Bool × State :=
  if (s.keySlot i).state = 2 then (true, { s with vlt := { s.vlt with zeros := s.vlt.zeros ++ [{ slot := i, free := free, for_ := w }] } })
  else (false, s.slotZero i free)

/-- Zeroisations that waited for the import of a slot apply. -/
def State.zeroNow (s : State) (i : Nat) : State :=
  let mine := s.vlt.zeros.filter (·.slot == i)
  let s : State := { s with vlt := { s.vlt with zeros := s.vlt.zeros.filter (·.slot != i) } }
  mine.foldl (fun (s : State) (z : ZeroOn) =>
    let s := if (s.keySlot i).state = 0 then s else s.slotZero i z.free
    match z.for_ with
    | some w => s.tellImport w 0
    | none => s) s

/-- The conditions of R477 beyond the target's own: the key-encryption key may be used for the target's slice. -/
def State.importCheck (s : State) (slot kek : Nat) (zeroOk : Bool) : Nat :=
  let t := s.keySlot slot
  let k := s.keySlot kek
  if k.state = 0 ∨ (kek = 0 ∧ !zeroOk) ∨ (kek ≠ 0 ∧ k.slice ≠ t.slice) then St.vx_slot
  else if t.state ≠ 1 then St.vx_slot_state
  else if k.state = 4 then St.vx_key_fault
  else if k.state ≠ 3 then St.vx_slot_state
  else if !bit k.usage 3 then St.vx_usage
  else 0

/-- An accepted import. -/
def State.importStart (s : State) (o : ImportOn) : State :=
  let s := s.setSlotK o.slot { s.keySlot o.slot with state := 2 }
  { s with vlt := { s.vlt with imports := s.vlt.imports ++ [o] } }

/-- vx.import. -/
def State.vxImport (s : State) (h a : Nat) : ChRes :=
  if a % 16 ≠ 0 then .fault 6
  else match s.lmRead h a 64 with
    | none => .fault 6
    | some b =>
      let slot := fieldLE b 0 2
      let kek := fieldLE b 2 2
      let len := fieldLE b 4 1
      let k := s.keySlot slot
      let attr := (len ≠ 32 ∧ len ≠ 48) ∨ fieldLE b 5 11 ≠ 0 ∨ fieldLE b (0x10 + len) (48 - len) ≠ 0
      if !s.keyReady then .done s (some St.vx_not_ready)
      else if slot = 0 ∨ k.state = 0 ∨ k.slice ≠ s.hartSlice h then .done s (some St.vx_slot)
      else
        let st := s.importCheck slot kek false
        if st ≠ 0 then .done s (some st)
        else if attr then .done s (some St.vx_attr)
        else .wait (s.importStart { slot := slot, kek := kek, blob := sliceBytes b 0x10 len, for_ := .hart h }) 8 0

/-- vx.zero. -/
def State.vxZero (s : State) (h a : Nat) : ChRes :=
  let slot := a
  let k := s.keySlot slot
  if a / 65536 ≠ 0 then .fault 4
  else if !s.keyReady then .done s (some St.vx_not_ready)
  else if slot = 0 ∨ k.state = 0 ∨ k.slice ≠ s.hartSlice h then .done s (some St.vx_slot)
  else match s.zeroFor slot false (some (.hart h)) with
    | (true, s) => .wait s 8 0
    | (false, s) => .done s (some 0)

/-- The wrapped key plaintext is in order (table Wrapped key plaintext). -/
def keyAttrOk (p : List Byte) : Bool :=
  let sz := fieldLE p 0 1
  let us := fieldLE p 1 1
  (sz == 1 && p.length == 24 || sz == 2 && p.length == 40) && us < 16 && fieldLE p 2 6 == 0 && (!bit us 3 || us == 8)

/-- IMPORT_DONE: the oldest import ends; `keyBad`: the read of the key-encryption key finds an uncorrectable error. -/
def State.importDone (s : State) (keyBad : Bool) : State :=
  match s.vlt.imports with
  | [] => s
  | o :: l =>
    let s : State := { s with vlt := { s.vlt with imports := l } }
    let t := s.keySlot o.slot
    let k := s.keySlot o.kek
    let empty := fun (s : State) => s.setSlotK o.slot { state := 1, slice := t.slice }
    let r : State × Nat :=
      if k.state ≠ 3 then (empty s, St.vx_key_gone)
      else if keyBad then ((empty s).keyFault o.kek, St.vx_key_fault)
      else match keyUnwrap k.key o.blob with
        | none => (empty s, St.vx_unwrap)
        | some p =>
          if keyAttrOk p then
            ((s.setSlotK o.slot { state := 3, size := fieldLE p 0 1, usage := fieldLE p 1 1, slice := t.slice, key := p.drop 8 }).vcnt 6, 0)
          else (empty s, St.vx_attr)
    (r.1.tellImport o.for_ r.2).zeroNow o.slot

/-- ZEROISE_ALL (R479): every slot but slot 0; allocations stay. -/
def State.zeroiseAll (s : State) : State :=
  let held := (s.vlt.slots.filter (fun p => p.1 != 0 && p.2.state != 0)).map (·.1)
  let s := held.foldl (fun s i => (s.zeroFor i false none).2) s
  s.eventBoth 0x10 0 3 (leBytes 4 held.length ++ List.replicate 12 0)

/-- Step 6 of a slice's reset or removal: every slot of it is zeroised and freed (R478). -/
def State.slotsGone (s : State) (x : Nat) : State :=
  ((s.vlt.slots.filter (fun p => p.2.state != 0 && p.2.slice == x)).map (·.1)).foldl (fun s i => (s.zeroFor i true none).2) s

/-- Slot 0 is loaded with the transport key at the release of the key store (R475, R476). -/
def State.loadTransport (s : State) : State :=
  if s.otp.transport.isEmpty then s else s.setSlotK 0 { state := 3, size := 2, usage := 8, slice := 0, key := s.otp.transport }

/-- A blocking vault instruction of a thread is abandoned: its run is discarded, its lock stays (R482). -/
def State.vaultAbandon (s : State) (h : Nat) : State :=
  let engs := s.vlt.engs.map (fun p =>
    let x : VaultEng := p.2
    let mine := match x.run with
      | some o => o.hart == h
      | none => false
    (p.1, if mine then { x with run := none, holder := if x.endLock then none else x.holder, endLock := false } else x))
  let imps := s.vlt.imports.filter (·.for_ == .hart h)
  let s : State := { s with vlt := { s.vlt with engs := engs.filter (fun p => p.2 != ({} : VaultEng)), reqs := s.vlt.reqs.filter (·.hart != h)
                                                imports := s.vlt.imports.filter (·.for_ != .hart h)
                                                zeros := s.vlt.zeros.map (fun z => if z.for_ = some (.hart h) then { z with for_ := none } else z) } }
  imps.foldl (fun s o => (s.setSlotK o.slot { s.keySlot o.slot with state := 1 }).zeroNow o.slot) s

/-- The locks of a thread end with it (R484). -/
def State.vaultForget (s : State) (h : Nat) : State :=
  let s := s.vaultAbandon h
  (match s.lockOf h with
  | some e => s.endLockOf e false
  | none => s).toldLost h

/-! ### Operator commands (table Key command descriptors) -/

/-- Other bytes of a key command are 0. -/
def keyRest (d : List Byte) (used : List (Nat × Nat)) : Bool :=
  (List.range 48).all (fun i => used.any (fun u => u.1 ≤ 16 + i && 16 + i < u.1 + u.2) || fieldLE d (16 + i) 1 == 0)

/-- KEY_ALLOC. -/
def State.keyAlloc (s : State) (r : Nat) : State :=
  s.perform r [0x78] (fun _ g s =>
    let x := fieldLE g.desc 0x10 2
    if 4096 ≤ x ∨ !keyRest g.desc [(0x10, 2)] then s.fail r g.count St.bad_desc
    else if !s.keyReady then s.fail r g.count St.vx_not_ready
    else if !s.sliceActive x then s.fail r g.count St.slice_state
    else
      let st := s.allocStatus x 5
      if st ≠ 0 then s.fail r g.count st
      else
        let i := lowestFree ((s.vlt.slots.filter (fun p => p.2.state != 0)).map (·.1)) 1
        ((s.charge x 5).setSlotK i { state := 1, slice := x }).finish r g.count { status := 0, x18 := leBytes 2 i })

/-- KEY_FREE and KEY_ZERO. -/
def State.keyZero (s : State) (r op : Nat) (free : Bool) : State :=
  s.perform r [op] (fun _ g s =>
    let i := fieldLE g.desc 0x12 2
    if !keyRest g.desc [(0x12, 2)] then s.fail r g.count St.bad_desc
    else if !s.keyReady then s.fail r g.count St.vx_not_ready
    else if i = 0 ∨ (s.keySlot i).state = 0 then s.fail r g.count St.vx_slot
    else match s.zeroFor i free (some (.ring r g.count)) with
      | (true, s) => s.performed r g.count
      | (false, s) => s.finish r g.count { status := 0 })

/-- KEY_IMPORT. -/
def State.keyImport (s : State) (r : Nat) : State :=
  s.perform r [0x7A] (fun x g s =>
    let slot := fieldLE g.desc 0x10 2
    let kek := fieldLE g.desc 0x12 2
    let len := fieldLE g.desc 0x14 1
    if (len ≠ 32 ∧ len ≠ 48) ∨ !keyRest g.desc [(0x10, 5), (0x18, 8)] then s.fail r g.count St.bad_desc
    else if !s.keyReady then s.fail r g.count St.vx_not_ready
    else if slot = 0 ∨ (s.keySlot slot).state = 0 then s.fail r g.count St.vx_slot
    else
      let st := s.importCheck slot kek true
      if st ≠ 0 then s.fail r g.count st
      else match s.readFor (.work r g.count) g.slice x.mem (fieldLE g.desc 0x18 8) len with
        | (.wait, s) => s
        | (.fail st, s) => s.fail r g.count st
        | (.ok blob, s) => (s.performed r g.count).importStart { slot := slot, kek := kek, blob := blob, for_ := .ring r g.count })

def execLockGrant (keyBad : Bool) (s : State) : Out := s.whenMain (·.lockGrant keyBad)
def execVaultRunDone (e : Fin 64) (fail : Option (Fin 4098)) (retries started : Nat) (s : State) : Out :=
  s.whenMain (·.vaultRunDone e (fail.map (·.val)) retries started)
def execLockLeaseExpire (e : Fin 64) (s : State) : Out := s.whenMain (·.leaseExpire e)
def execKeyAlloc (r : Fin 65536) (s : State) : Out := s.whenMain (·.keyAlloc r)
def execKeyFree (r : Fin 65536) (s : State) : Out := s.whenMain (·.keyZero r 0x79 true)
def execKeyImport (r : Fin 65536) (s : State) : Out := s.whenMain (·.keyImport r)
def execImportDone (keyBad : Bool) (s : State) : Out := s.whenMain (·.importDone keyBad)
def execKeyZero (r : Fin 65536) (s : State) : Out := s.whenMain (·.keyZero r 0x7B false)

end Sys2Proof.Machine
end

