-- ==== Sys2Proof/Machine/Chan.lean ====
section
/-! DEFINITION. Channels, packet ports, alarms, interrupts of threads, the channel extension, the deadlock detector and
thread control (17_flow_cores.md R441, R443, R448-R470). -/

namespace Sys2Proof.Machine

/-! ### Channels (R448-R450) -/

def State.chMsgs (s : State) (c ch : Nat) : List Msg := Store.get [] (s.fcore c).chans ch

def State.setMsgs (s : State) (c ch : Nat) (l : List Msg) : State :=
  let k := s.fcore c
  s.setFcore c { k with chans := Store.put [] k.chans ch l }

/-- A depth of 0 acts as 1. -/
def State.chDepth (s : State) (c ch : Nat) : Nat := max 1 (s.rd R.FCR_CH_CFG_depth c ch)

def State.chOn (s : State) (c ch : Nat) : Bool := s.on R.FCR_CH_CFG_enable c ch

def State.chFull (s : State) (c ch : Nat) : Bool := s.chDepth c ch ≤ (s.chMsgs c ch).length

/-- A channel that takes no message: disabled, or its core DRAINING, TESTING or FENCED (20_health_test.md R511). -/
def State.chClosed (s : State) (c ch : Nat) : Bool := !s.chOn c ch || s.fencedUnit 1 c

/-- Append a message; it ends a deadlock of the domain. -/
def State.chPush (s : State) (c ch : Nat) (m : Msg) : State := (s.setMsgs c ch (s.chMsgs c ch ++ [m])).clearDl (s.dom c)

/-- A message of the device (table Device messages). -/
def State.devMsg (s : State) (c ch : Nat) (words : List Nat) : State := s.chPush c ch { words := words, sender := 0x7FF }

/-- The local channel of a thread is its own. -/
def State.ownsCh (s : State) (h ch : Nat) : Bool := s.rd R.FCR_CH_CFG_owner (h / 16) ch == h % 16

/-- What ch.recv puts into rd (R452). -/
def recvWord (m : Msg) : Nat := m.words.length + m.sender * 2 ^ 16

/-! ### Receive packet ports (R457) -/

def State.rxp (s : State) (c p : Nat) : RxPort := Store.get {} (s.fcore c).rxp p

def State.setRxp (s : State) (c p : Nat) (x : RxPort) : State :=
  let k := s.fcore c
  s.setFcore c { k with rxp := Store.put {} k.rxp p x }

def State.rxEntries (s : State) (c p : Nat) : Nat := 2 ^ s.ac R.FCR_RXP_CFG_log2_entries c p
def State.rxEsize (s : State) (c p : Nat) : Nat := 2 ^ s.ac R.FCR_RXP_CFG_log2_esize c p

/-- Place of an entry in the core's local memory. -/
def State.rxEntry (s : State) (c p n : Nat) : Nat := s.ac R.FCR_RXP_CFG_base c p * 256 + n % s.rxEntries c p * s.rxEsize c p

/-- A filled entry has not been returned yet. -/
def RxPort.ready (x : RxPort) : Bool := x.returned < x.filled

def State.ownsRx (s : State) (h p : Nat) : Bool := s.ac R.FCR_RXP_CFG_owner (h / 16) p == h % 16

/-- The packet descriptor of a packet (09_parsing.md R254). -/
def pktDesc (k : Pkt) : List Byte :=
  leBytes 8 k.frame.stamp ++ leBytes 2 k.frame.src ++ leBytes 2 (k.slice % 4096 + k.ver % 16 * 4096) ++ leBytes 2 k.dest ++ leBytes 2 (k.mirror.getD 0)
    ++ leBytes 2 (k.policer.getD 0) ++ leBytes 2 k.slice ++ leBytes 1 (k.cls % 8 + k.ts % 4 * 8 + k.frame.recirc * 32) ++ leBytes 1 k.flags
    ++ leBytes 2 k.reason ++ leBytes 4 k.hash ++ leBytes 2 k.frame.data.length ++ leBytes 2 0 ++ leBytes 16 k.user ++ List.replicate 16 0

/-- PORT_RX_DELIVER: the switch core writes the first frame of the port's queue into the next free entry. -/
def State.portRx (s : State) (c p : Nat) : State :=
  let q := 4688 + 16 * c + p
  match s.headFull q with
  | none => s
  | some k =>
    if s.ac R.FCR_RXP_CFG_enable c p ≠ 1 ∨ s.fencedUnit 1 c then (s.swcCnt 6).consume q false
    else if k.frame.bad || k.frame.poison then s.consume q false
    else
      let x := s.rxp c p
      if s.rxEntries c p ≤ x.filled - x.released then s
      else
        let room := s.rxEsize c p - 64
        let s := if room < k.frame.data.length then s.fcnt c 3 else s
        let s := s.physWrite 1024 (.lm c (s.rxEntry c p x.filled)) (pktDesc k ++ k.frame.data.take room)
        ((s.setRxp c p { x with filled := x.filled + 1 }).clearDl (s.dom c)).consume q true

/-! ### Transmit packet ports (R458, R459) -/

/-- Reserved fields of a transmit packet descriptor are 0 and its length is in range. -/
def txDescOk (d : List Byte) : Bool :=
  let len := fieldLE d 8 2
  60 ≤ len && len ≤ 9596 && bits (fieldLE d 0xA 2) 14 12 == 0 && fieldLE d 0xC 1 / 32 == 0 && fieldLE d 0xD 1 / 16 == 0
    && fieldLE d 0xE 2 / 64 == 0 && (d.drop 0x28).all (· == 0) && fieldLE d 0 8 % 8 == 0

/-- pt.send. -/
def State.ptSend (s : State) (h p a : Nat) : ChRes :=
  let c := h / 16
  if 16 ≤ p then .fault 4
  else if s.ac R.FCR_TXP_CFG_owner c p ≠ h % 16 then .fault 6
  else match s.lmRead h a 64 with
    | none => .fault 6
    | some d =>
      let sl := fieldLE d 0xA 2
      let own := s.hartSlice h
      let len := fieldLE d 8 2
      if bit sl 15 ∧ sl % 4096 ≠ own ∧ own ≠ 0 then .done s (some St.slice_mismatch)
      else if s.ac R.FCR_TXP_CFG_enable c p ≠ 1 ∨ txDescOk d = false then .done s (some St.bad_desc)
      else match s.phys h (s.hart h).priv (fieldLE d 0 8) len with
        | none | some (.bar0 _) => .done s (some St.bad_desc)
        | some m =>
          let q := s.ac R.FCR_TXP_CFG_pipe c p
          if s.injHeld q 3 then .wait s 6 p
          else
            let (data, bad, s) := s.physRead m len
            if bad then .done s (some St.mem_uncorr)
            else
              let k := fieldLE d 0xC 1
              let r := fieldLE d 0xD 1
              let ts := bit k 4
              let i := s.fc.nextTs
              let s : State := if ts then { s with fc := { s.fc with owed := s.fc.owed ++ [{ id := i, core := c, ch := fieldLE d 0xE 2, cookie := fieldLE d 0x10 8 }], nextTs := i + 1 } } else s
              let f : Frame := { data := data, src := 0x200 + c, slice := if bit sl 15 then sl % 4096 else own, cls := if bit k 3 then some (k % 8) else none, ts := b2n ts, user := fieldLE d 0x18 16, recirc := if bit r 3 then r % 8 + 1 else 0, tsTo := if ts then some i else none }
              .done (s.toPipe q f) (some 0)

/-- Timestamps whose frame the egress MAC has taken are sent to their channels, or lost (R459). -/
def State.tsFlush (s : State) : State :=
  let due := s.fc.owed.filter (·.stamp.isSome)
  let s : State := { s with fc := { s.fc with owed := s.fc.owed.filter (·.stamp.isNone) } }
  due.foldl (fun s o => if s.chClosed o.core o.ch || s.chFull o.core o.ch then s.fcnt o.core 4
    else s.devMsg o.core o.ch [o.cookie, o.stamp.getD 0]) s

/-! ### The instructions -/

/-- ch.put. -/
def State.chPut (s : State) (h a : Nat) : ChRes :=
  if 8 ≤ (s.hart h).out.length then .fault 2
  else .done (s.modHart h (fun k => { k with out := k.out ++ [a] })) none

/-- ch.commit, and ch.tcommit with `try_`. -/
def State.chCommit (s : State) (h a : Nat) (try_ : Bool) : ChRes :=
  let c := bits a 11 6
  let ch := a % 64
  let k := s.hart h
  if a / 4096 ≠ 0 then .fault 4
  else if k.out = [] then .fault 3
  else if s.dom c ≠ s.dom (h / 16) then .fault 4
  else if !s.chOn c ch ∨ (c ≠ h / 16 ∧ s.fencedUnit 1 c) then .fault 5
  else if s.chFull c ch then (if try_ then .done s (some 1) else .wait s 4 ch)
  else .done ((s.chPush c ch { words := k.out, sender := h }).modHart h (fun k => { k with out := [] })) (some 0)

/-- ch.recv, and ch.trecv with `try_`. -/
def State.chRecv (s : State) (h a : Nat) (try_ : Bool) : ChRes :=
  let c := h / 16
  if 64 ≤ a then .fault 4
  else if !s.ownsCh h a then .fault 1
  else if !s.chOn c a then .fault 5
  else match s.chMsgs c a with
    | [] => if try_ then .done s (some 0) else .wait s 1 a
    | m :: l => .done ((s.setMsgs c a l).modHart h (fun k => { k with inbox := m.words })) (some (recvWord m))

/-- ch.select. -/
def State.chSelect (s : State) (h a b : Nat) : ChRes :=
  let c := h / 16
  let chs := (List.range 64).filter (fun i => bit a i)
  let pts := (List.range 16).filter (fun i => bit b i)
  if 65536 ≤ b then .fault 4
  else if chs.any (fun i => !s.ownsCh h i) || pts.any (fun i => !s.ownsRx h i) then .fault 1
  else if chs.any (fun i => !s.chOn c i) then .fault 5
  else match chs.find? (fun i => !(s.chMsgs c i).isEmpty) with
    | some i => .done s (some i)
    | none => match pts.find? (fun i => (s.rxp c i).ready) with
      | some i => .done s (some (64 + i))
      | none => .wait s 2 (chs.headD 0)

/-- ch.wait. -/
def State.chWait (s : State) (a : Nat) : ChRes :=
  if !ft64Valid a then .done s (some St.bad_time)
  else if a ≤ s.now64 then .done s (some 0)
  else .wait s 3 0

/-- ch.alarm. -/
def State.chAlarm (s : State) (h a b : Nat) : ChRes :=
  if 64 ≤ b then .fault 4
  else if !s.chOn (h / 16) b then .fault 5
  else if !ft64Valid a then .done s (some St.bad_time)
  else if 4 ≤ (s.fc.alarms.filter (·.hart == h)).length then .done s (some 1)
  else .done { s with fc := { s.fc with alarms := s.fc.alarms ++ [{ hart := h, ch := b, time := a }] } } (some 0)

/-- ch.ipi. -/
def State.chIpi (s : State) (h a : Nat) : ChRes :=
  if 1024 ≤ a ∨ s.dom (a / 16) ≠ s.dom (h / 16) then .fault 4
  else .done (s.raiseInt a 3) none

/-- ch.db (R462). -/
def State.chDb (s : State) (h a b : Nat) : ChRes :=
  let own := s.hartSlice h
  let mine : Bool := match s.ring a with
    | some x => x.slice == own
    | none => false
  if 65536 ≤ a then .fault 4
  else if mine || own == 0 then .done (s.doorbell a b) (some 0)
  else .done s (some St.slice_mismatch)

/-- ch.cpl (R461). -/
def State.chCpl (s : State) (h a b : Nat) : ChRes :=
  let r := a % 65536
  let t := bits a 32 16
  let own := s.hartSlice h
  let mine : Bool := match s.ring r with
    | some x => x.slice == own
    | none => true
  if a / 2 ^ 41 ≠ 0 ∨ (own ≠ 0 ∧ !mine) then .fault 4
  else
    let cur : Option Flight := match s.ring r with
      | some x => if x.type = 5 then x.eng.flight.find? (fun (g : Flight) => g.tag == some t && g.cpl.isNone && s.tagGen t == bits a 40 33) else none
      | none => none
    match cur with
    | some g =>
      let st := b % 65536
      let x12 := bits b 31 16
      let s := s.finish r g.count { status := st, bytes := b / 2 ^ 32, x12 := leBytes 2 x12 }
      .done (s.workDone r g.count (if x12 = 0 then st else x12)) (some 0)
    | none =>
      let s := match s.rng.late.find? (fun l => l.1 == t && l.2.1 == r) with
        | some l => s.finish r l.2.2.1 { status := 0 }
        | none => s
      .done (s.fcnt (h / 16) 7) (some 1)

/-- pt.recv, and pt.trecv with `try_`: the thread address of the next filled entry. -/
def State.ptRecv (s : State) (h p : Nat) (try_ : Bool) : ChRes :=
  let c := h / 16
  let x := s.rxp c p
  if 16 ≤ p then .fault 4
  else if !s.ownsRx h p then .fault 1
  else if x.ready then
    .done (s.setRxp c p { x with returned := x.returned + 1 }) (some (s.rxEntry c p x.returned - s.rd R.FCR_LM_CFG_base c (h % 16) * 4096))
  else if try_ then .done s (some 0)
  else .wait s 5 p

/-- pt.done. -/
def State.ptDone (s : State) (h p : Nat) : ChRes :=
  let c := h / 16
  let x := s.rxp c p
  if 16 ≤ p then .fault 4
  else if !s.ownsRx h p then .fault 1
  else if x.returned ≤ x.released then .fault 7
  else .done (s.setRxp c p { x with released := x.released + 1 }) none

/-- Table Channel extension instructions: which register fields an instruction names (rs1, rs2, rd); none: no such
instruction. -/
def customFields (f3 f7 : Nat) : Option (Bool × Bool × Bool) :=
  match f3, f7 with
  | 0, 0 => some (true, false, false)
  | 0, 1 | 0, 2 => some (true, false, true)
  | 0, 3 => some (false, false, false)
  | 0, 4 | 0, 5 => some (true, false, true)
  | 0, 6 => some (false, true, true)
  | 0, 7 => some (true, true, true)
  | 0, 8 => some (true, false, true)
  | 0, 9 => some (true, true, true)
  | 0, 10 => some (true, false, false)
  | 1, 0 | 1, 1 => some (true, true, true)
  | 2, 0 | 2, 1 => some (true, false, true)
  | 2, 2 => some (true, false, false)
  | 2, 3 => some (true, true, true)
  | 3, 0 => some (true, true, true)
  | 3, 1 => some (true, false, true)
  | 3, 2 => some (false, false, true)
  | 3, 3 => some (true, true, true)
  | 3, 4 => some (true, false, true)
  | 3, 5 => some (true, false, true)
  | _, _ => none

/-- An instruction word of the channel extension (table Channel extension instructions; table Vault instructions of
18_cipher_vault.md). -/
def State.custom (s : State) (h w : Nat) : ChRes :=
  let f3 := bits w 14 12
  let f7 := bits w 31 25
  let r1 := bits w 19 15
  let r2 := bits w 24 20
  let a := s.xr h r1
  let b := s.xr h r2
  match customFields f3 f7 with
  | none => .illegal
  | some (u1, u2, ud) =>
    if (!u1 ∧ r1 ≠ 0) ∨ (!u2 ∧ r2 ≠ 0) ∨ (!ud ∧ bits w 11 7 ≠ 0) then .illegal
    else match f3, f7 with
      | 0, 0 => s.chPut h a
      | 0, 1 => s.chCommit h a false
      | 0, 2 => s.chCommit h a true
      | 0, 3 => .done (s.modHart h (fun k => { k with out := [] })) none
      | 0, 4 => s.chRecv h a false
      | 0, 5 => s.chRecv h a true
      | 0, 6 => if 8 ≤ r2 then .illegal else .done s (some ((s.hart h).inbox.getD r2 0))
      | 0, 7 => s.chSelect h a b
      | 0, 8 => s.chWait a
      | 0, 9 => s.chAlarm h a b
      | 0, 10 => s.chIpi h a
      | 1, 0 => s.chDb h a b
      | 1, 1 => s.chCpl h a b
      | 2, 0 => s.ptRecv h a false
      | 2, 1 => s.ptRecv h a true
      | 2, 2 => s.ptDone h a
      | 2, 3 => s.ptSend h a b
      | 3, 0 => s.vxBlk h a b
      | 3, 1 => s.vxLock h a
      | 3, 2 => s.vxUnlock h
      | 3, 3 => s.vxCmac h a b
      | 3, 4 => s.vxImport h a
      | 3, 5 => s.vxZero h a
      | _, _ => .illegal

/-- Perform an instruction of the channel extension at the PC of a running thread. -/
def State.customStep (s : State) (h w : Nat) : State :=
  match s.custom h w with
  | .done s v => (match v with
      | some x => s.xw h (bits w 11 7) x
      | none => s).retire h 4
  | .wait s kind obj => s.block h kind obj w 4
  | .fault reason => s.trap h 24 reason
  | .illegal => s.trap h 2 w

/-- The word of an instruction of the channel extension. -/
def customWord (f3 f7 rs2 rs1 rd : Nat) : Nat := f7 * 2 ^ 25 + rs2 * 2 ^ 20 + rs1 * 2 ^ 15 + f3 * 2 ^ 12 + rd * 2 ^ 7 + 0x0B

/-- A running thread performs an instruction of the channel extension. -/
def State.chRow (s : State) (h f3 f7 rs2 rs1 rd : Nat) : State :=
  if (s.hart h).state = 1 then s.customStep h (customWord f3 f7 rs2 rs1 rd) else s

/-! ### Waits, alarms, interrupts (R455, R456) -/

/-- The thread leaves its blocking instruction without its effect: RUNNING at it. -/
def State.unblock (s : State) (h : Nat) : State :=
  if (s.hart h).state = 2 then ((s.vaultAbandon h).modHart h (fun k => { k with wait := none })).setHartState h 1 else s

/-- BLOCKED_WAKE: the wait of a thread on a channel, port or back-pressure is satisfied. -/
def State.blockedWake (s : State) (h : Nat) : State :=
  match (s.hart h).wait with
  | none => s
  | some b =>
    if (s.hart h).state ≠ 2 ∨ b.kind = 3 ∨ 7 ≤ b.kind then s
    else match s.custom h b.word with
      | .done t v =>
        let t := (t.modHart h (fun k => { k with wait := none })).setHartState h 1
        (match v with
        | some x => t.xw h (bits b.word 11 7) x
        | none => t).retire h b.len
      | .wait _ _ _ => s
      | .fault reason => (s.unblock h).trap h 24 reason
      | .illegal => (s.unblock h).trap h 2 b.word

/-- CH_WAIT_EXPIRE. -/
def State.chWaitEnd (s : State) (h : Nat) : State :=
  match (s.hart h).wait with
  | none => s
  | some b =>
    if (s.hart h).state ≠ 2 ∨ b.kind ≠ 3 then s
    else (s.runTo (ft64Units (s.xr h (bits b.word 19 15)))).wakeWith h 0

/-- The alarm that fires next: the earliest among those whose channel has room, armed first of several. -/
def State.nextAlarm (s : State) : Option FcAlarm :=
  (s.fc.alarms.filter (fun a => !s.chFull (a.hart / 16) a.ch)).foldl (fun (m : Option FcAlarm) a => match m with
    | some b => if a.time < b.time then some a else some b
    | none => some a) none

/-- ALARM_FIRE. -/
def State.alarmFire (s : State) : State :=
  match s.nextAlarm with
  | none => s
  | some a =>
    let s := s.runTo (ft64Units a.time)
    let s : State := { s with fc := { s.fc with alarms := s.fc.alarms.erase a } }
    s.devMsg (a.hart / 16) a.ch [a.time]

/-- INTERRUPT_TAKE. -/
def State.takeInterrupt (s : State) (h : Nat) : State :=
  let st := (s.hart h).state
  if st ≠ 1 ∧ st ≠ 2 then s
  else match s.takenInt h with
    | none => s
    | some (code, toS) => ((s.unblock h).modHart h (fun k => { k with passBrk := false })).enterTrap h toS true code 0

/-! ### Thread control (R441, R443, R444, R448, R449) -/

/-- Start a thread. -/
def State.threadEnable (s : State) (h : Nat) : State :=
  if (s.hart h).state ≠ 0 then s
  else
    let s := s.wr R.FCR_THREAD_CFG_enable 1 (h / 16) (h % 16)
    (s.setHart h { pc := s.rd R.FCR_THREAD_PC_pc (h / 16) (h % 16), x := Store.put 0 [] 10 h, readyAt := (s.fcore (h / 16)).clk }).setHartState h 1

/-- Stop a thread at once. -/
def State.threadDisable (s : State) (h : Nat) : State :=
  let s := s.wr R.FCR_THREAD_CFG_enable 0 (h / 16) (h % 16)
  if (s.hart h).state = 0 then s
  else
    let s := (s.vaultForget h).setHartState h 0
    let s := s.setHart h {}
    { s with fc := { s.fc with alarms := s.fc.alarms.filter (·.hart != h) } }

/-- A write of FCR_THREAD_CFG[t]: `slice` only while the thread is disabled. -/
def State.threadCfg (s : State) (h v : Nat) : State :=
  let sl := bits v 31 20
  let off : Bool := (s.hart h).state == 0
  let s := if off then s.wr R.FCR_THREAD_CFG_slice sl (h / 16) (h % 16)
    else if sl = s.hartSlice h then s else s.refusedWr
  if bit v 0 then s.threadEnable h else s.threadDisable h

/-- THREAD_ENABLE and THREAD_DISABLE are writes of `enable` that keep `slice`. -/
def State.threadWr (s : State) (h : Nat) (on_ : Bool) : State := s.threadCfg h (s.hartSlice h * 2 ^ 20 + b2n on_)

/-- A write of FCR_LM_CFG[t] (R441). -/
def State.lmCfg (s : State) (h v : Nat) : State :=
  let c := h / 16
  let base := v % 128
  let size := bits v 15 8
  let clash := (List.range 16).any (fun t =>
    let b := s.rd R.FCR_LM_CFG_base c t
    let n := s.rd R.FCR_LM_CFG_size c t
    t != h % 16 && n != 0 && size != 0 && b < base + size && base < b + n)
  if (s.hart h).state ≠ 0 ∨ 128 < base + size ∨ clash then s.refusedWr
  else (s.wr R.FCR_LM_CFG_base base c (h % 16)).wr R.FCR_LM_CFG_size size c (h % 16)

/-- A write of FCR_CORE_CFG (R448). -/
def State.coreCfg (s : State) (c v : Nat) : State :=
  let idle := (List.range 16).all (fun t => (s.hart (16 * c + t)).state == 0)
  let d := bits v 13 8
  let s := (s.wr R.FCR_CORE_CFG_sup_en (b2n (bit v 4)) c).wr R.FCR_CORE_CFG_sup_thread v c
  if d = s.dom c then s else if idle then s.wr R.FCR_CORE_CFG_dom d c else s.refusedWr

/-- The thread waits for channel `ch` of core `c`: it reads it, or commits to it. -/
def State.waitsOn (s : State) (h c ch : Nat) : Bool :=
  match (s.hart h).wait with
  | none => false
  | some b =>
    let a := s.xr h (bits b.word 19 15)
    (b.kind == 1 && h / 16 == c && b.obj == ch) || (b.kind == 2 && h / 16 == c && bit a ch)
      || (b.kind == 4 && bits a 11 6 == c && a % 64 == ch)

/-- Disable a channel (R449). -/
def State.chDisable (s : State) (c ch : Nat) : State :=
  let s := (s.fcnt c 5 (s.chMsgs c ch).length).setMsgs c ch []
  let s : State := { s with fc := { s.fc with alarms := s.fc.alarms.filter (fun a => !(a.hart / 16 == c && a.ch == ch)) } }
  let hit := (s.fc.harts.map (·.1)).filter (fun h => s.waitsOn h c ch)
  hit.foldl (fun s h => (s.unblock h).trap h 24 5) s

/-- A write of FCR_CH_CFG[c]. -/
def State.chCfg (s : State) (c ch v : Nat) : State :=
  let on_ := bit v 31
  let depth := bits v 12 8
  let sum := (List.range 64).foldl (fun a i => if i ≠ ch ∧ s.chOn c i then a + s.chDepth c i else a) (max 1 depth)
  let put := fun (s : State) => s.putReg false R.reg_FCR_CH_CFG c ch 0 v
  if on_ then
    if 16 < depth ∨ 512 < sum ∨ max 1 depth < (s.chMsgs c ch).length then s.refusedWr else put s
  else if s.chOn c ch then put (s.chDisable c ch)
  else put s

/-! ### Work messages (R460) -/

/-- Core and channel of a type 5 ring. -/
def Ring.toChan (x : Ring) : Nat × Nat := (x.target / 64 % 64, x.target % 64)

/-- The target channel of a ring has no room: the ring starts no entry. -/
def State.workFull (s : State) (r : Nat) : Bool :=
  match s.ring r with
  | none => false
  | some x => x.type == 5 && !s.chClosed x.toChan.1 x.toChan.2 && s.chFull x.toChan.1 x.toChan.2

/-- WORK_MESSAGE: a started entry of a type 5 ring is handed to its channel. -/
def State.workMessage (s : State) (r c : Nat) : State :=
  match s.ring r, s.flight r c with
  | some x, some g =>
    if x.type ≠ 5 ∨ g.cpl.isSome then s
    else if s.chClosed x.toChan.1 x.toChan.2 then
      (s.fail r c St.fc_no_channel).workDone r c St.fc_no_channel
    else
      let t := g.tag.getD 0
      (s.performed r c).devMsg x.toChan.1 x.toChan.2 [r + t * 2 ^ 16 + s.tagGen t * 2 ^ 33, 0x1000000000 + x.entry c]
  | _, _ => s

/-! ### The deadlock detector (R464, R465) -/

/-- Cores of a domain. -/
def State.domCores (s : State) (d : Nat) : List Nat := (List.range 64).filter (fun c => s.dom c == d)

/-- Enabled threads of a domain. -/
def State.domHarts (s : State) (d : Nat) : List Nat := (s.fc.harts.filter (fun p => p.2.state != 0 && s.dom (p.1 / 16) == d)).map (·.1)

/-- A thread waits in ch.recv, or in ch.select without ports. -/
def State.waitsForMsg (s : State) (h : Nat) : Bool :=
  let k := s.hart h
  match k.wait with
  | some b => k.state == 2 && (b.kind == 1 || (b.kind == 2 && s.xr h (bits b.word 24 20) == 0))
  | none => false

/-- A wake is armed in a domain, beside a blocked thread. -/
def State.wakeArmed (s : State) (d : Nat) : Bool :=
  s.fc.alarms.any (fun a => s.dom (a.hart / 16) == d) || s.fc.owed.any (fun o => s.dom o.core == d)
    || s.rng.rings.any (fun p => match p.2 with
      | some x => x.type == 5 && x.state == 1 && s.dom x.toChan.1 == d
      | none => false)

/-- The conditions of R464 hold now. -/
def State.deadlocked (s : State) (d : Nat) : Bool :=
  let hs := s.domHarts d
  !hs.isEmpty && hs.all s.waitsForMsg && (s.domCores d).all (fun c => (s.fcore c).chans.isEmpty) && !s.wakeArmed d

/-- The value of FCR_THREAD_STATUS[t]. -/
def State.threadStatus (s : State) (h : Nat) : Nat :=
  let k := s.hart h
  let w := match k.wait with
    | some b => (b.kind, b.obj)
    | none => if k.state = 1 ∧ (s.fcore (h / 16)).clk < k.memUntil then (7, 0) else (0, 0)
  k.state + k.priv * 2 ^ 26 + w.1 * 2 ^ 28 + w.2 * 2 ^ 32

/-- Latch the status of every thread of a core. -/
def State.snapCore (s : State) (c : Nat) : State :=
  (List.range 16).foldl (fun s t => s.putReg false { R.reg_FCR_DL_SNAP with flds := R.reg_FCR_DL_SNAP.flds.map (fun f => { f with acc := .rw }) } c t 0 (s.threadStatus (16 * c + t))) s

/-- DEADLOCK_DETECT: the conditions have held for 4,096 clocks. -/
def State.deadlockDetect (s : State) (d : Nat) : State :=
  if !s.deadlocked d || s.fc.dlOn.contains d then s
  else
    let cs := s.domCores d
    let low := cs.headD 0
    let blocked := (s.domHarts d).length
    let s := cs.foldl (fun s c => (s.snapCore c).raise R.FCR_CORE_STATUS_dl c) s
    let s := (s.fcnt low 6).event 0x0F low 1 (leBytes 1 d ++ leBytes 1 0 ++ leBytes 2 blocked ++ leBytes 4 0 ++ leBytes 8 (cs.foldl (fun a c => a + 2 ^ c) 0))
    let s := if s.on R.FCR_CORE_CFG_sup_en low then s.raiseInt (16 * low + s.rd R.FCR_CORE_CFG_sup_thread low) 16 else s
    { s with fc := { s.fc with dlOn := s.fc.dlOn ++ [d] } }

/-- The conditions of the domains found deadlocked are looked at again. -/
def State.dlRefresh (s : State) : State :=
  if s.fc.dlOn = [] then s else { s with fc := { s.fc with dlOn := s.fc.dlOn.filter s.deadlocked } }

/-! ### Debug (R466, R467) -/

/-- Halt a thread at its next instruction boundary. -/
def State.haltHart (s : State) (h : Nat) : State :=
  let st := (s.hart h).state
  if st = 1 ∨ st = 2 then ((s.unblock h).modHart h (fun k => { k with stepping := false })).setHartState h 3 else s

/-- Resume a halted thread. -/
def State.resumeHart (s : State) (h : Nat) : State := if (s.hart h).state = 3 then s.setHartState h 1 else s

/-- Empty the outbox of a halted thread. -/
def State.discardOutbox (s : State) (h : Nat) : State :=
  if (s.hart h).state = 3 then s.modHart h (fun k => { k with out := [] }) else s

/-- The first breakpoint of a core that an access of a thread matches: kind 1 execute at the address, 2 load and 3 store
touching the aligned 8-byte word. -/
def State.brkMatch (s : State) (h kind a n : Nat) : Option Nat :=
  let c := h / 16
  (List.range 4).find? (fun i =>
    let b := s.rd R.FCR_BRK_ADDR_addr c i
    s.rd R.FCR_BRK_CTL_kind c i == kind && bit (s.rd R.FCR_BRK_CTL_threads c i) (h % 16)
      && (if kind = 1 then a == b else a / 8 ≤ b / 8 && b / 8 ≤ (a + n - 1) / 8))

/-- BREAKPOINT: every thread of the mask halts; the thread that matched passes over the same execute match once when it goes
on. -/
def State.breakHit (s : State) (h i : Nat) : State :=
  let c := h / 16
  let pc := (s.hart h).pc
  let s := (List.range 16).foldl (fun s t => if bit (s.rd R.FCR_BRK_CTL_threads c i) t then s.haltHart (16 * c + t) else s) s
  let s := s.modHart h (fun k => { k with passBrk := s.rd R.FCR_BRK_CTL_kind c i == 1 })
  s.event 0x0F c 2 (leBytes 1 (h % 16) ++ leBytes 1 i ++ List.replicate 6 0 ++ leBytes 8 pc)

/-- An access of a running thread is compared with the breakpoints. -/
def State.breakpoint (s : State) (h kind a n : Nat) : State :=
  if (s.hart h).state ≠ 1 ∨ (kind = 1 ∧ (s.hart h).passBrk) then s
  else match s.brkMatch h kind a n with
    | some i => s.breakHit h i
    | none => s

/-! ### The commands -/

def execChPut (h : Fin 1024) (rs1 : Fin 32) (s : State) : Out := s.whenMain (·.chRow h 0 0 0 rs1 0)
def execChCommit (h : Fin 1024) (rs1 rd : Fin 32) (s : State) : Out := s.whenMain (·.chRow h 0 1 0 rs1 rd)
def execChTcommit (h : Fin 1024) (rs1 rd : Fin 32) (s : State) : Out := s.whenMain (·.chRow h 0 2 0 rs1 rd)
def execChDrop (h : Fin 1024) (s : State) : Out := s.whenMain (·.chRow h 0 3 0 0 0)
def execChRecv (h : Fin 1024) (rs1 rd : Fin 32) (s : State) : Out := s.whenMain (·.chRow h 0 4 0 rs1 rd)
def execChTrecv (h : Fin 1024) (rs1 rd : Fin 32) (s : State) : Out := s.whenMain (·.chRow h 0 5 0 rs1 rd)
def execChIn (h : Fin 1024) (index : Fin 8) (rd : Fin 32) (s : State) : Out := s.whenMain (·.chRow h 0 6 index 0 rd)
def execChSelect (h : Fin 1024) (rs1 rs2 rd : Fin 32) (s : State) : Out := s.whenMain (·.chRow h 0 7 rs2 rs1 rd)
def execChWait (h : Fin 1024) (rs1 rd : Fin 32) (s : State) : Out := s.whenMain (·.chRow h 0 8 0 rs1 rd)
def execChAlarm (h : Fin 1024) (rs1 rs2 rd : Fin 32) (s : State) : Out := s.whenMain (·.chRow h 0 9 rs2 rs1 rd)
def execChIpi (h : Fin 1024) (rs1 : Fin 32) (s : State) : Out := s.whenMain (·.chRow h 0 10 0 rs1 0)
def execChDb (h : Fin 1024) (rs1 rs2 rd : Fin 32) (s : State) : Out := s.whenMain (·.chRow h 1 0 rs2 rs1 rd)
def execChCpl (h : Fin 1024) (rs1 rs2 rd : Fin 32) (s : State) : Out := s.whenMain (·.chRow h 1 1 rs2 rs1 rd)
def execPtRecv (h : Fin 1024) (rs1 rd : Fin 32) (s : State) : Out := s.whenMain (·.chRow h 2 0 0 rs1 rd)
def execPtTrecv (h : Fin 1024) (rs1 rd : Fin 32) (s : State) : Out := s.whenMain (·.chRow h 2 1 0 rs1 rd)
def execPtDone (h : Fin 1024) (rs1 : Fin 32) (s : State) : Out := s.whenMain (·.chRow h 2 2 0 rs1 0)
def execPtSend (h : Fin 1024) (rs1 rs2 rd : Fin 32) (s : State) : Out := s.whenMain (·.chRow h 2 3 rs2 rs1 rd)
def execVxBlk (h : Fin 1024) (rs1 rs2 rd : Fin 32) (s : State) : Out := s.whenMain (·.chRow h 3 0 rs2 rs1 rd)
def execVxLock (h : Fin 1024) (rs1 rd : Fin 32) (s : State) : Out := s.whenMain (·.chRow h 3 1 0 rs1 rd)
def execVxUnlock (h : Fin 1024) (rd : Fin 32) (s : State) : Out := s.whenMain (·.chRow h 3 2 0 0 rd)
def execVxCmac (h : Fin 1024) (rs1 rs2 rd : Fin 32) (s : State) : Out := s.whenMain (·.chRow h 3 3 rs2 rs1 rd)
def execVxImport (h : Fin 1024) (rs1 rd : Fin 32) (s : State) : Out := s.whenMain (·.chRow h 3 4 0 rs1 rd)
def execVxZero (h : Fin 1024) (rs1 rd : Fin 32) (s : State) : Out := s.whenMain (·.chRow h 3 5 0 rs1 rd)
def execBlockedWake (h : Fin 1024) (s : State) : Out := s.whenMain (·.blockedWake h)
def execAlarmFire (s : State) : Out := s.whenMain State.alarmFire
def execChWaitExpire (h : Fin 1024) (s : State) : Out := s.whenMain (·.chWaitEnd h)
def execInterruptTake (h : Fin 1024) (s : State) : Out := s.whenMain (·.takeInterrupt h)
def execPortRxDeliver (core : Fin 64) (port : Fin 16) (s : State) : Out := s.whenMain (·.portRx core port)
def execDeadlockDetect (dom : Fin 64) (s : State) : Out := s.whenMain (·.deadlockDetect dom)
def execBreakpoint (h : Fin 1024) (kind : Fin 4) (addr size : Nat) (s : State) : Out := s.whenMain (·.breakpoint h kind addr size)

end Sys2Proof.Machine
end

