-- ==== Sys2Proof/Machine/FabricTime.lean ====
section
/-! DEFINITION. Fabric time: sources, steps and sets, the hardware servo, watchdogs (02_fabric_time.md R45-R58, R62;
17_flow_cores.md R469). -/

namespace Sys2Proof.Machine

/-- A write of snap captures FT (R19). -/
def State.ftSnap (s : State) : State :=
  ((s.wr R.FT_SNAP_SEC_sec (ftSec s.time.ft)).wr R.FT_SNAP_NS_ns (ftNs s.time.ft)).wr R.FT_SNAP_NS_frac (ftFrac s.time.ft)

/-- The state that a source has when it is chosen (R48). -/
def State.sourceState (s : State) (src : Nat) : Nat :=
  if src = 0 then (if s.time.setSeen then 1 else 0)
  else if src = 1 then (if s.time.stepSeen then 2 else 0)
  else 2

/-- A write of FT_CTRL (R48): source 3 discards the whole write and counts it; a change of source sets the state. -/
def State.ftCtrl (s : State) (v : Nat) : State :=
  let src := v % 4
  if src = 3 then s.refusedWr
  else
    let old := s.rd R.FT_CTRL_source
    let s := ((s.wr R.FT_CTRL_lock_ns (v / 2 ^ 16)).wr R.FT_CTRL_lock_count (v / 2 ^ 8)).wr R.FT_CTRL_source src
    if src = old then s
    else
      let s := s.wr R.FT_STATUS_state (s.sourceState src)
      { s with time := { s.time with lastPps := s.time.ft, goodEdges := 0, slew := 0, stepHeld := false } }

/-- A write of FT_RATE (R49): clamped to +-500 ppm, discarded while source is 2. -/
def State.ftRate (s : State) (v : Nat) : State :=
  if s.rd R.FT_CTRL_source = 2 then s.refusedWr
  else
    let a := signed 32 (v % 2 ^ 32)
    s.wr R.FT_RATE_adj (unsigned 32 (max (-549755814) (min 549755814 a)))

/-- The epoch controller is collecting or committed (R53, R54). -/
def State.epochRuns (s : State) : Bool := s.rd R.GLB_EPOCH_STATUS_state != 0

/-- FT takes a new value by a step or a set (R48, R49, R55): the state is acquiring after the first step or set under
source 1, and free after the first set under source 0. -/
def State.ftJump (s : State) (u : Nat) (isSet : Bool) : State :=
  let src := s.rd R.FT_CTRL_source
  let s1 := s.raise R.FT_STATUS_stepped
  let s2 :=
    if src = 1 && !s.time.stepSeen then s1.wr R.FT_STATUS_state 2
    else if src = 0 && isSet then s1.wr R.FT_STATUS_state 1
    else s1
  { s2 with time := { s2.time with ft := u, stepSeen := true, setSeen := s.time.setSeen || isSet } }

/-- A write of step_go (R53). -/
def State.stepGo (s : State) : State :=
  let u : Int := (s.time.ft : Int) + signed 64 (s.rd R.FT_STEP_NS_delta) * unitsPerNs
  if s.on R.FT_STEP_CTRL_busy || s.epochRuns || u < 0 || u ≥ (ftLimit : Int) then s.raise R.FT_STEP_CTRL_refused
  else s.ftJump u.toNat false

/-- A write of set_go (R53). -/
def State.setGo (s : State) : State :=
  let ns := s.rd R.FT_SET_NS_ns
  if s.on R.FT_STEP_CTRL_busy || s.epochRuns || ns ≥ 1000000000 then s.raise R.FT_STEP_CTRL_refused
  else s.ftJump (s.rd R.FT_SET_SEC_sec * unitsPerSec + ns * unitsPerNs) true

/-- A write of FT_STEP_CTRL: with both bits the set applies and the step is refused (R53); refused is W1C. -/
def State.stepCtrl (s : State) (v : Nat) : State :=
  let s := if bit v 3 then s.wr R.FT_STEP_CTRL_refused 0 else s
  if bit v 1 then
    let t := s.setGo
    if bit v 0 then t.raise R.FT_STEP_CTRL_refused else t
  else if bit v 0 then s.stepGo
  else s

/-- A write of FCR_FT_MBOX.state by a thread of slice 0 (R469): sets FT_STATUS.state when source is 1 and the value is
2, 3 or 4; otherwise, and from any other side, it is discarded. -/
def State.ftMbox (s : State) (req : Req) (v : Nat) : State :=
  let x := v % 8
  if req = .flow ∧ s.rd R.FT_CTRL_source = 1 ∧ (x = 2 ∨ x = 3 ∨ x = 4) then s.wr R.FT_STATUS_state x
  else s.refusedWr

/-- A whole number of nanoseconds rounded to the nearest whole second. -/
def roundToSec (ns : Int) : Int := ((ns + 500000000) / 1000000000) * 1000000000

/-- One PPS edge under source 2 (R50, R54). `edge` is the edge time at the ball minus FT in ns and `rate` the
correction that the servo has locked to the 10 MHz reference; FT_PPS_CFG.cable_ns is subtracted from the edge time. -/
def State.ppsEdge (s : State) (edge rate : Int) : State :=
  if s.rd R.FT_CTRL_source ≠ 2 then s
  else
    let err := max (-(2 ^ 31 - 1)) (min (2 ^ 31 - 1) (edge - signed 16 (s.rd R.FT_PPS_CFG_cable_ns)))
    let s := s.wr R.FT_PPS_ERR_err (unsigned 32 err)
    let s : State := { s with time := { s.time with lastPps := s.time.ft, servoRate := rate } }
    let mag := err.natAbs
    let lock := s.rd R.FT_CTRL_lock_ns
    if mag > 1000000 then
      if s.epochRuns then
        let s := s.wr R.FT_STATUS_state 2
        { s with time := { s.time with stepHeld := true, slew := 0, goodEdges := 0 } }
      else
        let ns : Int := (s.time.ft / unitsPerNs : Nat)
        let u := roundToSec (ns + err) * unitsPerNs
        let s := (s.ftJump (min u.toNat (ftLimit - 1)) false).wr R.FT_STATUS_state 2
        { s with time := { s.time with stepHeld := false, slew := 0, goodEdges := 0, lastPps := s.time.ft } }
    else
      let good := if mag ≤ lock then s.time.goodEdges + 1 else 0
      let st := s.rd R.FT_STATUS_state
      let st' :=
        if mag > 4 * lock then 2
        else if st = 4 then (if mag ≤ lock then 2 else 4)
        else if mag ≤ lock ∧ good ≥ s.rd R.FT_CTRL_lock_count then 3
        else st
      let s := s.wr R.FT_STATUS_state st'
      { s with time := { s.time with slew := err * unitsPerNs, goodEdges := good, stepHeld := false } }

/-- No PPS edge within 1.1 s of the last one: holdover (R51). -/
def State.ppsLost (s : State) : State :=
  if s.rd R.FT_CTRL_source ≠ 2 then s
  else
    let s := s.runTo (s.time.lastPps + 1100 * unitsPerMs)
    let s := (s.wr R.FT_STATUS_state 4).raise R.FT_STATUS_pps_lost
    let s : State := { s with time := { s.time with slew := 0, goodEdges := 0 } }
    s.event 2 0 (Config.eventCode 2 0) (Config.eventDetail 2 0)

/-- The 10 MHz reference absent for 2 us: holdover (R51). -/
def State.refLost (s : State) : State :=
  if s.rd R.FT_CTRL_source ≠ 2 then s
  else
    let s := (s.wr R.FT_STATUS_state 4).raise R.FT_STATUS_ref_lost
    let s : State := { s with time := { s.time with slew := 0, goodEdges := 0 } }
    s.event 2 0 (Config.eventCode 2 1) (Config.eventDetail 2 1)

/-! ### Watchdogs (R62) -/

/-- FT at which the period of watchdog `w` began, if it runs. -/
def State.wdogStart (s : State) (w : Nat) : Option Nat := (s.time.wdog.find? (·.1 = w)).map (·.2)

/-- Start or restart the period of watchdog `w` now. -/
def State.wdogArm (s : State) (w : Nat) : State :=
  { s with time := { s.time with wdog := Store.ins w s.time.ft (Store.drop s.time.wdog w) } }

def State.wdogStop (s : State) (w : Nat) : State :=
  { s with time := { s.time with wdog := Store.drop s.time.wdog w } }

/-- A write of FT_WDOG_CFG[w]: setting enable while the watchdog does not run starts the period; clearing it stops it. -/
def State.wdogCfg (s : State) (w v : Nat) : State :=
  let s := s.putReg false R.reg_FT_WDOG_CFG w 0 0 v
  if bit v 28 then (if (s.wdogStart w).isNone then s.wdogArm w else s) else s.wdogStop w

/-- A write of kick restarts the period of a running watchdog. -/
def State.wdogKick (s : State) (w v : Nat) : State :=
  if bit v 0 && (s.wdogStart w).isSome then s.wdogArm w else s

/-- The period of watchdog `w`, in ms: values below 10 act as 10. -/
def State.wdogPeriod (s : State) (w : Nat) : Nat := max (s.rd R.FT_WDOG_CFG_period_ms w) 10

/-- Watchdog `w` expires: it takes its action once, writes one FT_ event, sets expired and stops (R62). -/
def State.wdogFire (s : State) (w : Nat) : State :=
  let s := (s.wdogStop w).raise R.FT_WDOG_CFG_expired w
  let s := s.event 2 0 (Config.eventCode 2 2) (Config.eventDetail 2 2)
  let a := s.rd R.FT_WDOG_CFG_action w
  if a = 1 then { s with time := { s.time with wdogIrq := true } }
  else if a = 2 then s.requestReset 4
  else s

/-- The end of watchdog `w`'s period comes. -/
def State.wdogExpire (s : State) (w : Nat) : State :=
  match s.wdogStart w with
  | none => s
  | some t => (s.runTo (t + s.wdogPeriod w * unitsPerMs)).wdogFire w

/-- PPS edges stay away (R51). -/
def execPpsLost (s : State) : Out := s.whenMain State.ppsLost

/-- The 10 MHz reference is lost (R51). -/
def execRefLost (s : State) : Out := s.whenMain State.refLost

/-- A watchdog's period ends without a kick (R62). -/
def execWdogExpire (w : Fin 16) (s : State) : Out := s.whenMain (·.wdogExpire w)

end Sys2Proof.Machine
end

