-- ==== Sys2Proof/Machine/Csr.lean ====
section
/-! DEFINITION. Control and status registers of a thread, and the debug access to its registers (17_flow_cores.md R435,
R437, R468). What each register keeps of a write follows the RISC-V privileged specification (log entry 20). -/

namespace Sys2Proof.Machine

/-- A number with the bits of a list set. -/
def maskOf (bs : List Nat) : Nat := bs.foldl (fun a b => a + 2 ^ b) 0

/-- Bits of mstatus that software writes: SIE, MIE, SPIE, MPIE, SPP, FS, MPRV, SUM, MXR, TVM, TW, TSR; MPP apart. -/
def mstatusMask : Nat := maskOf [1, 3, 5, 7, 8, 13, 14, 17, 18, 19, 20, 21, 22]

/-- Bits of sstatus that software writes. -/
def sstatusMask : Nat := maskOf [1, 5, 8, 13, 14, 18, 19]

/-- Exceptions that can be delegated. -/
def medelegMask : Nat := maskOf [0, 1, 2, 3, 4, 5, 6, 7, 8, 9, 12, 13, 15, 19, 24]

/-- Interrupts of a thread (R456): software, timer, deadlock, counter sample. -/
def intMask : Nat := maskOf [3, 7, 16, 17]

/-- The bits that a plain CSR keeps of a write; none: the CSR is not a plain one. -/
def csrMask (n : Nat) : Option Nat :=
  if n = 0x340 ∨ n = 0x342 ∨ n = 0x343 ∨ n = 0x140 ∨ n = 0x142 ∨ n = 0x143 ∨ n = 0x7C0 then some (2 ^ 64 - 1)
  else if n = 0x341 ∨ n = 0x141 then some (2 ^ 64 - 2)
  else if n = 0x305 ∨ n = 0x105 then some (2 ^ 64 - 3)
  else if n = 0x306 ∨ n = 0x106 then some (2 ^ 32 - 1)
  else if n = 0x30A ∨ n = 0x10A then some 1
  else if n = 0x302 then some medelegMask
  else if n = 0x303 then some 0x88
  else if n = 0x304 then some intMask
  else none

/-- The bits of `v` under a mask, and those of `old` elsewhere. -/
def mergeMask (mask old v : Nat) : Nat := old - (old &&& mask) + (v &&& mask)

/-- mstatus after a write: MPP keeps its value when 2 is written, SD follows FS. -/
def mstatusPut (mask old v : Nat) : Nat :=
  let m := mergeMask mask old v
  putFld m 63 1 (b2n (bits m 14 13 == 3))

/-- Configuration byte of PMP entry `i`. -/
def State.pmpCfg (s : State) (h i : Nat) : Nat := s.csr h (0x3A0 + i / 8 * 2) / 2 ^ (8 * (i % 8)) % 256

/-- What a PMP configuration byte keeps: a locked entry its value; write without read is reserved and keeps neither. -/
def pmpByte (old v : Nat) : Nat :=
  if bit old 7 then old
  else
    let v := v &&& 0x9F
    if bit v 1 && !bit v 0 then v - 2 else v

/-- Does a PMP entry keep its address: locked, or below a locked entry in top-of-range mode. -/
def State.pmpAddrLocked (s : State) (h i : Nat) : Bool :=
  bit (s.pmpCfg h i) 7 || (i < 15 && bit (s.pmpCfg h (i + 1)) 7 && bits (s.pmpCfg h (i + 1)) 4 3 == 1)

/-- A CSR that reads as zero and takes no write: event counters and their selectors, mcountinhibit, identification. -/
def csrZero (n : Nat) : Bool :=
  (0xB03 ≤ n && n ≤ 0xB1F) || (0xC03 ≤ n && n ≤ 0xC1F) || (0x323 ≤ n && n ≤ 0x33F) || n == 0x320 || (0xF11 ≤ n && n ≤ 0xF13) || n == 0xF15

/-- The value of a CSR; none: the thread has no such CSR. Numbers 0xB00 and 0xB02 hold the difference of mcycle and
minstret from the clocks and instructions counted. -/
def State.csrGet (s : State) (h n : Nat) : Option Nat :=
  let st := s.csr h 0x300
  if n = 1 then some (s.csr h 3 % 32)
  else if n = 2 then some (bits (s.csr h 3) 7 5)
  else if n = 3 then some (s.csr h 3)
  else if n = 0x300 then some st
  else if n = 0x100 then some (st &&& (sstatusMask + 2 ^ 63 + 3 * 2 ^ 32))
  else if n = 0x301 then some misaValue
  else if n = 0x344 then some (s.mipOf h)
  else if n = 0x104 then some (s.csr h 0x304 &&& s.csr h 0x303)
  else if n = 0x144 then some (s.mipOf h &&& s.csr h 0x303)
  else if n = 0xF14 then some h
  else if n = 0xC00 ∨ n = 0xB00 then some (w64 ((s.fcore (h / 16)).clk + s.csr h 0xB00))
  else if n = 0xC01 then some s.now64
  else if n = 0xC02 ∨ n = 0xB02 then some (w64 ((s.hart h).instret + s.csr h 0xB02))
  else if n = 0x180 ∨ n = 0x3A0 ∨ n = 0x3A2 ∨ (0x3B0 ≤ n ∧ n < 0x3C0) then some (s.csr h n)
  else if csrZero n then some 0
  else (csrMask n).map (fun _ => s.csr h n)

/-- Put a value into a CSR; none: the thread has no such CSR or it is read-only. -/
def State.csrSet (s : State) (h n v : Nat) : Option State :=
  let v := w64 v
  let old := s.csr h n
  let st := s.csr h 0x300
  if n / 1024 = 3 then none
  else if n = 1 then some (s.csrw h 3 (bits (s.csr h 3) 7 5 * 32 + v % 32))
  else if n = 2 then some (s.csrw h 3 (v % 8 * 32 + s.csr h 3 % 32))
  else if n = 3 then some (s.csrw h 3 (v % 256))
  else if n = 0x300 then
    let m := mstatusPut mstatusMask st v
    some (s.csrw h n (if bits v 12 11 = 2 then m else putFld m 11 2 (v / 2 ^ 11)))
  else if n = 0x100 then some (s.csrw h 0x300 (mstatusPut sstatusMask st v))
  else if n = 0x301 then some s
  else if n = 0x344 then some (s.csrw h n (mergeMask (maskOf [3, 16, 17]) old v))
  else if n = 0x104 then some (s.csrw h 0x304 (mergeMask (s.csr h 0x303) (s.csr h 0x304) v))
  else if n = 0x144 then some (s.csrw h 0x344 (mergeMask (s.csr h 0x303 &&& 8) (s.csr h 0x344) v))
  else if n = 0xB00 then some (s.csrw h n (v + 2 ^ 64 - (s.fcore (h / 16)).clk % 2 ^ 64))
  else if n = 0xB02 then some (s.csrw h n (v + 2 ^ 64 - (s.hart h).instret % 2 ^ 64))
  else if n = 0x180 then some (if v / 2 ^ 60 = 0 ∨ v / 2 ^ 60 = 9 then s.csrw h n v else s)
  else if n = 0x3A0 ∨ n = 0x3A2 then
    some (s.csrw h n ((List.range 8).foldl (fun a i => a + pmpByte (old / 2 ^ (8 * i) % 256) (v / 2 ^ (8 * i) % 256) * 2 ^ (8 * i)) 0))
  else if 0x3B0 ≤ n ∧ n < 0x3C0 then some (if s.pmpAddrLocked h (n - 0x3B0) then s else s.csrw h n (v % 2 ^ 54))
  else if csrZero n then some s
  else (csrMask n).map (fun mask => s.csrw h n (mergeMask mask old v))

/-- May an instruction of the thread use a CSR: its lowest privilege mode, satp under TVM, the counters that mcounteren and
scounteren open, the floating-point CSRs while the unit is on. -/
def State.csrOpen (s : State) (h n : Nat) : Bool :=
  let priv := (s.hart h).priv
  let st := s.csr h 0x300
  let counter := 0xC00 ≤ n && n ≤ 0xC1F
  let c := n - 0xC00
  decide (bits n 9 8 ≤ priv) && !(n == 0x180 && priv == 1 && bit st 20)
    && (!counter || ((priv == 3 || bit (s.csr h 0x306) c) && (priv != 0 || bit (s.csr h 0x106) c)))
    && (n == 0 || 3 < n || bits st 14 13 != 0)

/-! ### The debug access (R468) -/

/-- Read a register of a halted thread by its debug number; none: refused. -/
def State.dbgGet (s : State) (h r : Nat) : Option Nat :=
  let k := s.hart h
  if bit r 12 then s.csrGet h (r % 4096)
  else if r < 0x20 then some (s.xr h r)
  else if r < 0x40 then some (s.fr h (r - 0x20))
  else if r = 0x40 then some k.pc
  else if r = 0x41 then some k.out.length
  else if 0x48 ≤ r ∧ r < 0x50 then some (k.out.getD (r - 0x48) 0)
  else if 0x50 ≤ r ∧ r < 0x58 then some (k.inbox.getD (r - 0x50) 0)
  else none

/-- Put a word into a list of words, which grows with zeros to hold it. -/
def putWord (l : List Nat) (i v : Nat) : List Nat := (l ++ List.replicate (i + 1 - l.length) 0).set i v

/-- Write a register of a halted thread by its debug number; none: refused. -/
def State.dbgPut (s : State) (h r v : Nat) : Option State :=
  if bit r 12 then s.csrSet h (r % 4096) v
  else if r < 0x20 then some (s.xw h r v)
  else if r < 0x40 then some (s.modHart h (fun k => { k with f := Store.put 0 k.f (r - 0x20) (w64 v) }))
  else if r = 0x40 then some (s.modHart h (fun k => { k with pc := w64 v / 2 * 2 }))
  else if r = 0x41 then
    if v ≤ 8 then some (s.modHart h (fun k => { k with out := (k.out ++ List.replicate (v - k.out.length) 0).take v })) else none
  else if 0x48 ≤ r ∧ r < 0x50 then some (s.modHart h (fun k => { k with out := putWord k.out (r - 0x48) (w64 v) }))
  else if 0x50 ≤ r ∧ r < 0x58 then some (s.modHart h (fun k => { k with inbox := putWord k.inbox (r - 0x50) (w64 v) }))
  else none

/-- The register access of FCR_DBG_SEL with `go`. -/
def State.dbgGo (s : State) (c : Nat) : State :=
  let h := 16 * c + s.rd R.FCR_DBG_SEL_thread c
  let r := s.rd R.FCR_DBG_SEL_reg c
  let refuse := s.raise R.FCR_DBG_SEL_err c
  let ok := s.wr R.FCR_DBG_SEL_err 0 c
  if (s.hart h).state ≠ 3 then refuse
  else if s.on R.FCR_DBG_SEL_wr c then (ok.dbgPut h r (s.rd R.FCR_DBG_DATA_data c)).getD refuse
  else match s.dbgGet h r with
    | some v => ok.wr R.FCR_DBG_DATA_data v c
    | none => refuse

/-- A write of FCR_DBG_SEL. -/
def State.dbgSel (s : State) (c v : Nat) : State :=
  let s := s.putReg false R.reg_FCR_DBG_SEL c 0 0 v
  if bit v 31 then s.dbgGo c else s

/-- A write of FCR_DBG_CTRL of a thread: each bit asks for one thing, a halt last of the state changes asked for with it. -/
def State.dbgCtrl (s : State) (h v : Nat) : State :=
  let s := if bit v 4 then s.discardOutbox h else s
  let s := if bit v 2 && (s.hart h).state == 3 then (s.modHart h (fun k => { k with stepping := true })).setHartState h 1
    else if bit v 1 then s.resumeHart h
    else s
  if bit v 0 then s.haltHart h else s

end Sys2Proof.Machine
end

