-- ==== Sys2Proof/Machine/Pair.lean ====
section
/-! DEFINITION. The redundant pair: heartbeats, roles, the loss of the partner, transit frames, the sending of mirrored
writes (22_redundant_pair.md R533-R545). -/

namespace Sys2Proof.Machine

def State.pairState (s : State) : Nat := s.rd R.PAR_STATUS_state

/-- Count an event of the pair (PAR_CNT[c]). -/
def State.pairCnt (s : State) (c : Nat) (n : Nat := 1) : State := s.addTo R.PAR_CNT_count n c

/-- The sublinks that are ACTIVE, as link numbers 8 and 9. -/
def State.subsUp (s : State) : List Nat := [8, 9].filter (fun n => (s.link n).state == 4)

/-- A received transaction keeps table Pair transactions. -/
def Txn.pairLegal (t : Txn) : Bool :=
  match t.type with
  | 0x01 => t.vc == 0 && 60 ≤ t.len && t.len ≤ 9596 && t.sub < 8
  | 0x41 => t.vc == 1 && t.sub == 0 && fieldLE t.data 2 2 == 0 && fieldLE t.data 6 2 == 0 && fieldLE t.data 0xD 3 == 0
      && (fieldLE t.data 0xC 1 == 4 || fieldLE t.data 0xC 1 == 8) && fieldLE t.data 0x18 8 == 0
  | 0x40 => t.vc == 3 && t.sub ≤ 1 && fieldLE t.data 3 1 ≤ 3 && fieldLE t.data 6 2 == 0
  | _ => false

/-- Discard received transactions of a sublink that break the table. -/
def State.pairMalformed (s : State) (n : Nat) : State :=
  let bad := (s.link n).rxq.filter (fun e => !e.2.pairLegal)
  bad.foldl (fun s e => (s.leaveRx n e).pairCnt 7) s

/-! ### Roles (R535, R543, R545) -/

/-- PAIR_ACTIVE on each ACTIVE dual socket link; its `arg` is the takeover count. -/
def State.pairActive (s : State) : State :=
  let n := s.rd R.PAR_STATUS_takeovers
  ((List.range 8).filter (fun k => bit (s.ac R.PAR_CFG_dual) k && (s.link k).state == 4)).foldl (fun s k => (s.sendMgmt k 7 n).2) s

/-- The role of this member changes. -/
def State.setRole (s : State) (role : Nat) : State :=
  if s.rd R.PAR_STATUS_role = role then s
  else
    let s := s.wr R.PAR_STATUS_role role
    let s := if role = 0 then s.sat R.PAR_STATUS_takeovers else s
    s.event 0x15 0 2 (leBytes 1 role ++ leBytes 1 s.pair.prio ++ List.replicate 14 0)

/-- By priority, and by serial number at equal priority, this member is the secondary. -/
def State.ruleSecondary (s : State) : Bool :=
  let mine := s.ac R.PAR_CFG_prio
  mine < s.pair.prio || (mine == s.pair.prio && s.rd R.PAR_PARTNER_serial < s.rd R.GLB_SERIAL_serial)

/-- PAIRED is entered: the roles are decided. -/
def State.enterPaired (s : State) : State :=
  let both := s.rd R.PAR_STATUS_role == 0 && s.pair.partnerPrimary
  let s := s.wr R.PAR_STATUS_state 2
  let s := if both && s.pair.wasLost then s.eventBoth 0x15 0 4 (leBytes 1 (s.ac R.PAR_CFG_dual) ++ List.replicate 15 0) else s
  let s := if s.ruleSecondary then (if s.ac R.PAR_CFG_preempt = 1 || s.pair.partnerPrimary then s.setRole 1 else s) else s
  if s.rd R.PAR_STATUS_role = 0 then s.pairActive else s

/-! ### Heartbeats (R534-R536) -/

/-- HEARTBEAT_SEND: every 10 µs on every ACTIVE sublink. -/
def State.hbSend (s : State) : State :=
  let ups := s.subsUp
  if ups = [] then s
  else
    let s := s.runTo (s.pair.sentAt + 10 * unitsPerUs)
    let q := s.pair.hbSeq
    let s : State := { s with pair := { s.pair with sentAt := s.time.ft, hbSeq := (q + 1) % 65536 } }
    let t : Txn := { vc := 3, data := txnHeader 0x40 (s.rd R.PAR_STATUS_role) (s.ac R.PAR_CFG_prio + 256 * s.pairState) q 0 s.now64 }
    ups.foldl (fun s n => s.sendTxn n t) s

/-- Nanoseconds that an FT64 names. -/
def ft64Ns (t : Nat) : Int := ((t / 2 ^ 32) * 1000000000 + t % 2 ^ 32 : Nat)

/-- HEARTBEAT: the next heartbeat received on a sublink. -/
def State.hbRx (s : State) (n : Nat) : State :=
  match s.nextTxn n 0x40 with
  | none => s
  | some e =>
    let t := e.2
    let s := s.leaveRx n e
    let seq := t.tag
    let p := s.pair
    let row := match p.lastSeq with
      | some q => if seq = q then p.row else if seq = (q + 1) % 65536 then p.row + 1 else 1
      | none => 1
    let s : State := { s with pair := { p with row := row, lastSeq := some seq, lastHb := s.time.ft, prio := fieldLE t.data 2 1, partnerPrimary := t.sub == 0 } }
    let off := ft64Ns t.arg + (s.rd R.PAR_LINK_link_ns : Nat) - ft64Ns (ft64 t.at_)
    let s := s.wr R.PAR_STATUS_ft_offset_ns (unsigned 32 (max (-(2 ^ 31 - 1)) (min (2 ^ 31 - 1) off)))
    if s.pairState = 1 ∧ 3 ≤ row then s.enterPaired else s

/-- The partner is lost: `subs` says that both sublinks are down. -/
def State.partnerLost (s : State) (subs : Bool) : State :=
  if s.pairState ≠ 2 then s
  else
    let s := ((s.wr R.PAR_STATUS_state 3).raise R.PAR_STATUS_resync).eventBoth 0x15 0 3 (leBytes 1 (b2n subs) ++ List.replicate 15 0)
    let s := s.dropDest 72
    let s := if s.rd R.PAR_STATUS_role = 1 then (s.setRole 0).pairActive else s
    if s.ac R.PAR_CFG_enable = 0 then s.wr R.PAR_STATUS_state 0 else s

/-- PARTNER_LOST by the timer: miss_max heartbeat times without a heartbeat. -/
def State.hbTimeout' (s : State) : State :=
  if s.pairState ≠ 2 then s
  else
    let k := s.ac R.PAR_CFG_miss_max
    ((s.runTo (s.pair.lastHb + k * 10 * unitsPerUs)).pairCnt 5 k).partnerLost false

/-- A sublink has gone down. -/
def State.sublinkLost (s : State) : State :=
  if s.subsUp ≠ [] then s
  else match s.pairState with
    | 1 => s.wr R.PAR_STATUS_state (if s.pair.wasLost && s.ac R.PAR_CFG_enable == 1 then 3 else 0)
    | 2 => s.partnerLost true
    | 3 => if s.ac R.PAR_CFG_enable = 0 then s.wr R.PAR_STATUS_state 0 else s
    | _ => s

/-! ### Transit frames (R542) -/

/-- TRANSIT_RX: the next PKT received on a sublink is admitted to rx_pipe as source 0x303. -/
def State.transitRx (s : State) (n : Nat) : State :=
  match s.nextTxn n 0x01 with
  | none => s
  | some e =>
    let t := e.2
    let q := s.ac R.PAR_CFG_rx_pipe
    let s := s.leaveRx n e
    if s.pairState ≠ 2 then s
    else
      let sl := if s.ac R.PAR_CFG_trust_slice = 1 then t.status % 4096 else s.ac R.PIPE_SRC_CFG_slice q 9
      let f : Frame := { data := t.body, src := 0x303, stamp := t.arg, at_ := t.at_, bad := t.bad, slice := sl, cls := some (t.sub % 8), recirc := bits t.status 14 12 + 1 }
      (s.pairCnt 1).toPipe q f

/-! ### Mirrored writes (R538, R540) -/

/-- An owner's write that applies is sent to the partner when its offset lies in an enabled range; `plain`: the register
holds only RW, RWS and RWL fields. -/
def State.mirrorOut (s : State) (off width value : Nat) (plain : Bool) : State :=
  let hit := (List.range 16).any (fun i => s.on R.PAR_MIRROR_en i && s.rd R.PAR_MIRROR_first i ≤ off && off ≤ s.rd R.PAR_MIRROR_last i)
  if s.pairState ≠ 2 ∨ !hit then s
  else if !plain then s.pairCnt 3
  else
    let n := if (s.link 8).state = 4 then 8 else 9
    if 1024 ≤ ((s.link n).txq.filter (·.vc == 1)).length then (s.pairCnt 4).raise R.PAR_STATUS_resync
    else
      let q := s.pair.mirSeq
      let s : State := { s with pair := { s.pair with mirSeq := (q + 1) % 65536 } }
      (s.sendTxn n { vc := 1, data := txnHeader 0x41 0 0 q 0 (off + width * 2 ^ 32) ++ leBytes 8 value ++ leBytes 8 0 }).pairCnt 2

def execHeartbeatSend (s : State) : Out := s.whenMain State.hbSend
def execHeartbeat (sub : Fin 2) (s : State) : Out := s.whenMain (·.hbRx (8 + sub))
def execPartnerLost (s : State) : Out := s.whenMain State.hbTimeout'
def execTransitRx (sub : Fin 2) (s : State) : Out := s.whenMain (·.transitRx (8 + sub))

end Sys2Proof.Machine
end

