-- ==== Sys2Proof/Machine/SliceSeq.lean ====
section
/-! DEFINITION. Slice commands, the reset and removal sequences, and what one block's event brings about in another in the
same core clock (06_slices.md R158, R168-R178, R564). -/

namespace Sys2Proof.Machine

/-! ### ACTIVATE (R158, R178) -/

/-- Non-FREE slices other than `x`. -/
def State.otherSlices (s : State) (x : Nat) : List Nat := s.knownSlices.filter (fun y => y != x && s.sliceState y != 0)

/-- The binding of a slice may be accepted (R158). -/
def State.bindOk (s : State) (x : Nat) : Bool :=
  let others := s.otherSlices x
  let fn := s.sliceFn x
  let db := s.rd R.SLC_BIND_db_base x
  let n := s.rd R.SLC_BIND_db_count x
  let same := others.filter (fun y => fn.isSome && s.sliceFn y == fn)
  (match fn with
    | some f => s.fnEnabled f
    | none => true)
  && same.all (fun y => s.slicePasid y != s.slicePasid x)
  && db + n ≤ 4080
  && same.all (fun y => disjoint db n (s.rd R.SLC_BIND_db_base y) (s.rd R.SLC_BIND_db_count y))
  && (!s.on R.SLC_BIND_sock_en x || others.all (fun y => !(s.on R.SLC_BIND_sock_en y && s.rd R.SLC_BIND_socket y == s.rd R.SLC_BIND_socket x)))

/-- A slice command ends. -/
def State.sliceCmdDone (s : State) (status : Nat) : State := (s.wr R.SLC_CMD_STATUS_status status).wr R.SLC_CMD_STATUS_busy 0

/-- evring_en stays 1 only for a ring of type 2 of the slice. -/
def State.evringCheck (s : State) (x : Nat) : State :=
  let ok := match s.ring (s.rd R.SLC_STATE_evring x) with
    | some r => r.type == 2 && r.slice == x
    | none => false
  if s.on R.SLC_STATE_evring_en x && !ok then (s.wr R.SLC_STATE_evring_en 0 x).quotaErr St.slice_mismatch else s

/-- A slice in its sequence. -/
def State.inSeq (s : State) (x : Nat) : Bool := s.sliceState x == 2 || s.sliceState x == 3

def State.activateSlice (s : State) (x : Nat) : State :=
  if s.inSeq x then s.sliceCmdDone St.slice_busy
  else if s.sliceState x ≠ 0 then s.sliceCmdDone St.slice_state
  else if !s.bindOk x then s.sliceCmdDone St.bind_conflict
  else ((s.wr R.SLC_STATE_state 1 x).evringCheck x).sliceCmdDone 0

/-! ### Steps 2 to 6 (R174) -/

/-- Rings of a slice. -/
def State.sliceRings (s : State) (x : Nat) : List Nat :=
  (s.rng.rings.filter (fun p => match p.2 with
    | some r => r.slice == x
    | none => false)).map (·.1)

/-- Step 3 for one ring: it stops, and everything of it is abandoned; the generations of its tags advance (R169, R203). -/
def State.abandonRing (s : State) (r : Nat) : State :=
  match s.ring r with
  | none => s
  | some x =>
    let s := (x.eng.flight.filterMap (·.tag)).foldl (fun s t => s.bumpTag t) s
    let s := s.setRing r { x with state := 3, eng := { x.eng with flight := [], copies := [], marked := [], parked := [], loading := false } }
    let s := if x.eng.loading then s.wr R.RNG_STATUS_loading (s.rd R.RNG_STATUS_loading - 1) else s
    { s with rng := { s.rng with sends := s.rng.sends.filter (·.ring != r), waits := s.rng.waits.filter (·.ring != r), aborts := s.rng.aborts.filter (·.ring != r) } }

/-- What reads for abandoned work becomes (R170): a COPY_OUT ends, and a tag that still waits for a read of host memory or of
a module becomes an orphan. -/
def State.orphanReads (s : State) (x gen : Nat) (tagOf : Nat → Nat → Option Nat) : State :=
  let sock := fun (k : Sock) =>
    let entry := fun (r : SockRd) => match r.for_ with
      | .copy rg c => some (rg, c)
      | .job id => (k.jobs.find? (fun (j : SockJob) => j.id == id)).bind (fun (j : SockJob) => j.work)
      | _ => none
    let mine := fun (r : SockRd) => match (entry r).bind (fun e => tagOf e.1 e.2) with
      | some t => { r with for_ := .orphan t x gen }
      | none => r
    let gone := fun (j : SockJob) => (j.work.bind (fun e => tagOf e.1 e.2)).isSome
    { k with rds := k.rds.map mine, copies := k.copies.filter (fun o => (tagOf o.ring o.count).isNone), jobs := k.jobs.filter (fun j => !gone j) }
  let late := (s.rng.late.filter (fun l => l.2.2.2 == x)).map (·.1)
  let host := fun (h : HostRead) => match h.for_ with
    | .job _ (some e) => (match tagOf e.1 e.2 with
      | some t => { h with for_ := .orphan t x gen }
      | none => h)
    | .aborted t => if late.contains t then { h with for_ := .orphan t x gen } else h
    | _ => h
  { s with socks := s.socks.map (fun p => (p.1, sock p.2))
           hif := { s.hif with reads := s.hif.reads.map host }
           rng := { s.rng with late := s.rng.late.filter (fun l => l.2.2.2 != x) } }

/-- The gathered reads of host memory of the slice are given up; a module's MRD is answered `slice_reset` (step 2). -/
def State.jobsGone (s : State) (x : Nat) : State :=
  let mine := s.hif.jobs.filter (·.slice == x)
  let s := s.dropJobs (·.slice == x)
  mine.foldl (fun s j => match j.for_ with
    | .mrd n t => s.mrdEnd n t { j with status := St.slice_reset }
    | _ => s) s

/-- A COPY_IN's last write no longer completes anything. -/
def State.forgetCopyIns (s : State) (rings : List Nat) : State :=
  { s with links := s.links.map (fun p =>
      let l : Link := p.2
      let clear := fun (t : Txn) => match t.done with
        | some d => if rings.contains d.1 then { t with done := none } else t
        | none => t
      (p.1, { l with txq := l.txq.map clear })) }

/-- Step 3 for the storage engine (R374): the slice's commands end and the keys of the issued ones are revoked. -/
def State.stqAbandon (s : State) (x : Nat) : State :=
  let vols := s.stq.vols.filterMap (fun p => match p.2 with
    | some v => if v.slice = x then some (p.1, v) else none
    | none => none)
  vols.foldl (fun s p =>
    let s := s.modVol p.1 (fun v => { v with late := v.late ++ (v.cmds.filter (·.ended.isNone)).map (·.slot) })
    (p.2.cmds.filter (·.ended.isNone)).foldl (fun s c => s.stqEnd p.1 c.slot { status := St.slice_reset }) s) s

/-- Step 4: the slice's QPs are destroyed; packets parked for them are dropped and counted. -/
def State.qpsGone (s : State) (x : Nat) : State :=
  let mine := s.rdm.qps.filterMap (fun p => match p.2 with
    | some q => if q.slice = x then some (p.1, q) else none
    | none => none)
  mine.foldl (fun s p => (s.addTo R.RDM_CNT_count p.2.parked.length 5).qpGone p.1 p.2) s

/-- Step 5: the slice's regions close; an MR_REVOKE of an abandoned ring completes nothing. -/
def State.mrsGone (s : State) (x : Nat) (rings : List Nat) : State :=
  let mine := (s.rdm.mrs.filter (fun p => p.2.state == 1 && p.2.slice == x)).map (·.1)
  let s := mine.foldl (fun s i => s.mrClose i .alone) s
  { s with rdm := { s.rdm with mrs := s.rdm.mrs.map (fun p =>
      let m : Mr := p.2
      (p.1, match m.waiter with
        | .ring r _ => if rings.contains r then { m with waiter := .alone } else m
        | _ => m)) } }

/-- Step 6: key slots, the locks of the slice's threads, policers. -/
def State.keysGone (s : State) (x : Nat) : State :=
  let s := s.slotsGone x
  let s := (List.range 64).foldl (fun s e => match (s.eng e).holder with
    | some h => if s.hartSlice h = x then s.endLockOf e true else s
    | none => s) s
  (s.policersOf x).foldl (fun s i => s.polDrop i) s

/-- Work of the slice on other slices' rings: what it would still write is discarded (R169). -/
def State.foreignWork (s : State) (x : Nat) : State :=
  let mine := s.rng.rings.flatMap (fun p => match p.2 with
    | some r => (r.eng.flight.filter (fun g => g.slice == x && g.tag.isSome)).map (fun g => (p.1, g))
    | none => [])
  mine.foldl (fun s p =>
    let s := match p.2.tag with
      | some t => s.bumpTag t
      | none => s
    (s.retireFlight p.1 p.2).sat R.SLC_DISCARD_late 1 x) s

/-- The generation advances and steps 2 to 6 are done (R168, R174). -/
def State.genAdvance (s : State) (x : Nat) : State :=
  match Store.get none s.slc.seqs x with
  | none => s
  | some q =>
    let old := s.sliceGen x
    let rings := s.sliceRings x
    let tags := s.rng.rings.flatMap (fun p => match p.2 with
      | some r => (r.eng.flight.filter (fun g => rings.contains p.1 || g.slice == x)).filterMap (fun g => g.tag.map (fun t => (p.1, g.count, t)))
      | none => []) ++ (s.rng.late.filter (fun l => l.2.2.2 == x)).map (fun l => (l.2.1, l.2.2.1, l.1))
    let tagOf := fun (r c : Nat) => (tags.find? (fun t => t.1 == r && t.2.1 == c)).map (·.2.2)
    let s := s.wr R.SLC_STATE_gen ((old + 1) % 256) x
    let s : State := { s with slc := { s.slc with seqs := Store.put none s.slc.seqs x (some { q with waiting := false }) } }
    let s := ((s.orphanReads x old tagOf).jobsGone x).forgetCopyIns rings
    let s := s.stqAbandon x
    let s := rings.foldl (fun s r => s.abandonRing r) s
    let s := s.foreignWork x
    (((s.qpsGone x).mrsGone x rings).keysGone x)

/-- An orphan tag of the slice is outstanding under the generation that would come next (R171). -/
def State.genBlocked (s : State) (x : Nat) : Bool := s.orphans.any (fun o => o.2.1 == x && o.2.2 == (s.sliceGen x + 1) % 256)

/-- The sequence begins: step 1. -/
def State.seqStart (s : State) (x : Nat) (removal : Bool) (cause : Nat) : State :=
  let s := (s.wr R.SLC_STATE_state (if removal then 3 else 2) x).wr R.SLC_STATE_evring_en 0 x
  let q : SliceSeq := { removal := removal, cause := cause, oldGen := s.sliceGen x, waiting := true }
  let s : State := { s with slc := { s.slc with seqs := Store.put none s.slc.seqs x (some q) } }
  if s.genBlocked x then s else s.genAdvance x

/-- SLC_ event 0x0001. -/
def State.sliceDone (s : State) (x old new cause : Nat) (removal : Bool) : State :=
  s.event 5 0 1 (leBytes 2 x ++ leBytes 1 old ++ leBytes 1 new ++ leBytes 1 cause ++ leBytes 1 (b2n removal) ++ List.replicate 10 0) x

/-- A reset cause reaches a slice (R172, R173). -/
def State.sliceReset (s : State) (x cause : Nat) : State :=
  if x = 0 then s.sliceDone 0 (s.sliceGen 0) (s.sliceGen 0) cause false
  else if s.sliceState x = 1 then s.seqStart x false cause
  else s

/-- The RESET and REMOVE commands. -/
def State.seqCmd (s : State) (x : Nat) (removal : Bool) : State :=
  if x = 0 then s.sliceCmdDone St.slice_op0
  else if s.inSeq x then s.sliceCmdDone St.slice_busy
  else if s.sliceState x ≠ 1 then s.sliceCmdDone St.slice_state
  else (s.raise R.SLC_CMD_STATUS_busy).seqStart x removal 0

/-- SLICE_GEN_ADVANCE: the last blocking orphan tag has been freed. -/
def State.genWaitEnd (s : State) (x : Nat) : State :=
  match Store.get none s.slc.seqs x with
  | none => s
  | some q => if q.waiting && !s.genBlocked x then s.genAdvance x else s

/-! ### Steps 7 and 8 -/

/-- A revoke or a zeroisation of the slice is still on its way. -/
def State.seqBusy (s : State) (x : Nat) : Bool :=
  s.rdm.mrs.any (fun p => p.2.state == 2 && (p.2.slice == x || p.2.via == x)) || s.vlt.slots.any (fun p => p.2.state != 0 && p.2.slice == x && p.1 != 0)

/-- SLICE_SEQUENCE_END. -/
def State.seqEnd (s : State) (x : Nat) : State :=
  match Store.get none s.slc.seqs x with
  | none => s
  | some q =>
    if q.waiting || s.seqBusy x then s
    else
      let s := (s.sliceRings x).foldl (fun s r => match s.ring r with
        | some y => s.removeRing r y
        | none => s) s
      let pgs := (s.slc.pages.filter (fun p => p.2 == x + 1)).map (·.1)
      let s := pgs.foldl (fun s pg => s.setPage pg none) s
      let s : State := { s with slc := { s.slc with clearing := s.slc.clearing ++ pgs, seqs := Store.put none s.slc.seqs x none } }
      let s := s.wr R.SLC_STATUS_clearing_pages s.slc.clearing.length
      let s := (List.range 16).foldl (fun s p => s.wr R.SLC_QUOTA_in_use 0 x p) s
      let s := s.shaperFull x
      let s := if q.removal then
          let s := s.putReg false { R.reg_SLC_BIND with flds := R.reg_SLC_BIND.flds.map (fun f => { f with acc := .rw }) } x 0 0 0
          let s := (List.range 16).foldl (fun s p => (s.wr R.SLC_QUOTA_reserve 0 x p).wr R.SLC_QUOTA_limit 0 x p) s
          s.wr R.SLC_STATE_state 0 x
        else s.wr R.SLC_STATE_state 1 x
      let s := if s.on R.SLC_CMD_STATUS_busy ∧ s.rd R.SLC_CMD_STATUS_slice = x ∧ q.cause = 0 then s.sliceCmdDone 0 else s
      s.sliceDone x q.oldGen (s.sliceGen x) q.cause q.removal

/-! ### What is due (empty between commands) -/

/-- Carry out one thing that is due. -/
def State.doDue (s : State) (d : Due) : State :=
  match d with
  | .reset x c => s.sliceReset x c
  | .wake q => s.wakeQp q
  | .linkLost n c => if n < 8 then s.moduleLost n (if c = 7 then St.tsk_absent else St.tsk_link_down) else s.sublinkLost

/-- Carry out everything that is due, with what becomes due meanwhile. -/
def State.drain : Nat → State → State
  | 0, s => s
  | k + 1, s => match s.due with
    | [] => s
    | d :: l => State.drain k (({ s with due := l } : State).doDue d)

/-- At most a reset of every slice, the loss of every link and one wake for each QP whose read has ended can be due. -/
def State.drainDue (s : State) : State := State.drain 8192 s

def execSliceGenAdvance (x : Fin 4096) (s : State) : Out := s.whenMain (·.genWaitEnd x)
def execSliceSequenceEnd (x : Fin 4096) (s : State) : Out := s.whenMain (·.seqEnd x)

end Sys2Proof.Machine
end

