-- ==== Sys2Proof/Machine/HostCmds.lean ====
section
/-! DEFINITION. The commands of the host interface: links, configuration space, Bus Master Enable, FLR and D3hot,
translations and invalidations, MSI-X, completions of reads (05_host_interface.md R116-R153, R560). -/

namespace Sys2Proof.Machine

/-! ### Links (R116, R149-R153) -/

/-- The status of a link: link a in its fields, link b as a field of the same layout. -/
def State.setLinkStatus (s : State) (hif l : Nat) (up noFlit : Bool) (width rate : Nat) : State :=
  if l = 0 then
    (((s.wr R.HIF_LINK_STATUS_up (b2n up) hif).wr R.HIF_LINK_STATUS_no_flit (b2n noFlit) hif).wr
      R.HIF_LINK_STATUS_width width hif).wr R.HIF_LINK_STATUS_rate rate hif
  else
    let downs := s.rd R.HIF_LINK_STATUS_link_b hif % 16
    s.wr R.HIF_LINK_STATUS_link_b (b2n up * 2 ^ 15 + b2n noFlit * 2 ^ 14 + width % 32 * 2 ^ 8 + rate % 16 * 2 ^ 4 + downs) hif

/-- One more link-down event, saturating at 0xF. -/
def State.countDown (s : State) (hif l : Nat) : State :=
  if l = 0 then s.sat R.HIF_LINK_STATUS_downs 1 hif
  else
    let b := s.rd R.HIF_LINK_STATUS_link_b hif
    if b % 16 = 15 then s else s.wr R.HIF_LINK_STATUS_link_b (b + 1) hif

def State.noFlit (s : State) (hif l : Nat) : Bool :=
  if l = 0 then s.on R.HIF_LINK_STATUS_no_flit hif else bit (s.rd R.HIF_LINK_STATUS_link_b hif) 14

/-- Link `l` of the controller exists. -/
def State.hasLink (s : State) (hif l : Nat) : Bool := l == 0 || s.on R.HIF_LINK_CFG_bifurcate hif

/-- The link's training starts now. -/
def State.trainLink (s : State) (hif l : Nat) : State :=
  { s with hif := { s.hif with trainAt := Store.ins (2 * hif + l) s.time.ft (Store.drop s.hif.trainAt (2 * hif + l)) } }

/-- A readiness message is owed: of a function, or of a link (100 + 2 × controller + link). -/
def State.owe (s : State) (x : Nat) : State :=
  if s.hif.owed.contains x then s else { s with hif := { s.hif with owed := s.hif.owed ++ [x] } }

/-- LINK_TRAIN_RETRY: 100 ms after training began, a link that found no Flit mode trains again. -/
def State.trainRetry (s : State) (hif l : Nat) : State :=
  if s.hasLink hif l && s.noFlit hif l && !s.linkUp hif l then
    (s.runTo (Store.get 0 s.hif.trainAt (2 * hif + l) + 100 * unitsPerMs)).trainLink hif l
  else s

/-- DL_ACTIVE: training of a link ends. Without Flit mode the link stays down with no_flit. -/
def State.dlActive (s : State) (hif l : Nat) (flitMode : Bool) (rate width : Nat) : State :=
  if !s.hasLink hif l || s.linkUp hif l then s
  else if !flitMode then (s.setLinkStatus hif l false true 0 0).trainLink hif l
  else
    let s := s.setLinkStatus hif l true false width rate
    if s.cuffOpen then s.owe (100 + 2 * hif + l) else s

/-- READINESS_MESSAGE: the oldest message owed is sent; in recovery none is (R153). -/
def State.readinessMessage (s : State) : State :=
  match s.hif.owed with
  | [] => s
  | x :: l =>
    let t : State := { s with hif := { s.hif with owed := l } }
    if 100 ≤ x then
      let h := (x - 100) / 2
      let k := (x - 100) % 2
      if s.cuffOpen && s.linkUp h k then t.sendHost (.deviceReady h k) else t
    else if s.fnReady x then t.sendHost (.functionReady x)
    else s

/-! ### Gathered reads (R121, R138) -/

/-- One request of a gathered read has ended. -/
def State.jobEnds (s : State) (id off : Nat) (bs : List Byte) (status : Nat) : State :=
  match s.hif.jobs.find? (·.id == id) with
  | some j => s.setJob (j.piece off bs status)
  | none => s

/-- A gathered read has ended, and the end reaches its owner: a failure ends an entry's work at once; data
that has come makes the payload of a staged entry ready (R60), and a descriptor that reads a record goes on; a module's MRD is
answered; the RDMA engine goes on. A SEND and the fetch of a context take the data when they run. -/
def State.jobOver (s : State) (j : HostJob) : State :=
  match j.for_ with
  | .work r c =>
    if j.status = 0 then match s.flight r c with
      | some g => if g.staged then s.modFlight r c (fun g => { g with payload := true }) else match dOpcode g.desc with
        | 0x28 => s.qpCreate r
        | 0x29 => s.qpModify r
        | 0x2C => s.mrReg r
        | 0x7A => s.keyImport r
        | _ => s
      | none => s
    else ((s.dropJobs (·.id == j.id)).modFlight r c (fun g => { g with staged := false })).fail r c j.status
  | .mrd n t => (s.dropJobs (·.id == j.id)).mrdEnd n t j
  | .mr o _ => if o / mrMax = 0 then s else s.wakeQp (o / mrMax)
  | .av q _ => s.wakeQp q
  | .husk _ => s

/-- Tell the owners of the gathered reads that have ended. -/
def State.tellJobs : Nat → State → State
  | 0, s => s
  | k + 1, s => match s.hif.jobs.find? (fun j => j.left == 0 && !j.told) with
    | none => s
    | some j => State.tellJobs k ((s.setJob { j with told := true }).jobOver j)

/-- Requests that waited are issued, and what has ended is told. -/
def State.hostSettle (s : State) : State := let s := s.askAll; State.tellJobs (s.hif.jobs.length + 8) s

/-- A read ends and its tag is free; the tag of an aborted entry returns with its last read (07_rings.md R203). -/
def State.readEnds (s : State) (h : HostRead) : State :=
  let s : State := { s with hif := { s.hif with reads := s.hif.reads.filter (fun x => !(x.fn == h.fn && x.tag == h.tag)) } }
  match h.for_ with
  | .aborted t => if s.hif.reads.any (·.for_ == .aborted t) then s else match s.rng.late.find? (·.1 == t) with
    | some l => s.lateFree l
    | none => s
  | _ => s

/-! ### Bus Master Enable, FLR, D3hot (R143-R149) -/

/-- The slices bound to a function. -/
def State.slicesOf (s : State) (fn : Nat) : List Nat :=
  s.knownSlices.filter (fun x => s.sliceState x != 0 && s.sliceFn x == some fn)

/-- The rings in host memory of the function's slices stop with a status (R143). -/
def State.stopHostRings (s : State) (fn status : Nat) : State :=
  let xs := s.slicesOf fn
  let rs := s.rng.rings.filterMap (fun p => match p.2 with
    | some (r : Ring) => if xs.contains r.slice && !r.mem && (r.state == 1 || r.state == 2) then some p.1 else none
    | none => none)
  rs.foldl (fun s r => s.stopRing r status) s

/-- All of a function's translation cache entries go (R132). -/
def State.atcFlush (s : State) (fn : Nat) : State :=
  { s with hif := { s.hif with atc := s.hif.atc.filter (·.fn != fn) } }

/-- What a clear of Bus Master Enable does (R143, R144): rings stop, the generation advances, requests not yet issued are
dropped, outstanding reads keep their tags and bring nothing, and the work that waits for them ends with the status
(DEDUCED, log entry 47); the translation cache entries go. -/
def State.bmeStop (s : State) (fn status : Nat) : State :=
  let s := s.stopHostRings fn status
  let s := s.bump R.HIF_PF_STATUS_gen (fn / 8) (fn % 8)
  let f := s.func fn
  let s := s.setFunc fn { f with bme := false, held := [] }
  let s : State := { s with hif := { s.hif with
    reads := s.hif.reads.map (fun h => if h.fn = fn then { h with old := true } else h)
    jobs := s.hif.jobs.map (fun (j : HostJob) => if j.fn = fn ∧ j.left ≠ 0 then { j with todo := [], left := 0, status := status } else j)
    xlats := s.hif.xlats.filter (·.fn != fn)
    xfail := s.hif.xfail.filter (·.1 != fn) } }
  (s.atcFlush fn).hostSettle

/-- The function's MSI-X table and pending bits: masked and cleared (R147). -/
def State.msixReset (s : State) (fn : Nat) : State :=
  { s with hif := { s.hif with
    msix := Store.clear s.hif.msix (msixKey fn 0) (msixKey (fn + 1) 0)
    pba := s.hif.pba.filter (fun k => k < msixKey fn 0 || msixKey (fn + 1) 0 ≤ k) } }

/-- What FLR does beside (R147): its slices reset, its MSI-X table, its configuration space but for what FLR keeps there
(the Max_Payload_Size and the error status; PRESUMED, log entry 12). -/
def State.funcReset (s : State) (fn status cause : Nat) : State :=
  let s := s.bmeStop fn status
  let s := s.msixReset fn
  let f := s.func fn
  let s := s.setFunc fn { mps := f.mps, aer := f.aer }
  let s := s.wr R.HIF_PF_STATUS_d3 0 (fn / 8) (fn % 8)
  { s with due := s.due ++ (s.slicesOf fn).map (fun x => Due.reset x cause) }

/-- A clear of Bus Master Enable. -/
def State.bmeClear (s : State) (fn : Nat) : State := if (s.func fn).bme then s.bmeStop fn St.bme_off else s

/-- Bus Master Enable becomes 1 (R146). -/
def State.bmeSet (s : State) (fn : Nat) : State :=
  let f := s.func fn
  s.setFunc fn { f with bme := true, bmeSeen := true }

/-- Function Level Reset. -/
def State.flr (s : State) (fn : Nat) : State :=
  (s.funcReset fn St.func_reset 1).raise R.HIF_PF_STATUS_flr_busy (fn / 8) (fn % 8)

/-- FLR_DONE: the slices of the function have been reset; the function becomes ready and owes its message (R147, R153). -/
def State.flrDone (s : State) (fn : Nat) : State :=
  if s.on R.HIF_PF_STATUS_flr_busy (fn / 8) (fn % 8) && (s.slicesOf fn).all (fun x => !s.inSeq x) then
    let s := s.wr R.HIF_PF_STATUS_flr_busy 0 (fn / 8) (fn % 8)
    if s.fnReady fn then s.owe fn else s
  else s

/-- The function enters D3hot (R148): it behaves as after a clear of Bus Master Enable. -/
def State.enterD3 (s : State) (fn : Nat) : State :=
  if s.fnD3 fn then s else (s.bmeStop fn St.bme_off).raise R.HIF_PF_STATUS_d3 (fn / 8) (fn % 8)

/-- The function returns to D0, which resets it as FLR does (R148). -/
def State.leaveD3 (s : State) (fn : Nat) : State :=
  if s.fnD3 fn then (s.funcReset fn St.func_reset 3).raise R.HIF_PF_STATUS_flr_busy (fn / 8) (fn % 8) else s

/-- Functions of a link. -/
def State.fnsOf (s : State) (hif l : Nat) : List Nat :=
  ((List.range 8).map (fun p => 8 * hif + p)).filter (fun fn => s.fnEnabled fn && s.fnLink fn == l)

/-- A link leaves DL_Active (R149, R150). -/
def State.hostLinkDown (s : State) (hif l : Nat) : State :=
  if !s.linkUp hif l then s
  else
    let fns := s.fnsOf hif l
    let s := (s.setLinkStatus hif l false false 0 0).countDown hif l
    let s := fns.foldl (fun s fn =>
      let s := (s.funcReset fn St.host_link_down 2).wr R.HIF_PF_STATUS_flr_busy 0 (fn / 8) (fn % 8)
      { s with hif := { s.hif with
        invals := s.hif.invals.filter (·.fn != fn)
        owed := s.hif.owed.filter (· != fn) } }) s
    let s := (s.hif.reads.filter (fun h => fns.contains h.fn)).foldl (fun s h => s.readEnds h) s
    let s : State := { s with hif := { s.hif with owed := s.hif.owed.filter (· != 100 + 2 * hif + l) } }
    s.trainLink hif l

/-! ### Configuration requests (R118, R137, R141, R152) -/

/-- Places of the errors in the two AER status registers, the uncorrectable one in bits 31..0 (PRESUMED, log entry 12). -/
def aerBit : AerErr → Nat
  | .dataLink => 4
  | .poisonedTlp => 12
  | .flowControl => 13
  | .completionTimeout => 14
  | .unexpectedCompletion => 16
  | .receiverOverflow => 17
  | .malformedTlp => 18
  | .unsupportedRequest => 20
  | .uncorrectableInternal => 22
  | .receiver => 32
  | .badTlp => 38
  | .badDllp => 39
  | .replayRollover => 40
  | .replayTimeout => 44
  | .advisory => 45
  | .correctedInternal => 46
  | .headerOverflow => 47

/-- Class code by class_sel (HIF_PF_CFG). -/
def classOf (sel : Nat) : Nat :=
  if sel = 0 then 0x020000 else if sel = 1 then 0x120000 else if sel = 2 then 0x018000 else 0x0B4000

/-- Whether the function implements the pair of BARs from `n` on, its size as a power of two, and its low type bits (R117). -/
def State.barSize (s : State) (fn n : Nat) : Option (Nat × Nat) :=
  if n = 0 then (if fn = 0 then some (26, 4) else none)
  else if n = 2 then some (24, 4)
  else if n = 4 then (if s.on R.HIF_PF_CFG_bar4_en (fn / 8) (fn % 8) then some (36, 12) else none)
  else none

def Func.barAddr (f : Func) (n : Nat) : Nat := if n = 0 then f.bar0 else if n = 2 then f.bar2 else f.bar4

def Func.setBar (f : Func) (n a : Nat) : Func :=
  if n = 0 then { f with bar0 := a } else if n = 2 then { f with bar2 := a } else { f with bar4 := a }

/-- What a configuration read returns. -/
def State.cfgRead (s : State) (fn : Nat) (r : CfgReg) : Nat :=
  let f := s.func fn
  match r with
  | .vendorId => s.rd R.HIF_IDENT_vendor_id (fn / 8)
  | .deviceId => s.rd R.HIF_IDENT_device_id (fn / 8)
  | .revisionId => 0xA2
  | .classCode => classOf (s.rd R.HIF_PF_CFG_class_sel (fn / 8) (fn % 8))
  | .subsysVendor => s.rd R.HIF_IDENT_subsys_vendor (fn / 8)
  | .subsysId => s.rd R.HIF_IDENT_subsys_id (fn / 8)
  | .serial => s.rd R.GLB_SERIAL_serial
  | .memoryEnable => b2n f.memEn
  | .busMasterEnable => b2n f.bme
  | .powerState => if s.fnD3 fn then 3 else 0
  | .bar n =>
    match s.barSize fn (n.val / 2 * 2) with
    | none => 0
    | some (_, low) =>
      let a := f.barAddr (n.val / 2 * 2)
      if n.val % 2 = 0 then a % 2 ^ 32 + low else a / 2 ^ 32
  | .maxPayload => f.mps
  | .maxReadRequest => f.mrrs
  | .relaxedOrdering => b2n f.roEn
  | .completionTimeout => f.cplTo
  | .initiateFlr => 0
  | .msixTableSize => s.rd R.HIF_PF_CFG_msix_vectors (fn / 8) (fn % 8)
  | .msixEnable => b2n f.msixEn
  | .msixFunctionMask => b2n f.msixMask
  | .atsEnable => b2n f.atsEn
  | .pasidEnable => b2n f.pasidEn
  | .aerStatus => f.aer.foldl (fun a e => a + 2 ^ aerBit e) 0

/-- What a configuration write does. -/
def State.cfgWrite (s : State) (fn : Nat) (r : CfgReg) (v : Nat) : State :=
  let f := s.func fn
  let b := v % 2 == 1
  match r with
  | .vendorId | .deviceId | .revisionId | .classCode | .subsysVendor | .subsysId | .serial | .msixTableSize => s
  | .memoryEnable => s.setFunc fn { f with memEn := b }
  | .busMasterEnable => if b then s.bmeSet fn else s.bmeClear fn
  | .powerState => if v % 4 = 3 then s.enterD3 fn else if v % 4 = 0 then s.leaveD3 fn else s
  | .bar n =>
    let k := n.val / 2 * 2
    match s.barSize fn k with
    | none => s
    | some (sz, _) =>
      let a := f.barAddr k
      let a' := if n.val % 2 = 0 then a / 2 ^ 32 * 2 ^ 32 + v % 2 ^ 32 else a % 2 ^ 32 + v % 2 ^ 32 * 2 ^ 32
      s.setFunc fn (f.setBar k (a' / 2 ^ sz * 2 ^ sz))
  | .maxPayload => s.setFunc fn { f with mps := v % 8 }
  | .maxReadRequest => s.setFunc fn { f with mrrs := v % 8 }
  | .relaxedOrdering => s.setFunc fn { f with roEn := b }
  | .completionTimeout => s.setFunc fn { f with cplTo := if v % 16 ≤ 2 then v % 16 else 0 }
  | .initiateFlr => if b then s.flr fn else s
  | .msixEnable => s.setFunc fn { f with msixEn := b }
  | .msixFunctionMask => s.setFunc fn { f with msixMask := b }
  | .atsEnable => if b then s.setFunc fn { f with atsEn := true } else (s.setFunc fn { f with atsEn := false }).atcFlush fn
  | .pasidEnable => s.setFunc fn { f with pasidEn := b }
  | .aerStatus => s.setFunc fn { f with aer := f.aer.filter (fun e => !bit v (aerBit e)) }

/-- CONFIG_REQUEST: no answer from a disabled function or over a link that is down; Request Retry Status while the function
is not ready. -/
def State.cfgRequest (s : State) (fn : Nat) (r : CfgReg) (write : Option Nat) : State :=
  if !s.fnPresent fn then s
  else if !s.fnReady fn then s.sendHost (.cplRrs fn)
  else match write with
    | none => s.sendHost (.cplData fn (s.cfgRead fn r))
    | some v => (s.cfgWrite fn r v).sendHost (.cplData fn 0)

/-! ### Translations (R127-R132) -/

/-- The largest power of two that is not above `n`. -/
def floorPow2 : Nat → Nat → Nat
  | 0, _ => 1
  | k + 1, n => if 2 ^ (k + 1) ≤ n then 2 ^ (k + 1) else floorPow2 k n

/-- TRANSLATION_COMPLETION. -/
def State.xlatDone (s : State) (fn id : Nat) (granted : Bool) (target size : Nat) (rd wr : Bool) : State :=
  match s.hif.xlats.find? (fun x => x.fn == fn && x.id == id) with
  | none => (s.hifErr fn 4).aer fn .unexpectedCompletion
  | some x =>
    let s : State := { s with hif := { s.hif with xlats := s.hif.xlats.filter (· != x) } }
    if x.stale then
      let y : Xlat := { x with id := s.hif.nextId, stale := false }
      let s : State := { s with hif := { s.hif with xlats := s.hif.xlats ++ [y], nextId := s.hif.nextId + 1 } }
      s.sendHost (.xlatReq fn y.id x.page)
    else if !granted || (if x.write then !wr else !rd) then
      (({ s with hif := { s.hif with xfail := s.hif.xfail ++ [(fn, x.pasid, x.page)] } } : State).hifErr fn 7).hostSettle
    else
      let n := floorPow2 63 (max size 4096)
      (s.atcAdd { fn := fn, pasid := x.pasid, page := x.page / n * n, size := n, target := target, rd := rd, wr := wr, used := 0 }).hostSettle

/-- Ranges [a, a + n) and [b, b + m) meet. -/
def meets (a n b m : Nat) : Bool := a < b + m && b < a + n

/-- INVALIDATION_REQUEST: step 1 of R129, and the reads that step 2 waits for. A request beyond the 32 that the Invalidate
Queue Depth allows is not taken. -/
def State.invalidate (s : State) (fn itag : Nat) (pasid : Option Nat) (all : Bool) (addr size : Nat) : State :=
  if 32 ≤ (s.hif.invals.filter (·.fn == fn)).length then s
  else
    let hitE := fun (e : AtcEntry) => e.fn == fn && (all || e.pasid == pasid) && meets e.page e.size addr (max size 4096)
    let hitX := fun (x : Xlat) => x.fn == fn && (all || x.pasid == pasid) && meets x.page 4096 addr (max size 4096)
    let gone := s.hif.atc.filter hitE
    let mine := fun (h : HostRead) => h.fn == fn && match h.under with
      | some p => gone.any (fun e => e.page == p && e.pasid == s.slicePasid h.slice)
      | none => false
    let v : Inval := { fn := fn, itag := itag, arrived := s.time.ft, waits := (s.hif.reads.filter mine).map (fun h => (h.fn, h.tag)) }
    { s with hif := { s.hif with
      atc := s.hif.atc.filter (fun e => !hitE e)
      xlats := s.hif.xlats.map (fun x => if hitX x then { x with stale := true } else x)
      invals := s.hif.invals ++ [v] } }

/-- INVALIDATION_COMPLETION: the oldest request of the function whose reads have all ended. -/
def State.invalDone (s : State) (fn : Nat) : State :=
  match s.hif.invals.find? (·.fn == fn) with
  | none => s
  | some v =>
    if v.waits.any (fun w => s.hif.reads.any (fun h => h.fn == w.1 && h.tag == w.2)) then s
    else ({ s with hif := { s.hif with invals := s.hif.invals.erase v } } : State).sendHost (.invalCpl fn v.itag)

/-! ### MSI-X table (R133, R136) -/

/-- One 32-bit word of an MSI-X table entry. -/
def MsixEntry.word (e : MsixEntry) (i : Nat) : Nat :=
  if i = 0 then e.addr % 2 ^ 32 else if i = 1 then e.addr / 2 ^ 32 else if i = 2 then e.data else b2n e.masked

def MsixEntry.setWord (e : MsixEntry) (i v : Nat) : MsixEntry :=
  let v := v % 2 ^ 32
  if i = 0 then { e with addr := e.addr / 2 ^ 32 * 2 ^ 32 + v / 4 * 4 }
  else if i = 1 then { e with addr := e.addr % 2 ^ 32 + v * 2 ^ 32 }
  else if i = 2 then { e with data := v }
  else { e with masked := v % 2 == 1 }

/-- The 32-bit word at an offset of BAR2 from 0xFF_0000 on. -/
def State.msixWord (s : State) (fn off : Nat) : Nat :=
  if off < 0xFF8000 then
    let i := (off - 0xFF0000) / 16
    if i < s.msixCount fn then (s.msixEntry fn i).word (off % 16 / 4) else 0
  else
    let v0 := 8 * (off - 0xFF8000)
    (List.range 32).foldl (fun a b => if v0 + b < s.msixCount fn && s.msixPending fn (v0 + b) then a + 2 ^ b else a) 0

def State.setMsixWord (s : State) (fn off v : Nat) : State :=
  let i := (off - 0xFF0000) / 16
  if off < 0xFF8000 ∧ i < s.msixCount fn then
    { s with hif := { s.hif with msix := Store.put {} s.hif.msix (msixKey fn i) ((s.msixEntry fn i).setWord (off % 16 / 4) v) } }
  else s

/-- An access to the MSI-X area of BAR2. -/
def State.msixAccess (s : State) (fn off size : Nat) (write : Option Nat) : State :=
  let legal := (size == 4 || size == 8) && off % size == 0
  match write with
  | none =>
    if !legal then (s.hifErr fn 0).sendHost (.cplData fn 0)
    else if size = 4 then s.sendHost (.cplData fn (s.msixWord fn off))
    else s.sendHost (.cplData fn (s.msixWord fn off + s.msixWord fn (off + 4) * 2 ^ 32))
  | some v =>
    if !legal then s.hifErr fn 0
    else if size = 4 then s.setMsixWord fn off v
    else (s.setMsixWord fn off v).setMsixWord fn (off + 4) (v / 2 ^ 32)

/-- A memory access reaches a BAR of the function: ready, not in D3hot, memory space enabled (R137). -/
def State.memOk (s : State) (fn : Nat) : Bool := s.fnReady fn && !s.fnD3 fn && (s.func fn).memEn

/-- MSIX_TABLE_ACCESS: `off` is the offset from 0xFF_0000 of BAR2. -/
def State.msixTable (s : State) (fn off size : Nat) (write : Option Nat) : State :=
  if !s.fnPresent fn then s
  else if !s.memOk fn then s.unsupported fn write.isSome
  else s.msixAccess fn (0xFF0000 + off % 65536) size write

/-! ### Completions of reads (R138, R141-R144) -/

/-- What a read's failure does to the work that issued it (R138): it stops the ring whose entry it fetched (07_rings.md R195),
or ends a gathered read. -/
def State.readFails (s : State) (h : HostRead) (status : Nat) (bs : List Byte := []) : State :=
  match h.for_ with
  | .orphan _ _ _ | .aborted _ => s
  | .entry => if h.sgen ≠ s.sliceGen h.slice then s.sat R.SLC_DISCARD_late 1 h.slice else s.stopRing h.ring status
  | .job id _ => if h.sgen ≠ s.sliceGen h.slice then s.sat R.SLC_DISCARD_late 1 h.slice else s.jobEnds id h.off bs status

/-- A read has brought all its data: the entry or the piece that it is for, or nothing any more (06_slices.md R169, 07_rings.md
R203). -/
def State.readData (s : State) (h : HostRead) (bs : List Byte) : State :=
  match h.for_ with
  | .orphan _ x _ => s.sat R.SLC_DISCARD_late 1 x
  | .aborted _ => s.lateDrop
  | .entry => if h.sgen ≠ s.sliceGen h.slice then s.sat R.SLC_DISCARD_late 1 h.slice else s.gotEntry h.ring h.count bs
  | .job id _ => if h.sgen ≠ s.sliceGen h.slice then s.sat R.SLC_DISCARD_late 1 h.slice else s.jobEnds id h.off bs 0

/-- FT at which the timeout of a read fires. -/
def State.readLimit (s : State) (h : HostRead) : Nat := h.issued + s.cplTimeoutUs h.fn * unitsPerUs

/-- A completion for a tag that is not outstanding (R138). -/
def State.unexpected (s : State) (fn : Nat) : State := (s.hifErr fn 4).aer fn .unexpectedCompletion

/-- CPL_TIMEOUT of an outstanding read (R142, R144). -/
def State.cplTimeout (s : State) (fn tag : Nat) : State :=
  match s.hif.reads.find? (fun h => h.fn == fn && h.tag == tag) with
  | none => s
  | some h =>
    let s := ((s.runTo (s.readLimit h)).readEnds h).hifErr fn 6
    (if h.old then s else (s.aer fn .completionTimeout).readFails h St.cpl_timeout).hostSettle

/-- READ_COMPLETION; the timeout wins a tie (R142). -/
def State.readCpl (s : State) (fn tag : Nat) (st : CplSt) (poison : Bool) (data : List Byte) : State :=
  match s.hif.reads.find? (fun h => h.fn == fn && h.tag == tag) with
  | none => s.unexpected fn
  | some h =>
    let all := h.got ++ data
    let last := st != .success || h.len ≤ all.length
    let keep := fun (s : State) => { s with hif := { s.hif with reads := s.hif.reads.map (fun x => if x.fn == fn && x.tag == tag then { x with got := all } else x) } }
    if s.readLimit h ≤ s.time.ft then (s.cplTimeout fn tag).unexpected fn
    else if h.old then ((if last then s.readEnds h else keep s).hifErr fn 5).hostSettle
    else match st with
      | .unsupported | .retry => ((s.readEnds h).readFails h St.host_ur).hostSettle
      | .abort => ((s.readEnds h).readFails h St.host_ca).hostSettle
      | .success =>
        if poison then (((s.readEnds h).aer fn .poisonedTlp).readFails h St.host_poison ((all ++ List.replicate h.len 0).take h.len)).hostSettle
        else if !last then keep s
        else ((s.readEnds h).readData h (all.take h.len)).hostSettle

/-! ### Held requests (R560) -/

/-- HELD_REQUEST_ISSUE: the function's oldest held request is issued once the cuff is open and Bus Master Enable is 1. -/
def State.heldIssue (s : State) (fn : Nat) : State :=
  let f := s.func fn
  match f.held with
  | [] => s
  | w :: l =>
    if s.cuffOpen && f.bme && !s.fnD3 fn then
      let t := s.setFunc fn { f with held := l }
      if s.sliceFn w.slice ≠ some fn then t
      else if (s.slicePasid w.slice).isSome && !f.pasidEn then t
      else match s.issueWrite fn w.slice w.addr w.data w.bad with
        | (.wait, n) => n
        | (.ok _, n) => n.setFunc fn { n.func fn with held := l }
        | (.fail _, n) => n.setFunc fn { n.func fn with held := l }
    else s

/-! ### The commands -/

def execLinkTrainRetry (hif link : Fin 2) (s : State) : Out := s.whenMain (·.trainRetry hif link)
def execDlActive (hif link : Fin 2) (flitMode : Bool) (rate : Fin 16) (width : Fin 32) (s : State) : Out :=
  s.whenMain (·.dlActive hif link flitMode rate width)
def execReadinessMessage (s : State) : Out := s.whenMain State.readinessMessage
def execLinkDown (hif link : Fin 2) (s : State) : Out := s.whenMain (fun s => (s.hostLinkDown hif link).drainDue)
def execConfigRequest (hif : Fin 2) (pf : Fin 8) (reg : CfgReg) (write : Option Nat) (s : State) : Out :=
  s.whenMain (fun s => (s.cfgRequest (8 * hif + pf) reg write).drainDue)

/-- BME_CLEAR: the configuration write that clears Bus Master Enable. -/
def execBmeClear (hif : Fin 2) (pf : Fin 8) (s : State) : Out :=
  s.whenMain (fun s => (s.cfgRequest (8 * hif + pf) .busMasterEnable (some 0)).drainDue)

/-- BME_SET: the configuration write that sets it. -/
def execBmeSet (hif : Fin 2) (pf : Fin 8) (s : State) : Out :=
  s.whenMain (fun s => (s.cfgRequest (8 * hif + pf) .busMasterEnable (some 1)).drainDue)

/-- FLR: the configuration write that initiates it. -/
def execFlr (hif : Fin 2) (pf : Fin 8) (s : State) : Out :=
  s.whenMain (fun s => (s.cfgRequest (8 * hif + pf) .initiateFlr (some 1)).drainDue)
def execFlrDone (hif : Fin 2) (pf : Fin 8) (s : State) : Out := s.whenMain (·.flrDone (8 * hif + pf))

/-- D3HOT_ENTER and D3HOT_TO_D0: configuration writes of PowerState. -/
def execD3hotEnter (hif : Fin 2) (pf : Fin 8) (s : State) : Out :=
  s.whenMain (fun s => (s.cfgRequest (8 * hif + pf) .powerState (some 3)).drainDue)
def execD3hotToD0 (hif : Fin 2) (pf : Fin 8) (s : State) : Out :=
  s.whenMain (fun s => (s.cfgRequest (8 * hif + pf) .powerState (some 0)).drainDue)

/-- ATS_DISABLE: the configuration write that clears ATS Enable. -/
def execAtsDisable (hif : Fin 2) (pf : Fin 8) (s : State) : Out :=
  s.whenMain (fun s => (s.cfgRequest (8 * hif + pf) .atsEnable (some 0)).drainDue)
def execTranslationCompletion (hif : Fin 2) (pf : Fin 8) (id : Nat) (granted : Bool) (target size : Nat) (rd wr : Bool) (s : State) : Out :=
  s.whenMain (fun s => (s.xlatDone (8 * hif + pf) id granted target size rd wr).drainDue)
def execInvalidationRequest (hif : Fin 2) (pf : Fin 8) (itag : Fin 32) (pasid : Option (Fin 1048576)) (global_ : Bool) (addr size : Nat) (s : State) : Out :=
  s.whenMain (·.invalidate (8 * hif + pf) itag (pasid.map (·.val)) global_ addr size)
def execInvalidationCompletion (hif : Fin 2) (pf : Fin 8) (s : State) : Out := s.whenMain (·.invalDone (8 * hif + pf))
def execMsixFire (hif : Fin 2) (pf : Fin 8) (vector : Fin 4096) (s : State) : Out := s.whenMain (·.msixFire (8 * hif + pf) vector)
def execMsixUnmask (hif : Fin 2) (pf : Fin 8) (vector : Fin 4096) (s : State) : Out := s.whenMain (·.msixUnmask (8 * hif + pf) vector)
def execMsixTableAccess (hif : Fin 2) (pf : Fin 8) (off size : Nat) (write : Option Nat) (s : State) : Out :=
  s.whenMain (·.msixTable (8 * hif + pf) off size write)
def execReadCompletion (hif : Fin 2) (pf : Fin 8) (tag : Nat) (status : CplSt) (poison : Bool) (data : List Byte) (s : State) : Out :=
  s.whenMain (fun s => (s.readCpl (8 * hif + pf) tag status poison data).drainDue)
def execCplTimeout (hif : Fin 2) (pf : Fin 8) (tag : Nat) (s : State) : Out := s.whenMain (fun s => (s.cplTimeout (8 * hif + pf) tag).drainDue)
def execHeldRequestIssue (hif : Fin 2) (pf : Fin 8) (s : State) : Out := s.whenMain (·.heldIssue (8 * hif + pf))

end Sys2Proof.Machine
end

