-- ==== Sys2Proof/Machine/Pmc.lean ====
section
/-! DEFINITION. Programmable counters, latency histograms and dumps (19_counters_telemetry.md R487-R501). -/

namespace Sys2Proof.Machine

/-- Base of the PMC_ block. -/
def pmcBase : Nat := 0x3800000

/-! ### Programmable counters (R490-R495, R501) -/

/-- What a counter counts: its selection and controls. -/
structure Ctr where
  enable : Bool := false
  edge : Bool := false
  chain : Bool := false
  sample : Bool := false
  slice : Option Nat := none
  sub : Nat := 0
  event : Nat := 0
  inst : Nat := 0
  block : Nat := 0
  deriving DecidableEq, Repr

/-- A counter's configuration from its register. -/
def State.ctrReg (s : State) (i : Nat) : Ctr :=
  { enable := s.on R.PMC_CTR_CFG_enable i
    edge := s.on R.PMC_CTR_CFG_mode i
    chain := s.on R.PMC_CTR_CFG_chain i
    sample := s.on R.PMC_CTR_CFG_sample i
    slice := if s.on R.PMC_CTR_CFG_slice_en i then some (s.rd R.PMC_CTR_CFG_slice i) else none
    sub := s.rd R.PMC_CTR_CFG_sub i
    event := s.rd R.PMC_CTR_CFG_event i
    inst := s.rd R.PMC_CTR_CFG_instance i
    block := s.rd R.PMC_CTR_CFG_block i }

/-- Counters 0-15 under a preset (table PMC_ presets). -/
def ctrPreset (preset i : Nat) : Ctr :=
  if preset = 1 then
    if i < 9 then { enable := true, block := 8, inst := i }
    else if i = 9 then { enable := true, block := 2, event := 64 }
    else {}
  else if preset = 2 then
    if i < 3 then { enable := true, block := 0x11, event := 64 + i }
    else if i = 3 then { enable := true, block := 2, event := 64 }
    else {}
  else {}

/-- The configuration in force: at the basic level the preset's for counters 0-15 (R501). -/
def State.ctr (s : State) (i : Nat) : Ctr :=
  if i < 16 && !s.expert pmcBase then ctrPreset (s.preset pmcBase) i else s.ctrReg i

/-- Fixed counters of a block that events 0-63 name (table Fixed counter inventory). -/
def fixedCount (block : Nat) : Nat :=
  if block = 0x07 then 21
  else if block = 0x08 then 32
  else if block = 0x0F ∨ block = 0x10 then 8
  else if block = 0x09 ∨ block = 0x0A ∨ block = 0x0B ∨ block = 0x0C ∨ block = 0x0D ∨ block = 0x0E then 16
  else 0

/-- Sub-units of an event: none where the event has no sub-unit; 0 where there is no such event (R490, table Additional
events). -/
inductive SubOf where
  | noEvent
  | whole
  | upTo (n : Nat)
  deriving DecidableEq, Repr

def subOf (block event : Nat) : SubOf :=
  if event < 64 then
    if event < fixedCount block then (if block = 0x07 then .upTo 8 else .whole) else .noEvent
  else if block = 0x02 ∧ event = 64 then .whole
  else if block = 0x08 ∧ event = 64 then .whole
  else if block = 0x09 ∧ event = 64 then .upTo 556
  else if block = 0x09 ∧ event = 65 then .whole
  else if block = 0x0A ∧ event = 64 then .upTo 584
  else if block = 0x0A ∧ event = 65 then .upTo 73
  else if (block = 0x06 ∨ block = 0x04 ∨ block = 0x0B ∨ block = 0x10) ∧ event = 64 then .whole
  else if block = 0x11 ∧ event ≤ 66 then .whole
  else if block = 0x0F ∧ event ≤ 69 then .upTo 16
  else .noEvent

/-- Events that carry a slice (R491). -/
def eventSliced (block event : Nat) : Bool :=
  (event == 64 && (block == 0x08 || block == 0x06 || block == 0x04)) || (block == 0x0A && event == 65)
    || (block == 0x0F && 64 ≤ event && event ≤ 69)

/-- Instances of a block. -/
def blkCount (block : Nat) : Nat := match blocks.find? (·.code = block) with
  | some b => b.count
  | none => 0

/-- The counter's selection is this event of this instance and sub-unit. -/
def Ctr.selects (c : Ctr) (block inst event sub : Nat) : Bool :=
  c.block == block && c.inst == inst && c.event == event && inst < blkCount block &&
  match subOf block event with
  | .noEvent => false
  | .whole => true
  | .upTo n => c.sub == sub && sub < n

/-- Add to counter `i`, and 1 to the counters that are chained to it for each wrap (R493, R495). -/
def State.ctrAdd (s : State) (i n : Nat) : Nat → State
  | 0 => s
  | fuel + 1 =>
    let c := s.ctr i
    if !c.enable || n = 0 then s
    else
      let v := s.rd R.PMC_CTR_VAL_value i + n
      if v < 2 ^ 48 then s.wr R.PMC_CTR_VAL_value v i
      else if c.sample then
        let s := (s.wr R.PMC_CTR_VAL_value (s.rd R.PMC_CTR_RELOAD_reload i + v % 2 ^ 48) i).raise R.PMC_CTR_VAL_sampled i
        if (s.hart (16 * c.inst + c.sub)).state = 0 then s else s.raiseInt (16 * c.inst + c.sub) 17
      else
        let s := s.wr R.PMC_CTR_VAL_value v i
        let next := s.ctr (i + 1)
        if i + 1 < 256 ∧ next.chain ∧ next.enable then s.ctrAdd (i + 1) (v / 2 ^ 48) fuel
        else s.raise R.PMC_CTR_VAL_wrapped i

/-- One counter sees the value that its event presents in a clock, of which `part` belongs to slice `slice`. -/
def State.ctrSee (s : State) (i event block value slice part : Nat) : State :=
  let c := s.ctr i
  let v := match c.slice with
    | none => value
    | some x => if eventSliced block event && x == slice then part else 0
  let was := s.pmc.hot.contains i
  let hot := s.pmc.hot.filter (· != i)
  let s : State := { s with pmc := { s.pmc with hot := if v = 0 then hot else hot ++ [i] } }
  if c.edge then (if v ≠ 0 ∧ !was then s.ctrAdd i 1 256 else s) else s.ctrAdd i v 256

/-- COUNTER_EVENT: an event presents a value in one clock. Successive commands for the same event are successive clocks. -/
def State.counterEvent (s : State) (block inst event sub value slice part : Nat) : State :=
  (List.range 256).foldl (fun s i =>
    let c := s.ctr i
    if c.enable && !(c.chain && i != 0) && c.selects block inst event sub then s.ctrSee i event block value slice (min part value) else s) s

/-- Snapshot (R494). -/
def State.pmcSnap (s : State) : State :=
  (List.range 256).foldl (fun s i => s.wr R.PMC_CTR_SNAP_value (s.rd R.PMC_CTR_VAL_value i) i) s

/-- A write of PMC_CTR_CFG[i]: a sampling counter must select an FCR_ event 64-69 without chain and slice filter (R495). -/
def State.ctrCfgWr (s : State) (i v : Nat) : State :=
  let legal := bits v 7 0 == 0x0F && 64 ≤ bits v 23 16 && bits v 23 16 ≤ 69 && !bit v 61 && !bit v 59
  if bit v 60 && !legal then s.refusedWr else s.putReg false R.reg_PMC_CTR_CFG i 0 0 v

/-! ### Histograms (R496, R497) -/

/-- Bin of a value: bin 0 up to 1, else floor(log2 v), at most 31. -/
def histBin (v : Nat) : Nat := if v ≤ 1 then 0 else min (Nat.log2 v) 31

/-- An interval of `ns` completes for one histogram. -/
def State.histSee (s : State) (h source obj ns : Nat) : State :=
  let anyObj := source == 3 || source == 6
  if s.on R.PMC_HIST_CFG_enable h && s.rd R.PMC_HIST_CFG_source h == source && source < 8 && (anyObj || s.rd R.PMC_HIST_CFG_obj h == obj) then
    if s.on R.PMC_HIST_CFG_freeze h then s.sat R.PMC_HIST_STAT_missed 1 h
    else
      let b := histBin (ns / 2 ^ s.rd R.PMC_HIST_CFG_shift h)
      if s.rd R.PMC_HIST_BIN_count h b = 0xFFFFFFFF then s.raise R.PMC_HIST_STAT_sat h else s.bump R.PMC_HIST_BIN_count h b
  else s

/-- HIST_INTERVAL. -/
def State.histInterval (s : State) (source obj ns : Nat) : State :=
  (List.range 16).foldl (fun s h => s.histSee h source obj ns) s

/-- A write of clear. -/
def State.histClear (s : State) (h : Nat) : State :=
  let s := (List.range 32).foldl (fun s b => s.wr R.PMC_HIST_BIN_count 0 h b) s
  (s.wr R.PMC_HIST_STAT_sat 0 h).wr R.PMC_HIST_STAT_missed 0 h

/-! ### Dumps (R498-R500) -/

/-- Counters of a unit that is fenced read all ones (R487). -/
def ctrOnes (fenced : Bool) (v : Nat) : Nat := if fenced then 2 ^ 64 - 1 else v

/-- The values of one dump set, in record order (table Dump sets). -/
def State.dumpSet (s : State) (n : Nat) : List Nat :=
  let c16 := fun (f : Fld) => (List.range 16).map (fun c => s.rd f c)
  if n = 0 then (List.range 256).map (fun i => s.rd R.PMC_CTR_VAL_value i + 2 ^ 63 * s.rd R.PMC_CTR_VAL_wrapped i)
  else if n = 1 then (List.range 64).flatMap (fun p => (List.range 21).map (fun c => ctrOnes (s.closedUnit 4 (p / 8)) (s.rd R.PRT_CNT_count (p / 8) (p % 8) c)))
  else if n = 2 then (List.range 9).flatMap (fun p => (List.range 16).map (fun c => ctrOnes (s.closedUnit 0 p) (s.rd R.PIPE_CNT_count p c)))
  else if n = 3 then (List.range 9).flatMap (fun p => (List.range 16).map (fun c => ctrOnes (s.closedUnit 0 p) (s.rd R.PIPE_TBL_CNT_count p c)))
  else if n = 4 then c16 R.SWC_CNT_count
  else if n = 5 then c16 R.TM_CNT_count
  else if n = 6 then c16 R.RDM_CNT_count
  else if n = 7 then c16 R.STQ_CNT_count
  else if n = 8 then (List.range 8).flatMap (fun l => (List.range 16).map (fun c => ctrOnes (s.closedUnit 3 l) (s.rd R.WLK_CNT_count l c)))
  else if n = 9 then (List.range 8).flatMap (fun l => (List.range 16).map (fun c => ctrOnes (s.closedUnit 3 l) (s.rd R.TSK_CNT_count l c)))
  else if n = 10 then (List.range 64).flatMap (fun l => (List.range 8).map (fun c => ctrOnes (s.closedUnit 1 l) (s.rd R.FCR_CNT_count l c)))
  else if n = 11 then (List.range 8).map (fun c => s.rd R.VLT_CNT_count c)
  else if n = 12 then (List.range 16).flatMap (fun h => (List.range 32).map (fun b => s.rd R.PMC_HIST_BIN_count h b))
  else if n = 13 then (List.range 584).map (fun q => s.getReg R.reg_TM_Q_LAST q 0 0)
  else (List.range 21).map (fun b => s.rd R.PMC_ECC_CNT_ue (b + 1) * 2 ^ 32 + s.rd R.PMC_ECC_CNT_ce (b + 1))

/-- All values of a record. -/
def State.dumpValues (s : State) (sets : Nat) : List Nat :=
  (List.range 15).flatMap (fun n => if bit sets n then s.dumpSet n else [])

/-- Period in force, in microseconds: 1-49 act as 50. -/
def State.dumpPeriod (s : State) : Nat := let p := s.rd R.PMC_DUMP_CFG_period_us; if p = 0 then 0 else max p 50

/-- The record that would be captured now. -/
def State.dumpRec (s : State) (now : Bool) : DumpRec :=
  let sets := s.rd R.PMC_DUMP_CFG_sets
  { seq := s.pmc.seq, stamp := s.now64, period := if now then 0 else s.dumpPeriod, sets := sets,
    flags := b2n now + 2 * b2n s.pmc.stepped, lost := s.pmc.lost, values := s.dumpValues sets }

/-- `n` dumps are lost: their numbers pass. -/
def State.dumpLost (s : State) (n : Nat) : State := { s with pmc := { s.pmc with seq := s.pmc.seq + n, lost := s.pmc.lost + n } }

/-- A dump falls due, or is asked for: captured, or skipped while a record is being written or no ring is set (R500). -/
def State.dumpTake (s : State) (now : Bool) : State :=
  let loc := s.rd R.PMC_DUMP_BASE_loc
  if s.pmc.dump.isSome ∨ loc = 0 ∨ loc = 3 then (s.dumpLost 1).sat R.PMC_DUMP_STATUS_skipped
  else
    let d := s.dumpRec now
    let s : State := { s with pmc := { s.pmc with dump := some d, seq := s.pmc.seq + 1, lost := 0, stepped := false } }
    s.raise R.PMC_DUMP_STATUS_busy

/-- A write of PMC_DUMP_CFG or PMC_DUMP_T0 sets the first dump's time: the first time of the schedule at or after now. -/
def State.dumpSchedule (s : State) : State :=
  let p := s.dumpPeriod * unitsPerUs
  let t0 := ft64Units (s.rd R.PMC_DUMP_T0_t0)
  let at_ := if !s.on R.PMC_DUMP_CFG_enable || p = 0 then none
    else if s.time.ft ≤ t0 then some t0
    else some (t0 + ((s.time.ft - t0 + p - 1) / p) * p)
  { s with pmc := { s.pmc with dumpAt := at_ } }

/-- DUMP_CAPTURE: the next periodic dump's time comes. -/
def State.dumpCapture (s : State) : State :=
  match s.pmc.dumpAt with
  | none => s
  | some t =>
    let s := (s.runTo t).dumpTake false
    { s with pmc := { s.pmc with dumpAt := some (t + s.dumpPeriod * unitsPerUs) } }

/-- After a forward jump of FT that passes several dump times, one dump is captured and the others count as lost (R56). -/
def State.dumpJump (s : State) : State :=
  let s : State := { s with pmc := { s.pmc with stepped := true } }
  match s.pmc.dumpAt with
  | none => s
  | some t =>
    let p := s.dumpPeriod * unitsPerUs
    if s.time.ft < t ∨ p = 0 then s
    else
      let n := (s.time.ft - t) / p
      let s := (s.dumpLost n).dumpTake false
      { s with pmc := { s.pmc with dumpAt := some (t + (n + 1) * p) } }

/-- The 64-byte header of a record. -/
def DumpRec.header (d : DumpRec) : List Byte :=
  leBytes 8 d.seq ++ leBytes 8 d.stamp ++ leBytes 4 d.period ++ leBytes 4 d.values.length ++ leBytes 2 d.sets ++ leBytes 2 d.flags ++ leBytes 4 d.lost ++ leBytes 32 0

/-- The record's write ends, with its header written or not. -/
def State.dumpEnds (s : State) (ok : Bool) (seq : Nat) : State :=
  let s : State := { s with pmc := { s.pmc with dump := none, lost := if ok then s.pmc.lost else s.pmc.lost + 1 } }
  let s := s.wr R.PMC_DUMP_STATUS_busy 0
  if ok then s.wr R.PMC_DUMP_STATUS_seq seq else s.raise R.PMC_DUMP_STATUS_failed

/-- DUMP_WRITE_DONE: the values are written first, the header last (R499). -/
def State.dumpWrite (s : State) : State :=
  match s.pmc.dump with
  | none => s
  | some d =>
    let hbm := s.rd R.PMC_DUMP_BASE_loc == 1
    let a := s.rd R.PMC_DUMP_BASE_addr * 32768 + (d.seq % 2 ^ min (s.rd R.PMC_DUMP_CFG_log2_slots) 12) * 32768
    match s.writeFor 0 hbm (a + 64) (d.values.flatMap (leBytes 8)) with
    | (.wait, n) => n
    | (.fail _, n) => n.dumpEnds false d.seq
    | (.ok _, n) => match n.writeFor 0 hbm a d.header with
      | (.ok _, n) => n.dumpEnds true d.seq
      | (.wait, n) => n
      | (.fail _, n) => n.dumpEnds false d.seq

/-! ### The commands -/

def execCounterEvent (block inst event sub value slice part : Nat) (s : State) : Out :=
  s.whenMain (·.counterEvent block inst event sub value slice part)
def execHistInterval (source obj ns : Nat) (s : State) : Out := s.whenMain (·.histInterval source obj ns)
def execDumpCapture (s : State) : Out := s.whenMain State.dumpCapture
def execDumpWriteDone (s : State) : Out := s.whenMain State.dumpWrite

end Sys2Proof.Machine
end

