-- ==== Sys2Proof/Machine/Health.lean ====
section
/-! DEFINITION. Supplies, thermal steps and units in service: brace, trips, drains, tests, fences and returns
(20_health_test.md R502-R516). -/

namespace Sys2Proof.Machine

def State.hltCnt (s : State) (c : Nat) (n : Nat := 1) : State := s.addTo R.HLT_CNT_count n c

/-- An HLT_ event: 16 detail bytes, to slice 0's ring, and to the always-on log for some (table HLT_ event codes). -/
def State.hltEvent (s : State) (code : Nat) (d : List Byte) (log : Bool) : State :=
  let b := (d ++ List.replicate 16 0).take 16
  if log then s.eventBoth 0x13 0 code b else s.event 0x13 0 code b

/-! ### Supplies (R502-R505) -/

/-- A rail's reading. -/
def State.railSeen (s : State) (r mv : Nat) : State :=
  let v := min mv 0xFFFF
  (s.wr R.HLT_SUPPLY_STATUS_now_mv v r).wr R.HLT_SUPPLY_STATUS_min_mv (min (s.rd R.HLT_SUPPLY_STATUS_min_mv r) v) r

/-- A rail is below its warning level or not. -/
def State.railLow (s : State) (r : Nat) (low : Bool) : State :=
  (s.wr R.HLT_SUPPLY_STATUS_below_warn (b2n low) r).wr R.HLT_STATUS_brace_rails (setBit (s.rd R.HLT_STATUS_brace_rails) r low)

/-- BRACE_ENTER: rail `r` has stayed below its warning level for 50 ns. -/
def State.braceEnter (s : State) (r mv : Nat) : State :=
  let s := s.railSeen r mv
  if s.rd R.HLT_SUPPLY_CFG_warn_mv r ≤ mv then s
  else
    let s := s.railLow r true
    if s.on R.HLT_STATUS_brace then s
    else
      let s := ((s.raise R.HLT_STATUS_brace).sat R.HLT_SUPPLY_STATUS_braces 1 r).hltCnt 0
      let s : State := { s with hlt := { s.hlt with braceAt := s.time.ft } }
      s.hltEvent 1 (leBytes 1 r ++ leBytes 1 0 ++ leBytes 2 (min mv 0xFFFF)) true

/-- BRACE_EXIT: the readings of the rails after they have stayed at or above warn_mv + hyst_mv for 10 us; a rail that is not
so keeps brace running. -/
def State.braceExit (s : State) (mv : Nat → Nat) : State :=
  if !s.on R.HLT_STATUS_brace then s
  else
    let s := (List.range 3).foldl (fun s r => (s.railSeen r (mv r)).railLow r (mv r < s.rd R.HLT_SUPPLY_CFG_warn_mv r)) s
    let up := (List.range 3).all (fun r => s.rd R.HLT_SUPPLY_CFG_warn_mv r + s.rd R.HLT_SUPPLY_CFG_hyst_mv r ≤ mv r)
    if !up then s
    else
      let s := s.runTo (s.hlt.braceAt + 10 * unitsPerUs)
      let us := (s.time.ft - s.hlt.braceAt) / unitsPerUs
      let s := ((s.wr R.HLT_STATUS_brace 0).wr R.SEC_FUSE_CTR_deferred 0).hltCnt 1 us
      s.hltEvent 2 (leBytes 4 us) true

/-- SUPPLY_RESET: rail `r` has stayed below its reset level for 20 ns. -/
def State.supplyReset (s : State) (r mv : Nat) : State :=
  if mv < s.rd R.HLT_SUPPLY_CFG_reset_mv r ∧ s.isl.mainPg ∧ s.isl.up ∧ s.isl.hold.isNone then s.mainReset 1 r else s

/-! ### Temperature (R506-R508) -/

/-- A temperature as the signed byte of a register. -/
def tempByte (t : Int) : Nat := unsigned 8 (max (-128) (min 127 t))

/-- One sensor's reading; none: out of range or no answer. -/
def State.sensorSeen (s : State) (i : Nat) (t : Option Int) : State :=
  match t with
  | none =>
    if s.on R.HLT_TEMP_fault i then s else (s.raise R.HLT_TEMP_fault i).hltEvent 4 (leBytes 1 i) false
  | some t =>
    let s := (s.wr R.HLT_TEMP_fault 0 i).wr R.HLT_TEMP_temp_c (tempByte t) i
    if signed 8 (s.rd R.HLT_TEMP_peak_c i) < signed 8 (tempByte t) then s.wr R.HLT_TEMP_peak_c (tempByte t) i else s

/-- The hottest sensor that is not in fault. -/
def State.hottest (s : State) : Option (Nat × Int) :=
  (List.range 18).foldl (fun m i =>
    if s.on R.HLT_TEMP_fault i then m
    else
      let t := signed 8 (s.rd R.HLT_TEMP_temp_c i)
      match m with
      | some (_, u) => if u < t then some (i, t) else m
      | none => some (i, t)) none

/-- Whether a step holds: entered at its threshold, left when every reading is at least hyst_c below it (R507). -/
def stepHolds (was : Bool) (t thr hyst : Int) : Bool := thr ≤ t || (was && thr - hyst < t)

/-- The step to take, and the reading that decides it: warn, steps 1 and 2 (0-3). -/
def State.stepFor (s : State) (m : Option (Nat × Int)) : Nat :=
  let hyst : Int := max 1 (min 15 (s.rd R.HLT_THERM_CFG_hyst_c))
  let dead := (List.range 16).all (fun i => s.on R.HLT_TEMP_fault i)
  let t := match m with
    | some (_, t) => t
    | none => -128
  let step := s.rd R.HLT_THERM_STATUS_step
  if dead then 3
  else if stepHolds (step == 2) t (s.rd R.HLT_THERM_CFG_step2_c) hyst then 3
  else if stepHolds (1 ≤ step) t (s.rd R.HLT_THERM_CFG_step1_c) hyst then 2
  else if stepHolds (s.on R.HLT_THERM_STATUS_warn) t (s.rd R.HLT_THERM_CFG_warn_c) hyst then 1
  else 0

/-- THERMAL_SAMPLE: the readings of the 16 die sensors and the two HBM stacks. -/
def State.thermalSample (s : State) (readings : List (Option Int)) : State :=
  let s := (List.range 18).foldl (fun s i => s.sensorSeen i ((readings[i]?).getD none)) s
  let m := s.hottest
  let old := if s.rd R.HLT_THERM_STATUS_step = 2 then 3 else if s.rd R.HLT_THERM_STATUS_step = 1 then 2 else s.rd R.HLT_THERM_STATUS_warn
  let new := s.stepFor m
  let s := match m with
    | some (i, t) =>
      let s := (s.wr R.HLT_THERM_STATUS_max_c (tempByte t)).wr R.HLT_THERM_STATUS_max_sensor i
      if signed 8 (s.rd R.HLT_THERM_STATUS_peak_c) < t then s.wr R.HLT_THERM_STATUS_peak_c (tempByte t) else s
    | none => s
  let s := (s.wr R.HLT_THERM_STATUS_warn (b2n (1 ≤ new))).wr R.HLT_THERM_STATUS_step (new - 1)
  let s := if old < 2 ∧ 2 ≤ new then s.hltCnt 2 else s
  let s := if old < 3 ∧ 3 ≤ new then s.hltCnt 3 else s
  let s := if old = new then s
    else s.hltEvent 3 (leBytes 1 (if new = 1 then 3 else new - 1) ++ leBytes 1 (s.rd R.HLT_THERM_STATUS_max_sensor) ++ leBytes 1 (s.rd R.HLT_THERM_STATUS_max_c)) true
  match m with
  | some (_, t) => if (s.rd R.HLT_THERM_CFG_trip_c : Int) ≤ t ∧ s.isl.hold.isNone then s.mainReset 2 else s
  | none => s

/-- TRIP_RELEASE: at least 1 s after a trip the island's die sensor reads `die`; below warn_c the domain is released and the
log records it (R508). -/
def State.tripRelease (s : State) (die : Int) (romOk : Bool) : State :=
  match s.isl.hold with
  | none => s
  | some h =>
    if h.cause ≠ 2 then s
    else
      let s := s.runIsland (h.since + unitsPerSec)
      if die < (s.rd R.HLT_THERM_CFG_warn_c : Int) then
        let s : State := { s with isl := { s.isl with hold := none } }
        let s := s.logEvent 0x14 0 (Config.eventCode 0x14 0) (Config.eventDetail 0x14 0)
        if s.isl.mainPg then s.romFlow romOk else s
      else s

/-! ### Units (R509-R516) -/

/-- Units of a kind (table Unit kinds). -/
def unitCount (kind : Nat) : Nat :=
  if kind = 0 then 9 else if kind = 1 ∨ kind = 2 ∨ kind = 5 then 64 else if kind = 3 ∨ kind = 4 then 8 else if kind = 6 then 128 else 0

def State.unitState (s : State) (kind i : Nat) : Nat := s.rd R.HLT_UNIT_state kind i

def State.setUnit (s : State) (kind i st : Nat) : State := s.wr R.HLT_UNIT_state st kind i

/-- Units FENCED, saturating at 0xFF (HLT_STATUS.fenced). -/
def State.fencedTotal (s : State) : Nat :=
  min 255 ((List.range 6).foldl (fun a k => a + ((List.range (unitCount k)).filter (fun i => s.unitState k i == 4)).length) 0)

/-- The unit of an epoch unit number, if it is one of kinds 0-4 (02_fabric_time.md, table Epoch unit numbers). -/
def healthUnit (u : Nat) : Option (Nat × Nat) :=
  if u < 9 then some (0, u)
  else if 9 ≤ u ∧ u < 17 then some (4, u - 9)
  else if 21 ≤ u ∧ u < 29 then some (3, u - 21)
  else if 29 ≤ u ∧ u < 37 then some (3, u - 29)
  else if 47 ≤ u ∧ u < 111 then some (1, u - 47)
  else none

/-- The unit is armed in a running epoch. -/
def State.unitArmed (s : State) (kind i : Nat) : Bool :=
  if kind = 0 then s.armed i
  else if kind = 1 then s.armed (47 + i)
  else if kind = 3 then s.armed (21 + i) || s.armed (29 + i)
  else if kind = 4 then s.armed (9 + i)
  else if kind = 6 then s.armed i
  else false

def State.heldUnit (s : State) (u : Nat) : Bool := bit (s.rd R.HLT_EPOCH_HELD_held (u / 64)) (u % 64)

def State.hltCmd? (s : State) (kind i : Nat) : Option HltCmd := s.hlt.cmds.find? (fun c => c.kind == kind && c.index == i)

def State.setCmds (s : State) (l : List HltCmd) : State :=
  ({ s with hlt := { s.hlt with cmds := l } } : State).wr R.HLT_STATUS_running l.length

/-- The result of a command: status registers and event 0x0010. -/
def State.hltResult (s : State) (kind i op status us : Nat) : State :=
  let s := ((s.wr R.HLT_CMD_STATUS_status status).wr R.HLT_CMD_STATUS_kind kind).wr R.HLT_CMD_STATUS_index i
  s.hltEvent 0x10 (leBytes 1 kind ++ leBytes 1 i ++ leBytes 1 op ++ leBytes 1 0 ++ leBytes 2 status ++ leBytes 2 0 ++ leBytes 4 us) (status == St.hlt_failed)

/-- A running command completes. -/
def State.hltDone (s : State) (c : HltCmd) (status us : Nat) : State :=
  let s := s.setCmds (s.hlt.cmds.filter (fun d => !(d.kind == c.kind && d.index == c.index)))
  let s := if c.kind < 6 then s.wr R.HLT_UNIT_last_status status c.kind c.index else s
  s.hltResult c.kind c.index c.op status us

/-- The first failing status of a command (R509); 0 when it is accepted. -/
def State.hltCheck (s : State) (kind i op : Nat) (drain force : Bool) : Nat :=
  let st := s.unitState kind i
  if unitCount kind ≤ i ∨ op = 0 ∨ 3 < op then St.hlt_unit
  else if kind = 6 ∧ (op ≠ 3 ∨ !s.heldUnit i) then St.hlt_unit
  else if kind ≠ 6 ∧ op = 3 ∧ st ≠ 4 then St.hlt_unit
  else if op = 2 ∧ st = 4 then St.hlt_unit
  else if (s.hltCmd? kind i).isSome ∨ 16 ≤ s.hlt.cmds.length then St.busy
  else if kind ≠ 6 ∧ op ≠ 3 ∧ st = 0 ∧ !drain then St.busy
  else if s.unitArmed kind i then St.hlt_epoch
  else if kind = 0 ∧ i = 8 then (if s.sleeveState ≠ 0 then St.busy else 0)
  else if kind = 0 ∧ st = 0 ∧ !(s.sleeveState == 4 && s.sleevePipe == i) ∧ !force then St.hlt_no_sleeve
  else if kind = 5 ∧ st = 0 ∧ op = 1 ∧ (!s.on R.MEM_SPARE_CFG_spare_en ∨ s.rd R.MEM_INFO_spared ≠ 0) then St.hlt_no_spare
  else 0

/-- A drain begins (table Drain, test and return per unit). -/
def State.drainStart (s : State) (kind i : Nat) : State :=
  let s := s.setUnit kind i 1
  if kind = 2 then s.endLockOf i true
  else if kind = 3 then
    if s.sockPwr i = 3 then s.startQuiesce i
    else if s.sockPwr i = 1 ∨ s.sockPwr i = 2 then (s.setPwr i 0).linkDown i 7
    else s
  else if kind = 4 then (List.range 8).foldl (fun s k => if s.portState (8 * i + k) = 0 then s else s.disablePort (8 * i + k)) s
  else if kind = 5 then s.spareGo i
  else s

/-- The test begins: a destructive test of a pipeline leaves its tables empty and ends the mirroring to it (R304). -/
def State.testStart (s : State) (kind i : Nat) : State :=
  let s := s.setUnit kind i 2
  if kind = 0 then
    let s := s.emptyTables i
    if s.swc.mirroring ∧ s.sleevePipe = i ∧ i < 8 then { s with swc := { s.swc with mirroring := false, mirrorLost := true } } else s
  else if kind = 1 then s.setFcore i { s.fcore i with lm := [] }
  else s

/-- A command of HLT_CMD (R509, R510). -/
def State.hltCmd (s : State) (kind i op : Nat) (drain force : Bool) : State :=
  let st := s.hltCheck kind i op drain force
  if st ≠ 0 then s.hltResult kind i op st 0
  else if kind = 6 then
    (s.wr R.HLT_EPOCH_HELD_held (setBit (s.rd R.HLT_EPOCH_HELD_held (i / 64)) (i % 64) false) (i / 64)).hltResult kind i op 0 0
  else
    let fenced := s.unitState kind i == 4
    let c : HltCmd := { kind := kind, index := i, op := op, force := force, since := s.time.ft, wasFenced := fenced }
    let s := s.setCmds (s.hlt.cmds ++ [c])
    if fenced then s.testStart kind i else s.drainStart kind i

/-- The unit has finished its work in flight. -/
def State.drained (s : State) (kind i : Nat) : Bool :=
  if kind = 0 then (s.pipe i).xin.isEmpty
  else if kind = 1 then (List.range 16).all (fun t => (s.hart (16 * i + t)).state == 0)
  else if kind = 2 then (s.eng i).run.isNone
  else if kind = 3 then s.sockPwr i == 0 || s.sockPwr i == 5
  else if kind = 5 then s.rd R.MEM_PC_STATE_state i == 2 || s.rd R.MEM_PC_STATE_state i == 3
  else true

/-- The drain has ended: the test, or the fence. -/
def State.drainEnds (s : State) (c : HltCmd) : State :=
  if c.op = 1 then s.testStart c.kind c.index
  else ((s.setUnit c.kind c.index 4).hltCnt 6).hltDone c 0 0

/-- DRAIN_DONE. -/
def State.drainDone (s : State) (kind i : Nat) : State :=
  match s.hltCmd? kind i with
  | some c => if s.unitState kind i = 1 ∧ s.drained kind i then s.drainEnds c else s
  | none => s

/-- DRAIN_TIMEOUT of a flow core (R512): with `force` the device disables its threads; without, it returns to service. -/
def State.drainTimeout (s : State) (core : Nat) : State :=
  match s.hltCmd? 1 core with
  | none => s
  | some c =>
    if s.unitState 1 core ≠ 1 ∨ s.drained 1 core then s
    else
      let s := s.runTo (c.since + max 1 (s.rd R.HLT_DRAIN_CFG_drain_ms) * unitsPerMs)
      if c.force then
        let s := (List.range 16).foldl (fun s t => s.threadDisable (16 * core + t)) s
        s.drainEnds c
      else ((s.setUnit 1 core 0).hltCnt 7).hltDone c St.hlt_drain_timeout 0

/-- The unit returns to service. -/
def State.unitBack (s : State) (kind i : Nat) : State :=
  let s := s.setUnit kind i 0
  if kind = 2 then s.wr R.VLT_ENG_FENCED_fenced (setBit (s.rd R.VLT_ENG_FENCED_fenced) i false)
  else if kind = 4 then (List.range 8).foldl (fun s k => s.startPort (8 * i + k)) s
  else s

/-- TEST_DONE: the test's result and time. -/
def State.testDone (s : State) (kind i : Nat) (passed : Bool) (us : Nat) : State :=
  match s.hltCmd? kind i with
  | none => s
  | some c =>
    if s.unitState kind i ≠ 2 then s
    else
      let s := s.hltCnt 4
      if !passed then (((s.hltCnt 5).sat R.HLT_UNIT_fails 1 kind i).setUnit kind i 4).hltDone c St.hlt_failed us
      else if c.wasFenced && c.op == 1 then (s.setUnit kind i 4).hltDone c 0 us
      else if kind = 5 then s.setUnit 5 i 3
      else (s.unitBack kind i).hltDone c 0 us

/-- COPY_BACK_DONE of a pseudo-channel (R514). -/
def State.copyBackDone (s : State) (pc : Nat) : State :=
  match s.hltCmd? 5 pc with
  | none => s
  | some c =>
    if s.unitState 5 pc ≠ 3 then s
    else
      let s := (s.wr R.MEM_PC_STATE_state 0 pc).wr R.MEM_INFO_spared 0
      (s.unitBack 5 pc).hltDone c 0 0

/-- An epoch unit that fails to apply is fenced (R516, 02_fabric_time.md R67). -/
def State.epochFence (s : State) (u : Nat) : State :=
  match healthUnit u with
  | none => s.wr R.HLT_EPOCH_HELD_held (setBit (s.rd R.HLT_EPOCH_HELD_held (u / 64)) (u % 64) true) (u / 64)
  | some (kind, i) =>
    let s := s.setUnit kind i 4
    if kind = 1 then (List.range 16).foldl (fun s t => s.threadDisable (16 * i + t)) s
    else if kind = 3 then
      let s := (s.volsOf 2 i).foldl (fun s v => s.freeze v 6) s
      if s.sockPwr i = 5 then s.linkDown i 7 else (s.setPwr i 0).linkDown i 7
    else if kind = 4 then (List.range 8).foldl (fun s k => if s.portState (8 * i + k) = 0 then s else s.disablePort (8 * i + k)) s
    else s

/-- A unit that is not in service, or held, refuses to be armed (R515, R516). -/
def State.unitRefuses (s : State) (u : Nat) : Bool :=
  s.heldUnit u || match healthUnit u with
    | some (kind, i) => s.unitState kind i != 0
    | none => false

/-! ### The commands -/

def execBraceEnter (rail : Fin 3) (mv : Nat) (s : State) : Out := s.whenMain (·.braceEnter rail mv)
def execBraceExit (core fc sram : Nat) (s : State) : Out :=
  s.whenMain (·.braceExit (fun r => if r = 0 then core else if r = 1 then fc else sram))
def execSupplyReset (rail : Fin 3) (mv : Nat) (s : State) : Out := s.whenMain (·.supplyReset rail mv)
def execThermalSample (readings : List (Option Int)) (s : State) : Out := s.whenMain (·.thermalSample readings)
def execTripRelease (die : Int) (romOk : Bool) (s : State) : Out := s.done (s.tripRelease die romOk)
def execDrainDone (kind : Fin 8) (index : Fin 128) (s : State) : Out := s.whenMain (fun s => (s.drainDone kind index).drainDue)
def execDrainTimeout (core : Fin 64) (s : State) : Out := s.whenMain (fun s => (s.drainTimeout core).drainDue)
def execTestDone (kind : Fin 8) (index : Fin 128) (passed : Bool) (us : Nat) (s : State) : Out :=
  s.whenMain (·.testDone kind index passed us)
def execCopyBackDone (pc : Fin 64) (s : State) : Out := s.whenMain (·.copyBackDone pc)

end Sys2Proof.Machine
end

