-- ==== Sys2Proof/Machine/Mgmt.lean ====
section
/-! DEFINITION. The always-on island: its buses, MCTP, PLDM, vendor messages, the always-on log, NC-SI and host messages
(21_management.md R520-R531; 20_health_test.md R519). The rows of the single messages carry their meaning; MCTP_PACKET
assembles and counts them (log entry 13). Codes of the standards that the spec names are PRESUMED (log entry 11). -/

namespace Sys2Proof.Machine

/-- The island takes a command only while it runs. -/
def State.whenIsland (s : State) (f : State → State) : Out := s.done (if s.isl.up then f s else s)

def State.mgtCnt (s : State) (k : Nat) (n : Nat := 1) : State := s.addTo R.MGT_CNT_count n k

/-- The main domain is held in reset. -/
def State.mainHeld (s : State) : Bool := !s.isl.mainPg || s.isl.hold.isSome

/-- MGT_STATUS.main: 0 reset, 1 cuffed, 2 running, 3 recovery. -/
def State.mainCond (s : State) : Nat :=
  if s.mainHeld then 0 else if s.cuffOpen then 2 else if s.rd R.SEC_BOOT_STATUS_state = 4 then 3 else 1

def State.modIsl (s : State) (f : Island → Island) : State := { s with isl := f s.isl }

/-! ### The bus (R522, table Management bus support) -/

/-- SETDASA: the dynamic address is assigned to the target at its static address; ignored once one is assigned. -/
def State.setDasa (s : State) (a : Nat) : State := if s.isl.dyn = 0 then s.modIsl (fun i => { i with dyn := a }) else s

/-- RSTDAA or a bus reset: the target returns to SMBus. -/
def State.busReset (s : State) : State := s.modIsl (fun i => { i with dyn := 0 })

/-- A management bus has been held low for 35 ms: the target releases it. -/
def State.busStuck (s : State) (b : Nat) : State := s.logEvent 0x13 0 0x13 (leBytes 1 b ++ List.replicate 15 0)

/-! ### MCTP (R522) -/

/-- The longest message that is assembled. -/
def mctpMax : Nat := 1088

/-- A packet: a start of message begins its assembly; a message that grows too long or whose packet is out of sequence is
dropped; an end of message completes it. -/
def State.mctpPacket (s : State) (src tag : Nat) (som eom : Bool) (seq : Nat) (data : List Byte) : State :=
  let cur := s.isl.asm.find? (fun a => a.src == src && a.tag == tag)
  let rest := s.isl.asm.filter (fun a => !(a.src == src && a.tag == tag))
  let put := fun (s : State) (l : List McAsm) => s.modIsl (fun i => { i with asm := l })
  let drop := (put s rest).mgtCnt 2
  let take := fun (s : State) (a : McAsm) => if eom then (put s rest).mgtCnt 0 else put s (rest ++ [a])
  if 64 < data.length then drop
  else if som then
    let s := if cur.isSome then s.mgtCnt 2 else s
    take s { src := src, tag := tag, data := data, seq := (seq + 1) % 4 }
  else match cur with
    | none => s.mgtCnt 2
    | some a =>
      if a.seq ≠ seq ∨ mctpMax < a.data.length + data.length then drop
      else take s { a with data := a.data ++ data, seq := (seq + 1) % 4 }

/-- A message of the device goes out over MCTP. -/
def State.mctpSend (s : State) (m : BmcMsg) : State := (s.toMgmt m).mgtCnt 1

def State.ctlAnswer (s : State) (cmd code : Nat) (data : List Byte := []) : State := s.mctpSend (.control cmd code data)

/-- Set Endpoint ID; 0 and 0xFF are no endpoint IDs. -/
def State.setEid (s : State) (e : Nat) : State :=
  if e = 0 ∨ e = 255 then s.ctlAnswer 1 2 else (s.wr R.MGT_INFO_eid e).ctlAnswer 1 0 (leBytes 1 e)

def State.getEid (s : State) : State := s.ctlAnswer 2 0 (leBytes 1 (s.rd R.MGT_INFO_eid))

/-- Get MCTP Version Support, for the base specification (0xFF) or a supported type. -/
def State.mctpVersion (s : State) (t : Nat) : State :=
  if t = 0 ∨ t = 1 ∨ t = 0x7F ∨ t = 0xFF then s.ctlAnswer 4 0 (Config.mctpVersions t) else s.ctlAnswer 4 0x80

def State.mctpTypes (s : State) : State := s.ctlAnswer 5 0 [3, 0, 1, 0x7F]

/-- Get Vendor Defined Message Support: one vendor set, Zilbel's IANA number. -/
def State.mctpVendor (s : State) (sel : Nat) : State :=
  if sel = 0 then s.ctlAnswer 6 0 (leBytes 1 0xFF ++ leBytes 1 1 ++ beBytes 4 (s.rd R.MGT_INFO_iana) ++ Config.vendorSet) else s.ctlAnswer 6 2

/-! ### PLDM base and platform (R523) -/

/-- An answer to a PLDM command; one with an error code counts in pldm_err. -/
def State.pldm (s : State) (type cmd code : Nat) (data : List Byte := []) : State :=
  (if code = 0 then s else s.mgtCnt 3).mctpSend (.pldm type cmd code data)

def State.setTid (s : State) (t : Nat) : State := if t = 0 ∨ t = 255 then s.pldm 0 1 2 else (s.wr R.MGT_INFO_tid t).pldm 0 1 0

/-- Commands of a supported PLDM type; none: the type is not supported. -/
def pldmCommands (t : Nat) : Option (List Nat) :=
  if t = 0 then some [1, 2, 3, 4, 5]
  else if t = 2 then some [0x0A, 0x0D, 0x11, 0x21, 0x50, 0x51]
  else if t = 5 then some [1, 2, 0x10, 0x13, 0x14, 0x15, 0x16, 0x17, 0x18, 0x1A, 0x1B, 0x1C, 0x1D]
  else none

def State.pldmVersion (s : State) (t : Nat) : State :=
  if (pldmCommands t).isSome then s.pldm 0 3 0 (Config.pldmVersion t) else s.pldm 0 3 0x83

def State.pldmTypes (s : State) : State := s.pldm 0 4 0 (leBytes 8 (2 ^ 0 + 2 ^ 2 + 2 ^ 5))

def State.pldmCmds (s : State) (t : Nat) : State :=
  match pldmCommands t with
  | some l => s.pldm 0 5 0 (leBytes 32 (l.foldl (fun a c => a + 2 ^ c) 0))
  | none => s.pldm 0 5 0x83

/-- A state sensor of a port group: 0 a port UP, 1 none UP, 2 disabled. -/
def State.groupState (s : State) (g : Nat) : Nat :=
  let ps := (List.range 8).map (8 * g + ·)
  if ps.any s.portUp then 0 else if ps.any s.portEnabled then 1 else 2

/-- Reading of a sensor (table PLDM sensors); none: unavailable, or no such sensor. While the main domain is in reset or in
recovery only the island's own sensors can be read. -/
def State.sensor (s : State) (id : Nat) : Option Nat × State :=
  if id = 1 ∨ (20 ≤ id ∧ id ≤ 22) then
    if s.mainUp then (some (if id = 1 then s.rd R.HLT_TEMP_temp_c 0 else s.rd R.HLT_SUPPLY_STATUS_now_mv (id - 20)), s)
    else
      let d := s.draw
      (some (Config.islandSensor id d.1), d.2)
  else if !s.mainUp then (none, s)
  else if 2 ≤ id ∧ id ≤ 18 then ((if s.on R.HLT_TEMP_fault (id - 1) then none else some (s.rd R.HLT_TEMP_temp_c (id - 1))), s)
  else if id = 30 then (some (s.rd R.SEC_BOOT_STATUS_state), s)
  else if id = 31 then (some (s.rd R.HLT_STATUS_brace + 2 * s.rd R.HLT_THERM_STATUS_step), s)
  else if 32 ≤ id ∧ id < 40 then (some (s.groupState (id - 32)), s)
  else if 40 ≤ id ∧ id < 48 then (some (s.rd R.TSK_STATUS_pwr (id - 40)), s)
  else (none, s)

def numericId (id : Nat) : Bool := (1 ≤ id && id ≤ 18) || (20 ≤ id && id ≤ 22)
def stateId (id : Nat) : Bool := 30 ≤ id && id < 48

/-- GetSensorReading and GetStateSensorReadings: operational state (0 enabled, 2 unavailable) and the reading. -/
def State.sensorRead (s : State) (cmd id : Nat) (known : Bool) : State :=
  if !known then s.pldm 2 cmd 0x80
  else
    let r := s.sensor id
    match r.1 with
    | some v => r.2.pldm 2 cmd 0 (leBytes 1 0 ++ leBytes 2 v)
    | none => r.2.pldm 2 cmd 0 (leBytes 1 2)

/-- What an event compares: the value of a state sensor; of a numeric one how many of its levels it has reached (HLT_
levels). -/
def State.sensorClass (s : State) (id : Nat) : Option Nat :=
  if !s.mainUp then none
  else if 1 ≤ id ∧ id ≤ 18 then
    let t := signed 8 (s.rd R.HLT_TEMP_temp_c (id - 1))
    some (([R.HLT_THERM_CFG_warn_c, R.HLT_THERM_CFG_step1_c, R.HLT_THERM_CFG_step2_c, R.HLT_THERM_CFG_trip_c].filter (fun f => decide ((s.rd f : Int) ≤ t))).length)
  else if 20 ≤ id ∧ id ≤ 22 then
    let v := s.rd R.HLT_SUPPLY_STATUS_now_mv (id - 20)
    some (b2n (decide (s.rd R.HLT_SUPPLY_CFG_warn_mv (id - 20) ≤ v)) + b2n (decide (s.rd R.HLT_SUPPLY_CFG_reset_mv (id - 20) ≤ v)))
  else if stateId id then (s.sensor id).1
  else none

def sensorIds : List Nat := (List.range 18).map (· + 1) ++ [20, 21, 22] ++ (List.range 18).map (· + 30)

/-- Sensor values as last reported, all as they are now. -/
def State.senseAll (s : State) : List (Nat × Nat) :=
  sensorIds.foldl (fun l id => match s.sensorClass id with
    | some v => Store.put 0 l id v
    | none => Store.put 0 l id (Store.get 0 s.isl.sensed id)) []

/-- EventMessageBufferSize: the agent enables events. -/
def State.eventBuffer (s : State) (n : Nat) : State :=
  let v := s.senseAll
  (s.modIsl (fun i => { i with evBuf := some n, sensed := v })).pldm 2 0x0D 0 (leBytes 2 n)

/-- PLATFORM_EVENT_MESSAGE: the first sensor that has changed since its last report is reported. -/
def State.sensorEvent (s : State) : State :=
  if s.isl.evBuf.isNone then s
  else match sensorIds.findSome? (fun id => match s.sensorClass id with
    | some v => if v = Store.get 0 s.isl.sensed id then none else some (id, v)
    | none => none) with
  | none => s
  | some (id, v) =>
    let s := s.modIsl (fun i => { i with sensed := Store.put 0 i.sensed id v })
    s.mctpSend (.pldmRequest 2 0x0A (leBytes 2 id ++ leBytes 2 v))

/-! ### PLDM firmware update (R524) -/

def State.setUpdSess (s : State) (u : Option UpdSess) : State := s.modIsl (fun i => { i with upd := u })

/-- The mailbox of SEC_ takes commands: cuffed, running or recovery. -/
def State.mboxReady (s : State) : Bool :=
  let st := s.rd R.SEC_BOOT_STATUS_state
  !s.mainHeld && (st == 2 || st == 3 || st == 4)

/-- The running session of the agent; a session that has ended in SEC_ (timeout, reset) is no session any more. -/
def State.updSess (s : State) : Option UpdSess :=
  match s.isl.upd with
  | none => none
  | some u =>
    let live := match s.sec.upd with
      | some x => x.mbox == 1
      | none => false
    if !s.mboxReady || (u.running && u.offset != 0 && !u.done && !live) then none else some u

/-- COMMAND_NOT_EXPECTED; a session that has ended is forgotten. -/
def State.notExpected (s : State) (cmd : Nat) : State := (s.setUpdSess none).pldm 5 cmd (if s.mainHeld then 4 else 0x88)

/-- The seq as eight hexadecimal digits. -/
def hexDigits : Nat → Nat → List Byte
  | 0, _ => []
  | n + 1, v => hexDigits n (v / 16) ++ [BitVec.ofNat 8 (if v % 16 < 10 then 0x30 + v % 16 else 0x37 + v % 16)]

/-- GetFirmwareParameters: the running seq, its version string, and the other slot's seq when it is VALID. -/
def State.fwParams (s : State) : State :=
  if s.mainHeld then s.pldm 5 2 4
  else
    let q := s.rd R.SEC_IMAGE_INFO_seq
    let o := 1 - s.rd R.SEC_BOOT_STATUS_slot
    s.pldm 5 2 0 (leBytes 2 0x6408 ++ leBytes 4 q ++ [0x53] ++ hexDigits 8 q ++ (if s.slotSt o = .valid then leBytes 4 (hdrSeq (s.slot o).hdr) else []))

def State.requestUpdate (s : State) : State :=
  if !s.mboxReady || s.sec.upd.isSome || s.updSess.isSome then s.pldm 5 0x10 0x8A else (s.setUpdSess (some {})).pldm 5 0x10 0

def State.passTable (s : State) : State :=
  match s.updSess with
  | some u => if u.running then s.pldm 5 0x13 0x88 else (s.setUpdSess (some { u with table := true })).pldm 5 0x13 0
  | none => s.notExpected 0x13

/-- RequestFirmwareData for 1,024 bytes of the image file: the header, then the body. -/
def State.askData (s : State) (off : Nat) : State := s.mctpSend (.pldmRequest 5 0x15 (leBytes 4 off ++ leBytes 4 1024))

def State.updateComponent (s : State) (c : Nat) : State :=
  match s.updSess with
  | none => s.notExpected 0x14
  | some u =>
    if !u.table || u.running then s.pldm 5 0x14 0x88
    else if c ≠ 0x6408 then s.pldm 5 0x14 0 [1]
    else ((s.setUpdSess (some { u with running := true })).pldm 5 0x14 0 [0]).askData 0

/-- Status of the management mailbox's last command. -/
def State.secStatus (s : State) : Nat := s.rd R.SEC_MBOX_STATUS_status 1

/-- A failing command of SEC_ in the transfer ends the session. -/
def State.transferFail (s : State) : State :=
  (s.setUpdSess none).mctpSend (.pldmRequest 5 0x16 (leBytes 1 (Config.transferFail s.secStatus)))

/-- The whole body has been accepted: TransferComplete, UPD_END, VerifyComplete and ApplyComplete. -/
def State.verify (s : State) (u : UpdSess) (readOk : Bool) : State :=
  let s := (s.mctpSend (.pldmRequest 5 0x16 [0])).updEnd 1 readOk
  let st := s.secStatus
  if st = 0 then
    ((s.mctpSend (.pldmRequest 5 0x17 [0])).mctpSend (.pldmRequest 5 0x18 [0])).setUpdSess (some { u with done := true })
  else (s.mctpSend (.pldmRequest 5 0x17 (leBytes 1 (0x90 + st % 256 + 256 - 0x80)))).setUpdSess none

/-- FIRMWARE_DATA: a piece of 1,024 bytes. The first is the header; every four pieces of the body form a chunk. -/
def State.firmwareData (s : State) (data : List Byte) (flashOk readOk : Bool) : State :=
  match s.updSess with
  | none => s.setUpdSess none
  | some u =>
    if !u.running || u.done || data.length != 1024 then s
    else if u.offset = 0 then
      let s := (s.setMbox 1 0 data).updBegin 1 flashOk
      if s.secStatus ≠ 0 then s.transferFail
      else
        let u := { u with offset := 1024, body := hdrBodyLen data }
        if u.body = 0 then s.verify u readOk else (s.setUpdSess (some u)).askData 1024
    else
      let chunk := u.chunk ++ data
      let u := { u with offset := u.offset + 1024, chunk := chunk }
      if chunk.length < 4096 then (s.setUpdSess (some u)).askData u.offset
      else
        let s := (s.wr R.SEC_MBOX_OFF_offset (u.offset - 1024 - 4096) 1).wr R.SEC_MBOX_CMD_length 4096 1
        let s := (s.setMbox 1 0 chunk).updData 1 flashOk
        let u := { u with chunk := [] }
        if s.secStatus ≠ 0 then s.transferFail
        else if u.offset = u.body + 1024 then s.verify u readOk
        else (s.setUpdSess (some u)).askData u.offset

/-- ActivateFirmware: self-contained activation, estimated time 500 ms. -/
def State.activateFirmware (s : State) : State :=
  match s.updSess with
  | some u => if u.done then ((s.setUpdSess none).pldm 5 0x1A 0 (leBytes 2 500)).activate 1 else s.pldm 5 0x1A 0x88
  | none => s.notExpected 0x1A

/-- GetStatus: 0 idle, 1 learning components, 2 ready to transfer, 3 downloading. -/
def State.updStatus (s : State) : State :=
  let st := match s.updSess with
    | none => 0
    | some u => if u.done then 2 else if u.running then 3 else if u.table then 2 else 1
  s.pldm 5 0x1B (if s.mainHeld then 4 else 0) (leBytes 1 st)

def State.cancelComponent (s : State) : State :=
  match s.updSess with
  | some u => if u.running then ((s.updAbort 1).setUpdSess (some { table := u.table })).pldm 5 0x1C 0 else s.pldm 5 0x1C 0x88
  | none => s.notExpected 0x1C

def State.cancelUpdate (s : State) : State :=
  match s.updSess with
  | some u => ((if u.running then s.updAbort 1 else s).setUpdSess none).pldm 5 0x1D 0
  | none => s.notExpected 0x1D

/-! ### The always-on log (R526, R527) -/

/-- Sequence number of the next record. -/
def State.logNext (s : State) : Nat :=
  match s.isl.log.getLast? with
  | some p => p.1 + 1
  | none => 0

/-- The 32 bytes of a record. -/
def logBytes (p : Nat × EventRec) : List Byte := leBytes 8 p.1 ++ eventBytes p.2

/-- A record that comes while the main domain is in reset or before FT is set carries the island's time, marked in detail
byte 0x0F. -/
def State.islandStamp (s : State) (e : EventRec) : EventRec :=
  if s.mainUp && s.rd R.FT_STATUS_state != 0 then e
  else
    let d := (e.detail ++ List.replicate 16 0).take 16
    { e with stamp := ft64 s.isl.ft, detail := d.take 15 ++ [(d.getD 15 0) ||| 0x80] }

/-- LOG_RECORD: the oldest record on its way is written; beyond 8,192 the oldest record is overwritten. -/
def State.logRecord (s : State) : State :=
  match s.logq with
  | [] => s
  | e :: rest =>
    let l := s.isl.log ++ [(s.logNext, s.islandStamp e)]
    let s : State := { s with logq := rest }
    s.modIsl (fun i => { i with log := if 8192 < l.length then l.drop 1 else l })

/-- A write of MGT_LOG_IDX loads a record into MGT_LOG_DATA; one that is not held reads all zeros. -/
def State.logLoad (s : State) (q : Nat) : State :=
  let b := match s.isl.log.find? (·.1 == q) with
    | some p => logBytes p
    | none => List.replicate 32 0
  (List.range 4).foldl (fun s j => s.wr R.MGT_LOG_DATA_data (fieldLE b (8 * j) 8) j) (s.wr R.MGT_LOG_IDX_seq q)

/-- ISLAND_FT_UPDATE. -/
def State.islandFt (s : State) : State :=
  if s.mainUp && s.rd R.FT_STATUS_state != 0 then s.modIsl (fun i => { i with ft := s.time.ft }) else s

/-! ### Vendor messages and host messages (R525, R531) -/

def State.vendor (s : State) (cmd inst status : Nat) (data : List Byte := []) : State := s.mctpSend (.vendor cmd inst status data)

/-- LOG_READ: the held records among `count` from `seq` on. -/
def State.logRead (s : State) (inst q n : Nat) : State :=
  if n = 0 ∨ 16 < n then s.vendor 3 inst 1
  else s.vendor 3 inst 0 ((s.isl.log.filter (fun p => q ≤ p.1 && p.1 < q + n)).flatMap logBytes)

/-- TO_HOST. -/
def State.msgToHost (s : State) (inst : Nat) (data : List Byte) : State :=
  let n := data.length
  if s.mainHeld then s.vendor 4 inst 2
  else if n = 0 ∨ 256 < n then s.vendor 4 inst 1
  else if s.on R.MGT_M2H_STATUS_valid then s.vendor 4 inst 4
  else
    let b := data ++ List.replicate (256 - n) 0
    let s := (List.range 32).foldl (fun s j => s.wr R.MGT_M2H_BUF_data (fieldLE b (8 * j) 8) j) s
    ((s.wr R.MGT_M2H_STATUS_length n).raise R.MGT_M2H_STATUS_valid).event 0x14 0 1 (leBytes 2 n ++ List.replicate 14 0) |>.vendor 4 inst 0

/-- The vendor message MAIN_RESET: its answer, then the reset. -/
def State.mainResetMsg (s : State) (inst : Nat) : State :=
  if s.mainHeld then (s.vendor 6 inst 2).requestReset 3 else (s.vendor 6 inst 0).requestReset 3

/-- A host write of MGT_H2M_CTRL: `go` sends the buffer unless a message waits or the length is not legal. -/
def State.h2mCtrl (s : State) (v : Nat) : State :=
  if s.on R.MGT_H2M_CTRL_busy then (if bit v 31 then s else s.wr R.MGT_H2M_CTRL_length v)
  else
    let s := s.wr R.MGT_H2M_CTRL_length v
    let n := v % 512
    if !bit v 31 then s
    else if n = 0 ∨ 256 < n then s.refusedWr
    else (s.raise R.MGT_H2M_CTRL_busy).toMgmt (.fromHost (((List.range 32).flatMap (fun j => leBytes 8 (s.rd R.MGT_H2M_BUF_data j))).take n))

/-- The management controller's MCTP layer has accepted the host message. -/
def State.h2mDone (s : State) : State := if s.on R.MGT_H2M_CTRL_busy then (s.wr R.MGT_H2M_CTRL_busy 0).mgtCnt 1 else s

/-! ### NC-SI (R528-R530) -/

def State.setNcsi (s : State) (n : Nat) (x : NcsiCh) : State := s.modIsl (fun i => { i with chans := Store.put {} i.chans n x })

def State.modNcsi (s : State) (n : Nat) (f : NcsiCh → NcsiCh) : State := s.setNcsi n (f (s.ncsi n))

def State.ncsiAnswer (s : State) (cmd ch response reason : Nat) (data : List Byte := []) : State := s.toMgmt (.ncsi cmd ch response reason data)

/-- A channel enabled by the management controller, as MGT_NCSI_STATUS shows it. -/
def State.ncsiEn (s : State) (n : Nat) (x : Bool) : State :=
  (s.modNcsi n (fun c => { c with en := x })).wr R.MGT_NCSI_STATUS_ch_en (setBit (s.rd R.MGT_NCSI_STATUS_ch_en) n x)

/-- An NC-SI command to a channel: in reset no channel is ready; a port that does not exist makes every command but Get
Version ID invalid; before Clear Initial State the channel needs initialization. -/
def State.ncsiCmd (s : State) (cmd n : Nat) (f : State → State × List Byte) : State :=
  let s := (s.mgtCnt 4).modNcsi n (fun c => { c with cmds := c.cmds + 1 })
  if s.mainHeld then s.ncsiAnswer cmd n 1 3
  else if !s.portExists n && cmd != 0x15 then s.ncsiAnswer cmd n 1 2
  else if !(s.ncsi n).ready && cmd != 0 && cmd != 0x15 then s.ncsiAnswer cmd n 1 1
  else
    let r := f s
    r.1.ncsiAnswer cmd n 0 0 r.2

/-- A command that changes a channel and answers no data. -/
def State.ncsiSet (s : State) (cmd n : Nat) (f : NcsiCh → NcsiCh) : State := s.ncsiCmd cmd n (fun s => (s.modNcsi n f, []))

/-- Reset Channel: back to the initial state; the statistics stay. -/
def NcsiCh.initial (c : NcsiCh) : NcsiCh := { cmds := c.cmds, toBmc := c.toBmc, toWire := c.toWire, dropped := c.dropped }

/-- The parameters of a channel as Get Parameters answers them. -/
def NcsiCh.params (c : NcsiCh) : List Byte :=
  leBytes 6 (Store.get 0 c.macs 0) ++ leBytes 6 (Store.get 0 c.macs 1) ++ (List.range 4).flatMap (fun k => leBytes 2 (Store.get 0 c.vlans k))
    ++ leBytes 1 (b2n c.en + 2 * b2n c.tx + 4 * b2n c.bcast + 8 * b2n c.mcast) ++ leBytes 1 c.vlanMode ++ leBytes 4 c.aen

/-- A command that the package does not support. -/
def State.ncsiUnknown (s : State) (n cmd : Nat) : State :=
  let s := (s.mgtCnt 4).modNcsi n (fun c => { c with cmds := c.cmds + 1 })
  if s.mainHeld then s.ncsiAnswer cmd n 1 3
  else if !s.portExists n then s.ncsiAnswer cmd n 1 2
  else s.ncsiAnswer cmd n 3 0x7FFF

/-- Select and Deselect Package. -/
def State.ncsiSelect (s : State) (x : Bool) : State :=
  ((s.mgtCnt 4).modIsl (fun i => { i with selected := x })).ncsiAnswer (if x then 1 else 2) 0x1F 0 0

/-- A pass-through frame is dropped. -/
def State.ncsiDrop (s : State) (n : Nat) : State := (s.mgtCnt 7).modNcsi n (fun c => { c with dropped := c.dropped + 1 })

/-- Frames of the management controller go out between the frames of their port: none is in transmission, and class 0 is
not stopped. -/
def State.ncsiFlush (s : State) (n : Nat) : State :=
  let c := s.ncsi n
  if 8 ≤ n ∨ c.txq = [] ∨ s.portUp n = false ∨ (s.outOf n).isSome ∨ s.stopped n 0 then s
  else c.txq.foldl (fun s d => ((s.putWire n d false).mgtCnt 6).modNcsi n (fun c => { c with toWire := c.toWire + 1 }))
    (s.setNcsi n { c with txq := [] })

/-- NCSI_TX_FRAME (R530): a frame of the management controller, without FCS. -/
def State.ncsiTx (s : State) (n : Nat) (data : List Byte) (fcsOk : Bool) : State :=
  let c := s.ncsi n
  if !fcsOk || 1518 < data.length || !s.cuffOpen || !s.portUp n || !c.ready || !c.tx || 8 ≤ c.txq.length then s.ncsiDrop n
  else (s.setNcsi n { c with txq := c.txq ++ [data] }).ncsiFlush n

/-- The frame passes the VLAN filter of a channel: mode 0 untagged frames, 1 frames of a filtered VLAN, 2 both, 3 any VLAN
and untagged. -/
def NcsiCh.vlanOk (c : NcsiCh) (data : List Byte) : Bool :=
  let et := beNat (sliceBytes data 12 2)
  if et = 0x8100 then
    let v := beNat (sliceBytes data 14 2) % 4096
    let hit := v != 0 && c.vlans.any (·.2 == v)
    c.vlanMode == 3 || ((c.vlanMode == 1 || c.vlanMode == 2) && hit)
  else c.vlanMode != 1

/-- A received frame toward the channel: 0 none of the channel's, 1 copied to it, 2 diverted to it (R529). -/
def NcsiCh.wants (c : NcsiCh) (data : List Byte) : Nat :=
  let da := beNat (data.take 6)
  if !c.ready || !c.tx || !c.vlanOk data then 0
  else if da ≠ 0 ∧ c.macs.any (·.2 == da) then 2
  else if c.bcast && da == 2 ^ 48 - 1 then 1
  else if c.mcast && (da / 2 ^ 24 == 0x3333FF || da == 0x333300000001) then 1
  else 0

/-- NCSI_DIVERT: a frame that port `p` has received; whether it goes on to its pipeline. A bad frame is dropped. -/
def State.ncsiDivert (s : State) (p : Nat) (f : Frame) : Bool × State :=
  let c := s.ncsi p
  let w := if p < 8 ∧ s.cuffOpen then c.wants f.data else 0
  if w = 0 then (true, s)
  else
    let t := if f.bad || !f.whole then s
      else if 8 ≤ c.rxq.length ∨ 1518 < f.data.length then s.ncsiDrop p
      else (s.setNcsi p { c with rxq := c.rxq ++ [f.data], toBmc := c.toBmc + 1 }).mgtCnt 5
    (w = 1, t)

/-- The package sends the first frame of each channel's receive buffer over RBT. -/
def State.ncsiDrain (s : State) : State :=
  s.isl.chans.foldl (fun s p => match p.2.rxq with
    | [] => s
    | d :: rest => (s.setNcsi p.1 { s.ncsi p.1 with rxq := rest }).toMgmt (.frame p.1 d)) s

/-! ### The commands -/

def execBusStuck (bus : Fin 4) (s : State) : Out := s.whenIsland (·.busStuck bus)
def execSetdasa (addr : Fin 128) (s : State) : Out := s.whenIsland (·.setDasa addr)
def execEntdaa (addr : Fin 128) (s : State) : Out := s.whenIsland (·.setDasa addr)
def execRstdaa (s : State) : Out := s.whenIsland State.busReset
def execI3cBusReset (s : State) : Out := s.whenIsland State.busReset
def execMctpPacket (src : Fin 256) (tag : Fin 16) (som eom : Bool) (seq : Fin 4) (data : List Byte) (s : State) : Out :=
  s.whenIsland (·.mctpPacket src tag som eom seq data)
def execSetEndpointId (eid : Fin 256) (s : State) : Out := s.whenIsland (·.setEid eid)
def execGetEndpointId (s : State) : Out := s.whenIsland State.getEid
def execGetEndpointUuid (s : State) : Out := s.whenIsland (·.ctlAnswer 3 0 Config.uuid)
def execGetMctpVersionSupport (type : Fin 256) (s : State) : Out := s.whenIsland (·.mctpVersion type)
def execGetMessageTypeSupport (s : State) : Out := s.whenIsland State.mctpTypes
def execGetVendorDefinedMsgSupport (selector : Fin 256) (s : State) : Out := s.whenIsland (·.mctpVendor selector)
def execMctpUnsupportedCmd (cmd : Fin 256) (s : State) : Out := s.whenIsland (·.ctlAnswer cmd 5)
def execSetTid (tid : Fin 256) (s : State) : Out := s.whenIsland (·.setTid tid)
def execGetTid (s : State) : Out := s.whenIsland (fun s => s.pldm 0 2 0 (leBytes 1 (s.rd R.MGT_INFO_tid)))
def execGetPldmVersion (type : Fin 256) (s : State) : Out := s.whenIsland (·.pldmVersion type)
def execGetPldmTypes (s : State) : Out := s.whenIsland State.pldmTypes
def execGetPldmCommands (type : Fin 256) (s : State) : Out := s.whenIsland (·.pldmCmds type)
def execPldmUnsupportedCmd (type cmd : Fin 256) (s : State) : Out := s.whenIsland (·.pldm type cmd 5)
def execGetPdrRepositoryInfo (s : State) : Out := s.whenIsland (·.pldm 2 0x50 0 Config.pdrInfo)
def execGetPdr (record : Nat) (s : State) : Out := s.whenIsland (·.pldm 2 0x51 0 (Config.pdr record))
def execGetSensorReading (sensor : Fin 65536) (s : State) : Out := s.whenIsland (·.sensorRead 0x11 sensor (numericId sensor))
def execGetStateSensorReadings (sensor : Fin 65536) (s : State) : Out := s.whenIsland (·.sensorRead 0x21 sensor (stateId sensor))
def execEventMessageBufferSize (size : Fin 65536) (s : State) : Out := s.whenIsland (·.eventBuffer size)
def execPlatformEventMessage (s : State) : Out := s.whenIsland State.sensorEvent
def execQueryDeviceIdentifiers (s : State) : Out := s.whenIsland (fun s => if s.mainHeld then s.pldm 5 1 4 else s.pldm 5 1 0 Config.deviceIds)
def execGetFirmwareParameters (s : State) : Out := s.whenIsland State.fwParams
def execRequestUpdate (s : State) : Out := s.whenIsland State.requestUpdate
def execPassComponentTable (s : State) : Out := s.whenIsland State.passTable
def execUpdateComponent (component : Fin 65536) (s : State) : Out := s.whenIsland (·.updateComponent component)
def execFirmwareData (data : List Byte) (flashOk readOk : Bool) (s : State) : Out := s.whenIsland (·.firmwareData data flashOk readOk)
def execActivateFirmware (s : State) : Out := s.whenIsland State.activateFirmware
def execGetStatus (s : State) : Out := s.whenIsland State.updStatus
def execCancelUpdateComponent (s : State) : Out := s.whenIsland State.cancelComponent
def execCancelUpdate (s : State) : Out := s.whenIsland State.cancelUpdate
def execLogRead (instance_ : Fin 256) (seq count : Nat) (s : State) : Out := s.whenIsland (·.logRead instance_ seq count)
def execToHost (instance_ : Fin 256) (data : List Byte) (s : State) : Out := s.whenIsland (·.msgToHost instance_ data)
def execMainReset (instance_ : Fin 256) (s : State) : Out := s.whenIsland (·.mainResetMsg instance_)
def execVendorUnknownCmd (instance_ : Fin 256) (cmd : Fin 256) (s : State) : Out := s.whenIsland (·.vendor cmd instance_ 5)
def execFromHostAccepted (s : State) : Out := s.whenIsland State.h2mDone
def execLogRecord (s : State) : Out := s.whenIsland State.logRecord
def execIslandFtUpdate (s : State) : Out := s.whenIsland State.islandFt
def execClearInitialState (channel : Fin 8) (s : State) : Out := s.whenIsland (·.ncsiSet 0 channel (fun c => { c with ready := true }))
def execSelectPackage (s : State) : Out := s.whenIsland (·.ncsiSelect true)
def execDeselectPackage (s : State) : Out := s.whenIsland (·.ncsiSelect false)
def execEnableChannel (channel : Fin 8) (s : State) : Out := s.whenIsland (·.ncsiCmd 3 channel (fun s => (s.ncsiEn channel true, [])))
def execDisableChannel (channel : Fin 8) (s : State) : Out := s.whenIsland (·.ncsiCmd 4 channel (fun s => (s.ncsiEn channel false, [])))
def execResetChannel (channel : Fin 8) (s : State) : Out :=
  s.whenIsland (·.ncsiCmd 5 channel (fun s => ((s.ncsiEn channel false).modNcsi channel NcsiCh.initial, [])))
def execEnableChannelNetworkTx (channel : Fin 8) (s : State) : Out := s.whenIsland (·.ncsiSet 6 channel (fun c => { c with tx := true }))
def execDisableChannelNetworkTx (channel : Fin 8) (s : State) : Out := s.whenIsland (·.ncsiSet 7 channel (fun c => { c with tx := false }))
def execAenEnable (channel : Fin 8) (mask : Nat) (s : State) : Out := s.whenIsland (·.ncsiSet 8 channel (fun c => { c with aen := mask % 2 ^ 32 }))
def execGetLinkStatus (channel : Fin 8) (s : State) : Out :=
  s.whenIsland (·.ncsiCmd 0x0A channel (fun s => (s, leBytes 4 (b2n (s.portUp channel)))))
def execSetMacAddress (channel : Fin 8) (filter : Fin 2) (mac : Nat) (enable : Bool) (s : State) : Out :=
  s.whenIsland (·.ncsiSet 0x0E channel (fun c => { c with macs := Store.put 0 c.macs filter (if enable then mac % 2 ^ 48 else 0) }))
def execEnableBroadcastFilter (channel : Fin 8) (s : State) : Out := s.whenIsland (·.ncsiSet 0x10 channel (fun c => { c with bcast := true }))
def execEnableMulticastFilter (channel : Fin 8) (s : State) : Out := s.whenIsland (·.ncsiSet 0x12 channel (fun c => { c with mcast := true }))
def execSetVlanFilter (channel : Fin 8) (filter : Fin 4) (vlan : Fin 4096) (enable : Bool) (s : State) : Out :=
  s.whenIsland (·.ncsiSet 0x0B channel (fun c => { c with vlans := Store.put 0 c.vlans filter (if enable then vlan.val else 0) }))
def execEnableVlan (channel : Fin 8) (mode : Fin 4) (s : State) : Out := s.whenIsland (·.ncsiSet 0x0C channel (fun c => { c with vlanMode := mode }))
def execGetVersionId (channel : Fin 8) (s : State) : Out := s.whenIsland (·.ncsiCmd 0x15 channel (fun s => (s, Config.ncsiVersion)))
def execGetCapabilities (channel : Fin 8) (s : State) : Out := s.whenIsland (·.ncsiCmd 0x16 channel (fun s => (s, Config.ncsiCaps)))
def execGetParameters (channel : Fin 8) (s : State) : Out := s.whenIsland (·.ncsiCmd 0x17 channel (fun s => (s, (s.ncsi channel).params)))
def execGetControllerPacketStats (channel : Fin 8) (s : State) : Out :=
  s.whenIsland (·.ncsiCmd 0x18 channel (fun s => (s, leBytes 8 (s.ncsi channel).cmds)))
def execGetPassThroughStatistics (channel : Fin 8) (s : State) : Out :=
  s.whenIsland (·.ncsiCmd 0x1A channel (fun s => (s, leBytes 8 (s.ncsi channel).toWire ++ leBytes 8 (s.ncsi channel).toBmc ++ leBytes 8 (s.ncsi channel).dropped)))
def execNcsiUnsupportedCmd (channel : Fin 8) (cmd : Fin 256) (s : State) : Out := s.whenIsland (·.ncsiUnknown channel cmd)
def execNcsiTxFrame (channel : Fin 8) (data : List Byte) (fcsOk : Bool) (s : State) : Out := s.whenIsland (·.ncsiTx channel data fcsOk)

end Sys2Proof.Machine
end

