-- ==== Sys2Proof/Machine/Views.lean ====
section
/-! DEFINITION. Registers that show state which is kept elsewhere: the value that a read of BAR0 gives them. -/

namespace Sys2Proof.Machine

/-- A register value with field `f` replaced. -/
def showFld (v : Nat) (f : Fld) (x : Nat) : Nat := putFld v f.lo f.wd x

/-- A signed level in a 32-bit field. -/
def showLevel (x : Int) : Nat := unsigned 32 (max (-(2 ^ 31)) (min (2 ^ 31 - 1) x))

def sumOf (l : List Nat) (f : Nat → Nat) : Nat := l.foldl (fun a x => a + f x) 0

def countOf (n : Nat) (p : Nat → Bool) : Nat := ((List.range n).filter p).length

/-- GLB_, FT_ and MEM_ registers; the value drawn for a level of the timer wheel is taken by the read. -/
def State.viewTime (s : State) (r : RegDef) (i v : Nat) : Nat :=
  if r.base = R.reg_GLB_HB_STATUS.base then
    showFld (showFld v R.GLB_HB_STATUS_since_ms s.sinceMs) R.GLB_HB_STATUS_seized (b2n s.anySeized)
  else if r.base = R.reg_FT_NOW64.base then s.now64
  else if r.base = R.reg_FT_WHEEL_STAT.base then showFld v R.FT_WHEEL_STAT_pending (min (Config.wheelPending i s.free) 0xFFFF)
  else if r.base = R.reg_MEM_INFO.base then showFld v R.MEM_INFO_usable_mib s.usableMib
  else v

/-- HIF_ and SLC_ registers. -/
def State.viewHost (s : State) (r : RegDef) (i j v : Nat) : Nat :=
  if r.base = R.reg_HIF_ATC_STATUS.base then
    showFld (showFld v R.HIF_ATC_STATUS_inv_pending (min ((s.hif.invals.filter (·.fn / 8 == i)).length) 0x3F)) R.HIF_ATC_STATUS_valid
      ((s.hif.atc.filter (·.fn / 8 == i)).length)
  else if r.base = R.reg_HIF_PF_STATUS.base then
    let fn := 8 * i + j
    showFld (showFld (showFld (showFld v R.HIF_PF_STATUS_rd_out (s.rdOut fn)) R.HIF_PF_STATUS_bme (b2n (s.func fn).bme)) R.HIF_PF_STATUS_ready
      (b2n (s.fnReady fn))) R.HIF_PF_STATUS_present (b2n (s.fnPresent fn))
  else if r.base = R.reg_SLC_STATUS.base then showFld v R.SLC_STATUS_orphan_tags s.orphanTags
  else if r.base = R.reg_SLC_POOL.base then
    showFld (showFld (showFld v R.SLC_POOL_in_use_sum (sumOf s.quotaSlices (fun x => s.inUse x i))) R.SLC_POOL_reserve_sum
      (sumOf s.quotaSlices (fun x => s.rd R.SLC_QUOTA_reserve x i))) R.SLC_POOL_total (s.poolSize i)
  else v

/-- SWC_ and TM_ registers. -/
def State.viewSwitch (s : State) (r : RegDef) (i v : Nat) : Nat :=
  if r.base = R.reg_SWC_STATUS.base then
    showFld (showFld (showFld v R.SWC_STATUS_shared_size s.sharedSize) R.SWC_STATUS_shared_used s.sharedUsed) R.SWC_STATUS_free
      (524288 - s.swc.bankUsed.foldl (fun a p => a + p.2) 0)
  else if r.base = R.reg_TM_STATUS.base then showFld v R.TM_STATUS_gate_lists (countOf 64 (fun p => (s.gateEntry p).isSome))
  else if r.base = R.reg_TM_GATE_STATUS.base then
    let cycle := match s.gateEntry i, s.gateList i with
      | some _, some l => l.cycle / unitsPerNs
      | _, _ => 0
    let entry := match s.gateEntry i with
      | some e => e.1
      | none => 0
    showFld (showFld (showFld (showFld v R.TM_GATE_STATUS_cycle_ns cycle) R.TM_GATE_STATUS_entry entry) R.TM_GATE_STATUS_gates (s.gatesOpen i))
      R.TM_GATE_STATUS_running (b2n (s.gateEntry i).isSome)
  else if r.base = R.reg_TM_SHAPER_STAT.base then
    showFld (showFld v R.TM_SHAPER_STAT_held (b2n (s.shaperHolds i))) R.TM_SHAPER_STAT_tokens (if s.shaperOn i then showLevel (tokBytes (s.tokens i)) else 0)
  else v

/-- STQ_, WLK_ and TSK_ registers. -/
def State.viewStore (s : State) (r : RegDef) (i j v : Nat) : Nat :=
  if r.base = R.reg_STQ_VOL_STATE.base then
    match s.vol i with
    | none => v
    | some x => showFld (showFld (showFld v R.STQ_VOL_STATE_elog_low x.elog) R.STQ_VOL_STATE_inflight x.cmds.length) R.STQ_VOL_STATE_queues
        (s.volQueues i).length
  else if r.base = R.reg_WLK_SEQ.base then
    let l := s.link i
    showFld (showFld (showFld (showFld v R.WLK_SEQ_unacked l.held.length) R.WLK_SEQ_rx_expected l.expect) R.WLK_SEQ_tx_acked l.acked) R.WLK_SEQ_tx_next l.txNext
  else if r.base = R.reg_TSK_WIN_STATUS.base then showFld v R.TSK_WIN_STATUS_old_inflight (min (s.oldInflight i) 0x3FF)
  else if r.base = R.reg_TSK_METER_STAT.base then
    showFld (showFld v R.TSK_METER_STAT_held (b2n (s.meterHolds i j))) R.TSK_METER_STAT_tokens
      (if (s.meterCfg i j).1 = 0 then 0 else showLevel ((s.meterLevel i j).fdiv (meterUnit j)))
  else v

/-- FCR_ registers. -/
def State.viewCore (s : State) (r : RegDef) (i j v : Nat) : Nat :=
  let h := 16 * i + j
  if r.base = R.reg_FCR_CORE_STATUS.base then
    showFld (showFld v R.FCR_CORE_STATUS_enabled (sumOf (List.range 16) (fun t => s.rd R.FCR_THREAD_CFG_enable i t * 2 ^ t))) R.FCR_CORE_STATUS_half_clk
      (b2n (s.on R.HLT_STATUS_brace || 1 ≤ s.rd R.HLT_THERM_STATUS_step))
  else if r.base = R.reg_FCR_THREAD_STATUS.base then s.threadStatus h
  else if r.base = R.reg_FCR_THREAD_PC.base then (if (s.hart h).state = 3 then (s.hart h).pc else v)
  else if r.base = R.reg_FCR_DBG_CTRL.base then showFld v R.FCR_DBG_CTRL_halted (b2n ((s.hart h).state == 3))
  else if r.base = R.reg_FCR_RXP_STATUS.base then showFld v R.FCR_RXP_STATUS_filled ((s.rxp i j).filled - (s.rxp i j).released)
  else if r.base = R.reg_FCR_CH_STATUS.base then
    showFld (showFld v R.FCR_CH_STATUS_held (s.chMsgs i j).length) R.FCR_CH_STATUS_alarms ((s.fc.alarms.filter (fun a => a.hart / 16 == i && a.ch == j)).length)
  else v

/-- The security processor's registers that show the fuses; VLT_, HLT_ and MGT_ registers. -/
def State.viewIsland (s : State) (r : RegDef) (i v : Nat) : Nat :=
  if r.base = R.reg_SEC_FUSE_CTR.base then showFld v R.SEC_FUSE_CTR_count s.otp.count
  else if r.base = R.reg_SEC_KEY_STATE.base then
    showFld (showFld v R.SEC_KEY_STATE_revoked s.otp.revoked) R.SEC_KEY_STATE_present (sumOf (List.range 4) (fun k => b2n (s.otp.present k) * 2 ^ k))
  else if r.base = R.reg_VLT_STATUS.base then
    let v := showFld v R.VLT_STATUS_zeroising (b2n (s.vlt.zeros.any (fun z => z.for_.isNone && !z.free)))
    let v := showFld v R.VLT_STATUS_locked s.lockedCount
    showFld (showFld v R.VLT_STATUS_fenced (countOf 64 s.engFenced)) R.VLT_STATUS_free (countOf 64 s.engFree)
  else if r.base = R.reg_VLT_KEY_INFO.base then
    let k := s.keySlot (s.rd R.VLT_KEY_SEL_slot)
    showFld (showFld (showFld (showFld v R.VLT_KEY_INFO_state k.state) R.VLT_KEY_INFO_usage k.usage) R.VLT_KEY_INFO_size k.size) R.VLT_KEY_INFO_slice k.slice
  else if r.base = R.reg_VLT_ENG_LOCK.base then
    let e := s.eng i
    showFld (showFld (showFld v R.VLT_ENG_LOCK_locked (b2n e.holder.isSome)) R.VLT_ENG_LOCK_holder (e.holder.getD 0)) R.VLT_ENG_LOCK_slot e.slot
  else if r.base = R.reg_HLT_STATUS.base then showFld v R.HLT_STATUS_fenced s.fencedTotal
  else if r.base = R.reg_MGT_STATUS.base then
    showFld (showFld (showFld v R.MGT_STATUS_main s.mainCond) R.MGT_STATUS_i3c (b2n (s.isl.dyn != 0))) R.MGT_STATUS_upd (b2n s.updSess.isSome)
  else if r.base = R.reg_MGT_LOG_STATUS.base then s.logNext
  else v

/-- What a read of a register gives. -/
def State.viewReg (s : State) (r : RegDef) (i j k : Nat) : Nat :=
  let v := s.getReg r i j k
  s.viewIsland r i (s.viewCore r i j (s.viewStore r i j (s.viewSwitch r i (s.viewHost r i j (s.viewTime r i v)))))

end Sys2Proof.Machine
end

