-- ==== Sys2Proof/Machine/Bar0.lean ====
section
/-! DEFINITION. The register path: reads and writes of BAR0, the common block header, the holding registers, ownership, and what
a write of each command register starts (00_scope.md R7, R9-R16; 01_architecture.md R33-R43; 05_host_interface.md R137). -/

namespace Sys2Proof.Machine

/-! ### Which blocks answer -/

/-- The unit of HLT_UNIT that a block instance belongs to: pipeline, flow core, socket, port group. -/
def unitOfBlock (code n : Nat) : Option (Nat × Nat) :=
  if code = 8 then some (0, n) else if code = 0x0F then some (1, n) else if code = 0x0D ∨ code = 0x0E then some (3, n)
  else if code = 7 then some (4, n) else none

/-- A block instance answers: MGT_ while the island runs, SEC_ while the main domain is out of reset, every other block once it
is released, unless its unit is being tested or fenced. -/
def State.blkOpen (s : State) (b : BlkDef) (n : Nat) : Bool :=
  if b.code = 0x14 then s.isl.up
  else if b.code = 3 then s.isl.up && !s.mainHeld
  else s.mainUp && (match unitOfBlock b.code n with
    | some (k, i) => !s.closedUnit k i
    | none => true)

/-! ### Writes of command registers -/

/-- Does the write hold a bit of a write-only or write-1 field. -/
def has (f : Fld) (v : Nat) : Bool := bits v (f.lo + f.wd - 1) f.lo != 0

/-- The part of a value that a field takes. -/
def part (f : Fld) (v : Nat) : Nat := bits v (f.lo + f.wd - 1) f.lo

/-- FT has been stepped or set: gates are looked at again, FT_FOLLOWs carry the mark, missed dumps are counted (R56). -/
def State.afterJump (s t : State) : State :=
  if s.time.ft = t.time.ft then t
  else
    let t := (List.range 64).foldl (fun t p => if (t.outOf p).isSome then t.gateOverrun p else t) t
    let t := (List.range 8).foldl (fun t n => if (t.link n).state = 4 then t.modSock n (fun k => { k with stepped := true }) else t) t
    t.dumpJump

/-- The staged RWS fields of a unit that is armed keep their values, and the write counts as late; every other field takes its
part (02_fabric_time.md R66). -/
def State.plainWr (s : State) (unit : Option Nat) (r : RegDef) (i j k v : Nat) : State :=
  let late := r.flds.any (fun f => f.acc == .rws) && (match unit with
    | some u => s.armed u
    | none => false)
  (if late then s.sat R.GLB_EPOCH_STATUS_late_writes else s).putReg late r i j k v

def State.glbWr (s : State) (r : RegDef) (i v : Nat) : State :=
  let idle : Bool := s.rd R.GLB_EPOCH_STATUS_state == 0
  if r.base = R.reg_GLB_HOST_HB.base then s.hostBeat v
  else if r.base = R.reg_GLB_HB_CFG.base then s.hbCfg v
  else if r.base = R.reg_GLB_SEIZE.base then (if has R.GLB_SEIZE_seize v then s.seizeWr else s)
  else if r.base = R.reg_GLB_EPOCH_T.base then (if idle then s.wr R.GLB_EPOCH_T_t v else s.refusedWr)
  else if r.base = R.reg_GLB_EPOCH_ARM.base then
    (if idle then s.wr R.GLB_EPOCH_ARM_arm (if i = 1 then v % 2 ^ 47 else v) i else s.refusedWr)
  else if r.base = R.reg_GLB_EPOCH_CTRL.base then s.epochCtrl v
  else s.plainWr none r i 0 0 v

def State.ftWr (s : State) (u : Option Nat) (r : RegDef) (i v : Nat) : State :=
  if r.base = R.reg_FT_SNAP.base then (if has R.FT_SNAP_snap v then s.ftSnap else s)
  else if r.base = R.reg_FT_CTRL.base then s.ftCtrl v
  else if r.base = R.reg_FT_RATE.base then s.ftRate v
  else if r.base = R.reg_FT_STEP_CTRL.base then s.afterJump (s.stepCtrl v)
  else if r.base = R.reg_FT_WDOG_CFG.base then s.wdogCfg i v
  else if r.base = R.reg_FT_WDOG_KICK.base then s.wdogKick i v
  else s.plainWr u r i 0 0 v

/-- End of a range scrub by abort. -/
def State.scrubAbort (s : State) : State :=
  if s.on R.MEM_SCRUB_STATUS_busy then
    let d := s.draw
    d.2.scrubEnd (Config.scrubReach d.1) [] St.scrub_aborted
  else s

def State.memWr (s : State) (u : Option Nat) (r : RegDef) (i v : Nat) : State :=
  if r.base = R.reg_MEM_SCRUB_CMD.base then
    let s := s.putReg false r 0 0 0 v
    let s := if has R.MEM_SCRUB_CMD_abort v then s.scrubAbort else s
    if has R.MEM_SCRUB_CMD_go v then s.scrubGo else s
  else if r.base = R.reg_MEM_SPARE_CMD.base then
    let s := s.putReg false r 0 0 0 v
    if has R.MEM_SPARE_CMD_go v then s.spareGo (part R.MEM_SPARE_CMD_pc v) else s
  else s.plainWr u r i 0 0 v

/-- A write of SLC_CMD. -/
def State.sliceCmd (s : State) (v : Nat) : State :=
  let s := s.putReg false R.reg_SLC_CMD 0 0 0 v
  if !has R.SLC_CMD_go v || s.on R.SLC_CMD_STATUS_busy then s
  else
    let x := part R.SLC_CMD_slice v
    let s := s.wr R.SLC_CMD_STATUS_slice x
    match part R.SLC_CMD_op v with
    | 1 => s.activateSlice x
    | 2 => s.seqCmd x false
    | 3 => s.seqCmd x true
    | _ => s.sliceCmdDone St.slice_state

def State.slcWr (s : State) (u : Option Nat) (r : RegDef) (i j v : Nat) : State :=
  if r.base = R.reg_SLC_CMD.base then s.sliceCmd v
  else if r.base = R.reg_SLC_BIND.base then (if s.sliceState i = 0 then s.putReg false r i 0 0 v else s.refusedWr)
  else if r.base = R.reg_SLC_STATE.base then s.evringWr i v
  else if r.base = R.reg_SLC_QUOTA.base then s.quotaWr i j v
  else s.plainWr u r i j 0 v

/-- A type 4 ring may name a volume that is ACTIVE or FROZEN and belongs to its slice (14_storage_queues.md R363). -/
def State.volOk (s : State) (v x : Nat) : Bool :=
  match s.vol v with
  | some k => k.slice == x && s.volState v != 0
  | none => false

/-- A write of RNG_CMD. -/
def State.ringCmd (s : State) (v : Nat) : State :=
  let s := s.putReg false R.reg_RNG_CMD 0 0 0 v
  let ring := part R.RNG_CMD_ring v
  if !has R.RNG_CMD_go v then s
  else match part R.RNG_CMD_op v with
    | 1 => s.ringCreate ring s.volOk
    | 2 => s.ringEnable ring
    | 3 => s.ringDisable ring (has R.RNG_CMD_flush v)
    | 4 => s.ringDestroy ring
    | 5 => s.ringRead ring
    | _ => s.ringCmdDone St.ring_state

def State.rngWr (s : State) (u : Option Nat) (r : RegDef) (i v : Nat) : State :=
  if r.base = R.reg_RNG_CMD.base then s.ringCmd v else s.plainWr u r i 0 0 v

/-- A lane of a link layer by its number among all lanes: 0-63 network, 64-127 sockets, 128-143 pair. Its fault is cleared and
it is tried again. -/
def State.laneRetry (s : State) (l : Nat) (persists : Bool) : State :=
  if l < 64 then s.netLaneRetry l persists else s.linkLaneRetry ((l - 64) / 8) (l % 8) persists

/-- A write of a lane status register: a 1 to a fault bit that is set tries the lane again. -/
def State.laneWr (s : State) (l cur v : Nat) (gnd lane : Fld) (persists : Bool) : State :=
  if (has gnd v && has gnd cur) || (has lane v && has lane cur) then s.laneRetry l persists else s

def State.prtWr (s : State) (u : Option Nat) (r : RegDef) (i j v : Nat) : State :=
  if r.base = R.reg_PRT_LANE_STATUS.base then s.laneWr (8 * i + j) (s.getReg r i j 0) v R.PRT_LANE_STATUS_short_gnd R.PRT_LANE_STATUS_short_lane false
  else s.plainWr u r i j 0 v

/-- A write to a pipeline: RWS fields make its staged configuration dirty; while writes are mirrored, those of the pipeline
being substituted go to the sleeve as well (11_switch_core.md R304). -/
def State.pipeStaged (s : State) (u : Option Nat) (r : RegDef) (i j k v : Nat) : State :=
  let rws := r.flds.any (fun f => f.acc == .rws)
  let late : Bool := match u with
    | some u => s.armed u
    | none => false
  let s := s.plainWr u r i j k v
  if !rws || late then s
  else
    let s := s.dirty i
    if s.swc.mirroring && i == s.sleevePipe then (s.putReg false r 8 j k v).dirty 8 else s

def State.pipeWr (s : State) (u : Option Nat) (r : RegDef) (i j k v : Nat) : State :=
  if s.namesSleeve i then s.refusedWr
  else if r.base = R.reg_PIPE_VER_COMMIT.base then
    if has R.PIPE_VER_COMMIT_commit v then s.verCommit i else if has R.PIPE_VER_COMMIT_discard v then s.verDiscard i else s
  else if r.base = R.reg_PIPE_ACT_CMD.base then
    let s := if has R.PIPE_ACT_CMD_write v then s.actWrite i else s
    if has R.PIPE_ACT_CMD_read v then s.actRead i else s
  else s.pipeStaged u r i j k v

def State.swcWr (s : State) (u : Option Nat) (r : RegDef) (i v : Nat) : State :=
  if r.base = R.reg_SWC_SLEEVE_CMD.base then
    let s := s.putReg false r 0 0 0 v
    if has R.SWC_SLEEVE_CMD_go v then s.sleeveGo else s
  else s.plainWr u r i 0 0 v

def State.tmWr (s : State) (u : Option Nat) (r : RegDef) (i j v : Nat) : State :=
  if r.base = R.reg_TM_POL_CMD.base then
    let s := if has R.TM_POL_CMD_write v then s.polWrite else s
    let s := if has R.TM_POL_CMD_read v then s.polRead else s
    if has R.TM_POL_CMD_clear v then s.polClear else s
  else if r.base = R.reg_TM_GATE_FORCE.base then s.gateForce v
  else s.plainWr u r i j 0 v

/-- RDM_HUSK_MAP locks with the cuff, but an entry that is unmapped then stays writable until it is mapped (R12). -/
def State.rdmWr (s : State) (u : Option Nat) (r : RegDef) (i v : Nat) : State :=
  if r.base = R.reg_RDM_HUSK_MAP.base then
    if s.cuffOpen && s.rd R.RDM_HUSK_MAP_loc i != 0 then s
    else (s.wr R.RDM_HUSK_MAP_addr (part R.RDM_HUSK_MAP_addr v) i).wr R.RDM_HUSK_MAP_loc (part R.RDM_HUSK_MAP_loc v) i
  else s.plainWr u r i 0 0 v

def State.stqWr (s : State) (u : Option Nat) (r : RegDef) (i v : Nat) : State :=
  if r.base = R.reg_STQ_CMD.base then s.stqCmd v else s.plainWr u r i 0 0 v

def State.wlkWr (s : State) (u : Option Nat) (r : RegDef) (i j v : Nat) : State :=
  if r.base = R.reg_WLK_LANE_STATUS.base then
    s.laneWr (64 + 8 * i + j) (s.getReg r i j 0) v R.WLK_LANE_STATUS_short_gnd R.WLK_LANE_STATUS_short_lane false
  else s.plainWr u r i j 0 v

def State.tskWr (s : State) (u : Option Nat) (r : RegDef) (i j v : Nat) : State :=
  if r.base = R.reg_TSK_STATUS.base then (s.putReg false r i 0 0 v).faultCleared i
  else if r.base = R.reg_TSK_PWR_CTRL.base then s.pwrCtrl i v
  else if r.base = R.reg_TSK_WIN_COMMIT.base then (if has R.TSK_WIN_COMMIT_commit v then s.winCommit i else s)
  else s.plainWr u r i j 0 v

/-- A write of FCR_THREAD_PC: the start address, and the PC of a halted thread. -/
def State.threadPc (s : State) (h v : Nat) : State :=
  let s := s.wr R.FCR_THREAD_PC_pc v (h / 16) (h % 16)
  if (s.hart h).state = 3 then s.modHart h (fun k => { k with pc := w64 v / 2 * 2 }) else s

def State.fcrWr (s : State) (req : Req) (u : Option Nat) (r : RegDef) (i j v : Nat) : State :=
  let h := 16 * i + j
  if r.base = R.reg_FCR_CORE_CFG.base then s.coreCfg i v
  else if r.base = R.reg_FCR_FT_MBOX.base then s.ftMbox req v
  else if r.base = R.reg_FCR_THREAD_CFG.base then s.threadCfg h v
  else if r.base = R.reg_FCR_THREAD_PC.base then s.threadPc h v
  else if r.base = R.reg_FCR_LM_CFG.base then s.lmCfg h v
  else if r.base = R.reg_FCR_DBG_CTRL.base then s.dbgCtrl h v
  else if r.base = R.reg_FCR_DBG_SEL.base then s.dbgSel i v
  else if r.base = R.reg_FCR_CH_CFG.base then s.chCfg i j v
  else s.plainWr u r i j 0 v

def State.vltWr (s : State) (u : Option Nat) (r : RegDef) (i v : Nat) : State :=
  if r.base = R.reg_VLT_ZEROISE.base then (if has R.VLT_ZEROISE_all v then s.zeroiseAll else s)
  else if r.base = R.reg_VLT_ENG_LOCK.base then (if has R.VLT_ENG_LOCK_brk v then s.endLockOf i true else s)
  else s.plainWr u r i 0 0 v

def State.pmcWr (s : State) (u : Option Nat) (r : RegDef) (i j v : Nat) : State :=
  if r.base = R.reg_PMC_CTRL.base then
    let s := s.putReg false r 0 0 0 v
    if has R.PMC_CTRL_snap v then s.pmcSnap else s
  else if r.base = R.reg_PMC_DUMP_CFG.base ∨ r.base = R.reg_PMC_DUMP_T0.base then (s.putReg false r 0 0 0 v).dumpSchedule
  else if r.base = R.reg_PMC_DUMP_CMD.base then (if has R.PMC_DUMP_CMD_now v then s.dumpTake true else s)
  else if r.base = R.reg_PMC_CTR_CFG.base then s.ctrCfgWr i v
  else if r.base = R.reg_PMC_HIST_CFG.base then
    let s := s.putReg false r i 0 0 v
    if has R.PMC_HIST_CFG_clear v then s.histClear i else s
  else s.plainWr u r i j 0 v

/-- The value of a field after a write of `v` to its register. -/
def State.would (s : State) (f : Fld) (v i : Nat) : Nat := if f.acc = .rwl ∧ s.cuffOpen then s.rd f i else part f v

/-- Thresholds keep their order (HLT_THERM_CFG). -/
def State.thermOk (s : State) (v : Nat) : Bool :=
  let x := fun (f : Fld) => s.would f v 0
  x R.HLT_THERM_CFG_warn_c < x R.HLT_THERM_CFG_step1_c && x R.HLT_THERM_CFG_step1_c < x R.HLT_THERM_CFG_step2_c
    && x R.HLT_THERM_CFG_step2_c < x R.HLT_THERM_CFG_trip_c

/-- Nominal voltages of the rails in mV (table Supply rails). -/
def railNominal (i : Nat) : Nat := if i = 2 then 850 else 750

/-- Supply levels keep their order (20_health_test.md R502). -/
def State.supplyOk (s : State) (i v : Nat) : Bool :=
  let x := fun (f : Fld) => s.would f v i
  x R.HLT_SUPPLY_CFG_reset_mv + x R.HLT_SUPPLY_CFG_hyst_mv < x R.HLT_SUPPLY_CFG_warn_mv && x R.HLT_SUPPLY_CFG_warn_mv < railNominal i

def State.hltWr (s : State) (u : Option Nat) (r : RegDef) (i v : Nat) : State :=
  if r.base = R.reg_HLT_CMD.base then
    let s := s.putReg false r 0 0 0 v
    if has R.HLT_CMD_go v then
      s.hltCmd (part R.HLT_CMD_kind v) (part R.HLT_CMD_index v) (part R.HLT_CMD_op v) (has R.HLT_CMD_drain v) (has R.HLT_CMD_force v)
    else s
  else if r.base = R.reg_HLT_THERM_CFG.base then (if s.thermOk v then s.putReg false r 0 0 0 v else s.refusedWr)
  else if r.base = R.reg_HLT_SUPPLY_CFG.base then (if s.supplyOk i v then s.putReg false r i 0 0 v else s.refusedWr)
  else s.plainWr u r i 0 0 v

def State.mgtWr (s : State) (r : RegDef) (i v : Nat) : State :=
  if r.base = R.reg_MGT_CTRL.base then (if has R.MGT_CTRL_main_reset v then s.requestReset 3 else s)
  else if r.base = R.reg_MGT_LOG_IDX.base then s.logLoad v
  else if r.base = R.reg_MGT_H2M_CTRL.base then s.h2mCtrl v
  else s.plainWr none r i 0 0 v

/-- A range of BAR0 touches a block. -/
def touches (first last lo hi : Nat) : Bool := first < hi && lo ≤ last

/-- A range that may be mirrored (22_redundant_pair.md R547). -/
def mirrorOk (v : Nat) : Bool :=
  let first := part R.PAR_MIRROR_first v
  let last := part R.PAR_MIRROR_last v
  first ≤ last && !touches first last 0 0x100000 && !touches first last 0x200000 0x300000 && !touches first last 0x3C00000 0x4000000

def State.parWr (s : State) (u : Option Nat) (r : RegDef) (i v : Nat) : State :=
  if r.base = R.reg_PAR_LANE_STATUS.base then s.laneWr (128 + i) (s.getReg r i 0 0) v R.PAR_LANE_STATUS_short_gnd R.PAR_LANE_STATUS_short_lane false
  else if r.base = R.reg_PAR_MIRROR.base then (if mirrorOk v then s.putReg false r i 0 0 v else s.refusedWr)
  else s.plainWr u r i 0 0 v

/-- The effect of a write that its block accepts, by block. -/
def State.blockWr (s : State) (req : Req) (b : BlkDef) (n : Nat) (r : RegDef) (i j k v : Nat) : State :=
  let u := b.unit.map (· + n)
  if b.code = 0x01 then s.glbWr r i v
  else if b.code = 0x02 then s.ftWr u r i v
  else if b.code = 0x03 then (if r.base = R.reg_SEC_MBOX_CMD.base then s.mboxCmd i v else s.plainWr u r i j 0 v)
  else if b.code = 0x05 then s.slcWr u r i j v
  else if b.code = 0x06 then s.rngWr u r i v
  else if b.code = 0x07 then s.prtWr u r i j v
  else if b.code = 0x08 then s.pipeWr u r i j k v
  else if b.code = 0x09 then s.swcWr u r i v
  else if b.code = 0x0A then s.tmWr u r i j v
  else if b.code = 0x0B then s.rdmWr u r i v
  else if b.code = 0x0C then s.stqWr u r i v
  else if b.code = 0x0D then s.wlkWr u r i j v
  else if b.code = 0x0E then s.tskWr u r i j v
  else if b.code = 0x0F then s.fcrWr req u r i j v
  else if b.code = 0x10 then s.vltWr u r i v
  else if b.code = 0x11 then s.memWr u r i v
  else if b.code = 0x12 then s.pmcWr u r i j v
  else if b.code = 0x13 then s.hltWr u r i v
  else if b.code = 0x14 then s.mgtWr r i v
  else if b.code = 0x15 then s.parWr u r i v
  else s.plainWr u r i j k v

/-! ### Who may write -/

/-- Registers that one side alone writes, whatever the owner is (R39): that side. -/
def oneSide (r : RegDef) (i : Nat) : Option Req :=
  if r.base = R.reg_GLB_HOST_HB.base then some .host
  else if r.base = R.reg_GLB_HB_CFG.base ∨ r.base = R.reg_GLB_SEIZE.base ∨ r.base = R.reg_GLB_HB_STATUS.base then some .mgmt
  else if r.base = R.reg_SEC_MBOX_CMD.base ∨ r.base = R.reg_SEC_MBOX_OFF.base ∨ r.base = R.reg_SEC_MBOX_BUF.base then
    some (if i = 0 then .host else .mgmt)
  else if r.base = R.reg_MGT_H2M_BUF.base ∨ r.base = R.reg_MGT_H2M_CTRL.base ∨ r.base = R.reg_MGT_M2H_STATUS.base then some .host
  else none

/-- A field that a write can act on. -/
def Fld.writable (f : Fld) : Bool := !(f.acc == .ro || f.acc == .rc)

/-- Writes counted as refused in one of the registers that count them (R39). -/
def State.refusals (s : State) : Nat := s.rd R.GLB_REFUSED_WR_count + s.rd R.SLC_QUOTA_ERR_count + s.rd R.GLB_EPOCH_STATUS_late_writes

/-- The state with the registers that count refused writes at zero: a count that saturates still shows a further refusal. -/
def State.noRefusals (s : State) : State :=
  ((s.wr R.GLB_REFUSED_WR_count 0).wr R.SLC_QUOTA_ERR_count 0).wr R.GLB_EPOCH_STATUS_late_writes 0

/-- The requester may write the register: the side that alone writes it, else the owner of the block (R39). -/
def State.mayWrite (s : State) (req : Req) (b : BlkDef) (n : Nat) (r : RegDef) (i : Nat) : Bool :=
  match oneSide r i with
  | some side => decide (req = side)
  | none => s.ownerOk req (b.base + n * b.stride)

/-- A write of a whole register by a requester, as its block takes it: not counted where no field can be written, else
discarded for one that is not the owner (R16, R39). -/
def State.regApply (s : State) (req : Req) (b : BlkDef) (n : Nat) (r : RegDef) (i j k v : Nat) : State :=
  if !r.flds.any Fld.writable then s
  else if s.mayWrite req b n r i then (s.blockWr req b n r i j k v).dlRefresh
  else s.nonOwner

/-- The write applies: it is neither discarded nor counted as refused. -/
def State.regApplies (s : State) (req : Req) (b : BlkDef) (n : Nat) (r : RegDef) (i j k v : Nat) : Bool :=
  r.flds.any Fld.writable && s.mayWrite req b n r i && (s.noRefusals.blockWr req b n r i j k v).refusals == 0

/-- A write of a whole register: as its block takes it, and sent to the partner when it applies and is mirrored
(22_redundant_pair.md R538). -/
def State.regWrite (s : State) (req : Req) (b : BlkDef) (n : Nat) (r : RegDef) (i j k v : Nat) : State :=
  let t := s.regApply req b n r i j k v
  if s.pairState = 2 ∧ s.regApplies req b n r i j k v then
    t.mirrorOut (r.base + r.s0 * i + r.s1 * j + r.s2 * k) (r.width / 8) v
      (r.flds.all (fun f => f.acc == .rw || f.acc == .rws || f.acc == .rwl || f.acc == .ro))
  else t

/-! ### The header of a block (R36, R37) -/

/-- Value of a header register. -/
def State.headerRead (s : State) (b : BlkDef) (n o : Nat) : Nat :=
  let a := b.base + n * b.stride
  if o = 0 then b.code * 2 ^ 24 + n * 2 ^ 16 + 0x0200
  else if o = 8 then s.rd hdrOwner a + 2 * s.rd hdrSeized a
  else if o = 0x10 then b2n b.levels * 2 ^ 31 + s.rd hdrPreset a * 2 ^ 8 + s.rd hdrProfile a
  else 0

/-- A write of the staged profile and preset. -/
def State.profileWr (s : State) (b : BlkDef) (n v : Nat) : State :=
  let a := b.base + n * b.stride
  let late : Bool := match b.unit with
    | some u => s.armed (u + n)
    | none => false
  if !b.levels then s
  else if b.code = 8 ∧ s.namesSleeve n then s.refusedWr
  else if late then s.sat R.GLB_EPOCH_STATUS_late_writes
  else
    let put := fun (s : State) (a : Nat) => (s.wr hdrProfile v a).wr hdrPreset (v / 256) a
    let s := put s a
    if b.code ≠ 8 then s
    else
      let s := s.dirty n
      if s.swc.mirroring && n == s.sleevePipe then (put s (pipeBase 8)).dirty 8 else s

/-- A write of a header register, as the block takes it. -/
def State.headerApply (s : State) (req : Req) (b : BlkDef) (n o v : Nat) : State :=
  let a := b.base + n * b.stride
  if o = 8 then (if b.code = 0x14 then s else if s.ownerOk req a then s.writeOwner a v else s.nonOwner)
  else if o = 0x10 then (if !b.levels then s else if s.ownerOk req a then s.profileWr b n v else s.nonOwner)
  else s

/-- A write of a header register, sent to the partner when it applies and is mirrored. -/
def State.headerWrite (s : State) (req : Req) (b : BlkDef) (n o v : Nat) : State :=
  let a := b.base + n * b.stride
  let t := s.headerApply req b n o v
  let takes := (o == 8 && b.code != 0x14) || (o == 0x10 && b.levels)
  if s.pairState = 2 ∧ takes ∧ s.ownerOk req a ∧ (s.noRefusals.headerApply req b n o v).refusals = 0 then t.mirrorOut (a + o) 4 v true
  else t

/-! ### Holding registers (R15) -/

def State.half (s : State) (req : Req) (write : Bool) : Half :=
  match req with
  | .host => if write then s.bus.hostW else s.bus.hostR
  | _ => if write then s.bus.mgmtW else s.bus.mgmtR

def State.setHalf (s : State) (req : Req) (write : Bool) (h : Half) : State :=
  match req with
  | .host => { s with bus := if write then { s.bus with hostW := h } else { s.bus with hostR := h } }
  | _ => { s with bus := if write then { s.bus with mgmtW := h } else { s.bus with mgmtR := h } }

/-- What a write of the high half alone leaves of the low half. -/
def State.lowImage (s : State) (r : RegDef) (i j k : Nat) : Nat :=
  (r.flds.foldl (fun a f => if f.acc = .rw ∨ f.acc = .rws ∨ f.acc = .rwl then a + s.rd f i j k % 2 ^ f.wd * 2 ^ f.lo else a) 0) % 2 ^ 32

/-- Reading clears the RC fields among bits [lo, hi) (R9). -/
def State.clearRc (s : State) (r : RegDef) (i j k lo hi : Nat) : State :=
  r.flds.foldl (fun s f => if f.acc = .rc ∧ lo ≤ f.lo ∧ f.lo < hi then s.wr f (f.rst i j k) i j k else s) s

/-- A read of FT_WHEEL_STAT takes the value drawn for it. -/
def State.drawn (s : State) (r : RegDef) : State := if r.base = R.reg_FT_WHEEL_STAT.base then s.draw.2 else s

/-! ### Accesses -/

/-- What an access of BAR0 finds at its offset: nothing of the map, a block that does not answer, a header register, a whole
register, the low or the high half of a 64-bit register. -/
inductive At where
  | none
  | shut
  | header (b : BlkDef) (n o : Nat)
  | whole (b : BlkDef) (n : Nat) (r : RegDef) (i j k : Nat)
  | low (b : BlkDef) (n : Nat) (r : RegDef) (i j k : Nat)
  | high (b : BlkDef) (n : Nat) (r : RegDef) (i j k : Nat)

/-- An access of another size than 4 or 8 bytes, or misaligned, and one of 8 bytes to a 32-bit register finds nothing (R7). -/
def State.find (s : State) (off size : Nat) : At :=
  if (size ≠ 4 ∧ size ≠ 8) ∨ off % size ≠ 0 then .none
  else match blkAt off with
    | none => .none
    | some (b, n) =>
      let o := (off - b.base) % b.stride
      if !s.blkOpen b n then .shut
      else if o < 0x40 then (if size = 4 then .header b n o else .none)
      else match regAt off with
        | some (r, i, j, k) =>
          if r.width = 8 * size then .whole b n r i j k
          else if size = 4 then .low b n r i j k
          else .none
        | none =>
          if size = 4 ∧ off % 8 = 4 then
            match regAt (off - 4) with
            | some (r, i, j, k) => if r.width = 64 then .high b n r i j k else .none
            | none => .none
          else .none

/-- A read of BAR0: the value, and the state after it. -/
def State.busRead (s : State) (req : Req) (off size : Nat) : Nat × State :=
  match s.find off size with
  | .none => (0, s)
  | .shut => (2 ^ (8 * size) - 1, s)
  | .header b n o => (s.headerRead b n o, s)
  | .whole _ _ r i j k => (s.viewReg r i j k, (s.drawn r).clearRc r i j k 0 64)
  | .low _ _ r i j k =>
    let v := s.viewReg r i j k
    (v % 2 ^ 32, (s.clearRc r i j k 0 32).setHalf req false { reg := some off, half := v / 2 ^ 32 })
  | .high _ _ r i j k =>
    let h := s.half req false
    if h.reg = some (off - 4) then (h.half, (s.clearRc r i j k 32 64).setHalf req false {})
    else (s.viewReg r i j k / 2 ^ 32, s.clearRc r i j k 32 64)

/-- A write of BAR0. -/
def State.busWrite (s : State) (req : Req) (off size value : Nat) : State :=
  let v := value % 2 ^ (8 * size)
  match s.find off size with
  | .none => s
  | .shut => s
  | .header b n o => s.headerWrite req b n o v
  | .whole b n r i j k => s.regWrite req b n r i j k v
  | .low _ _ _ _ _ _ => s.setHalf req true { reg := some off, half := v }
  | .high b n r i j k =>
    let h := s.half req true
    if h.reg = some (off - 4) then (s.setHalf req true {}).regWrite req b n r i j k (h.half + v * 2 ^ 32)
    else s.regWrite req b n r i j k (s.lowImage r i j k + v * 2 ^ 32)

end Sys2Proof.Machine
end

