-- ==== Sys2Proof/Machine/Fpu.lean ====
section
/-! DEFINITION. Floating-point arithmetic of the F and D extensions that every thread implements (17_flow_cores.md R435): the
values are taken apart, computed exactly and rounded once, as IEEE 754 and the RISC-V unprivileged specification say (log
entry 20). -/

namespace Sys2Proof.Machine

/-- A binary format: exponent bits and fraction bits. -/
structure Fmt where
  ew : Nat
  mw : Nat
  deriving DecidableEq, Repr

def fmtS : Fmt := { ew := 8, mw := 23 }
def fmtD : Fmt := { ew := 11, mw := 52 }

/-- A value taken apart: not a number (signalling or quiet), an infinity, or sign, significand and exponent of two. -/
inductive Fv where
  | nan (signalling : Bool)
  | inf (neg : Bool)
  | fin (neg : Bool) (m : Nat) (e : Int)
  deriving DecidableEq, Repr

/-- Accrued exception flags: inexact 1, underflow 2, overflow 4, division by zero 8, invalid 16. -/
def flagNX : Nat := 1
def flagUF : Nat := 2
def flagOF : Nat := 4
def flagDZ : Nat := 8
def flagNV : Nat := 16

namespace Fmt

def bias (f : Fmt) : Nat := 2 ^ (f.ew - 1) - 1

/-- The exponent of the smallest normal number. -/
def emin (f : Fmt) : Int := 1 - (f.bias : Int)

/-- The quiet NaN that results deliver. -/
def qnan (f : Fmt) : Nat := (2 ^ f.ew - 1) * 2 ^ f.mw + 2 ^ (f.mw - 1)

def infBits (f : Fmt) (neg : Bool) : Nat := b2n neg * 2 ^ (f.ew + f.mw) + (2 ^ f.ew - 1) * 2 ^ f.mw

def zeroBits (f : Fmt) (neg : Bool) : Nat := b2n neg * 2 ^ (f.ew + f.mw)

/-- The value that a word encodes. -/
def unpack (f : Fmt) (w : Nat) : Fv :=
  let neg := bit w (f.ew + f.mw)
  let e := bits w (f.ew + f.mw - 1) f.mw
  let m := w % 2 ^ f.mw
  if e = 2 ^ f.ew - 1 then (if m = 0 then .inf neg else .nan (!bit w (f.mw - 1)))
  else if e = 0 then .fin neg m (f.emin - f.mw)
  else .fin neg (2 ^ f.mw + m) ((e : Int) - f.bias - f.mw)

/-- Does rounding go up in magnitude: mode 0 to nearest even, 1 toward zero, 2 down, 3 up, 4 to nearest away; `half` compares
the discarded part with one half. -/
def roundUp (rm : Nat) (neg : Bool) (odd : Bool) (half : Ordering) (exact_ : Bool) : Bool :=
  if exact_ then false
  else if rm = 0 then half == .gt || (half == .eq && odd)
  else if rm = 4 then half != .lt
  else if rm = 2 then neg
  else if rm = 3 then !neg
  else false

/-- `m` × 2^`e` with a non-zero rest below it when `sticky`, as a multiple of 2^`q`: the multiple, and whether it is exact. -/
def quantise (rm : Nat) (neg : Bool) (m : Nat) (e q : Int) (sticky : Bool) : Nat × Bool :=
  if q ≤ e then (m * 2 ^ (e - q).toNat, !sticky)
  else
    let sh := (q - e).toNat
    let r := m / 2 ^ sh
    let rest := m % 2 ^ sh
    let half := match compare (2 * rest) (2 ^ sh) with
      | .lt => Ordering.lt
      | .eq => if sticky then .gt else .eq
      | .gt => .gt
    let exact_ := rest == 0 && !sticky
    (if roundUp rm neg (r % 2 == 1) half exact_ then r + 1 else r, exact_)

/-- Round and encode: the word and the flags. Tininess is judged after rounding. -/
def pack (f : Fmt) (rm : Nat) (neg : Bool) (m : Nat) (e : Int) (sticky : Bool) : Nat × Nat :=
  if m = 0 then (f.zeroBits neg, 0)
  else
    let top : Int := e + Nat.log2 m
    let q := max (top - f.mw) (f.emin - f.mw)
    let (r, exact_) := quantise rm neg m e q sticky
    let (r, q) := if 2 ^ (f.mw + 1) ≤ r then (2 ^ f.mw, q + 1) else (r, q)
    let (r2, _) := quantise rm neg m e (top - f.mw) sticky
    let tiny := top < f.emin - 1 || (top == f.emin - 1 && r2 < 2 ^ (f.mw + 1))
    let sgn := b2n neg * 2 ^ (f.ew + f.mw)
    if q + f.mw > (f.bias : Int) then
      let big := rm == 0 || rm == 4 || (rm == 2 && neg) || (rm == 3 && !neg)
      (if big then f.infBits neg else f.infBits neg - 1, flagOF + flagNX)
    else
      let w := if r < 2 ^ f.mw then sgn + r else sgn + ((q + f.mw + f.bias).toNat) * 2 ^ f.mw + (r - 2 ^ f.mw)
      (w, if exact_ then 0 else if tiny then flagUF + flagNX else flagNX)

def nan1 (f : Fmt) (sig : Bool) : Nat × Nat := (f.qnan, if sig then flagNV else 0)
def invalid (f : Fmt) : Nat × Nat := (f.qnan, flagNV)

/-- The exact sum of two finite values; an exact zero is negative only when both are, or in mode 2. -/
def sum (f : Fmt) (rm : Nat) (n1 : Bool) (m1 : Nat) (e1 : Int) (n2 : Bool) (m2 : Nat) (e2 : Int) : Nat × Nat :=
  let e := min e1 e2
  let a : Int := m1 * 2 ^ (e1 - e).toNat
  let b : Int := m2 * 2 ^ (e2 - e).toNat
  let t := (if n1 then -a else a) + (if n2 then -b else b)
  if t = 0 then (f.zeroBits (if n1 = n2 then n1 else rm == 2), 0) else f.pack rm (t < 0) t.natAbs e false

def add (f : Fmt) (rm : Nat) (x y : Fv) : Nat × Nat :=
  match x, y with
  | .nan a, .nan b => f.nan1 (a || b)
  | .nan a, _ => f.nan1 a
  | _, .nan b => f.nan1 b
  | .inf a, .inf b => if a = b then (f.infBits a, 0) else f.invalid
  | .inf a, _ => (f.infBits a, 0)
  | _, .inf b => (f.infBits b, 0)
  | .fin n1 m1 e1, .fin n2 m2 e2 => f.sum rm n1 m1 e1 n2 m2 e2

end Fmt

/-- A value with its sign turned. -/
def Fv.neg : Fv → Fv
  | .nan a => .nan a
  | .inf a => .inf (!a)
  | .fin n m e => .fin (!n) m e

def Fv.isSnan : Fv → Bool
  | .nan a => a
  | _ => false

def Fv.isNan : Fv → Bool
  | .nan _ => true
  | _ => false

/-- The exact product; none: not a number or infinity times zero. -/
def Fv.mul : Fv → Fv → Option Fv
  | .nan _, _ => none
  | _, .nan _ => none
  | .inf a, .inf b => some (.inf (a != b))
  | .inf a, .fin b m _ => if m = 0 then none else some (.inf (a != b))
  | .fin a m _, .inf b => if m = 0 then none else some (.inf (a != b))
  | .fin a m e, .fin b n g => some (.fin (a != b) (m * n) (e + g))

namespace Fmt

/-- Encode an exact value with one rounding. -/
def put (f : Fmt) (rm : Nat) : Fv → Nat × Nat
  | .nan a => f.nan1 a
  | .inf a => (f.infBits a, 0)
  | .fin n m e => f.pack rm n m e false

def mul (f : Fmt) (rm : Nat) (x y : Fv) : Nat × Nat :=
  match x.mul y with
  | some p => f.put rm p
  | none => if x.isNan || y.isNan then f.nan1 (x.isSnan || y.isSnan) else f.invalid

/-- x × y + z with one rounding; infinity times zero is invalid whatever z is. -/
def fma (f : Fmt) (rm : Nat) (x y z : Fv) : Nat × Nat :=
  match x.mul y with
  | some p => f.add rm p z
  | none => if x.isNan || y.isNan then f.nan1 (x.isSnan || y.isSnan || z.isSnan) else f.invalid

def div (f : Fmt) (rm : Nat) (x y : Fv) : Nat × Nat :=
  match x, y with
  | .nan a, .nan b => f.nan1 (a || b)
  | .nan a, _ => f.nan1 a
  | _, .nan b => f.nan1 b
  | .inf _, .inf _ => f.invalid
  | .inf a, .fin b _ _ => (f.infBits (a != b), 0)
  | .fin a _ _, .inf b => (f.zeroBits (a != b), 0)
  | .fin a m e, .fin b n g =>
    if n = 0 then (if m = 0 then f.invalid else (f.infBits (a != b), flagDZ))
    else
      let sh := 2 * f.mw + 6
      f.pack rm (a != b) (m * 2 ^ sh / n) (e - g - sh) (m * 2 ^ sh % n != 0)

/-- Whole square root, one bit of the root at a time from bit `k` down. -/
def isqrt (n : Nat) : Nat → Nat → Nat
  | 0, r => r
  | k + 1, r => if (r + 2 ^ k) * (r + 2 ^ k) ≤ n then isqrt n k (r + 2 ^ k) else isqrt n k r

def sqrt (f : Fmt) (rm : Nat) (x : Fv) : Nat × Nat :=
  match x with
  | .nan a => f.nan1 a
  | .inf a => if a then f.invalid else (f.infBits false, 0)
  | .fin a m e =>
    if m = 0 then (f.zeroBits a, 0)
    else if a then f.invalid
    else
      let sh := 2 * f.mw + 6 + (if (e - (2 * f.mw + 6)) % 2 = 0 then 0 else 1)
      let n := m * 2 ^ sh
      let r := isqrt n (Nat.log2 n / 2 + 1) 0
      f.pack rm false r ((e - sh) / 2) (r * r != n)

/-- x < y, x = y of two values that are numbers. -/
def lt (x y : Fv) : Bool :=
  match x, y with
  | .inf a, .inf b => a && !b
  | .inf a, .fin _ _ _ => a
  | .fin _ _ _, .inf b => !b
  | .fin a m e, .fin b n g =>
    let q := min e g
    let u : Int := m * 2 ^ (e - q).toNat
    let v : Int := n * 2 ^ (g - q).toNat
    (if a then -u else u) < (if b then -v else v)
  | _, _ => false

def eq (x y : Fv) : Bool := !x.isNan && !y.isNan && !lt x y && !lt y x

/-- Bits of fclass. -/
def classOf (f : Fmt) (w : Nat) : Nat :=
  let normal := bits w (f.ew + f.mw - 1) f.mw != 0
  match f.unpack w with
  | .nan sig => if sig then 2 ^ 8 else 2 ^ 9
  | .inf neg => if neg then 2 ^ 0 else 2 ^ 7
  | .fin neg m _ =>
    if m = 0 then (if neg then 2 ^ 3 else 2 ^ 4)
    else if normal then (if neg then 2 ^ 1 else 2 ^ 6)
    else if neg then 2 ^ 2 else 2 ^ 5

/-- minimum, or maximum with `mx`: a number wins over a NaN, and the negative zero is below the positive one. -/
def minMax (f : Fmt) (mx : Bool) (a b : Nat) : Nat × Nat :=
  let x := f.unpack a
  let y := f.unpack b
  let fl := if x.isSnan || y.isSnan then flagNV else 0
  let first := lt x y || (eq x y && bit a (f.ew + f.mw))
  let r := if x.isNan && y.isNan then f.qnan else if x.isNan then b else if y.isNan then a
    else if first != mx then a else b
  (r, fl)

end Fmt

/-- Convert to a whole number in [lo, hi]: out of range and not a number are invalid and give the nearer bound. -/
def Fv.toInt (rm : Nat) (lo hi : Int) : Fv → Int × Nat
  | .nan _ => (hi, flagNV)
  | .inf a => (if a then lo else hi, flagNV)
  | .fin neg m e =>
    let (r, exact_) := Fmt.quantise rm neg m e 0 false
    let v : Int := if neg then -(r : Int) else r
    if v < lo then (lo, flagNV) else if hi < v then (hi, flagNV) else (v, if exact_ then 0 else flagNX)

end Sys2Proof.Machine
end

