-- ==== Sys2Proof/Machine/Rv.lean ====
section
/-! DEFINITION. What an instruction of RV64GC does to its thread (17_flow_cores.md R435-R440): address translation and
protection, loads and stores, the integer, atomic, floating-point and system instructions, and the compressed forms. The RISC-V
unprivileged and privileged specifications are taken as published (log entry 20). -/

namespace Sys2Proof.Machine

/-! ### Numbers -/

/-- `v`, of `w` bits, sign-extended to 64 bits. -/
def sext (w v : Nat) : Nat := unsigned 64 (signed w (v % 2 ^ w))

/-- A 64-bit word as a two's-complement number. -/
def int64 (v : Nat) : Int := signed 64 v

/-! ### Translation and protection -/

/-- What an access wants: 0 fetch, 1 load, 2 store or atomic. -/
def accessFault (kind : Nat) : Nat := if kind = 0 then 1 else if kind = 1 then 5 else 7
def pageFault (kind : Nat) : Nat := if kind = 0 then 12 else if kind = 1 then 13 else 15

/-- The bytes that a PMP entry covers: first and one past the last; none: the entry is off. -/
def State.pmpRange (s : State) (h i : Nat) : Option (Nat × Nat) :=
  let a := s.csr h (0x3B0 + i)
  match bits (s.pmpCfg h i) 4 3 with
  | 0 => none
  | 1 => some (if i = 0 then 0 else 4 * s.csr h (0x3B0 + i - 1), 4 * a)
  | 2 => some (4 * a, 4 * a + 4)
  | _ =>
    let ones := (List.range 54).foldl (fun (t : Nat × Bool) k => if t.2 && bit a k then (t.1 + 1, true) else (t.1, false)) (0, true)
    let n := 2 ^ (ones.1 + 3)
    some (4 * a / n * n, 4 * a / n * n + n)

/-- Do the 16 PMP entries let an access of `n` bytes at a physical address pass: the first entry that touches it decides. -/
def State.pmpOk (s : State) (h priv kind a n : Nat) : Bool :=
  let hit := (List.range 16).find? (fun i => match s.pmpRange h i with
    | some (lo, hi) => decide (a < hi) && decide (lo < a + n)
    | none => false)
  match hit with
  | none => priv == 3
  | some i =>
    let cfg := s.pmpCfg h i
    let inside : Bool := match s.pmpRange h i with
      | some (lo, hi) => decide (lo ≤ a) && decide (a + n ≤ hi)
      | none => false
    inside && ((priv == 3 && !bit cfg 7) || bit cfg (if kind = 0 then 2 else if kind = 1 then 0 else 1))

/-- The end of a translation: a physical address, or an exception. -/
inductive VaRes where
  | ok (pa : Nat) (s : State)
  | exc (cause : Nat) (s : State)

/-- A leaf entry permits the access in a privilege mode; accessed and dirty bits are never set by the device. -/
def State.leafOk (s : State) (h priv kind pte : Nat) : Bool :=
  let st := s.csr h 0x300
  let user := bit pte 4
  let mode : Bool := if priv = 0 then user else !user || (bit st 18 && kind != 0)
  let right : Bool := if kind = 0 then bit pte 3 else if kind = 1 then bit pte 1 || (bit st 19 && bit pte 3) else bit pte 2
  mode && right && bit pte 6 && (kind != 2 || bit pte 7)

/-- The rest of a Sv48 walk: `levels` levels below and including this one, the table at `base`. A walk's reads obey the
thread's memory map and the PMP as S mode does. -/
def State.walk (s : State) (h priv kind va : Nat) : Nat → Nat → VaRes
  | 0, _ => .exc (pageFault kind) s
  | l + 1, base =>
    let a := base + bits va (20 + 9 * l) (12 + 9 * l) * 8
    match if s.pmpOk h 1 1 a 8 then s.phys h 1 a 8 else none with
    | none | some (.bar0 _) => .exc (accessFault kind) s
    | some p =>
      let (bs, bad, s) := s.physRead p 8
      let pte := leNat bs
      let rwx := bits pte 3 1
      if bad then .exc 19 s
      else if !bit pte 0 ∨ rwx = 2 ∨ rwx = 6 ∨ bits pte 63 54 ≠ 0 then .exc (pageFault kind) s
      else if rwx = 0 then
        if bit pte 4 ∨ bit pte 6 ∨ bit pte 7 then .exc (pageFault kind) s else s.walk h priv kind va l (bits pte 53 10 * 4096)
      else if bits pte 53 10 % 2 ^ (9 * l) ≠ 0 ∨ !s.leafOk h priv kind pte then .exc (pageFault kind) s
      else .ok (bits pte 53 10 * 4096 + va % 2 ^ (12 + 9 * l)) s

/-- Translate an address of a thread in a privilege mode: Sv48 in S and U mode where satp selects it. -/
def State.xlate (s : State) (h priv kind va : Nat) : VaRes :=
  let satp := s.csr h 0x180
  if priv = 3 ∨ satp / 2 ^ 60 ≠ 9 then .ok va s
  else if sext 48 va ≠ va then .exc (pageFault kind) s
  else s.walk h priv kind va 4 (satp % 2 ^ 44 * 4096)

/-- The privilege mode of a thread's loads and stores (mstatus.MPRV). -/
def State.dataPriv (s : State) (h : Nat) : Nat :=
  let st := s.csr h 0x300
  if (s.hart h).priv = 3 ∧ bit st 17 then bits st 12 11 else (s.hart h).priv

/-- An access outside the thread's own slice takes variable time (R442). -/
def State.stall (s : State) (h a n : Nat) : State :=
  if (s.ownLm h a n).isSome then s
  else
    let d := s.draw
    let x := Config.stallClocks d.1
    d.2.modHart h (fun k => { k with readyAt := k.readyAt + x, memUntil := k.readyAt + x })

/-! ### Data accesses -/

/-- The end of an access: a value, or an exception with its trap value. -/
inductive Ld where
  | ok (v : Nat) (s : State)
  | exc (cause tval : Nat) (s : State)

/-- Where a data access lands: aligned, translated, permitted. -/
inductive Loc where
  | at_ (p : Phys) (pa : Nat) (s : State)
  | exc (cause : Nat) (s : State)

/-- Resolve a data access of `n` bytes (R436, R438). -/
def State.locate (s : State) (h kind va n : Nat) : Loc :=
  if va % n ≠ 0 then .exc (if kind = 1 then 4 else 6) s
  else
    let priv := s.dataPriv h
    match s.xlate h priv kind va with
    | .exc c s => .exc c s
    | .ok pa s =>
      if !s.pmpOk h priv kind pa n then .exc (accessFault kind) s
      else match s.phys h priv pa n with
        | none => .exc (accessFault kind) s
        | some p => .at_ p pa (s.stall h pa n)

/-- A flow core's access of BAR0 that is an access fault: not naturally aligned words of 32 or 64 bits, or another width than
that of the register assigned there (R439). -/
def State.busFault (s : State) (off n : Nat) : Bool :=
  if n ≠ 4 ∧ n ≠ 8 then true
  else match s.find off n with
    | .low _ _ _ _ _ _ | .high _ _ _ _ _ _ => true
    | .none => n == 8 && (match blkAt off with
      | some (b, _) =>
        let o := (off - b.base) % b.stride
        o == 0 || o == 8 || o == 0x10 || ((regAt off).isSome && decide (0x40 ≤ o))
      | none => false)
    | _ => false

/-- A load of `n` bytes. -/
def State.load (s : State) (h va n : Nat) : Ld :=
  match s.locate h 1 va n with
  | .exc c s => .exc c va s
  | .at_ p _ s =>
    match p with
    | .bar0 off =>
      if s.busFault off n then .exc 5 va s
      else
        let r := s.busRead .flow off n
        .ok r.1 r.2
    | _ =>
      let (bs, bad, s) := s.physRead p n
      if bad then .exc 19 va s else .ok (leNat bs) s

/-- A store of `n` bytes. -/
def State.store (s : State) (h va n v : Nat) : Ld :=
  match s.locate h 2 va n with
  | .exc c s => .exc c va s
  | .at_ p _ s =>
    match p with
    | .bar0 off => if s.busFault off n then .exc 7 va s else .ok 0 (s.busWrite .flow off n v)
    | _ => .ok 0 (s.physWrite h p (leBytes n v))

/-- Memory that supports LR/SC and AMOs: the own slice, the shared L2, HBM (R436). -/
def State.atomicMem (s : State) (h pa n : Nat) (p : Phys) : Bool :=
  match p with
  | .lm _ _ => (s.ownLm h pa n).isSome
  | .l2 _ | .hbm _ => true
  | .bar0 _ => false

/-- The new memory value of an AMO on `w` bits. -/
def amoOp (f5 w old v : Nat) : Option Nat :=
  let a := signed w (old % 2 ^ w)
  let b := signed w (v % 2 ^ w)
  let x := old % 2 ^ w
  let y := v % 2 ^ w
  match f5 with
  | 0 => some ((x + y) % 2 ^ w)
  | 1 => some y
  | 4 => some (x ^^^ y)
  | 8 => some (x ||| y)
  | 12 => some (x &&& y)
  | 16 => some (if a ≤ b then x else y)
  | 20 => some (if a ≤ b then y else x)
  | 24 => some (min x y)
  | 28 => some (max x y)
  | _ => none

/-! ### Ends of an instruction -/

/-- What an instruction comes to: it is done and goes on at a PC, or it raises an exception. -/
inductive Ex where
  | ok (s : State) (next : Nat)
  | exc (s : State) (cause tval : Nat)

/-- Illegal instruction. -/
def illegal (s : State) (w : Nat) : Ex := .exc s 2 w

/-- Put a result and go on. -/
def State.res (s : State) (h rd v next : Nat) : Ex := .ok (s.xw h rd v) next

/-! ### Integer instructions -/

/-- Table of the OP and OP-IMM functions on 64 bits; `alt` selects SUB and SRA. -/
def alu (f3 : Nat) (alt : Bool) (a b : Nat) : Nat :=
  match f3 with
  | 0 => if alt then w64 (a + 2 ^ 64 - b) else w64 (a + b)
  | 1 => w64 (a * 2 ^ (b % 64))
  | 2 => b2n (int64 a < int64 b)
  | 3 => b2n (a < b)
  | 4 => a ^^^ b
  | 5 => if alt then unsigned 64 (int64 a / 2 ^ (b % 64)) else a / 2 ^ (b % 64)
  | 6 => a ||| b
  | _ => a &&& b

/-- The 32-bit forms, sign-extended. -/
def aluW (f3 : Nat) (alt : Bool) (a b : Nat) : Option Nat :=
  match f3 with
  | 0 => some (sext 32 (if alt then a + 2 ^ 64 - b else a + b))
  | 1 => some (sext 32 (a * 2 ^ (b % 32)))
  | 5 => some (if alt then unsigned 64 (signed 32 (a % 2 ^ 32) / 2 ^ (b % 32)) else sext 32 (a % 2 ^ 32 / 2 ^ (b % 32)))
  | _ => none

/-- Quotient and remainder that truncate toward zero, of `w`-bit words; by zero: all ones and the dividend. -/
def divS (w a b : Nat) (remainder : Bool) : Nat :=
  let x := signed w a
  let y := signed w b
  if b = 0 then (if remainder then a else 2 ^ w - 1) else unsigned w (if remainder then Int.tmod x y else Int.tdiv x y)

def divU (w a b : Nat) (remainder : Bool) : Nat :=
  if b = 0 then (if remainder then a else 2 ^ w - 1) else if remainder then a % b else a / b

/-- The M extension on 64 bits. -/
def mulDiv (f3 a b : Nat) : Nat :=
  match f3 with
  | 0 => w64 (a * b)
  | 1 => unsigned 64 (int64 a * int64 b / 2 ^ 64)
  | 2 => unsigned 64 (int64 a * (b : Int) / 2 ^ 64)
  | 3 => a * b / 2 ^ 64
  | 4 => divS 64 a b false
  | 5 => divU 64 a b false
  | 6 => divS 64 a b true
  | _ => divU 64 a b true

/-- The M extension on 32 bits. -/
def mulDivW (f3 a b : Nat) : Option Nat :=
  let x := a % 2 ^ 32
  let y := b % 2 ^ 32
  match f3 with
  | 0 => some (sext 32 (x * y))
  | 4 => some (sext 32 (divS 32 x y false))
  | 5 => some (sext 32 (divU 32 x y false))
  | 6 => some (sext 32 (divS 32 x y true))
  | 7 => some (sext 32 (divU 32 x y true))
  | _ => none

/-- Is a branch taken. -/
def branchTaken (f3 a b : Nat) : Option Bool :=
  match f3 with
  | 0 => some (a == b)
  | 1 => some (a != b)
  | 4 => some (int64 a < int64 b)
  | 5 => some (int64 b ≤ int64 a)
  | 6 => some (a < b)
  | 7 => some (b ≤ a)
  | _ => none

/-- Immediates of the formats, sign-extended to 64 bits. -/
def immI (w : Nat) : Nat := sext 12 (bits w 31 20)
def immS (w : Nat) : Nat := sext 12 (bits w 31 25 * 32 + bits w 11 7)
def immB (w : Nat) : Nat := sext 13 (b2n (bit w 31) * 4096 + b2n (bit w 7) * 2048 + bits w 30 25 * 32 + bits w 11 8 * 2)
def immU (w : Nat) : Nat := sext 32 (bits w 31 12 * 4096)
def immJ (w : Nat) : Nat :=
  sext 21 (b2n (bit w 31) * 2 ^ 20 + bits w 19 12 * 4096 + b2n (bit w 20) * 2048 + bits w 30 21 * 2)

/-- OP-IMM and OP-IMM-32. -/
def State.opImm (s : State) (h w next : Nat) (word : Bool) : Ex :=
  let f3 := bits w 14 12
  let a := s.xr h (bits w 19 15)
  let rd := bits w 11 7
  let top := if word then bits w 31 25 else bits w 31 26 * 2
  let alt := f3 == 5 && bit w 30
  let sh : Bool := f3 == 1 || f3 == 5
  let b := if sh then (if word then bits w 24 20 else bits w 25 20) else immI w
  if sh ∧ top ≠ (if alt then 0x20 else 0) then illegal s w
  else if word then (match aluW f3 alt a b with
    | some v => s.res h rd v next
    | none => illegal s w)
  else s.res h rd (alu f3 alt a b) next

/-- OP and OP-32. -/
def State.opReg (s : State) (h w next : Nat) (word : Bool) : Ex :=
  let f3 := bits w 14 12
  let f7 := bits w 31 25
  let a := s.xr h (bits w 19 15)
  let b := s.xr h (bits w 24 20)
  let rd := bits w 11 7
  let alt := f7 == 0x20
  let v : Option Nat :=
    if f7 = 1 then (if word then mulDivW f3 a b else some (mulDiv f3 a b))
    else if f7 = 0 ∨ (alt ∧ (f3 = 0 ∨ f3 = 5)) then (if word then aluW f3 alt a b else some (alu f3 alt a b))
    else none
  match v with
  | some v => s.res h rd v next
  | none => illegal s w

/-! ### Atomic instructions -/

/-- Load-reserved. -/
def State.loadReserved (s : State) (h va n rd next : Nat) : Ex :=
  match s.locate h 1 va n with
  | .exc c s => .exc s c va
  | .at_ p pa s =>
    if !s.atomicMem h pa n p then .exc s 5 va
    else
      let (bs, bad, s) := s.physRead p n
      if bad then .exc s 19 va
      else (s.modHart h (fun k => { k with resv := some (p.key, n, leNat bs) })).res h rd (sext (8 * n) (leNat bs)) next

/-- Store-conditional: it succeeds while the thread's reservation names these bytes and they still hold the value read. -/
def State.storeConditional (s : State) (h va n v rd next : Nat) : Ex :=
  match s.locate h 2 va n with
  | .exc c s => .exc s c va
  | .at_ p pa s =>
    if !s.atomicMem h pa n p then .exc s 7 va
    else
      let r := (s.hart h).resv
      let s := s.modHart h (fun k => { k with resv := none })
      match r with
      | some (a, m, x) =>
        if a = p.key ∧ m = n ∧ (let (bs, bad, _) := s.physRead p n; !bad && leNat bs == x) then
          (s.physWrite h p (leBytes n v)).res h rd 0 next
        else s.res h rd 1 next
      | none => s.res h rd 1 next

/-- A read-modify-write of memory. -/
def State.amo (s : State) (h f5 va n v rd next : Nat) : Ex :=
  match s.locate h 2 va n with
  | .exc c s => .exc s c va
  | .at_ p pa s =>
    if !s.atomicMem h pa n p then .exc s 7 va
    else
      let (bs, bad, s) := s.physRead p n
      if bad then .exc s 19 va
      else (s.physWrite h p (leBytes n ((amoOp f5 (8 * n) (leNat bs) v).getD 0))).res h rd (sext (8 * n) (leNat bs)) next

/-- The A extension. -/
def State.opAmo (s : State) (h w next : Nat) : Ex :=
  let f3 := bits w 14 12
  let f5 := bits w 31 27
  let va := s.xr h (bits w 19 15)
  let v := s.xr h (bits w 24 20)
  let rd := bits w 11 7
  let n := if f3 = 2 then 4 else 8
  if f3 ≠ 2 ∧ f3 ≠ 3 then illegal s w
  else if f5 = 2 then (if bits w 24 20 ≠ 0 then illegal s w else s.loadReserved h va n rd next)
  else if f5 = 3 then s.storeConditional h va n v rd next
  else if (amoOp f5 (8 * n) 0 0).isSome then s.amo h f5 va n v rd next
  else illegal s w

/-! ### Loads and stores -/

/-- Width in bytes and sign extension of a load. -/
def loadForm (f3 : Nat) : Option (Nat × Bool) :=
  match f3 with
  | 0 => some (1, true)
  | 1 => some (2, true)
  | 2 => some (4, true)
  | 3 => some (8, false)
  | 4 => some (1, false)
  | 5 => some (2, false)
  | 6 => some (4, false)
  | _ => none

def State.opLoad (s : State) (h w next : Nat) : Ex :=
  match loadForm (bits w 14 12) with
  | none => illegal s w
  | some (n, sg) =>
    match s.load h (w64 (s.xr h (bits w 19 15) + immI w)) n with
    | .exc c t s => .exc s c t
    | .ok v s => s.res h (bits w 11 7) (if sg then sext (8 * n) v else v) next

def State.opStore (s : State) (h w next : Nat) : Ex :=
  let f3 := bits w 14 12
  if 3 < f3 then illegal s w
  else match s.store h (w64 (s.xr h (bits w 19 15) + immS w)) (2 ^ f3) (s.xr h (bits w 24 20)) with
    | .exc c t s => .exc s c t
    | .ok _ s => .ok s next

/-! ### Floating point -/

/-- The floating-point unit is on (mstatus.FS). -/
def State.fpOn (s : State) (h : Nat) : Bool := bits (s.csr h 0x300) 14 13 != 0

/-- The floating-point state is dirty. -/
def State.fsDirty (s : State) (h : Nat) : State := s.csrw h 0x300 (putFld (putFld (s.csr h 0x300) 13 2 3) 63 1 1)

/-- Accrue exception flags. -/
def State.fflags (s : State) (h fl : Nat) : State := if fl = 0 then s else (s.csrw h 3 (s.csr h 3 ||| fl)).fsDirty h

/-- The rounding mode of an instruction; none: reserved. -/
def State.rmOf (s : State) (h w : Nat) : Option Nat :=
  let r := if bits w 14 12 = 7 then bits (s.csr h 3) 7 5 else bits w 14 12
  if r ≤ 4 then some r else none

/-- Read an f register as a word of the format: a narrower value that is not NaN-boxed is the quiet NaN. -/
def State.fget (s : State) (h : Nat) (d : Bool) (r : Nat) : Nat :=
  let v := s.fr h r
  if d then v else if v / 2 ^ 32 = 2 ^ 32 - 1 then v % 2 ^ 32 else fmtS.qnan

/-- A word of a format as an f register holds it. -/
def boxed (d : Bool) (v : Nat) : Nat := if d then v else (2 ^ 32 - 1) * 2 ^ 32 + v % 2 ^ 32

/-- Write a result and its flags. -/
def State.fres (s : State) (h : Nat) (d : Bool) (rd : Nat) (r : Nat × Nat) (next : Nat) : Ex :=
  .ok ((s.fw h rd (boxed d r.1)).fflags h r.2) next

/-- Write an integer result and its flags. -/
def State.ires (s : State) (h rd : Nat) (r : Nat × Nat) (next : Nat) : Ex := .ok ((s.xw h rd r.1).fflags h r.2) next

/-- The fused multiply-adds: opcode bits 3:2 turn the product and the addend. -/
def State.opFma (s : State) (h w next : Nat) : Ex :=
  let d := bits w 26 25 == 1
  let f := if d then fmtD else fmtS
  match if s.fpOn h && bits w 26 25 ≤ 1 then s.rmOf h w else none with
  | none => illegal s w
  | some rm =>
    let g := fun r => f.unpack (s.fget h d r)
    let x := g (bits w 19 15)
    let y := g (bits w 24 20)
    let z := g (bits w 31 27)
    let k := bits w 3 2
    s.fres h d (bits w 11 7) (f.fma rm (if bit k 1 then x.neg else x) y (if k = 1 ∨ k = 3 then z.neg else z)) next

/-- The integer ranges of FCVT: word, unsigned word, long, unsigned long. -/
def cvtRange (k : Nat) : Int × Int :=
  match k with
  | 0 => (-2 ^ 31, 2 ^ 31 - 1)
  | 1 => (0, 2 ^ 32 - 1)
  | 2 => (-2 ^ 63, 2 ^ 63 - 1)
  | _ => (0, 2 ^ 64 - 1)

/-- The integer that FCVT from an x register converts. -/
def cvtFrom (k v : Nat) : Int :=
  match k with
  | 0 => signed 32 (v % 2 ^ 32)
  | 1 => ((v % 2 ^ 32 : Nat) : Int)
  | 2 => int64 v
  | _ => (v : Int)

/-- OP-FP. -/
def State.opFp (s : State) (h w next : Nat) : Ex :=
  let d := bits w 26 25 == 1
  let f := if d then fmtD else fmtS
  let op := bits w 31 27
  let rd := bits w 11 7
  let r1 := bits w 19 15
  let r2 := bits w 24 20
  let f3 := bits w 14 12
  let a := s.fget h d r1
  let b := s.fget h d r2
  let x := f.unpack a
  let y := f.unpack b
  let rnd := fun (k : Nat → Ex) => match s.rmOf h w with
    | some rm => k rm
    | none => illegal s w
  let sgn := f.ew + f.mw
  let flip := fun (c : Bool) => a % 2 ^ sgn + b2n c * 2 ^ sgn
  if !s.fpOn h ∨ 1 < bits w 26 25 then illegal s w
  else match op with
    | 0 => rnd (fun rm => s.fres h d rd (f.add rm x y) next)
    | 1 => rnd (fun rm => s.fres h d rd (f.add rm x y.neg) next)
    | 2 => rnd (fun rm => s.fres h d rd (f.mul rm x y) next)
    | 3 => rnd (fun rm => s.fres h d rd (f.div rm x y) next)
    | 11 => if r2 = 0 then rnd (fun rm => s.fres h d rd (f.sqrt rm x) next) else illegal s w
    | 4 =>
      (match f3 with
      | 0 => s.fres h d rd (flip (bit b sgn), 0) next
      | 1 => s.fres h d rd (flip (!bit b sgn), 0) next
      | 2 => s.fres h d rd (flip (bit a sgn != bit b sgn), 0) next
      | _ => illegal s w)
    | 5 => if f3 ≤ 1 then s.fres h d rd (f.minMax (f3 == 1) a b) next else illegal s w
    | 8 =>
      -- the other format
      if r2 = 1 ∧ !d then rnd (fun rm => s.fres h false rd (fmtS.put rm (fmtD.unpack (s.fget h true r1))) next)
      else if r2 = 0 ∧ d then rnd (fun rm => s.fres h true rd (fmtD.put rm (fmtS.unpack (s.fget h false r1))) next)
      else illegal s w
    | 20 =>
      let quiet := f3 == 2
      let fl := if (if quiet then x.isSnan || y.isSnan else x.isNan || y.isNan) then flagNV else 0
      (match f3 with
      | 0 => s.ires h rd (b2n (Fmt.lt x y || Fmt.eq x y), fl) next
      | 1 => s.ires h rd (b2n (Fmt.lt x y), fl) next
      | 2 => s.ires h rd (b2n (Fmt.eq x y), fl) next
      | _ => illegal s w)
    | 24 =>
      if 3 < r2 then illegal s w
      else rnd (fun rm =>
        let g := cvtRange r2
        let v := x.toInt rm g.1 g.2
        s.ires h rd (if r2 < 2 then sext 32 (unsigned 32 v.1) else unsigned 64 v.1, v.2) next)
    | 26 =>
      if 3 < r2 then illegal s w
      else rnd (fun rm =>
        let v := cvtFrom r2 (s.xr h r1)
        s.fres h d rd (f.pack rm (v < 0) v.natAbs 0 false) next)
    | 28 =>
      if r2 ≠ 0 then illegal s w
      else if f3 = 0 then s.ires h rd (if d then s.fr h r1 else sext 32 (s.fr h r1), 0) next
      else if f3 = 1 then s.ires h rd (f.classOf a, 0) next
      else illegal s w
    | 30 => if r2 = 0 ∧ f3 = 0 then s.fres h d rd (s.xr h r1, 0) next else illegal s w
    | _ => illegal s w

def State.opFload (s : State) (h w next : Nat) : Ex :=
  let f3 := bits w 14 12
  if !s.fpOn h ∨ (f3 ≠ 2 ∧ f3 ≠ 3) then illegal s w
  else match s.load h (w64 (s.xr h (bits w 19 15) + immI w)) (2 ^ f3) with
    | .exc c t s => .exc s c t
    | .ok v s => .ok (s.fw h (bits w 11 7) (boxed (f3 == 3) v)) next

def State.opFstore (s : State) (h w next : Nat) : Ex :=
  let f3 := bits w 14 12
  if !s.fpOn h ∨ (f3 ≠ 2 ∧ f3 ≠ 3) then illegal s w
  else match s.store h (w64 (s.xr h (bits w 19 15) + immS w)) (2 ^ f3) (s.fr h (bits w 24 20)) with
    | .exc c t s => .exc s c t
    | .ok _ s => .ok s next

/-! ### System instructions -/

/-- Return from a trap of M mode or S mode. -/
def State.trapReturn (s : State) (h : Nat) (fromM : Bool) : Ex :=
  let m := s.csr h 0x300
  let priv := if fromM then bits m 12 11 else bits m 8 8
  let m := if fromM then putFld (putFld (putFld m 3 1 (m / 2 ^ 7)) 7 1 1) 11 2 0 else putFld (putFld (putFld m 1 1 (m / 2 ^ 5)) 5 1 1) 8 1 0
  let m := if priv = 3 then m else putFld m 17 1 0
  let pc := s.csr h (if fromM then 0x341 else 0x141)
  .ok ((s.csrw h 0x300 m).modHart h (fun k => { k with priv := priv })) pc

/-- The CSR instructions. -/
def State.opCsr (s : State) (h w next : Nat) : Ex :=
  let n := bits w 31 20
  let f3 := bits w 14 12
  let r1 := bits w 19 15
  let src := if 4 ≤ f3 then r1 else s.xr h r1
  let writes := f3 % 4 == 1 || r1 != 0
  match if s.csrOpen h n then s.csrGet h n else none with
  | none => illegal s w
  | some old =>
    let v := match f3 % 4 with
      | 1 => src
      | 2 => old ||| src
      | _ => old - (old &&& src)
    -- a write of minstret holds through the instruction that makes it
    let v := if n = 0xB02 then w64 (v + 2 ^ 64 - 1) else v
    if !writes then s.res h (bits w 11 7) old next
    else match s.csrSet h n v with
      | none => illegal s w
      | some t => (if n ≤ 3 then t.fsDirty h else t).res h (bits w 11 7) old next

def State.opSystem (s : State) (h w next : Nat) : Ex :=
  let k := s.hart h
  let m := s.csr h 0x300
  let f3 := bits w 14 12
  if f3 = 4 then illegal s w
  else if f3 ≠ 0 then s.opCsr h w next
  else if w = 0x00000073 then .exc s (8 + k.priv) 0
  else if w = 0x00100073 then .exc s 3 k.pc
  else if w = 0x30200073 then (if k.priv = 3 then s.trapReturn h true else illegal s w)
  else if w = 0x10200073 then (if k.priv = 3 ∨ (k.priv = 1 ∧ !bit m 22) then s.trapReturn h false else illegal s w)
  else if w = 0x10500073 then .ok s next
  else if bits w 31 25 = 9 ∧ bits w 11 7 = 0 then (if k.priv = 3 ∨ (k.priv = 1 ∧ !bit m 20) then .ok s next else illegal s w)
  else illegal s w

/-! ### Compressed instructions -/

/-- Words of the formats, for the expansion. -/
def encI (op f3 rd rs1 imm : Nat) : Nat := imm % 4096 * 2 ^ 20 + rs1 * 2 ^ 15 + f3 * 2 ^ 12 + rd * 2 ^ 7 + op
def encR (op f3 f7 rd rs1 rs2 : Nat) : Nat := f7 * 2 ^ 25 + rs2 * 2 ^ 20 + rs1 * 2 ^ 15 + f3 * 2 ^ 12 + rd * 2 ^ 7 + op
def encS (op f3 rs1 rs2 imm : Nat) : Nat :=
  imm / 32 % 128 * 2 ^ 25 + rs2 * 2 ^ 20 + rs1 * 2 ^ 15 + f3 * 2 ^ 12 + imm % 32 * 2 ^ 7 + op
def encB (f3 rs1 rs2 imm : Nat) : Nat :=
  imm / 4096 % 2 * 2 ^ 31 + imm / 32 % 64 * 2 ^ 25 + rs2 * 2 ^ 20 + rs1 * 2 ^ 15 + f3 * 2 ^ 12 + imm / 2 % 16 * 2 ^ 8 + imm / 2048 % 2 * 2 ^ 7 + 0x63
def encJ (rd imm : Nat) : Nat :=
  imm / 2 ^ 20 % 2 * 2 ^ 31 + imm / 2 % 1024 * 2 ^ 21 + imm / 2048 % 2 * 2 ^ 20 + imm / 4096 % 256 * 2 ^ 12 + rd * 2 ^ 7 + 0x6F

/-- The jump offset of C.J. -/
def cjImm (w : Nat) : Nat :=
  sext 12 (b2n (bit w 12) * 2048 + b2n (bit w 11) * 16 + bits w 10 9 * 256 + b2n (bit w 8) * 1024 + b2n (bit w 7) * 64 + b2n (bit w 6) * 128
    + bits w 5 3 * 2 + b2n (bit w 2) * 32)

/-- The branch offset of C.BEQZ. -/
def cbImm (w : Nat) : Nat :=
  sext 9 (b2n (bit w 12) * 256 + bits w 11 10 * 8 + bits w 6 5 * 64 + bits w 4 3 * 2 + b2n (bit w 2) * 32)

/-- Quadrant 0. -/
def expand0 (w : Nat) : Option Nat :=
  let rd := 8 + bits w 4 2
  let r1 := 8 + bits w 9 7
  let wImm := bits w 12 10 * 8 + b2n (bit w 6) * 4 + b2n (bit w 5) * 64
  let dImm := bits w 12 10 * 8 + bits w 6 5 * 64
  let spImm := bits w 12 11 * 16 + bits w 10 7 * 64 + b2n (bit w 6) * 4 + b2n (bit w 5) * 8
  match bits w 15 13 with
  | 0 => if spImm = 0 then none else some (encI 0x13 0 rd 2 spImm)
  | 1 => some (encI 0x07 3 rd r1 dImm)
  | 2 => some (encI 0x03 2 rd r1 wImm)
  | 3 => some (encI 0x03 3 rd r1 dImm)
  | 5 => some (encS 0x27 3 r1 rd dImm)
  | 6 => some (encS 0x23 2 r1 rd wImm)
  | 7 => some (encS 0x23 3 r1 rd dImm)
  | _ => none

/-- Quadrant 1. -/
def expand1 (w : Nat) : Option Nat :=
  let rd := bits w 11 7
  let r1 := 8 + bits w 9 7
  let r2 := 8 + bits w 4 2
  let imm := sext 6 (b2n (bit w 12) * 32 + bits w 6 2)
  let sh := b2n (bit w 12) * 32 + bits w 6 2
  let sp := sext 10 (b2n (bit w 12) * 512 + b2n (bit w 6) * 16 + b2n (bit w 5) * 64 + bits w 4 3 * 128 + b2n (bit w 2) * 32)
  match bits w 15 13 with
  | 0 => some (encI 0x13 0 rd rd imm)
  | 1 => if rd = 0 then none else some (encI 0x1B 0 rd rd imm)
  | 2 => some (encI 0x13 0 rd 0 imm)
  | 3 =>
    if rd = 2 then (if sp = 0 then none else some (encI 0x13 0 2 2 sp))
    else if sh = 0 then none
    else some (imm % 2 ^ 20 * 4096 + rd * 128 + 0x37)
  | 4 =>
    (match bits w 11 10 with
    | 0 => some (encI 0x13 5 r1 r1 sh)
    | 1 => some (encI 0x13 5 r1 r1 (sh + 0x400))
    | 2 => some (encI 0x13 7 r1 r1 imm)
    | _ =>
      match b2n (bit w 12) * 4 + bits w 6 5 with
      | 0 => some (encR 0x33 0 0x20 r1 r1 r2)
      | 1 => some (encR 0x33 4 0 r1 r1 r2)
      | 2 => some (encR 0x33 6 0 r1 r1 r2)
      | 3 => some (encR 0x33 7 0 r1 r1 r2)
      | 4 => some (encR 0x3B 0 0x20 r1 r1 r2)
      | 5 => some (encR 0x3B 0 0 r1 r1 r2)
      | _ => none)
  | 5 => some (encJ 0 (cjImm w))
  | 6 => some (encB 0 r1 0 (cbImm w))
  | _ => some (encB 1 r1 0 (cbImm w))

/-- Quadrant 2. -/
def expand2 (w : Nat) : Option Nat :=
  let rd := bits w 11 7
  let r2 := bits w 6 2
  let sh := b2n (bit w 12) * 32 + bits w 6 2
  let ldImm := b2n (bit w 12) * 32 + bits w 6 5 * 8 + bits w 4 2 * 64
  let lwImm := b2n (bit w 12) * 32 + bits w 6 4 * 4 + bits w 3 2 * 64
  let sdImm := bits w 12 10 * 8 + bits w 9 7 * 64
  let swImm := bits w 12 9 * 4 + bits w 8 7 * 64
  match bits w 15 13 with
  | 0 => some (encI 0x13 1 rd rd sh)
  | 1 => some (encI 0x07 3 rd 2 ldImm)
  | 2 => if rd = 0 then none else some (encI 0x03 2 rd 2 lwImm)
  | 3 => if rd = 0 then none else some (encI 0x03 3 rd 2 ldImm)
  | 4 =>
    if bit w 12 then
      if r2 ≠ 0 then some (encR 0x33 0 0 rd rd r2)
      else if rd = 0 then some 0x00100073
      else some (encI 0x67 0 1 rd 0)
    else if r2 ≠ 0 then some (encR 0x33 0 0 rd 0 r2)
    else if rd = 0 then none
    else some (encI 0x67 0 0 rd 0)
  | 5 => some (encS 0x27 3 2 r2 sdImm)
  | 6 => some (encS 0x23 2 2 r2 swImm)
  | _ => some (encS 0x23 3 2 r2 sdImm)

/-- The word that a compressed instruction stands for; none: reserved. -/
def expand (w : Nat) : Option Nat :=
  match w % 4 with
  | 0 => expand0 w
  | 1 => expand1 w
  | _ => expand2 w

/-! ### One instruction -/

/-- Perform a 32-bit instruction other than custom-0, whose next PC in sequence is `next`. -/
def State.rvPerform (s : State) (h w next : Nat) : Ex :=
  let pc := (s.hart h).pc
  let rd := bits w 11 7
  match w % 128 with
  | 0x37 => s.res h rd (immU w) next
  | 0x17 => s.res h rd (pc + immU w) next
  | 0x6F => s.res h rd next (pc + immJ w)
  | 0x67 =>
    let t := w64 (s.xr h (bits w 19 15) + immI w)
    if bits w 14 12 ≠ 0 then illegal s w else s.res h rd next (t / 2 * 2)
  | 0x63 =>
    (match branchTaken (bits w 14 12) (s.xr h (bits w 19 15)) (s.xr h (bits w 24 20)) with
    | some t => .ok s (if t then pc + immB w else next)
    | none => illegal s w)
  | 0x03 => s.opLoad h w next
  | 0x23 => s.opStore h w next
  | 0x13 => s.opImm h w next false
  | 0x1B => s.opImm h w next true
  | 0x33 => s.opReg h w next false
  | 0x3B => s.opReg h w next true
  | 0x0F => if bits w 14 12 ≤ 1 then .ok s next else illegal s w
  | 0x2F => s.opAmo h w next
  | 0x07 => s.opFload h w next
  | 0x27 => s.opFstore h w next
  | 0x43 | 0x47 | 0x4B | 0x4F => s.opFma h w next
  | 0x53 => s.opFp h w next
  | 0x73 => s.opSystem h w next
  | _ => illegal s w

/-- Issue periods that an instruction takes (R446). -/
def periods (w : Nat) : Nat :=
  let op := w % 128
  if (op = 0x33 ∨ op = 0x3B) ∧ bits w 31 25 = 1 ∧ 4 ≤ bits w 14 12 then 2
  else if op = 0x53 ∧ (bits w 31 27 = 3 ∨ bits w 31 27 = 11) then 4
  else 1

/-- The data bytes that a load or store (also compressed and expanded) touches: the breakpoint kinds it can match, its virtual
address and size. -/
def State.touched (s : State) (h w : Nat) : List (Nat × Nat × Nat) :=
  let f3 := bits w 14 12
  let a := s.xr h (bits w 19 15)
  match w % 128 with
  | 0x03 | 0x07 => [(2, w64 (a + immI w), 2 ^ (f3 % 4))]
  | 0x23 | 0x27 => [(3, w64 (a + immS w), 2 ^ (f3 % 4))]
  | 0x2F =>
    let n := 2 ^ (f3 % 4)
    if bits w 31 27 = 2 then [(2, a, n)] else if bits w 31 27 = 3 then [(3, a, n)] else [(2, a, n), (3, a, n)]
  | _ => []

/-- Fetch two bytes of an instruction: only from the thread's own slice and from the shared L2 (R438). -/
def State.fetch2 (s : State) (h va : Nat) : Ld :=
  let priv := (s.hart h).priv
  match s.xlate h priv 0 va with
  | .exc c s => .exc c va s
  | .ok pa s =>
    let p : Option Phys := match s.ownLm h pa 2, s.phys h priv pa 2 with
      | some o, _ => some (.lm (h / 16) o)
      | none, some (.l2 o) => some (.l2 o)
      | _, _ => none
    match if s.pmpOk h priv 0 pa 2 then p else none with
    | none => .exc 1 va s
    | some p =>
      let s := s.stall h pa 2
      let (bs, bad, s) := s.physRead p 2
      if bad then .exc 19 va s else .ok (leNat bs) s

/-- Fetch an instruction of a thread: its bits. -/
def State.fetch (s : State) (h : Nat) : Ld :=
  let pc := (s.hart h).pc
  match s.fetch2 h pc with
  | .exc c t s => .exc c t s
  | .ok lo s =>
    if lo % 4 ≠ 3 then .ok lo s
    else match s.fetch2 h (w64 (pc + 2)) with
      | .exc c t s => .exc c t s
      | .ok hi s => .ok (lo + hi * 2 ^ 16) s

/-- The instruction is performed: the thread goes on at `next`. -/
def State.goOn (s : State) (h next : Nat) : State := (s.modHart h (fun k => { k with pc := w64 next })).retire h 0

/-- Perform the word that stands for the fetched instruction `raw`, and compare its data accesses with the breakpoints. -/
def State.runWord (s : State) (h raw w len : Nat) : State :=
  if w % 128 = 0x0B then s.customStep h w
  else
    let marks := s.touched h w
    match s.rvPerform h w (w64 ((s.hart h).pc + len)) with
    | .exc s c t => s.trap h c (if c = 2 then raw else t)
    | .ok s next => marks.foldl (fun s m => s.breakpoint h m.1 m.2.1 m.2.2) (s.goOn h next)

/-- A running thread performs the instruction at its PC. -/
def State.runOne (s : State) (h : Nat) : State :=
  match s.fetch h with
  | .exc c t s => s.trap h c t
  | .ok raw s =>
    if raw % 4 = 3 then
      let s := s.modHart h (fun k => { k with readyAt := k.readyAt + 8 * (periods raw - 1) })
      s.runWord h raw raw 4
    else match expand raw with
      | some w => s.runWord h raw w 2
      | none => s.trap h 2 raw

/-! ### One clock of a core (R445) -/

/-- The thread can issue. -/
def State.canIssue (s : State) (h : Nat) : Bool := (s.hart h).state == 1 && (s.hart h).readyAt ≤ (s.fcore (h / 16)).clk

/-- The thread that issues in the core's present clock: the slot's, else a fill thread. -/
def State.issuer (s : State) (c : Nat) : Option Nat :=
  let k := s.fcore c
  let slot := 16 * c + k.clk % 8
  if s.canIssue slot then some slot
  else ((List.range 8).map (fun i => 16 * c + 8 + (k.lastFill - 8 + 1 + i) % 8)).find? s.canIssue

/-- INSTRUCTION_ISSUE: one flow-core clock of a core. -/
def State.issue (s : State) (c : Nat) : State :=
  let k := s.fcore c
  let next := fun (s : State) => let k := s.fcore c; s.setFcore c { k with clk := k.clk + 1 }
  match s.issuer c with
  | none => next (s.fcnt c 2)
  | some h =>
    -- an interrupt that is due is taken before the instruction; an execute breakpoint halts the thread before it
    let s := s.takeInterrupt h
    let s := s.breakpoint h 1 (s.hart h).pc 2
    if (s.hart h).state ≠ 1 then next (s.fcnt c 2)
    else
      let fill := 8 ≤ h % 16
      let s := if fill then s.setFcore c { s.fcore c with lastFill := h % 16 } else s
      let s := s.fcnt c (b2n fill)
      next ((s.modHart h (fun x => { x with readyAt := k.clk + 8 })).runOne h)

def execInstructionIssue (core : Fin 64) (s : State) : Out := s.whenMain (fun s => (s.issue core).drainDue)

end Sys2Proof.Machine
end

