-- ==== Sys2Proof/Machine/Epoch.lean ====
section
/-! DEFINITION. Epochs: what each unit checks when it is armed and does at the apply time (02_fabric_time.md R63-R69; the
chapters' own rules R216, R217, R261, R299, R326, R332, R361, R383, R405, R412, R413, R424, R470, R501, R515, R516, R547). -/

namespace Sys2Proof.Machine

/-! ### What a unit checks (R64) -/

/-- The bytes of BAR0 of an epoch unit. -/
def unitRange (u : Nat) : Nat × Nat :=
  match unitBase u with
  | some a => (a, a + (match blkAt a with
    | some (b, _) => b.stride
    | none => 0))
  | none => (0, 0)

/-- The state as it would be with the unit's staged values active. -/
def State.staged (s : State) (u : Nat) : State := s.applyRange (unitRange u).1 (unitRange u).2

/-- The number of the first case that holds; 0: none. -/
def firstCause (l : List (Nat × Bool)) : Nat := match l.find? (·.2) with
  | some c => c.1
  | none => 0

/-- The quads of a group that a configuration consults hold a defined mode. -/
def State.quadsOk (s : State) (g : Nat) : Bool := (List.range 2).all (fun q => s.quadMode g q ≤ 6 && (s.quadMode g q != 6 || s.expert (prtBase g) = false || s.ac R.PRT_GRP_MODE_g800 g == 1))

/-- R217, over the values that the staged level consults; the preset always. -/
def State.prtCause (t : State) (g : Nat) : Nat :=
  let ports := ((List.range 8).map (8 * g + ·)).filter t.portExists
  firstCause [(1, !t.quadsOk g || 5 < t.preset (prtBase g)), (2, ports.any (fun p => !fecOk (t.portRate p) (t.portFec p))),
    (3, ports.any (fun p => t.maxFrame p < 64 || 9600 < t.maxFrame p))]

/-- R299. -/
def State.swcCause (t : State) : Nat :=
  let accts := (List.range 556).map t.acctCfg
  firstCause [(1, 507904 < accts.foldl (fun a c => a + c.min + c.hdrm) 0), (2, accts.any (fun c => 8 < c.alpha)), (3, 1 < t.preset swcBase)]

/-- Comparators that may be taken by others than gate lists: an ACTIVE ring's launch, the epoch, the dump. -/
def State.comparatorUsers (s : State) : Nat :=
  2 + (s.rng.rings.filter (fun p => match p.2 with
    | some x => x.state == 1
    | none => false)).length

/-- Ports that will run a gate list. -/
def State.gatePorts (t : State) : List Nat := (List.range 64).filter t.gateEn

/-- R332; `short`: no level-0 comparator is free for a list. -/
def State.tmCause (t : State) (short : Bool) : Nat :=
  let badList := fun (p : Nat) =>
    let l := t.gateCfg p
    l.ents.isEmpty || l.ents.any (fun e => e.2 < 16) || l.cycle < unitsPerUs || unitsPerSec < l.cycle
  let weighted := t.expert tmBase && (List.range 73).any (fun d => (List.range 8).any (fun c =>
    !bit (t.ac R.TM_SCHED_CFG_strict d) c && t.ac R.TM_QUANTUM_quantum d c < 64))
  firstCause [(1, t.gatePorts.any badList), (2, short), (3, weighted), (4, 3 < t.preset tmBase),
    (5, (List.range 4096).any (fun x => t.shaperOn x && t.ac R.TM_SHAPER_CFG_burst x < 64))]

/-- Whether a comparator is missing is left to the device's other timers (R57): it cannot be while the lists and every other
possible user fit into 512. -/
def State.comparatorShort (s t : State) : Bool × State :=
  if t.gatePorts = [] ∨ t.gatePorts.length + s.comparatorUsers ≤ 512 then (false, s)
  else
    let d := s.draw
    (512 < t.gatePorts.length + min (Config.wheelPending 0 d.1) s.comparatorUsers, d.2)

/-- R361: RDM_ records no cause. -/
def State.rdmBad (t : State) : Bool :=
  t.ac R.RDM_CC_RATE_rate_max_mbps < t.ac R.RDM_CC_CFG_rate_min_mbps || t.ac R.RDM_CC_CFG_g_shift == 0 || 16 < t.ac R.RDM_CC_CFG_g_shift
    || t.ac R.RDM_CC_CFG_inc_us == 0 || 2 < t.preset rdmBase

/-- R405. Media codes: 0 C2M, 1 C2C, 2 KR, 3 CR. -/
def State.wlkCause (t : State) (n : Nat) : Nat :=
  let m := t.ac R.WLK_CFG_media n
  firstCause [(1, m != 1 && m != 3), (2, t.ac R.WLK_CFG_replay_ns n < 100), (3, t.ac R.WLK_CFG_replay_max n == 0),
    (4, t.ac R.WLK_CFG_lt_en n == 1 && m == 1)]

/-- R413. -/
def State.tskCause (s t : State) (n : Nat) : Nat :=
  let c := s.winCheck n
  if c ≠ 0 then c else if 2 < t.preset (tskBase n) then 5 else 0

/-- An enabled receive area of a core: first byte and size. -/
def State.rxArea (t : State) (c p : Nat) : Nat × Nat := (t.ac R.FCR_RXP_CFG_base c p * 256, t.rxEntries c p * t.rxEsize c p)

/-- R470. -/
def State.fcrCause (t : State) (c : Nat) : Nat :=
  let on_ := (List.range 16).filter (fun p => t.ac R.FCR_RXP_CFG_enable c p == 1)
  let inSlice := fun (p : Nat) =>
    let o := t.ac R.FCR_RXP_CFG_owner c p
    let lo := t.rd R.FCR_LM_CFG_base c o * 4096
    lo ≤ (t.rxArea c p).1 && (t.rxArea c p).1 + (t.rxArea c p).2 ≤ lo + t.rd R.FCR_LM_CFG_size c o * 4096
  let bad := fun (p : Nat) =>
    let n := t.ac R.FCR_RXP_CFG_log2_entries c p
    let z := t.ac R.FCR_RXP_CFG_log2_esize c p
    n < 1 || 8 < n || z < 8 || 14 < z
  firstCause [(1, on_.any (fun p => !inSlice p) || anyOverlap (on_.map (t.rxArea c))), (2, (List.range 16).any bad)]

/-- R547. -/
def State.parCause (t : State) : Nat :=
  let m := t.ac R.PAR_CFG_media
  firstCause [(1, m != 1 && m != 3), (2, t.ac R.PAR_CFG_lt_en == 1 && m == 1), (3, t.ac R.PAR_CFG_miss_max == 0)]

/-- A pipeline's staged values, and its live versions (R260, R261). -/
def State.pipeCause (s : State) (n : Nat) : Nat := if 4 ≤ (s.pipe n).old.length + 1 then 1 else s.stagedCause n

/-- What an armed unit finds in its staged values: 0 when they are legal, else the cause it records. -/
def State.unitCause (s : State) (u : Nat) : Nat × State :=
  let t := s.staged u
  if u < 9 then (s.pipeCause u, s)
  else if u < 17 then (t.prtCause (u - 9), s)
  else if u = 17 then (t.swcCause, s)
  else if u = 18 then
    let r := s.comparatorShort t
    (t.tmCause r.1, r.2)
  else if u = 19 then (b2n t.rdmBad, s)
  else if u = 20 then (b2n (2 < t.preset stqBase), s)
  else if 21 ≤ u ∧ u < 29 then (t.wlkCause (u - 21), s)
  else if 29 ≤ u ∧ u < 37 then (s.tskCause t (u - 29), s)
  else if u = 43 then (b2n (2 < t.preset pmcBase), s)
  else if u = 45 then (t.parCause, s)
  else if 47 ≤ u ∧ u < 111 then (t.fcrCause (u - 47), s)
  else (0, s)

/-- Where a unit records a refused arm. -/
def State.recordArm (s : State) (u c : Nat) : State :=
  if u < 9 then s.verRefuse u c
  else if u < 17 then s.wr R.PRT_GRP_STATUS_refuse_cause c (u - 9)
  else if u = 17 then s.wr R.SWC_STATUS_refuse_cause c
  else if u = 18 then (s.raise R.TM_STATUS_refused).wr R.TM_STATUS_refuse_cause c
  else if u = 20 then (s.raise R.STQ_STATUS_refused).wr R.STQ_STATUS_refuse_cause c
  else if 21 ≤ u ∧ u < 29 then (s.raise R.WLK_STATUS_refused (u - 21)).wr R.WLK_STATUS_refuse_cause c (u - 21)
  else if 29 ≤ u ∧ u < 37 then s.winRefuse (u - 29) c
  else if u = 43 then (s.raise R.PMC_CTRL_refused).wr R.PMC_CTRL_refuse_cause c
  else if u = 45 then (s.raise R.PAR_STATUS_refused).wr R.PAR_STATUS_refuse_cause c
  else if 47 ≤ u ∧ u < 111 then (s.raise R.FCR_CORE_STATUS_refused (u - 47)).wr R.FCR_CORE_STATUS_refuse_cause c (u - 47)
  else s

/-- The unit has been armed by the running epoch and has not answered; the deadline has not passed. -/
def State.awaited (s : State) (u : Nat) : Bool :=
  s.rd R.GLB_EPOCH_STATUS_state == 1 && s.armed u && !s.epochBit R.GLB_EPOCH_ACK_ack u
    && s.time.ft < ft64Units (s.rd R.GLB_EPOCH_T_t) - 10 * unitsPerUs

/-- UNIT_ACK: the unit's staged values are legal and it acknowledges; the last acknowledgement commits the epoch. -/
def State.unitAck (s : State) (u : Nat) : State :=
  if !s.awaited u || s.unitRefuses u then s
  else
    let r := s.unitCause u
    if r.1 ≠ 0 then s
    else
      let s := r.2.setEpochBit R.GLB_EPOCH_ACK_ack u true
      if s.allAcked then s.wr R.GLB_EPOCH_STATUS_state 2 else s

/-- EPOCH_REFUSE: the unit is out of service, held, or finds a staged value illegal; the epoch aborts with result 3. -/
def State.unitRefuse (s : State) (u : Nat) : State :=
  if !s.awaited u then s
  else if s.unitRefuses u then (if s.heldUnit u then s else s.wr R.HLT_STATUS_epoch_ref u).epochEnd 3
  else
    let r := s.unitCause u
    if r.1 = 0 then s else (r.2.recordArm u r.1).epochEnd 3

/-! ### What a unit does at T (R65) -/

/-- What of a port's configuration takes it down when it changes (R216). -/
def State.portShape (s : State) (p : Nat) : List Nat :=
  if s.portExists p then
    [s.portLanes p, s.portRate p, b2n (s.portEnabled p), s.portMedia p, s.portFec p, s.portCfg R.PRT_PORT_CFG_an_en 1 p, s.portCfg R.PRT_PORT_CFG_lt_en 1 p]
  else []

/-- R216: ports whose configuration changes go to DISABLED, and start again where they are enabled. -/
def State.prtApply (s : State) (u g : Nat) : State :=
  let t := s.staged u
  let ports := (List.range 8).map (8 * g + ·)
  let hit := ports.filter (fun p => s.portShape p != t.portShape p)
  let s := (hit.filter (fun p => s.portState p != 0)).foldl State.disablePort s
  hit.foldl State.startPort (s.staged u)

/-- R317, R326: lists are adopted, and tokens of shapers whose configuration changes are refilled. -/
def State.tmApply (s : State) : State :=
  let t := s.staged 18
  let cfg := fun (s : State) (x : Nat) => [s.ac R.TM_SHAPER_CFG_burst x, s.ac R.TM_SHAPER_CFG_refill_zero x, s.ac R.TM_SHAPER_CFG_rate_kbps x]
  let hit := (List.range 4096).filter (fun x => cfg s x != cfg t x)
  let u := hit.foldl State.shaperRefill t
  (List.range 64).foldl (fun s p => (s.gateAdopt p).gateOverrun p) u

/-- R405: a change of `enable`, `media` or `lt_en` takes the link down. -/
def State.wlkApply (s : State) (n : Nat) : State :=
  let t := s.staged (21 + n)
  let shape := fun (s : State) => [s.ac R.WLK_CFG_enable n, s.ac R.WLK_CFG_media n, s.ac R.WLK_CFG_lt_en n]
  if shape s = shape t then t else (t.linkDown n 7).linkStart n

/-- R547: the same for both sublinks of the pair. -/
def State.parApply (s : State) : State :=
  let t := s.staged 45
  let shape := fun (s : State) => [s.ac R.PAR_CFG_enable, s.ac R.PAR_CFG_media, s.ac R.PAR_CFG_lt_en]
  if shape s = shape t then t
  else ([8, 9].foldl (fun s n => (s.linkDown n 7).linkStart n) t).sublinkLost

/-- R412, R424: the windows switch, and the tokens of meters that change become their burst. -/
def State.tskApply (s : State) (n : Nat) : State :=
  let t := s.staged (29 + n)
  let hit := (List.range 4).filter (fun m => s.meterCfg n m != t.meterCfg n m)
  hit.foldl (fun s m => s.meterFill n m) (t.winApply n)

/-- R470: a receive port whose area changes discards its entries. -/
def State.fcrApply (s : State) (c : Nat) : State :=
  let t := s.staged (47 + c)
  ((List.range 16).filter (fun p => s.rxArea c p != t.rxArea c p || s.rxEsize c p != t.rxEsize c p)).foldl (fun s p =>
    let x := s.rxp c p
    (s.fcnt c 5 (x.filled - x.released)).setRxp c p {}) t

/-- The unit switches its active values to its staged ones. -/
def State.unitApply (s : State) (u : Nat) : State :=
  if u < 9 then (s.copies u).foldl State.commitOne s
  else if u < 17 then s.prtApply u (u - 9)
  else if u = 17 then (s.staged 17).acctClock
  else if u = 18 then s.tmApply
  else if 21 ≤ u ∧ u < 29 then s.wlkApply (u - 21)
  else if 29 ≤ u ∧ u < 37 then s.tskApply (u - 29)
  else if u = 45 then s.parApply
  else if 47 ≤ u ∧ u < 111 then s.fcrApply (u - 47)
  else s.staged u

/-- A unit fails to apply (R67, R516). -/
def State.unitFails (s : State) (u old : Nat) : State :=
  let d := leBytes 2 u ++ leBytes 2 0 ++ leBytes 4 old ++ leBytes 4 (old + 1) ++ leBytes 4 0
  ((s.setEpochBit R.GLB_EPOCH_FENCED_fenced u true).epochFence u).eventBoth 1 0 2 d

/-- EPOCH_APPLY: FT reaches T; every armed unit applies, or fails and is fenced. -/
def State.epochApply (s : State) (failing : List Nat) : State :=
  if s.rd R.GLB_EPOCH_STATUS_state ≠ 2 then s
  else
    let s := s.runTo (ft64Units (s.rd R.GLB_EPOCH_T_t))
    let units := (List.range 111).filter s.armed
    let old := s.rd R.GLB_EPOCH_NUM_num
    let s := s.wr R.GLB_EPOCH_NUM_num (old + 1)
    let s := units.foldl (fun s u => if failing.contains u then s.unitFails u old else s.unitApply u) s
    s.epochEnd (b2n (units.any failing.contains))

def execUnitAck (unit : Fin 128) (s : State) : Out := s.whenMain (·.unitAck unit)
def execEpochRefuse (unit : Fin 128) (s : State) : Out := s.whenMain (·.unitRefuse unit)
def execEpochApply (failing : List Nat) (s : State) : Out := s.whenMain (fun s => (s.epochApply failing).drainDue)

end Sys2Proof.Machine
end

