-- ==== Sys2Proof/Machine/RegCmds.lean ====
section
/-! DEFINITION. The commands that are one access of one register: set-up writes, the holding registers, and the write of each
command register (00_scope.md R9, R15, R16 and the rule named at each). Every one goes through the register path of Bar0, so
ownership, boot locks, epochs and mirroring hold for each alike. -/

namespace Sys2Proof.Machine

/-! ### Words and writes -/

/-- The writable fields of a register as they stand: what a command leaves in the fields it does not name. -/
def State.image (s : State) (r : RegDef) (i j k : Nat) : Nat :=
  r.flds.foldl (fun a f => if f.acc = .rw ∨ f.acc = .rws ∨ f.acc = .rwl then a + s.rd f i j k % 2 ^ f.wd * 2 ^ f.lo else a) 0

/-- The block of a block code. -/
def blkOf (code : Nat) : BlkDef :=
  (blocks.find? (fun b => b.code == code)).getD { code := 0, base := 0, count := 0, stride := 1, levels := false, unit := none, regs := [] }

/-- A write by its offset, with what it makes due. -/
def State.busPut (s : State) (req : Req) (off size v : Nat) : State := (s.busWrite req off size v).drainDue

/-- A write of a whole register of instance `n` of a block, element (i, j, k) of its array: what a write at the register's
offset does. -/
def State.wrReg (s : State) (req : Req) (code : Nat) (r : RegDef) (v : Nat) (n : Nat := 0) (i : Nat := 0) (j : Nat := 0) (k : Nat := 0) : State :=
  if s.blkOpen (blkOf code) n then (s.regWrite req (blkOf code) n r i j k (v % 2 ^ r.width)).drainDue else s

/-- A write that changes the listed fields of a register and keeps its other writable fields. -/
def State.wrFlds (s : State) (req : Req) (code : Nat) (r : RegDef) (fs : List (Fld × Nat)) (n : Nat := 0) (i : Nat := 0) (j : Nat := 0) (k : Nat := 0) : State :=
  s.wrReg req code r (fs.foldl (fun v p => showFld v p.1 p.2) (s.image r i j k)) n i j k

/-- What a read gives the requester. -/
def State.answer (s : State) (req : Req) (v : Nat) : State :=
  match req with
  | .host => { s with bus := { s.bus with hostData := v } }
  | .mgmt => { s with bus := { s.bus with mgmtData := v } }
  | .flow => { s with bus := { s.bus with flowData := v } }

/-- A read of BAR0 by a requester. -/
def State.busGet (s : State) (req : Req) (off size : Nat) : State := let r := s.busRead req off size; r.2.answer req r.1

/-- A flow core's access that the register path refuses changes nothing here: the instruction traps (R439). -/
def State.refusesFlow (s : State) (req : Req) (off size : Nat) : Bool := req == .flow && s.busFault off size

/-- The offset holds the low half of a 64-bit register, and the access is 4 bytes. -/
def State.isLow (s : State) (off : Nat) : Bool := match s.find off 4 with
  | .low _ _ _ _ _ _ => true
  | _ => false

/-- The offset holds the high half of a 64-bit register. -/
def State.isHigh (s : State) (off : Nat) : Bool := match s.find off 4 with
  | .high _ _ _ _ _ _ => true
  | _ => false

/-! ### Accesses by offset (R9, R15, R16) -/

def State.registerWrite (s : State) (req : Req) (off size v : Nat) : State := if s.refusesFlow req off size then s else s.busPut req off size v
def State.rcRead (s : State) (req : Req) (off size : Nat) : State := if s.refusesFlow req off size then s else s.busGet req off size
def State.halfWrite (s : State) (req : Req) (off v : Nat) (here : Bool) : State := if req == .flow || !here then s else s.busPut req off 4 v
def State.halfRead (s : State) (req : Req) (off : Nat) (here : Bool) : State := if req == .flow || !here then s else s.busGet req off 4

def execRegisterWrite (req : Req) (off size v : Nat) (s : State) : Out := s.done (s.registerWrite req off size v)
def execLowHalfWrite (req : Req) (off v : Nat) (s : State) : Out := s.done (s.halfWrite req off v (s.isLow off))
def execHighHalfWrite (req : Req) (off v : Nat) (s : State) : Out := s.done (s.halfWrite req off v (s.isHigh off))
def execLowHalfRead (req : Req) (off : Nat) (s : State) : Out := s.done (s.halfRead req off (s.isLow off))
def execHighHalfRead (req : Req) (off : Nat) (s : State) : Out := s.done (s.halfRead req off (s.isHigh off))
def execRcRead (req : Req) (off size : Nat) (s : State) : Out := s.done (s.rcRead req off size)

/-! ### GLB_ and FT_ (01_architecture.md R40-R43; 02_fabric_time.md) -/

/-- A write of the owner field of the block instance at a base offset. -/
def State.ownerWrite (s : State) (req : Req) (base v : Nat) : State := match blkAt base with
  | some (b, n) => if base = b.base + n * b.stride ∧ s.blkOpen b n then (s.headerWrite req b n 8 (v % 2 ^ 32)).drainDue else s
  | none => s

def execHostHeartbeat (req : Req) (v : Nat) (s : State) : Out := s.done (s.wrReg req 0x01 R.reg_GLB_HOST_HB v)
def execHbCfgWrite (req : Req) (v : Nat) (s : State) : Out := s.done (s.wrReg req 0x01 R.reg_GLB_HB_CFG v)
def execSeize (req : Req) (s : State) : Out := s.done (s.wrReg req 0x01 R.reg_GLB_SEIZE 1)
def execOwnerWrite (req : Req) (base v : Nat) (s : State) : Out := s.done (s.ownerWrite req base v)
def execFtSnap (req : Req) (s : State) : Out := s.done (s.wrReg req 0x02 R.reg_FT_SNAP 1)
def execFtSourceChange (req : Req) (v : Nat) (s : State) : Out := s.done (s.wrReg req 0x02 R.reg_FT_CTRL v)
def execFtRateWrite (req : Req) (v : Nat) (s : State) : Out := s.done (s.wrReg req 0x02 R.reg_FT_RATE v)
def execStepGo (req : Req) (s : State) : Out := s.done (s.wrFlds req 0x02 R.reg_FT_STEP_CTRL [(R.FT_STEP_CTRL_step_go, 1)])
def execSetGo (req : Req) (s : State) : Out := s.done (s.wrFlds req 0x02 R.reg_FT_STEP_CTRL [(R.FT_STEP_CTRL_set_go, 1)])
def execFtMboxState (req : Req) (c : Fin 64) (v : Nat) (s : State) : Out := s.done (s.wrReg req 0x0F R.reg_FCR_FT_MBOX v c c)
def execPpsEdge (edge rate : Int) (s : State) : Out := s.whenMain (fun s => s.afterJump (s.ppsEdge edge rate))
def execWdogKick (req : Req) (w : Fin 16) (s : State) : Out := s.done (s.wrReg req 0x02 R.reg_FT_WDOG_KICK 1 0 w)
def execEpochGo (req : Req) (s : State) : Out := s.done (s.wrFlds req 0x01 R.reg_GLB_EPOCH_CTRL [(R.GLB_EPOCH_CTRL_go, 1)])
def execEpochCancel (req : Req) (s : State) : Out := s.done (s.wrFlds req 0x01 R.reg_GLB_EPOCH_CTRL [(R.GLB_EPOCH_CTRL_cancel, 1)])

/-! ### The security mailboxes (03_boot_images.md R84-R96) -/

/-- A mailbox command: the host writes mailbox 0, the management core mailbox 1. `f` carries the command out with what the
flash does. -/
def State.mboxOp (s : State) (req : Req) (op arg : Nat) (f : State → Nat → State) : State :=
  if !s.isl.up || s.mainHeld then s
  else if req = .flow then s.nonOwner
  else
    let m := if req = .host then 0 else 1
    let s := (s.wr R.SEC_MBOX_CMD_opcode op m).wr R.SEC_MBOX_CMD_arg arg m
    if s.mboxTakes m then (f s m).drainDue else s

def execUpdBegin (req : Req) (flashOk : Bool) (s : State) : Out := s.done (s.mboxOp req 1 0 (fun s m => s.updBegin m flashOk))
def execUpdData (req : Req) (flashOk : Bool) (s : State) : Out := s.done (s.mboxOp req 2 0 (fun s m => s.updData m flashOk))
def execUpdEnd (req : Req) (readOk : Bool) (s : State) : Out := s.done (s.mboxOp req 3 0 (fun s m => s.updEnd m readOk))
def execUpdAbort (req : Req) (s : State) : Out := s.done (s.mboxOp req 4 0 State.updAbort)
def execActivate (req : Req) (s : State) : Out := s.done (s.mboxOp req 5 0 State.activate)
def execFuseCommit (req : Req) (s : State) : Out := s.done (s.mboxOp req 6 0 State.fuseCommit)
def execSlotQuery (req : Req) (s : State) : Out := s.done (s.mboxOp req 7 0 State.slotQuery)
def execKeyRevoke (req : Req) (row : Fin 4) (s : State) : Out := s.done (s.mboxOp req 8 row (fun s m => s.keyRevoke m row))

/-! ### MEM_, SLC_, RNG_ (04_memories_ecc.md R106-R113; 06_slices.md R158-R178; 07_rings.md R183-R185) -/

def State.sliceOp (s : State) (req : Req) (op x : Nat) : State :=
  s.wrFlds req 0x05 R.reg_SLC_CMD [(R.SLC_CMD_go, 1), (R.SLC_CMD_op, op), (R.SLC_CMD_slice, x)]
def State.ringOp (s : State) (req : Req) (op r : Nat) (flush : Bool := false) : State :=
  s.wrFlds req 0x06 R.reg_RNG_CMD [(R.RNG_CMD_go, 1), (R.RNG_CMD_op, op), (R.RNG_CMD_flush, b2n flush), (R.RNG_CMD_ring, r)]

def execScrubGo (req : Req) (s : State) : Out := s.done (s.wrFlds req 0x11 R.reg_MEM_SCRUB_CMD [(R.MEM_SCRUB_CMD_go, 1)])
def execScrubAbort (req : Req) (s : State) : Out := s.done (s.wrFlds req 0x11 R.reg_MEM_SCRUB_CMD [(R.MEM_SCRUB_CMD_abort, 1)])
def execSpareGo (req : Req) (pc : Fin 64) (s : State) : Out := s.done (s.wrFlds req 0x11 R.reg_MEM_SPARE_CMD [(R.MEM_SPARE_CMD_go, 1), (R.MEM_SPARE_CMD_pc, pc)])
def execSliceActivate (req : Req) (x : Fin 4096) (s : State) : Out := s.done (s.sliceOp req 1 x)
def execSliceReset (req : Req) (x : Fin 4096) (s : State) : Out := s.done (s.sliceOp req 2 x)
def execSliceRemove (req : Req) (x : Fin 4096) (s : State) : Out := s.done (s.sliceOp req 3 x)
def execQuotaWrite (req : Req) (x : Fin 4096) (p : Fin 16) (v : Nat) (s : State) : Out := s.done (s.wrReg req 0x05 R.reg_SLC_QUOTA v 0 x p)
def execEvringWrite (req : Req) (x : Fin 4096) (v : Nat) (s : State) : Out := s.done (s.wrReg req 0x05 R.reg_SLC_STATE v 0 x)
def execRingCreate (req : Req) (r : Fin 65536) (s : State) : Out := s.done (s.ringOp req 1 r)
def execRingEnable (req : Req) (r : Fin 65536) (s : State) : Out := s.done (s.ringOp req 2 r)
def execRingDisable (req : Req) (r : Fin 65536) (flush : Bool) (s : State) : Out := s.done (s.ringOp req 3 r flush)
def execRingDestroy (req : Req) (r : Fin 65536) (s : State) : Out := s.done (s.ringOp req 4 r)
def execRingRead (req : Req) (r : Fin 65536) (s : State) : Out := s.done (s.ringOp req 5 r)

/-! ### PIPE_, SWC_, TM_, STQ_, TSK_ (09_parsing.md R245-R261; 10_forwarding_tables.md R265-R285; 11_switch_core.md R303; 12_traffic_management.md R322-R328;
14_storage_queues.md R362-R382; 16_tenant_sockets.md R412-R428) -/

/-- A write of an action index and then of the command. -/
def State.actOp (s : State) (req : Req) (n idx : Nat) (f : Fld) : State :=
  (s.wrReg req 0x08 R.reg_PIPE_ACT_IDX idx n n).wrFlds req 0x08 R.reg_PIPE_ACT_CMD [(f, 1)] n n
def State.polOp (s : State) (req : Req) (idx : Nat) (f : Fld) : State :=
  (s.wrReg req 0x0A R.reg_TM_POL_IDX idx).wrFlds req 0x0A R.reg_TM_POL_CMD [(f, 1)]
def State.volOp (s : State) (req : Req) (op v : Nat) (flush : Bool := false) : State :=
  s.wrFlds req 0x0C R.reg_STQ_CMD [(R.STQ_CMD_go, 1), (R.STQ_CMD_op, op), (R.STQ_CMD_flush, b2n flush), (R.STQ_CMD_volume, v)]

def execVerCommit (req : Req) (n : Fin 9) (s : State) : Out := s.done (s.wrReg req 0x08 R.reg_PIPE_VER_COMMIT 1 n n)
def execVerDiscard (req : Req) (n : Fin 9) (s : State) : Out := s.done (s.wrReg req 0x08 R.reg_PIPE_VER_COMMIT 2 n n)
def execActWrite (req : Req) (n : Fin 9) (idx : Fin 65536) (s : State) : Out := s.done (s.actOp req n idx R.PIPE_ACT_CMD_write)
def execActRead (req : Req) (n : Fin 9) (idx : Fin 65536) (s : State) : Out := s.done (s.actOp req n idx R.PIPE_ACT_CMD_read)
def execSleeveTake (req : Req) (n : Fin 8) (clone : Bool) (s : State) : Out := s.done (s.wrFlds req 0x09 R.reg_SWC_SLEEVE_CMD [(R.SWC_SLEEVE_CMD_go, 1), (R.SWC_SLEEVE_CMD_op, 1), (R.SWC_SLEEVE_CMD_clone, b2n clone), (R.SWC_SLEEVE_CMD_pipe, n)])
def execSleeveReturn (req : Req) (clone : Bool) (s : State) : Out := s.done (s.wrFlds req 0x09 R.reg_SWC_SLEEVE_CMD [(R.SWC_SLEEVE_CMD_go, 1), (R.SWC_SLEEVE_CMD_op, 2), (R.SWC_SLEEVE_CMD_clone, b2n clone)])
def execPolWrite (req : Req) (p : Fin 65536) (s : State) : Out := s.done (s.polOp req p R.TM_POL_CMD_write)
def execPolRead (req : Req) (p : Fin 65536) (s : State) : Out := s.done (s.polOp req p R.TM_POL_CMD_read)
def execPolClear (req : Req) (p : Fin 65536) (s : State) : Out := s.done (s.polOp req p R.TM_POL_CMD_clear)
def execGateForceWrite (req : Req) (v : Nat) (s : State) : Out := s.done (s.wrReg req 0x0A R.reg_TM_GATE_FORCE v)
def execVolCreate (req : Req) (v : Fin 4096) (s : State) : Out := s.done (s.volOp req 1 v)
def execVolModify (req : Req) (v : Fin 4096) (s : State) : Out := s.done (s.volOp req 2 v)
def execVolRestart (req : Req) (v : Fin 4096) (flush : Bool) (s : State) : Out := s.done (s.volOp req 3 v flush)
def execVolDestroy (req : Req) (v : Fin 4096) (s : State) : Out := s.done (s.volOp req 4 v)
def execVolRead (req : Req) (v : Fin 4096) (s : State) : Out := s.done (s.volOp req 5 v)
def execWinCommit (req : Req) (n : Fin 8) (s : State) : Out := s.done (s.wrReg req 0x0E R.reg_TSK_WIN_COMMIT 1 n n)
def execPowerOnRequest (req : Req) (n : Fin 8) (s : State) : Out := s.done (s.wrReg req 0x0E R.reg_TSK_PWR_CTRL 1 n n)
def execPowerOffRequest (req : Req) (n : Fin 8) (s : State) : Out := s.done (s.wrReg req 0x0E R.reg_TSK_PWR_CTRL 2 n n)

/-! ### FCR_ (17_flow_cores.md R443, R449, R466-R468) -/

def State.threadOp (s : State) (req : Req) (h : Nat) (en : Bool) : State :=
  s.wrFlds req 0x0F R.reg_FCR_THREAD_CFG [(R.FCR_THREAD_CFG_enable, b2n en)] (h / 16) (h / 16) (h % 16)

def State.dbgOp (s : State) (req : Req) (h : Nat) (f : Fld) : State := s.wrFlds req 0x0F R.reg_FCR_DBG_CTRL [(f, 1)] (h / 16) (h / 16) (h % 16)

/-- The core's clocks run until the thread that steps has issued its instruction. -/
def State.stepRun : Nat → Nat → State → State
  | 0, _, s => s
  | k + 1, h, s =>
    if (s.hart h).stepping && (s.hart h).state == 1 then State.stepRun k h (s.issue (h / 16)) else s

/-- STEP: a slot thread issues within 16 clocks, a fill thread in the first clock that no slot thread takes. -/
def State.stepCmd (s : State) (req : Req) (h : Nat) : State := (State.stepRun 24 h (s.dbgOp req h R.FCR_DBG_CTRL_step)).drainDue

/-- The register of a thread that FCR_DBG_SEL names. -/
def State.dbgAccess (s : State) (req : Req) (c t reg : Nat) (wr : Bool) : State :=
  s.wrReg req 0x0F R.reg_FCR_DBG_SEL (reg + t * 2 ^ 13 + b2n wr * 2 ^ 30 + 2 ^ 31) c c

def execThreadEnable (req : Req) (h : Fin 1024) (s : State) : Out := s.done (s.threadOp req h true)
def execThreadDisable (req : Req) (h : Fin 1024) (s : State) : Out := s.done (s.threadOp req h false)
def execChCfgWrite (req : Req) (c ch : Fin 64) (v : Nat) (s : State) : Out := s.done (s.wrReg req 0x0F R.reg_FCR_CH_CFG v c c ch)
def execHalt (req : Req) (h : Fin 1024) (s : State) : Out := s.done (s.dbgOp req h R.FCR_DBG_CTRL_halt)
def execResume (req : Req) (h : Fin 1024) (s : State) : Out := s.done (s.dbgOp req h R.FCR_DBG_CTRL_resume)
def execStep (req : Req) (h : Fin 1024) (s : State) : Out := s.done (s.stepCmd req h)
def execDiscardOutbox (req : Req) (h : Fin 1024) (s : State) : Out := s.done (s.dbgOp req h R.FCR_DBG_CTRL_discard_outbox)
def execDbgRead (req : Req) (c : Fin 64) (t : Fin 16) (reg : Fin 8192) (s : State) : Out := s.done (s.dbgAccess req c t reg false)
def execDbgWrite (req : Req) (c : Fin 64) (t : Fin 16) (reg : Fin 8192) (s : State) : Out := s.done (s.dbgAccess req c t reg true)

/-! ### VLT_, PMC_, HLT_, MGT_ (18_cipher_vault.md R479, R484; 19_counters_telemetry.md R492-R498; 20_health_test.md R510;
21_management.md R521-R531) -/

def State.unitOp (s : State) (req : Req) (op kind index : Nat) (drain force : Bool) : State :=
  s.wrFlds req 0x13 R.reg_HLT_CMD [(R.HLT_CMD_go, 1), (R.HLT_CMD_op, op), (R.HLT_CMD_drain, b2n drain), (R.HLT_CMD_force, b2n force),
    (R.HLT_CMD_kind, kind), (R.HLT_CMD_index, index)]

def execLockBreak (req : Req) (e : Fin 64) (s : State) : Out := s.done (s.wrReg req 0x10 R.reg_VLT_ENG_LOCK (2 ^ 31) 0 e)
def execZeroiseAll (req : Req) (s : State) : Out := s.done (s.wrReg req 0x10 R.reg_VLT_ZEROISE 1)
def execPmcSnap (req : Req) (s : State) : Out := s.done (s.wrReg req 0x12 R.reg_PMC_CTRL 1)
def execCtrValWrite (req : Req) (c : Fin 256) (v : Nat) (s : State) : Out := s.done (s.wrReg req 0x12 R.reg_PMC_CTR_VAL (v % 2 ^ 48) 0 c)
def execHistClear (req : Req) (h : Fin 16) (s : State) : Out := s.done (s.wrFlds req 0x12 R.reg_PMC_HIST_CFG [(R.PMC_HIST_CFG_clear, 1)] 0 h)
def execDumpNow (req : Req) (s : State) : Out := s.done (s.wrReg req 0x12 R.reg_PMC_DUMP_CMD 1)
def execUnitTest (req : Req) (kind : Fin 8) (index : Fin 128) (drain force : Bool) (s : State) : Out := s.done (s.unitOp req 1 kind index drain force)
def execUnitFence (req : Req) (kind : Fin 8) (index : Fin 128) (drain force : Bool) (s : State) : Out := s.done (s.unitOp req 2 kind index drain force)
def execUnitReturn (req : Req) (kind : Fin 8) (index : Fin 128) (s : State) : Out := s.done (s.unitOp req 3 kind index false false)
def execMgtMainReset (req : Req) (s : State) : Out := s.done (s.wrReg req 0x14 R.reg_MGT_CTRL (2 ^ 31))
def execH2mGo (req : Req) (len : Fin 512) (s : State) : Out := s.done (s.wrReg req 0x14 R.reg_MGT_H2M_CTRL (2 ^ 31 + len))
def execLogIdxWrite (req : Req) (seq : Nat) (s : State) : Out := s.done (s.wrReg req 0x14 R.reg_MGT_LOG_IDX seq)

/-! ### The management path (R525) -/

/-- The offset lies in BAR0 and the width is that of what stands there. -/
def State.mgmtBad (s : State) (off size : Nat) : Bool :=
  (size ≠ 4 && size ≠ 8) || off % size != 0 || 2 ^ 26 ≤ off || s.busFault off size && (match s.find off size with
    | .none => true
    | _ => false)

/-- The main domain is in reset and the block is not MGT_. -/
def State.mgmtHeld (s : State) (off : Nat) : Bool := s.mainHeld && (blkAt off).all (fun b => b.1.code != 0x14)

/-- The management core may not write what stands at the offset (R16). -/
def State.mgmtOwner (s : State) (off size : Nat) : Bool := match s.find off size with
  | .whole b n r i _ _ | .high b n r i _ _ => r.flds.any Fld.writable && !s.mayWrite .mgmt b n r i
  | .header b n o => ((o == 8 && b.code != 0x14) || (o == 0x10 && b.levels)) && !s.ownerOk .mgmt (b.base + n * b.stride)
  | _ => false

/-- REG_READ. -/
def State.regReadMsg (s : State) (inst off size : Nat) : State :=
  if s.mgmtBad off size then s.vendor 1 inst 1 (leBytes 8 0)
  else if s.mgmtHeld off then s.vendor 1 inst 2 (leBytes 8 (2 ^ (8 * size) - 1))
  else let r := s.busRead .mgmt off size; r.2.vendor 1 inst 0 (leBytes 8 r.1)

/-- REG_WRITE. -/
def State.regWriteMsg (s : State) (inst off size v : Nat) : State :=
  if s.mgmtBad off size then s.vendor 2 inst 1
  else if s.mgmtHeld off then s.vendor 2 inst 2
  else (s.busPut .mgmt off size v).vendor 2 inst (if s.mgmtOwner off size then 3 else 0)

def execRegRead (inst : Fin 256) (off size : Nat) (s : State) : Out := s.whenIsland (·.regReadMsg inst off size)
def execRegWrite (inst : Fin 256) (off size v : Nat) (s : State) : Out := s.whenIsland (·.regWriteMsg inst off size v)

end Sys2Proof.Machine
end

