-- ==== Sys2Proof/Machine/Late.lean ====
section
/-! DEFINITION. The commands that touch several blocks at once: the release of the main domain and the opening of the cuff,
the start of a descriptor, frames and flits on their way in and out, lane faults, module power, the host's requests and
mirrored writes. -/

namespace Sys2Proof.Machine

/-! ### Release and cuff (03_boot_images.md R70, R79, R80; 17_flow_cores.md R444) -/

/-- MAIN_RELEASE: the fill is done and segment 0 is loaded; thread 0 of core 0 starts at the entry point. -/
def State.mainRelease (s : State) : State :=
  if s.rd R.SEC_BOOT_STATUS_state = 1 ∧ s.sec.fillDone ∧ bit (s.rd R.SEC_LOAD_PROGRESS_seg_done) 0 then
    let h := (s.slot (s.rd R.SEC_BOOT_STATUS_slot)).hdr
    let s := s.release.wr R.FCR_THREAD_PC_pc (0x2000000 + (hdrSeg h 0).2.2 + hdrEntry h) 0 0
    (s.wr R.FCR_THREAD_CFG_slice 0 0 0).threadEnable 0
  else s

/-- What the release of the holds starts: ports and links train, the key store takes the transport key, present modules
are powered, readiness messages are owed (R80; 05_host_interface.md R153; 16_tenant_sockets.md R427; 18_cipher_vault.md R476). -/
def State.afterCuff (s : State) : State :=
  let s := (List.range 64).foldl State.startPort s
  let s := (List.range 10).foldl State.linkStart s
  let s := s.loadTransport
  let s := (List.range 8).foldl (fun s n =>
    if s.on R.TSK_CFG_auto_power n ∧ s.rd R.TSK_STATUS_prsnt n = 1 ∧ s.sockPwr n = 0 then s.powerRequest n else s) s
  [(0, 0), (0, 1), (1, 0), (1, 1)].foldl (fun s p => if s.linkUp p.1 p.2 then s.owe (100 + 2 * p.1 + p.2) else s) s

/-- CUFF_OPEN. -/
def State.cuffOpens (s : State) : State :=
  let t := s.openCuff
  if s.cuffOpen = false ∧ t.cuffOpen then t.afterCuff.drainDue else t

def execMainRelease (s : State) : Out := s.done s.mainRelease
def execCuffOpen (s : State) : Out := s.done s.cuffOpens

/-! ### Descriptors (07_rings.md R190, R202; 14_storage_queues.md R373; 17_flow_cores.md R460) -/

/-- DESCRIPTOR_START: the entry at head starts unless its ring holds sends, or its channel has no room; an entry of a work
ring is handed to its channel, and the payload of a SEND in host memory is asked for. -/
def State.descStart (s : State) (r : Nat) : State :=
  if s.sendHeld r || s.workFull r then s
  else match s.startEntry r with
    | (s, none) => s
    | (s, some c) => match s.ring r, s.flight r c with
      | some x, some g => if x.type = 5 then s.workMessage r c else if g.staged then s else s.payloadRead r x g
      | _, _ => s

/-- A send queue entry that has not been started is not performed any more once its descriptor is aborted (07_rings.md R202):
the RDMA engine gives it up. -/
def State.unsent (s : State) (r c : Nat) : State :=
  match s.qpList.find? (fun p => p.2.sq.any (fun w => w.own == some (r, c) && w.psn.isNone)) with
  | some (q, _) => (s.modQp q (fun x => { x with sq := x.sq.filter (fun w => w.own != some (r, c)) })).modFlight r c (fun g => { g with performed := false })
  | none => s

/-- ABORT_ARRIVE: the storage engine ends its own commands. -/
def State.abortArrives (s : State) : State :=
  match s.rng.aborts with
  | [] => s
  | a :: rest =>
    let free := match s.flight a.tRing a.tCount with
      | some g => g.cpl.isNone
      | none => false
    if !free then s.abortArrive
    else match ({ s with rng := { s.rng with aborts := rest } } : State).stqAbort a.tRing a.tCount with
      | some t =>
        let t := match (s.flight a.tRing a.tCount).bind (·.tag) with
          | some g => t.bumpTag g
          | none => t
        t.finish a.ring a.count { status := 0 }
      | none => (s.unsent a.tRing a.tCount).abortArrive

def execDescriptorStart (r : Fin 65536) (s : State) : Out := s.whenMain (fun s => (s.descStart r).drainDue)
def execAbortArrive (s : State) : Out := s.whenMain (fun s => s.abortArrives.drainDue)

/-! ### Frames (08_network_ports.md R218, R226; 21_management.md R529, R530) -/

/-- FRAME_RECEIVE: the MAC's checks, then the management controller's filters, then the pipeline of the port's group. -/
def State.frameReceive (s : State) (p : Nat) (data : List Byte) (whole : Bool) (f : Fcs) : State :=
  match s.macReceive p data whole f with
  | (s, none) => s
  | (s, some x) => match s.ncsiDivert p x with
    | (true, s) => s.toPipe (p / 8) x
    | (false, s) => s

/-- FRAME_TRANSMIT: after the frame, the timestamps that are due, a PFC frame that is owed, and the management controller's
frames. -/
def State.frameSent (s : State) (p : Nat) : State := (((s.frameTransmit p).tsFlush).pfcSend p).ncsiFlush p

def execFrameReceive (p : Fin 64) (data : List Byte) (whole : Bool) (f : Fcs) (s : State) : Out :=
  s.whenMain (fun s => (s.frameReceive p data whole f).drainDue)
def execFrameTransmit (p : Fin 64) (s : State) : Out := s.whenMain (fun s => (s.frameSent p).drainDue)

/-! ### Lanes (08_network_ports.md R227, R228; 15_wilotte_link.md R403) -/

/-- The lanes that a lane can be shorted to: a network lane to any network lane, a link's lane to those of its link. -/
def sameLanes (l : Nat) (other : Option Nat) : Bool := match other with
  | none => true
  | some m => m != l && (if l < 64 then decide (m < 64) else m / 8 == l / 8)

/-- The transmitter of a lane, by its number among all lanes, is shut. -/
def State.laneIsShut (s : State) (l : Nat) : Bool := if l < 64 then s.laneShut l else s.linkShut ((l - 64) / 8) ((l - 64) % 8)

/-- LANE_SHORT: a transmitter that is not shut is found shorted. -/
def State.laneShorted (s : State) (l : Nat) (other : Option Nat) : State :=
  if !sameLanes l other || s.laneIsShut l then s
  else if l < 64 then s.netLaneShort l other
  else s.linkLaneShort ((l - 64) / 8) ((l - 64) % 8) (other.map (fun m => (m - 64) % 8))

/-- Block, instance, register, indices and fault fields of a lane. -/
def laneReg (l : Nat) : Nat × Nat × RegDef × Nat × Nat × Fld × Fld :=
  if l < 64 then (0x07, l / 8, R.reg_PRT_LANE_STATUS, l / 8, l % 8, R.PRT_LANE_STATUS_short_gnd, R.PRT_LANE_STATUS_short_lane)
  else if l < 128 then (0x0D, (l - 64) / 8, R.reg_WLK_LANE_STATUS, (l - 64) / 8, l % 8, R.WLK_LANE_STATUS_short_gnd, R.WLK_LANE_STATUS_short_lane)
  else (0x15, 0, R.reg_PAR_LANE_STATUS, l - 128, 0, R.PAR_LANE_STATUS_short_gnd, R.PAR_LANE_STATUS_short_lane)

/-- LANE_RETRY: a 1 is written to the fault bit that is set; `persists` says whether the lane is found shorted again. -/
def State.laneRetryCmd (s : State) (req : Req) (l : Nat) (persists : Bool) : State :=
  let (code, n, r, i, j, gnd, lane) := laneReg l
  if !s.blkOpen (blkOf code) n then s
  else if s.mayWrite req (blkOf code) n r i then s.laneWr l (s.getReg r i j 0) (2 ^ gnd.lo + 2 ^ lane.lo) gnd lane persists
  else s.nonOwner

def execLaneShort (l : Fin 144) (other : Option (Fin 144)) (s : State) : Out :=
  s.whenMain (fun s => (s.laneShorted l (other.map (·.val))).drainDue)
def execLaneRetry (req : Req) (l : Fin 144) (persists : Bool) (s : State) : Out := s.done (s.laneRetryCmd req l persists).drainDue

/-! ### Flits (15_wilotte_link.md R389-R404; 22_redundant_pair.md R533) -/

/-- What a received flit does on an ACTIVE link, by its type. -/
def State.flitAct (s : State) (n : Nat) (f : Flit) : State :=
  if f.type = 1 then (let s := s.dataFlit n f; if n < 8 then s.dropMalformed n else s.pairMalformed n)
  else if f.type = 3 then s.nakRx n f
  else if f.type = 5 then s.linkDown n 4
  else s

/-- A flit arrives on a link: in CONFIG a TRAIN flit counts, in ACTIVE every other one. -/
def State.flitIn (s : State) (n : Nat) (bs : List Byte) (fecOk : Bool) : State :=
  if (s.link n).state = 3 then s.trainRx n bs fecOk else s.flitRx n bs fecOk (fun s f => s.flitAct n f)

def execFlitTransmit (n : Fin 10) (s : State) : Out := s.whenMain (fun s => (s.flitTransmit n).drainDue)
def execDataFlitRx (n : Fin 10) (bs : List Byte) (fecOk : Bool) (s : State) : Out := s.whenMain (fun s => (s.flitIn n bs fecOk).drainDue)
def execCtrlFlitRx (n : Fin 10) (bs : List Byte) (fecOk : Bool) (s : State) : Out := s.whenMain (fun s => (s.flitIn n bs fecOk).drainDue)
def execNakRx (n : Fin 10) (bs : List Byte) (fecOk : Bool) (s : State) : Out := s.whenMain (fun s => (s.flitIn n bs fecOk).drainDue)
def execTrainRx (n : Fin 10) (bs : List Byte) (fecOk : Bool) (s : State) : Out := s.whenMain (fun s => (s.flitIn n bs fecOk).drainDue)
def execDownRx (n : Fin 10) (bs : List Byte) (fecOk : Bool) (s : State) : Out := s.whenMain (fun s => (s.flitIn n bs fecOk).drainDue)
def execReplayTimeout (n : Fin 10) (s : State) : Out := s.whenMain (fun s => (s.replayTimeout n).drainDue)
def execLinkSignalDetect (n : Fin 10) (s : State) : Out := s.whenMain (·.linkSignal n)
def execLinkLock (n : Fin 10) (inverted : Fin 256) (s : State) : Out := s.whenMain (·.linkLock n inverted)
def execLockTimeout (n : Fin 10) (s : State) : Out := s.whenMain (·.linkTimeout n 2 100)
def execConfigTimeout (n : Fin 10) (s : State) : Out := s.whenMain (·.linkTimeout n 3 10)
def execLinkDownCause (n : Fin 10) (cause : Fin 8) (s : State) : Out :=
  s.whenMain (fun s => if cause.val = 0 then s else (s.linkDown n cause).drainDue)
def execDownEnd (n : Fin 10) (s : State) : Out := s.whenMain (·.downEnd n)

/-! ### Module power (16_tenant_sockets.md R425-R430) -/

def execPresenceChange (n : Fin 8) (a b : Bool) (s : State) : Out := s.whenMain (fun s => (s.presence n a b).drainDue)
def execQuiesceWaitEnd (n : Fin 8) (s : State) : Out := s.whenMain (fun s => (s.quiesceEnd n).drainDue)
def execPowerFault (n : Fin 8) (overcurrent removed : Bool) (ma : Nat) (s : State) : Out :=
  s.whenMain (fun s => (s.powerFault n overcurrent removed ma).drainDue)

/-- SOCKET_CPL_RX and SOCKET_RD_TIMEOUT: what waits for the read goes on. -/
def execSocketCplRx (n : Fin 8) (s : State) : Out := s.whenMain (fun s => (s.sockCpl n).drainDue)
def execSocketRdTimeout (n : Fin 8) (tag : Fin 4096) (s : State) : Out := s.whenMain (fun s => (s.sockRdTimeout n tag).drainDue)

/-! ### Requests of the host (05_host_interface.md R137) -/

/-- The BAR of a function that an address lies in, with the offset. -/
def State.barHit (s : State) (fn addr : Nat) : Option (Nat × Nat) :=
  [0, 2, 4].findSome? (fun n => match s.barSize fn n with
    | none => none
    | some (sz, _) => if addr / 2 ^ sz = ((s.func fn).barAddr n) / 2 ^ sz then some (n, addr % 2 ^ sz) else none)

/-- A memory read of `len` bytes. -/
def State.memRead (s : State) (fn addr len : Nat) : State :=
  match s.barHit fn addr with
  | none => s.unsupported fn false
  | some (0, off) =>
    if (len = 4 ∨ len = 8) ∧ off % len = 0 then let r := s.busRead .host off len; r.2.sendHost (.cplData fn r.1)
    else (s.hifErr fn 0).sendHost (.cplData fn 0)
  | some (2, off) =>
    if off < 0xFF0000 then (s.hifErr fn 1).sendHost (.cplData fn 0) else s.msixAccess fn off len none
  | some (_, off) => s.bar4 fn off (min len 4096) none

/-- A memory write. -/
def State.memWrite (s : State) (fn addr : Nat) (data : List Byte) : State :=
  let len := data.length
  match s.barHit fn addr with
  | none => s.unsupported fn true
  | some (0, off) => if (len = 4 ∨ len = 8) ∧ off % len = 0 then s.busWrite .host off len (leNat data) else s.hifErr fn 0
  | some (2, off) =>
    if 0xFF0000 ≤ off then s.msixAccess fn off len (some (leNat data))
    else if len = 8 ∧ off % 8 = 0 then s.pageDoorbell fn (off / 4096) (leNat data)
    else s.hifErr fn 1
  | some (_, off) => s.bar4 fn off len (some (data.take 4096))

/-- INBOUND_REQUEST (table Inbound request handling). -/
def State.inbound (s : State) (fn : Nat) (q : InReq) : State :=
  if !s.linkUp (fn / 8) (s.fnLink fn) then s
  else match q with
    | .memRead a n => if s.memOk fn then s.memRead fn a n else s.unsupported fn false
    | .memWrite a d poison =>
      if !s.memOk fn then s.unsupported fn true
      else if poison then s.aer fn .poisonedTlp
      else s.memWrite fn a d
    | .io => s.unsupported fn false
    | .lockedRead => s.unsupported fn false
    | .atomic => s.unsupported fn false
    | .vendorMessage => s.unsupported fn true
    | .configType1 => if s.fnEnabled fn && !s.fnReady fn then s.sendHost (.cplRrs fn) else s.unsupported fn false

def execInboundRequest (hif : Fin 2) (pf : Fin 8) (q : InReq) (s : State) : Out :=
  s.whenMain (fun s => (s.inbound (8 * hif + pf) q).drainDue)

/-! ### Mirrored writes (22_redundant_pair.md R539) -/

/-- `a` is before `b` in 16-bit serial arithmetic. -/
def before16 (a b : Nat) : Bool := let d := (b + 65536 - a % 65536) % 65536; 0 < d && d < 32768

/-- Apply a mirrored write as the block's current owner; it is not mirrored again. -/
def State.mirrorApply (s : State) (off width v : Nat) : State :=
  let side := fun (a : Nat) => if s.rd hdrOwner a = 1 then Req.mgmt else Req.host
  match s.find off width with
  | .whole b n r i j k => s.regApply (side (b.base + n * b.stride)) b n r i j k (v % 2 ^ (8 * width))
  | .header b n o => s.headerApply (side (b.base + n * b.stride)) b n o (v % 2 ^ 32)
  | _ => s

/-- MIRROR: the next mirrored write of a sublink, unless the other sublink holds an earlier one. -/
def State.mirrorRx (s : State) (n : Nat) : State :=
  match s.nextTxn n 0x41 with
  | none => s
  | some e =>
    let first := match s.nextTxn (17 - n) 0x41 with
      | some x => !before16 x.2.tag e.2.tag
      | none => true
    if !first then s
    else
      let s := s.leaveRx n e
      if s.ac R.PAR_CFG_mirror_rx = 0 then s.pairCnt 3
      else s.mirrorApply (fieldLE e.2.data 8 4) (fieldLE e.2.data 0xC 1) (fieldLE e.2.data 0x10 8)

def execMirror (sub : Fin 2) (s : State) : Out := s.whenMain (fun s => (s.mirrorRx (8 + sub)).drainDue)

end Sys2Proof.Machine
end

