-- ==== Sys2Proof/Machine/Dispatch.lean ====
section
/-! DEFINITION. One arm per command: the meaning that the command has. -/

namespace Sys2Proof.Machine

def exec (i : Instr) (s : State) : Host.Outcome State Fault Refusal :=
  match i with
  | .registerWrite req off size value => Sys2Proof.Machine.execRegisterWrite req off size value s
  | .lowHalfWrite req off value => Sys2Proof.Machine.execLowHalfWrite req off value s
  | .highHalfWrite req off value => Sys2Proof.Machine.execHighHalfWrite req off value s
  | .lowHalfRead req off => Sys2Proof.Machine.execLowHalfRead req off s
  | .highHalfRead req off => Sys2Proof.Machine.execHighHalfRead req off s
  | .rcRead req off size => Sys2Proof.Machine.execRcRead req off size s
  | .hostHeartbeat req value => Sys2Proof.Machine.execHostHeartbeat req value s
  | .hbCfgWrite req value => Sys2Proof.Machine.execHbCfgWrite req value s
  | .heartbeatLapse => Sys2Proof.Machine.execHeartbeatLapse s
  | .seize req => Sys2Proof.Machine.execSeize req s
  | .ownerWrite req base value => Sys2Proof.Machine.execOwnerWrite req base value s
  | .ftSnap req => Sys2Proof.Machine.execFtSnap req s
  | .ftSourceChange req value => Sys2Proof.Machine.execFtSourceChange req value s
  | .ftRateWrite req value => Sys2Proof.Machine.execFtRateWrite req value s
  | .stepGo req => Sys2Proof.Machine.execStepGo req s
  | .setGo req => Sys2Proof.Machine.execSetGo req s
  | .ftMboxState req core value => Sys2Proof.Machine.execFtMboxState req core value s
  | .ppsEdge edge rate => Sys2Proof.Machine.execPpsEdge edge rate s
  | .ppsLost => Sys2Proof.Machine.execPpsLost s
  | .refLost => Sys2Proof.Machine.execRefLost s
  | .launchPrefetch r => Sys2Proof.Machine.execLaunchPrefetch r s
  | .launchRelease r => Sys2Proof.Machine.execLaunchRelease r s
  | .wdogKick req w => Sys2Proof.Machine.execWdogKick req w s
  | .wdogExpire w => Sys2Proof.Machine.execWdogExpire w s
  | .epochGo req => Sys2Proof.Machine.execEpochGo req s
  | .epochCancel req => Sys2Proof.Machine.execEpochCancel req s
  | .unitAck unit => Sys2Proof.Machine.execUnitAck unit s
  | .epochRefuse unit => Sys2Proof.Machine.execEpochRefuse unit s
  | .epochDeadline => Sys2Proof.Machine.execEpochDeadline s
  | .epochApply failing => Sys2Proof.Machine.execEpochApply failing s
  | .islandPowerOn => Sys2Proof.Machine.execIslandPowerOn s
  | .aonReset addr pkg => Sys2Proof.Machine.execAonReset addr pkg s
  | .mainPowerGood bif0 bif1 romOk => Sys2Proof.Machine.execMainPowerGood bif0 bif1 romOk s
  | .fillDone ok us bankFail xbarFail => Sys2Proof.Machine.execFillDone ok us bankFail xbarFail s
  | .mainRelease => Sys2Proof.Machine.execMainRelease s
  | .segmentLoaded n => Sys2Proof.Machine.execSegmentLoaded n s
  | .cuffOpen => Sys2Proof.Machine.execCuffOpen s
  | .bootAttemptFail status => Sys2Proof.Machine.execBootAttemptFail status s
  | .updBegin req flashOk => Sys2Proof.Machine.execUpdBegin req flashOk s
  | .updData req flashOk => Sys2Proof.Machine.execUpdData req flashOk s
  | .updEnd req readOk => Sys2Proof.Machine.execUpdEnd req readOk s
  | .updAbort req => Sys2Proof.Machine.execUpdAbort req s
  | .updTimeout => Sys2Proof.Machine.execUpdTimeout s
  | .activate req => Sys2Proof.Machine.execActivate req s
  | .fuseCommit req => Sys2Proof.Machine.execFuseCommit req s
  | .fuseDeadline => Sys2Proof.Machine.execFuseDeadline s
  | .fuseBlown => Sys2Proof.Machine.execFuseBlown s
  | .slotQuery req => Sys2Proof.Machine.execSlotQuery req s
  | .keyRevoke req row => Sys2Proof.Machine.execKeyRevoke req row s
  | .memAccess m addr op found => Sys2Proof.Machine.execMemAccess m addr op found s
  | .ceWindow => Sys2Proof.Machine.execCeWindow s
  | .patrolRead m word found => Sys2Proof.Machine.execPatrolRead m word found s
  | .scrubGo req => Sys2Proof.Machine.execScrubGo req s
  | .scrubAbort req => Sys2Proof.Machine.execScrubAbort req s
  | .scrubDone finds => Sys2Proof.Machine.execScrubDone finds s
  | .tcamSweep parityOk => Sys2Proof.Machine.execTcamSweep parityOk s
  | .tcamRestore shadowOk => Sys2Proof.Machine.execTcamRestore shadowOk s
  | .spareGo req pc => Sys2Proof.Machine.execSpareGo req pc s
  | .spareDone => Sys2Proof.Machine.execSpareDone s
  | .linkTrainRetry hif link => Sys2Proof.Machine.execLinkTrainRetry hif link s
  | .dlActive hif link flitMode rate width => Sys2Proof.Machine.execDlActive hif link flitMode rate width s
  | .readinessMessage => Sys2Proof.Machine.execReadinessMessage s
  | .linkDown hif link => Sys2Proof.Machine.execLinkDown hif link s
  | .configRequest hif pf reg write => Sys2Proof.Machine.execConfigRequest hif pf reg write s
  | .bmeClear hif pf => Sys2Proof.Machine.execBmeClear hif pf s
  | .bmeSet hif pf => Sys2Proof.Machine.execBmeSet hif pf s
  | .heldRequestIssue hif pf => Sys2Proof.Machine.execHeldRequestIssue hif pf s
  | .flr hif pf => Sys2Proof.Machine.execFlr hif pf s
  | .flrDone hif pf => Sys2Proof.Machine.execFlrDone hif pf s
  | .d3hotEnter hif pf => Sys2Proof.Machine.execD3hotEnter hif pf s
  | .d3hotToD0 hif pf => Sys2Proof.Machine.execD3hotToD0 hif pf s
  | .atsDisable hif pf => Sys2Proof.Machine.execAtsDisable hif pf s
  | .translationCompletion hif pf id granted target size rd wr => Sys2Proof.Machine.execTranslationCompletion hif pf id granted target size rd wr s
  | .invalidationRequest hif pf itag pasid global_ addr size => Sys2Proof.Machine.execInvalidationRequest hif pf itag pasid global_ addr size s
  | .invalidationCompletion hif pf => Sys2Proof.Machine.execInvalidationCompletion hif pf s
  | .msixFire hif pf vector => Sys2Proof.Machine.execMsixFire hif pf vector s
  | .msixUnmask hif pf vector => Sys2Proof.Machine.execMsixUnmask hif pf vector s
  | .msixTableAccess hif pf off size write => Sys2Proof.Machine.execMsixTableAccess hif pf off size write s
  | .inboundRequest hif pf rq => Sys2Proof.Machine.execInboundRequest hif pf rq s
  | .bar4Access hif pf off len write => Sys2Proof.Machine.execBar4Access hif pf off len write s
  | .readCompletion hif pf tag status poison data => Sys2Proof.Machine.execReadCompletion hif pf tag status poison data s
  | .cplTimeout hif pf tag => Sys2Proof.Machine.execCplTimeout hif pf tag s
  | .sliceActivate req slice => Sys2Proof.Machine.execSliceActivate req slice s
  | .sliceReset req slice => Sys2Proof.Machine.execSliceReset req slice s
  | .sliceRemove req slice => Sys2Proof.Machine.execSliceRemove req slice s
  | .sliceGenAdvance slice => Sys2Proof.Machine.execSliceGenAdvance slice s
  | .sliceSequenceEnd slice => Sys2Proof.Machine.execSliceSequenceEnd slice s
  | .pageClearDone => Sys2Proof.Machine.execPageClearDone s
  | .quotaWrite req slice pool value => Sys2Proof.Machine.execQuotaWrite req slice pool value s
  | .evringWrite req slice value => Sys2Proof.Machine.execEvringWrite req slice value s
  | .ringCreate req ring => Sys2Proof.Machine.execRingCreate req ring s
  | .ringEnable req ring => Sys2Proof.Machine.execRingEnable req ring s
  | .ringDisable req ring flush => Sys2Proof.Machine.execRingDisable req ring flush s
  | .ringDestroy req ring => Sys2Proof.Machine.execRingDestroy req ring s
  | .ringRead req ring => Sys2Proof.Machine.execRingRead req ring s
  | .ringDrained r => Sys2Proof.Machine.execRingDrained r s
  | .ringHuskLoaded r => Sys2Proof.Machine.execRingHuskLoaded r s
  | .ringEvict r => Sys2Proof.Machine.execRingEvict r s
  | .doorbellPost hif pf page gen count => Sys2Proof.Machine.execDoorbellPost hif pf page gen count s
  | .doorbellAck hif pf page gen count => Sys2Proof.Machine.execDoorbellAck hif pf page gen count s
  | .descriptorRead r => Sys2Proof.Machine.execDescriptorRead r s
  | .descriptorStart ring => Sys2Proof.Machine.execDescriptorStart ring s
  | .refetch r => Sys2Proof.Machine.execRefetch r s
  | .nop r => Sys2Proof.Machine.execNop r s
  | .wait r => Sys2Proof.Machine.execWait r s
  | .waitSatisfied r => Sys2Proof.Machine.execWaitSatisfied r s
  | .waitTimeout r => Sys2Proof.Machine.execWaitTimeout r s
  | .waitGone r => Sys2Proof.Machine.execWaitGone r s
  | .abort r => Sys2Proof.Machine.execAbort r s
  | .abortArrive => Sys2Proof.Machine.execAbortArrive s
  | .completionWrite r => Sys2Proof.Machine.execCompletionWrite r s
  | .modTimer r => Sys2Proof.Machine.execModTimer r s
  | .send r => Sys2Proof.Machine.execSend r s
  | .recvBuf r => Sys2Proof.Machine.execRecvBuf r s
  | .rxDeliver n => Sys2Proof.Machine.execRxDeliver n s
  | .eventSlot r => Sys2Proof.Machine.execEventSlot r s
  | .eventRecord => Sys2Proof.Machine.execEventRecord s
  | .anResolved p rate => Sys2Proof.Machine.execAnResolved p rate s
  | .anRestart p => Sys2Proof.Machine.execAnRestart p s
  | .trainTimeout p => Sys2Proof.Machine.execTrainTimeout p s
  | .portUp p inv => Sys2Proof.Machine.execPortUp p inv s
  | .portFault p remote => Sys2Proof.Machine.execPortFault p remote s
  | .faultTimeout p => Sys2Proof.Machine.execFaultTimeout p s
  | .lossOfSignal l => Sys2Proof.Machine.execLossOfSignal l s
  | .groupReversal g => Sys2Proof.Machine.execGroupReversal g s
  | .frameReceive port data whole fcs => Sys2Proof.Machine.execFrameReceive port data whole fcs s
  | .pauseRx p quanta => Sys2Proof.Machine.execPauseRx p quanta s
  | .pfcRx p classes quanta => Sys2Proof.Machine.execPfcRx p classes quanta s
  | .pauseExpire p c => Sys2Proof.Machine.execPauseExpire p c s
  | .pfcSend p => Sys2Proof.Machine.execPfcSend p s
  | .pfcRefresh p => Sys2Proof.Machine.execPfcRefresh p s
  | .pfcWatchdog p c => Sys2Proof.Machine.execPfcWatchdog p c s
  | .frameTransmit port => Sys2Proof.Machine.execFrameTransmit port s
  | .laneShort lane other => Sys2Proof.Machine.execLaneShort lane other s
  | .laneRetry req lane persists => Sys2Proof.Machine.execLaneRetry req lane persists s
  | .packetAdmit n => Sys2Proof.Machine.execPacketAdmit n s
  | .verCommit req pipe => Sys2Proof.Machine.execVerCommit req pipe s
  | .verDiscard req pipe => Sys2Proof.Machine.execVerDiscard req pipe s
  | .versionRetire n => Sys2Proof.Machine.execVersionRetire n s
  | .actWrite req pipe index => Sys2Proof.Machine.execActWrite req pipe index s
  | .actRead req pipe index => Sys2Proof.Machine.execActRead req pipe index s
  | .tcamWrite r => Sys2Proof.Machine.execTcamWrite r s
  | .tcamDelete r => Sys2Proof.Machine.execTcamDelete r s
  | .tcamMove r => Sys2Proof.Machine.execTcamMove r s
  | .tcamRead r => Sys2Proof.Machine.execTcamRead r s
  | .tcamLookup r => Sys2Proof.Machine.execTcamLookup r s
  | .emInsert r => Sys2Proof.Machine.execEmInsert r s
  | .emDelete r => Sys2Proof.Machine.execEmDelete r s
  | .emSearch r => Sys2Proof.Machine.execEmSearch r s
  | .emNext r => Sys2Proof.Machine.execEmNext r s
  | .emFlush r => Sys2Proof.Machine.execEmFlush r s
  | .emConfirm r => Sys2Proof.Machine.execEmConfirm r s
  | .emUnpin r => Sys2Proof.Machine.execEmUnpin r s
  | .learnApply n st => Sys2Proof.Machine.execLearnApply n st s
  | .agerVisit n st => Sys2Proof.Machine.execAgerVisit n st s
  | .xbarMatch => Sys2Proof.Machine.execXbarMatch s
  | .sleeveTake req pipe clone => Sys2Proof.Machine.execSleeveTake req pipe clone s
  | .sleeveReturn req clone => Sys2Proof.Machine.execSleeveReturn req clone s
  | .sleeveWakeDone => Sys2Proof.Machine.execSleeveWakeDone s
  | .sleeveCopyDone => Sys2Proof.Machine.execSleeveCopyDone s
  | .sleeveSwitchDone => Sys2Proof.Machine.execSleeveSwitchDone s
  | .tmSelect d => Sys2Proof.Machine.execTmSelect d s
  | .lengthCorrect p fcs => Sys2Proof.Machine.execLengthCorrect p fcs s
  | .polWrite req policer => Sys2Proof.Machine.execPolWrite req policer s
  | .polRead req policer => Sys2Proof.Machine.execPolRead req policer s
  | .polClear req policer => Sys2Proof.Machine.execPolClear req policer s
  | .polAlloc r => Sys2Proof.Machine.execPolAlloc r s
  | .polFree r => Sys2Proof.Machine.execPolFree r s
  | .gateEntryChange p => Sys2Proof.Machine.execGateEntryChange p s
  | .gateListStart p => Sys2Proof.Machine.execGateListStart p s
  | .gateForceWrite req value => Sys2Proof.Machine.execGateForceWrite req value s
  | .tmSample => Sys2Proof.Machine.execTmSample s
  | .rdmaSend ring => Sys2Proof.Machine.execRdmaSend ring s
  | .rdmaSendImm ring => Sys2Proof.Machine.execRdmaSendImm ring s
  | .rdmaWrite ring => Sys2Proof.Machine.execRdmaWrite ring s
  | .rdmaWriteImm ring => Sys2Proof.Machine.execRdmaWriteImm ring s
  | .rdmaRead ring => Sys2Proof.Machine.execRdmaRead ring s
  | .cmpSwap ring => Sys2Proof.Machine.execCmpSwap ring s
  | .fetchAdd ring => Sys2Proof.Machine.execFetchAdd ring s
  | .recv ring => Sys2Proof.Machine.execRecv ring s
  | .qpCreate ring => Sys2Proof.Machine.execQpCreate ring s
  | .qpModify ring => Sys2Proof.Machine.execQpModify ring s
  | .qpQuery ring => Sys2Proof.Machine.execQpQuery ring s
  | .qpDestroy ring => Sys2Proof.Machine.execQpDestroy ring s
  | .mrReg ring => Sys2Proof.Machine.execMrReg ring s
  | .mrRevoke ring => Sys2Proof.Machine.execMrRevoke ring s
  | .revokeDone index => Sys2Proof.Machine.execRevokeDone index s
  | .rocePacketRx => Sys2Proof.Machine.execRocePacketRx s
  | .ackRx => Sys2Proof.Machine.execAckRx s
  | .retransmitTimeout qp => Sys2Proof.Machine.execRetransmitTimeout qp s
  | .rnrTimer qp => Sys2Proof.Machine.execRnrTimer qp s
  | .huskFetchDone qp => Sys2Proof.Machine.execHuskFetchDone qp s
  | .qpEvict qp => Sys2Proof.Machine.execQpEvict qp s
  | .cnpRx => Sys2Proof.Machine.execCnpRx s
  | .ccIncrease qp => Sys2Proof.Machine.execCcIncrease qp s
  | .volCreate req vol => Sys2Proof.Machine.execVolCreate req vol s
  | .volModify req vol => Sys2Proof.Machine.execVolModify req vol s
  | .volRestart req vol flush => Sys2Proof.Machine.execVolRestart req vol flush s
  | .volRestartResume => Sys2Proof.Machine.execVolRestartResume s
  | .volDestroy req vol => Sys2Proof.Machine.execVolDestroy req vol s
  | .volRead req vol => Sys2Proof.Machine.execVolRead req vol s
  | .stqRead ring => Sys2Proof.Machine.execStqRead ring s
  | .stqWrite ring => Sys2Proof.Machine.execStqWrite ring s
  | .stqFlush ring => Sys2Proof.Machine.execStqFlush ring s
  | .writeZeroes ring => Sys2Proof.Machine.execWriteZeroes ring s
  | .deallocate ring => Sys2Proof.Machine.execDeallocate ring s
  | .identify ring => Sys2Proof.Machine.execIdentify ring s
  | .backendResponse => Sys2Proof.Machine.execBackendResponse s
  | .stqCmdTimeout volume slot => Sys2Proof.Machine.execStqCmdTimeout volume slot s
  | .doze volume => Sys2Proof.Machine.execDoze volume s
  | .sleep volume => Sys2Proof.Machine.execSleep volume s
  | .wakeAck volume => Sys2Proof.Machine.execWakeAck volume s
  | .flitTransmit link => Sys2Proof.Machine.execFlitTransmit link s
  | .dataFlitRx link flit fecOk => Sys2Proof.Machine.execDataFlitRx link flit fecOk s
  | .ctrlFlitRx link flit fecOk => Sys2Proof.Machine.execCtrlFlitRx link flit fecOk s
  | .nakRx link flit fecOk => Sys2Proof.Machine.execNakRx link flit fecOk s
  | .trainRx link flit fecOk => Sys2Proof.Machine.execTrainRx link flit fecOk s
  | .downRx link flit fecOk => Sys2Proof.Machine.execDownRx link flit fecOk s
  | .replayTimeout link => Sys2Proof.Machine.execReplayTimeout link s
  | .linkSignalDetect link => Sys2Proof.Machine.execLinkSignalDetect link s
  | .linkLock link inverted => Sys2Proof.Machine.execLinkLock link inverted s
  | .lockTimeout link => Sys2Proof.Machine.execLockTimeout link s
  | .configTimeout link => Sys2Proof.Machine.execConfigTimeout link s
  | .linkDownCause link cause => Sys2Proof.Machine.execLinkDownCause link cause s
  | .downEnd link => Sys2Proof.Machine.execDownEnd link s
  | .socketPktRx socket => Sys2Proof.Machine.execSocketPktRx socket s
  | .socketMwrRx socket => Sys2Proof.Machine.execSocketMwrRx socket s
  | .socketMrdRx socket => Sys2Proof.Machine.execSocketMrdRx socket s
  | .socketDbRx socket => Sys2Proof.Machine.execSocketDbRx socket s
  | .socketIntrRx socket => Sys2Proof.Machine.execSocketIntrRx socket s
  | .stqRsp socket => Sys2Proof.Machine.execStqRsp socket s
  | .socketCplRx socket => Sys2Proof.Machine.execSocketCplRx socket s
  | .socketRdTimeout socket tag => Sys2Proof.Machine.execSocketRdTimeout socket tag s
  | .mgmtAckRx socket => Sys2Proof.Machine.execMgmtAckRx socket s
  | .alert socket => Sys2Proof.Machine.execAlert socket s
  | .ftSync socket => Sys2Proof.Machine.execFtSync socket s
  | .ftFollow socket => Sys2Proof.Machine.execFtFollow socket s
  | .ftDreq socket => Sys2Proof.Machine.execFtDreq socket s
  | .meterRelease socket meter => Sys2Proof.Machine.execMeterRelease socket meter s
  | .winCommit req socket => Sys2Proof.Machine.execWinCommit req socket s
  | .winDrained socket => Sys2Proof.Machine.execWinDrained socket s
  | .copyIn ring => Sys2Proof.Machine.execCopyIn ring s
  | .copyOut ring => Sys2Proof.Machine.execCopyOut ring s
  | .presenceChange socket a b => Sys2Proof.Machine.execPresenceChange socket a b s
  | .powerOnRequest req socket => Sys2Proof.Machine.execPowerOnRequest req socket s
  | .powerOffRequest req socket => Sys2Proof.Machine.execPowerOffRequest req socket s
  | .attnPress socket => Sys2Proof.Machine.execAttnPress socket s
  | .modPg socket => Sys2Proof.Machine.execModPg socket s
  | .pgTimeout socket => Sys2Proof.Machine.execPgTimeout socket s
  | .resetDelayEnd socket ma => Sys2Proof.Machine.execResetDelayEnd socket ma s
  | .quiesceWaitEnd socket => Sys2Proof.Machine.execQuiesceWaitEnd socket s
  | .powerFault socket overcurrent removed ma => Sys2Proof.Machine.execPowerFault socket overcurrent removed ma s
  | .instructionIssue core => Sys2Proof.Machine.execInstructionIssue core s
  | .chPut hart rs1 => Sys2Proof.Machine.execChPut hart rs1 s
  | .chCommit hart rs1 rd => Sys2Proof.Machine.execChCommit hart rs1 rd s
  | .chTcommit hart rs1 rd => Sys2Proof.Machine.execChTcommit hart rs1 rd s
  | .chDrop hart => Sys2Proof.Machine.execChDrop hart s
  | .chRecv hart rs1 rd => Sys2Proof.Machine.execChRecv hart rs1 rd s
  | .chTrecv hart rs1 rd => Sys2Proof.Machine.execChTrecv hart rs1 rd s
  | .chIn hart index rd => Sys2Proof.Machine.execChIn hart index rd s
  | .chSelect hart rs1 rs2 rd => Sys2Proof.Machine.execChSelect hart rs1 rs2 rd s
  | .chWait hart rs1 rd => Sys2Proof.Machine.execChWait hart rs1 rd s
  | .chAlarm hart rs1 rs2 rd => Sys2Proof.Machine.execChAlarm hart rs1 rs2 rd s
  | .chIpi hart rs1 => Sys2Proof.Machine.execChIpi hart rs1 s
  | .chDb hart rs1 rs2 rd => Sys2Proof.Machine.execChDb hart rs1 rs2 rd s
  | .chCpl hart rs1 rs2 rd => Sys2Proof.Machine.execChCpl hart rs1 rs2 rd s
  | .ptRecv hart rs1 rd => Sys2Proof.Machine.execPtRecv hart rs1 rd s
  | .ptTrecv hart rs1 rd => Sys2Proof.Machine.execPtTrecv hart rs1 rd s
  | .ptDone hart rs1 => Sys2Proof.Machine.execPtDone hart rs1 s
  | .ptSend hart rs1 rs2 rd => Sys2Proof.Machine.execPtSend hart rs1 rs2 rd s
  | .blockedWake hart => Sys2Proof.Machine.execBlockedWake hart s
  | .alarmFire => Sys2Proof.Machine.execAlarmFire s
  | .chWaitExpire hart => Sys2Proof.Machine.execChWaitExpire hart s
  | .interruptTake hart => Sys2Proof.Machine.execInterruptTake hart s
  | .portRxDeliver core port => Sys2Proof.Machine.execPortRxDeliver core port s
  | .threadEnable req hart => Sys2Proof.Machine.execThreadEnable req hart s
  | .threadDisable req hart => Sys2Proof.Machine.execThreadDisable req hart s
  | .chCfgWrite req core channel value => Sys2Proof.Machine.execChCfgWrite req core channel value s
  | .deadlockDetect dom => Sys2Proof.Machine.execDeadlockDetect dom s
  | .halt req hart => Sys2Proof.Machine.execHalt req hart s
  | .resume req hart => Sys2Proof.Machine.execResume req hart s
  | .step req hart => Sys2Proof.Machine.execStep req hart s
  | .discardOutbox req hart => Sys2Proof.Machine.execDiscardOutbox req hart s
  | .dbgRead req core thread reg => Sys2Proof.Machine.execDbgRead req core thread reg s
  | .dbgWrite req core thread reg => Sys2Proof.Machine.execDbgWrite req core thread reg s
  | .breakpoint hart kind addr size => Sys2Proof.Machine.execBreakpoint hart kind addr size s
  | .vxBlk hart rs1 rs2 rd => Sys2Proof.Machine.execVxBlk hart rs1 rs2 rd s
  | .vxLock hart rs1 rd => Sys2Proof.Machine.execVxLock hart rs1 rd s
  | .lockGrant keyBad => Sys2Proof.Machine.execLockGrant keyBad s
  | .vxUnlock hart rd => Sys2Proof.Machine.execVxUnlock hart rd s
  | .vxCmac hart rs1 rs2 rd => Sys2Proof.Machine.execVxCmac hart rs1 rs2 rd s
  | .vxImport hart rs1 rd => Sys2Proof.Machine.execVxImport hart rs1 rd s
  | .vxZero hart rs1 rd => Sys2Proof.Machine.execVxZero hart rs1 rd s
  | .vaultRunDone engine fail retries started => Sys2Proof.Machine.execVaultRunDone engine fail retries started s
  | .lockLeaseExpire engine => Sys2Proof.Machine.execLockLeaseExpire engine s
  | .lockBreak req engine => Sys2Proof.Machine.execLockBreak req engine s
  | .keyAlloc ring => Sys2Proof.Machine.execKeyAlloc ring s
  | .keyFree ring => Sys2Proof.Machine.execKeyFree ring s
  | .keyImport ring => Sys2Proof.Machine.execKeyImport ring s
  | .importDone keyBad => Sys2Proof.Machine.execImportDone keyBad s
  | .keyZero ring => Sys2Proof.Machine.execKeyZero ring s
  | .zeroiseAll req => Sys2Proof.Machine.execZeroiseAll req s
  | .pmcSnap req => Sys2Proof.Machine.execPmcSnap req s
  | .counterEvent block inst event sub value slice part => Sys2Proof.Machine.execCounterEvent block inst event sub value slice part s
  | .ctrValWrite req counter value => Sys2Proof.Machine.execCtrValWrite req counter value s
  | .histInterval source obj ns => Sys2Proof.Machine.execHistInterval source obj ns s
  | .histClear req hist => Sys2Proof.Machine.execHistClear req hist s
  | .dumpCapture => Sys2Proof.Machine.execDumpCapture s
  | .dumpNow req => Sys2Proof.Machine.execDumpNow req s
  | .dumpWriteDone => Sys2Proof.Machine.execDumpWriteDone s
  | .braceEnter rail mv => Sys2Proof.Machine.execBraceEnter rail mv s
  | .braceExit core fc sram => Sys2Proof.Machine.execBraceExit core fc sram s
  | .supplyReset rail mv => Sys2Proof.Machine.execSupplyReset rail mv s
  | .thermalSample readings => Sys2Proof.Machine.execThermalSample readings s
  | .tripRelease die romOk => Sys2Proof.Machine.execTripRelease die romOk s
  | .unitTest req kind index drain force => Sys2Proof.Machine.execUnitTest req kind index drain force s
  | .unitFence req kind index drain force => Sys2Proof.Machine.execUnitFence req kind index drain force s
  | .unitReturn req kind index => Sys2Proof.Machine.execUnitReturn req kind index s
  | .drainDone kind index => Sys2Proof.Machine.execDrainDone kind index s
  | .drainTimeout core => Sys2Proof.Machine.execDrainTimeout core s
  | .testDone kind index passed us => Sys2Proof.Machine.execTestDone kind index passed us s
  | .copyBackDone pc => Sys2Proof.Machine.execCopyBackDone pc s
  | .mgtMainReset req => Sys2Proof.Machine.execMgtMainReset req s
  | .mainResetRelease romOk => Sys2Proof.Machine.execMainResetRelease romOk s
  | .mainPgLoss => Sys2Proof.Machine.execMainPgLoss s
  | .busStuck bus => Sys2Proof.Machine.execBusStuck bus s
  | .setdasa addr => Sys2Proof.Machine.execSetdasa addr s
  | .entdaa addr => Sys2Proof.Machine.execEntdaa addr s
  | .rstdaa => Sys2Proof.Machine.execRstdaa s
  | .i3cBusReset => Sys2Proof.Machine.execI3cBusReset s
  | .mctpPacket src tag som eom seq data => Sys2Proof.Machine.execMctpPacket src tag som eom seq data s
  | .setEndpointId eid => Sys2Proof.Machine.execSetEndpointId eid s
  | .getEndpointId => Sys2Proof.Machine.execGetEndpointId s
  | .getEndpointUuid => Sys2Proof.Machine.execGetEndpointUuid s
  | .getMctpVersionSupport type => Sys2Proof.Machine.execGetMctpVersionSupport type s
  | .getMessageTypeSupport => Sys2Proof.Machine.execGetMessageTypeSupport s
  | .getVendorDefinedMsgSupport selector => Sys2Proof.Machine.execGetVendorDefinedMsgSupport selector s
  | .mctpUnsupportedCmd cmd => Sys2Proof.Machine.execMctpUnsupportedCmd cmd s
  | .setTid tid => Sys2Proof.Machine.execSetTid tid s
  | .getTid => Sys2Proof.Machine.execGetTid s
  | .getPldmVersion type => Sys2Proof.Machine.execGetPldmVersion type s
  | .getPldmTypes => Sys2Proof.Machine.execGetPldmTypes s
  | .getPldmCommands type => Sys2Proof.Machine.execGetPldmCommands type s
  | .pldmUnsupportedCmd type cmd => Sys2Proof.Machine.execPldmUnsupportedCmd type cmd s
  | .getPdrRepositoryInfo => Sys2Proof.Machine.execGetPdrRepositoryInfo s
  | .getPdr record => Sys2Proof.Machine.execGetPdr record s
  | .getSensorReading sensor => Sys2Proof.Machine.execGetSensorReading sensor s
  | .getStateSensorReadings sensor => Sys2Proof.Machine.execGetStateSensorReadings sensor s
  | .eventMessageBufferSize size => Sys2Proof.Machine.execEventMessageBufferSize size s
  | .platformEventMessage => Sys2Proof.Machine.execPlatformEventMessage s
  | .queryDeviceIdentifiers => Sys2Proof.Machine.execQueryDeviceIdentifiers s
  | .getFirmwareParameters => Sys2Proof.Machine.execGetFirmwareParameters s
  | .requestUpdate => Sys2Proof.Machine.execRequestUpdate s
  | .passComponentTable => Sys2Proof.Machine.execPassComponentTable s
  | .updateComponent component => Sys2Proof.Machine.execUpdateComponent component s
  | .firmwareData data flashOk readOk => Sys2Proof.Machine.execFirmwareData data flashOk readOk s
  | .activateFirmware => Sys2Proof.Machine.execActivateFirmware s
  | .getStatus => Sys2Proof.Machine.execGetStatus s
  | .cancelUpdateComponent => Sys2Proof.Machine.execCancelUpdateComponent s
  | .cancelUpdate => Sys2Proof.Machine.execCancelUpdate s
  | .regRead instance_ off size => Sys2Proof.Machine.execRegRead instance_ off size s
  | .regWrite instance_ off size value => Sys2Proof.Machine.execRegWrite instance_ off size value s
  | .logRead instance_ seq count => Sys2Proof.Machine.execLogRead instance_ seq count s
  | .toHost instance_ data => Sys2Proof.Machine.execToHost instance_ data s
  | .mainReset instance_ => Sys2Proof.Machine.execMainReset instance_ s
  | .vendorUnknownCmd instance_ cmd => Sys2Proof.Machine.execVendorUnknownCmd instance_ cmd s
  | .h2mGo req length => Sys2Proof.Machine.execH2mGo req length s
  | .fromHostAccepted => Sys2Proof.Machine.execFromHostAccepted s
  | .logIdxWrite req seq => Sys2Proof.Machine.execLogIdxWrite req seq s
  | .logRecord => Sys2Proof.Machine.execLogRecord s
  | .islandFtUpdate => Sys2Proof.Machine.execIslandFtUpdate s
  | .clearInitialState channel => Sys2Proof.Machine.execClearInitialState channel s
  | .selectPackage => Sys2Proof.Machine.execSelectPackage s
  | .deselectPackage => Sys2Proof.Machine.execDeselectPackage s
  | .enableChannel channel => Sys2Proof.Machine.execEnableChannel channel s
  | .disableChannel channel => Sys2Proof.Machine.execDisableChannel channel s
  | .resetChannel channel => Sys2Proof.Machine.execResetChannel channel s
  | .enableChannelNetworkTx channel => Sys2Proof.Machine.execEnableChannelNetworkTx channel s
  | .disableChannelNetworkTx channel => Sys2Proof.Machine.execDisableChannelNetworkTx channel s
  | .aenEnable channel mask => Sys2Proof.Machine.execAenEnable channel mask s
  | .getLinkStatus channel => Sys2Proof.Machine.execGetLinkStatus channel s
  | .setMacAddress channel filter mac enable => Sys2Proof.Machine.execSetMacAddress channel filter mac enable s
  | .enableBroadcastFilter channel => Sys2Proof.Machine.execEnableBroadcastFilter channel s
  | .enableMulticastFilter channel => Sys2Proof.Machine.execEnableMulticastFilter channel s
  | .setVlanFilter channel filter vlan enable => Sys2Proof.Machine.execSetVlanFilter channel filter vlan enable s
  | .enableVlan channel mode => Sys2Proof.Machine.execEnableVlan channel mode s
  | .getVersionId channel => Sys2Proof.Machine.execGetVersionId channel s
  | .getCapabilities channel => Sys2Proof.Machine.execGetCapabilities channel s
  | .getParameters channel => Sys2Proof.Machine.execGetParameters channel s
  | .getControllerPacketStats channel => Sys2Proof.Machine.execGetControllerPacketStats channel s
  | .getPassThroughStatistics channel => Sys2Proof.Machine.execGetPassThroughStatistics channel s
  | .ncsiUnsupportedCmd channel cmd => Sys2Proof.Machine.execNcsiUnsupportedCmd channel cmd s
  | .ncsiTxFrame channel data fcsOk => Sys2Proof.Machine.execNcsiTxFrame channel data fcsOk s
  | .heartbeatSend => Sys2Proof.Machine.execHeartbeatSend s
  | .heartbeat sublink => Sys2Proof.Machine.execHeartbeat sublink s
  | .partnerLost => Sys2Proof.Machine.execPartnerLost s
  | .mirror sublink => Sys2Proof.Machine.execMirror sublink s
  | .transitRx sublink => Sys2Proof.Machine.execTransitRx sublink s
  | .powerLoss at_ => Sys2Proof.Machine.execPowerLoss at_ s

end Sys2Proof.Machine
end

