-- ==== Sys2Proof/Safety.lean ====
section
/-! DEFINITION. The words that statements use about runs: what a command gives, several steps, what fuses say, and which
commands belong to the main domain. -/

namespace Sys2Proof.Machine

/-- The command, at state `s`, is carried out and gives `t`, but for the queue and the fuses, which `settle` keeps. -/
abbrev Gives (i : Instr) (s t : State) : Prop := exec i s = .next (s.settle t)

/-- The command completes at `s` in a state of which `P` holds. -/
def Ends (i : Instr) (s : State) (P : State → Prop) : Prop := ∃ t, exec i s = .next t ∧ P t

/-- A register of a block is in service for a requester: the block answers, the requester may write it, and the device is not
PAIRED, so that no write is mirrored. -/
abbrev State.takes (s : State) (req : Req) (code n : Nat) (r : RegDef) (i : Nat := 0) : Prop :=
  s.blkOpen (blkOf code) n = true ∧ s.mayWrite req (blkOf code) n r i = true ∧ s.pairState ≠ 2

/-- A block instance other than MGT_ starts at the offset, and it answers. -/
def State.blkIn (s : State) (base : Nat) : Bool := match blkAt base with
  | some (b, n) => base == b.base + n * b.stride && s.blkOpen b n && b.code != 0x14
  | none => false

/-- What follows every register write: the deadlock detector looks again, and what the write made due is carried out. -/
def State.after (s : State) : State := s.dlRefresh.drainDue

/-- The mailbox of a requester takes a command. -/
abbrev State.mboxOpen (s : State) (req : Req) (m : Nat) : Prop :=
  s.isl.up = true ∧ s.mainHeld = false ∧ ((req = .host ∧ m = 0) ∨ (req = .mgmt ∧ m = 1)) ∧ s.mboxTakes m = true

/-- The state with a mailbox command written. -/
def State.mboxPut (s : State) (m op arg : Nat) : State := (s.wr R.SEC_MBOX_CMD_opcode op m).wr R.SEC_MBOX_CMD_arg arg m

/-- The stored part of a write of command-register fields: those listed get their values, the other writable ones keep theirs. -/
def State.cmdPut (s : State) (r : RegDef) (fs : List (Fld × Nat)) (i : Nat := 0) (j : Nat := 0) (k : Nat := 0) : State :=
  s.putReg false r i j k (fs.foldl (fun v p => showFld v p.1 p.2) (s.image r i j k) % 2 ^ r.width)

/-- SLC_CMD, RNG_CMD, STQ_CMD and HLT_CMD with a command written. -/
def State.slicePut (s : State) (op x : Nat) : State :=
  (s.cmdPut R.reg_SLC_CMD [(R.SLC_CMD_go, 1), (R.SLC_CMD_op, op), (R.SLC_CMD_slice, x)]).wr R.SLC_CMD_STATUS_slice x
def State.ringPut (s : State) (op r : Nat) (flush : Bool := false) : State :=
  s.cmdPut R.reg_RNG_CMD [(R.RNG_CMD_go, 1), (R.RNG_CMD_op, op), (R.RNG_CMD_flush, b2n flush), (R.RNG_CMD_ring, r)]
def State.volPut (s : State) (op v : Nat) (flush : Bool := false) : State :=
  s.cmdPut R.reg_STQ_CMD [(R.STQ_CMD_go, 1), (R.STQ_CMD_op, op), (R.STQ_CMD_flush, b2n flush), (R.STQ_CMD_volume, v)]
def State.unitPut (s : State) (op kind index : Nat) (drain force : Bool) : State :=
  s.cmdPut R.reg_HLT_CMD [(R.HLT_CMD_go, 1), (R.HLT_CMD_op, op), (R.HLT_CMD_drain, b2n drain), (R.HLT_CMD_force, b2n force),
    (R.HLT_CMD_kind, kind), (R.HLT_CMD_index, index)]

/-- A table command of a ring is next to be performed, well formed, for a pipeline that no epoch has armed and no sleeve mirrors. -/
abbrev State.tableReady (s : State) (r op : Nat) (g : Flight) (c : TCmd) : Prop :=
  s.toPerform r [op] = some g ∧ c = tcmdOf g.desc ∧ c.op = op ∧ c.malformed = false ∧ s.pipeArmed c.pipe = false ∧ s.swc.mirroring = false

/-- A descriptor of a family of opcodes is next to be performed on a ring, and has the opcode. -/
abbrev State.nextWork (s : State) (r : Nat) (fam : Nat → Bool) (op : Nat) (x : Ring) (g : Flight) : Prop :=
  s.ring r = some x ∧ x.eng.flight.find? (fun g => !g.performed && g.cpl.isNone && fam (dOpcode g.desc)) = some g ∧ g.staged = false ∧ dOpcode g.desc = op

/-- A data or atomic descriptor in order, posted on the send ring of a resident QP in RTS whose transport takes the opcode. -/
abbrev State.rdmaPosts (s : State) (r op : Nat) (y : Ring) (g : Flight) (q : Nat) (x : Qp) : Prop :=
  s.nextWork r rdmaOp op y g ∧ rdmaDescOk g.desc = true ∧ q = fieldLE g.desc 0x10 3 ∧ s.qp q = some x ∧ x.sqRing = r ∧ s.qpVol q = none
    ∧ x.resident = true ∧ x.state = 3 ∧ (x.transport = 1 → op = 0x20 ∨ op = 0x21)

/-- The state with the entry appended to the QP's send queue and everything transmitted that may be. -/
def State.withWork (s : State) (r : Nat) (g : Flight) (q : Nat) (x : Qp) : State :=
  ((((s.setQp q (some { x with used := s.time.ft })).performed r g.count).modQp q
    (fun y => { y with sq := y.sq ++ [{ own := some (r, g.count), desc := g.desc }] }))).pumpRing r

/-- The next packet of the RDMA engine is in order, of the given kind, for a resident QP that holds no parked packets. -/
abbrev State.rdmaIn (s : State) (c : Nat) (k : Pkt) (p : Roce) (kd : RoceKind) (x : Qp) : Prop :=
  s.rdmaPick = some (c, k) ∧ rxClass k = .good p kd ∧ s.qp p.dqp = some x ∧ x.resident = true ∧ x.parked = []

/-- A command of a volume queue is next to start, passes the checks of 14_storage_queues.md R366 (giving `t`), and its ACTIVE
volume, awake, has room for it. -/
abbrev State.stqStarts (s t : State) (r op : Nat) (y : Ring) (g : Flight) (v : Nat) (x : Vol) : Prop :=
  s.ring r = some y ∧ y.type = 4 ∧ v = y.target % 4096 ∧ y.nextCmd = some g ∧ g.staged = false ∧ dOpcode g.desc = op ∧ s.vol v = some x
    ∧ (s.stq.flushTo.any (fun f => f.1 == r && before g.count f.2)) = false ∧ (s.cmdCheck x y g.slice g.desc).toOption = some t
    ∧ s.volState v = 1 ∧ x.cmds.length < x.depth ∧ s.rd R.STQ_VOL_STATE_pstate v ≠ 2

/-- A flit of a type arrives on an ACTIVE link, passes its check and keeps the rules of its header; `t` is the state with the
flit counted and its acknowledgement and credit count taken. -/
abbrev State.flitIn4 (s t : State) (n : Nat) (bs : List Byte) (type : Nat) : Prop :=
  (s.link n).state = 4 ∧ flitGood bs true = true ∧ flitIllegal bs = false ∧ (flitOf bs).type = type ∧ t = (s.lcnt n 1).takeHeader n (flitOf bs)

/-- The state with an NC-SI command to a channel counted. -/
def State.ncsiCounted (s : State) (n : Nat) : State := (s.mgtCnt 4).modNcsi n (fun c => { c with cmds := c.cmds + 1 })

/-- The state with the command counted, if an NC-SI channel takes it; `any`: also before Clear Initial State. -/
def State.ncsiOpen (s : State) (n : Nat) (any : Bool) : Option State :=
  if s.mainHeld = false ∧ s.portExists n = true ∧ (any = true ∨ (s.ncsi n).ready = true) then some (s.ncsiCounted n) else none

/-- `k` steps, each to a next state. -/
def State.reaches : Nat → State → State → Prop
  | 0, s, t => s = t
  | k + 1, s, t => ∃ u, step s = .next u ∧ State.reaches k u t

/-- The fuses of `b` are those of `a`, or more of them are blown. -/
structure Otp.Within (a b : Otp) : Prop where
  rows : b.rows = a.rows
  transport : b.transport = a.transport
  count : a.count ≤ b.count
  revoked : ∀ k, a.revoked.testBit k = true → b.revoked.testBit k = true

end Sys2Proof.Machine

namespace Sys2Proof

/-- The part of the device that a command belongs to: the main domain, the always-on island, or neither alone (accesses through
BAR0 and the mailboxes, power, boot and reset). -/
inductive Domain where
  | main
  | island
  | whole
  deriving DecidableEq, Repr

/-- The part of the device that each command belongs to (01_architecture.md R31; 21_management.md R520). -/
def Instr.domain : Instr → Domain
  | .registerWrite _ _ _ _ => .whole
  | .lowHalfWrite _ _ _ => .whole
  | .highHalfWrite _ _ _ => .whole
  | .lowHalfRead _ _ => .whole
  | .highHalfRead _ _ => .whole
  | .rcRead _ _ _ => .whole
  | .hostHeartbeat _ _ => .whole
  | .hbCfgWrite _ _ => .whole
  | .heartbeatLapse => .main
  | .seize _ => .whole
  | .ownerWrite _ _ _ => .whole
  | .ftSnap _ => .whole
  | .ftSourceChange _ _ => .whole
  | .ftRateWrite _ _ => .whole
  | .stepGo _ => .whole
  | .setGo _ => .whole
  | .ftMboxState _ _ _ => .whole
  | .ppsEdge _ _ => .main
  | .ppsLost => .main
  | .refLost => .main
  | .launchPrefetch _ => .main
  | .launchRelease _ => .main
  | .wdogKick _ _ => .whole
  | .wdogExpire _ => .main
  | .epochGo _ => .whole
  | .epochCancel _ => .whole
  | .unitAck _ => .main
  | .epochRefuse _ => .main
  | .epochDeadline => .main
  | .epochApply _ => .main
  | .islandPowerOn => .whole
  | .aonReset _ _ => .whole
  | .mainPowerGood _ _ _ => .whole
  | .fillDone _ _ _ _ => .whole
  | .mainRelease => .whole
  | .segmentLoaded _ => .whole
  | .cuffOpen => .whole
  | .bootAttemptFail _ => .whole
  | .updBegin _ _ => .whole
  | .updData _ _ => .whole
  | .updEnd _ _ => .whole
  | .updAbort _ => .whole
  | .updTimeout => .whole
  | .activate _ => .whole
  | .fuseCommit _ => .whole
  | .fuseDeadline => .whole
  | .fuseBlown => .whole
  | .slotQuery _ => .whole
  | .keyRevoke _ _ => .whole
  | .memAccess _ _ _ _ => .main
  | .ceWindow => .main
  | .patrolRead _ _ _ => .main
  | .scrubGo _ => .whole
  | .scrubAbort _ => .whole
  | .scrubDone _ => .main
  | .tcamSweep _ => .main
  | .tcamRestore _ => .main
  | .spareGo _ _ => .whole
  | .spareDone => .main
  | .linkTrainRetry _ _ => .main
  | .dlActive _ _ _ _ _ => .main
  | .readinessMessage => .main
  | .linkDown _ _ => .main
  | .configRequest _ _ _ _ => .main
  | .bmeClear _ _ => .main
  | .bmeSet _ _ => .main
  | .heldRequestIssue _ _ => .main
  | .flr _ _ => .main
  | .flrDone _ _ => .main
  | .d3hotEnter _ _ => .main
  | .d3hotToD0 _ _ => .main
  | .atsDisable _ _ => .main
  | .translationCompletion _ _ _ _ _ _ _ _ => .main
  | .invalidationRequest _ _ _ _ _ _ _ => .main
  | .invalidationCompletion _ _ => .main
  | .msixFire _ _ _ => .main
  | .msixUnmask _ _ _ => .main
  | .msixTableAccess _ _ _ _ _ => .main
  | .inboundRequest _ _ _ => .main
  | .bar4Access _ _ _ _ _ => .main
  | .readCompletion _ _ _ _ _ _ => .main
  | .cplTimeout _ _ _ => .main
  | .sliceActivate _ _ => .whole
  | .sliceReset _ _ => .whole
  | .sliceRemove _ _ => .whole
  | .sliceGenAdvance _ => .main
  | .sliceSequenceEnd _ => .main
  | .pageClearDone => .main
  | .quotaWrite _ _ _ _ => .whole
  | .evringWrite _ _ _ => .whole
  | .ringCreate _ _ => .whole
  | .ringEnable _ _ => .whole
  | .ringDisable _ _ _ => .whole
  | .ringDestroy _ _ => .whole
  | .ringRead _ _ => .whole
  | .ringDrained _ => .main
  | .ringHuskLoaded _ => .main
  | .ringEvict _ => .main
  | .doorbellPost _ _ _ _ _ => .main
  | .doorbellAck _ _ _ _ _ => .main
  | .descriptorRead _ => .main
  | .descriptorStart _ => .main
  | .refetch _ => .main
  | .nop _ => .main
  | .wait _ => .main
  | .waitSatisfied _ => .main
  | .waitTimeout _ => .main
  | .waitGone _ => .main
  | .abort _ => .main
  | .abortArrive => .main
  | .completionWrite _ => .main
  | .modTimer _ => .main
  | .send _ => .main
  | .recvBuf _ => .main
  | .rxDeliver _ => .main
  | .eventSlot _ => .main
  | .eventRecord => .main
  | .anResolved _ _ => .main
  | .anRestart _ => .main
  | .trainTimeout _ => .main
  | .portUp _ _ => .main
  | .portFault _ _ => .main
  | .faultTimeout _ => .main
  | .lossOfSignal _ => .main
  | .groupReversal _ => .main
  | .frameReceive _ _ _ _ => .main
  | .pauseRx _ _ => .main
  | .pfcRx _ _ _ => .main
  | .pauseExpire _ _ => .main
  | .pfcSend _ => .main
  | .pfcRefresh _ => .main
  | .pfcWatchdog _ _ => .main
  | .frameTransmit _ => .main
  | .laneShort _ _ => .main
  | .laneRetry _ _ _ => .whole
  | .packetAdmit _ => .main
  | .verCommit _ _ => .whole
  | .verDiscard _ _ => .whole
  | .versionRetire _ => .main
  | .actWrite _ _ _ => .whole
  | .actRead _ _ _ => .whole
  | .tcamWrite _ => .main
  | .tcamDelete _ => .main
  | .tcamMove _ => .main
  | .tcamRead _ => .main
  | .tcamLookup _ => .main
  | .emInsert _ => .main
  | .emDelete _ => .main
  | .emSearch _ => .main
  | .emNext _ => .main
  | .emFlush _ => .main
  | .emConfirm _ => .main
  | .emUnpin _ => .main
  | .learnApply _ _ => .main
  | .agerVisit _ _ => .main
  | .xbarMatch => .main
  | .sleeveTake _ _ _ => .whole
  | .sleeveReturn _ _ => .whole
  | .sleeveWakeDone => .main
  | .sleeveCopyDone => .main
  | .sleeveSwitchDone => .main
  | .tmSelect _ => .main
  | .lengthCorrect _ _ => .main
  | .polWrite _ _ => .whole
  | .polRead _ _ => .whole
  | .polClear _ _ => .whole
  | .polAlloc _ => .main
  | .polFree _ => .main
  | .gateEntryChange _ => .main
  | .gateListStart _ => .main
  | .gateForceWrite _ _ => .whole
  | .tmSample => .main
  | .rdmaSend _ => .main
  | .rdmaSendImm _ => .main
  | .rdmaWrite _ => .main
  | .rdmaWriteImm _ => .main
  | .rdmaRead _ => .main
  | .cmpSwap _ => .main
  | .fetchAdd _ => .main
  | .recv _ => .main
  | .qpCreate _ => .main
  | .qpModify _ => .main
  | .qpQuery _ => .main
  | .qpDestroy _ => .main
  | .mrReg _ => .main
  | .mrRevoke _ => .main
  | .revokeDone _ => .main
  | .rocePacketRx => .main
  | .ackRx => .main
  | .retransmitTimeout _ => .main
  | .rnrTimer _ => .main
  | .huskFetchDone _ => .main
  | .qpEvict _ => .main
  | .cnpRx => .main
  | .ccIncrease _ => .main
  | .volCreate _ _ => .whole
  | .volModify _ _ => .whole
  | .volRestart _ _ _ => .whole
  | .volRestartResume => .main
  | .volDestroy _ _ => .whole
  | .volRead _ _ => .whole
  | .stqRead _ => .main
  | .stqWrite _ => .main
  | .stqFlush _ => .main
  | .writeZeroes _ => .main
  | .deallocate _ => .main
  | .identify _ => .main
  | .backendResponse => .main
  | .stqCmdTimeout _ _ => .main
  | .doze _ => .main
  | .sleep _ => .main
  | .wakeAck _ => .main
  | .flitTransmit _ => .main
  | .dataFlitRx _ _ _ => .main
  | .ctrlFlitRx _ _ _ => .main
  | .nakRx _ _ _ => .main
  | .trainRx _ _ _ => .main
  | .downRx _ _ _ => .main
  | .replayTimeout _ => .main
  | .linkSignalDetect _ => .main
  | .linkLock _ _ => .main
  | .lockTimeout _ => .main
  | .configTimeout _ => .main
  | .linkDownCause _ _ => .main
  | .downEnd _ => .main
  | .socketPktRx _ => .main
  | .socketMwrRx _ => .main
  | .socketMrdRx _ => .main
  | .socketDbRx _ => .main
  | .socketIntrRx _ => .main
  | .stqRsp _ => .main
  | .socketCplRx _ => .main
  | .socketRdTimeout _ _ => .main
  | .mgmtAckRx _ => .main
  | .alert _ => .main
  | .ftSync _ => .main
  | .ftFollow _ => .main
  | .ftDreq _ => .main
  | .meterRelease _ _ => .main
  | .winCommit _ _ => .whole
  | .winDrained _ => .main
  | .copyIn _ => .main
  | .copyOut _ => .main
  | .presenceChange _ _ _ => .main
  | .powerOnRequest _ _ => .whole
  | .powerOffRequest _ _ => .whole
  | .attnPress _ => .main
  | .modPg _ => .main
  | .pgTimeout _ => .main
  | .resetDelayEnd _ _ => .main
  | .quiesceWaitEnd _ => .main
  | .powerFault _ _ _ _ => .main
  | .instructionIssue _ => .main
  | .chPut _ _ => .main
  | .chCommit _ _ _ => .main
  | .chTcommit _ _ _ => .main
  | .chDrop _ => .main
  | .chRecv _ _ _ => .main
  | .chTrecv _ _ _ => .main
  | .chIn _ _ _ => .main
  | .chSelect _ _ _ _ => .main
  | .chWait _ _ _ => .main
  | .chAlarm _ _ _ _ => .main
  | .chIpi _ _ => .main
  | .chDb _ _ _ _ => .main
  | .chCpl _ _ _ _ => .main
  | .ptRecv _ _ _ => .main
  | .ptTrecv _ _ _ => .main
  | .ptDone _ _ => .main
  | .ptSend _ _ _ _ => .main
  | .blockedWake _ => .main
  | .alarmFire => .main
  | .chWaitExpire _ => .main
  | .interruptTake _ => .main
  | .portRxDeliver _ _ => .main
  | .threadEnable _ _ => .whole
  | .threadDisable _ _ => .whole
  | .chCfgWrite _ _ _ _ => .whole
  | .deadlockDetect _ => .main
  | .halt _ _ => .whole
  | .resume _ _ => .whole
  | .step _ _ => .whole
  | .discardOutbox _ _ => .whole
  | .dbgRead _ _ _ _ => .whole
  | .dbgWrite _ _ _ _ => .whole
  | .breakpoint _ _ _ _ => .main
  | .vxBlk _ _ _ _ => .main
  | .vxLock _ _ _ => .main
  | .lockGrant _ => .main
  | .vxUnlock _ _ => .main
  | .vxCmac _ _ _ _ => .main
  | .vxImport _ _ _ => .main
  | .vxZero _ _ _ => .main
  | .vaultRunDone _ _ _ _ => .main
  | .lockLeaseExpire _ => .main
  | .lockBreak _ _ => .whole
  | .keyAlloc _ => .main
  | .keyFree _ => .main
  | .keyImport _ => .main
  | .importDone _ => .main
  | .keyZero _ => .main
  | .zeroiseAll _ => .whole
  | .pmcSnap _ => .whole
  | .counterEvent _ _ _ _ _ _ _ => .main
  | .ctrValWrite _ _ _ => .whole
  | .histInterval _ _ _ => .main
  | .histClear _ _ => .whole
  | .dumpCapture => .main
  | .dumpNow _ => .whole
  | .dumpWriteDone => .main
  | .braceEnter _ _ => .main
  | .braceExit _ _ _ => .main
  | .supplyReset _ _ => .main
  | .thermalSample _ => .main
  | .tripRelease _ _ => .whole
  | .unitTest _ _ _ _ _ => .whole
  | .unitFence _ _ _ _ _ => .whole
  | .unitReturn _ _ _ => .whole
  | .drainDone _ _ => .main
  | .drainTimeout _ => .main
  | .testDone _ _ _ _ => .main
  | .copyBackDone _ => .main
  | .mgtMainReset _ => .whole
  | .mainResetRelease _ => .whole
  | .mainPgLoss => .whole
  | .busStuck _ => .island
  | .setdasa _ => .island
  | .entdaa _ => .island
  | .rstdaa => .island
  | .i3cBusReset => .island
  | .mctpPacket _ _ _ _ _ _ => .island
  | .setEndpointId _ => .island
  | .getEndpointId => .island
  | .getEndpointUuid => .island
  | .getMctpVersionSupport _ => .island
  | .getMessageTypeSupport => .island
  | .getVendorDefinedMsgSupport _ => .island
  | .mctpUnsupportedCmd _ => .island
  | .setTid _ => .island
  | .getTid => .island
  | .getPldmVersion _ => .island
  | .getPldmTypes => .island
  | .getPldmCommands _ => .island
  | .pldmUnsupportedCmd _ _ => .island
  | .getPdrRepositoryInfo => .island
  | .getPdr _ => .island
  | .getSensorReading _ => .island
  | .getStateSensorReadings _ => .island
  | .eventMessageBufferSize _ => .island
  | .platformEventMessage => .island
  | .queryDeviceIdentifiers => .island
  | .getFirmwareParameters => .island
  | .requestUpdate => .island
  | .passComponentTable => .island
  | .updateComponent _ => .island
  | .firmwareData _ _ _ => .island
  | .activateFirmware => .island
  | .getStatus => .island
  | .cancelUpdateComponent => .island
  | .cancelUpdate => .island
  | .regRead _ _ _ => .island
  | .regWrite _ _ _ _ => .island
  | .logRead _ _ _ => .island
  | .toHost _ _ => .island
  | .mainReset _ => .island
  | .vendorUnknownCmd _ _ => .island
  | .h2mGo _ _ => .whole
  | .fromHostAccepted => .island
  | .logIdxWrite _ _ => .whole
  | .logRecord => .island
  | .islandFtUpdate => .island
  | .clearInitialState _ => .island
  | .selectPackage => .island
  | .deselectPackage => .island
  | .enableChannel _ => .island
  | .disableChannel _ => .island
  | .resetChannel _ => .island
  | .enableChannelNetworkTx _ => .island
  | .disableChannelNetworkTx _ => .island
  | .aenEnable _ _ => .island
  | .getLinkStatus _ => .island
  | .setMacAddress _ _ _ _ => .island
  | .enableBroadcastFilter _ => .island
  | .enableMulticastFilter _ => .island
  | .setVlanFilter _ _ _ _ => .island
  | .enableVlan _ _ => .island
  | .getVersionId _ => .island
  | .getCapabilities _ => .island
  | .getParameters _ => .island
  | .getControllerPacketStats _ => .island
  | .getPassThroughStatistics _ => .island
  | .ncsiUnsupportedCmd _ _ => .island
  | .ncsiTxFrame _ _ _ => .island
  | .heartbeatSend => .main
  | .heartbeat _ => .main
  | .partnerLost => .main
  | .mirror _ => .main
  | .transitRx _ => .main
  | .powerLoss _ => .whole

end Sys2Proof
end

