-- ==== Sys2Proof/Certificates/Slice0/Obligations.lean ====
section
/-! DEFINITION. The statements for the provers. A clause of a statement says the whole next state of a command, so it is the
command's frame as well: what the right side does not change is unchanged. -/

open Sys2Proof Sys2Proof.Machine

/-- A host write of GLB_HOST_HB restarts the lapse measurement and clears lapsed; a management write of timeout_ms applies at
once, and a value of 0 clears lapsed; the timer sets lapsed when the timeout (at most 60,000 ms) has passed since the last
heartbeat; a management write of seize while lapsed is 1 seizes every block instance and reports how many were moved; the
owner of a block writes its owner field, and a return to the host clears seized. Each clause says the whole next state. -/
def Obligations.HeartbeatAndOwnership : Prop :=
  (∀ (s : State) (v : Nat), s.takes .host 0x01 0 R.reg_GLB_HOST_HB → v < 2 ^ 32 → Gives (.hostHeartbeat .host v) s ({ ((s.wr R.GLB_HOST_HB_beat v).wr R.GLB_HB_STATUS_lapsed 0) with time := { s.time with beatAt := s.time.ft } }
    : State).after) ∧
  (∀ (s : State) (v : Nat), s.takes .mgmt 0x01 0 R.reg_GLB_HB_CFG → v < 2 ^ 16 → Gives (.hbCfgWrite .mgmt v) s (if v = 0 then (s.wr
    R.GLB_HB_CFG_timeout_ms 0).wr R.GLB_HB_STATUS_lapsed 0 else s.wr R.GLB_HB_CFG_timeout_ms v).after) ∧
  (∀ (s : State), s.mainUp = true → s.rd R.GLB_HB_CFG_timeout_ms ≠ 0 → Gives .heartbeatLapse s ((s.runTo (s.time.beatAt + min (s.rd
    R.GLB_HB_CFG_timeout_ms) 60000 * unitsPerMs)).raise R.GLB_HB_STATUS_lapsed)) ∧
  (∀ (s : State), s.takes .mgmt 0x01 0 R.reg_GLB_SEIZE → s.on R.GLB_HB_STATUS_lapsed = true → Gives (.seize .mgmt) s ((s.seizeAll
    blkBases).eventBoth 1 0 1 (leBytes 2 (blkBases.filter (fun a => s.rd hdrOwner a == 0)).length ++ List.replicate 14 0)).after) ∧
  (∀ (s : State) (req : Req) (base v : Nat), s.blkIn base = true → base ≠ 0x3C00000 → s.ownerOk req base = true → s.pairState ≠ 2 →
    v < 2 → Gives (.ownerWrite req base v) s (if v = 0 then (s.wr hdrOwner 0 base).wr hdrSeized 0 base else s.wr hdrOwner 1
    base).drainDue)

/-- A write of snap captures FT; a change of FT_CTRL.source to 0, 1 or 2 sets the FT state from the new source, and source 3
discards the whole write; a rate write outside source 2 is clamped to 549,755,814 units; a step and a set that no rule
refuses move FT; a slice 0 thread sets the software servo's state under source 1; a PPS edge whose error lies above the lock
window, within 4 windows and within 1 ms only slews; a lost PPS edge and a lost reference enter holdover. Each clause says
the whole next state. -/
def Obligations.FabricTimeCommands : Prop :=
  (∀ (s : State) (req : Req), s.takes req 0x02 0 R.reg_FT_SNAP → Gives (.ftSnap req) s (((s.wr R.FT_SNAP_SEC_sec (ftSec
    s.time.ft)).wr R.FT_SNAP_NS_ns (ftNs s.time.ft)).wr R.FT_SNAP_NS_frac (ftFrac s.time.ft)).after) ∧
  (∀ (s : State) (req : Req) (v : Nat), s.takes req 0x02 0 R.reg_FT_CTRL → v < 2 ^ 32 → v % 4 ≠ 3 → v % 4 ≠ s.rd R.FT_CTRL_source →
    Gives (.ftSourceChange req v) s
      (let t := (((s.wr R.FT_CTRL_lock_ns (v / 2 ^ 16)).wr R.FT_CTRL_lock_count (v / 2 ^ 8)).wr R.FT_CTRL_source (v % 4)).wr
          R.FT_STATUS_state (if v % 4 = 0 then (if s.time.setSeen then 1 else 0) else if v % 4 = 1 then (if s.time.stepSeen then
          2 else 0) else 2); ({ t with time := { s.time with lastPps := s.time.ft, goodEdges := 0, slew := 0, stepHeld := false } }
          : State)).after) ∧
  (∀ (s : State) (req : Req) (v : Nat), s.takes req 0x02 0 R.reg_FT_CTRL → v < 2 ^ 32 → v % 4 = 3 → Gives (.ftSourceChange req v) s
    (s.sat R.GLB_REFUSED_WR_count).after) ∧
  (∀ (s : State) (req : Req) (v : Nat), s.takes req 0x02 0 R.reg_FT_RATE → v < 2 ^ 32 → s.rd R.FT_CTRL_source ≠ 2 → Gives
    (.ftRateWrite req v) s (s.wr R.FT_RATE_adj (unsigned 32 (max (-549755814) (min 549755814 (signed 32 v))))).after) ∧
  (∀ (s : State) (req : Req) (u : Nat), s.takes req 0x02 0 R.reg_FT_STEP_CTRL → s.on R.FT_STEP_CTRL_busy = false → s.rd
    R.GLB_EPOCH_STATUS_state = 0 → (s.time.ft : Int) + signed 64 (s.rd R.FT_STEP_NS_delta) * unitsPerNs = u → u < ftLimit →
    Gives (.stepGo req) s (s.afterJump (s.ftJump u false)).after) ∧
  (∀ (s : State) (req : Req), s.takes req 0x02 0 R.reg_FT_STEP_CTRL → s.on R.FT_STEP_CTRL_busy = false → s.rd
    R.GLB_EPOCH_STATUS_state = 0 → s.rd R.FT_SET_NS_ns < 1000000000 → Gives (.setGo req) s (s.afterJump (s.ftJump (s.rd
    R.FT_SET_SEC_sec * unitsPerSec + s.rd R.FT_SET_NS_ns * unitsPerNs) true)).after) ∧
  (∀ (s : State) (c : Fin 64) (v : Nat), s.takes .flow 0x0F c R.reg_FCR_FT_MBOX c → s.rd R.FT_CTRL_source = 1 → v = 2 ∨ v = 3 ∨ v =
    4 → Gives (.ftMboxState .flow c v) s (s.wr R.FT_STATUS_state v).after) ∧
  (∀ (s : State) (edge rate : Int), s.mainUp = true → s.rd R.FT_CTRL_source = 2 → s.rd R.FT_PPS_CFG_cable_ns = 0 → edge.natAbs ≤
    1000000 → s.rd R.FT_CTRL_lock_ns < edge.natAbs → edge.natAbs ≤ 4 * s.rd R.FT_CTRL_lock_ns → s.rd R.FT_STATUS_state ≠ 4 →
    Gives (.ppsEdge edge rate) s ({ ((s.wr R.FT_PPS_ERR_err (unsigned 32 edge)).wr R.FT_STATUS_state (s.rd R.FT_STATUS_state)) with time := { s.time with lastPps := s.time.ft, servoRate := rate, slew := edge * unitsPerNs, goodEdges := 0, stepHeld := false } }
    : State)) ∧
  (∀ (s : State), s.mainUp = true → s.rd R.FT_CTRL_source = 2 → Gives .ppsLost s
      (let t := ((s.runTo (s.time.lastPps + 1100 * unitsPerMs)).wr R.FT_STATUS_state 4).raise R.FT_STATUS_pps_lost; ({ t with time := { t.time with slew := 0, goodEdges := 0 } }
          : State).event 2 0 (Config.eventCode 2 0) (Config.eventDetail 2 0))) ∧
  (∀ (s : State), s.mainUp = true → s.rd R.FT_CTRL_source = 2 → Gives .refLost s
      (let t := (s.wr R.FT_STATUS_state 4).raise R.FT_STATUS_ref_lost; ({ t with time := { t.time with slew := 0, goodEdges := 0 } }
          : State).event 2 0 (Config.eventCode 2 1) (Config.eventDetail 2 1)))

/-- A kick restarts the period of a running watchdog; a watchdog with action 0 that expires stops, is marked expired and writes
its event; go with an armed unit and T between 20 us and 60 s ahead starts collecting with no acknowledgement, and go with
no armed unit gives result 6; cancel during collecting, the deadline with an acknowledgement missing, and a unit out of
service end the epoch with results 4, 2 and 3 and clear every arm bit; an armed unit with legal staged values acknowledges,
and the last acknowledgement commits; at T the armed units apply, the epoch number advances and the result is 0. Each clause
says the whole next state. -/
def Obligations.WatchdogsAndEpochs : Prop :=
  (∀ (s : State) (req : Req) (w : Fin 16), s.takes req 0x02 0 R.reg_FT_WDOG_KICK w → (s.wdogStart w).isSome = true → Gives
    (.wdogKick req w) s ({ s with time := { s.time with wdog := Store.ins w.val s.time.ft (Store.drop s.time.wdog w) } } :
    State).after) ∧
  (∀ (s : State) (w : Fin 16) (t0 : Nat), s.mainUp = true → s.wdogStart w = some t0 → s.rd R.FT_WDOG_CFG_action w = 0 → Gives
    (.wdogExpire w) s ((((s.runTo (t0 + max (s.rd R.FT_WDOG_CFG_period_ms w) 10 * unitsPerMs)).wdogStop w).raise
    R.FT_WDOG_CFG_expired w).event 2 0 (Config.eventCode 2 2) (Config.eventDetail 2 2))) ∧
  (∀ (s : State) (req : Req), s.takes req 0x01 0 R.reg_GLB_EPOCH_CTRL → s.rd R.GLB_EPOCH_STATUS_state = 0 → ¬(s.rd
    R.GLB_EPOCH_ARM_arm 0 = 0 ∧ s.rd R.GLB_EPOCH_ARM_arm 1 = 0) → ft64Valid (s.rd R.GLB_EPOCH_T_t) = true → s.time.ft + 20 *
    unitsPerUs ≤ ft64Units (s.rd R.GLB_EPOCH_T_t) → ft64Units (s.rd R.GLB_EPOCH_T_t) ≤ s.time.ft + 60 * unitsPerSec → Gives
    (.epochGo req) s (((s.wr R.GLB_EPOCH_STATUS_state 1).wr R.GLB_EPOCH_ACK_ack 0 0).wr R.GLB_EPOCH_ACK_ack 0 1).after) ∧
  (∀ (s : State) (req : Req), s.takes req 0x01 0 R.reg_GLB_EPOCH_CTRL → s.rd R.GLB_EPOCH_STATUS_state = 0 → s.rd
    R.GLB_EPOCH_ARM_arm 0 = 0 → s.rd R.GLB_EPOCH_ARM_arm 1 = 0 → Gives (.epochGo req) s (s.wr R.GLB_EPOCH_STATUS_result 6).after) ∧
  (∀ (s : State) (req : Req), s.takes req 0x01 0 R.reg_GLB_EPOCH_CTRL → s.rd R.GLB_EPOCH_STATUS_state = 1 → Gives (.epochCancel
    req) s ((((s.wr R.GLB_EPOCH_STATUS_state 0).wr R.GLB_EPOCH_STATUS_result 4).wr R.GLB_EPOCH_ARM_arm 0 0).wr
    R.GLB_EPOCH_ARM_arm 0 1).after) ∧
  (∀ (s : State), s.mainUp = true → s.rd R.GLB_EPOCH_STATUS_state = 1 → s.allAcked = false → Gives .epochDeadline s (((((s.runTo
    (ft64Units (s.rd R.GLB_EPOCH_T_t) - 10 * unitsPerUs)).wr R.GLB_EPOCH_STATUS_state 0).wr R.GLB_EPOCH_STATUS_result 2).wr
    R.GLB_EPOCH_ARM_arm 0 0).wr R.GLB_EPOCH_ARM_arm 0 1)) ∧
  (∀ (s : State) (u : Fin 128), s.mainUp = true → s.awaited u = true → s.unitRefuses u = false → (s.unitCause u).1 = 0 → Gives
    (.unitAck u) s
      (let a := (s.unitCause u).2.setEpochBit R.GLB_EPOCH_ACK_ack u true; if a.allAcked then a.wr R.GLB_EPOCH_STATUS_state 2
          else a)) ∧
  (∀ (s : State) (u : Fin 128), s.mainUp = true → s.awaited u = true → s.unitRefuses u = true → s.heldUnit u = false → Gives
    (.epochRefuse u) s (((((s.wr R.HLT_STATUS_epoch_ref u).wr R.GLB_EPOCH_STATUS_state 0).wr R.GLB_EPOCH_STATUS_result 3).wr
    R.GLB_EPOCH_ARM_arm 0 0).wr R.GLB_EPOCH_ARM_arm 0 1)) ∧
  (∀ (s : State), s.mainUp = true → s.rd R.GLB_EPOCH_STATUS_state = 2 → Gives (.epochApply []) s
      (let t := s.runTo (ft64Units (s.rd R.GLB_EPOCH_T_t)); ((((List.range 111).filter t.armed).foldl State.unitApply (t.wr
          R.GLB_EPOCH_NUM_num (t.rd R.GLB_EPOCH_NUM_num + 1))).epochEnd 0).drainDue))

/-- Whatever register an offset names: a write of its own width by a side that may write it has the effect that its block gives
to a write of that register; a write by the other side changes nothing but the count of non-owner writes; a 4-byte write of
the low half of a 64-bit register only fills the requester's write-side holding register, the write of the high half then
writes both halves, and alone it keeps the low half; a 4-byte read of the low half answers it and holds the high half, which
the read of the high half then answers; a whole read answers the register and clears its read-clear fields. Each clause says
the whole next state. -/
def Obligations.RegisterAccess : Prop :=
  (∀ (s : State) (req : Req) (off size v : Nat) (b : BlkDef) (n : Nat) (r : RegDef) (i j k : Nat), s.find off size = .whole b n r i
    j k → s.refusesFlow req off size = false → r.flds.any Fld.writable = true → s.mayWrite req b n r i = true → s.pairState ≠ 2
    → Gives (.registerWrite req off size v) s (s.blockWr req b n r i j k (v % 2 ^ (8 * size))).after) ∧
  (∀ (s : State) (req : Req) (off size v : Nat) (b : BlkDef) (n : Nat) (r : RegDef) (i j k : Nat), s.find off size = .whole b n r i
    j k → s.refusesFlow req off size = false → r.flds.any Fld.writable = true → s.mayWrite req b n r i = false → s.pairState ≠ 2
    → s.due = [] → Gives (.registerWrite req off size v) s s.nonOwner) ∧
  (∀ (s : State) (req : Req) (off v : Nat) (b : BlkDef) (n : Nat) (r : RegDef) (i j k : Nat), s.find off 4 = .low b n r i j k → req
    ≠ .flow → s.due = [] → Gives (.lowHalfWrite req off v) s (s.setHalf req true { reg := some off, half := v % 2 ^ 32 })) ∧
  (∀ (s : State) (req : Req) (off v : Nat) (b : BlkDef) (n : Nat) (r : RegDef) (i j k : Nat), s.find off 4 = .high b n r i j k →
    req ≠ .flow → (s.half req true).reg = some (off - 4) → r.flds.any Fld.writable = true → s.mayWrite req b n r i = true →
    s.pairState ≠ 2 → Gives (.highHalfWrite req off v) s ((s.setHalf req true {}).blockWr req b n r i j k ((s.half req
    true).half + v % 2 ^ 32 * 2 ^ 32)).after) ∧
  (∀ (s : State) (req : Req) (off v : Nat) (b : BlkDef) (n : Nat) (r : RegDef) (i j k : Nat), s.find off 4 = .high b n r i j k →
    req ≠ .flow → (s.half req true).reg ≠ some (off - 4) → r.flds.any Fld.writable = true → s.mayWrite req b n r i = true →
    s.pairState ≠ 2 → Gives (.highHalfWrite req off v) s (s.blockWr req b n r i j k (s.lowImage r i j k + v % 2 ^ 32 * 2 ^
    32)).after) ∧
  (∀ (s : State) (req : Req) (off : Nat) (b : BlkDef) (n : Nat) (r : RegDef) (i j k : Nat), s.find off 4 = .low b n r i j k → req ≠
    .flow → Gives (.lowHalfRead req off) s (((s.clearRc r i j k 0 32).setHalf req false { reg := some off, half := s.viewReg r i j k / 2 ^ 32 }).answer
    req (s.viewReg r i j k % 2 ^ 32))) ∧
  (∀ (s : State) (req : Req) (off : Nat) (b : BlkDef) (n : Nat) (r : RegDef) (i j k : Nat), s.find off 4 = .high b n r i j k → req
    ≠ .flow → (s.half req false).reg = some (off - 4) → Gives (.highHalfRead req off) s (((s.clearRc r i j k 32 64).setHalf req
    false {}).answer req (s.half req false).half)) ∧
  (∀ (s : State) (req : Req) (off size : Nat) (b : BlkDef) (n : Nat) (r : RegDef) (i j k : Nat), s.find off size = .whole b n r i j
    k → s.refusesFlow req off size = false → Gives (.rcRead req off size) s (((s.drawn r).clearRc r i j k 0 64).answer req
    (s.viewReg r i j k)))

/-- The island powers on with flash and fuses alone kept; AON_RST# samples the address straps and the island runs; main
power-good samples the controller straps and enters the ROM flow; the loss of MAIN_PG and a management main_reset reset the
main domain, and the release 10 ms after such a reset enters the ROM flow again; the fill ends; segment 0 is loaded into the
shared L2 in order; the main domain is released with the cuff closed and thread 0 of core 0 enabled at the entry point; with
every segment loaded the cuff opens and what waits for it starts; a failed attempt selects again; a power loss outside any
programming leaves flash as it is. Each clause says the whole next state. -/
def Obligations.PowerAndRelease : Prop :=
  (∀ (s : State), Gives .islandPowerOn s s.powerOn) ∧
  (∀ (s : State) (addr : Fin 128) (pkg : Fin 8), s.isl.up = false → s.isl.mainPg = false → 8 ≤ addr.val → addr.val < 0x78 → Gives
    (.aonReset addr pkg) s
      (let t := (s.wr R.MGT_INFO_smbus_addr addr).wr R.MGT_NCSI_STATUS_package pkg; ({ t with isl := { t.isl with up := true } }
          : State))) ∧
  (∀ (s : State) (b0 b1 romOk : Bool), s.isl.mainPg = false → s.isl.up = true → s.isl.hold = none → Gives (.mainPowerGood b0 b1
    romOk) s ((({ s with isl := { s.isl with mainPg := true, straps := b2n b0 + 2 * b2n b1 } } : State).strapHif).romFlow romOk)) ∧
  (∀ (s : State), s.isl.mainPg = true → Gives .mainPgLoss s
      (let t := s.clearMain.recordCause 0 0; ({ t with isl := { t.isl with mainPg := false, hold := none } } : State))) ∧
  (∀ (s : State), s.takes .mgmt 0x14 0 R.reg_MGT_CTRL → s.isl.hold = none → s.isl.mainPg = true → Gives (.mgtMainReset .mgmt) s
      (let t := s.clearMain.recordCause 3 0; ({ t with isl := { t.isl with hold := some { cause := 3, since := t.isl.ft } } } :
          State).after)) ∧
  (∀ (s : State) (romOk : Bool) (h : Hold), s.isl.hold = some h → h.cause ≠ 2 → s.isl.mainPg = true → h.since + 10 * unitsPerMs ≤
    s.isl.ft → Gives (.mainResetRelease romOk) s (({ s with isl := { s.isl with hold := none } } : State).romFlow romOk)) ∧
  (∀ (s : State) (us : Nat), s.rd R.SEC_BOOT_STATUS_state = 1 → s.sec.fillDone = false → Gives (.fillDone true us 0 false) s
      (let t := ((s.raise R.MEM_FILL_STATUS_done).wr R.MEM_FILL_STATUS_fill_us (min us 0xFFFF)).raise R.HLT_BOOT_TEST_done; ({ t with mem := { t.mem with hbm := [], bad := [] }, sec := { t.sec with fillDone := true } }
          : State))) ∧
  (∀ (s : State), s.rd R.SEC_BOOT_STATUS_state = 1 → s.rd R.SEC_LOAD_PROGRESS_seg_done = 0 → 0 < hdrSegCount (s.slot (s.rd
    R.SEC_BOOT_STATUS_slot)).hdr → Gives (.segmentLoaded 0) s
      (let g := hdrSeg (s.slot (s.rd R.SEC_BOOT_STATUS_slot)).hdr 0;
       let t := s.wr R.SEC_LOAD_PROGRESS_seg_done 1; ({ t with l2 := Mem.write t.l2 g.2.2 (copyBody (s.slot (s.rd R.SEC_BOOT_STATUS_slot)).body g.1 g.2.1) }
          : State))) ∧
  (∀ (s : State), s.rd R.SEC_BOOT_STATUS_state = 1 → s.sec.fillDone = true → bit (s.rd R.SEC_LOAD_PROGRESS_seg_done) 0 = true →
    Gives .mainRelease s
      (let h := (s.slot (s.rd R.SEC_BOOT_STATUS_slot)).hdr;
       let t : State := { s.wr R.SEC_BOOT_STATUS_state 2 with time := {}, sec := { s.sec with mainUp := true } }; ((t.wr
          R.FCR_THREAD_PC_pc (0x2000000 + (hdrSeg h 0).2.2 + hdrEntry h) 0 0).wr R.FCR_THREAD_CFG_slice 0 0 0).threadEnable 0)) ∧
  (∀ (s : State), s.rd R.SEC_BOOT_STATUS_state = 2 → s.allLoaded = true → s.cuffOpen = false → Gives .cuffOpen s
    s.openCuff.afterCuff.drainDue) ∧
  (∀ (s : State) (status : Nat), s.rd R.SEC_BOOT_STATUS_state = 1 ∨ s.rd R.SEC_BOOT_STATUS_state = 2 → Gives (.bootAttemptFail
    status) s ((((s.resetOthers.wr R.SEC_BOOT_STATUS_last_status status).sat R.SEC_BOOT_REC_fail_count).logEvent 3 0
    (Config.eventCode 3 2) (Config.eventDetail 3 2)).selectBoot)) ∧
  (∀ (s : State), Gives (.powerLoss .idle) s s.powerOn)

/-- UPD_BEGIN without a session answers the first failing check, or retires and erases the target slot and opens a session;
UPD_DATA in order writes the chunk; UPD_END with the whole body answers img_digest, or writes the tagged header and makes
the slot VALID; UPD_ABORT and a silence of 10 s end the session; ACTIVATE completes and requests a reset; FUSE_COMMIT starts
a commit toward the running image's secver when the cuff is open; the deadline starts one without a mailbox; a blown fuse
raises the counter; SLOT_QUERY fills the mailbox; KEY_REVOKE refuses an absent row and blows the fuse of a row that is not
in use and not the last. Each clause says the whole next state. -/
def Obligations.UpdatesAndFuses : Prop :=
  (∀ (s : State) (req : Req) (m : Nat), s.mboxOpen req m → s.sec.upd = none → Gives (.updBegin req true) s
      (let t := s.mboxPut m 1 0;
       let h := t.mboxBytes m 1024; (if t.updCheck h ≠ 0 then t.mboxDone m (t.updCheck h) else
       let g := t.updTarget;
       let v := (if t.slotSt g = .empty then t else t.program g .retired).setSlot g erasedSlot; ({ v with sec := { v.sec with upd := some { mbox := m, target := g, hdr := h, last := t.time.ft } } }
          : State).mboxDone m 0).drainDue)) ∧
  (∀ (s : State) (req : Req) (m : Nat) (u : UpdSession), s.mboxOpen req m → s.sec.upd = some u → u.mbox = m → s.rd
    R.SEC_MBOX_OFF_offset m = u.got → s.rd R.SEC_MBOX_CMD_length m = 4096 → u.got + 4096 ≤ hdrBodyLen u.hdr → Gives (.updData
    req true) s
      (let t := s.mboxPut m 2 0;
       let sl := t.slot u.target;
       let v := t.setSlot u.target { sl with body := putBody sl.body u.got (t.mboxBytes m 4096) }; (({ v with sec := { v.sec with upd := some { u with got := u.got + 4096, last := t.time.ft } } }
          : State).mboxDone m 0).drainDue)) ∧
  (∀ (s : State) (req : Req) (m : Nat) (u : UpdSession), s.mboxOpen req m → s.sec.upd = some u → u.mbox = m → u.got = hdrBodyLen
    u.hdr → s.rd R.SEC_BOOT_STATUS_state ≠ 4 → Gives (.updEnd req true) s
      (let t := s.mboxPut m 3 0;
       let sl := t.slot u.target; (if Config.sha384Body (hdrBodyLen u.hdr) sl.body ≠ sliceBytes u.hdr 0x130 48 then
          t.endUpd.mboxDone m St.img_digest else (((t.setSlot u.target { sl with hdr := taggedHeader u.hdr (Config.imageTag (u.hdr.take 0x220) sl.body), word := wordOf .written }).program
          u.target .valid).endUpd).mboxDone m 0).drainDue)) ∧
  (∀ (s : State) (req : Req) (m : Nat), s.mboxOpen req m → Gives (.updAbort req) s (((s.mboxPut m 4 0).endUpd.mboxDone m
    0).drainDue)) ∧
  (∀ (s : State) (u : UpdSession), s.sec.upd = some u → Gives .updTimeout s ((s.runTo (u.last + 10 * unitsPerSec)).endUpd.mboxDone
    u.mbox St.upd_order)) ∧
  (∀ (s : State) (req : Req) (m : Nat), s.mboxOpen req m → Gives (.activate req) s ((((s.mboxPut m 5 0).mboxDone m 0).requestReset
    3).drainDue)) ∧
  (∀ (s : State) (req : Req) (m : Nat), s.mboxOpen req m → s.cuffOpen = true → s.on R.SEC_FUSE_CTR_busy = false → s.otp.count <
    s.rd R.SEC_IMAGE_INFO_secver → Gives (.fuseCommit req) s
      (let t := ((s.mboxPut m 6 0).wr R.SEC_FUSE_CTR_target (s.rd R.SEC_IMAGE_INFO_secver)).raise R.SEC_FUSE_CTR_busy; ({ (t.raise R.SEC_MBOX_STATUS_busy m) with sec := { t.sec with commitMbox := some m } }
          : State).drainDue)) ∧
  (∀ (s : State), s.cuffOpen = true → hdrCommitAfter (s.slot (s.rd R.SEC_BOOT_STATUS_slot)).hdr ≠ 0 → s.sec.autoDone = false → s.on
    R.SEC_FUSE_CTR_busy = false → s.otp.count < s.rd R.SEC_IMAGE_INFO_secver → Gives .fuseDeadline s
      (let t := s.runTo (s.sec.openedAt + hdrCommitAfter (s.slot (s.rd R.SEC_BOOT_STATUS_slot)).hdr * unitsPerSec);
       let t : State := { t with sec := { t.sec with autoDone := true } }; (t.wr R.SEC_FUSE_CTR_target (s.rd
          R.SEC_IMAGE_INFO_secver)).raise R.SEC_FUSE_CTR_busy)) ∧
  (∀ (s : State), s.on R.SEC_FUSE_CTR_busy = true → s.on R.SEC_FUSE_CTR_deferred = false → s.otp.count + 1 < s.rd
    R.SEC_FUSE_CTR_target → s.on R.HLT_STATUS_brace = false → Gives .fuseBlown s
      (let t := s.pass (100 * unitsPerUs); ({ t with otp := { t.otp with count := t.otp.count + 1 } } : State))) ∧
  (∀ (s : State) (req : Req) (m : Nat), s.mboxOpen req m → Gives (.slotQuery req) s
      (let t := s.mboxPut m 7 0; ((t.setMbox m 0 (t.sec.slotA.word ++ t.sec.slotB.word ++ t.sec.slotA.hdr ++
          t.sec.slotB.hdr)).mboxDone m 0).drainDue)) ∧
  (∀ (s : State) (req : Req) (m : Nat) (row : Fin 4), s.mboxOpen req m → s.otp.present row = false → Gives (.keyRevoke req row) s
    (((s.mboxPut m 8 row).mboxDone m St.img_key).drainDue)) ∧
  (∀ (s : State) (req : Req) (m : Nat) (row : Fin 4), s.mboxOpen req m → s.otp.present row = true → s.rd R.SEC_BOOT_STATUS_state =
    4 → (List.range 4).filter (fun k => s.otp.present k && !bit s.otp.revoked k) ≠ [row.val] → Gives (.keyRevoke req row) s
      (let t := s.mboxPut m 8 row; (({ t with otp := { t.otp with revoked := setBit t.otp.revoked row true } } : State).mboxDone
          m 0).drainDue))

/-- A read of good HBM words answers the bytes and changes nothing else; an aligned 8-byte write outside a fenced pseudo-channel
stores its bytes, and a poisoned one marks its word; an access that reaches the usable limit is refused, counted and
answered with all ones and mem_range; an SRAM read found uncorrectable is counted; the corrected-error window restarts every
count; the patrol scrubber leaves a good word alone and counts a corrected one; a legal range scrub starts, an abort ends
it, and without a running scrub neither end does anything; a sparing command starts the copy, whose end swaps the
pseudo-channel and writes its event. How far an aborted scrub has come is a free value. Each clause says the whole next
state. -/
def Obligations.MemoryAccess : Prop :=
  (∀ (s : State) (a n : Nat), s.mainUp = true → a + n ≤ s.hbmLimit → (wordsOf a n).any s.wordBad = false → Gives (.memAccess .hbm a
    (.read n) .good) s (s.memAnswer (Mem.read s.mem.hbm a n) false 0)) ∧
  (∀ (s : State) (a : Nat) (bs : List Byte) (bad : Bool), s.mainUp = true → bs.length = 8 → a % 8 = 0 → a + 8 ≤ s.hbmLimit → s.rd
    R.MEM_PC_STATE_state (hbmPc a) ≠ 3 → Gives (.memAccess .hbm a (.write bs bad) .good) s ((({ s with mem := { s.mem with hbm := Mem.write s.mem.hbm a bs } }
    : State).markWord (a / 8) bad).memAnswer [] false 0)) ∧
  (∀ (s : State) (a n : Nat) (f : EccFind), s.mainUp = true → s.hbmLimit < a + n → Gives (.memAccess .hbm a (.read n) f) s ((({ s with mem := { s.mem with rangeRefused := s.mem.rangeRefused + 1 } }
    : State).event 0x11 0 (Config.eventCode 0x11 0) (leBytes 8 a ++ List.replicate 8 0)).memAnswer (List.replicate n 0xFF) false
    St.mem_range)) ∧
  (∀ (s : State) (b i a syn : Nat), s.mainUp = true → Gives (.memAccess (.sram b i) a (.read 8) (.double syn)) s ((s.uncorrectable
    (sramId b i) a syn).memAnswer [] true St.mem_uncorr)) ∧
  (∀ (s : State), s.mainUp = true → Gives .ceWindow s
      (let t := s.runTo (s.mem.windowAt + max (s.rd R.MEM_ERR_CFG_ce_window_ms) 1 * unitsPerMs); ({ t with mem := { t.mem with counts := (t.mem.counts.map (fun p => (p.1, { p.2 with ce := 0, raised := false }))).filter (fun p => p.2 != ({} : EccCount)), windowAt := t.time.ft } }
          : State))) ∧
  (∀ (s : State) (word : Nat), s.mainUp = true → s.on R.MEM_PATROL_CFG_enable = true → 8 * word < s.hbmLimit → s.wordBad word =
    false → Gives (.patrolRead .hbm word .good) s s) ∧
  (∀ (s : State) (word syn : Nat), s.mainUp = true → s.on R.MEM_PATROL_CFG_enable = true → 8 * word < s.hbmLimit → s.wordBad word =
    false → Gives (.patrolRead .hbm word (.single syn)) s (s.corrected (hbmPc (8 * word)) (8 * word) syn)) ∧
  (∀ (s t : State) (req : Req), s.takes req 0x11 0 R.reg_MEM_SCRUB_CMD → t = s.cmdPut R.reg_MEM_SCRUB_CMD [(R.MEM_SCRUB_CMD_go, 1)]
    → t.on R.MEM_SCRUB_STATUS_busy = false → t.rd R.MEM_SCRUB_BASE_value % 4096 = 0 → t.rd R.MEM_SCRUB_LEN_value % 4096 = 0 →
    t.rd R.MEM_SCRUB_BASE_value + t.rd R.MEM_SCRUB_LEN_value ≤ t.hbmLimit → Gives (.scrubGo req) s
      (let u := t.raise R.MEM_SCRUB_STATUS_busy; ({ u with mem := { u.mem with scrub := some { base := t.rd R.MEM_SCRUB_BASE_value, len := t.rd R.MEM_SCRUB_LEN_value, recAddr := t.rd R.MEM_SCRUB_REC_value, start := t.now64, mode := t.rd R.MEM_SCRUB_CMD_mode } } }
          : State).after)) ∧
  (∀ (s : State) (req : Req), s.takes req 0x11 0 R.reg_MEM_SCRUB_CMD → s.on R.MEM_SCRUB_STATUS_busy = true → Gives (.scrubAbort
    req) s
      (let t := s.cmdPut R.reg_MEM_SCRUB_CMD [(R.MEM_SCRUB_CMD_abort, 1)]; (({ t with free := t.free + 1 } : State).scrubEnd
          (Config.scrubReach t.free) [] St.scrub_aborted).after)) ∧
  (∀ (s : State) (c : Scrub), s.mainUp = true → s.mem.scrub = some c → c.len ≤ 2 ^ 64 → s.mem.bad = [] → c.recAddr + 64 ≤
    s.hbmLimit → Gives (.scrubDone []) s
      (let t := (s.hbmWrite c.recAddr (leBytes 8 c.base ++ leBytes 8 c.len ++ leBytes 8 c.start ++ leBytes 8 s.now64 ++ leBytes
          8 (c.len / 8) ++ leBytes 4 0 ++ leBytes 4 0 ++ leBytes 8 (2 ^ 64 - 1) ++ leBytes 2 0 ++ leBytes 6 0)).1;
       let u := (t.wr R.MEM_SCRUB_STATUS_busy 0).wr R.MEM_SCRUB_STATUS_status 0; ({ u with mem := { u.mem with scrub := none } }
          : State).memEvent (hbmPc c.base) c.base 6 0 0)) ∧
  (∀ (s t : State) (req : Req) (p : Fin 64), s.takes req 0x11 0 R.reg_MEM_SPARE_CMD → t = (s.cmdPut R.reg_MEM_SPARE_CMD
    [(R.MEM_SPARE_CMD_go, 1), (R.MEM_SPARE_CMD_pc, p)]).wr R.MEM_SPARE_STATUS_pc p → s.on R.MEM_SPARE_STATUS_busy = false → t.on
    R.MEM_SPARE_CFG_spare_en = true → t.rd R.MEM_INFO_spared = 0 → Gives (.spareGo req p) s ((t.raise
    R.MEM_SPARE_STATUS_busy).wr R.MEM_PC_STATE_state 1 p).after) ∧
  (∀ (s : State) (p : Nat), s.mainUp = true → s.on R.MEM_SPARE_STATUS_busy = true → s.rd R.MEM_SPARE_STATUS_pc = p → Gives
    .spareDone s (((((s.wr R.MEM_SPARE_STATUS_busy 0).wr R.MEM_SPARE_STATUS_status 0).wr R.MEM_PC_STATE_state 2 p).wr
    R.MEM_INFO_spared 1).memEvent p 0 5 0 0))

/-- A link that found no Flit mode trains again after 100 ms; a link that becomes active with the cuff open owes its readiness
message; a link that goes down resets the function on it; a function's message is sent when it is ready; a configuration
read answers its value, and an access while the function is not ready is answered with Request Retry Status; clearing and
setting Bus Master Enable, FLR and its end, D3hot, the return to D0 and a clear of ATS Enable have the effects of their
rules; a held write is issued once the function may issue it. Each clause says the whole next state. -/
def Obligations.HostLinksAndFunctions : Prop :=
  (∀ (s : State) (hif link : Fin 2), s.mainUp = true → s.hasLink hif link = true → s.noFlit hif link = true → s.linkUp hif link =
    false → Gives (.linkTrainRetry hif link) s ((s.runTo (Store.get 0 s.hif.trainAt (2 * hif.val + link.val) + 100 *
    unitsPerMs)).trainLink hif link)) ∧
  (∀ (s : State) (hif link : Fin 2) (rate : Fin 16) (width : Fin 32), s.mainUp = true → s.hasLink hif link = true → s.linkUp hif
    link = false → s.cuffOpen = true → Gives (.dlActive hif link true rate width) s ((s.setLinkStatus hif link true false width
    rate).owe (100 + 2 * hif.val + link.val))) ∧
  (∀ (s : State) (hif link : Fin 2) (rate : Fin 16) (width : Fin 32), s.mainUp = true → s.hasLink hif link = true → s.linkUp hif
    link = false → Gives (.dlActive hif link false rate width) s ((s.setLinkStatus hif link false true 0 0).trainLink hif link)) ∧
  (∀ (s : State) (fn : Nat) (l : List Nat), s.mainUp = true → s.hif.owed = fn :: l → fn < 100 → s.fnReady fn = true → Gives
    .readinessMessage s (({ s with hif := { s.hif with owed := l } } : State).sendHost (.functionReady fn))) ∧
  (∀ (s : State) (hif link : Fin 2) (fn : Nat), s.mainUp = true → s.linkUp hif link = true → s.fnsOf hif link = [fn] → Gives
    (.linkDown hif link) s
      (let t := (s.setLinkStatus hif link false false 0 0).countDown hif link;
       let u := (t.funcReset fn St.host_link_down 2).wr R.HIF_PF_STATUS_flr_busy 0 (fn / 8) (fn % 8);
       let v : State := { u with hif := { u.hif with invals := u.hif.invals.filter (·.fn != fn), owed := u.hif.owed.filter (· != fn) } };
       let w := (v.hif.reads.filter (·.fn == fn)).foldl (fun w h => w.readEnds h) v; (({ w with hif := { w.hif with owed := w.hif.owed.filter (· != 100 + 2 * hif.val + link.val) } }
          : State).trainLink hif link).drainDue)) ∧
  (∀ (s : State) (hif : Fin 2) (pf : Fin 8) (r : CfgReg), s.mainUp = true → s.due = [] → s.fnPresent (8 * hif + pf) = true →
    s.fnReady (8 * hif + pf) = true → Gives (.configRequest hif pf r none) s (s.sendHost (.cplData (8 * hif + pf) (s.cfgRead (8
    * hif + pf) r)))) ∧
  (∀ (s : State) (hif : Fin 2) (pf : Fin 8) (r : CfgReg) (w : Option Nat), s.mainUp = true → s.due = [] → s.fnPresent (8 * hif +
    pf) = true → s.fnReady (8 * hif + pf) = false → Gives (.configRequest hif pf r w) s (s.sendHost (.cplRrs (8 * hif + pf)))) ∧
  (∀ (s : State) (hif : Fin 2) (pf : Fin 8), s.mainUp = true → s.fnPresent (8 * hif + pf) = true → s.fnReady (8 * hif + pf) = true
    → (s.func (8 * hif + pf)).bme = true → Gives (.bmeClear hif pf) s ((s.bmeStop (8 * hif + pf) St.bme_off).sendHost (.cplData
    (8 * hif + pf) 0)).drainDue) ∧
  (∀ (s : State) (hif : Fin 2) (pf : Fin 8), s.mainUp = true → s.due = [] → s.fnPresent (8 * hif + pf) = true → s.fnReady (8 * hif
    + pf) = true → Gives (.bmeSet hif pf) s ((s.setFunc (8 * hif + pf) { s.func (8 * hif + pf) with bme := true, bmeSeen := true }).sendHost
    (.cplData (8 * hif + pf) 0))) ∧
  (∀ (s : State) (hif : Fin 2) (pf : Fin 8) (w : HeldWrite) (l : List HeldWrite) (fn : Nat), s.mainUp = true → fn = 8 * hif.val +
    pf.val → (s.func fn).held = w :: l → s.cuffOpen = true → (s.func fn).bme = true → (s.func fn).atsEn = false → s.fnD3 fn =
    false → s.sliceFn w.slice = some fn → s.slicePasid w.slice = none → 0 < w.data.length → w.addr % 4096 + w.data.length ≤ 4096
    → Gives (.heldRequestIssue hif pf) s ((s.storeHost fn w.bad [(w.addr, w.data.length)] w.data).setFunc fn { s.func fn with held := l })) ∧
  (∀ (s : State) (hif : Fin 2) (pf : Fin 8) (fn : Nat), s.mainUp = true → fn = 8 * hif.val + pf.val → s.fnPresent fn = true →
    s.fnReady fn = true → Gives (.flr hif pf) s (((s.funcReset fn St.func_reset 1).raise R.HIF_PF_STATUS_flr_busy (fn / 8) (fn %
    8)).sendHost (.cplData fn 0)).drainDue) ∧
  (∀ (s t : State) (hif : Fin 2) (pf : Fin 8) (fn : Nat), s.mainUp = true → fn = 8 * hif.val + pf.val → s.on
    R.HIF_PF_STATUS_flr_busy hif pf = true → (s.slicesOf fn).all (fun x => !s.inSeq x) = true → t = s.wr
    R.HIF_PF_STATUS_flr_busy 0 hif pf → Gives (.flrDone hif pf) s (if t.fnReady fn then t.owe fn else t)) ∧
  (∀ (s : State) (hif : Fin 2) (pf : Fin 8) (fn : Nat), s.mainUp = true → fn = 8 * hif.val + pf.val → s.fnPresent fn = true →
    s.fnReady fn = true → s.fnD3 fn = false → Gives (.d3hotEnter hif pf) s (((s.bmeStop fn St.bme_off).raise R.HIF_PF_STATUS_d3
    (fn / 8) (fn % 8)).sendHost (.cplData fn 0)).drainDue) ∧
  (∀ (s : State) (hif : Fin 2) (pf : Fin 8) (fn : Nat), s.mainUp = true → fn = 8 * hif.val + pf.val → s.fnPresent fn = true →
    s.fnReady fn = true → s.fnD3 fn = true → Gives (.d3hotToD0 hif pf) s (((s.funcReset fn St.func_reset 3).raise
    R.HIF_PF_STATUS_flr_busy (fn / 8) (fn % 8)).sendHost (.cplData fn 0)).drainDue) ∧
  (∀ (s : State) (hif : Fin 2) (pf : Fin 8) (fn : Nat), s.mainUp = true → s.due = [] → fn = 8 * hif.val + pf.val → s.fnPresent fn =
    true → s.fnReady fn = true → Gives (.atsDisable hif pf) s (((s.setFunc fn { s.func fn with atsEn := false }).atcFlush
    fn).sendHost (.cplData fn 0)))

/-- A granted translation of the needed kind enters the cache, a refused one leaves its work to fail, and one marked stale by an
invalidation is discarded and requested again; an invalidation that touches nothing is only remembered, and is completed
when no read of it is left; a sendable vector sends one message and a masked one becomes pending, and a pending one that
becomes sendable is sent and cleared; a table access reads and writes 32-bit words; a legal read of BAR0 is answered with
the register, a request of a kind the device does not take with Unsupported Request, and a poisoned write is only reported;
a good completion that comes before its timeout gives its entry to the ring or its piece to the read it belongs to, counts
as late for an orphaned read and as dropped for an aborted entry; a timed-out or refused read of an entry stops its ring,
and one of an old generation is only reported. Each clause says the whole next state. -/
def Obligations.TranslationsInterruptsAndReads : Prop :=
  (∀ (s : State) (hif : Fin 2) (pf : Fin 8) (fn id target size : Nat) (rd wr : Bool) (x : Xlat), s.mainUp = true → fn = 8 * hif.val
    + pf.val → s.hif.xlats.find? (fun x => x.fn == fn && x.id == id) = some x → x.stale = false → (if x.write then wr else rd) =
    true → Gives (.translationCompletion hif pf id true target size rd wr) s
      (let n := floorPow2 63 (max size 4096); (({ s with hif := { s.hif with xlats := s.hif.xlats.filter (· != x) } } :
          State).atcAdd { fn := fn, pasid := x.pasid, page := x.page / n * n, size := n, target := target, rd := rd, wr := wr, used := 0 }).hostSettle.drainDue)) ∧
  (∀ (s : State) (hif : Fin 2) (pf : Fin 8) (fn id target size : Nat) (granted rd wr : Bool) (x : Xlat), s.mainUp = true → fn = 8 *
    hif.val + pf.val → s.hif.xlats.find? (fun x => x.fn == fn && x.id == id) = some x → x.stale = true → Gives
    (.translationCompletion hif pf id granted target size rd wr) s (({ s with hif := { s.hif with xlats := s.hif.xlats.filter (· != x) ++ [{ x with id := s.hif.nextId, stale := false }], nextId := s.hif.nextId + 1 } }
    : State).sendHost (.xlatReq fn s.hif.nextId x.page)).drainDue) ∧
  (∀ (s : State) (hif : Fin 2) (pf : Fin 8) (itag : Fin 32) (pasid : Option (Fin 1048576)) (addr size : Nat), s.mainUp = true →
    (s.hif.invals.filter (fun v => v.fn == 8 * hif.val + pf.val)).length < 32 → s.hif.atc = [] → s.hif.xlats = [] → Gives
    (.invalidationRequest hif pf itag pasid false addr size) s ({ s with hif := { s.hif with invals := s.hif.invals ++ [{ fn := 8 * hif.val + pf.val, itag := itag, arrived := s.time.ft, waits := [] }] } }
    : State)) ∧
  (∀ (s : State) (hif : Fin 2) (pf : Fin 8) (v : Inval), s.mainUp = true → s.hif.invals.find? (fun v => v.fn == 8 * hif.val +
    pf.val) = some v → v.waits.all (fun w => s.hif.reads.all (fun h => !(h.fn == w.1 && h.tag == w.2))) = true → Gives
    (.invalidationCompletion hif pf) s (({ s with hif := { s.hif with invals := s.hif.invals.erase v } } : State).sendHost
    (.invalCpl (8 * hif + pf) v.itag))) ∧
  (∀ (s : State) (hif : Fin 2) (pf : Fin 8) (vec : Fin 4096), s.mainUp = true → vec.val < s.msixCount (8 * hif + pf) →
    s.msixSendable (8 * hif + pf) vec = true → Gives (.msixFire hif pf vec) s (s.sendHost (.msi (8 * hif + pf) (s.msixEntry (8 *
    hif + pf) vec).addr (s.msixEntry (8 * hif + pf) vec).data))) ∧
  (∀ (s : State) (hif : Fin 2) (pf : Fin 8) (vec : Fin 4096), s.mainUp = true → vec.val < s.msixCount (8 * hif + pf) →
    s.msixSendable (8 * hif + pf) vec = false → Gives (.msixFire hif pf vec) s (s.setPending (8 * hif + pf) vec true)) ∧
  (∀ (s : State) (hif : Fin 2) (pf : Fin 8) (vec : Fin 4096), s.mainUp = true → s.msixPending (8 * hif + pf) vec = true →
    s.msixSendable (8 * hif + pf) vec = true → Gives (.msixUnmask hif pf vec) s ((s.sendHost (.msi (8 * hif + pf) (s.msixEntry
    (8 * hif + pf) vec).addr (s.msixEntry (8 * hif + pf) vec).data)).setPending (8 * hif + pf) vec false)) ∧
  (∀ (s : State) (hif : Fin 2) (pf : Fin 8) (i v : Nat), s.mainUp = true → s.fnPresent (8 * hif + pf) = true → s.memOk (8 * hif +
    pf) = true → i < 2048 → i < s.msixCount (8 * hif + pf) → Gives (.msixTableAccess hif pf (16 * i + 8) 4 (some v)) s ({ s with hif := { s.hif with msix := Store.put {} s.hif.msix (msixKey (8 * hif + pf) i) { s.msixEntry (8 * hif + pf) i with data := v % 2 ^ 32 } } }
    : State)) ∧
  (∀ (s : State) (hif : Fin 2) (pf : Fin 8) (i : Nat), s.mainUp = true → s.fnPresent (8 * hif + pf) = true → s.memOk (8 * hif + pf)
    = true → i < 2048 → i < s.msixCount (8 * hif + pf) → Gives (.msixTableAccess hif pf (16 * i + 12) 4 none) s (s.sendHost
    (.cplData (8 * hif + pf) (b2n (s.msixEntry (8 * hif + pf) i).masked)))) ∧
  (∀ (s : State) (hif : Fin 2) (pf : Fin 8) (a n off : Nat), s.mainUp = true → s.linkUp hif (s.fnLink (8 * hif + pf)) = true →
    s.memOk (8 * hif + pf) = true → s.barHit (8 * hif + pf) a = some (0, off) → n = 4 ∨ n = 8 → off % n = 0 → Gives
    (.inboundRequest hif pf (.memRead a n)) s ((s.busRead .host off n).2.sendHost (.cplData (8 * hif + pf) (s.busRead .host off
    n).1)).drainDue) ∧
  (∀ (s : State) (hif : Fin 2) (pf : Fin 8), s.mainUp = true → s.due = [] → s.linkUp hif (s.fnLink (8 * hif + pf)) = true → Gives
    (.inboundRequest hif pf .atomic) s (((s.hifErr (8 * hif + pf) 2).aer (8 * hif + pf) .unsupportedRequest).sendHost (.cplUr (8
    * hif + pf)))) ∧
  (∀ (s : State) (hif : Fin 2) (pf : Fin 8) (a : Nat) (d : List Byte), s.mainUp = true → s.due = [] → s.linkUp hif (s.fnLink (8 *
    hif + pf)) = true → s.memOk (8 * hif + pf) = true → Gives (.inboundRequest hif pf (.memWrite a d true)) s (s.aer (8 * hif +
    pf) .poisonedTlp)) ∧
  (∀ (s : State) (hif : Fin 2) (pf : Fin 8) (fn tag : Nat) (data : List Byte) (h : HostRead), s.mainUp = true → fn = 8 * hif.val +
    pf.val → s.hif.reads.find? (fun h => h.fn == fn && h.tag == tag) = some h → h.for_ = .entry → s.time.ft < s.readLimit h →
    h.old = false → h.got = [] → h.len = data.length → h.sgen = s.sliceGen h.slice → Gives (.readCompletion hif pf tag .success
    false data) s ((s.readEnds h).gotEntry h.ring h.count data).hostSettle.drainDue) ∧
  (∀ (s : State) (hif : Fin 2) (pf : Fin 8) (fn tag : Nat) (data : List Byte) (h : HostRead) (id : Nat) (wk : Option (Nat × Nat))
    (j : HostJob), s.mainUp = true → fn = 8 * hif.val + pf.val → s.hif.reads.find? (fun h => h.fn == fn && h.tag == tag) = some
    h → h.for_ = .job id wk → s.time.ft < s.readLimit h → h.old = false → h.got = [] → h.len = data.length → h.sgen = s.sliceGen
    h.slice → s.hif.jobs.find? (·.id == id) = some j → Gives (.readCompletion hif pf tag .success false data) s ((s.readEnds
    h).setJob (j.piece h.off data 0)).hostSettle.drainDue) ∧
  (∀ (s : State) (hif : Fin 2) (pf : Fin 8) (fn tag : Nat) (data : List Byte) (h : HostRead) (t x g : Nat), s.mainUp = true → fn =
    8 * hif.val + pf.val → s.hif.reads.find? (fun h => h.fn == fn && h.tag == tag) = some h → h.for_ = .orphan t x g → s.time.ft
    < s.readLimit h → h.old = false → h.got = [] → h.len = data.length → Gives (.readCompletion hif pf tag .success false data)
    s ((s.readEnds h).sat R.SLC_DISCARD_late 1 x).hostSettle.drainDue) ∧
  (∀ (s : State) (hif : Fin 2) (pf : Fin 8) (fn tag : Nat) (data : List Byte) (h : HostRead) (t : Nat), s.mainUp = true → fn = 8 *
    hif.val + pf.val → s.hif.reads.find? (fun h => h.fn == fn && h.tag == tag) = some h → h.for_ = .aborted t → s.time.ft <
    s.readLimit h → h.old = false → h.got = [] → h.len = data.length → Gives (.readCompletion hif pf tag .success false data) s
    (s.readEnds h).lateDrop.hostSettle.drainDue) ∧
  (∀ (s : State) (hif : Fin 2) (pf : Fin 8) (fn tag : Nat) (p : Bool) (data : List Byte) (h : HostRead), s.mainUp = true → fn = 8 *
    hif.val + pf.val → s.hif.reads.find? (fun h => h.fn == fn && h.tag == tag) = some h → h.for_ = .entry → s.time.ft <
    s.readLimit h → h.old = false → h.sgen = s.sliceGen h.slice → Gives (.readCompletion hif pf tag .unsupported p data) s
    ((s.readEnds h).stopRing h.ring St.host_ur).hostSettle.drainDue) ∧
  (∀ (s : State) (hif : Fin 2) (pf : Fin 8) (fn tag : Nat) (st : CplSt) (data : List Byte) (h : HostRead), s.mainUp = true → fn = 8
    * hif.val + pf.val → s.hif.reads.find? (fun h => h.fn == fn && h.tag == tag) = some h → s.time.ft < s.readLimit h → h.old =
    true → h.len ≤ h.got.length + data.length → Gives (.readCompletion hif pf tag st false data) s ((s.readEnds h).hifErr fn
    5).hostSettle.drainDue) ∧
  (∀ (s : State) (hif : Fin 2) (pf : Fin 8) (fn tag : Nat) (h : HostRead), s.mainUp = true → fn = 8 * hif.val + pf.val →
    s.hif.reads.find? (fun h => h.fn == fn && h.tag == tag) = some h → h.old = true → Gives (.cplTimeout hif pf tag) s
    (((s.runTo (s.readLimit h)).readEnds h).hifErr fn 6).hostSettle.drainDue) ∧
  (∀ (s : State) (hif : Fin 2) (pf : Fin 8) (fn tag : Nat) (h : HostRead), s.mainUp = true → fn = 8 * hif.val + pf.val →
    s.hif.reads.find? (fun h => h.fn == fn && h.tag == tag) = some h → h.for_ = .entry → h.old = false → Gives (.cplTimeout hif
    pf tag) s
      (let u := (((s.runTo (s.readLimit h)).readEnds h).hifErr fn 6).aer fn .completionTimeout; (if h.sgen ≠ u.sliceGen h.slice
          then u.sat R.SLC_DISCARD_late 1 h.slice else u.stopRing h.ring St.cpl_timeout).hostSettle.drainDue))

/-- ACTIVATE of a FREE slice with an acceptable binding makes it ACTIVE; RESET and REMOVE of an ACTIVE slice other than 0 begin
their sequence, and on slice 0 are refused; a sequence that waits advances the generation when no orphan tag blocks it; a
sequence with nothing left ends: the slice is ACTIVE after a reset, and after a removal FREE with its binding and quotas
cleared; a legal quota write takes both fields, and one whose limit is below its reserve is discarded and counted; evring
takes a ring of type 2 of the slice; a released page is zeroed. Each clause says the whole next state. -/
def Obligations.SliceCommands : Prop :=
  (∀ (s t : State) (req : Req) (x : Fin 4096), s.takes req 0x05 0 R.reg_SLC_CMD → t = s.slicePut 1 x → s.on R.SLC_CMD_STATUS_busy =
    false → t.sliceState x = 0 → t.bindOk x = true → t.on R.SLC_STATE_evring_en x = false → Gives (.sliceActivate req x) s
    (((t.wr R.SLC_STATE_state 1 x).wr R.SLC_CMD_STATUS_status 0).wr R.SLC_CMD_STATUS_busy 0).after) ∧
  (∀ (s t : State) (req : Req) (x : Fin 4096), s.takes req 0x05 0 R.reg_SLC_CMD → t = s.slicePut 2 x → s.on R.SLC_CMD_STATUS_busy =
    false → t.sliceState x = 1 → x.val ≠ 0 → Gives (.sliceReset req x) s ((t.raise R.SLC_CMD_STATUS_busy).seqStart x false
    0).after) ∧
  (∀ (s : State) (req : Req), s.takes req 0x05 0 R.reg_SLC_CMD → s.on R.SLC_CMD_STATUS_busy = false → Gives (.sliceReset req 0) s
    (((s.slicePut 2 0).wr R.SLC_CMD_STATUS_status St.slice_op0).wr R.SLC_CMD_STATUS_busy 0).after) ∧
  (∀ (s t : State) (req : Req) (x : Fin 4096), s.takes req 0x05 0 R.reg_SLC_CMD → t = s.slicePut 3 x → s.on R.SLC_CMD_STATUS_busy =
    false → t.sliceState x = 1 → x.val ≠ 0 → Gives (.sliceRemove req x) s ((t.raise R.SLC_CMD_STATUS_busy).seqStart x true
    0).after) ∧
  (∀ (s : State) (x : Fin 4096) (q : SliceSeq), s.mainUp = true → Store.get none s.slc.seqs x = some q → q.waiting = true →
    s.genBlocked x = false → s.rng.rings = [] → s.rng.late = [] → s.stq.vols = [] → s.rdm.qps = [] → Gives (.sliceGenAdvance x)
    s
      (let t := s.wr R.SLC_STATE_gen ((s.sliceGen x + 1) % 256) x;
       let u : State := { t with slc := { t.slc with seqs := Store.put none t.slc.seqs x (some { q with waiting := false }) } };
          ((((u.orphanReads x (s.sliceGen x) (fun _ _ => none)).jobsGone x).forgetCopyIns []).mrsGone x []).keysGone x)) ∧
  (∀ (s : State) (x : Fin 4096) (q : SliceSeq), s.mainUp = true → Store.get none s.slc.seqs x = some q → q.waiting = false →
    q.removal = false → q.cause ≠ 0 → s.seqBusy x = false → s.rng.rings = [] → s.slc.pages = [] → Gives (.sliceSequenceEnd x) s
      (let t : State := { s with slc := { s.slc with seqs := Store.put none s.slc.seqs x none } };
       let u := (List.range 16).foldl (fun s p => s.wr R.SLC_QUOTA_in_use 0 x p) (t.wr R.SLC_STATUS_clearing_pages
          s.slc.clearing.length);
       let v := (u.shaperFull x).wr R.SLC_STATE_state 1 x; v.sliceDone x q.oldGen (v.sliceGen x) q.cause false)) ∧
  (∀ (s : State) (pg : Nat) (rest : List Nat), s.mainUp = true → s.slc.clearing = pg :: rest → Gives .pageClearDone s
      (let t := s.hbmZero (pg * 2097152) ((pg + 1) * 2097152); ({ t with slc := { t.slc with clearing := rest } } : State).wr
          R.SLC_STATUS_clearing_pages rest.length)) ∧
  (∀ (s : State) (req : Req) (x : Fin 4096) (p : Fin 16) (v : Nat), s.takes req 0x05 0 R.reg_SLC_QUOTA x → v < 2 ^ 42 → v % 2 ^ 21
    ≤ v / 2 ^ 21 → s.quotaSlices.foldl (fun a y => if y = x.val then a else a + s.rd R.SLC_QUOTA_reserve y p) (v % 2 ^ 21) ≤
    s.poolSize p → s.inUse x p ≤ v / 2 ^ 21 → Gives (.quotaWrite req x p v) s ((s.wr R.SLC_QUOTA_limit (v / 2 ^ 21) x p).wr
    R.SLC_QUOTA_reserve (v % 2 ^ 21) x p).after) ∧
  (∀ (s : State) (req : Req) (x : Fin 4096) (p : Fin 16) (v : Nat), s.takes req 0x05 0 R.reg_SLC_QUOTA x → v < 2 ^ 42 → v / 2 ^ 21
    < v % 2 ^ 21 → Gives (.quotaWrite req x p v) s ((s.wr R.SLC_QUOTA_ERR_status St.reserve_over).sat
    R.SLC_QUOTA_ERR_count).after) ∧
  (∀ (s : State) (req : Req) (x : Fin 4096) (r : Fin 65536) (y : Ring), s.takes req 0x05 0 R.reg_SLC_STATE x → s.ring r = some y →
    y.type = 2 → y.slice = x → Gives (.evringWrite req x (2 ^ 48 + r.val * 2 ^ 32)) s ((s.wr R.SLC_STATE_evring r x).wr
    R.SLC_STATE_evring_en 1 x).after)

/-- CREATE with every check passed makes a DISABLED ring, charges pool 0 and maps its doorbell; ENABLE of a DISABLED ring loads
the staged context with every count at its head; DISABLE of an ACTIVE ring stops it, with flush completing what is posted;
DESTROY of a DISABLED ring removes it; READ copies the context into the stage; a ring with nothing left is DISABLED; an idle
context goes to its husk, and a loaded husk brings it back; a doorbell post moves the tail and an acknowledge records its
count. Each clause says the whole next state. -/
def Obligations.RingCommands : Prop :=
  (∀ (s t u : State) (req : Req) (r : Fin 65536) (x : Ring), s.takes req 0x06 0 R.reg_RNG_CMD → t = s.ringPut 1 r → x = ringOf
    t.stageImage t.time.ft → t.ring r = none → t.ctxLegal t.stageImage = true → t.sliceActive x.slice = true → t.ctxRange
    t.stageImage = some u → t.dbFree t.stageImage none = true → x.type ≠ 4 → u.allocStatus x.slice 0 = 0 → u.resident < 32768 →
    Gives (.ringCreate req r) s
      (let v := u.charge x.slice 0; ((((v.wr R.RNG_STATUS_resident (v.resident + 1)).setRing r { x with eng := { x.eng with resident := true } }).mapDb
          x r).wr R.RNG_CMD_STATUS_status 0).after)) ∧
  (∀ (s t u : State) (req : Req) (r : Fin 65536) (x y : Ring), s.takes req 0x06 0 R.reg_RNG_CMD → t = s.ringPut 2 r → t.ring r =
    some x → x.state = 0 → y = ringOf t.stageImage t.time.ft → t.ctxLegal t.stageImage = true → (y.type, y.slice, y.target) =
    (x.type, x.slice, x.target) → t.ctxRange t.stageImage = some u → t.dbFree t.stageImage (some r.val) = true → Gives
    (.ringEnable req r) s
      (let z := { y with tail := y.head, cpl := y.head, ack := y.head, state := 1, eng := { y.eng with resident := x.eng.resident, irqAt := y.head, evSeq := x.eng.evSeq } };
          (((((u.endFlight r x).unmapDb x).setRing r z).mapDb z r).wr R.RNG_CMD_STATUS_status 0).after)) ∧
  (∀ (s : State) (req : Req) (r : Fin 65536) (x : Ring), s.takes req 0x06 0 R.reg_RNG_CMD → s.ring r = some x → x.state = 1 → Gives
    (.ringDisable req r false) s (((s.ringPut 3 r).setRing r ({ x with state := 2, eng := { x.eng with copies := [], flushing := false } }).flushPosted).wr
    R.RNG_CMD_STATUS_status 0).after) ∧
  (∀ (s : State) (req : Req) (r : Fin 65536) (x : Ring), s.takes req 0x06 0 R.reg_RNG_CMD → s.ring r = some x → x.state = 0 → Gives
    (.ringDestroy req r) s (((s.ringPut 4 r).removeRing r x).wr R.RNG_CMD_STATUS_status 0).after) ∧
  (∀ (s : State) (req : Req) (r : Fin 65536) (x : Ring), s.takes req 0x06 0 R.reg_RNG_CMD → s.ring r = some x → Gives (.ringRead
    req r) s (((s.ringPut 5 r).setStage x.image).wr R.RNG_CMD_STATUS_status 0).after) ∧
  (∀ (s : State) (r : Fin 65536) (x : Ring), s.mainUp = true → s.ring r = some x → x.state = 2 → x.eng.flight = [] → before x.head
    x.tail = false → Gives (.ringDrained r) s (s.setRing r { x with state := 0, eng := { x.eng with flushing := false, copies := [], marked := [], refetch := 0 } })) ∧
  (∀ (s : State) (r : Fin 65536) (x : Ring), s.mainUp = true → s.ring r = some x → x.eng.loading = true → x.eng.parked = [] →
    s.resident < 32768 → s.huskAddr r + 64 ≤ s.hbmLimit → (wordsOf (s.huskAddr r) 64).any s.wordBad = false → Gives
    (.ringHuskLoaded r) s
      (let t := s.setRing r { x with eng := { x.eng with resident := true, loading := false, parked := [], used := s.time.ft } };
          (t.wr R.RNG_STATUS_resident (s.resident + 1)).wr R.RNG_STATUS_loading (s.rd R.RNG_STATUS_loading - 1))) ∧
  (∀ (s : State) (r : Fin 65536) (x : Ring), s.mainUp = true → s.rng.rings = [(r.val, some x)] → x.eng.resident = true → x.idle =
    true → x.type ≠ 4 → s.rd R.RNG_CFG_idle_us ≠ 0 → 0 < s.rd R.RNG_STATUS_loading → 32768 ≤ s.resident → Gives (.ringEvict r) s
      (let t := s.runTo (x.eng.used + s.rd R.RNG_CFG_idle_us * unitsPerUs);
       let u := (t.hbmWrite (s.huskAddr r) x.image).1; (u.setRing r { x with eng := { x.eng with resident := false } }).wr
          R.RNG_STATUS_resident (u.resident - 1))) ∧
  (∀ (s : State) (hif : Fin 2) (pf : Fin 8) (page : Fin 4096) (gen : Fin 256) (c r : Nat) (x : Ring), s.mainUp = true → s.fnReady
    (8 * hif + pf) = true → (s.pageSlice (8 * hif + pf) page).isSome = true → s.on R.RNG_DB_MAP_valid (dbIndex (8 * hif + pf)
    page) = true → s.rd R.RNG_DB_MAP_ring (dbIndex (8 * hif + pf) page) = r → s.ring r = some x → x.state = 1 → x.mem = true →
    x.eng.resident = true → s.sliceActive x.slice = true → s.sliceGen x.slice = gen → c < 2 ^ 32 → before c x.tail = false →
    cdiff c x.cpl ≤ x.size → c ≠ x.tail → Gives (.doorbellPost hif pf page gen c) s (s.setRing r { x with tail := c, eng := { x.eng with used := s.time.ft } })) ∧
  (∀ (s : State) (hif : Fin 2) (pf : Fin 8) (page : Fin 4096) (gen : Fin 256) (c r : Nat) (x : Ring), s.mainUp = true → s.fnReady
    (8 * hif + pf) = true → (s.pageSlice (8 * hif + pf) page).isSome = true → s.on R.RNG_DB_MAP_valid (dbIndex (8 * hif + pf)
    page) = true → s.rd R.RNG_DB_MAP_ring (dbIndex (8 * hif + pf) page) = r → s.ring r = some x → x.state = 1 → x.irqEn = false
    → x.eng.resident = true → s.sliceActive x.slice = true → s.sliceGen x.slice = gen → c < 2 ^ 32 → Gives (.doorbellAck hif pf
    page gen c) s (s.setRing r { x with ack := c, eng := { x.eng with armed := true } }))

/-- An entry of a ring in HBM is read; a covered entry with phase 0 is read again; an entry that passes every check starts with
a tag of pool 1; a staged payload is fetched ahead, and an entry released in time is sent at its launch; NOP completes with
success; a WAIT of a count already reached completes, one not reached waits, and ends with success, timeout or wait_gone; an
ABORT of an entry not started marks it, and one that arrives ends its target as aborted; a completion is written with the
tag returned; the moderation timer fires; a buffer and an event slot are posted, and an event record fills the slot. The
tag's number is a free value. Each clause says the whole next state. -/
def Obligations.DescriptorsAndCompletions : Prop :=
  (∀ (s : State) (r : Fin 65536) (x : Ring) (c : Nat), s.mainUp = true → s.ring r = some x → x.state = 1 → x.eng.resident = true →
    x.mem = true → x.wants = some c → x.entry c + 64 ≤ s.hbmLimit → (wordsOf (x.entry c) 64).any s.wordBad = false → Gives
    (.descriptorRead r) s (s.gotEntry r c (Mem.read s.mem.hbm (x.entry c) 64))) ∧
  (∀ (s : State) (r : Fin 65536) (x : Ring) (d : List Byte), s.mainUp = true → s.ring r = some x → x.state = 1 → x.mem = true →
    before x.head x.tail = true → x.eng.copies = [(x.head, d)] → dPhase d = false → Gives (.refetch r) s
      (let t := s.pass (max (s.rd R.RNG_CFG_refetch_us) 1 * unitsPerUs);
       let y := { x with eng := { x.eng with copies := [], refetch := x.eng.refetch + 1 } }; (t.setRing r y).readHbmEntry r y
          x.head)) ∧
  (∀ (s : State) (r : Fin 65536) (x : Ring) (d : List Byte), s.mainUp = true → s.ring r = some x → x.type = 0 → s.flight r x.head =
    none → s.sendHeld r = false → x.state = 1 → before x.head x.tail = true → s.rng.waits = [] → x.eng.resident = true →
    x.eng.flushing = false → x.eng.marked = [] → x.eng.copies = [(x.head, d)] → dPhase d = true → s.startCheck x d = 0 → dFence
    d = false → s.sliceState (dSlice d) = 1 → s.allocStatus (dSlice d) 1 = 0 → Gives (.descriptorStart r) s
      (let u := ({ s with free := s.free + 1 } : State).charge (dSlice d) 1;
       let g : Flight := { count := x.head, tag := some (freeTag s.tagsHeld s.tagsHeld.length (Config.tagPick s.free)), desc := d, slice := dSlice d, sgen := s.sliceGen (dSlice d), fgen := (s.sliceFn (dSlice d)).map s.fnGen, launch := dLaunch d, fetched := s.time.ft, staged := dLaunch d != 0, startAt := s.time.ft };
       let v := u.setRing r { x with head := cnt (x.head + 1), eng := { x.eng with copies := [], refetch := 0, marked := [], used := s.time.ft, flight := x.eng.flight ++ [g] } };
          (if g.staged then v else v.payloadRead r x g).drainDue)) ∧
  (∀ (s : State) (r : Fin 65536) (x : Ring) (g : Flight), s.mainUp = true → s.ring r = some x → x.eng.flight.find? (fun g =>
    g.staged && !g.payload && !s.payloadAsked r g.count) = some g → s.stagedCount < 512 → dOpcode g.desc ≠ 0x10 ∨ x.mem = true →
    Gives (.launchPrefetch r) s ((s.runTo (ft64Units g.launch - max (s.rd R.FT_LAUNCH_CFG_prefetch_us) 1 *
    unitsPerUs)).modFlight r g.count (fun g => { g with payload := true }))) ∧
  (∀ (s : State) (r : Fin 65536) (x : Ring) (g : Flight), s.mainUp = true → s.ring r = some x → x.eng.flight.find? (fun g =>
    g.staged && !g.payload && !s.payloadAsked r g.count) = some g → s.stagedCount < 512 → dOpcode g.desc = 0x10 → x.mem = false
    → sendOk g.desc = true → Gives (.launchPrefetch r) s ((s.runTo (ft64Units g.launch - max (s.rd R.FT_LAUNCH_CFG_prefetch_us)
    1 * unitsPerUs)).wantHost (.work r g.count) g.slice (fieldLE g.desc 0x10 8) (fieldLE g.desc 0x18 4))) ∧
  (∀ (s : State) (r : Fin 65536) (x : Ring) (g : Flight), s.mainUp = true → s.ring r = some x → x.firstStaged = some g → s.time.ft
    ≤ ft64Units g.launch → needsPayload g = false ∨ g.payload = true → Gives (.launchRelease r) s ((s.runTo (ft64Units
    g.launch)).modFlight r g.count (fun g => { g with staged := false }))) ∧
  (∀ (s : State) (r : Fin 65536) (g : Flight), s.mainUp = true → s.toPerform r [0] = some g → Gives (.nop r) s (s.finish r g.count
    { status := 0 })) ∧
  (∀ (s : State) (r : Fin 65536) (x y : Ring) (g : Flight), s.mainUp = true → s.ring r = some x → s.toPerform r [1] = some g →
    fieldLE g.desc 0x12 2 = 0 → zeroFrom g.desc 0x1C = true → s.ring (fieldLE g.desc 0x10 2) = some y → y.slice = x.slice ∨
    x.slice = 0 → reached y.cpl (fieldLE g.desc 0x14 4) = true → Gives (.wait r) s (s.finish r g.count { status := 0 })) ∧
  (∀ (s : State) (r : Fin 65536) (x y : Ring) (g : Flight), s.mainUp = true → s.ring r = some x → s.toPerform r [1] = some g →
    fieldLE g.desc 0x12 2 = 0 → zeroFrom g.desc 0x1C = true → s.ring (fieldLE g.desc 0x10 2) = some y → y.slice = x.slice ∨
    x.slice = 0 → reached y.cpl (fieldLE g.desc 0x14 4) = false → fieldLE g.desc 0x18 4 = 0 → Gives (.wait r) s
      (let t := s.performed r g.count; ({ t with rng := { t.rng with waits := t.rng.waits ++ [{ ring := r, count := g.count, watched := fieldLE g.desc 0x10 2, target := fieldLE g.desc 0x14 4, deadline := none }] } }
          : State))) ∧
  (∀ (s : State) (r : Fin 65536) (y : Ring) (o : WaitOn), s.mainUp = true → s.rng.waits.find? (·.ring == r.val) = some o → s.ring
    o.watched = some y → reached y.cpl o.target = true → Gives (.waitSatisfied r) s ((s.dropWait o).finish r o.count { status := 0 })) ∧
  (∀ (s : State) (r : Fin 65536) (y : Ring) (o : WaitOn) (u : Nat), s.mainUp = true → s.rng.waits.find? (·.ring == r.val) = some o
    → s.ring o.watched = some y → reached y.cpl o.target = false → o.deadline = some u → Gives (.waitTimeout r) s (((s.runTo
    u).dropWait o).finish r o.count { status := St.wait_timeout })) ∧
  (∀ (s : State) (r : Fin 65536) (o : WaitOn), s.mainUp = true → s.rng.waits.find? (·.ring == r.val) = some o → s.ring o.watched =
    none → Gives (.waitGone r) s ((s.dropWait o).finish r o.count { status := St.wait_gone })) ∧
  (∀ (s : State) (r : Fin 65536) (x y : Ring) (g : Flight) (t c : Nat), s.mainUp = true → s.ring r = some x → s.toPerform r [2] =
    some g → fieldLE g.desc 0x12 2 = 0 → zeroFrom g.desc 0x18 = true → t = fieldLE g.desc 0x10 2 → c = fieldLE g.desc 0x14 4 →
    s.ring t = some y → y.slice = x.slice ∨ x.slice = 0 → before c y.tail = true → before c (cnt (y.tail + 2 ^ 32 - y.size)) =
    false → before c y.head = false → Gives (.abort r) s ((s.setRing t { y with eng := { y.eng with marked := y.eng.marked ++ [c] } }).finish
    r g.count { status := 0 })) ∧
  (∀ (s : State) (a : AbortOn) (l : List AbortOn), s.mainUp = true → s.due = [] → s.rng.aborts = a :: l → s.flight a.tRing a.tCount
    = none → Gives .abortArrive s (({ s with rng := { s.rng with aborts := l } } : State).finish a.ring a.count { status := St.too_late })) ∧
  (∀ (s : State) (r : Fin 65536) (x : Ring) (g : Flight) (k : Cpl), s.mainUp = true → s.ring r = some x → x.eng.resident = true →
    x.nextCpl = some g → g.cpl = some k → g.tag.isSome = true → g.sgen = s.sliceGen g.slice → x.mem = true → x.slice = 0 →
    x.wbEn = false → x.irqEn = false → x.entry g.count + 64 ≤ s.hbmLimit → x.entry g.count % 8 = 0 → (cplBytes g k
    s.now64).length = 64 → Gives (.completionWrite r) s (((s.hbmWrite (x.entry g.count) (cplBytes g k s.now64)).1.retireFlight r
    g).modRing r (fun x => { x with cpl := cnt (x.cpl + 1) }))) ∧
  (∀ (s : State) (r : Fin 65536) (x : Ring) (u : Nat), s.mainUp = true → s.ring r = some x → x.eng.pendSince = some u → x.signals =
    true → x.modUs ≠ 0 → Gives (.modTimer r) s ((s.runTo (u + x.modUs * unitsPerUs)).ringFire r)) ∧
  (∀ (s : State) (r : Fin 65536) (g : Flight), s.mainUp = true → s.toPerform r [0x11] = some g → 64 ≤ fieldLE g.desc 0x18 4 →
    fieldLE g.desc 0x18 4 ≤ 16384 → zeroFrom g.desc 0x1C = true → Gives (.recvBuf r) s (s.modFlight r g.count (fun g => { g with performed := true }))) ∧
  (∀ (s : State) (r : Fin 65536) (g : Flight), s.mainUp = true → s.toPerform r [3] = some g → Gives (.eventSlot r) s (s.modFlight r
    g.count (fun g => { g with performed := true }))) ∧
  (∀ (s : State) (e : EventRec) (l : List EventRec) (r : Nat) (x : Ring) (g : Flight), s.mainUp = true → s.evq = e :: l → s.on
    R.SLC_STATE_evring_en e.toSlice = true → s.rd R.SLC_STATE_evring e.toSlice = r → s.ring r = some x → x.type = 2 →
    x.firstPosted 3 = some g → Gives .eventRecord s ((({ s with evq := l } : State).setRing r { x with eng := { x.eng with evSeq := x.eng.evSeq + 1, lost := 0 } }).finish
    r g.count { status := 0, bytes := 32, x18 := leBytes 8 x.eng.evSeq ++ eventBytes { e with lost := x.eng.lost } }))

/-- A partner that resolves to the port's rate ends negotiation; a mismatch restarts it after 1 s; a training that takes 1 s
starts again and is counted; an aligned port in TRAINING without auto-negotiation, with the cuff open, is UP with its event;
a local fault at an UP port counts a link loss and enters FAULT, which after 10 ms trains again; loss of signal trains
again; a reversal is detected in 800G; a lane shorted to ground is shut and its port enters LANE_FAULT, and a retry of a
lane that is no longer shorted drives it again. Each clause says the whole next state. -/
def Obligations.PortStates : Prop :=
  (∀ (s : State) (p : Fin 64), s.mainUp = true → s.portState p = 1 → s.portAn p = true → Gives (.anResolved p (s.portRate p)) s
    (((s.setPort p R.PRT_PORT_STATUS_an_done 1).setPort p R.PRT_PORT_STATUS_an_mismatch 0).waitNow p)) ∧
  (∀ (s : State) (p : Fin 64) (rate : Nat), s.mainUp = true → s.portState p = 1 → s.portAn p = true → rate ≠ s.portRate p → Gives
    (.anResolved p rate) s (((s.setPort p R.PRT_PORT_STATUS_an_mismatch 1).setPort p R.PRT_PORT_STATUS_an_done 0).waitNow p)) ∧
  (∀ (s : State) (p : Fin 64), s.mainUp = true → s.portState p = 1 → s.portBit p R.PRT_PORT_STATUS_an_mismatch = true → Gives
    (.anRestart p) s (((s.runTo ((s.lane p).waitAt + unitsPerSec)).setPort p R.PRT_PORT_STATUS_an_done 0).waitNow p)) ∧
  (∀ (s : State) (p : Fin 64), s.mainUp = true → s.portState p = 1 → s.portLt p = true → s.portBit p R.PRT_PORT_STATUS_an_done =
    true → Gives (.trainTimeout p) s ((((s.runTo ((s.lane p).waitAt + unitsPerSec)).prtCnt p 18).setPort p
    R.PRT_PORT_STATUS_an_done 0).waitNow p)) ∧
  (∀ (s : State) (p : Fin 64) (inv : Fin 256), s.mainUp = true → s.cuffOpen = true → s.portState p = 1 → s.portBit p
    R.PRT_PORT_STATUS_an_done = true → Gives (.portUp p inv) s
      (let t := ((s.setPort p R.PRT_PORT_STATUS_state 2).setPort p R.PRT_PORT_STATUS_lt_done (b2n (s.portLt p))).setPortUp p
          true;
       let u := ((t.setPort p R.PRT_PORT_STATUS_local_fault 0).setPort p R.PRT_PORT_STATUS_remote_fault 0).setLanes p 2;
          (((u.clearLos p).setInverted p inv).portEvent p 1 []).linkAen p)) ∧
  (∀ (s : State) (p : Fin 64), s.mainUp = true → s.portState p = 2 → Gives (.portFault p false) s ((((s.portDown p 1).setPort p
    R.PRT_PORT_STATUS_local_fault 1).setPort p R.PRT_PORT_STATUS_state 3).waitNow p)) ∧
  (∀ (s : State) (p : Fin 64), s.mainUp = true → s.portState p = 3 → Gives (.faultTimeout p) s ((s.runTo ((s.lane p).waitAt + 10 *
    unitsPerMs)).train p)) ∧
  (∀ (s : State) (p : Nat) (l : Fin 64), s.mainUp = true → s.portOfLane l = some p → s.portState p = 2 → Gives (.lossOfSignal l) s
    ((((s.portDown p 0).train p).wr R.PRT_LANE_STATUS_los 1 (l / 8) (l % 8)).wr R.PRT_LANE_STATUS_state 3 (l / 8) (l % 8))) ∧
  (∀ (s : State) (g : Fin 8), s.mainUp = true → s.quadMode g 0 = 6 → Gives (.groupReversal g) s ((s.raise R.PRT_GRP_STATUS_reversed
    g).event 7 g 4 (leBytes 1 g ++ List.replicate 15 0))) ∧
  (∀ (s t : State) (l : Fin 144) (p : Nat), s.mainUp = true → l.val < 64 → s.laneShut l = false → t = ((s.raise
    R.PRT_LANE_STATUS_shut (l / 8) (l % 8)).wr R.PRT_LANE_STATUS_state 4 (l / 8) (l % 8)).raise R.PRT_LANE_STATUS_short_gnd (l /
    8) (l % 8) → t.portOfLane l = some p → t.portState p = 2 → Gives (.laneShort l none) s ((((t.portDown p 2).setPort p
    R.PRT_PORT_STATUS_state 4).setLanes p 0).eventBoth 7 (l / 8) 3 (leBytes 1 l ++ List.replicate 15 0)).drainDue) ∧
  (∀ (s t : State) (req : Req) (l : Fin 144) (p : Nat), l.val < 64 → s.takes req 0x07 (l / 8) R.reg_PRT_LANE_STATUS (l / 8) → s.on
    R.PRT_LANE_STATUS_short_gnd (l / 8) (l % 8) = true → s.laneShut l = true → t = (((s.wr R.PRT_LANE_STATUS_short_gnd 0 (l / 8)
    (l % 8)).wr R.PRT_LANE_STATUS_short_lane 0 (l / 8) (l % 8)).wr R.PRT_LANE_STATUS_shut 0 (l / 8) (l % 8)).wr
    R.PRT_LANE_STATUS_state 0 (l / 8) (l % 8) → t.portOfLane l = some p → t.portState p = 4 → (t.lanesOf p).all (fun l =>
    !t.laneShut l) = true → Gives (.laneRetry req l false) s (t.train p).drainDue)

/-- A good frame that no management filter takes is counted and goes to its group's pipeline; the tail of a frame being cut
through makes it whole; a port that is UP sends the stored frame it has in hand and the copy is finished; PAUSE stops every
class and PFC the classes it names, and both are only counted where the port ignores them; a class runs again when its time
is over; a PFC frame is owed when the classes to stop change, and is repeated while they stand; the PFC watchdog counts a
class held too long. Each clause says the whole next state. -/
def Obligations.PortFrames : Prop :=
  (∀ (s t : State) (p : Fin 64) (data : List Byte) (x : Frame), s.mainUp = true → s.portUp p = true → (s.lane p).rxOpen = none → 60
    ≤ data.length → data.length + 4 ≤ s.maxFrame p → beNat (sliceBytes data 12 2) ≠ 0x8808 → t = (s.prtCnt p 0).prtCnt p 1
    (data.length + 4) → x = { data := data, src := p, stamp := s.now64, at_ := s.time.ft } → t.ncsiDivert p x = (true, t) →
    Gives (.frameReceive p data true .good) s (t.setPipe (p / 8) { t.pipe (p / 8) with netq := (t.pipe (p / 8)).netq ++ [x] }).drainDue) ∧
  (∀ (s t : State) (p : Fin 64) (f : Fcs), s.mainUp = true → (s.lane p).rxOpen = some false → t = (s.setLane p { s.lane p with rxOpen := none }).countFcs
    p f → t.openPkts p = [] → Gives (.lengthCorrect p f) s (t.mapTail p (fun x => x.tail (f != .good)))) ∧
  (∀ (s : State) (p : Fin 64) (o : OutFrame) (f : Stored), s.mainUp = true → s.outOf p = some o → s.stored o.id = some f → f.full =
    true → s.portUp p = true → f.pkt.frame.bad = false → f.pkt.frame.poison = false → f.pkt.ts < 2 → f.pkt.frame.data.length + 4
    ≤ s.maxFrame p → Gives (.frameTransmit p) s (((((s.putWire p f.pkt.frame.data false).outDone { o with pkt := f.pkt } true
    s.now64).tsFlush.pfcSend p).ncsiFlush p).drainDue)) ∧
  (∀ (s : State) (p : Fin 64) (q : Fin 65536), s.mainUp = true → s.portUp p = true → s.pauseRxEn p = true → Gives (.pauseRx p q) s
    ((List.range 8).foldl (fun s c => s.stopClass p c q false) (s.prtCnt p 7))) ∧
  (∀ (s : State) (p : Fin 64) (q : Fin 65536), s.mainUp = true → s.portUp p = true → s.pauseRxEn p = false → Gives (.pauseRx p q) s
    (s.prtCnt p 9)) ∧
  (∀ (s : State) (p : Fin 64) (q : Nat), s.mainUp = true → s.portUp p = true → s.pfcRxEn p = true → (s.lane p).pfcIgnore = [] → q <
    65536 → Gives (.pfcRx p 1 [q]) s ((s.prtCnt p 8).stopClass p 0 q true)) ∧
  (∀ (s : State) (p : Fin 64) (c : Fin 256) (q : List Nat), s.mainUp = true → s.portUp p = true → s.pfcRxEn p = false → Gives
    (.pfcRx p c q) s (s.prtCnt p 9)) ∧
  (∀ (s : State) (p : Fin 64) (c : Fin 8), s.mainUp = true → bit (s.rd R.PRT_PORT_STATUS_stopped_rx (p / 8) (p % 8)) c = true →
    Gives (.pauseExpire p c) s ((s.runTo (Store.get 0 (s.lane p).stopEnd c)).releaseClass p c)) ∧
  (∀ (s : State) (p : Fin 64) (want sent : Nat), s.mainUp = true → s.xoffWanted p = want → s.rd R.PRT_PORT_STATUS_xoff_tx (p / 8)
    (p % 8) = sent → s.portUp p = true → want ≠ sent → s.outOf p = none → Gives (.pfcSend p) s ((s.sendPfc p (want ^^^ sent)
    (want &&& (want ^^^ sent))).setPort p R.PRT_PORT_STATUS_xoff_tx want)) ∧
  (∀ (s : State) (p : Fin 64) (sent : Nat), s.mainUp = true → s.rd R.PRT_PORT_STATUS_xoff_tx (p / 8) (p % 8) = sent → s.portUp p =
    true → sent ≠ 0 → Gives (.pfcRefresh p) s ((s.runTo ((s.lane p).pfcAt + s.quantaUnits p (2 * s.rd R.PRT_PFC_CFG_refresh (p /
    8) (p % 8)))).sendPfc p sent sent)) ∧
  (∀ (s : State) (p : Fin 64) (c : Fin 8) (ms t : Nat) (k : Nat), s.mainUp = true → s.rd R.PRT_TS_CFG_pfc_wd_ms (p / 8) (p % 8) =
    ms → ms ≠ 0 → (s.lane p).pfcSince.find? (·.1 == c.val) = some (k, t) → (s.lane p).pfcTripped = [] → s.stopped p c = true →
    max s.time.ft (t + ms * unitsPerMs) ≤ Store.get 0 (s.lane p).stopEnd c → s.portBit p R.PRT_TS_CFG_pfc_wd_drop = false →
    Gives (.pfcWatchdog p c) s ((((s.runTo (max s.time.ft (t + ms * unitsPerMs))).prtCnt p 19).portEvent p 5 (leBytes 1
    c)).setLane p { s.lane p with pfcTripped := [c.val] }))

/-- A well-formed SEND whose frame can be read is performed and its frame enters the pipeline of its ring as source 0x300 with
the options of the descriptor, one whose payload is still to come from host memory waits, one whose payload cannot be read
ends with its status, and one of a wrong length fails; a received frame is written to the next posted buffer of the ring of
its queue and completes with its length and stamps, one without a ring or for another slice is dropped and counted, and one
without a buffer waits. Each clause says the whole next state. -/
def Obligations.PacketsOfRings : Prop :=
  (∀ (s t : State) (r : Fin 65536) (x : Ring) (g : Flight) (m : Nat) (d : List Byte), s.mainUp = true → s.ring r = some x →
    s.nextSend r = some g → 60 ≤ fieldLE g.desc 0x18 4 → fieldLE g.desc 0x18 4 ≤ 9596 → m = fieldLE g.desc 0x1C 2 → m < 32 →
    fieldLE g.desc 0x1E 2 = 0 → zeroFrom g.desc 0x30 = true → s.readFor (.work r g.count) g.slice x.mem (fieldLE g.desc 0x10 8)
    (fieldLE g.desc 0x18 4) = (.ok d, t) → Gives (.send r) s
      (let i := t.rng.nextSend;
       let u := (t.performed r g.count).setSend (r, i) (some { ring := r, count := g.count, id := i, copies := 1, len := fieldLE g.desc 0x18 4 });
          ({ u with rng := { u.rng with nextSend := i + 1 } } : State).toPipe (x.target % 8) { data := d, src := 0x300, slice := g.slice, cls := if m.testBit 3 then some (m % 8) else none, ts := b2n (m.testBit 4), user := fieldLE g.desc 0x20 16, send := some (r, i) })) ∧
  (∀ (s t : State) (r : Fin 65536) (x : Ring) (g : Flight), s.mainUp = true → s.ring r = some x → s.nextSend r = some g → sendOk
    g.desc = true → s.readFor (.work r g.count) g.slice x.mem (fieldLE g.desc 0x10 8) (fieldLE g.desc 0x18 4) = (.wait, t) →
    Gives (.send r) s t) ∧
  (∀ (s t : State) (r : Fin 65536) (x : Ring) (g : Flight) (st : Nat), s.mainUp = true → s.ring r = some x → s.nextSend r = some g
    → sendOk g.desc = true → s.readFor (.work r g.count) g.slice x.mem (fieldLE g.desc 0x10 8) (fieldLE g.desc 0x18 4) = (.fail
    st, t) → Gives (.send r) s (t.finish r g.count { status := st })) ∧
  (∀ (s : State) (r : Fin 65536) (x : Ring) (g : Flight), s.mainUp = true → s.ring r = some x → s.nextSend r = some g → fieldLE
    g.desc 0x18 4 < 60 → Gives (.send r) s (s.fail r g.count St.bad_desc)) ∧
  (∀ (s : State) (n : Fin 4096) (k : Pkt), s.mainUp = true → s.headFull (592 + n) = some k → s.rxRing n = none → Gives (.rxDeliver
    n) s ((s.pcnt k.pipe 12).consume (592 + n) false)) ∧
  (∀ (s : State) (n : Fin 4096) (k : Pkt) (r : Nat) (x : Ring), s.mainUp = true → s.headFull (592 + n) = some k → s.rxRing n = some
    (r, x) → k.slice ≠ x.slice → Gives (.rxDeliver n) s ((s.sat R.SLC_DISCARD_mismatch 1 x.slice).consume (592 + n) false)) ∧
  (∀ (s : State) (n : Fin 4096) (k : Pkt) (r : Nat) (x : Ring), s.mainUp = true → s.headFull (592 + n) = some k → s.rxRing n = some
    (r, x) → k.slice = x.slice → (x.firstPosted 0x11).isNone = true → Gives (.rxDeliver n) s s) ∧
  (∀ (s t : State) (n : Fin 4096) (k : Pkt) (r : Nat) (x : Ring) (g : Flight), s.mainUp = true → s.headFull (592 + n) = some k →
    s.rxRing n = some (r, x) → k.slice = x.slice → x.firstPosted 0x11 = some g → k.frame.bad = false → k.frame.poison = false →
    k.frame.data.length ≤ fieldLE g.desc 0x18 4 → s.writeFor g.slice x.mem (fieldLE g.desc 0x10 8) (k.frame.data.take (fieldLE
    g.desc 0x18 4)) false = (.ok [], t) → Gives (.rxDeliver n) s ((t.finish r g.count { status := 0, bytes := k.frame.data.length, x12 := leBytes 2 k.frame.src, x18 := rxDetail k }).consume
    (592 + n) true))

/-- A commit with legal staged values makes the staged version active, a discard drops it, and a retirement frees what no live
version sees; an action entry is written and read through the data registers; a TCAM entry is written into an EMPTY place,
deleted under the staged version, moved and read; a lookup answers the winning entry; an exact-match entry is inserted,
deleted, found, listed, flushed, confirmed and unpinned. Each clause says the whole next state. -/
def Obligations.TableCommands : Prop :=
  (∀ (s : State) (req : Req) (n : Fin 9), s.takes req 0x08 n R.reg_PIPE_VER_COMMIT n → s.swc.mirroring = false → s.pipeArmed n =
    false → (s.pipe n).old.length < 3 → s.stagedCause n = 0 → Gives (.verCommit req n) s (s.commitOne n).after) ∧
  (∀ (s : State) (req : Req) (n : Fin 9), s.takes req 0x08 n R.reg_PIPE_VER_COMMIT n → s.swc.mirroring = false → s.pipeArmed n =
    false → Gives (.verDiscard req n) s (s.discardOne n).after) ∧
  (∀ (s : State) (n : Fin 9) (o : Nat × List (Nat × Nat)) (l : List (Nat × List (Nat × Nat))) (p : PipeSt), s.mainUp = true →
    (s.pipe n).old = o :: l → p = { s.pipe n with old := l } → Gives (.versionRetire n) s
      (let t := (s.setPipe n p).mapTcam n (fun e => if (e.state = 2 ∨ (e.state = 3 ∧ e.prev = 2)) ∧ e.del ≤ p.oldest then {}
          else e); (t.mapEm n (fun e => match e.del with | some d => if e.learned = false ∧ d ≤ p.oldest then none else some e | none => some e)).showVer n)) ∧
  (∀ (s t : State) (req : Req) (n : Fin 9) (i : Fin 65536), t = s.wrReg req 0x08 R.reg_PIPE_ACT_IDX i n n → t.takes req 0x08 n
    R.reg_PIPE_ACT_CMD n → t.rd R.PIPE_ACT_IDX_idx n = i → t.swc.mirroring = false → i.val < 49152 → Gives (.actWrite req n i) s
    (t.setAction n i ((List.range 4).foldl (fun a j => a + t.rd R.PIPE_ACT_DATA_data n j * 2 ^ (64 * j)) 0)).after) ∧
  (∀ (s t : State) (req : Req) (n : Fin 9) (i : Fin 65536), t = s.wrReg req 0x08 R.reg_PIPE_ACT_IDX i n n → t.takes req 0x08 n
    R.reg_PIPE_ACT_CMD n → t.rd R.PIPE_ACT_IDX_idx n = i → t.swc.mirroring = false → Gives (.actRead req n i) s ((List.range
    4).foldl (fun u j => u.wr R.PIPE_ACT_DATA_data (t.action n i / 2 ^ (64 * j)) n j) t).after) ∧
  (∀ (s : State) (r : Fin 65536) (g : Flight) (c : TCmd), s.mainUp = true → s.tableReady r 0x60 g c → bit c.opt 2 = false → (s.tent
    c.pipe c.idx).state = 0 → Gives (.tcamWrite r) s (((s.setTent c.pipe c.idx { value := c.key, mask := c.mask, act := c.act, add := (s.pipe c.pipe).ver + 1, state := 1 }).dirty
    c.pipe).finish r g.count { status := 0 })) ∧
  (∀ (s : State) (r : Fin 65536) (g : Flight) (c : TCmd), s.mainUp = true → s.tableReady r 0x61 g c → (s.tent c.pipe c.idx).state =
    1 → (s.tent c.pipe c.idx).add ≠ (s.pipe c.pipe).ver + 1 → Gives (.tcamDelete r) s (((s.setTent c.pipe c.idx { s.tent c.pipe c.idx with state := 2, del := (s.pipe c.pipe).ver + 1 }).dirty
    c.pipe).finish r g.count { status := 0 })) ∧
  (∀ (s : State) (r : Fin 65536) (g : Flight) (c : TCmd), s.mainUp = true → s.tableReady r 0x62 g c → (s.tent c.pipe c.idx).state =
    1 → (s.tent c.pipe c.act).state = 0 → Gives (.tcamMove r) s (((s.setTent c.pipe c.idx {}).setTent c.pipe c.act (s.tent
    c.pipe c.idx)).finish r g.count { status := 0 })) ∧
  (∀ (s t : State) (r : Fin 65536) (x : Ring) (g : Flight) (c : TCmd), s.mainUp = true → s.ring r = some x → s.tableReady r 0x63 g
    c → s.writeFor g.slice x.mem (c.key % 2 ^ 64) (s.tent c.pipe c.idx).record = (.ok [], t) → Gives (.tcamRead r) s (t.finish r
    g.count { status := 0, bytes := 64 })) ∧
  (∀ (s : State) (r : Fin 65536) (g : Flight) (c : TCmd) (i : Nat) (e : TEnt), s.mainUp = true → s.tableReady r 0x64 g c → bit
    c.ver 4 = true → s.tcamLookup c.pipe (s.pipe c.pipe).ver c.stage c.key = some (i, e) → Gives (.tcamLookup r) s (s.finish r
    g.count { status := 0, x12 := leBytes 2 e.act, x18 := leBytes 2 i })) ∧
  (∀ (s : State) (r : Fin 65536) (g : Flight) (c : TCmd) (v i : Nat), s.mainUp = true → s.tableReady r 0x65 g c → v = (s.pipe
    c.pipe).ver + 1 → s.hasEm c.pipe v c.stage = true → s.emStaged c.pipe c.stage c.ekey = none → (candidates (s.emBanks c.pipe
    v c.stage) c.ekey).find? (fun i => (s.em c.pipe i).isNone) = some i → Gives (.emInsert r) s (((s.setEm c.pipe i (some { key := c.ekey, act := c.act, add := v })).dirty
    c.pipe).finish r g.count { status := 0, x18 := leBytes 4 i ++ leBytes 16 0 })) ∧
  (∀ (s : State) (r : Fin 65536) (g : Flight) (c : TCmd) (i : Nat) (e : EmEnt), s.mainUp = true → s.tableReady r 0x66 g c → bit
    c.opt 1 = false → s.hasEm c.pipe ((s.pipe c.pipe).ver + 1) c.stage = true → s.emStaged c.pipe c.stage c.ekey = some (i, e) →
    Gives (.emDelete r) s ((s.emDeleteSoft c.pipe i e).finish r g.count { status := 0 })) ∧
  (∀ (s : State) (r : Fin 65536) (g : Flight) (c : TCmd) (v i : Nat) (e : EmEnt), s.mainUp = true → s.tableReady r 0x67 g c → bit
    c.ver 4 = true → v = (s.pipe c.pipe).ver → s.hasEm c.pipe v c.stage = true → s.emFind c.pipe v (s.emBanks c.pipe v c.stage)
    c.ekey true = some (i, e) → Gives (.emSearch r) s (s.finish r g.count { status := 0, x18 := leBytes 4 i ++ e.image })) ∧
  (∀ (s : State) (r : Fin 65536) (g : Flight) (c : TCmd) (i : Nat) (e : EmEnt), s.mainUp = true → s.tableReady r 0x68 g c → s.hasEm
    c.pipe (s.pipe c.pipe).ver c.stage = true → (s.emOf c.pipe).find? (fun p => c.key % 2 ^ 32 ≤ p.1 && inBanks (s.emBanks
    c.pipe (s.pipe c.pipe).ver c.stage) p.1 && c.passes p.2) = some (i, e) → Gives (.emNext r) s (s.finish r g.count { status := 0, x18 := leBytes 4 i ++ e.image })) ∧
  (∀ (s : State) (r : Fin 65536) (g : Flight) (c : TCmd) (i : Nat) (e : EmEnt), s.mainUp = true → s.tableReady r 0x69 g c → s.hasEm
    c.pipe (s.pipe c.pipe).ver c.stage = true → s.emOf c.pipe = [(i, e)] → c.passes e = true → e.learned = true → inBanks
    (s.emBanks c.pipe (s.pipe c.pipe).ver c.stage) i = true → Gives (.emFlush r) s ((s.dropLearned c.pipe i e).finish r g.count
    { status := 0, x18 := leBytes 4 1 })) ∧
  (∀ (s : State) (r : Fin 65536) (g : Flight) (c : TCmd) (i : Nat) (e : EmEnt), s.mainUp = true → s.tableReady r 0x6A g c → bit
    c.opt 1 = true → s.hasEm c.pipe (s.pipe c.pipe).ver c.stage = true → s.emLearned c.pipe c.stage c.ekey = some (i, e) →
    e.sprout = true → Gives (.emConfirm r) s (((s.setEm c.pipe i (some { e with sprout := false })).tcnt c.pipe 11).finish r
    g.count { status := 0 })) ∧
  (∀ (s : State) (r : Fin 65536) (g : Flight) (c : TCmd) (i : Nat) (e : EmEnt), s.mainUp = true → s.tableReady r 0x6B g c → bit
    c.opt 1 = true → s.hasEm c.pipe (s.pipe c.pipe).ver c.stage = true → s.emLearned c.pipe c.stage c.ekey = some (i, e) →
    e.learned = true → Gives (.emUnpin r) s (((s.dropLearned c.pipe i e).setEm c.pipe i (some { e with pinned := false })).finish
    r g.count { status := 0 }))

/-- A frame that has been recirculated four times is dropped and counted; a by-pass frame goes to the crossbar for its receive
queue; any other frame is counted, parsed, classified and, unless dropped, handed to the crossbar; the sweeper disables a
live entry whose parity fails, and its shadow brings it back; a learn request that names a learned, confirmed entry with the
same action marks it hit; the ager clears the hit mark of the entry it visits. Each clause says the whole next state. -/
def Obligations.ClassificationAndLearning : Prop :=
  (∀ (s : State) (n : Fin 9) (lane : Nat) (f : Frame) (p : PipeSt), s.mainUp = true → s.laneOf n = some lane → (s.pipe lane).next
    (s.on R.SWC_ACCT_STAT_xoff (521 + 4 * lane)) = some (f, p) → s.fencedUnit 0 n = false → 4 ≤ f.recirc → Gives (.packetAdmit
    n) s (((s.setPipe lane p).pcnt n 8).dropFrame f)) ∧
  (∀ (s t : State) (n : Fin 9) (lane q : Nat) (f : Frame) (p : PipeSt), s.mainUp = true → s.laneOf n = some lane → (s.pipe
    lane).next (s.on R.SWC_ACCT_STAT_xoff (521 + 4 * lane)) = some (f, p) → s.fencedUnit 0 n = false → f.recirc < 4 → f.src <
    0x200 → f.bypass = some q → t = (s.setPipe lane p).pcnt n 0 → Gives (.packetAdmit n) s (t.setPipe n { t.pipe n with xin := (t.pipe n).xin ++ [{ frame := f, pipe := n, lane := lane, dest := 0x3000 + q, cls := t.ac R.PIPE_SRC_CFG_class n 8, slice := f.slice, ver := (t.pipe n).ver % 16 }] })) ∧
  (∀ (s t : State) (n : Fin 9) (lane : Nat) (f : Frame) (p : PipeSt) (x : Parse), s.mainUp = true → s.laneOf n = some lane →
    (s.pipe lane).next (s.on R.SWC_ACCT_STAT_xoff (521 + 4 * lane)) = some (f, p) → s.fencedUnit 0 n = false → f.recirc < 4 →
    f.src < 0x200 → f.bypass = none → t = (s.setPipe lane p).pcnt n 0 → x = parseFrame { vxlan := t.ac R.PIPE_PARSE_CFG_vxlan_port n, geneve := t.ac R.PIPE_PARSE_CFG_geneve_port n, mplsUdp := t.ac R.PIPE_PARSE_CFG_mplsudp_port n, encap := t.ac R.PIPE_PARSE_CFG_encap_en n }
    f.data → Gives (.packetAdmit n) s (match t.classify n f x with | (none, u) => u.dropFrame f | (some c, _) => (match c.finish n lane f x with | (u, none) => u | (u, some k) => u.setPipe n { u.pipe n with xin := (u.pipe n).xin ++ [k] }))) ∧
  (∀ (s : State) (e : TEnt), s.mainUp = true → Store.get ({} : TEnt) s.tbl.tcam s.tbl.sweep = e → e.state = 1 → Gives (.tcamSweep
    false) s ({ s with tbl := { s.tbl with sweep := (s.tbl.sweep + 1) % 589824, tcam := Store.put {} s.tbl.tcam s.tbl.sweep { e with prev := 1, state := 3 } } }
    : State)) ∧
  (∀ (s : State) (k : Nat) (e : TEnt), s.mainUp = true → s.tbl.tcam.find? (fun p => p.2.state == 3) = some (k, e) → Gives
    (.tcamRestore true) s (({ s with tbl := { s.tbl with tcam := Store.put {} s.tbl.tcam k { e with state := e.prev, prev := 0 } } }
    : State).memEvent (sramId 8 (k / 65536)) (k % 65536) 3 0 0)) ∧
  (∀ (s t : State) (n : Fin 9) (st : Fin 17) (q : Learn) (l : List Learn) (i : Nat) (e : EmEnt), s.mainUp = true → (s.pipe
    n).fifoOf st = q :: l → t = (s.setPipe n { s.pipe n with fifo := Store.put [] (s.pipe n).fifo st l }).showFifo n → t.emFind
    n (t.pipe n).ver (t.emBanks n (t.pipe n).ver st) q.key true = some (i, e) → e.learned = true → e.sprout = false → e.act =
    q.act → Gives (.learnApply n st) s ((t.setEm n i (some { e with hit := true, age := 0, sprout := false })).tcnt n 2)) ∧
  (∀ (s : State) (n : Fin 9) (st : Fin 17) (i : Nat) (e : EmEnt), s.mainUp = true → s.ac R.PIPE_EM_CFG_age_ms n st ≠ 0 → ((s.emOf
    n).filter (fun q => q.2.learned && inBanks (s.emBanks n (s.pipe n).ver st) q.1)).find? (fun q => (Store.get (0, 0) (s.pipe
    n).ager st).1 ≤ q.1) = some (i, e) → e.hit = true → Gives (.agerVisit n st) s ((s.setPipe n { s.pipe n with ager := Store.put (0, 0) (s.pipe n).ager st (i + 1, (Store.get (0, 0) (s.pipe n).ager st).2) }).setEm
    n i (some { e with hit := false, age := 0 })))

/-- With one input asking for one cell, the crossbar grants it the first free bank and both pointers move on; TAKE of a pipeline
without cloning wakes the sleeve, which is then empty and switching, and stands in for the pipeline once it holds no packet,
with its event; RETURN without cloning switches back and ends with its event; a cloning sleeve goes on to switch when its
copy is done. Each clause says the whole next state. -/
def Obligations.SwitchAndSleeve : Prop :=
  (∀ (s : State) (n : Fin 9), s.mainUp = true → s.request n = 1 → (List.range 9).all (fun i => i == n.val || s.request i == 0) =
    true → (List.range 9).any s.inputHeld = false → Store.get 0 s.swc.bankUsed (s.swc.q % 16) < 32768 → Gives .xbarMatch s
      (let t := s.swcCnt 9 0; (({ t with swc := { t.swc with p := (n.val + 1) % 9, q := (s.swc.q % 16 + 1) % 16 } } :
          State).grantCell n (s.swc.q % 16)).acctClock)) ∧
  (∀ (s t : State) (req : Req) (n : Fin 8), s.takes req 0x09 0 R.reg_SWC_SLEEVE_CMD → t = s.cmdPut R.reg_SWC_SLEEVE_CMD
    [(R.SWC_SLEEVE_CMD_go, 1), (R.SWC_SLEEVE_CMD_op, 1), (R.SWC_SLEEVE_CMD_clone, 0), (R.SWC_SLEEVE_CMD_pipe, n)] →
    t.sleeveState = 0 → t.fencedUnit 0 8 = false → t.sleeveEpoch n = false → Gives (.sleeveTake req n false) s
      (let u := (((t.setSleeve 1).wr R.SWC_SLEEVE_STATUS_pipe n).wr R.SWC_SLEEVE_STATUS_pipe_drained 0).sleeveDone 0; ({ u with swc := { u.swc with clone := false } }
          : State).after)) ∧
  (∀ (s t : State) (req : Req), s.takes req 0x09 0 R.reg_SWC_SLEEVE_CMD → t = s.cmdPut R.reg_SWC_SLEEVE_CMD [(R.SWC_SLEEVE_CMD_go,
    1), (R.SWC_SLEEVE_CMD_op, 2), (R.SWC_SLEEVE_CMD_clone, 0)] → t.sleeveState = 4 → t.fencedUnit 0 t.sleevePipe = false →
    t.sleeveEpoch t.sleevePipe = false → Gives (.sleeveReturn req false) s (((t.sleeveDone 0).wr
    R.SWC_SLEEVE_STATUS_pipe_drained 0).setSleeve 6).after) ∧
  (∀ (s : State), s.mainUp = true → s.sleeveState = 1 → s.swc.clone = false → Gives .sleeveWakeDone s ((s.emptyTables 8).setSleeve
    3)) ∧
  (∀ (s : State), s.mainUp = true → s.sleeveState = 2 → Gives .sleeveCopyDone s (s.setSleeve 3)) ∧
  (∀ (s : State), s.mainUp = true → s.sleeveState = 5 → Gives .sleeveCopyDone s (s.setSleeve 6)) ∧
  (∀ (s : State), s.mainUp = true → s.sleeveState = 3 → (s.pipe s.sleevePipe).xin = [] → Gives .sleeveSwitchDone s (((s.setSleeve
    4).raise R.SWC_SLEEVE_STATUS_pipe_drained).event 9 0 0x10 (leBytes 1 s.sleevePipe ++ List.replicate 15 0))) ∧
  (∀ (s : State), s.mainUp = true → s.sleeveState = 6 → (s.pipe 8).xin = [] → Gives .sleeveSwitchDone s
      (let t := ((s.setSleeve 0).wr R.SWC_SLEEVE_STATUS_pipe_drained 0).event 9 0 0x11 (leBytes 1 s.sleevePipe ++ List.replicate
          15 0); ({ t with swc := { t.swc with mirroring := false, mirrorLost := false } } : State)))

/-- A free destination serves the class that the rules choose: the copy leaves its queue, the slice's shaper is charged and the
frame is handed over; time runs to the end of the gate entry in force, and an adopted list takes over at its start with its
event; a force write that releases no port only takes its value; a sample records depth and delay of every queue; a policer
record is written with full buckets, read and cleared; an allocation gives a free policer to an ACTIVE slice and a release
returns it. Which policer is given is a free value. Each clause says the whole next state. -/
def Obligations.TrafficManager : Prop :=
  (∀ (s t u v : State) (d : Fin 73) (c : Nat) (x : Dwrr) (f : Stored) (e : QEnt), s.mainUp = true → t = (if d.val < 64 then
    s.pfcSend d else s) → t.destFree d = true → u = t.countHeld d → u.choose d = some (c, x) → u.eligible d c = some f →
    u.popQueue (tmQueue d c) = some (e, v) → f.pkt.frame.whole = true → v.queue (tmQueue d c) ≠ [] → Gives (.tmSelect d) s
    (((((v.setDwrr d x).noteDelay (tmQueue d c) e).shaperCharge f.pkt.slice (v.wireFor d f.pkt)).tmCnt 0).handOver d c f e)) ∧
  (∀ (s : State) (p : Fin 64) (l : GateList) (e : Nat × Nat × Nat), s.mainUp = true → s.gateEn p = true → s.gateList p = some l →
    l.base ≤ s.time.ft → s.gateEntry p = some e → s.tm.out = [] → Gives (.gateEntryChange p) s (s.runTo (s.time.ft + e.2.2))) ∧
  (∀ (s : State) (p : Fin 64) (l : GateList), s.mainUp = true → (s.gateEng p).next = some l → s.tm.out = [] → Gives (.gateListStart
    p) s (((s.runTo (s.gateEng p).start).setGateEng p { s.gateEng p with cur := some l, next := none }).event 0xA 0 2 (leBytes 1
    p ++ leBytes 7 0 ++ leBytes 8 (ft64 (s.gateEng p).start)))) ∧
  (∀ (s : State) (req : Req) (v : Nat), s.takes req 0x0A 0 R.reg_TM_GATE_FORCE → v < 2 ^ 64 → (List.range 64).all (fun p => !bit
    (s.rd R.TM_GATE_FORCE_force) p || bit v p) = true → Gives (.gateForceWrite req v) s (s.wr R.TM_GATE_FORCE_force v).after) ∧
  (∀ (s t : State), s.mainUp = true → s.ac R.TM_CFG_sample_us ≠ 0 → t = s.runTo (s.tm.sampleAt + s.ac R.TM_CFG_sample_us *
    unitsPerUs) → s.swc.queues = [] → Gives .tmSample s ((List.range 584).foldl (fun s q => (s.wr R.TM_Q_LAST_depth (s.qDepth q)
    q).wr R.TM_Q_LAST_delay_ns 0 q) ({ t with tm := { t.tm with sampleAt := t.time.ft } } : State))) ∧
  (∀ (s t : State) (req : Req) (i : Fin 65536) (x : Nat), t = s.wrReg req 0x0A R.reg_TM_POL_IDX i → t.takes req 0x0A 0
    R.reg_TM_POL_CMD → t.rd R.TM_POL_IDX_idx = i → (t.policer i).slice = some x → bit (({ t.policer i with rcd := t.polData, at_ := t.time.ft }
    : Policer)).modeByte 4 = false → Gives (.polWrite req i) s
      (let p : Policer := { t.policer i with rcd := t.polData, at_ := t.time.ft }; (t.setPolicer i { p with tc := p.cbs, te := p.ebs }).after)) ∧
  (∀ (s t : State) (req : Req) (i : Fin 65536), t = s.wrReg req 0x0A R.reg_TM_POL_IDX i → t.takes req 0x0A 0 R.reg_TM_POL_CMD →
    t.rd R.TM_POL_IDX_idx = i → Gives (.polRead req i) s ((List.range 8).foldl (fun u j => u.wr R.TM_POL_DATA_data (fieldLE
    ((t.policer i).fill t.time.ft).image (8 * j) 8) j) t).after) ∧
  (∀ (s t : State) (req : Req) (i : Fin 65536), t = s.wrReg req 0x0A R.reg_TM_POL_IDX i → t.takes req 0x0A 0 R.reg_TM_POL_CMD →
    t.rd R.TM_POL_IDX_idx = i → Gives (.polClear req i) s (t.setPolicer i { t.policer i with green := 0, yellow := 0, red := 0 }).after) ∧
  (∀ (s t : State) (r : Fin 65536) (g : Flight) (x : Nat), s.mainUp = true → s.toPerform r [0x70] = some g → x = fieldLE g.desc
    0x10 2 → x < 4096 → zeroFrom g.desc 0x12 = true → s.sliceActive x = true → s.allocStatus x 6 = 0 → t = { s with free := s.free + 1 }
    → Gives (.polAlloc r) s
      (let j := t.freePolicer 65536 (Config.tagPick s.free); ((t.charge x 6).setPolicer j { slice := some x }).finish r g.count
          { status := 0, x18 := leBytes 2 j })) ∧
  (∀ (s : State) (r : Fin 65536) (g : Flight) (i x : Nat), s.mainUp = true → s.toPerform r [0x71] = some g → i = fieldLE g.desc
    0x12 2 → fieldLE g.desc 0x10 2 = 0 → zeroFrom g.desc 0x14 = true → (s.policer i).slice = some x → Gives (.polFree r) s
    (((s.setPolicer i {}).uncharge x 6).finish r g.count { status := 0 }))

/-- A data or atomic descriptor in order, on the send ring of a resident QP in RTS whose transport takes it, joins the end of
that QP's send queue, and everything the QP may transmit is transmitted; in ERR or SQE it completes qp_flushed; on a QP that
does not exist it completes qp_ring, and a malformed one bad_desc; a RECV is posted; a region record in order gets the
lowest free index and completes with its key. Each clause says the whole next state. -/
def Obligations.RdmaPosting : Prop :=
  (∀ (s : State) (r : Fin 65536) (y : Ring) (g : Flight) (q : Nat) (x : Qp), s.mainUp = true → s.rdmaPosts r 0x20 y g q x → Gives
    (.rdmaSend r) s (s.withWork r g q x)) ∧
  (∀ (s : State) (r : Fin 65536) (y : Ring) (g : Flight) (q : Nat) (x : Qp), s.mainUp = true → s.rdmaPosts r 0x21 y g q x → Gives
    (.rdmaSendImm r) s (s.withWork r g q x)) ∧
  (∀ (s : State) (r : Fin 65536) (y : Ring) (g : Flight) (q : Nat) (x : Qp), s.mainUp = true → s.rdmaPosts r 0x22 y g q x → Gives
    (.rdmaWrite r) s (s.withWork r g q x)) ∧
  (∀ (s : State) (r : Fin 65536) (y : Ring) (g : Flight) (q : Nat) (x : Qp), s.mainUp = true → s.rdmaPosts r 0x23 y g q x → Gives
    (.rdmaWriteImm r) s (s.withWork r g q x)) ∧
  (∀ (s : State) (r : Fin 65536) (y : Ring) (g : Flight) (q : Nat) (x : Qp), s.mainUp = true → s.rdmaPosts r 0x24 y g q x → Gives
    (.rdmaRead r) s (s.withWork r g q x)) ∧
  (∀ (s : State) (r : Fin 65536) (y : Ring) (g : Flight) (q : Nat) (x : Qp), s.mainUp = true → s.rdmaPosts r 0x25 y g q x → Gives
    (.cmpSwap r) s (s.withWork r g q x)) ∧
  (∀ (s : State) (r : Fin 65536) (y : Ring) (g : Flight) (q : Nat) (x : Qp), s.mainUp = true → s.rdmaPosts r 0x26 y g q x → Gives
    (.fetchAdd r) s (s.withWork r g q x)) ∧
  (∀ (s : State) (r : Fin 65536) (y : Ring) (g : Flight) (q : Nat) (x : Qp), s.mainUp = true → s.nextWork r rdmaOp 0x20 y g →
    rdmaDescOk g.desc = true → q = fieldLE g.desc 0x10 3 → s.qp q = some x → x.sqRing = r → s.qpVol q = none → x.resident = true
    → x.state = 4 ∨ x.state = 5 → Gives (.rdmaSend r) s (((s.setQp q (some { x with used := s.time.ft })).fail r g.count
    St.qp_flushed).pumpRing r)) ∧
  (∀ (s : State) (r : Fin 65536) (y : Ring) (g : Flight), s.mainUp = true → s.nextWork r rdmaOp 0x22 y g → rdmaDescOk g.desc = true
    → s.qp (fieldLE g.desc 0x10 3) = none → Gives (.rdmaWrite r) s ((s.fail r g.count St.qp_ring).pumpRing r)) ∧
  (∀ (s : State) (r : Fin 65536) (y : Ring) (g : Flight), s.mainUp = true → s.nextWork r rdmaOp 0x24 y g → rdmaDescOk g.desc =
    false → Gives (.rdmaRead r) s ((s.fail r g.count St.bad_desc).pumpRing r)) ∧
  (∀ (s : State) (r : Fin 65536) (y : Ring) (g : Flight), s.mainUp = true → s.nextWork r rdmaOp 0x27 y g → 0 < fieldLE g.desc 0x14
    4 → fieldLE g.desc 0x14 4 ≤ 2 ^ 31 → zeroFrom g.desc 0x20 = true → Gives (.recv r) s (s.performed r g.count)) ∧
  (∀ (s t u : State) (r : Fin 65536) (y : Ring) (g : Flight) (b : List Byte), s.mainUp = true → s.nextWork r rdmaOp 0x2C y g →
    ctlOk g.desc false = true → s.readFor (.work r g.count) g.slice y.mem (fieldLE g.desc 0x10 8) 64 = (.ok b, t) → t.mrLegal b
    g.slice = some u → u.allocStatus g.slice 7 = 0 → Gives (.mrReg r) s
      (let i := lowestFree ((u.rdm.mrs.filter (fun p => p.2.state != 0)).map (·.1)) 0;
       let v := (u.charge g.slice 7).setMr i { mrOf b g.slice 0 with variant := (u.mr i).variant }; v.finish r g.count { status := 0, x18 := leBytes 4 (v.mrKey i) }))

/-- QP_CREATE of a record in order takes the lowest free number in a mapped chunk, a number of pool 2 and a resident entry, and
leaves the QP in RESET; QP_MODIFY applies the masked attributes together with a legal move (at the basic level without mask
bits 6, 7, 8 and 11), and an illegal move completes qp_state; QP_QUERY writes the record; QP_DESTROY removes a QP in RESET
or ERR with nothing in flight; MR_REVOKE closes a VALID region whose variant matches and refuses any other; the revoke
completes when no access is under way, the index is freed and the variant advances; a context over its slice's limit goes to
its husk. Each clause says the whole next state. -/
def Obligations.QueuePairControl : Prop :=
  (∀ (s t u : State) (r : Fin 65536) (y : Ring) (g : Flight) (b : List Byte) (n : Qp) (q : Nat), s.mainUp = true → s.nextWork r
    rdmaOp 0x28 y g → ctlOk g.desc false = true → s.readFor (.work r g.count) g.slice y.mem (fieldLE g.desc 0x10 8) 128 = (.ok
    b, t) → n = t.newQp b g.slice → qpRecOk b = true → n.transport ≤ 1 → n.pipeCls < 128 → n.pipeCls % 16 ≤ 7 → t.ringFor
    n.sqRing g.slice false = true → t.ringFor n.rqRing g.slice true = true → t.allocStatus g.slice 2 = 0 → t.freeQpn = some q →
    t.entryFor g.slice = some u → Gives (.qpCreate r) s
      (let v := (u.charge g.slice 2).setQp q (some n); (v.wr R.RDM_QP_CACHE_STATUS_resident (v.rd R.RDM_QP_CACHE_STATUS_resident
          + 1)).finish r g.count { status := 0, x18 := leBytes 4 q })) ∧
  (∀ (s t u : State) (r : Fin 65536) (y : Ring) (g : Flight) (b : List Byte) (x : Qp) (q n m : Nat), s.mainUp = true → s.nextWork r
    rdmaOp 0x29 y g → ctlOk g.desc true = true → q = fieldLE g.desc 0x18 4 → s.qp q = some x → x.sqRing = r → s.needQp q =
    (true, t) → t.readFor (.work r g.count) g.slice y.mem (fieldLE g.desc 0x10 8) 128 = (.ok b, u) → n = fieldLE b 4 1 → m = (if
    u.rdmExpert then fieldLE b 0x28 4 else fieldLE b 0x28 4 - (fieldLE b 0x28 4 &&& 0x9C0)) → qpMove x.state n x.transport =
    true → n ≠ 0 → n ≠ 5 → qpRecOk b = true → m &&& qpMaskUsed x.transport = m → m &&& qpMaskNeed x.state n x.transport
    u.rdmExpert = qpMaskNeed x.state n x.transport u.rdmExpert → qpAttrOk b m = true → Gives (.qpModify r) s
      (let v := u.modQp q (·.attrs b m); ((v.modQp q (fun x => v.qpEnter x n)).finish r g.count { status := 0 }).startFetches)) ∧
  (∀ (s t u : State) (r : Fin 65536) (y : Ring) (g : Flight) (b : List Byte) (x : Qp) (q : Nat), s.mainUp = true → s.nextWork r
    rdmaOp 0x29 y g → ctlOk g.desc true = true → q = fieldLE g.desc 0x18 4 → s.qp q = some x → x.sqRing = r → s.needQp q =
    (true, t) → t.readFor (.work r g.count) g.slice y.mem (fieldLE g.desc 0x10 8) 128 = (.ok b, u) → qpMove x.state (fieldLE b 4
    1) x.transport = false → Gives (.qpModify r) s (u.fail r g.count St.qp_state)) ∧
  (∀ (s t u : State) (r : Fin 65536) (y : Ring) (g : Flight) (x : Qp) (q : Nat) (e : List Byte), s.mainUp = true → s.nextWork r
    rdmaOp 0x2A y g → ctlOk g.desc true = true → q = fieldLE g.desc 0x18 4 → s.qp q = some x → x.sqRing = r → x.resident = true
    → t = s.setQp q (some { x with used := s.time.ft }) → t.writeFor g.slice y.mem (fieldLE g.desc 0x10 8) (t.qpRecord q { x with used := s.time.ft })
    = (.ok e, u) → Gives (.qpQuery r) s (u.finish r g.count { status := 0 })) ∧
  (∀ (s : State) (r : Fin 65536) (y : Ring) (g : Flight) (x : Qp) (q : Nat), s.mainUp = true → s.nextWork r rdmaOp 0x2B y g → ctlOk
    g.desc true = true → fieldLE g.desc 0x10 8 = 0 → q = fieldLE g.desc 0x18 4 → s.qp q = some x → x.sqRing = r → x.state = 0 ∨
    x.state = 5 → x.sq = [] → Gives (.qpDestroy r) s ((s.qpGone q x).finish r g.count { status := 0 })) ∧
  (∀ (s : State) (r : Fin 65536) (y : Ring) (g : Flight) (x : Qp) (q : Nat), s.mainUp = true → s.nextWork r rdmaOp 0x2B y g → ctlOk
    g.desc true = true → fieldLE g.desc 0x10 8 = 0 → q = fieldLE g.desc 0x18 4 → s.qp q = some x → x.sqRing = r → x.state ≠ 0 →
    x.state ≠ 5 → Gives (.qpDestroy r) s (s.fail r g.count St.qp_state)) ∧
  (∀ (s : State) (r : Fin 65536) (y : Ring) (g : Flight) (key : Nat), s.mainUp = true → s.nextWork r rdmaOp 0x2D y g → ctlOk g.desc
    true = true → fieldLE g.desc 0x10 8 = 0 → key = fieldLE g.desc 0x18 4 → key / 256 < 1048576 → (s.mr (key / 256)).state = 1 →
    (s.mr (key / 256)).variant = key % 256 → (s.mr (key / 256)).slice = g.slice ∨ g.slice = 0 → Gives (.mrRevoke r) s
    ((s.performed r g.count).mrClose (key / 256) (.ring r g.count))) ∧
  (∀ (s : State) (r : Fin 65536) (y : Ring) (g : Flight) (key : Nat), s.mainUp = true → s.nextWork r rdmaOp 0x2D y g → ctlOk g.desc
    true = true → fieldLE g.desc 0x10 8 = 0 → key = fieldLE g.desc 0x18 4 → (s.mr (key / 256)).state ≠ 1 ∨ (s.mr (key /
    256)).variant ≠ key % 256 → Gives (.mrRevoke r) s (s.fail r g.count St.mr_state)) ∧
  (∀ (s : State) (i : Fin 1048576) (r c : Nat), s.mainUp = true → (s.mr i).state = 2 → s.mrInUse i = false → (s.mr i).wrote = false
    → (s.mr i).waiter = .ring r c → Gives (.revokeDone i) s ((s.mrFree i).finish r c { status := 0 })) ∧
  (∀ (s : State) (q : Fin 262144) (x : Qp), s.mainUp = true → s.rdm.qps = [(q.val, some x)] → x.resident = true → x.fetching =
    false → x.parked = [] → s.rd R.SLC_QUOTA_limit x.slice 3 < s.inUse x.slice 3 → Gives (.qpEvict q) s (s.evictQp
    q).startFetches)

/-- A frame that is no packet in order is dropped and counted in bad_hdr, one for a QP that does not exist in unknown_qp; a
write at the expected PSN whose whole range passes the key check is written and acknowledged; a duplicate is acknowledged
again; a packet beyond the expected PSN gets one NAK sequence error; a packet for a QP that is not resident is parked and
its context fetched; an ACK advances the requester, which goes on transmitting; the retransmit timer goes back to the oldest
unacknowledged PSN while retries are left; the RNR wait ends; a husk read brings the context back; a CNP cuts the rate and a
quiet time raises it. Each clause says the whole next state. -/
def Obligations.RocePackets : Prop :=
  (∀ (s : State) (c : Nat) (k : Pkt), s.mainUp = true → s.rdmaPick = some (c, k) → rxClass k = .bad → Gives .rocePacketRx s
    ((s.rdmaTaken c).rdmCnt 2)) ∧
  (∀ (s : State) (c : Nat) (k : Pkt) (p : Roce) (i f : Bool), s.mainUp = true → s.rdmaPick = some (c, k) → rxClass k = .good p
    (.send f f i) → s.qp p.dqp = none → Gives .rocePacketRx s ((s.rdmaTaken c).rdmCnt 3)) ∧
  (∀ (s t u : State) (c i : Nat) (k : Pkt) (p : Roce) (x : Qp) (rg : Mr) (d e : List Byte), s.mainUp = true → s.rdmaIn c k p
    (.write true true false) x → x.state = 2 ∨ x.state = 3 ∨ x.state = 4 → x.transport = 0 → p.ce = false → p.psn = x.epsn →
    x.msg = none → d = p.body.drop 16 → d ≠ [] → d.length ≤ x.mtu → d.length ≤ 2 ^ 31 → beNat (sliceBytes p.body 12 4) =
    d.length → bit x.flags 4 = true → t = s.setQp p.dqp (some { x with used := s.time.ft }) → t.keyCheck p.dqp x.slice x.pd
    (beNat (sliceBytes p.body 8 4)) (beNat (p.body.take 8)) d.length accWrite = some (i, rg) → t.mrWrite i rg (beNat
    (p.body.take 8)) d false = (.ok e, u) → Gives .rocePacketRx s (((u.expectNext p.dqp 1 true none).ackIf p.dqp { x with used := s.time.ft }
    k p true).rdmaTaken c)) ∧
  (∀ (s : State) (c : Nat) (k : Pkt) (p : Roce) (x : Qp) (f l i : Bool), s.mainUp = true → s.rdmaIn c k p (.send f l i) x → x.state
    = 2 ∨ x.state = 3 ∨ x.state = 4 → x.transport = 0 → p.ce = false → p.psn ≠ x.epsn → psnBefore p.psn x.epsn = true → Gives
    .rocePacketRx s (((s.setQp p.dqp (some { x with used := s.time.ft })).sendAck p.dqp { x with used := s.time.ft } k (psn
    (x.epsn + 2 ^ 24 - 1))).rdmaTaken c)) ∧
  (∀ (s : State) (c : Nat) (k : Pkt) (p : Roce) (x : Qp) (f l i : Bool), s.mainUp = true → s.rdmaIn c k p (.write f l i) x →
    x.state = 2 ∨ x.state = 3 ∨ x.state = 4 → x.transport = 0 → p.ce = false → p.psn ≠ x.epsn → psnBefore p.psn x.epsn = false →
    x.nakFor ≠ some x.epsn → Gives .rocePacketRx s (((s.setQp p.dqp (some { x with used := s.time.ft, nakFor := some x.epsn })).sendNak
    p.dqp { x with used := s.time.ft } k x.epsn synSeq).rdmaTaken c)) ∧
  (∀ (s : State) (c : Nat) (k : Pkt) (p : Roce) (x : Qp) (f l i : Bool), s.mainUp = true → s.rdmaPick = some (c, k) → rxClass k =
    .good p (.send f l i) → s.qp p.dqp = some x → x.resident = false ∨ x.parked ≠ [] → Gives .rocePacketRx s (((s.rdmaTaken
    c).needQp p.dqp).2.park p.dqp k)) ∧
  (∀ (s : State) (c : Nat) (k : Pkt) (p : Roce) (x : Qp), s.mainUp = true → s.rdmaIn c k p .ack x → x.state = 3 → x.transport = 0 →
    p.ce = false → (p.body.head?.map (·.toNat)).getD 0 < 0x20 → Gives .ackRx s ((((s.setQp p.dqp (some { x with used := s.time.ft })).ackTo
    p.dqp (psn (p.psn + 1))).pump p.dqp).rdmaTaken c)) ∧
  (∀ (s t : State) (q : Fin 262144) (x : Qp) (a : Nat), s.mainUp = true → s.qp q = some x → x.rtAt = some a → s.qpTimeout x ≠ 0 →
    x.state = 3 → x.una ≠ x.top → t = s.runTo (a + 4096 * 2 ^ s.qpTimeout x * unitsPerNs) → x.resident = true → x.retries <
    s.qpRetry x → Gives (.retransmitTimeout q) s (((t.rdmCnt 10).setQp q (some { x with used := t.time.ft, retries := x.retries + 1, tx := x.una, rtAt := some t.time.ft })).pump
    q)) ∧
  (∀ (s t : State) (q : Fin 262144) (x : Qp) (a : Nat), s.mainUp = true → s.qp q = some x → x.rnrEnd = some a → x.resident = true →
    t = s.runTo a → Gives (.rnrTimer q) s ((t.setQp q (some { x with used := t.time.ft, rnrEnd := none, rtAt := some t.time.ft })).pump
    q)) ∧
  (∀ (s : State) (q : Fin 262144) (x : Qp), s.mainUp = true → s.qp q = some x → x.fetching = true → x.parked = [] → (s.huskPlace
    q).1 = 1 → (s.hbmRead (s.huskPlace q).2 512).status = 0 → (s.hbmRead (s.huskPlace q).2 512).next = s → Gives (.huskFetchDone
    q) s
      (let t := s.setQp q (some { x with resident := true, fetching := false, used := s.time.ft });
       let u := (t.wr R.RDM_QP_CACHE_STATUS_fetching (t.rd R.RDM_QP_CACHE_STATUS_fetching - 1)); ((u.wr
          R.RDM_QP_CACHE_STATUS_resident (t.rd R.RDM_QP_CACHE_STATUS_resident + 1)).hwbShow.pump q).startFetches)) ∧
  (∀ (s t : State) (c : Nat) (k : Pkt) (p : Roce) (x : Qp), s.mainUp = true → s.rdmaIn c k p .cnp x → x.state = 2 ∨ x.state = 3 ∨
    x.state = 4 → x.transport = 0 → p.ce = false → s.qpCc x = true → x.reactAt = none → t = (s.setQp p.dqp (some { x with used := s.time.ft })).rdmCnt
    14 → Gives .cnpRx s ((t.setQp p.dqp (some { x with used := s.time.ft, rt := x.rc, rc := if x.rc * (1 - x.alpha / 2) < s.rateMin then s.rateMin else x.rc * (1 - x.alpha / 2), alpha := x.alpha + s.gain * (1 - x.alpha), steps := 0, reactAt := some s.time.ft, incAt := s.time.ft })).rdmaTaken
    c)) ∧
  (∀ (s t : State) (q : Fin 262144) (x : Qp), s.mainUp = true → s.qp q = some x → s.qpCc x = true → x.steps < 5 → t = s.runTo
    (x.incAt + s.ac R.RDM_CC_CFG_inc_us * unitsPerUs) → Gives (.ccIncrease q) s (t.setQp q (some { x with alpha := x.alpha * (1 - s.gain), steps := x.steps + 1, rc := if s.rateMax < (x.rt + x.rc) / 2 then s.rateMax else (x.rt + x.rc) / 2, incAt := t.time.ft })))

/-- CREATE with every check of R362 passed makes an ACTIVE volume in power state ACTIVE with cause 0, and a used number is
refused; MODIFY of a FROZEN volume takes the staged record when only the fields of R364 differ, and of one that is not
FROZEN is refused; RESTART of a FROZEN volume is busy until its commands have ended, and then makes it ACTIVE; DESTROY of a
volume that no ring names removes it, and with a command in flight is refused; READ copies the record into the stage. Each
clause says the whole next state. -/
def Obligations.VolumeControl : Prop :=
  (∀ (s t u : State) (req : Req) (v : Fin 4096) (x : Vol), s.takes req 0x0C 0 R.reg_STQ_CMD → t = s.volPut 1 v → s.on
    R.STQ_CMD_STATUS_busy = false → t.volState v = 0 → x = { rcd := t.volStage, idleAt := t.time.ft } → volLegal x.rcd = true →
    t.elogPlace x = some u → t.sliceActive x.slice = true → t.backendOk x = true → Gives (.volCreate req v) s
      (let w := ((u.setVol v (some x)).wr R.STQ_VOL_STATE_state 1 v).sat R.STQ_STATUS_volumes; ((w.wr R.STQ_VOL_STATE_pstate 0
          v).wr R.STQ_VOL_STATE_cause 0 v).volCmdDone 0).after) ∧
  (∀ (s t : State) (req : Req) (v : Fin 4096), s.takes req 0x0C 0 R.reg_STQ_CMD → t = s.volPut 1 v → s.on R.STQ_CMD_STATUS_busy =
    false → t.volState v ≠ 0 → Gives (.volCreate req v) s (t.volCmdDone St.stq_vol_state).after) ∧
  (∀ (s t : State) (req : Req) (v : Fin 4096) (x : Vol), s.takes req 0x0C 0 R.reg_STQ_CMD → t = s.volPut 2 v → s.on
    R.STQ_CMD_STATUS_busy = false → t.vol v = some x → t.volState v = 2 → volFixed t.volStage = volFixed x.rcd → volLegal
    t.volStage = true → Gives (.volModify req v) s ((t.setVol v (some { x with rcd := t.volStage })).volCmdDone 0).after) ∧
  (∀ (s t : State) (req : Req) (v : Fin 4096) (x : Vol), s.takes req 0x0C 0 R.reg_STQ_CMD → t = s.volPut 2 v → s.on
    R.STQ_CMD_STATUS_busy = false → t.vol v = some x → t.volState v ≠ 2 → Gives (.volModify req v) s (t.volCmdDone
    St.stq_vol_state).after) ∧
  (∀ (s t : State) (req : Req) (v : Fin 4096) (f : Bool), s.takes req 0x0C 0 R.reg_STQ_CMD → t = s.volPut 3 v f → s.on
    R.STQ_CMD_STATUS_busy = false → t.volState v = 2 → Gives (.volRestart req v f) s ({ t.raise R.STQ_CMD_STATUS_busy with stq := { t.stq with restart := some (v.val, f) } }
    : State).after) ∧
  (∀ (s t : State) (v : Nat) (x : Vol), s.mainUp = true → s.stq.restart = some (v, false) → s.vol v = some x → x.cmds = [] → t = ({ s with stq := { s.stq with restart := none } }
    : State).setVol v (some { x with wakeAt := none, wakeNote := none, wakeAcked := false, wakeFor := none, idleAt := s.time.ft })
    → Gives .volRestartResume s (((((t.wr R.STQ_VOL_STATE_state 1 v).wr R.STQ_VOL_STATE_pstate 0 v).wr R.STQ_VOL_STATE_cause 0
    v).wr R.STQ_CMD_STATUS_busy 0).volCmdDone 0)) ∧
  (∀ (s t : State) (req : Req) (v : Fin 4096) (x : Vol), s.takes req 0x0C 0 R.reg_STQ_CMD → t = s.volPut 4 v → s.on
    R.STQ_CMD_STATUS_busy = false → t.vol v = some x → t.volQueues v = [] → x.cmds = [] → Gives (.volDestroy req v) s
      (let w := ((t.setVol v none).wr R.STQ_VOL_STATE_state 0 v).wr R.STQ_STATUS_volumes (t.rd R.STQ_STATUS_volumes - 1); ((w.wr
          R.STQ_VOL_STATE_pstate 0 v).wr R.STQ_VOL_STATE_cause 0 v).volCmdDone 0).after) ∧
  (∀ (s t : State) (req : Req) (v : Fin 4096) (x : Vol), s.takes req 0x0C 0 R.reg_STQ_CMD → t = s.volPut 4 v → s.on
    R.STQ_CMD_STATUS_busy = false → t.vol v = some x → x.cmds ≠ [] → Gives (.volDestroy req v) s (t.volCmdDone
    St.stq_busy).after) ∧
  (∀ (s t : State) (req : Req) (v : Fin 4096) (x : Vol), s.takes req 0x0C 0 R.reg_STQ_CMD → t = s.volPut 5 v → s.on
    R.STQ_CMD_STATUS_busy = false → t.vol v = some x → Gives (.volRead req v) s (((List.range 8).foldl (fun s j => s.wr
    R.STQ_VOL_STAGE_rec (fieldLE x.rcd (8 * j) 8) j) t).volCmdDone 0).after)

/-- A READ that passes the checks is issued to its tenant socket as a storage request in the lowest free slot, with its timer
started; WRITE, FLUSH, WRITE_ZEROES and DEALLOCATE are issued to their backend in the same way; a command that fails a check
completes with that status, and one that finds the volume asleep sends a WAKE; IDENTIFY writes the volume's record; an
answer ends its command, a malformed one freezes the volume and one for no volume is counted late; a command without an
answer completes stq_timeout and freezes its volume; an idle volume dozes and then sleeps, its backend told; the WAKE's
acknowledgement starts the first command. Each clause says the whole next state. -/
def Obligations.VolumeCommands : Prop :=
  (∀ (s t : State) (r : Fin 65536) (y : Ring) (g : Flight) (v : Nat) (x : Vol), s.mainUp = true → s.stqStarts t r 0x30 y g v x →
    x.backend = 2 → t.modStatus x.bref = 0 → t.freeSlot x < x.depth → Gives (.stqRead r) s
      (let n := t.freeSlot x;
       let u := t.sendTxn x.bref { vc := 1, data := txnHeader 0x13 0x30 0 n 0 (cLba g.desc) ++ (leBytes 4 (cNblocks g.desc) ++ leBytes 2 v ++ leBytes 1 (fieldLE g.desc 0x10 1) ++ leBytes 1 x.shift ++ leBytes 8 (2 ^ 63 + n * 2 ^ 24)) };
          ((((u.modVol v (fun x => { x with cmds := x.cmds ++ [{ slot := n, ring := r, count := g.count, issued := u.time.ft }] })).wr
          R.STQ_VOL_STATE_pstate 0 v).stqCnt 0).performed r g.count))) ∧
  (∀ (s t : State) (r : Fin 65536) (y : Ring) (g : Flight) (v : Nat) (x : Vol), s.mainUp = true → s.stqStarts t r 0x31 y g v x →
    Gives (.stqWrite r) s (t.issueCmd v x r y g)) ∧
  (∀ (s t : State) (r : Fin 65536) (y : Ring) (g : Flight) (v : Nat) (x : Vol), s.mainUp = true → s.stqStarts t r 0x32 y g v x →
    Gives (.stqFlush r) s (t.issueCmd v x r y g)) ∧
  (∀ (s t : State) (r : Fin 65536) (y : Ring) (g : Flight) (v : Nat) (x : Vol), s.mainUp = true → s.stqStarts t r 0x33 y g v x →
    Gives (.writeZeroes r) s (t.issueCmd v x r y g)) ∧
  (∀ (s t : State) (r : Fin 65536) (y : Ring) (g : Flight) (v : Nat) (x : Vol), s.mainUp = true → s.stqStarts t r 0x34 y g v x →
    Gives (.deallocate r) s (t.issueCmd v x r y g)) ∧
  (∀ (s : State) (r : Fin 65536) (y : Ring) (g : Flight) (v : Nat) (x : Vol), s.mainUp = true → s.ring r = some y → y.type = 4 → v
    = y.target % 4096 → y.nextCmd = some g → g.staged = false → dOpcode g.desc = 0x31 → s.vol v = some x → s.stq.flushTo = [] →
    fieldLE g.desc 0x10 2 < 2 → fieldLE g.desc 0x12 2 = 0 → zeroFrom g.desc 0x28 = true → 0 < cNblocks g.desc → cNblocks g.desc
    ≤ x.maxBlocks → x.capacity < cLba g.desc + cNblocks g.desc → Gives (.stqWrite r) s (s.stqFinish v r g.count { status := St.stq_lba_range })) ∧
  (∀ (s t u : State) (r : Fin 65536) (y : Ring) (g : Flight) (v n : Nat) (x : Vol), s.mainUp = true → s.ring r = some y → y.type =
    4 → v = y.target % 4096 → y.nextCmd = some g → g.staged = false → dOpcode g.desc = 0x30 → s.vol v = some x → s.stq.flushTo =
    [] → (s.cmdCheck x y g.slice g.desc).toOption = some t → s.volState v = 1 → x.cmds.length < x.depth → s.rd
    R.STQ_VOL_STATE_pstate v = 2 → x.wakeAt = none → t.powerNotice v x 0 = some (n, u) → Gives (.stqRead r) s ((u.modVol v (fun
    x => { x with wakeAt := some u.time.ft, wakeNote := some n, wakeAcked := false, wakeFor := some (r.val, g.count) })).stqCnt
    12)) ∧
  (∀ (s t u : State) (r : Fin 65536) (y : Ring) (g : Flight) (v : Nat) (x : Vol) (e : List Byte), s.mainUp = true → s.ring r = some
    y → v = y.target % 4096 → y.eng.flight.find? (fun g => !g.performed && !g.staged && g.cpl.isNone && dOpcode g.desc == 0x35)
    = some g → s.vol v = some x → (s.cmdCheck x y g.slice g.desc).toOption = some t → t.writeFor g.slice y.mem (cBuf g.desc)
    (leBytes 8 x.capacity ++ leBytes 1 x.shift ++ leBytes 1 x.backend ++ leBytes 1 (t.rd R.STQ_VOL_STATE_pstate v) ++ leBytes 1
    (t.volState v) ++ leBytes 4 x.maxBlocks ++ leBytes 4 3 ++ leBytes 4 (if x.backend = 0 then 0 else x.exit2) ++ leBytes 8
    x.elog ++ List.replicate 32 0) = (.ok e, u) → Gives (.identify r) s (u.finish r g.count { status := 0, bytes := 64 })) ∧
  (∀ (s t : State) (a : StqRsp) (l : List StqRsp) (x : Vol) (c : StqCmd) (g : Flight), s.mainUp = true → s.stq.rsps = a :: l →
    s.vol a.vol = some x → a.wellFormed = true → a.slot < x.depth → x.cmds.find? (fun c => c.slot == a.slot && c.ended.isNone) =
    some c → a.status = 0 → s.flight c.ring c.count = some g → t = { s with stq := { s.stq with rsps := l } } → Gives
    .backendResponse s (t.stqEnd a.vol a.slot { status := 0, bytes := if dOpcode g.desc = 0x30 ∨ dOpcode g.desc = 0x31 then cNblocks g.desc * 2 ^ x.shift else 0, x18 := if x.backend = 0 then leBytes 4 a.dw0 else [] })) ∧
  (∀ (s : State) (a : StqRsp) (l : List StqRsp) (x : Vol), s.mainUp = true → s.stq.rsps = a :: l → s.vol a.vol = some x →
    a.wellFormed = false → Gives .backendResponse s (({ s with stq := { s.stq with rsps := l } } : State).freeze a.vol 4)) ∧
  (∀ (s : State) (a : StqRsp) (l : List StqRsp), s.mainUp = true → s.stq.rsps = a :: l → s.vol a.vol = none → Gives
    .backendResponse s (({ s with stq := { s.stq with rsps := l } } : State).stqCnt 8)) ∧
  (∀ (s t : State) (v : Fin 4096) (n : Fin 1024) (x : Vol) (c : StqCmd), s.mainUp = true → s.vol v = some x → x.cmds.find? (fun c
    => c.slot == n.val && c.ended.isNone) = some c → t = s.runTo (c.issued + s.cmdTimeout x * unitsPerMs) → Gives
    (.stqCmdTimeout v (some n)) s (((t.setVol v (some { x with late := x.late ++ [n.val] })).stqEnd v n { status := St.stq_timeout }
    1).freeze v 1)) ∧
  (∀ (s t : State) (v : Fin 4096) (x : Vol) (a r c : Nat), s.mainUp = true → s.vol v = some x → x.wakeAt = some a → x.wakeFor =
    some (r, c) → x.wakeAcked = false → t = s.runTo (a + s.cmdTimeout x * unitsPerMs) → Gives (.stqCmdTimeout v none) s
    (((t.setVol v (some { x with wakeAt := none, wakeNote := none, wakeFor := none })).stqFinish v r c { status := St.stq_timeout }
    1).freeze v 1)) ∧
  (∀ (s : State) (v : Fin 4096) (x : Vol) (a : Nat), s.mainUp = true → s.vol v = some x → s.idleSince v x = some a → s.idle1 x ≠ 0
    → s.volState v = 1 → s.rd R.STQ_VOL_STATE_pstate v = 0 → Gives (.doze v) s (((s.runTo (a + s.idle1 x * unitsPerMs)).wr
    R.STQ_VOL_STATE_pstate 1 v).stqCnt 10)) ∧
  (∀ (s t : State) (v : Fin 4096) (x : Vol) (a n : Nat), s.mainUp = true → s.vol v = some x → s.idleSince v x = some a → s.idle2 x
    ≠ 0 → s.volState v = 1 → s.rd R.STQ_VOL_STATE_pstate v ≠ 2 → (((s.runTo (a + s.idle2 x * unitsPerMs)).wr
    R.STQ_VOL_STATE_pstate 2 v).stqCnt 11).powerNotice v x 2 = some (n, t) → Gives (.sleep v) s t) ∧
  (∀ (s : State) (v : Fin 4096) (x : Vol) (r c : Nat), s.mainUp = true → s.vol v = some x → x.wakeAcked = true → x.wakeFor = some
    (r, c) → Gives (.wakeAck v) s (((s.setVol v (some { x with wakeAt := none, wakeNote := none, wakeAcked := false, wakeFor := none })).wr
    R.STQ_VOL_STATE_pstate 0 v).stqStart r [0x30, 0x31, 0x32, 0x33, 0x34]))

/-- In CONFIG a link sends TRAIN; in DOWN it sends DOWN with its cause; in DISABLED it sends nothing; an ACTIVE link sends a NAK
that is due, then a flit under replay, then new DATA of a channel that is ready, otherwise CTRL; when the oldest held flit
has waited replay_ns it is replayed while replays are left, and after the last one the link goes down with cause 3. Each
clause says the whole next state. -/
def Obligations.LinkTransmission : Prop :=
  (∀ (s t : State) (n : Fin 10), s.mainUp = true → (s.link n).state = 3 → t = s.sendFlit n { type := 4, payload := s.trainPayload n }
    → Gives (.flitTransmit n) s ((t.modLink n (fun l => if l.seen then { l with seenSent := l.seenSent + 1 } else l)).linkActive
    n).drainDue) ∧
  (∀ (s : State) (n : Fin 10), s.mainUp = true → (s.link n).state = 5 → Gives (.flitTransmit n) s (s.sendFlit n { type := 5, payload := leBytes 1 (s.link n).cause }).drainDue) ∧
  (∀ (s : State) (n : Fin 10), s.mainUp = true → (s.link n).state = 0 → Gives (.flitTransmit n) s s.drainDue) ∧
  (∀ (s : State) (n : Fin 10), s.mainUp = true → (s.link n).state = 4 → (s.link n).withheld = 0 → s.creditStall (s.link n) = false
    → (s.link n).nakDue = true → Gives (.flitTransmit n) s (((s.setLink n { s.link n with nakDue := false }).lcnt n 5).sendFlit
    n { type := 3, seq := (s.link n).expect }).drainDue) ∧
  (∀ (s t : State) (n : Fin 10) (q : Nat) (h : SentFlit), s.mainUp = true → (s.link n).state = 4 → (s.link n).withheld = 0 →
    s.creditStall (s.link n) = false → (s.link n).nakDue = false → (s.link n).replay = some q → (s.link n).held.find? (·.seq ==
    q) = some h → t = s.setLink n { s.link n with held := (s.link n).held.map (fun x => if x.seq = h.seq then { x with resent := true, at_ := s.time.ft } else x), replay := if (s.link n).held.any (·.seq == (h.seq + 1) % 4096) then some ((h.seq + 1) % 4096) else none }
    → Gives (.flitTransmit n) s ((t.lcnt n 9).sendFlit n { type := 1, vc := h.vc, bad := h.bad, units := h.units, seq := h.seq, payload := h.payload }).drainDue) ∧
  (∀ (s : State) (n : Fin 10), s.mainUp = true → (s.link n).state = 4 → (s.link n).withheld = 0 → s.creditStall (s.link n) = false
    → (s.link n).nakDue = false → (s.link n).replay = none → s.readyVcs (s.link n) = [] → Gives (.flitTransmit n) s ((s.setLink
    n (s.link n)).sendFlit n { type := 2 }).drainDue) ∧
  (∀ (s t : State) (n : Fin 10) (v m : Nat) (b : Bool) (l : Link) (p : List Byte) (e : List Txn), s.mainUp = true → (s.link
    n).state = 4 → (s.link n).withheld = 0 → s.creditStall (s.link n) = false → (s.link n).nakDue = false → (s.link n).replay =
    none → s.readyVcs (s.link n) = [v] → v ≠ 3 → (s.fill v 15 { link := s.link n }).link = l → (s.fill v 15 { link := s.link n }).payload
    = p → (s.fill v 15 { link := s.link n }).bad = b → (s.fill v 15 { link := s.link n }).sync = none → (s.fill v 15 { link := s.link n }).ended
    = e → m = p.length / 16 → t = s.setLink n { l with held := l.held ++ [{ seq := (s.link n).txNext, vc := v, units := m, bad := b, payload := p, at_ := s.time.ft }], txNext := ((s.link n).txNext + 1) % 4096 }
    → Gives (.flitTransmit n) s (e.foldl (fun s t => s.txnSent n t) (t.sendFlit n { type := 1, vc := v, bad := b, units := m, seq := (s.link n).txNext, payload := p })).drainDue) ∧
  (∀ (s t : State) (n : Fin 10) (h : SentFlit) (l : List SentFlit), s.mainUp = true → (s.link n).state = 4 → (s.link n).held = h ::
    l → (s.link n).replays < s.replayMax n → t = s.runTo (h.at_ + s.replayNs n * unitsPerNs) → Gives (.replayTimeout n) s
    ((t.setLink n { s.link n with replay := some h.seq, replays := (s.link n).replays + 1 }).lcnt n 8).drainDue) ∧
  (∀ (s : State) (n : Fin 10) (h : SentFlit) (l : List SentFlit), s.mainUp = true → (s.link n).state = 4 → (s.link n).held = h :: l
    → s.replayMax n ≤ (s.link n).replays → Gives (.replayTimeout n) s ((s.runTo (h.at_ + s.replayNs n * unitsPerNs)).linkDown n
    3).drainDue)

/-- On an ACTIVE link a DATA flit with the expected number is accepted, one already accepted is discarded, and one beyond it
makes a NAK due; a flit that fails its check is counted and taken as a lost DATA flit; a CTRL flit brings its
acknowledgement and credits; a NAK replays from its number, or is discarded when that flit is not held; a header that breaks
a rule ends the link with cause 5, and DOWN with cause 4; in CONFIG a valid TRAIN flit is recorded and one of another
version is refused. Each clause says the whole next state. -/
def Obligations.LinkReception : Prop :=
  (∀ (s t : State) (n : Fin 10) (bs : List Byte) (x : Link), s.mainUp = true → s.flitIn4 t n bs 1 → (flitOf bs).seq = (t.link
    n).expect → takeUnits (8 ≤ n.val) (flitOf bs).vc (flitOf bs).bad 16 ((flitOf bs).payload.take (16 * (flitOf bs).units))
    (t.link n) = some x → Gives (.dataFlitRx n bs true) s
      (let u := t.setLink n { x with expect := ((t.link n).expect + 1) % 4096, nakSent := false, nakDue := false, rxq := x.rxq.map (fun e => if (t.link n).rxq.any (·.1 == e.1) then e else (e.1, { e.2 with at_ := t.time.ft })) };
          (if n.val < 8 then u.dropMalformed n else u.pairMalformed n).drainDue)) ∧
  (∀ (s t : State) (n : Fin 10) (bs : List Byte), s.mainUp = true → s.flitIn4 t n bs 1 → before12 (flitOf bs).seq (t.link n).expect
    = true → Gives (.dataFlitRx n bs true) s
      (let u := t.lcnt n 7; (if n.val < 8 then u.dropMalformed n else u.pairMalformed n).drainDue)) ∧
  (∀ (s t : State) (n : Fin 10) (bs : List Byte), s.mainUp = true → s.flitIn4 t n bs 1 → (flitOf bs).seq ≠ (t.link n).expect →
    before12 (flitOf bs).seq (t.link n).expect = false → (t.link n).nakSent = false → Gives (.dataFlitRx n bs true) s
      (let u := (t.lcnt n 7).setLink n { t.link n with nakSent := true, nakDue := true }; (if n.val < 8 then u.dropMalformed n
          else u.pairMalformed n).drainDue)) ∧
  (∀ (s : State) (n : Fin 10) (bs : List Byte), s.mainUp = true → (s.link n).state = 4 → flitGood bs true = false → (s.link
    n).fecBad.length ≤ 16 → Gives (.dataFlitRx n bs true) s ((((s.lcnt n 1).lcnt n 2).wantNak n).drainDue)) ∧
  (∀ (s t : State) (n : Fin 10) (bs : List Byte), s.mainUp = true → s.flitIn4 t n bs 2 → Gives (.ctrlFlitRx n bs true) s t.drainDue) ∧
  (∀ (s t : State) (n : Fin 10) (bs : List Byte), s.mainUp = true → s.flitIn4 t n bs 3 → (t.link n).held.any (·.seq == (flitOf
    bs).seq) = true → (t.link n).replay = none → (t.link n).replays < t.replayMax n → Gives (.nakRx n bs true) s (((t.lcnt n
    6).setLink n { t.link n with replay := some (flitOf bs).seq, replays := (t.link n).replays + 1 }).lcnt n 8).drainDue) ∧
  (∀ (s t : State) (n : Fin 10) (bs : List Byte), s.mainUp = true → s.flitIn4 t n bs 3 → (t.link n).held.any (·.seq == (flitOf
    bs).seq) = false → Gives (.nakRx n bs true) s ((t.lcnt n 6).lcnt n 10).drainDue) ∧
  (∀ (s : State) (n : Fin 10) (bs : List Byte), s.mainUp = true → (s.link n).state = 4 → flitGood bs true = true → 1 ≤ (flitOf
    bs).type → (flitOf bs).type ≤ 5 → flitIllegal bs = true → Gives (.ctrlFlitRx n bs true) s (((s.lcnt n 1).lcnt n 15).linkDown
    n 5).drainDue) ∧
  (∀ (s t : State) (n : Fin 10) (bs : List Byte), s.mainUp = true → s.flitIn4 t n bs 5 → Gives (.downRx n bs true) s (t.linkDown n
    4).drainDue) ∧
  (∀ (s t : State) (n : Fin 10) (bs p : List Byte) (o : List Nat), s.mainUp = true → n.val < 8 → (s.link n).state = 3 → flitGood bs
    true = true → (flitOf bs).type = 4 → p = (flitOf bs).payload → fieldLE p 0 2 = 1 → fieldLE p 2 1 = 1 → o = trainOffers p →
    offersOk o = true → t = (s.lcnt n 1).modLink n (fun l => { l with seen := true, seenRx := if bit (fieldLE p 3 1) 0 then l.seenRx + 1 else 0, offer := (o.zipIdx.map (fun p => (p.2, p.1))).filter (fun p => p.2 != 0) })
    → Gives (.trainRx n bs true) s ((((((t.wr R.WLK_PARTNER_ID_id (fieldLE p 8 8) n).wr R.WLK_PARTNER_CR_vc0 (o.getD 0 0) n).wr
    R.WLK_PARTNER_CR_vc1 (o.getD 1 0) n).wr R.WLK_PARTNER_CR_vc2 (o.getD 2 0) n).wr R.WLK_PARTNER_CR_vc3 (o.getD 3 0)
    n).linkActive n).drainDue) ∧
  (∀ (s t : State) (n : Fin 10) (bs p : List Byte), s.mainUp = true → n.val < 8 → (s.link n).state = 3 → (s.link n).refusedEv =
    true → flitGood bs true = true → (flitOf bs).type = 4 → p = (flitOf bs).payload → fieldLE p 0 2 ≠ 1 → offersOk (trainOffers
    p) = true → t = (s.lcnt n 1).modLink n (fun l => { l with seenRx := 0 }) → Gives (.trainRx n bs true) s (t.raise
    R.WLK_STATUS_version_mismatch n).drainDue)

/-- Signal on all eight lanes moves a link with no lane shut from DETECT to LOCK, and with a lane shut changes nothing; lock
moves it to CONFIG; the timeouts of LOCK and CONFIG return it to DETECT; a down cause ends an ACTIVE sublink that holds
nothing, and in DOWN is only counted; after 1 µs in DOWN an enabled link returns to DETECT, unless the cause was 7. Each
clause says the whole next state. -/
def Obligations.LinkStates : Prop :=
  (∀ (s : State) (n : Fin 10), s.mainUp = true → (s.link n).state = 1 → s.anyShut n = false → Gives (.linkSignalDetect n) s
    ((((List.range 8).foldl (fun s l => s.setLlane n R.WLK_LANE_STATUS_los R.PAR_LANE_STATUS_los l 0) s).setLinkState n
    2).setLaneStates n 1)) ∧
  (∀ (s : State) (n : Fin 10), s.mainUp = true → s.anyShut n = true → Gives (.linkSignalDetect n) s s) ∧
  (∀ (s t : State) (n : Fin 10) (i : Fin 256), s.mainUp = true → (s.link n).state = 2 → n.val < 8 → t = (s.modLink n (fun l => { l with seen := false, seenSent := 0, seenRx := 0, refusedEv := false })).setLinkState
    n 3 → Gives (.linkLock n i) s (((t.wr R.WLK_STATUS_version_mismatch 0 n).wr R.WLK_STATUS_credit_low 0 n).wr
    R.WLK_STATUS_rx_inverted i n)) ∧
  (∀ (s t : State) (n : Fin 10) (i : Fin 256), s.mainUp = true → (s.link n).state = 2 → 8 ≤ n.val → t = (s.modLink n (fun l => { l with seen := false, seenSent := 0, seenRx := 0, refusedEv := false })).setLinkState
    n 3 → Gives (.linkLock n i) s (t.wr R.PAR_STATUS_id_mismatch 0)) ∧
  (∀ (s : State) (n : Fin 10), s.mainUp = true → (s.link n).state = 2 → Gives (.lockTimeout n) s (((s.runTo ((s.link n).since + 100
    * unitsPerMs)).lcnt n 13).setLinkState n 1)) ∧
  (∀ (s : State) (n : Fin 10), s.mainUp = true → (s.link n).state = 3 → Gives (.configTimeout n) s (((s.runTo ((s.link n).since +
    10 * unitsPerMs)).lcnt n 13).setLinkState n 1)) ∧
  (∀ (s t : State) (n : Fin 10) (c : Fin 8), s.mainUp = true → 8 ≤ n.val → c.val ≠ 0 → (s.link n).state = 4 → (s.link n).held = []
    → (s.link n).txq = [] → (s.link n).part = [] → t = ((s.setLink n { s.link n with held := [], replay := none, consumed := [], partner := [], returned := [], rxUsed := [], withheld := 0, offer := [], txq := [], cause := c }).setLinkState
    n 5).setLaneStates n 1 → Gives (.linkDownCause n c) s ({ t with due := t.due ++ [.linkLost n c] } : State).drainDue) ∧
  (∀ (s : State) (n : Fin 10) (c : Fin 8), s.mainUp = true → c.val ≠ 0 → (s.link n).state = 5 → Gives (.linkDownCause n c) s
    (s.lcnt n 14).drainDue) ∧
  (∀ (s : State) (n : Fin 10), s.mainUp = true → (s.link n).state = 5 → (s.link n).cause ≠ 7 → s.linkEnabled n = true → Gives
    (.downEnd n) s ((s.runTo ((s.link n).since + unitsPerUs)).setLinkState n 1)) ∧
  (∀ (s : State) (n : Fin 10), s.mainUp = true → (s.link n).state = 5 → s.linkEnabled n = false → Gives (.downEnd n) s ((((s.runTo
    ((s.link n).since + unitsPerUs)).setLinkState n 0).setLaneStates n 0)))

/-- A PKT of an ACTIVE slice is charged, counted and admitted to its pipeline, and one without an ACTIVE slice is counted and
dropped; an MWR and an MRD whose window reaches the slice's HBM write and read it, and one without a window is refused; a DB
rings a ring of the socket's slice and no other; an INTR fires a vector of the bound function; an STQ_RSP answers its slot;
a CPL ends its read, and a read without one ends tsk_rd_timeout; an ACK is matched with its message; an ALERT writes event
0x0008; tokens that return release what a meter holds. Each clause says the whole next state. -/
def Obligations.ModuleTransactions : Prop :=
  (∀ (s : State) (n : Fin 8) (e : Nat × Txn), s.mainUp = true → s.nextTxn n 1 = some e → s.sockGate n = 0 → s.meterHolds n 0 =
    false → ((((s.meterCharge n 0 e.2.total).tskCnt n 0).leaveRx n e)).on R.TSK_BYPASS_en n = false → Gives (.socketPktRx n) s
      (let t := ((s.meterCharge n 0 e.2.total).tskCnt n 0).leaveRx n e; t.toPipe n { data := e.2.body, src := 0x100 + n, stamp := t.now64, at_ := t.time.ft, bad := e.2.bad, slice := (t.sockSlice n).getD 0 })) ∧
  (∀ (s : State) (n : Fin 8) (e : Nat × Txn), s.mainUp = true → s.nextTxn n 1 = some e → s.standby n = false → s.sockGate n ≠ 0 →
    Gives (.socketPktRx n) s (((s.tskCnt n 0).tskCnt n 13).leaveRx n e)) ∧
  (∀ (s : State) (n : Fin 8) (e : Nat × Txn) (x a : Nat), s.mainUp = true → s.nextTxn n 0x10 = some e → s.sockGate n = 0 →
    s.meterHolds n 1 = false → (s.modTarget n e.2.arg e.2.len true).map (fun g => (g.slice, g.hbm, g.addr)) = some (x, true, a)
    → Gives (.socketMwrRx n) s ((((s.meterCharge n 1 e.2.total).tskCnt n 2).leaveRx n e).hbmWrite a e.2.body e.2.bad).1) ∧
  (∀ (s : State) (n : Fin 8) (e : Nat × Txn), s.mainUp = true → s.nextTxn n 0x10 = some e → s.sockGate n = 0 → s.meterHolds n 1 =
    false → (s.modTarget n e.2.arg e.2.len true).isNone = true → Gives (.socketMwrRx n) s ((((s.meterCharge n 1
    e.2.total).tskCnt n 2).leaveRx n e).noWindow n 1 e.2.arg)) ∧
  (∀ (s t : State) (n : Fin 8) (e : Nat × Txn) (x a : Nat), s.mainUp = true → s.nextTxn n 0x20 none true = some e → (s.sock
    n).modRd.contains e.2.tag = false → (s.sock n).modRd.length < max 1 (s.rd R.TSK_CFG_max_rd n) → s.sockGate n = 0 →
    s.meterHolds n 2 = false → (s.modTarget n e.2.arg e.2.len false).map (fun g => (g.slice, g.hbm, g.addr)) = some (x, true, a)
    → t = (((s.tskCnt n 3).setSock n { s.sock n with modRd := (s.sock n).modRd ++ [e.2.tag] }).leaveRx n e).meterCharge n 2 (1 +
    (e.2.len + 15) / 16) → (t.hbmRead a e.2.len).status ≠ St.mem_range → Gives (.socketMrdRx n) s
      (let r := t.hbmRead a e.2.len; r.next.sendCpl n e.2.tag 0 r.data r.bad)) ∧
  (∀ (s : State) (n : Fin 8) (e : Nat × Txn), s.mainUp = true → s.nextTxn n 0x20 none true = some e → (s.sock n).modRd.contains
    e.2.tag = true → Gives (.socketMrdRx n) s (((s.tskCnt n 3).tskCnt n 10).leaveRx n e)) ∧
  (∀ (s t u : State) (n : Fin 8) (e : Nat × Txn) (x : Ring), s.mainUp = true → s.nextTxn n 0x11 none true = some e → t = s.leaveRx
    n e → t.sockGate n = 0 → t.meterHolds n 3 = false → u = t.meterCharge n 3 1 → u.ring e.2.tag = some x → u.sockSlice n = some
    x.slice → Gives (.socketDbRx n) s (u.doorbell e.2.tag e.2.arg)) ∧
  (∀ (s t u : State) (n : Fin 8) (e : Nat × Txn), s.mainUp = true → s.nextTxn n 0x11 none true = some e → t = s.leaveRx n e →
    t.sockGate n = 0 → t.meterHolds n 3 = false → u = t.meterCharge n 3 1 → u.ring e.2.tag = none → Gives (.socketDbRx n) s
    (u.tskCnt n 11)) ∧
  (∀ (s t u : State) (n : Fin 8) (e : Nat × Txn) (x f v : Nat), s.mainUp = true → s.nextTxn n 0x12 none true = some e → t =
    s.leaveRx n e → t.sockGate n = 0 → t.meterHolds n 3 = false → u = t.meterCharge n 3 1 → u.sockSlice n = some x → u.sliceFn x
    = some f → v = t.rd R.TSK_INTR_CFG_base n + e.2.tag → e.2.tag < u.rd R.TSK_INTR_CFG_count n → v < u.msixCount f → Gives
    (.socketIntrRx n) s (u.msixFire f v)) ∧
  (∀ (s t : State) (n : Fin 8) (e : Nat × Txn) (v : Nat) (x : Vol) (c : StqCmd), s.mainUp = true → s.nextTxn n 0x14 none true =
    some e → s.sockGate n = 0 → s.meterHolds n 1 = false → t = (s.meterCharge n 1 1).leaveRx n e → t.slotCmd n e.2.tag = some
    (v, x, c) → Gives (.stqRsp n) s (t.stqAnswer { vol := v, slot := e.2.tag, status := e.2.status })) ∧
  (∀ (s t : State) (n : Fin 8) (e : Nat × Txn) (r : SockRd), s.mainUp = true → s.nextTxn n 0x30 = some e → t = s.leaveRx n e →
    (t.sock n).rds.find? (·.tag == e.2.tag) = some r → t.time.ft < r.issued + t.rdTimeout n → e.2.status = 0 → e.2.len = r.len →
    Gives (.socketCplRx n) s (t.readDone n r e.2.body e.2.bad 0).drainDue) ∧
  (∀ (s t : State) (n : Fin 8) (e : Nat × Txn), s.mainUp = true → s.nextTxn n 0x30 = some e → t = s.leaveRx n e → (t.sock
    n).rds.find? (·.tag == e.2.tag) = none → Gives (.socketCplRx n) s (t.tskCnt n 8).drainDue) ∧
  (∀ (s : State) (n : Fin 8) (g : Fin 4096) (r : SockRd), s.mainUp = true → (s.sock n).rds.find? (·.tag == g.val) = some r → Gives
    (.socketRdTimeout n g) s (((s.runTo (r.issued + s.rdTimeout n)).tskCnt n 8).readDone n r [] false
    St.tsk_rd_timeout).drainDue) ∧
  (∀ (s t : State) (n : Fin 8) (e : Nat × Txn) (a : Nat × Nat), s.mainUp = true → s.nextTxn n 0x31 (some 0x80) = some e → t =
    s.leaveRx n e → (t.sock n).acks.find? (·.1 == e.2.tag) = some a → a.2 ≠ 2 → Gives (.mgmtAckRx n) s (t.setSock n { t.sock n with acks := (t.sock n).acks.erase a, quiesced := (t.sock n).quiesced || a.2 == 3 })) ∧
  (∀ (s t : State) (n : Fin 8) (e : Nat × Txn) (x : Nat), s.mainUp = true → s.nextTxn n 0x31 (some 4) = some e → t = s.leaveRx n e
    → t.meterHolds n 3 = false → (t.meterCharge n 3 1).sockSlice n = some x → Gives (.alert n) s ((t.meterCharge n 3
    1).sliceEvent 0xE n 8 x (leBytes 2 e.2.status ++ leBytes 6 0 ++ leBytes 8 e.2.arg))) ∧
  (∀ (s : State) (n : Fin 8), s.mainUp = true → s.meterHolds n 0 = true → Gives (.meterRelease n 0) s ((s.runTo (s.time.ft +
    ((-(s.meterLevel n 0)).toNat / meterRate 0 (s.meterCfg n 0).1 + 1) * unitsPerNs)).sockPkt n))

/-- A BAR4 read through a window starts a gathered read and a write is sent as MWRs; one without a window gets Unsupported
Request; a commit that no check refuses copies the shadow windows and advances the epoch, and a refused one only records its
cause; busy clears with the last transaction of the old epoch; COPY_IN and COPY_OUT send their MWRs and MRDs; FT_SYNC is
sent every sync_us, FT_FOLLOW once its flit is acknowledged, and an FT_DREQ gets an FT_DRSP. Each clause says the whole next
state. -/
def Obligations.SocketReadsAndTime : Prop :=
  (∀ (s : State) (hif : Fin 2) (pf : Fin 8) (off len n a x : Nat), s.mainUp = true → off < 2 ^ 36 → len ≤ 4096 → s.fnReady (8 * hif
    + pf) = true → s.rd R.HIF_PF_CFG_bar4_en ((8 * hif + pf) / 8) ((8 * hif + pf) % 8) ≠ 0 → (s.func (8 * hif + pf)).memEn =
    true → s.fnD3 (8 * hif + pf) = false → (List.range 8).findSome? (fun n => (s.h2s n (8 * hif + pf) off len false).map (fun a
    => (n, a))) = some (n, a) → s.sockSlice n = some x → s.sliceState x = 1 → s.modStatus n = 0 → Gives (.bar4Access hif pf off
    len none) s (s.startJob n (some (8 * hif + pf)) 0 a len)) ∧
  (∀ (s : State) (hif : Fin 2) (pf : Fin 8) (off len n a x : Nat) (bs : List Byte), s.mainUp = true → off < 2 ^ 36 → s.fnReady (8 *
    hif + pf) = true → s.rd R.HIF_PF_CFG_bar4_en ((8 * hif + pf) / 8) ((8 * hif + pf) % 8) ≠ 0 → (s.func (8 * hif + pf)).memEn =
    true → s.fnD3 (8 * hif + pf) = false → (List.range 8).findSome? (fun n => (s.h2s n (8 * hif + pf) off bs.length true).map
    (fun a => (n, a))) = some (n, a) → s.sockSlice n = some x → s.sliceState x = 1 → s.modStatus n = 0 → Gives (.bar4Access hif
    pf off len (some bs)) s (s.moduleWrite n a bs false)) ∧
  (∀ (s : State) (hif : Fin 2) (pf : Fin 8) (off len n : Nat), s.mainUp = true → off < 2 ^ 36 → len ≤ 4096 → s.fnReady (8 * hif +
    pf) = true → s.rd R.HIF_PF_CFG_bar4_en ((8 * hif + pf) / 8) ((8 * hif + pf) % 8) ≠ 0 → (s.func (8 * hif + pf)).memEn = true
    → s.fnD3 (8 * hif + pf) = false → (List.range 8).findSome? (fun n => (s.h2s n (8 * hif + pf) off len false).map (fun a =>
    (n, a))) = none → s.fnSocket (8 * hif + pf) = some n → Gives (.bar4Access hif pf off len none) s ((s.noWindow n 0
    off).unsupported (8 * hif + pf) false)) ∧
  (∀ (s t : State) (req : Req) (n : Fin 8), s.takes req 0x0E n R.reg_TSK_WIN_COMMIT n → s.winCheck n = 0 → s.armed (29 + n) = false
    → t = (List.range 16).foldl (fun (s : State) (w : Nat) => winFields.foldl (fun (s : State) (p : Fld × Fld) => s.wr p.2 (s.rd
    p.1 n w) n w) s) s → Gives (.winCommit req n) s
      (let u := t.wr R.TSK_WIN_STATUS_win_epoch (t.winEpoch n + 1) n; (u.wr R.TSK_WIN_STATUS_busy (b2n (u.oldInflight n != 0))
          n).after)) ∧
  (∀ (s : State) (req : Req) (n : Fin 8), s.takes req 0x0E n R.reg_TSK_WIN_COMMIT n → s.winCheck n ≠ 0 → Gives (.winCommit req n) s
    ((s.raise R.TSK_WIN_STATUS_refused n).wr R.TSK_WIN_STATUS_refuse_cause (s.winCheck n) n).after) ∧
  (∀ (s : State) (n : Fin 8), s.mainUp = true → s.on R.TSK_WIN_STATUS_busy n = true → s.oldInflight n = 0 → Gives (.winDrained n) s
    (s.wr R.TSK_WIN_STATUS_busy 0 n)) ∧
  (∀ (s t : State) (r : Fin 65536) (x : Ring) (g : Flight) (bs : List Byte), s.mainUp = true → s.ring r = some x → s.toPerform r
    [0x50] = some g → copyOk g.desc = true → s.readFor (.work r g.count) g.slice true (fieldLE g.desc 0x10 8) (fieldLE g.desc
    0x20 4) = (.ok bs, t) → s.copyStatus x = 0 → Gives (.copyIn r) s ((t.performed r g.count).moduleWrite (s.rd
    R.SLC_BIND_socket x.slice) (fieldLE g.desc 0x18 8) bs false (some (r.val, g.count)))) ∧
  (∀ (s t : State) (r : Fin 65536) (x : Ring) (g : Flight) (n : Nat), s.mainUp = true → s.ring r = some x → s.toPerform r [0x51] =
    some g → copyOk g.desc = true → s.claimHbm g.slice (fieldLE g.desc 0x10 8) (fieldLE g.desc 0x20 4) = some t → s.copyStatus x
    = 0 → n = s.rd R.SLC_BIND_socket x.slice → Gives (.copyOut r) s (State.copyIssue n r g.count 4096 ((t.performed r
    g.count).setCopy n { ring := r, count := g.count, slice := g.slice, mem := fieldLE g.desc 0x10 8, sock := fieldLE g.desc 0x18 8, len := fieldLE g.desc 0x20 4 }))) ∧
  (∀ (s t : State) (n : Fin 8), s.mainUp = true → s.rd R.TSK_CFG_sync_us n ≠ 0 → (s.link n).state = 4 → t = s.runTo (max (s.sock
    n).syncAt (s.link n).since + s.rd R.TSK_CFG_sync_us n * unitsPerUs) → Gives (.ftSync n) s
      (let k := s.sock n; (t.setSock n { k with syncAt := t.time.ft, syncId := (k.syncId + 1) % 65536 }).sendTxn n { vc := 3, data := txnHeader 0x32 (s.rd R.FT_STATUS_state % 8) 0 k.syncId 0 0, sync := some k.syncId })) ∧
  (∀ (s : State) (n : Fin 8) (i a : Nat) (b : Bool), s.mainUp = true → (s.sock n).syncDue = some (i, a, b) → Gives (.ftFollow n) s
    ((s.setSock n { s.sock n with syncDue := none, stepped := false }).sendTxn n { vc := 3, data := txnHeader 0x33 (b2n b + 2 * b2n (s.sock n).stepped) 0 i 0 0 ++ ftUnit a })) ∧
  (∀ (s t : State) (n : Fin 8) (e : Nat × Txn), s.mainUp = true → s.nextTxn n 0x34 = some e → t = s.leaveRx n e → (t.sock n).dreqAt
    = none → Gives (.ftDreq n) s ((t.setSock n { t.sock n with dreqAt := some e.2.at_ }).sendTxn n { vc := 3, data := txnHeader 0x35 0 0 e.2.tag 0 0 ++ ftUnit e.2.at_ }))

/-- Presence that becomes present writes its event and powers a module with auto_power, and one seen reversed or at fault
latches its bit; a power request in OFF with every condition met starts POWERING and any other sets on_refused; off starts
QUIESCING from ON; an attention press is latched; MOD_PG moves POWERING to RESETTING, and without it the socket is at fault;
the reset delay ends in ON; after QUIESCING with nothing under way the power is removed; a current at or below the limit is
no fault. Each clause says the whole next state. -/
def Obligations.ModulePower : Prop :=
  (∀ (s t : State) (n : Fin 8), s.mainUp = true → s.rd R.TSK_STATUS_prsnt n ≠ 1 → t = (s.wr R.TSK_STATUS_prsnt 1 n).tskEvent n 1 []
    → t.on R.TSK_CFG_auto_power n = false → Gives (.presenceChange n false false) s t.drainDue) ∧
  (∀ (s : State) (n : Fin 8), s.mainUp = true → s.rd R.TSK_STATUS_prsnt n = 0 → Gives (.presenceChange n true true) s (((s.wr
    R.TSK_STATUS_prsnt 2 n).raise R.TSK_STATUS_reversed_seen n).tskEvent n 5 [] true).drainDue) ∧
  (∀ (s : State) (req : Req) (n : Fin 8), s.takes req 0x0E n R.reg_TSK_PWR_CTRL n → s.sockPwr n = 0 → s.rd R.TSK_STATUS_prsnt n = 1
    → s.cuffOpen = true → s.pwrFaults n = false → s.fencedUnit 3 n = false → Gives (.powerOnRequest req n) s ((s.wr
    R.TSK_STATUS_pwr 1 n).modSock n (fun k => { k with since := s.time.ft })).after) ∧
  (∀ (s : State) (req : Req) (n : Fin 8), s.takes req 0x0E n R.reg_TSK_PWR_CTRL n → s.sockPwr n ≠ 0 ∨ s.rd R.TSK_STATUS_prsnt n ≠ 1
    ∨ s.cuffOpen = false ∨ s.pwrFaults n = true → Gives (.powerOnRequest req n) s (s.raise R.TSK_STATUS_on_refused n).after) ∧
  (∀ (s t : State) (req : Req) (n : Fin 8), s.takes req 0x0E n R.reg_TSK_PWR_CTRL n → s.sockPwr n = 3 → t = (s.wr R.TSK_STATUS_pwr
    4 n).setSock n { s.sock n with since := s.time.ft, quiesced := false } → s.volsOf 2 n = [] → Gives (.powerOffRequest req n)
    s (t.sendMgmt n 3 0).2.after) ∧
  (∀ (s t : State) (n : Fin 8), s.mainUp = true → t = (s.raise R.TSK_STATUS_attn_pressed n).tskEvent n 6 [] → t.on
    R.TSK_CFG_attn_auto n = false → Gives (.attnPress n) s t) ∧
  (∀ (s : State) (n : Fin 8), s.mainUp = true → s.sockPwr n = 1 → Gives (.modPg n) s ((s.wr R.TSK_STATUS_pwr 2 n).setSock n { s.sock n with since := s.time.ft, modPg := true })) ∧
  (∀ (s t : State) (n : Fin 8), s.mainUp = true → s.sockPwr n = 1 → t = s.runTo ((s.sock n).since + max 1 (s.rd
    R.TSK_PWR_CFG_pg_timeout_ms n) * unitsPerMs) → Gives (.pgTimeout n) s (((t.raise R.TSK_STATUS_flt_pg n).setPwr n 5).tskEvent
    n 4 (leBytes 1 2 ++ leBytes 2 ((t.raise R.TSK_STATUS_flt_pg n).rd R.TSK_STATUS_i_ma n)) true)) ∧
  (∀ (s t : State) (n : Fin 8) (m : Nat), s.mainUp = true → s.sockPwr n = 2 → t = s.runTo ((s.sock n).since + max 1 (s.rd
    R.TSK_CFG_rst_delay_ms n) * unitsPerMs) → Gives (.resetDelayEnd n m) s ((((((t.wr R.TSK_STATUS_i_ma (min m 0xFFFF) n).setPwr
    n 3).modSock n (fun k => { k with gone := false })).tskEvent n 3 (leBytes 1 0 ++ leBytes 2 (min m 0xFFFF)))).linkStart n)) ∧
  (∀ (s : State) (n : Fin 8), s.mainUp = true → s.sockPwr n = 4 → (s.sock n).quiesced = true → s.towardIdle n = true → Gives
    (.quiesceWaitEnd n) s ((s.setPwr n 0).linkDown n 7).drainDue) ∧
  (∀ (s : State) (n : Fin 8) (b : Bool) (m : Nat), s.mainUp = true → m ≤ max 100 (s.rd R.TSK_PWR_CFG_i_limit_ma n) → Gives
    (.powerFault n true b m) s s.drainDue) ∧
  (∀ (s t : State) (n : Fin 8) (m : Nat), s.mainUp = true → max 100 (s.rd R.TSK_PWR_CFG_i_limit_ma n) < m → t = (s.wr
    R.TSK_STATUS_i_ma (min m 0xFFFF) n).raise R.TSK_STATUS_flt_current n → Gives (.powerFault n true false m) s ((t.tskEvent n 4
    (leBytes 1 1 ++ leBytes 2 (min m 0xFFFF)) true).powerLost n 5).drainDue)

/-- A running thread appends a word to an outbox with room, and faults on a full one; commits the outbox as one message to a
channel of its domain with room, and on a full one blocks (ch.commit) or gets 1 (ch.tcommit); empties its outbox; receives
the head message of its own channel, and on an empty one blocks or gets 0; reads an inbox word; selects the lowest ready
channel; waits for an FT64; arms an alarm; raises the software interrupt of a thread of its domain; rings a ring of its
slice; completes a work descriptor, and a stale one is counted. Each clause says the whole next state. -/
def Obligations.ChannelInstructions : Prop :=
  (∀ (s : State) (h : Fin 1024) (rs1 : Fin 32), s.mainUp = true → (s.hart h).state = 1 → (s.hart h).out.length < 8 → Gives (.chPut
    h rs1) s ((s.modHart h (fun k => { k with out := k.out ++ [s.xr h rs1] })).retire h 4)) ∧
  (∀ (s : State) (h : Fin 1024) (rs1 : Fin 32), s.mainUp = true → (s.hart h).state = 1 → 8 ≤ (s.hart h).out.length → Gives (.chPut
    h rs1) s (s.trap h 24 2)) ∧
  (∀ (s : State) (h : Fin 1024) (rs1 rd : Fin 32) (a c ch : Nat), s.mainUp = true → (s.hart h).state = 1 → a = s.xr h rs1 → a <
    4096 → c = a / 64 → ch = a % 64 → (s.hart h).out ≠ [] → s.dom c = s.dom (h / 16) → s.chOn c ch = true → s.fencedUnit 1 c =
    false → s.chFull c ch = false → Gives (.chCommit h rs1 rd) s ((((s.chPush c ch { words := (s.hart h).out, sender := h }).modHart
    h (fun k => { k with out := [] })).xw h rd 0).retire h 4)) ∧
  (∀ (s : State) (h : Fin 1024) (rs1 rd : Fin 32) (a c ch : Nat), s.mainUp = true → (s.hart h).state = 1 → a = s.xr h rs1 → a <
    4096 → c = a / 64 → ch = a % 64 → (s.hart h).out ≠ [] → s.dom c = s.dom (h / 16) → s.chOn c ch = true → s.fencedUnit 1 c =
    false → s.chFull c ch = true → Gives (.chCommit h rs1 rd) s (s.block h 4 ch (customWord 0 1 0 rs1 rd) 4)) ∧
  (∀ (s : State) (h : Fin 1024) (rs1 rd : Fin 32) (a c ch : Nat), s.mainUp = true → (s.hart h).state = 1 → a = s.xr h rs1 → a <
    4096 → c = a / 64 → ch = a % 64 → (s.hart h).out ≠ [] → s.dom c = s.dom (h / 16) → s.chOn c ch = true → s.fencedUnit 1 c =
    false → s.chFull c ch = true → Gives (.chTcommit h rs1 rd) s ((s.xw h rd 1).retire h 4)) ∧
  (∀ (s : State) (h : Fin 1024) (rs1 rd : Fin 32) (a : Nat), s.mainUp = true → (s.hart h).state = 1 → a = s.xr h rs1 → a < 4096 →
    (s.hart h).out ≠ [] → s.dom (a / 64) = s.dom (h / 16) → s.chOn (a / 64) (a % 64) = false → Gives (.chCommit h rs1 rd) s
    (s.trap h 24 5)) ∧
  (∀ (s : State) (h : Fin 1024), s.mainUp = true → (s.hart h).state = 1 → Gives (.chDrop h) s ((s.modHart h (fun k => { k with out := [] })).retire
    h 4)) ∧
  (∀ (s : State) (h : Fin 1024) (rs1 rd : Fin 32) (a : Nat) (m : Msg) (l : List Msg), s.mainUp = true → (s.hart h).state = 1 → a =
    s.xr h rs1 → a < 64 → s.ownsCh h a = true → s.chOn (h / 16) a = true → s.chMsgs (h / 16) a = m :: l → Gives (.chRecv h rs1
    rd) s ((((s.setMsgs (h / 16) a l).modHart h (fun k => { k with inbox := m.words })).xw h rd (m.words.length + m.sender * 2 ^
    16)).retire h 4)) ∧
  (∀ (s : State) (h : Fin 1024) (rs1 rd : Fin 32) (a : Nat), s.mainUp = true → (s.hart h).state = 1 → a = s.xr h rs1 → a < 64 →
    s.ownsCh h a = true → s.chOn (h / 16) a = true → s.chMsgs (h / 16) a = [] → Gives (.chRecv h rs1 rd) s (s.block h 1 a
    (customWord 0 4 0 rs1 rd) 4)) ∧
  (∀ (s : State) (h : Fin 1024) (rs1 rd : Fin 32) (a : Nat), s.mainUp = true → (s.hart h).state = 1 → a = s.xr h rs1 → a < 64 →
    s.ownsCh h a = false → Gives (.chRecv h rs1 rd) s (s.trap h 24 1)) ∧
  (∀ (s : State) (h : Fin 1024) (rs1 rd : Fin 32) (a : Nat), s.mainUp = true → (s.hart h).state = 1 → a = s.xr h rs1 → a < 64 →
    s.ownsCh h a = true → s.chOn (h / 16) a = true → s.chMsgs (h / 16) a = [] → Gives (.chTrecv h rs1 rd) s ((s.xw h rd
    0).retire h 4)) ∧
  (∀ (s : State) (h : Fin 1024) (i : Fin 8) (rd : Fin 32), s.mainUp = true → (s.hart h).state = 1 → Gives (.chIn h i rd) s ((s.xw h
    rd ((s.hart h).inbox.getD i 0)).retire h 4)) ∧
  (∀ (s : State) (h : Fin 1024) (rs1 rs2 rd : Fin 32) (a : Nat) (i : Nat), s.mainUp = true → (s.hart h).state = 1 → a = s.xr h rs1
    → s.xr h rs2 = 0 → (List.range 64).all (fun i => !bit a i || (s.ownsCh h i && s.chOn (h / 16) i)) = true → (List.range
    64).find? (fun i => bit a i && !(s.chMsgs (h / 16) i).isEmpty) = some i → Gives (.chSelect h rs1 rs2 rd) s ((s.xw h rd
    i).retire h 4)) ∧
  (∀ (s : State) (h : Fin 1024) (rs1 rd : Fin 32) (a : Nat), s.mainUp = true → (s.hart h).state = 1 → a = s.xr h rs1 → ft64Valid a
    = true → a ≤ s.now64 → Gives (.chWait h rs1 rd) s ((s.xw h rd 0).retire h 4)) ∧
  (∀ (s : State) (h : Fin 1024) (rs1 rd : Fin 32) (a : Nat), s.mainUp = true → (s.hart h).state = 1 → a = s.xr h rs1 → ft64Valid a
    = true → s.now64 < a → Gives (.chWait h rs1 rd) s (s.block h 3 0 (customWord 0 8 0 rs1 rd) 4)) ∧
  (∀ (s : State) (h : Fin 1024) (rs1 rd : Fin 32), s.mainUp = true → (s.hart h).state = 1 → ft64Valid (s.xr h rs1) = false → Gives
    (.chWait h rs1 rd) s ((s.xw h rd St.bad_time).retire h 4)) ∧
  (∀ (s : State) (h : Fin 1024) (rs1 rs2 rd : Fin 32) (a b : Nat), s.mainUp = true → (s.hart h).state = 1 → a = s.xr h rs1 → b =
    s.xr h rs2 → b < 64 → s.chOn (h / 16) b = true → ft64Valid a = true → (s.fc.alarms.filter (·.hart == h.val)).length < 4 →
    Gives (.chAlarm h rs1 rs2 rd) s (((({ s with fc := { s.fc with alarms := s.fc.alarms ++ [{ hart := h, ch := b, time := a }] } }
    : State)).xw h rd 0).retire h 4)) ∧
  (∀ (s : State) (h : Fin 1024) (rs1 : Fin 32) (a : Nat), s.mainUp = true → (s.hart h).state = 1 → a = s.xr h rs1 → a < 1024 →
    s.dom (a / 16) = s.dom (h / 16) → Gives (.chIpi h rs1) s ((s.raiseInt a 3).retire h 4)) ∧
  (∀ (s : State) (h : Fin 1024) (rs1 rs2 rd : Fin 32) (a : Nat) (x : Ring), s.mainUp = true → (s.hart h).state = 1 → a = s.xr h rs1
    → a < 65536 → s.ring a = some x → x.slice = s.hartSlice h → Gives (.chDb h rs1 rs2 rd) s (((s.doorbell a (s.xr h rs2)).xw h
    rd 0).retire h 4)) ∧
  (∀ (s t : State) (h : Fin 1024) (rs1 rs2 rd : Fin 32) (a b : Nat) (x : Ring) (g : Flight), s.mainUp = true → (s.hart h).state = 1
    → a = s.xr h rs1 → a < 2 ^ 41 → b = s.xr h rs2 → s.ring (a % 65536) = some x → x.slice = s.hartSlice h → x.type = 5 →
    x.eng.flight.find? (fun (g : Flight) => g.tag == some (bits a 32 16) && g.cpl.isNone && s.tagGen (bits a 32 16) == bits a 40
    33) = some g → t = s.finish (a % 65536) g.count { status := b % 65536, bytes := b / 2 ^ 32, x12 := leBytes 2 (bits b 31 16) }
    → Gives (.chCpl h rs1 rs2 rd) s (((t.workDone (a % 65536) g.count (if bits b 31 16 = 0 then b % 65536 else bits b 31 16)).xw
    h rd 0).retire h 4)) ∧
  (∀ (s : State) (h : Fin 1024) (rs1 rs2 rd : Fin 32) (a : Nat), s.mainUp = true → (s.hart h).state = 1 → a = s.xr h rs1 → a < 2 ^
    41 → s.ring (a % 65536) = none → s.rng.late = [] → Gives (.chCpl h rs1 rs2 rd) s (((s.fcnt (h / 16) 7).xw h rd 1).retire h
    4))

/-- A thread gets the address of the next filled entry of its receive port, blocks or gets 0 when none is filled, and releases
returned ones; a well-formed transmit descriptor admits its frame; a frame for an enabled port goes into the next free
entry, one for a disabled port is dropped; a blocked thread runs again once its wait is satisfied; an alarm fires; ch.wait
ends at its time; an enabled interrupt is taken and abandons a blocking instruction; the detector latches the snapshots of a
deadlocked domain once. Each clause says the whole next state. -/
def Obligations.PacketPortsAndWakes : Prop :=
  (∀ (s : State) (h : Fin 1024) (rs1 rd : Fin 32) (p : Nat) (x : RxPort), s.mainUp = true → (s.hart h).state = 1 → p = s.xr h rs1 →
    p < 16 → s.ownsRx h p = true → s.rxp (h / 16) p = x → x.returned < x.filled → Gives (.ptRecv h rs1 rd) s (((s.setRxp (h /
    16) p { x with returned := x.returned + 1 }).xw h rd (s.rxEntry (h / 16) p x.returned - s.rd R.FCR_LM_CFG_base (h / 16) (h %
    16) * 4096)).retire h 4)) ∧
  (∀ (s : State) (h : Fin 1024) (rs1 rd : Fin 32) (p : Nat), s.mainUp = true → (s.hart h).state = 1 → p = s.xr h rs1 → p < 16 →
    s.ownsRx h p = true → (s.rxp (h / 16) p).filled ≤ (s.rxp (h / 16) p).returned → Gives (.ptRecv h rs1 rd) s (s.block h 5 p
    (customWord 2 0 0 rs1 rd) 4)) ∧
  (∀ (s : State) (h : Fin 1024) (rs1 rd : Fin 32) (p : Nat), s.mainUp = true → (s.hart h).state = 1 → p = s.xr h rs1 → p < 16 →
    s.ownsRx h p = true → (s.rxp (h / 16) p).filled ≤ (s.rxp (h / 16) p).returned → Gives (.ptTrecv h rs1 rd) s ((s.xw h rd
    0).retire h 4)) ∧
  (∀ (s : State) (h : Fin 1024) (rs1 : Fin 32) (p : Nat) (x : RxPort), s.mainUp = true → (s.hart h).state = 1 → p = s.xr h rs1 → p
    < 16 → s.ownsRx h p = true → s.rxp (h / 16) p = x → x.released < x.returned → Gives (.ptDone h rs1) s ((s.setRxp (h / 16) p
    { x with released := x.released + 1 }).retire h 4)) ∧
  (∀ (s : State) (h : Fin 1024) (rs1 : Fin 32) (p : Nat), s.mainUp = true → (s.hart h).state = 1 → p = s.xr h rs1 → p < 16 →
    s.ownsRx h p = true → (s.rxp (h / 16) p).returned ≤ (s.rxp (h / 16) p).released → Gives (.ptDone h rs1) s (s.trap h 24 7)) ∧
  (∀ (s : State) (h : Fin 1024) (rs1 rs2 rd : Fin 32) (p o : Nat) (d : List Byte), s.mainUp = true → (s.hart h).state = 1 → p =
    s.xr h rs1 → p < 16 → s.ac R.FCR_TXP_CFG_owner (h / 16) p = h % 16 → s.ac R.FCR_TXP_CFG_enable (h / 16) p = 1 → s.lmRead h
    (s.xr h rs2) 64 = some d → txDescOk d = true → fieldLE d 0xA 2 = 0 → fieldLE d 0xC 1 = 0 → fieldLE d 0xD 1 = 0 → s.phys h
    (s.hart h).priv (fieldLE d 0 8) (fieldLE d 8 2) = some (.lm (h / 16) o) → s.injHeld (s.ac R.FCR_TXP_CFG_pipe (h / 16) p) 3 =
    false → Gives (.ptSend h rs1 rs2 rd) s (((s.toPipe (s.ac R.FCR_TXP_CFG_pipe (h / 16) p) { data := Mem.read (s.fcore (h / 16)).lm o (fieldLE d 8 2), src := 0x200 + h / 16, slice := s.hartSlice h, user := fieldLE d 0x18 16 }).xw
    h rd 0).retire h 4)) ∧
  (∀ (s : State) (c : Fin 64) (p : Fin 16) (k : Pkt), s.mainUp = true → s.headFull (4688 + 16 * c + p) = some k → s.ac
    R.FCR_RXP_CFG_enable c p ≠ 1 → Gives (.portRxDeliver c p) s ((s.swcCnt 6).consume (4688 + 16 * c + p) false)) ∧
  (∀ (s t : State) (c : Fin 64) (p : Fin 16) (k : Pkt) (x : RxPort), s.mainUp = true → s.headFull (4688 + 16 * c + p) = some k →
    s.ac R.FCR_RXP_CFG_enable c p = 1 → s.fencedUnit 1 c = false → k.frame.bad = false → k.frame.poison = false → x = s.rxp c p
    → x.filled - x.released < s.rxEntries c p → k.frame.data.length ≤ s.rxEsize c p - 64 → t = s.physWrite 1024 (.lm c
    (s.rxEntry c p x.filled)) (pktDesc k ++ k.frame.data) → Gives (.portRxDeliver c p) s (((t.setRxp c p { x with filled := x.filled + 1 }).clearDl
    (t.dom c)).consume (4688 + 16 * c + p) true)) ∧
  (∀ (s t u : State) (h : Fin 1024) (b : Blocked) (v : Nat), s.mainUp = true → (s.hart h).wait = some b → (s.hart h).state = 2 →
    b.kind = 1 → b.word = customWord 0 4 0 11 10 → s.xr h 11 < 64 → s.ownsCh h (s.xr h 11) = true → s.chOn (h / 16) (s.xr h 11)
    = true → t = s.setMsgs (h / 16) (s.xr h 11) ((s.chMsgs (h / 16) (s.xr h 11)).drop 1) → (s.chMsgs (h / 16) (s.xr h
    11)).head?.map recvWord = some v → u = ((t.modHart h (fun k => { k with inbox := ((s.chMsgs (h / 16) (s.xr h 11)).head?.map (·.words)).getD [] })).modHart
    h (fun k => { k with wait := none })).setHartState h 1 → Gives (.blockedWake h) s ((u.xw h 10 v).retire h b.len)) ∧
  (∀ (s t : State) (a : FcAlarm), s.mainUp = true → s.nextAlarm = some a → t = s.runTo (ft64Units a.time) → Gives .alarmFire s (({ t with fc := { t.fc with alarms := t.fc.alarms.erase a } }
    : State).devMsg (a.hart / 16) a.ch [a.time])) ∧
  (∀ (s t : State) (h : Fin 1024) (b : Blocked), s.mainUp = true → (s.hart h).wait = some b → (s.hart h).state = 2 → b.kind = 3 → t
    = s.runTo (ft64Units (s.xr h (bits b.word 19 15))) → Gives (.chWaitExpire h) s ((((t.modHart h (fun k => { k with wait := none })).setHartState
    h 1).xw h (bits b.word 11 7) 0).retire h b.len)) ∧
  (∀ (s : State) (h : Fin 1024) (c : Nat) (b : Bool), s.mainUp = true → (s.hart h).state = 1 → s.takenInt h = some (c, b) → Gives
    (.interruptTake h) s ((s.modHart h (fun k => { k with passBrk := false })).enterTrap h b true c 0)) ∧
  (∀ (s t : State) (d : Fin 64) (l : Nat), s.mainUp = true → s.deadlocked d = true → s.fc.dlOn.contains d.val = false → s.domCores
    d = [l] → t = ((s.snapCore l).raise R.FCR_CORE_STATUS_dl l).fcnt l 6 → t.on R.FCR_CORE_CFG_sup_en l = false → Gives
    (.deadlockDetect d) s
      (let u := t.event 0x0F l 1 (leBytes 1 d ++ leBytes 1 0 ++ leBytes 2 (s.domHarts d).length ++ leBytes 4 0 ++ leBytes 8 (2 ^
          l)); ({ u with fc := { u.fc with dlOn := u.fc.dlOn ++ [d.val] } } : State)))

/-- A write of enable 1 starts a disabled thread in M mode at its FCR_THREAD_PC with its number in x10, and 0 stops it; a
channel write within the limits is taken and a depth above 16 refused; a running thread halts, a halted one resumes, steps,
has its outbox discarded and its registers read and written through FCR_DBG_SEL, and one that is not halted cannot be
examined; a breakpoint match halts the threads of its mask; in a clock without a ready thread a core idles, and otherwise the slot's thread issues. Each clause says the whole next state. -/
def Obligations.ThreadsAndDebug : Prop :=
  (∀ (s t : State) (req : Req) (h : Fin 1024), s.takes req 0x0F (h / 16) R.reg_FCR_THREAD_CFG (h / 16) → (s.hart h).state = 0 → t =
    (s.wr R.FCR_THREAD_CFG_slice (s.hartSlice h) (h / 16) (h % 16)).wr R.FCR_THREAD_CFG_enable 1 (h / 16) (h % 16) → Gives
    (.threadEnable req h) s ((t.setHart h { pc := t.rd R.FCR_THREAD_PC_pc (h / 16) (h % 16), x := Store.put 0 [] 10 h, readyAt := (t.fcore (h / 16)).clk }).setHartState
    h 1).after) ∧
  (∀ (s t : State) (req : Req) (h : Fin 1024), s.takes req 0x0F (h / 16) R.reg_FCR_THREAD_CFG (h / 16) → (s.hart h).state ≠ 0 →
    s.hartSlice h < 4096 → t = (((s.wr R.FCR_THREAD_CFG_enable 0 (h / 16) (h % 16)).vaultForget h).setHartState h 0).setHart h
    {} → Gives (.threadDisable req h) s ({ t with fc := { t.fc with alarms := t.fc.alarms.filter (·.hart != h.val) } } :
    State).after) ∧
  (∀ (s : State) (req : Req) (c ch : Fin 64) (v : Nat), s.takes req 0x0F c R.reg_FCR_CH_CFG c → v < 2 ^ 32 → bit v 31 = true → 16 <
    bits v 12 8 → Gives (.chCfgWrite req c ch v) s s.refusedWr.after) ∧
  (∀ (s : State) (req : Req) (c ch : Fin 64) (v : Nat), s.takes req 0x0F c R.reg_FCR_CH_CFG c → v < 2 ^ 32 → bit v 31 = true → bits
    v 12 8 ≤ 16 → (List.range 64).all (fun i => i == ch.val || !s.chOn c i) = true → s.chMsgs c ch = [] → Gives (.chCfgWrite req
    c ch v) s (s.putReg false R.reg_FCR_CH_CFG c ch 0 v).after) ∧
  (∀ (s : State) (req : Req) (h : Fin 1024), s.takes req 0x0F (h / 16) R.reg_FCR_DBG_CTRL (h / 16) → (s.hart h).state = 1 → Gives
    (.halt req h) s ((s.unblock h).modHart h (fun k => { k with stepping := false }) |>.setHartState h 3).after) ∧
  (∀ (s : State) (req : Req) (h : Fin 1024), s.takes req 0x0F (h / 16) R.reg_FCR_DBG_CTRL (h / 16) → (s.hart h).state = 3 → Gives
    (.resume req h) s (s.setHartState h 1).after) ∧
  (∀ (s : State) (req : Req) (h : Fin 1024), s.takes req 0x0F (h / 16) R.reg_FCR_DBG_CTRL (h / 16) → (s.hart h).state = 3 → Gives
    (.step req h) s (State.stepRun 24 h ((s.modHart h (fun k => { k with stepping := true })).setHartState h 1).after).drainDue) ∧
  (∀ (s : State) (req : Req) (h : Fin 1024), s.takes req 0x0F (h / 16) R.reg_FCR_DBG_CTRL (h / 16) → (s.hart h).state = 3 → Gives
    (.discardOutbox req h) s (s.modHart h (fun k => { k with out := [] })).after) ∧
  (∀ (s t : State) (req : Req) (c : Fin 64) (d : Fin 16) (r : Fin 8192) (v : Nat), s.takes req 0x0F c R.reg_FCR_DBG_SEL c → t =
    s.putReg false R.reg_FCR_DBG_SEL c 0 0 (r + d * 2 ^ 13 + 2 ^ 31) → t.rd R.FCR_DBG_SEL_thread c = d → t.rd R.FCR_DBG_SEL_reg
    c = r → t.on R.FCR_DBG_SEL_wr c = false → (t.hart (16 * c + d)).state = 3 → t.dbgGet (16 * c + d) r = some v → Gives
    (.dbgRead req c d r) s ((t.wr R.FCR_DBG_SEL_err 0 c).wr R.FCR_DBG_DATA_data v c).after) ∧
  (∀ (s t : State) (req : Req) (c : Fin 64) (d : Fin 16) (r : Fin 8192), s.takes req 0x0F c R.reg_FCR_DBG_SEL c → t = s.putReg
    false R.reg_FCR_DBG_SEL c 0 0 (r + d * 2 ^ 13 + 2 ^ 31) → t.rd R.FCR_DBG_SEL_thread c = d → (t.hart (16 * c + d)).state ≠ 3
    → Gives (.dbgRead req c d r) s (t.raise R.FCR_DBG_SEL_err c).after) ∧
  (∀ (s t : State) (req : Req) (c : Fin 64) (d : Fin 16) (r : Fin 8192), s.takes req 0x0F c R.reg_FCR_DBG_SEL c → t = s.putReg
    false R.reg_FCR_DBG_SEL c 0 0 (r + d * 2 ^ 13 + 2 ^ 30 + 2 ^ 31) → t.rd R.FCR_DBG_SEL_thread c = d → t.rd R.FCR_DBG_SEL_reg
    c = r → t.on R.FCR_DBG_SEL_wr c = true → (t.hart (16 * c + d)).state = 3 → r.val < 0x20 → Gives (.dbgWrite req c d r) s
    ((t.wr R.FCR_DBG_SEL_err 0 c).xw (16 * c + d) r (t.rd R.FCR_DBG_DATA_data c)).after) ∧
  (∀ (s t : State) (h : Fin 1024) (k : Fin 4) (a n i : Nat), s.mainUp = true → (s.hart h).state = 1 → k.val ≠ 1 ∨ (s.hart
    h).passBrk = false → s.brkMatch h k a n = some i → t = ((List.range 16).foldl (fun s t => if bit (s.rd R.FCR_BRK_CTL_threads
    (h / 16) i) t then s.haltHart (16 * (h / 16) + t) else s) s) → Gives (.breakpoint h k a n) s ((t.modHart h (fun x => { x with passBrk := t.rd R.FCR_BRK_CTL_kind (h / 16) i == 1 })).event
    0x0F (h / 16) 2 (leBytes 1 (h % 16) ++ leBytes 1 i ++ List.replicate 6 0 ++ leBytes 8 (s.hart h).pc))) ∧
  (∀ (s : State) (h : Fin 1024) (k : Fin 4) (a n : Nat), s.mainUp = true → s.brkMatch h k a n = none → Gives (.breakpoint h k a n)
    s s) ∧
  (∀ (s t : State) (c : Fin 64), s.mainUp = true → s.issuer c = none → t = s.fcnt c 2 → Gives (.instructionIssue c) s (t.setFcore c
    { t.fcore c with clk := (t.fcore c).clk + 1 }).drainDue) ∧
  (∀ (s t u : State) (c : Fin 64) (h : Nat), s.mainUp = true → s.issuer c = some h → (s.hart h).state = 1 → h % 16 < 8 → s.takenInt
    h = none → s.brkMatch h 1 (s.hart h).pc 2 = none → t = s.fcnt c 0 → u = (t.modHart h (fun x => { x with readyAt := (s.fcore c).clk + 8 })).runOne
    h → Gives (.instructionIssue c) s (u.setFcore c { u.fcore c with clk := (u.fcore c).clk + 1 }).drainDue)

/-- vx.blk and vx.cmac with every check of R481 passed wait for an engine, and the first failing check is the result; vx.lock
waits for a lock and refuses a second one; vx.unlock ends the thread's lock; vx.import of a checked block begins the import;
vx.zero of a slot that no import holds makes it EMPTY; the longest-waiting request gets an engine; a lease that passes ends
its lock, and so does the operator. Each clause says the whole next state. -/
def Obligations.VaultRequests : Prop :=
  (∀ (s : State) (h : Fin 1024) (rs1 rs2 rd : Fin 32) (a b : Nat), s.mainUp = true → (s.hart h).state = 1 → a = s.xr h rs1 → b =
    s.xr h rs2 → a % 16 = 0 → b < 65536 → (s.ownLm h a 16).isSome = true → s.slotCheck (s.hartSlice h) b (some 0) = 0 → Gives
    (.vxBlk h rs1 rs2 rd) s (({ s with vlt := { s.vlt with reqs := s.vlt.reqs ++ [{ hart := h, op := some { hart := h, cmac := false, a := a, b := b, slot := b, locked := false } }] } }
    : State).block h 8 0 (customWord 3 0 rs2 rs1 rd) 4)) ∧
  (∀ (s : State) (h : Fin 1024) (rs1 rs2 rd : Fin 32) (a b : Nat), s.mainUp = true → (s.hart h).state = 1 → a = s.xr h rs1 → b =
    s.xr h rs2 → a % 16 = 0 → b < 65536 → (s.ownLm h a 16).isSome = true → s.slotCheck (s.hartSlice h) b (some 0) ≠ 0 → Gives
    (.vxBlk h rs1 rs2 rd) s ((s.xw h rd (s.slotCheck (s.hartSlice h) b (some 0))).retire h 4)) ∧
  (∀ (s : State) (h : Fin 1024) (rs1 rd : Fin 32), s.mainUp = true → (s.hart h).state = 1 → s.xr h rs1 < 65536 → s.keyReady = true
    → s.lockOf h = none → Gives (.vxLock h rs1 rd) s (({ s with vlt := { s.vlt with reqs := s.vlt.reqs ++ [{ hart := h, op := none, preload := s.xr h rs1 }] } }
    : State).block h 8 0 (customWord 3 1 0 rs1 rd) 4)) ∧
  (∀ (s : State) (h : Fin 1024) (rs1 rd : Fin 32), s.mainUp = true → (s.hart h).state = 1 → s.xr h rs1 < 65536 → s.keyReady = true
    → (s.lockOf h).isSome = true → Gives (.vxLock h rs1 rd) s ((s.xw h rd St.vx_lock_held).retire h 4)) ∧
  (∀ (s : State) (h : Fin 1024) (rd : Fin 32) (e : Nat), s.mainUp = true → (s.hart h).state = 1 → s.lockOf h = some e → (s.eng
    e).holder = some h.val → (s.eng e).run = none → Gives (.vxUnlock h rd) s (((s.setEng e { s.eng e with holder := none, endLock := false }).xw
    h rd 0).retire h 4)) ∧
  (∀ (s : State) (h : Fin 1024) (rd : Fin 32), s.mainUp = true → (s.hart h).state = 1 → s.lockOf h = none → Gives (.vxUnlock h rd)
    s (((s.toldLost h).xw h rd St.vx_no_lock).retire h 4)) ∧
  (∀ (s : State) (h : Fin 1024) (rs1 rs2 rd : Fin 32) (a : Nat) (d : List Byte) (p : Phys), s.mainUp = true → (s.hart h).state = 1
    → a = s.xr h rs1 → s.xr h rs2 = 0 → a % 16 = 0 → s.lmRead h a 48 = some d → 0 < cmLen d → cmLen d ≤ 65536 → cmFlags d = 3 →
    fieldLE d 0xF 1 = 0 → fieldLE d 0x20 16 = 0 → s.phys h (s.hart h).priv (cmMsg d) (cmLen d) = some p → p.key < 2 ^ 63 →
    s.slotCheck (s.hartSlice h) (cmSlot d) (some 2) = 0 → Gives (.vxCmac h rs1 rs2 rd) s (({ s with vlt := { s.vlt with reqs := s.vlt.reqs ++ [{ hart := h, op := some { hart := h, cmac := true, a := a, b := 0, slot := cmSlot d, locked := false } }] } }
    : State).block h 8 0 (customWord 3 3 rs2 rs1 rd) 4)) ∧
  (∀ (s : State) (h : Fin 1024) (rs1 rd : Fin 32) (a : Nat) (d : List Byte), s.mainUp = true → (s.hart h).state = 1 → a = s.xr h
    rs1 → a % 16 = 0 → s.lmRead h a 64 = some d → s.keyReady = true → fieldLE d 0 2 ≠ 0 → (s.keySlot (fieldLE d 0 2)).state ≠ 0
    → (s.keySlot (fieldLE d 0 2)).slice = s.hartSlice h → s.importCheck (fieldLE d 0 2) (fieldLE d 2 2) false = 0 → fieldLE d 4
    1 = 32 → fieldLE d 5 11 = 0 → fieldLE d 0x30 16 = 0 → Gives (.vxImport h rs1 rd) s ((s.importStart { slot := fieldLE d 0 2, kek := fieldLE d 2 2, blob := sliceBytes d 0x10 32, for_ := .hart h }).block
    h 8 0 (customWord 3 4 0 rs1 rd) 4)) ∧
  (∀ (s : State) (h : Fin 1024) (rs1 rd : Fin 32) (i : Nat), s.mainUp = true → (s.hart h).state = 1 → i = s.xr h rs1 → 0 < i → i <
    65536 → s.keyReady = true → (s.keySlot i).state ≠ 0 → (s.keySlot i).state ≠ 2 → (s.keySlot i).slice = s.hartSlice h → Gives
    (.vxZero h rs1 rd) s (((s.slotZero i false).xw h rd 0).retire h 4)) ∧
  (∀ (s t : State) (q : VaultReq) (o : VaultOp) (e : Nat), s.mainUp = true → s.nextReq = some (q, e) → q.op = some o → e ≠ 64 →
    o.locked = false → t = ({ s with vlt := { s.vlt with reqs := s.vlt.reqs.erase q } } : State).loadKey e o.slot → (s.keySlot
    o.slot).state = 3 → Gives (.lockGrant false) s
      (let u := t.setEng e { t.eng e with run := some { o with key := (s.keySlot o.slot).key }, lockAt := t.time.ft }; ({ u with vlt := { u.vlt with last := e } }
          : State))) ∧
  (∀ (s t : State) (q : VaultReq) (e : Nat), s.mainUp = true → s.nextReq = some (q, e) → q.op = none → q.preload = 0xFFFF → t = ({ s with vlt := { s.vlt with reqs := s.vlt.reqs.erase q } }
    : State).setEng e { s.eng e with holder := some q.hart, lockAt := s.time.ft, endLock := false } → Gives (.lockGrant false) s
    ((({ t with vlt := { t.vlt with last := e } } : State).toldLost q.hart).wakeWith q.hart e)) ∧
  (∀ (s : State) (e : Fin 64) (x : Nat), s.mainUp = true → (s.eng e).holder = some x → (s.eng e).run = none → s.rd
    R.VLT_CFG_lock_lease_us ≠ 0 → Gives (.lockLeaseExpire e) s (((s.runTo ((s.eng e).lockAt + s.rd R.VLT_CFG_lock_lease_us *
    unitsPerUs)).vcnt 7).endLockOf e true)) ∧
  (∀ (s : State) (req : Req) (e : Fin 64), s.takes req 0x10 0 R.reg_VLT_ENG_LOCK → Gives (.lockBreak req e) s (s.endLockOf e
    true).after)

/-- A run of one block that no check fails leaves the block transformed under the slot's key, counts it and wakes its thread
with 0; KEY_ALLOC gives an ACTIVE slice the lowest free slot; KEY_FREE zeroises a slot and returns it to its pool, KEY_ZERO
leaves it allocated; KEY_IMPORT begins an import when its conditions hold; a finished import of a rightly wrapped key makes
the slot LOADED, and another leaves it EMPTY; ZEROISE_ALL zeroises every allocated slot but slot 0 and writes its event.
Each clause says the whole next state. -/
def Obligations.VaultRunsAndKeys : Prop :=
  (∀ (s t : State) (e : Fin 64) (o : VaultOp) (d : List Byte), s.mainUp = true → (s.eng e).run = some o → (s.eng e).endLock = false
    → (s.eng e).retrySec ≠ ftSec s.time.ft → o.cmac = false → bits o.b 31 24 = 0 → bit o.b 16 = false → o.gone = false → t =
    (s.setEng e { s.eng e with run := none, retrySec := ftSec s.time.ft, retries := 0, lockAt := s.time.ft }).vcnt 4 0 →
    t.lmRead o.hart o.a 16 = some d → Gives (.vaultRunDone e none 0 0) s (((t.vcnt 0 1).lmWrite o.hart o.a (aesBlock o.key
    (d.take 16) false)).wakeWith o.hart 0)) ∧
  (∀ (s : State) (r : Fin 65536) (g : Flight) (x : Nat), s.mainUp = true → s.toPerform r [0x78] = some g → x = fieldLE g.desc 0x10
    2 → x < 4096 → keyRest g.desc [(0x10, 2)] = true → s.keyReady = true → s.sliceActive x = true → s.allocStatus x 5 = 0 →
    Gives (.keyAlloc r) s
      (let i := lowestFree ((s.vlt.slots.filter (fun p => p.2.state != 0)).map (·.1)) 1; ((s.charge x 5).setSlotK i { state := 1, slice := x }).finish
          r g.count { status := 0, x18 := leBytes 2 i })) ∧
  (∀ (s : State) (r : Fin 65536) (g : Flight), s.mainUp = true → s.toPerform r [0x78] = some g → fieldLE g.desc 0x10 2 < 4096 →
    keyRest g.desc [(0x10, 2)] = true → s.keyReady = false → Gives (.keyAlloc r) s (s.fail r g.count St.vx_not_ready)) ∧
  (∀ (s : State) (r : Fin 65536) (g : Flight) (i : Nat), s.mainUp = true → s.toPerform r [0x79] = some g → i = fieldLE g.desc 0x12
    2 → keyRest g.desc [(0x12, 2)] = true → s.keyReady = true → i ≠ 0 → (s.keySlot i).state ≠ 0 → (s.keySlot i).state ≠ 2 →
    Gives (.keyFree r) s ((s.slotZero i true).finish r g.count { status := 0 })) ∧
  (∀ (s : State) (r : Fin 65536) (g : Flight) (i : Nat), s.mainUp = true → s.toPerform r [0x7B] = some g → i = fieldLE g.desc 0x12
    2 → keyRest g.desc [(0x12, 2)] = true → s.keyReady = true → i ≠ 0 → (s.keySlot i).state ≠ 0 → (s.keySlot i).state ≠ 2 →
    Gives (.keyZero r) s ((s.slotZero i false).finish r g.count { status := 0 })) ∧
  (∀ (s : State) (r : Fin 65536) (g : Flight) (i : Nat), s.mainUp = true → s.toPerform r [0x7B] = some g → i = fieldLE g.desc 0x12
    2 → keyRest g.desc [(0x12, 2)] = true → s.keyReady = true → i ≠ 0 → (s.keySlot i).state = 2 → Gives (.keyZero r) s (({ s with vlt := { s.vlt with zeros := s.vlt.zeros ++ [{ slot := i, free := false, for_ := some (.ring r g.count) }] } }
    : State).performed r g.count)) ∧
  (∀ (s t : State) (r : Fin 65536) (x : Ring) (g : Flight) (i k : Nat) (b : List Byte), s.mainUp = true → s.ring r = some x →
    s.toPerform r [0x7A] = some g → i = fieldLE g.desc 0x10 2 → k = fieldLE g.desc 0x12 2 → fieldLE g.desc 0x14 1 = 32 → keyRest
    g.desc [(0x10, 5), (0x18, 8)] = true → s.keyReady = true → i ≠ 0 → (s.keySlot i).state ≠ 0 → s.importCheck i k true = 0 →
    s.readFor (.work r g.count) g.slice x.mem (fieldLE g.desc 0x18 8) 32 = (.ok b, t) → Gives (.keyImport r) s ((t.performed r
    g.count).importStart { slot := i, kek := k, blob := b, for_ := .ring r g.count })) ∧
  (∀ (s : State) (o : ImportOn) (l : List ImportOn) (p : List Byte), s.mainUp = true → s.vlt.imports = o :: l → (s.keySlot
    o.kek).state = 3 → keyUnwrap (s.keySlot o.kek).key o.blob = some p → keyAttrOk p = true → Gives (.importDone false) s
      (let t := ({ s with vlt := { s.vlt with imports := l } } : State).setSlotK o.slot { state := 3, size := fieldLE p 0 1, usage := fieldLE p 1 1, slice := (s.keySlot o.slot).slice, key := p.drop 8 };
          ((t.vcnt 6).tellImport o.for_ 0).zeroNow o.slot)) ∧
  (∀ (s : State) (o : ImportOn) (l : List ImportOn), s.mainUp = true → s.vlt.imports = o :: l → (s.keySlot o.kek).state = 3 →
    keyUnwrap (s.keySlot o.kek).key o.blob = none → Gives (.importDone false) s
      (let t := ({ s with vlt := { s.vlt with imports := l } } : State).setSlotK o.slot { state := 1, slice := (s.keySlot o.slot).slice };
          (t.tellImport o.for_ St.vx_unwrap).zeroNow o.slot)) ∧
  (∀ (s : State) (req : Req), s.takes req 0x10 0 R.reg_VLT_ZEROISE → (s.vlt.slots.filter (fun p => p.1 != 0 && p.2.state != 0)) =
    [] → Gives (.zeroiseAll req) s (s.eventBoth 0x10 0 3 (leBytes 4 0 ++ List.replicate 12 0)).after) ∧
  (∀ (s : State) (req : Req) (i : Nat) (k : KeySlot), s.takes req 0x10 0 R.reg_VLT_ZEROISE → (s.vlt.slots.filter (fun p => p.1 != 0
    && p.2.state != 0)) = [(i, k)] → (s.keySlot i).state ≠ 2 → Gives (.zeroiseAll req) s ((s.slotZero i false).eventBoth 0x10 0
    3 (leBytes 4 1 ++ List.replicate 12 0)).after)

/-- PMC_SNAP copies all 256 counters; an event adds its value to a counter that selects it and to no other; an edge counter adds
1 at a rise and nothing while the event stays; a counter that wraps with no chain sets wrapped, and one in sampling mode
restarts from its reload value; a write of a counter's value applies; an interval adds 1 to the bin of a histogram of its
source, or to missed while it is frozen; HIST_CLEAR empties a histogram. That successive events are successive clocks is log
entry 14. Each clause says the whole next state. -/
def Obligations.ProgrammableCounters : Prop :=
  (∀ (s : State) (req : Req), s.takes req 0x12 0 R.reg_PMC_CTRL → Gives (.pmcSnap req) s ((List.range 256).foldl (fun t i => t.wr
    R.PMC_CTR_SNAP_value (t.rd R.PMC_CTR_VAL_value i) i) (s.cmdPut R.reg_PMC_CTRL [(R.PMC_CTRL_snap, 1)])).after) ∧
  (∀ (s : State) (c inst event sub value slice part i : Nat) (x : Ctr), s.mainUp = true → (List.range 256).filter (fun k => (s.ctr
    k).enable && !((s.ctr k).chain && k != 0) && (s.ctr k).selects c inst event sub) = [i] → x = s.ctr i → x.edge = false →
    x.slice = none → 0 < value → s.rd R.PMC_CTR_VAL_value i + value < 2 ^ 48 → Gives (.counterEvent c inst event sub value slice
    part) s (({ s with pmc := { s.pmc with hot := s.pmc.hot.filter (· != i) ++ [i] } } : State).wr R.PMC_CTR_VAL_value (s.rd
    R.PMC_CTR_VAL_value i + value) i)) ∧
  (∀ (s : State) (c inst event sub value slice part i : Nat) (x : Ctr), s.mainUp = true → (List.range 256).filter (fun k => (s.ctr
    k).enable && !((s.ctr k).chain && k != 0) && (s.ctr k).selects c inst event sub) = [i] → x = s.ctr i → x.edge = true →
    x.slice = none → 0 < value → s.pmc.hot.contains i = true → Gives (.counterEvent c inst event sub value slice part) s ({ s with pmc := { s.pmc with hot := s.pmc.hot.filter (· != i) ++ [i] } })) ∧
  (∀ (s : State) (c inst event sub value slice part i : Nat) (x : Ctr), s.mainUp = true → (List.range 256).filter (fun k => (s.ctr
    k).enable && !((s.ctr k).chain && k != 0) && (s.ctr k).selects c inst event sub) = [i] → x = s.ctr i → x.edge = true →
    x.slice = none → 0 < value → s.pmc.hot.contains i = false → s.rd R.PMC_CTR_VAL_value i + 1 < 2 ^ 48 → Gives (.counterEvent c
    inst event sub value slice part) s (({ s with pmc := { s.pmc with hot := s.pmc.hot.filter (· != i) ++ [i] } } : State).wr
    R.PMC_CTR_VAL_value (s.rd R.PMC_CTR_VAL_value i + 1) i)) ∧
  (∀ (s : State) (c inst event sub value slice part i : Nat) (x : Ctr), s.mainUp = true → (List.range 256).filter (fun k => (s.ctr
    k).enable && !((s.ctr k).chain && k != 0) && (s.ctr k).selects c inst event sub) = [i] → x = s.ctr i → x.edge = false →
    x.slice = none → x.sample = false → 0 < value → 2 ^ 48 ≤ s.rd R.PMC_CTR_VAL_value i + value → (s.ctr (i + 1)).chain = false
    → Gives (.counterEvent c inst event sub value slice part) s ((({ s with pmc := { s.pmc with hot := s.pmc.hot.filter (· != i) ++ [i] } }
    : State).wr R.PMC_CTR_VAL_value (s.rd R.PMC_CTR_VAL_value i + value) i).raise R.PMC_CTR_VAL_wrapped i)) ∧
  (∀ (s t : State) (c inst event sub value slice part i : Nat) (x : Ctr), s.mainUp = true → (List.range 256).filter (fun k =>
    (s.ctr k).enable && !((s.ctr k).chain && k != 0) && (s.ctr k).selects c inst event sub) = [i] → x = s.ctr i → x.edge = false
    → x.slice = none → x.sample = true → 0 < value → 2 ^ 48 ≤ s.rd R.PMC_CTR_VAL_value i + value → (s.hart (16 * x.inst +
    x.sub)).state ≠ 0 → t = ({ s with pmc := { s.pmc with hot := s.pmc.hot.filter (· != i) ++ [i] } } : State) → Gives
    (.counterEvent c inst event sub value slice part) s (((t.wr R.PMC_CTR_VAL_value (s.rd R.PMC_CTR_RELOAD_reload i + (s.rd
    R.PMC_CTR_VAL_value i + value) % 2 ^ 48) i).raise R.PMC_CTR_VAL_sampled i).raiseInt (16 * x.inst + x.sub) 17)) ∧
  (∀ (s : State) (req : Req) (c : Fin 256) (v : Nat), s.takes req 0x12 0 R.reg_PMC_CTR_VAL c → v < 2 ^ 48 → Gives (.ctrValWrite req
    c v) s (s.wr R.PMC_CTR_VAL_value v c).after) ∧
  (∀ (s : State) (source obj ns h : Nat), s.mainUp = true → source < 8 → (List.range 16).filter (fun k => s.on
    R.PMC_HIST_CFG_enable k && s.rd R.PMC_HIST_CFG_source k == source && (source == 3 || source == 6 || s.rd R.PMC_HIST_CFG_obj
    k == obj)) = [h] → s.on R.PMC_HIST_CFG_freeze h = true → Gives (.histInterval source obj ns) s (s.sat R.PMC_HIST_STAT_missed
    1 h)) ∧
  (∀ (s : State) (source obj ns h b : Nat), s.mainUp = true → source < 8 → (List.range 16).filter (fun k => s.on
    R.PMC_HIST_CFG_enable k && s.rd R.PMC_HIST_CFG_source k == source && (source == 3 || source == 6 || s.rd R.PMC_HIST_CFG_obj
    k == obj)) = [h] → s.on R.PMC_HIST_CFG_freeze h = false → b = min (Nat.log2 (max 1 (ns / 2 ^ s.rd R.PMC_HIST_CFG_shift h)))
    31 → s.rd R.PMC_HIST_BIN_count h b < 0xFFFFFFFF → Gives (.histInterval source obj ns) s (s.wr R.PMC_HIST_BIN_count (s.rd
    R.PMC_HIST_BIN_count h b + 1) h b)) ∧
  (∀ (s : State) (req : Req) (h : Fin 16), s.takes req 0x12 0 R.reg_PMC_HIST_CFG h → Gives (.histClear req h) s ((((List.range
    32).foldl (fun t b => t.wr R.PMC_HIST_BIN_count 0 h b) (s.cmdPut R.reg_PMC_HIST_CFG [(R.PMC_HIST_CFG_clear, 1)] h)).wr
    R.PMC_HIST_STAT_sat 0 h).wr R.PMC_HIST_STAT_missed 0 h).after)

/-- At a dump time the selected sets are captured and the next dump time is one period later; a dump while a record is being
written, or without a ring for records, is skipped and its number passes; DUMP_NOW captures at once; the values of a record
are written before its header, and the record's number is published when both are. Each clause says the whole next state. -/
def Obligations.CounterDumps : Prop :=
  (∀ (s t : State) (at_ : Nat), s.mainUp = true → s.pmc.dumpAt = some at_ → t = s.runTo at_ → t.pmc.dump.isSome = false → t.rd
    R.PMC_DUMP_BASE_loc = 1 → Gives .dumpCapture s (({ t with pmc := { t.pmc with dump := some { seq := t.pmc.seq, stamp := t.now64, period := t.dumpPeriod, sets := t.rd R.PMC_DUMP_CFG_sets, flags := 2 * b2n t.pmc.stepped, lost := t.pmc.lost, values := t.dumpValues (t.rd R.PMC_DUMP_CFG_sets) }, seq := t.pmc.seq + 1, lost := 0, stepped := false, dumpAt := some (at_ + t.dumpPeriod * unitsPerUs) } }
    : State).raise R.PMC_DUMP_STATUS_busy)) ∧
  (∀ (s t : State) (at_ : Nat), s.mainUp = true → s.pmc.dumpAt = some at_ → t = s.runTo at_ → t.pmc.dump.isSome = true → Gives
    .dumpCapture s (({ t with pmc := { t.pmc with seq := t.pmc.seq + 1, lost := t.pmc.lost + 1, dumpAt := some (at_ + t.dumpPeriod * unitsPerUs) } }
    : State).sat R.PMC_DUMP_STATUS_skipped)) ∧
  (∀ (s : State) (req : Req), s.takes req 0x12 0 R.reg_PMC_DUMP_CMD → s.pmc.dump.isSome = false → s.rd R.PMC_DUMP_BASE_loc = 1 →
    Gives (.dumpNow req) s (({ s with pmc := { s.pmc with dump := some { seq := s.pmc.seq, stamp := s.now64, period := 0, sets := s.rd R.PMC_DUMP_CFG_sets, flags := 1 + 2 * b2n s.pmc.stepped, lost := s.pmc.lost, values := s.dumpValues (s.rd R.PMC_DUMP_CFG_sets) }, seq := s.pmc.seq + 1, lost := 0, stepped := false } }
    : State).raise R.PMC_DUMP_STATUS_busy).after) ∧
  (∀ (s : State) (req : Req), s.takes req 0x12 0 R.reg_PMC_DUMP_CMD → s.rd R.PMC_DUMP_BASE_loc = 0 → Gives (.dumpNow req) s (({ s with pmc := { s.pmc with seq := s.pmc.seq + 1, lost := s.pmc.lost + 1 } }
    : State).sat R.PMC_DUMP_STATUS_skipped).after) ∧
  (∀ (s t u : State) (d : DumpRec) (a : Nat), s.mainUp = true → s.pmc.dump = some d → s.rd R.PMC_DUMP_BASE_loc = 1 → a = s.rd
    R.PMC_DUMP_BASE_addr * 32768 + (d.seq % 2 ^ min (s.rd R.PMC_DUMP_CFG_log2_slots) 12) * 32768 → s.writeFor 0 true (a + 64)
    (d.values.flatMap (leBytes 8)) = (.ok [], t) → t.writeFor 0 true a d.header = (.ok [], u) → Gives .dumpWriteDone s ((({ u with pmc := { u.pmc with dump := none } }
    : State).wr R.PMC_DUMP_STATUS_busy 0).wr R.PMC_DUMP_STATUS_seq d.seq)) ∧
  (∀ (s t : State) (d : DumpRec) (a st : Nat), s.mainUp = true → s.pmc.dump = some d → s.rd R.PMC_DUMP_BASE_loc = 1 → a = s.rd
    R.PMC_DUMP_BASE_addr * 32768 + (d.seq % 2 ^ min (s.rd R.PMC_DUMP_CFG_log2_slots) 12) * 32768 → s.writeFor 0 true (a + 64)
    (d.values.flatMap (leBytes 8)) = (.fail st, t) → Gives .dumpWriteDone s ((({ t with pmc := { t.pmc with dump := none, lost := t.pmc.lost + 1 } }
    : State).wr R.PMC_DUMP_STATUS_busy 0).raise R.PMC_DUMP_STATUS_failed))

/-- A rail below its warning level enters brace, counts it and writes event 0x0001, and one at or above it is only measured;
rails that are all well above their warning levels end a brace with event 0x0002 and its duration, and any rail that is not
keeps it running; a rail below its reset level resets the main domain with cause 1; the hottest sensor at the threshold of a
step enters that step with its count and event 0x0003, leaves it when it is hyst_c below, and at the trip level resets the
main domain with cause 2; the domain is held until the die reads below warn_c. Each clause says the whole next state. Event
records of a trip's release carry codes the spec does not give (log entry 5). -/
def Obligations.SuppliesAndTemperature : Prop :=
  (∀ (s : State) (rail : Fin 3) (mv : Nat), s.mainUp = true → mv < s.rd R.HLT_SUPPLY_CFG_warn_mv rail → s.on R.HLT_STATUS_brace =
    false → Gives (.braceEnter rail mv) s
      (let t := (((s.railSeen rail mv).railLow rail true).raise R.HLT_STATUS_brace).sat R.HLT_SUPPLY_STATUS_braces 1 rail; ({ t.hltCnt 0 with hlt := { t.hlt with braceAt := t.time.ft } }
          : State).eventBoth 0x13 0 1 (leBytes 1 rail ++ [0] ++ leBytes 2 (min mv 0xFFFF) ++ List.replicate 12 0))) ∧
  (∀ (s : State) (rail : Fin 3) (mv : Nat), s.mainUp = true → s.rd R.HLT_SUPPLY_CFG_warn_mv rail ≤ mv → Gives (.braceEnter rail mv)
    s (s.railSeen rail mv)) ∧
  (∀ (s t : State) (core fc sram : Nat) (us : Nat), s.mainUp = true → s.on R.HLT_STATUS_brace = true → s.rd
    R.HLT_SUPPLY_CFG_warn_mv 0 + s.rd R.HLT_SUPPLY_CFG_hyst_mv 0 ≤ core → s.rd R.HLT_SUPPLY_CFG_warn_mv 1 + s.rd
    R.HLT_SUPPLY_CFG_hyst_mv 1 ≤ fc → s.rd R.HLT_SUPPLY_CFG_warn_mv 2 + s.rd R.HLT_SUPPLY_CFG_hyst_mv 2 ≤ sram → t =
    (((((((s.railSeen 0 core).railLow 0 false).railSeen 1 fc).railLow 1 false).railSeen 2 sram).railLow 2 false).runTo
    (s.hlt.braceAt + 10 * unitsPerUs)) → us = (t.time.ft - s.hlt.braceAt) / unitsPerUs → Gives (.braceExit core fc sram) s
    ((((t.wr R.HLT_STATUS_brace 0).wr R.SEC_FUSE_CTR_deferred 0).hltCnt 1 us).eventBoth 0x13 0 2 (leBytes 4 us ++ List.replicate
    12 0))) ∧
  (∀ (s : State) (core fc sram : Nat), s.mainUp = true → s.on R.HLT_STATUS_brace = true → core < s.rd R.HLT_SUPPLY_CFG_warn_mv 0 →
    s.rd R.HLT_SUPPLY_CFG_warn_mv 1 ≤ fc → s.rd R.HLT_SUPPLY_CFG_warn_mv 2 ≤ sram → Gives (.braceExit core fc sram) s
    ((((((s.railSeen 0 core).railLow 0 true).railSeen 1 fc).railLow 1 false).railSeen 2 sram).railLow 2 false)) ∧
  (∀ (s : State) (rail : Fin 3) (mv : Nat), s.mainUp = true → mv < s.rd R.HLT_SUPPLY_CFG_reset_mv rail → s.isl.mainPg = true →
    s.isl.up = true → s.isl.hold.isNone = true → Gives (.supplyReset rail mv) s (s.mainReset 1 rail)) ∧
  (∀ (s : State) (rail : Fin 3) (mv : Nat), s.mainUp = true → s.rd R.HLT_SUPPLY_CFG_reset_mv rail ≤ mv → Gives (.supplyReset rail
    mv) s s) ∧
  (∀ (s t u : State) (l : List (Option Int)) (i : Nat) (c : Int), s.mainUp = true → t = (List.range 18).foldl (fun s i =>
    s.sensorSeen i ((l[i]?).getD none)) s → t.hottest = some (i, c) → (List.range 16).all (fun i => t.on R.HLT_TEMP_fault i) =
    false → t.rd R.HLT_THERM_STATUS_step = 1 → (t.rd R.HLT_THERM_CFG_step2_c : Int) ≤ c → c < (t.rd R.HLT_THERM_CFG_trip_c :
    Int) → c ≤ signed 8 (t.rd R.HLT_THERM_STATUS_peak_c) → u = ((((t.wr R.HLT_THERM_STATUS_max_c (tempByte c)).wr
    R.HLT_THERM_STATUS_max_sensor i).wr R.HLT_THERM_STATUS_warn 1).wr R.HLT_THERM_STATUS_step 2) → Gives (.thermalSample l) s
    ((u.hltCnt 3).eventBoth 0x13 0 3 (leBytes 1 2 ++ leBytes 1 (u.rd R.HLT_THERM_STATUS_max_sensor) ++ leBytes 1 (u.rd
    R.HLT_THERM_STATUS_max_c) ++ List.replicate 13 0))) ∧
  (∀ (s t u : State) (l : List (Option Int)) (i : Nat) (c : Int), s.mainUp = true → t = (List.range 18).foldl (fun s i =>
    s.sensorSeen i ((l[i]?).getD none)) s → t.hottest = some (i, c) → (List.range 16).all (fun i => t.on R.HLT_TEMP_fault i) =
    false → t.rd R.HLT_THERM_STATUS_step = 2 → t.rd R.HLT_THERM_CFG_hyst_c = 3 → c ≤ (t.rd R.HLT_THERM_CFG_step2_c : Int) - 3 →
    (t.rd R.HLT_THERM_CFG_step1_c : Int) ≤ c → c < (t.rd R.HLT_THERM_CFG_trip_c : Int) → c ≤ signed 8 (t.rd
    R.HLT_THERM_STATUS_peak_c) → u = ((((t.wr R.HLT_THERM_STATUS_max_c (tempByte c)).wr R.HLT_THERM_STATUS_max_sensor i).wr
    R.HLT_THERM_STATUS_warn 1).wr R.HLT_THERM_STATUS_step 1) → Gives (.thermalSample l) s (u.eventBoth 0x13 0 3 (leBytes 1 1 ++
    leBytes 1 (u.rd R.HLT_THERM_STATUS_max_sensor) ++ leBytes 1 (u.rd R.HLT_THERM_STATUS_max_c) ++ List.replicate 13 0))) ∧
  (∀ (s t : State) (l : List (Option Int)) (i : Nat) (c : Int), s.mainUp = true → t = (List.range 18).foldl (fun s i =>
    s.sensorSeen i ((l[i]?).getD none)) s → t.hottest = some (i, c) → (List.range 16).all (fun i => t.on R.HLT_TEMP_fault i) =
    false → t.rd R.HLT_THERM_STATUS_step = 2 → (t.rd R.HLT_THERM_CFG_step2_c : Int) ≤ c → c < (t.rd R.HLT_THERM_CFG_trip_c :
    Int) → c ≤ signed 8 (t.rd R.HLT_THERM_STATUS_peak_c) → Gives (.thermalSample l) s (((((t.wr R.HLT_THERM_STATUS_max_c
    (tempByte c)).wr R.HLT_THERM_STATUS_max_sensor i).wr R.HLT_THERM_STATUS_warn 1).wr R.HLT_THERM_STATUS_step 2))) ∧
  (∀ (s : State) (die : Int) (romOk : Bool) (h : Hold) (t : State), s.isl.hold = some h → h.cause = 2 → t = s.runIsland (h.since +
    unitsPerSec) → (t.rd R.HLT_THERM_CFG_warn_c : Int) ≤ die → Gives (.tripRelease die romOk) s t) ∧
  (∀ (s : State) (die : Int) (romOk : Bool) (h : Hold) (t : State), s.isl.hold = some h → h.cause = 2 → t = s.runIsland (h.since +
    unitsPerSec) → die < (t.rd R.HLT_THERM_CFG_warn_c : Int) → t.isl.mainPg = true → Gives (.tripRelease die romOk) s ((({ t with isl := { t.isl with hold := none } }
    : State).logEvent 0x14 0 (Config.eventCode 0x14 0) (Config.eventDetail 0x14 0)).romFlow romOk))

/-- A command of HLT_CMD that its unit allows starts the drain, or on a FENCED unit the test; one that it does not allow
completes with its status and changes nothing but its result; RETURN of an epoch hold releases it; a finished drain fences
the unit or starts its test; a drain of a flow core that runs out of time gives up, or with force disables the threads; a
passed test returns the unit to service, a failed one fences it, and a pseudo-channel then copies its data back. Each clause
says the whole next state. -/
def Obligations.UnitCommands : Prop :=
  (∀ (s t : State) (req : Req) (kind : Fin 8) (index : Fin 128) (drain force : Bool), s.takes req 0x13 0 R.reg_HLT_CMD → t =
    s.unitPut 1 kind index drain force → kind.val < 6 → kind.val ≠ 3 → kind.val ≠ 4 → kind.val ≠ 5 → kind.val ≠ 2 → t.hltCheck
    kind index 1 drain force = 0 → t.unitState kind index = 0 → Gives (.unitTest req kind index drain force) s ((t.setCmds
    (t.hlt.cmds ++ [{ kind := kind, index := index, op := 1, force := force, since := t.time.ft, wasFenced := false }])).setUnit
    kind index 1).after) ∧
  (∀ (s t : State) (req : Req) (kind : Fin 8) (index : Fin 128) (drain force : Bool) (st : Nat), s.takes req 0x13 0 R.reg_HLT_CMD →
    t = s.unitPut 1 kind index drain force → st = t.hltCheck kind index 1 drain force → st ≠ 0 → Gives (.unitTest req kind index
    drain force) s (t.hltResult kind index 1 st 0).after) ∧
  (∀ (s t : State) (req : Req) (kind : Fin 8) (index : Fin 128) (drain force : Bool), s.takes req 0x13 0 R.reg_HLT_CMD → t =
    s.unitPut 2 kind index drain force → kind.val = 2 → t.hltCheck kind index 2 drain force = 0 → Gives (.unitFence req kind
    index drain force) s (((t.setCmds (t.hlt.cmds ++ [{ kind := 2, index := index, op := 2, force := force, since := t.time.ft, wasFenced := false }])).setUnit
    2 index 1).endLockOf index true).after) ∧
  (∀ (s t : State) (req : Req) (kind : Fin 8) (index : Fin 128) (drain force : Bool) (st : Nat), s.takes req 0x13 0 R.reg_HLT_CMD →
    t = s.unitPut 2 kind index drain force → st = t.hltCheck kind index 2 drain force → st ≠ 0 → Gives (.unitFence req kind
    index drain force) s (t.hltResult kind index 2 st 0).after) ∧
  (∀ (s t : State) (req : Req) (kind : Fin 8) (index : Fin 128), s.takes req 0x13 0 R.reg_HLT_CMD → t = s.unitPut 3 kind index
    false false → kind.val = 2 → t.hltCheck 2 index 3 false false = 0 → t.unitState 2 index = 4 → Gives (.unitReturn req kind
    index) s ((t.setCmds (t.hlt.cmds ++ [{ kind := 2, index := index, op := 3, force := false, since := t.time.ft, wasFenced := true }])).setUnit
    2 index 2).after) ∧
  (∀ (s t : State) (req : Req) (kind : Fin 8) (index : Fin 128), s.takes req 0x13 0 R.reg_HLT_CMD → t = s.unitPut 3 kind index
    false false → kind.val = 6 → t.hltCheck 6 index 3 false false = 0 → Gives (.unitReturn req kind index) s ((t.wr
    R.HLT_EPOCH_HELD_held (setBit (t.rd R.HLT_EPOCH_HELD_held (index / 64)) (index % 64) false) (index / 64)).hltResult 6 index
    3 0 0).after) ∧
  (∀ (s : State) (kind : Fin 8) (i : Fin 128) (c : HltCmd), s.mainUp = true → s.due = [] → s.hltCmd? kind i = some c → s.unitState
    kind i = 1 → s.drained kind i = true → c.op = 2 → Gives (.drainDone kind i) s (((s.setUnit c.kind c.index 4).hltCnt
    6).hltDone c 0 0).drainDue) ∧
  (∀ (s : State) (kind : Fin 8) (i : Fin 128) (c : HltCmd), s.mainUp = true → s.due = [] → s.hltCmd? kind i = some c → s.unitState
    kind i = 1 → s.drained kind i = true → c.op = 1 → kind.val = 1 → c.kind = 1 → c.index = i → Gives (.drainDone kind i) s
      (let t := s.setUnit 1 i 2; t.setFcore i { t.fcore i with lm := [] })) ∧
  (∀ (s : State) (core : Fin 64) (c : HltCmd), s.mainUp = true → s.due = [] → s.hltCmd? 1 core = some c → s.unitState 1 core = 1 →
    s.drained 1 core = false → c.force = false → Gives (.drainTimeout core) s
      (let t := s.runTo (c.since + max 1 (s.rd R.HLT_DRAIN_CFG_drain_ms) * unitsPerMs); (((t.setUnit 1 core 0).hltCnt 7).hltDone
          c St.hlt_drain_timeout 0).drainDue)) ∧
  (∀ (s t : State) (core : Fin 64) (c : HltCmd), s.mainUp = true → s.hltCmd? 1 core = some c → s.unitState 1 core = 1 → s.drained 1
    core = false → c.force = true → t = (List.range 16).foldl (fun s k => s.threadDisable (16 * core + k)) (s.runTo (c.since +
    max 1 (s.rd R.HLT_DRAIN_CFG_drain_ms) * unitsPerMs)) → Gives (.drainTimeout core) s (t.drainEnds c).drainDue) ∧
  (∀ (s : State) (kind : Fin 8) (i : Fin 128) (us : Nat) (c : HltCmd), s.mainUp = true → s.hltCmd? kind i = some c → s.unitState
    kind i = 2 → Gives (.testDone kind i false us) s ((((((s.hltCnt 4).hltCnt 5).sat R.HLT_UNIT_fails 1 kind i).setUnit kind i
    4).hltDone c St.hlt_failed us))) ∧
  (∀ (s : State) (kind : Fin 8) (i : Fin 128) (us : Nat) (c : HltCmd), s.mainUp = true → s.hltCmd? kind i = some c → s.unitState
    kind i = 2 → (c.wasFenced && c.op == 1) = false → kind.val = 2 → Gives (.testDone kind i true us) s
      (let t := (s.hltCnt 4).setUnit 2 i 0; (t.wr R.VLT_ENG_FENCED_fenced (setBit (t.rd R.VLT_ENG_FENCED_fenced) i
          false)).hltDone c 0 us)) ∧
  (∀ (s : State) (kind : Fin 8) (i : Fin 128) (us : Nat) (c : HltCmd), s.mainUp = true → s.hltCmd? kind i = some c → s.unitState
    kind i = 2 → (c.wasFenced && c.op == 1) = false → kind.val = 5 → Gives (.testDone kind i true us) s ((s.hltCnt 4).setUnit 5
    i 3)) ∧
  (∀ (s : State) (pc : Fin 64) (c : HltCmd), s.mainUp = true → s.hltCmd? 5 pc = some c → s.unitState 5 pc = 3 → Gives
    (.copyBackDone pc) s ((((s.wr R.MEM_PC_STATE_state 0 pc).wr R.MEM_INFO_spared 0).setUnit 5 pc 0).hltDone c 0 0))

/-- A stuck bus writes event 0x0013 to the always-on log; a dynamic address is assigned only while the target has none, and
RSTDAA or a bus reset ends it; a packet that starts and ends a message counts one message, a start without an end begins its
assembly, a packet in sequence extends it, and one out of sequence or of more than 64 bytes is dropped; each MCTP control
command is answered, and one outside the subset with ERROR_UNSUPPORTED_CMD; a record that waits is written to the log with
the next number, the oldest going at 8,192; a write of MGT_LOG_IDX loads the record it names; the island's FT is loaded from
FT. Codes of the standards are log entry 11, what each answers is opaque (log entry 5). Each clause says the whole next
state. -/
def Obligations.BusesAndMctp : Prop :=
  (∀ (s : State) (b : Fin 4), s.isl.up = true → Gives (.busStuck b) s (s.logEvent 0x13 0 0x13 (leBytes 1 b ++ List.replicate 15 0))) ∧
  (∀ (s : State) (a : Fin 128), s.isl.up = true → s.isl.dyn = 0 → Gives (.setdasa a) s { s with isl := { s.isl with dyn := a } }) ∧
  (∀ (s : State) (a : Fin 128), s.isl.up = true → s.isl.dyn ≠ 0 → Gives (.setdasa a) s s) ∧
  (∀ (s : State) (a : Fin 128), s.isl.up = true → s.isl.dyn = 0 → Gives (.entdaa a) s { s with isl := { s.isl with dyn := a } }) ∧
  (∀ (s : State), s.isl.up = true → Gives .rstdaa s { s with isl := { s.isl with dyn := 0 } }) ∧
  (∀ (s : State), s.isl.up = true → Gives .i3cBusReset s { s with isl := { s.isl with dyn := 0 } }) ∧
  (∀ (s : State) (src : Fin 256) (tag : Fin 16) (seq : Fin 4) (data : List Byte), s.isl.up = true → data.length ≤ 64 → s.isl.asm =
    [] → Gives (.mctpPacket src tag true true seq data) s (s.addTo R.MGT_CNT_count 1 0)) ∧
  (∀ (s : State) (src : Fin 256) (tag : Fin 16) (seq : Fin 4) (data : List Byte), s.isl.up = true → data.length ≤ 64 → s.isl.asm =
    [] → Gives (.mctpPacket src tag true false seq data) s { s with isl := { s.isl with asm := [{ src := src, tag := tag, data := data, seq := (seq + 1) % 4 }] } }) ∧
  (∀ (s : State) (src : Fin 256) (tag : Fin 16) (seq : Fin 4) (data : List Byte) (a : McAsm), s.isl.up = true → data.length ≤ 64 →
    s.isl.asm = [a] → a.src = src → a.tag = tag → a.seq = seq → a.data.length + data.length ≤ 1088 → Gives (.mctpPacket src tag
    false false seq data) s { s with isl := { s.isl with asm := [{ a with data := a.data ++ data, seq := (seq + 1) % 4 }] } }) ∧
  (∀ (s : State) (src : Fin 256) (tag : Fin 16) (eom : Bool) (seq : Fin 4) (data : List Byte) (a : McAsm), s.isl.up = true →
    data.length ≤ 64 → s.isl.asm = [a] → a.src = src → a.tag = tag → a.seq ≠ seq → Gives (.mctpPacket src tag false eom seq
    data) s (({ s with isl := { s.isl with asm := [] } } : State).addTo R.MGT_CNT_count 1 2)) ∧
  (∀ (s : State) (src : Fin 256) (tag : Fin 16) (som eom : Bool) (seq : Fin 4) (data : List Byte), s.isl.up = true → 64 <
    data.length → s.isl.asm = [] → Gives (.mctpPacket src tag som eom seq data) s (s.addTo R.MGT_CNT_count 1 2)) ∧
  (∀ (s : State) (e : Fin 256), s.isl.up = true → e.val ≠ 0 → e.val ≠ 255 → Gives (.setEndpointId e) s ((s.wr R.MGT_INFO_eid
    e).ctlAnswer 1 0 (leBytes 1 e))) ∧
  (∀ (s : State), s.isl.up = true → Gives .getEndpointId s (s.ctlAnswer 2 0 (leBytes 1 (s.rd R.MGT_INFO_eid)))) ∧
  (∀ (s : State), s.isl.up = true → Gives .getEndpointUuid s (s.ctlAnswer 3 0 Config.uuid)) ∧
  (∀ (s : State) (t : Fin 256), s.isl.up = true → t = 0 ∨ t = 1 ∨ t = 0x7F ∨ t = 0xFF → Gives (.getMctpVersionSupport t) s
    (s.ctlAnswer 4 0 (Config.mctpVersions t))) ∧
  (∀ (s : State) (t : Fin 256), s.isl.up = true → ¬ (t = 0 ∨ t = 1 ∨ t = 0x7F ∨ t = 0xFF) → Gives (.getMctpVersionSupport t) s
    (s.ctlAnswer 4 0x80)) ∧
  (∀ (s : State), s.isl.up = true → Gives .getMessageTypeSupport s (s.ctlAnswer 5 0 [3, 0, 1, 0x7F])) ∧
  (∀ (s : State), s.isl.up = true → Gives (.getVendorDefinedMsgSupport 0) s (s.ctlAnswer 6 0 (leBytes 1 0xFF ++ leBytes 1 1 ++
    beBytes 4 (s.rd R.MGT_INFO_iana) ++ Config.vendorSet))) ∧
  (∀ (s : State) (cmd : Fin 256), s.isl.up = true → Gives (.mctpUnsupportedCmd cmd) s (s.ctlAnswer cmd 5)) ∧
  (∀ (s : State) (e : EventRec) (l : List EventRec), s.isl.up = true → s.logq = e :: l → s.isl.log.length < 8192 → Gives .logRecord
    s { s with logq := l, isl := { s.isl with log := s.isl.log ++ [(s.logNext, s.islandStamp e)] } }) ∧
  (∀ (s : State), s.isl.up = true → s.mainUp = true → s.rd R.FT_STATUS_state ≠ 0 → Gives .islandFtUpdate s { s with isl := { s.isl with ft := s.time.ft } }) ∧
  (∀ (s : State) (req : Req) (q : Nat), s.takes req 0x14 0 R.reg_MGT_LOG_IDX → q < 2 ^ 64 → (s.isl.log.any (·.1 == q)) = false →
    Gives (.logIdxWrite req q) s ((List.range 4).foldl (fun s j => s.wr R.MGT_LOG_DATA_data 0 j) (s.wr R.MGT_LOG_IDX_seq
    q)).after) ∧
  (∀ (s : State) (req : Req) (q : Nat) (p : Nat × EventRec), s.takes req 0x14 0 R.reg_MGT_LOG_IDX → q < 2 ^ 64 → s.isl.log.find?
    (·.1 == q) = some p → Gives (.logIdxWrite req q) s ((List.range 4).foldl (fun s j => s.wr R.MGT_LOG_DATA_data (fieldLE
    (leBytes 8 p.1 ++ eventBytes p.2) (8 * j) 8) j) (s.wr R.MGT_LOG_IDX_seq q)).after)

/-- Each PLDM command of the subset is answered, and one outside it with ERROR_UNSUPPORTED_PLDM_CMD; a sensor is read with its
value, or as unavailable; events are sent only once a buffer size has been set, one for the first sensor that has changed;
an update runs from RequestUpdate over the table, the component and its data to ActivateFirmware, and a command out of order
is refused. Codes and fields are those of the published standards (log entry 11). Each clause says the whole next state. -/
def Obligations.Pldm : Prop :=
  (∀ (s : State) (t : Fin 256), s.isl.up = true → t.val ≠ 0 → t.val ≠ 255 → Gives (.setTid t) s ((s.wr R.MGT_INFO_tid t).pldm 0 1
    0)) ∧
  (∀ (s : State), s.isl.up = true → Gives .getTid s (s.pldm 0 2 0 (leBytes 1 (s.rd R.MGT_INFO_tid)))) ∧
  (∀ (s : State) (t : Fin 256), s.isl.up = true → t = 0 ∨ t = 2 ∨ t = 5 → Gives (.getPldmVersion t) s (s.pldm 0 3 0
    (Config.pldmVersion t))) ∧
  (∀ (s : State), s.isl.up = true → Gives .getPldmTypes s (s.pldm 0 4 0 [0x25, 0, 0, 0, 0, 0, 0, 0])) ∧
  (∀ (s : State) (t : Fin 256) (l : List Nat), s.isl.up = true → pldmCommands t = some l → Gives (.getPldmCommands t) s (s.pldm 0 5
    0 (leBytes 32 (l.foldl (fun a c => a + 2 ^ c) 0)))) ∧
  (∀ (s : State) (t c : Fin 256), s.isl.up = true → Gives (.pldmUnsupportedCmd t c) s (s.pldm t c 5)) ∧
  (∀ (s : State), s.isl.up = true → Gives .getPdrRepositoryInfo s (s.pldm 2 0x50 0 Config.pdrInfo)) ∧
  (∀ (s : State) (n : Nat), s.isl.up = true → Gives (.getPdr n) s (s.pldm 2 0x51 0 (Config.pdr n))) ∧
  (∀ (s : State) (i : Fin 65536), s.mainUp = true → s.isl.up = true → 2 ≤ i.val → i.val ≤ 18 → s.on R.HLT_TEMP_fault (i - 1) =
    false → Gives (.getSensorReading i) s (s.pldm 2 0x11 0 (leBytes 1 0 ++ leBytes 2 (s.rd R.HLT_TEMP_temp_c (i - 1))))) ∧
  (∀ (s : State) (i : Fin 65536), s.mainUp = false → s.isl.up = true → 2 ≤ i.val → i.val ≤ 18 → Gives (.getSensorReading i) s
    (s.pldm 2 0x11 0 [2])) ∧
  (∀ (s : State) (i : Fin 65536), s.mainUp = true → s.isl.up = true → 40 ≤ i.val → i.val < 48 → Gives (.getStateSensorReadings i) s
    (s.pldm 2 0x21 0 (leBytes 1 0 ++ leBytes 2 (s.rd R.TSK_STATUS_pwr (i - 40))))) ∧
  (∀ (s : State) (n : Fin 65536), s.isl.up = true → Gives (.eventMessageBufferSize n) s ((({ s with isl := { s.isl with evBuf := some n.val, sensed := s.senseAll } }
    : State).pldm 2 0x0D 0 (leBytes 2 n)))) ∧
  (∀ (s : State), s.isl.up = true → s.isl.evBuf = none → Gives .platformEventMessage s s) ∧
  (∀ (s : State) (id v n : Nat), s.isl.up = true → s.isl.evBuf = some n → sensorIds.findSome? (fun id => match s.sensorClass id with | some v => if v = Store.get 0 s.isl.sensed id then none else some (id, v) | none => none) = some (id, v) → Gives .platformEventMessage s ((({ s with isl := { s.isl with sensed := Store.put 0 s.isl.sensed id v } } : State).mctpSend (.pldmRequest 2 0x0A (leBytes 2 id ++ leBytes 2 v))))) ∧
  (∀ (s : State), s.isl.up = true → s.mainHeld = false → Gives .queryDeviceIdentifiers s (s.pldm 5 1 0 Config.deviceIds)) ∧
  (∀ (s : State) (q : Nat), s.isl.up = true → s.mainHeld = false → q = s.rd R.SEC_IMAGE_INFO_seq → s.slotSt (1 - s.rd
    R.SEC_BOOT_STATUS_slot) ≠ .valid → Gives .getFirmwareParameters s (s.pldm 5 2 0 (leBytes 2 0x6408 ++ leBytes 4 q ++ [0x53]
    ++ hexDigits 8 q))) ∧
  (∀ (s : State), s.isl.up = true → s.mboxReady = true → s.sec.upd.isSome = false → s.updSess.isSome = false → Gives .requestUpdate
    s (({ s with isl := { s.isl with upd := some {} } } : State).pldm 5 0x10 0)) ∧
  (∀ (s : State), s.isl.up = true → s.sec.upd.isSome = true → Gives .requestUpdate s (s.pldm 5 0x10 0x8A)) ∧
  (∀ (s : State) (u : UpdSess), s.isl.up = true → s.updSess = some u → u.running = false → Gives .passComponentTable s (({ s with isl := { s.isl with upd := some { u with table := true } } }
    : State).pldm 5 0x13 0)) ∧
  (∀ (s : State), s.isl.up = true → s.updSess = none → s.mainHeld = false → Gives .passComponentTable s (({ s with isl := { s.isl with upd := none } }
    : State).pldm 5 0x13 0x88)) ∧
  (∀ (s : State) (u : UpdSess), s.isl.up = true → s.updSess = some u → u.table = true → u.running = false → Gives (.updateComponent
    0x6408) s ((({ s with isl := { s.isl with upd := some { u with running := true } } } : State).pldm 5 0x14 0 [0]).mctpSend
    (.pldmRequest 5 0x15 (leBytes 4 0 ++ leBytes 4 1024)))) ∧
  (∀ (s : State) (u : UpdSess) (d : List Byte) (f r : Bool), s.isl.up = true → s.updSess = some u → u.running = true → u.done =
    false → d.length = 1024 → 0 < u.offset → u.chunk.length + 1024 < 4096 → Gives (.firmwareData d f r) s (({ s with isl := { s.isl with upd := some { u with offset := u.offset + 1024, chunk := u.chunk ++ d } } }
    : State).mctpSend (.pldmRequest 5 0x15 (leBytes 4 (u.offset + 1024) ++ leBytes 4 1024)))) ∧
  (∀ (s t : State) (u : UpdSess) (d : List Byte) (f r : Bool), s.isl.up = true → s.updSess = some u → u.running = true → u.done =
    false → d.length = 1024 → u.offset = 0 → t = (s.setMbox 1 0 d).updBegin 1 f → t.secStatus ≠ 0 → Gives (.firmwareData d f r)
    s t.transferFail) ∧
  (∀ (s : State) (u : UpdSess), s.isl.up = true → s.updSess = some u → u.done = true → Gives .activateFirmware s ((({ s with isl := { s.isl with upd := none } }
    : State).pldm 5 0x1A 0 (leBytes 2 500)).activate 1)) ∧
  (∀ (s : State) (u : UpdSess), s.isl.up = true → s.updSess = some u → u.done = false → Gives .activateFirmware s (s.pldm 5 0x1A
    0x88)) ∧
  (∀ (s : State), s.isl.up = true → s.updSess = none → s.mainHeld = false → Gives .getStatus s (s.pldm 5 0x1B 0 [0])) ∧
  (∀ (s : State) (u : UpdSess), s.isl.up = true → s.updSess = some u → u.running = true → Gives .cancelUpdateComponent s
      (let t := s.updAbort 1; ({ t with isl := { t.isl with upd := some { table := u.table } } } : State).pldm 5 0x1C 0)) ∧
  (∀ (s : State) (u : UpdSess), s.isl.up = true → s.updSess = some u → u.running = false → Gives .cancelUpdate s (({ s with isl := { s.isl with upd := none } }
    : State).pldm 5 0x1D 0))

/-- A register read and a write through the management path are those of the management core and answer their status; an offset,
width or count that is not legal is refused with status 1, and one of the main domain while it is held with status 2;
LOG_READ answers the held records; TO_HOST fills the buffer and writes event 0x0001, and answers 4 while a message waits; a
host message is sent once and its acceptance ends busy; MAIN_RESET answers and asks for the reset; an unknown command is
answered with status 5. Each clause says the whole next state. -/
def Obligations.VendorMessages : Prop :=
  (∀ (s : State) (i : Fin 256) (off size : Nat), s.isl.up = true → s.mgmtBad off size = true → Gives (.regRead i off size) s
    (s.vendor 1 i 1 (leBytes 8 0))) ∧
  (∀ (s : State) (i : Fin 256) (off size : Nat), s.isl.up = true → s.mgmtBad off size = false → s.mgmtHeld off = true → Gives
    (.regRead i off size) s (s.vendor 1 i 2 (leBytes 8 (2 ^ (8 * size) - 1)))) ∧
  (∀ (s : State) (i : Fin 256) (off size : Nat), s.isl.up = true → s.mgmtBad off size = false → s.mgmtHeld off = false → Gives
    (.regRead i off size) s ((s.busRead .mgmt off size).2.vendor 1 i 0 (leBytes 8 (s.busRead .mgmt off size).1))) ∧
  (∀ (s : State) (i : Fin 256) (off size v : Nat), s.isl.up = true → s.mgmtBad off size = true → Gives (.regWrite i off size v) s
    (s.vendor 2 i 1)) ∧
  (∀ (s : State) (i : Fin 256) (off size v : Nat), s.isl.up = true → s.mgmtBad off size = false → s.mgmtHeld off = false →
    s.mgmtOwner off size = false → Gives (.regWrite i off size v) s ((s.busWrite .mgmt off size v).drainDue.vendor 2 i 0)) ∧
  (∀ (s : State) (i : Fin 256) (off size v : Nat), s.isl.up = true → s.mgmtBad off size = false → s.mgmtHeld off = false →
    s.mgmtOwner off size = true → Gives (.regWrite i off size v) s ((s.busWrite .mgmt off size v).drainDue.vendor 2 i 3)) ∧
  (∀ (s : State) (i : Fin 256) (q n : Nat), s.isl.up = true → 0 < n → n ≤ 16 → Gives (.logRead i q n) s (s.vendor 3 i 0
    ((s.isl.log.filter (fun p => q ≤ p.1 && p.1 < q + n)).flatMap (fun p => leBytes 8 p.1 ++ eventBytes p.2)))) ∧
  (∀ (s : State) (i : Fin 256) (q n : Nat), s.isl.up = true → n = 0 ∨ 16 < n → Gives (.logRead i q n) s (s.vendor 3 i 1)) ∧
  (∀ (s : State) (i : Fin 256) (d : List Byte), s.isl.up = true → s.mainHeld = false → 0 < d.length → d.length ≤ 256 → s.on
    R.MGT_M2H_STATUS_valid = true → Gives (.toHost i d) s (s.vendor 4 i 4)) ∧
  (∀ (s : State) (i : Fin 256) (d : List Byte), s.isl.up = true → s.mainHeld = false → d.length = 8 → s.on R.MGT_M2H_STATUS_valid =
    false → Gives (.toHost i d) s
      (let t := (List.range 32).foldl (fun s j => s.wr R.MGT_M2H_BUF_data (fieldLE (d ++ List.replicate 248 0) (8 * j) 8) j) s;
          ((((t.wr R.MGT_M2H_STATUS_length 8).raise R.MGT_M2H_STATUS_valid).event 0x14 0 1 (leBytes 2 8 ++ List.replicate 14
          0)).vendor 4 i 0))) ∧
  (∀ (s : State) (i : Fin 256), s.isl.up = true → s.mainHeld = false → Gives (.mainReset i) s ((s.vendor 6 i 0).requestReset 3)) ∧
  (∀ (s : State) (i c : Fin 256), s.isl.up = true → Gives (.vendorUnknownCmd i c) s (s.vendor c i 5)) ∧
  (∀ (s : State) (req : Req) (n : Fin 512), s.takes req 0x14 0 R.reg_MGT_H2M_CTRL → s.on R.MGT_H2M_CTRL_busy = false → 0 < n.val →
    n.val ≤ 256 → Gives (.h2mGo req n) s (((s.wr R.MGT_H2M_CTRL_length n).raise R.MGT_H2M_CTRL_busy).toMgmt (.fromHost
    (((List.range 32).flatMap (fun j => leBytes 8 (s.rd R.MGT_H2M_BUF_data j))).take n))).after) ∧
  (∀ (s : State) (req : Req) (n : Fin 512), s.takes req 0x14 0 R.reg_MGT_H2M_CTRL → s.on R.MGT_H2M_CTRL_busy = true → Gives (.h2mGo
    req n) s s.after) ∧
  (∀ (s : State), s.isl.up = true → s.on R.MGT_H2M_CTRL_busy = true → Gives .fromHostAccepted s ((s.wr R.MGT_H2M_CTRL_busy 0).addTo
    R.MGT_CNT_count 1 1))

/-- Each NC-SI command to an initialized channel of a running device changes what its name says and is answered as completed;
before Clear Initial State the other commands are answered with initialization required, for a port that does not exist with
an invalid channel, and while the main domain is held as not ready; the packages select and deselect; a command outside the
subset is answered as unsupported; a frame of the management controller that the channel takes waits for its port or goes
out at once, and another is dropped and counted. Response and reason codes, and the modes of the VLAN filter, are those of
the published standard (log entry 11). Each clause says the whole next state. -/
def Obligations.NcSi : Prop :=
  (∀ (s t : State) (n : Fin 8), s.isl.up = true → s.ncsiOpen n true = some t → Gives (.clearInitialState n) s ((t.modNcsi n (fun c
    => { c with ready := true })).ncsiAnswer 0 n 0 0)) ∧
  (∀ (s t : State) (n : Fin 8), s.isl.up = true → s.ncsiOpen n true = some t → Gives (.getVersionId n) s (t.ncsiAnswer 0x15 n 0 0
    Config.ncsiVersion)) ∧
  (∀ (s t : State) (n : Fin 8), s.isl.up = true → s.ncsiOpen n false = some t → Gives (.enableChannel n) s (((t.modNcsi n (fun c =>
    { c with en := true })).wr R.MGT_NCSI_STATUS_ch_en (setBit (t.rd R.MGT_NCSI_STATUS_ch_en) n true)).ncsiAnswer 3 n 0 0)) ∧
  (∀ (s t : State) (n : Fin 8), s.isl.up = true → s.ncsiOpen n false = some t → Gives (.disableChannel n) s (((t.modNcsi n (fun c
    => { c with en := false })).wr R.MGT_NCSI_STATUS_ch_en (setBit (t.rd R.MGT_NCSI_STATUS_ch_en) n false)).ncsiAnswer 4 n 0 0)) ∧
  (∀ (s t : State) (n : Fin 8), s.isl.up = true → s.ncsiOpen n false = some t → Gives (.resetChannel n) s ((t.ncsiEn n
    false).modNcsi n (fun c => { cmds := c.cmds, toBmc := c.toBmc, toWire := c.toWire, dropped := c.dropped }) |>.ncsiAnswer 5 n
    0 0)) ∧
  (∀ (s t : State) (n : Fin 8), s.isl.up = true → s.ncsiOpen n false = some t → Gives (.enableChannelNetworkTx n) s ((t.modNcsi n
    (fun c => { c with tx := true })).ncsiAnswer 6 n 0 0)) ∧
  (∀ (s t : State) (n : Fin 8), s.isl.up = true → s.ncsiOpen n false = some t → Gives (.disableChannelNetworkTx n) s ((t.modNcsi n
    (fun c => { c with tx := false })).ncsiAnswer 7 n 0 0)) ∧
  (∀ (s t : State) (n : Fin 8) (m : Nat), s.isl.up = true → s.ncsiOpen n false = some t → m < 2 ^ 32 → Gives (.aenEnable n m) s
    ((t.modNcsi n (fun c => { c with aen := m })).ncsiAnswer 8 n 0 0)) ∧
  (∀ (s t : State) (n : Fin 8), s.isl.up = true → s.ncsiOpen n false = some t → Gives (.getLinkStatus n) s (t.ncsiAnswer 0x0A n 0 0
    (leBytes 4 (b2n (t.portUp n))))) ∧
  (∀ (s t : State) (n : Fin 8) (k : Fin 2) (mac : Nat), s.isl.up = true → s.ncsiOpen n false = some t → mac < 2 ^ 48 → Gives
    (.setMacAddress n k mac true) s ((t.modNcsi n (fun c => { c with macs := Store.put 0 c.macs k mac })).ncsiAnswer 0x0E n 0 0)) ∧
  (∀ (s t : State) (n : Fin 8), s.isl.up = true → s.ncsiOpen n false = some t → Gives (.enableBroadcastFilter n) s ((t.modNcsi n
    (fun c => { c with bcast := true })).ncsiAnswer 0x10 n 0 0)) ∧
  (∀ (s t : State) (n : Fin 8), s.isl.up = true → s.ncsiOpen n false = some t → Gives (.enableMulticastFilter n) s ((t.modNcsi n
    (fun c => { c with mcast := true })).ncsiAnswer 0x12 n 0 0)) ∧
  (∀ (s t : State) (n : Fin 8) (k : Fin 4) (v : Fin 4096), s.isl.up = true → s.ncsiOpen n false = some t → Gives (.setVlanFilter n
    k v true) s ((t.modNcsi n (fun c => { c with vlans := Store.put 0 c.vlans k v })).ncsiAnswer 0x0B n 0 0)) ∧
  (∀ (s t : State) (n : Fin 8) (m : Fin 4), s.isl.up = true → s.ncsiOpen n false = some t → Gives (.enableVlan n m) s ((t.modNcsi n
    (fun c => { c with vlanMode := m })).ncsiAnswer 0x0C n 0 0)) ∧
  (∀ (s t : State) (n : Fin 8), s.isl.up = true → s.ncsiOpen n false = some t → Gives (.getCapabilities n) s (t.ncsiAnswer 0x16 n 0
    0 Config.ncsiCaps)) ∧
  (∀ (s t : State) (n : Fin 8), s.isl.up = true → s.ncsiOpen n false = some t → Gives (.getParameters n) s (t.ncsiAnswer 0x17 n 0 0
    (t.ncsi n).params)) ∧
  (∀ (s t : State) (n : Fin 8), s.isl.up = true → s.ncsiOpen n false = some t → Gives (.getControllerPacketStats n) s (t.ncsiAnswer
    0x18 n 0 0 (leBytes 8 ((s.ncsi n).cmds + 1)))) ∧
  (∀ (s t : State) (n : Fin 8), s.isl.up = true → s.ncsiOpen n false = some t → Gives (.getPassThroughStatistics n) s (t.ncsiAnswer
    0x1A n 0 0 (leBytes 8 (s.ncsi n).toWire ++ leBytes 8 (s.ncsi n).toBmc ++ leBytes 8 (s.ncsi n).dropped))) ∧
  (∀ (s : State) (n : Fin 8), s.isl.up = true → s.mainHeld = false → s.portExists n = true → (s.ncsi n).ready = false → Gives
    (.enableChannel n) s ((s.ncsiCounted n).ncsiAnswer 3 n 1 1)) ∧
  (∀ (s : State) (n : Fin 8), s.isl.up = true → s.mainHeld = false → s.portExists n = false → Gives (.enableChannel n) s
    ((s.ncsiCounted n).ncsiAnswer 3 n 1 2)) ∧
  (∀ (s : State) (n : Fin 8), s.isl.up = true → s.mainHeld = true → Gives (.enableChannel n) s ((s.ncsiCounted n).ncsiAnswer 3 n 1
    3)) ∧
  (∀ (s : State), s.isl.up = true → Gives .selectPackage s ((({ s.mgtCnt 4 with isl := { s.isl with selected := true } } :
    State)).ncsiAnswer 1 0x1F 0 0)) ∧
  (∀ (s : State), s.isl.up = true → Gives .deselectPackage s ((({ s.mgtCnt 4 with isl := { s.isl with selected := false } } :
    State)).ncsiAnswer 2 0x1F 0 0)) ∧
  (∀ (s : State) (n : Fin 8) (c : Fin 256), s.isl.up = true → s.mainHeld = false → s.portExists n = true → Gives
    (.ncsiUnsupportedCmd n c) s ((s.ncsiCounted n).ncsiAnswer c n 3 0x7FFF)) ∧
  (∀ (s t : State) (n : Fin 8) (d : List Byte), s.isl.up = true → d.length ≤ 1518 → s.cuffOpen = true → s.portUp n = true → (s.ncsi
    n).ready = true → (s.ncsi n).tx = true → (s.ncsi n).txq.length < 8 → t = s.setNcsi n { s.ncsi n with txq := (s.ncsi n).txq ++ [d] }
    → (s.outOf n).isSome = true → Gives (.ncsiTxFrame n d true) s t) ∧
  (∀ (s : State) (n : Fin 8) (d : List Byte), s.isl.up = true → d.length ≤ 1518 → s.cuffOpen = true → s.portUp n = true → (s.ncsi
    n).ready = true → (s.ncsi n).tx = true → (s.ncsi n).txq = [] → (s.outOf n).isSome = false → s.stopped n 0 = false → Gives
    (.ncsiTxFrame n d true) s
      (let t := ((s.setNcsi n { s.ncsi n with txq := [] }).putWire n d false).mgtCnt 6; t.modNcsi n (fun c => { c with toWire := c.toWire + 1 }))) ∧
  (∀ (s : State) (n : Fin 8) (d : List Byte), s.isl.up = true → Gives (.ncsiTxFrame n d false) s ((s.mgtCnt 7).modNcsi n (fun c =>
    { c with dropped := c.dropped + 1 })))

/-- A heartbeat goes out on every ACTIVE sublink and is numbered; the third consecutive heartbeat enters PAIRED, and a member of
lower priority whose partner is primary becomes secondary with event 0x0002; miss_max silent heartbeat times lose the
partner, with event 0x0003, and make a secondary primary; a mirrored write of a sublink is applied as its block's owner
would, or counted as skipped where mirroring is off; a transit frame enters rx_pipe as source 0x303, and outside PAIRED is
discarded. Each clause says the whole next state. -/
def Obligations.RedundantPair : Prop :=
  (∀ (s t : State) (q : Nat), s.mainUp = true → s.subsUp = [8] → t = s.runTo (s.pair.sentAt + 10 * unitsPerUs) → q = t.pair.hbSeq →
    Gives .heartbeatSend s (({ t with pair := { t.pair with sentAt := t.time.ft, hbSeq := (q + 1) % 65536 } } : State).sendTxn 8
    { vc := 3, data := txnHeader 0x40 (t.rd R.PAR_STATUS_role) (t.ac R.PAR_CFG_prio + 256 * t.pairState) q 0 t.now64 })) ∧
  (∀ (s : State), s.mainUp = true → s.subsUp = [] → Gives .heartbeatSend s s) ∧
  (∀ (s t : State) (sub : Fin 2) (e : Nat × Txn) (q : Nat), s.mainUp = true → s.nextTxn (8 + sub) 0x40 = some e → t.pair.lastSeq =
    some q → e.2.tag = (q + 1) % 65536 → t.pair.row + 1 < 3 → t = (s.leaveRx (8 + sub) e) → Gives (.heartbeat sub) s (({ t with pair := { t.pair with row := t.pair.row + 1, lastSeq := some e.2.tag, lastHb := t.time.ft, prio := fieldLE e.2.data 2 1, partnerPrimary := e.2.sub == 0 } }
    : State).wr R.PAR_STATUS_ft_offset_ns (unsigned 32 (max (-(2 ^ 31 - 1)) (min (2 ^ 31 - 1) (ft64Ns e.2.arg + (t.rd
    R.PAR_LINK_link_ns : Nat) - ft64Ns (ft64 e.2.at_))))))) ∧
  (∀ (s t u : State) (sub : Fin 2) (e : Nat × Txn) (q : Nat), s.mainUp = true → s.nextTxn (8 + sub) 0x40 = some e → t.pair.lastSeq
    = some q → e.2.tag = (q + 1) % 65536 → 2 ≤ t.pair.row → t = s.leaveRx (8 + sub) e → t.pairState = 1 → t.pair.wasLost = false
    → e.2.sub = 0 → t.ac R.PAR_CFG_prio < fieldLE e.2.data 2 1 → t.rd R.PAR_STATUS_role = 0 → u = (({ t with pair := { t.pair with row := t.pair.row + 1, lastSeq := some e.2.tag, lastHb := t.time.ft, prio := fieldLE e.2.data 2 1, partnerPrimary := true } }
    : State).wr R.PAR_STATUS_ft_offset_ns (unsigned 32 (max (-(2 ^ 31 - 1)) (min (2 ^ 31 - 1) (ft64Ns e.2.arg + (t.rd
    R.PAR_LINK_link_ns : Nat) - ft64Ns (ft64 e.2.at_)))))) → Gives (.heartbeat sub) s (((u.wr R.PAR_STATUS_state 2).wr
    R.PAR_STATUS_role 1).event 0x15 0 2 (leBytes 1 1 ++ leBytes 1 (fieldLE e.2.data 2 1) ++ List.replicate 14 0))) ∧
  (∀ (s t u : State) (k : Nat), s.mainUp = true → s.pairState = 2 → k = s.ac R.PAR_CFG_miss_max → t = (s.runTo (s.pair.lastHb + k *
    10 * unitsPerUs)).addTo R.PAR_CNT_count k 5 → t.pairState = 2 → u = ((((t.wr R.PAR_STATUS_state 3).raise
    R.PAR_STATUS_resync).eventBoth 0x15 0 3 (List.replicate 16 0)).dropDest 72) → u.rd R.PAR_STATUS_role = 0 → u.ac
    R.PAR_CFG_enable ≠ 0 → Gives .partnerLost s u) ∧
  (∀ (s t u : State) (k : Nat), s.mainUp = true → s.pairState = 2 → k = s.ac R.PAR_CFG_miss_max → t = (s.runTo (s.pair.lastHb + k *
    10 * unitsPerUs)).addTo R.PAR_CNT_count k 5 → t.pairState = 2 → u = ((((t.wr R.PAR_STATUS_state 3).raise
    R.PAR_STATUS_resync).eventBoth 0x15 0 3 (List.replicate 16 0)).dropDest 72) → u.rd R.PAR_STATUS_role = 1 → (((u.wr
    R.PAR_STATUS_role 0).sat R.PAR_STATUS_takeovers).event 0x15 0 2 (leBytes 1 0 ++ leBytes 1 u.pair.prio ++ List.replicate 14
    0)).pairActive.ac R.PAR_CFG_enable ≠ 0 → Gives .partnerLost s (((u.wr R.PAR_STATUS_role 0).sat R.PAR_STATUS_takeovers).event
    0x15 0 2 (leBytes 1 0 ++ leBytes 1 u.pair.prio ++ List.replicate 14 0)).pairActive) ∧
  (∀ (s : State), s.mainUp = true → s.pairState ≠ 2 → Gives .partnerLost s s) ∧
  (∀ (s : State) (sub : Fin 2) (e : Nat × Txn), s.mainUp = true → s.due = [] → s.nextTxn (8 + sub) 0x41 = some e → s.nextTxn (17 -
    (8 + sub)) 0x41 = none → (s.leaveRx (8 + sub) e).ac R.PAR_CFG_mirror_rx = 0 → Gives (.mirror sub) s ((s.leaveRx (8 + sub)
    e).addTo R.PAR_CNT_count 1 3).drainDue) ∧
  (∀ (s t : State) (sub : Fin 2) (e : Nat × Txn) (v : Nat), s.mainUp = true → s.nextTxn (8 + sub) 0x41 = some e → s.nextTxn (17 -
    (8 + sub)) 0x41 = none → t = s.leaveRx (8 + sub) e → t.ac R.PAR_CFG_mirror_rx = 1 → fieldLE e.2.data 8 4 =
    R.reg_HLT_DRAIN_CFG.base → fieldLE e.2.data 0xC 1 = 4 → fieldLE e.2.data 0x10 8 = v → v < 2 ^ 32 → t.blkOpen (blkOf 0x13) 0
    = true → t.rd hdrOwner (blkOf 0x13).base ≤ 1 → Gives (.mirror sub) s (t.wr R.HLT_DRAIN_CFG_drain_ms (v / 2 ^ 16)).after) ∧
  (∀ (s t : State) (sub : Fin 2) (e : Nat × Txn) (q : Nat), s.mainUp = true → s.nextTxn (8 + sub) 0x01 = some e → t = s.leaveRx (8
    + sub) e → t.pairState = 2 → q = s.ac R.PAR_CFG_rx_pipe → t.ac R.PAR_CFG_trust_slice = 1 → Gives (.transitRx sub) s
    ((t.addTo R.PAR_CNT_count 1 1).toPipe q { data := e.2.body, src := 0x303, stamp := e.2.arg, at_ := e.2.at_, bad := e.2.bad, slice := e.2.status % 4096, cls := some (e.2.sub % 8), recirc := bits e.2.status 14 12 + 1 })) ∧
  (∀ (s : State) (sub : Fin 2) (e : Nat × Txn), s.mainUp = true → s.nextTxn (8 + sub) 0x01 = some e → (s.leaveRx (8 + sub)
    e).pairState ≠ 2 → Gives (.transitRx sub) s (s.leaveRx (8 + sub) e))

/-- With a command at the front of the queue, a step is exec of that command on the state whose queue is the rest. The queue is
the model's own (log entry 1). -/
def Obligations.StepTakesTheFrontCommand : Prop :=
  (∀ (c : Instr) (rest : List Instr) (s : State), s.pending = c :: rest → step s = exec c { s with pending := rest })

/-- On an empty queue a step is the passing of one core clock, in which the management package also sends what its channels
hold: the model's choice, log entry 1. -/
def Obligations.EmptyQueueIsOneClock : Prop :=
  (∀ (s : State), s.pending = [] → step s = .next s.tick.ncsiDrain)

/-- Every command of the table, in every state, ends in a next state: the spec gives the block no command that stops it. -/
def Obligations.EveryCommandCompletes : Prop :=
  (∀ (c : Instr) (s : State), ∃ t, exec c s = .next t)

/-- Whatever a command does, the queue after it is the queue before it, so a step takes exactly the front command out of the
queue. -/
def Obligations.CommandsKeepTheQueue : Prop :=
  (∀ (c : Instr) (s t : State), exec c s = .next t → t.pending = s.pending) ∧
  (∀ (c : Instr) (rest : List Instr) (s t : State), s.pending = c :: rest → step s = .next t → t.pending = rest)

/-- While the main domain is not released, a command that belongs to it changes nothing; while the island does not run, a
command that belongs to the island changes nothing. That such a command completes without an effect is the model's reading
(log entry 15). -/
def Obligations.HeldDomainsDoNothing : Prop :=
  (∀ (c : Instr) (s : State), c.domain = .main → s.mainUp = false → Gives c s s) ∧
  (∀ (c : Instr) (s : State), c.domain = .island → s.isl.up = false → Gives c s s)

/-- From every state, whatever the step does, the key rows and the transport key stay as they were programmed, the anti-rollback
counter never falls and a blown revoke fuse stays blown. -/
def Obligations.FusesOnlyBlow : Prop :=
  (∀ (o : Otp) (s t : State), o.Within s.otp → step s = .next t → o.Within t.otp)

/-- At reset no fuse of the counter is blown and no key is revoked, so the fuses of State.reset hold what manufacture
programmed. That a new device is so is log entry 3. -/
def Obligations.FusesAtReset : Prop :=
  (Otp.Within {} State.reset.otp) ∧
  (State.reset.otp.count = 0) ∧
  (State.reset.otp.revoked = 0)

/-- A flit whose fields are in range is written as 256 bytes that pass the flit check, and those bytes are read back as the same
flit, field by field; a transaction header is read back as the fields it was written from. -/
def Obligations.FlitsRoundTrip : Prop :=
  (∀ (f : Flit), f.type < 2 ^ 4 → f.vc < 2 ^ 2 → f.units < 2 ^ 4 → f.seq < 2 ^ 12 → f.ack < 2 ^ 12 → f.crVc < 2 ^ 2 → f.cr < 2 ^ 12
    → f.payload.length = 240 → f.bytes.length = 256 ∧ flitGood f.bytes true = true ∧ flitOf f.bytes = f) ∧
  (∀ (vc type sub len tag status arg : Nat) (body : List Byte), type < 2 ^ 8 → sub < 2 ^ 8 → len < 2 ^ 16 → tag < 2 ^ 16 → status <
    2 ^ 16 → arg < 2 ^ 64 → body.length = len →
       let t : Txn := { vc := vc, data := txnHeader type sub len tag status arg ++ padUnits body }; t.type = type ∧ t.sub = sub
          ∧ t.len = len ∧ t.tag = tag ∧ t.status = status ∧ t.arg = arg ∧ t.body = body)

/-- What a descriptor of a tenant slice writes to HBM leaves every byte outside the range it names as it was, and every byte of
a page that another slice owns; what it reads from HBM comes only from pages charged to the slice. That a page without an
owner is charged at its first use is log entry 7. -/
def Obligations.SlicesStayInTheirPages : Prop :=
  (∀ (s t : State) (x a : Nat) (bs : List Byte) (bad : Bool) (g : Got) (c : Nat), s.writeFor x true a bs bad = (g, t) → c < a ∨ a +
    bs.length ≤ c → Mem.byte t.mem.hbm c = Mem.byte s.mem.hbm c) ∧
  (∀ (s t : State) (x y a : Nat) (bs : List Byte) (bad : Bool) (g : Got) (c : Nat), s.writeFor x true a bs bad = (g, t) → x ≠ 0 → y
    ≠ x → s.pageOwner (c / pageSize) = some y → Mem.byte t.mem.hbm c = Mem.byte s.mem.hbm c) ∧
  (∀ (s t : State) (w : JobFor) (x a n : Nat) (d : List Byte) (c : Nat), s.readFor w x true a n = (.ok d, t) → x ≠ 0 → a ≤ c → c <
    a + n → t.pageOwner (c / pageSize) = some x)

/-- A translation completion for a request that is marked stale changes neither the translation cache nor the work that waits,
whatever it grants; the request goes out again, as a request that is not stale, and the whole rest of the state stays. -/
def Obligations.StaleTranslations : Prop :=
  (∀ (s : State) (hif : Fin 2) (pf : Fin 8) (fn id target size : Nat) (granted rd wr : Bool) (x : Xlat), s.mainUp = true → s.due =
    [] → fn = 8 * hif.val + pf.val → s.hif.xlats.find? (fun x => x.fn == fn && x.id == id) = some x → x.stale = true → Gives
    (.translationCompletion hif pf id granted target size rd wr) s (({ s with hif := { s.hif with xlats := s.hif.xlats.filter (· != x) ++ [{ x with id := s.hif.nextId, stale := false }], nextId := s.hif.nextId + 1 } }
    : State).sendHost (.xlatReq fn s.hif.nextId x.page))) ∧
  (∀ (s : State) (hif : Fin 2) (pf : Fin 8) (fn id target size : Nat) (granted rd wr : Bool) (x : Xlat), s.mainUp = true → s.due =
    [] → fn = 8 * hif.val + pf.val → s.hif.xlats.find? (fun x => x.fn == fn && x.id == id) = some x → x.stale = true → Ends
    (.translationCompletion hif pf id granted target size rd wr) s (fun t => t.hif.atc = s.hif.atc ∧ t.hif.reads = s.hif.reads ∧
    t.mem = s.mem ∧ t.rng = s.rng))

/-- ch.ipi of a running thread sets the machine software interrupt of a target thread that lies in a core of the same domain,
and goes on; for any other target the thread takes the channel fault, exception code 24, with reason 4. -/
def Obligations.SoftwareInterrupts : Prop :=
  (∀ (s : State) (h : Fin 1024) (rs1 : Fin 32) (a : Nat), s.mainUp = true → (s.hart h).state = 1 → a = s.xr h rs1 → a < 1024 →
    s.dom (a / 16) = s.dom (h / 16) → Gives (.chIpi h rs1) s ((s.csrw a 0x344 (setBit (s.csr a 0x344) 3 true)).retire h 4)) ∧
  (∀ (s : State) (h : Fin 1024) (rs1 : Fin 32) (a : Nat), s.mainUp = true → (s.hart h).state = 1 → a = s.xr h rs1 → a < 1024 →
    s.dom (a / 16) ≠ s.dom (h / 16) → Gives (.chIpi h rs1) s (s.trap h 24 4)) ∧
  (∀ (s : State) (h : Fin 1024) (rs1 : Fin 32), s.mainUp = true → (s.hart h).state = 1 → 1024 ≤ s.xr h rs1 → Gives (.chIpi h rs1) s
    (s.trap h 24 4))

/-- The start of the next entry of a ring whose head is not before its tail changes nothing; and whenever an entry starts, the
ring's head was before its tail. -/
def Obligations.NothingStartsAtTheTail : Prop :=
  (∀ (s : State) (r : Fin 65536) (x : Ring), s.mainUp = true → s.due = [] → s.ring r = some x → before x.head x.tail = false →
    Gives (.descriptorStart r) s s) ∧
  (∀ (s t : State) (r : Fin 65536) (c : Nat) (x : Ring), s.ring r = some x → s.startEntry r = (t, some c) → c = x.head ∧ before c
    x.tail = true)

/-- Whatever its cause, a reset of the main domain leaves no epoch, so the controller is idle and number 0, and no unit has
applied anything: every active value is its value at reset. -/
def Obligations.EpochEndsAtAReset : Prop :=
  (∀ (s : State) (cause rail : Nat), s.rd R.GLB_EPOCH_STATUS_state = 1 ∨ s.rd R.GLB_EPOCH_STATUS_state = 2 → (s.mainReset cause
    rail).rd R.GLB_EPOCH_STATUS_state = 0 ∧ (s.mainReset cause rail).rd R.GLB_EPOCH_NUM_num = 0 ∧ ∀ f i j k, (s.mainReset cause
    rail).ac f i j k = State.reset.ac f i j k)

/-- A management write of seize while lapsed is 1 gives every block that the host owns to the management side, marked seized,
leaves the other blocks' headers as they are, and writes event 0x0001 to both logs with the number of blocks moved; while
lapsed is 0 it only sets seize_refused. -/
def Obligations.Seizure : Prop :=
  (∀ (s : State) (a : Nat), s.takes .mgmt 0x01 0 R.reg_GLB_SEIZE → s.on R.GLB_HB_STATUS_lapsed = true → a ∈ blkBases → s.rd
    hdrOwner a = 0 → (s.seizeAll blkBases).rd hdrOwner a = 1 ∧ (s.seizeAll blkBases).rd hdrSeized a = 1) ∧
  (∀ (s : State) (a : Nat), s.takes .mgmt 0x01 0 R.reg_GLB_SEIZE → s.on R.GLB_HB_STATUS_lapsed = true → a ∈ blkBases → s.rd
    hdrOwner a ≠ 0 → (s.seizeAll blkBases).rd hdrOwner a = s.rd hdrOwner a ∧ (s.seizeAll blkBases).rd hdrSeized a = s.rd
    hdrSeized a) ∧
  (∀ (s : State), s.takes .mgmt 0x01 0 R.reg_GLB_SEIZE → s.on R.GLB_HB_STATUS_lapsed = true → Gives (.seize .mgmt) s ((s.seizeAll
    blkBases).eventBoth 1 0 1 (leBytes 2 (blkBases.filter (fun a => s.rd hdrOwner a == 0)).length ++ List.replicate 14 0)).after) ∧
  (∀ (s : State), s.takes .mgmt 0x01 0 R.reg_GLB_SEIZE → s.on R.GLB_HB_STATUS_lapsed = false → Gives (.seize .mgmt) s (s.raise
    R.GLB_HB_STATUS_seize_refused).after)

/-- Right after reset the main domain is not released and nothing waits; the host owns every block but MGT_, fabric time is 0
and not set, no epoch has run, thermal thresholds and supply levels have their reset values, and no ring or QP exists. The
queue is the model's (log entry 1); registers without a stated reset value are log entry 3. -/
def Obligations.ResetState : Prop :=
  (State.reset.pending = []) ∧
  (State.reset.mainUp = false) ∧
  (∀ (a : Nat), a ≠ 0x3C00000 → State.reset.rd hdrOwner a = 0) ∧
  (State.reset.rd hdrOwner 0x3C00000 = 1) ∧
  (State.reset.time.ft = 0) ∧
  (State.reset.rd R.FT_STATUS_state = 0) ∧
  (State.reset.rd R.GLB_EPOCH_STATUS_state = 0) ∧
  (State.reset.rd R.GLB_EPOCH_NUM_num = 0) ∧
  (State.reset.rd R.HLT_THERM_CFG_warn_c = 95) ∧
  (State.reset.rd R.HLT_THERM_CFG_trip_c = 110) ∧
  (∀ (r : Fin 3), r.val < 2 → State.reset.rd R.HLT_SUPPLY_CFG_warn_mv r = 713) ∧
  (∀ (r : Nat), State.reset.ring r = none) ∧
  (∀ (q : Nat), State.reset.qp q = none)
end

