-- ==== Sys2Proof/Laws/Store.lean ====
section
/-! SUPPORT. Laws of the sparse stores: a read after a write, and every operation keeps the canonical form. -/

namespace Sys2Proof.Laws
open Sys2Proof.Machine

variable {α : Type}

/-- Keys strictly rising and no entry equal to what an unlisted key reads as, said entry by entry. -/
theorem wf_iff [DecidableEq α] (d : α) (m : List (Nat × α)) :
    Store.wf d m = true ↔ m.Pairwise (fun p q => p.1 < q.1) ∧ ∀ p ∈ m, p.2 ≠ d := by
  induction m with
  | nil => simp [Store.wf]
  | cons p m ih =>
    obtain ⟨k, v⟩ := p
    cases m with
    | nil => simp [Store.wf]
    | cons q m =>
      obtain ⟨k', v'⟩ := q
      simp only [Store.wf, Bool.and_eq_true, decide_eq_true_eq, bne_iff_ne, ih]
      constructor
      · rintro ⟨⟨h1, h2⟩, h3, h4⟩
        refine ⟨List.pairwise_cons.mpr ⟨?_, h3⟩, ?_⟩
        · intro q hq
          rcases List.mem_cons.mp hq with rfl | hq
          · exact h1
          · exact lt_trans h1 ((List.pairwise_cons.mp h3).1 q hq)
        · intro q hq
          rcases List.mem_cons.mp hq with rfl | hq
          · exact h2
          · exact h4 q hq
      · rintro ⟨h3, h4⟩
        rw [List.pairwise_cons] at h3
        exact ⟨⟨h3.1 _ (List.mem_cons_self ..), h4 _ (List.mem_cons_self ..)⟩, h3.2, fun p hp => h4 p (List.mem_cons_of_mem _ hp)⟩

/-- A part of a canonical store is canonical. -/
theorem wf_filter [DecidableEq α] (d : α) (m : List (Nat × α)) (f : Nat × α → Bool) (h : Store.wf d m = true) :
    Store.wf d (m.filter f) = true := by
  rw [wf_iff] at h ⊢
  exact ⟨h.1.filter _, fun p hp => h.2 p (List.mem_of_mem_filter hp)⟩

theorem wf_drop [DecidableEq α] (d : α) (m : List (Nat × α)) (a : Nat) (h : Store.wf d m = true) : Store.wf d (Store.drop m a) = true :=
  wf_filter d m _ h

theorem wf_clear [DecidableEq α] (d : α) (m : List (Nat × α)) (lo hi : Nat) (h : Store.wf d m = true) :
    Store.wf d (Store.clear m lo hi) = true := wf_filter d m _ h

theorem mem_ins (a : Nat) (v : α) (m : List (Nat × α)) (p : Nat × α) : p ∈ Store.ins a v m ↔ p = (a, v) ∨ p ∈ m := by
  induction m with
  | nil => simp [Store.ins]
  | cons q m ih =>
    unfold Store.ins
    split
    · simp
    · simp only [List.mem_cons, ih]
      tauto

theorem pairwise_ins (a : Nat) (v : α) (m : List (Nat × α)) (h : m.Pairwise (fun p q => p.1 < q.1)) (hn : ∀ p ∈ m, p.1 ≠ a) :
    (Store.ins a v m).Pairwise (fun p q => p.1 < q.1) := by
  induction m with
  | nil => simp [Store.ins]
  | cons q m ih =>
    rw [List.pairwise_cons] at h
    unfold Store.ins
    split
    · next hlt =>
      refine List.pairwise_cons.mpr ⟨?_, List.pairwise_cons.mpr h⟩
      intro p hp
      rcases List.mem_cons.mp hp with rfl | hp
      · exact hlt
      · exact lt_trans hlt (h.1 p hp)
    · next hge =>
      refine List.pairwise_cons.mpr ⟨?_, ih h.2 (fun p hp => hn p (List.mem_cons_of_mem _ hp))⟩
      intro p hp
      rcases (mem_ins a v m p).mp hp with rfl | hp
      · have := hn q (List.mem_cons_self ..)
        simp only at hge ⊢
        omega
      · exact h.1 p hp

theorem drop_ne (m : List (Nat × α)) (a : Nat) : ∀ p ∈ Store.drop m a, p.1 ≠ a := by
  intro p hp
  simpa using (List.mem_filter.mp hp).2

theorem wf_put [DecidableEq α] (d : α) (m : List (Nat × α)) (a : Nat) (v : α) (h : Store.wf d m = true) :
    Store.wf d (Store.put d m a v) = true := by
  unfold Store.put
  split
  · exact wf_drop d m a h
  · next hv =>
    have h' := (wf_iff d _).mp (wf_drop d m a h)
    rw [wf_iff]
    refine ⟨pairwise_ins a v _ h'.1 (drop_ne m a), fun p hp => ?_⟩
    rcases (mem_ins a v _ p).mp hp with rfl | hp
    · exact hv
    · exact h'.2 p hp

/-! ### Reads after writes: these need no canonical form -/

theorem get_drop_same (d : α) (m : List (Nat × α)) (a : Nat) : Store.get d (Store.drop m a) a = d := by
  induction m with
  | nil => rfl
  | cons p m ih =>
    unfold Store.drop at ih ⊢
    rw [List.filter_cons]
    split
    · next h =>
      have : a ≠ p.1 := fun e => by simp [e] at h
      simp only [Store.get, if_neg this, ih]
    · exact ih

theorem get_drop_other (d : α) (m : List (Nat × α)) (a b : Nat) (h : b ≠ a) : Store.get d (Store.drop m a) b = Store.get d m b := by
  induction m with
  | nil => rfl
  | cons p m ih =>
    unfold Store.drop at ih ⊢
    rw [List.filter_cons]
    split
    · simp only [Store.get, ih]
    · next hp =>
      have hp' : p.1 = a := by simpa using hp
      have : b ≠ p.1 := by omega
      simp only [Store.get, if_neg this, ih]

theorem get_ins_same (d : α) (m : List (Nat × α)) (a : Nat) (v : α) (h : ∀ p ∈ m, p.1 ≠ a) : Store.get d (Store.ins a v m) a = v := by
  induction m with
  | nil => simp [Store.ins, Store.get]
  | cons p m ih =>
    unfold Store.ins
    split
    · simp [Store.get]
    · have : a ≠ p.1 := fun e => h p (List.mem_cons_self ..) e.symm
      simp only [Store.get, if_neg this]
      exact ih (fun q hq => h q (List.mem_cons_of_mem _ hq))

theorem get_ins_other (d : α) (m : List (Nat × α)) (a b : Nat) (v : α) (h : b ≠ a) : Store.get d (Store.ins a v m) b = Store.get d m b := by
  induction m with
  | nil => simp [Store.ins, Store.get, h]
  | cons p m ih =>
    unfold Store.ins
    split
    · simp [Store.get, h]
    · simp only [Store.get, ih]

/-- A read after a write to the same place gives the value written. -/
@[simp] theorem get_put_same [DecidableEq α] (d : α) (m : List (Nat × α)) (a : Nat) (v : α) : Store.get d (Store.put d m a v) a = v := by
  unfold Store.put
  split
  · next h => rw [get_drop_same, h]
  · exact get_ins_same d _ a v (drop_ne m a)

/-- A write leaves every other place alone. -/
theorem get_put_other [DecidableEq α] (d e : α) (m : List (Nat × α)) (a b : Nat) (v : α) (h : b ≠ a) :
    Store.get e (Store.put d m a v) b = Store.get e m b := by
  unfold Store.put
  split
  · exact get_drop_other e m a b h
  · rw [get_ins_other e _ a b v h, get_drop_other e m a b h]

/-! ### Byte memories -/

theorem mem_setByte_wf (m : List Host.Cell) (a : Nat) (b : Byte) (h : Mem.wf m = true) : Mem.wf (Mem.setByte m a b) = true :=
  wf_put 0 m a b h

theorem mem_write_wf (bs : List Byte) : ∀ (m : List Host.Cell) (a : Nat), Mem.wf m = true → Mem.wf (Mem.write m a bs) = true := by
  induction bs with
  | nil => exact fun _ _ h => h
  | cons b bs ih => exact fun m a h => ih _ _ (mem_setByte_wf m a b h)

theorem mem_zero_wf (m : List Host.Cell) (lo hi : Nat) (h : Mem.wf m = true) : Mem.wf (Mem.zero m lo hi) = true := wf_clear 0 m lo hi h

@[simp] theorem mem_byte_setByte_same (m : List Host.Cell) (a : Nat) (b : Byte) : Mem.byte (Mem.setByte m a b) a = b := get_put_same 0 m a b

theorem mem_byte_setByte_other (m : List Host.Cell) (a c : Nat) (b : Byte) (h : c ≠ a) : Mem.byte (Mem.setByte m a b) c = Mem.byte m c :=
  get_put_other 0 0 m a c b h

/-- A write leaves every byte outside it alone. -/
theorem mem_byte_write_other (bs : List Byte) : ∀ (m : List Host.Cell) (a c : Nat), c < a ∨ a + bs.length ≤ c →
    Mem.byte (Mem.write m a bs) c = Mem.byte m c := by
  induction bs with
  | nil => exact fun _ _ _ _ => rfl
  | cons b bs ih =>
    intro m a c h
    simp only [List.length_cons] at h
    simp only [Mem.write]
    rw [ih _ _ _ (by omega), mem_byte_setByte_other _ _ _ _ (by omega)]

/-- What has been written is read back. -/
theorem mem_byte_write (bs : List Byte) : ∀ (m : List Host.Cell) (a k : Nat) (h : k < bs.length), Mem.byte (Mem.write m a bs) (a + k) = bs[k] := by
  induction bs with
  | nil => intro _ _ _ h; simp at h
  | cons b bs ih =>
    intro m a k h
    cases k with
    | zero =>
      simp only [Mem.write]
      rw [mem_byte_write_other bs _ _ _ (Or.inl (by omega))]
      simp
    | succ k =>
      simp only [List.length_cons] at h
      have e : a + (k + 1) = (a + 1) + k := by omega
      simp only [Mem.write, List.getElem_cons_succ]
      rw [e]
      exact ih _ _ _ (by omega)

end Sys2Proof.Laws
end

