-- ==== Sys2Proof/Laws/State.lean ====
section
/-! SUPPORT. What each update of the state leaves alone: one lemma per field, true by unfolding. -/

namespace Sys2Proof.Laws
open Sys2Proof.Machine

/-! `wr` -/

@[simp] theorem wr_act (s : State) (f : Fld) (v : Nat) (i : Nat) (j : Nat) (k : Nat) : (s.wr f v i j k).act = s.act := rfl
@[simp] theorem wr_bus (s : State) (f : Fld) (v : Nat) (i : Nat) (j : Nat) (k : Nat) : (s.wr f v i j k).bus = s.bus := rfl
@[simp] theorem wr_evq (s : State) (f : Fld) (v : Nat) (i : Nat) (j : Nat) (k : Nat) : (s.wr f v i j k).evq = s.evq := rfl
@[simp] theorem wr_logq (s : State) (f : Fld) (v : Nat) (i : Nat) (j : Nat) (k : Nat) : (s.wr f v i j k).logq = s.logq := rfl
@[simp] theorem wr_time (s : State) (f : Fld) (v : Nat) (i : Nat) (j : Nat) (k : Nat) : (s.wr f v i j k).time = s.time := rfl
@[simp] theorem wr_sec (s : State) (f : Fld) (v : Nat) (i : Nat) (j : Nat) (k : Nat) : (s.wr f v i j k).sec = s.sec := rfl
@[simp] theorem wr_otp (s : State) (f : Fld) (v : Nat) (i : Nat) (j : Nat) (k : Nat) : (s.wr f v i j k).otp = s.otp := rfl
@[simp] theorem wr_mem (s : State) (f : Fld) (v : Nat) (i : Nat) (j : Nat) (k : Nat) : (s.wr f v i j k).mem = s.mem := rfl
@[simp] theorem wr_hif (s : State) (f : Fld) (v : Nat) (i : Nat) (j : Nat) (k : Nat) : (s.wr f v i j k).hif = s.hif := rfl
@[simp] theorem wr_hostMem (s : State) (f : Fld) (v : Nat) (i : Nat) (j : Nat) (k : Nat) : (s.wr f v i j k).hostMem = s.hostMem := rfl
@[simp] theorem wr_hostBad (s : State) (f : Fld) (v : Nat) (i : Nat) (j : Nat) (k : Nat) : (s.wr f v i j k).hostBad = s.hostBad := rfl
@[simp] theorem wr_toHost (s : State) (f : Fld) (v : Nat) (i : Nat) (j : Nat) (k : Nat) : (s.wr f v i j k).toHost = s.toHost := rfl
@[simp] theorem wr_slc (s : State) (f : Fld) (v : Nat) (i : Nat) (j : Nat) (k : Nat) : (s.wr f v i j k).slc = s.slc := rfl
@[simp] theorem wr_rng (s : State) (f : Fld) (v : Nat) (i : Nat) (j : Nat) (k : Nat) : (s.wr f v i j k).rng = s.rng := rfl
@[simp] theorem wr_prt (s : State) (f : Fld) (v : Nat) (i : Nat) (j : Nat) (k : Nat) : (s.wr f v i j k).prt = s.prt := rfl
@[simp] theorem wr_wire (s : State) (f : Fld) (v : Nat) (i : Nat) (j : Nat) (k : Nat) : (s.wr f v i j k).wire = s.wire := rfl
@[simp] theorem wr_tbl (s : State) (f : Fld) (v : Nat) (i : Nat) (j : Nat) (k : Nat) : (s.wr f v i j k).tbl = s.tbl := rfl
@[simp] theorem wr_swc (s : State) (f : Fld) (v : Nat) (i : Nat) (j : Nat) (k : Nat) : (s.wr f v i j k).swc = s.swc := rfl
@[simp] theorem wr_links (s : State) (f : Fld) (v : Nat) (i : Nat) (j : Nat) (k : Nat) : (s.wr f v i j k).links = s.links := rfl
@[simp] theorem wr_socks (s : State) (f : Fld) (v : Nat) (i : Nat) (j : Nat) (k : Nat) : (s.wr f v i j k).socks = s.socks := rfl
@[simp] theorem wr_rdm (s : State) (f : Fld) (v : Nat) (i : Nat) (j : Nat) (k : Nat) : (s.wr f v i j k).rdm = s.rdm := rfl
@[simp] theorem wr_stq (s : State) (f : Fld) (v : Nat) (i : Nat) (j : Nat) (k : Nat) : (s.wr f v i j k).stq = s.stq := rfl
@[simp] theorem wr_pair (s : State) (f : Fld) (v : Nat) (i : Nat) (j : Nat) (k : Nat) : (s.wr f v i j k).pair = s.pair := rfl
@[simp] theorem wr_due (s : State) (f : Fld) (v : Nat) (i : Nat) (j : Nat) (k : Nat) : (s.wr f v i j k).due = s.due := rfl
@[simp] theorem wr_tm (s : State) (f : Fld) (v : Nat) (i : Nat) (j : Nat) (k : Nat) : (s.wr f v i j k).tm = s.tm := rfl
@[simp] theorem wr_l2 (s : State) (f : Fld) (v : Nat) (i : Nat) (j : Nat) (k : Nat) : (s.wr f v i j k).l2 = s.l2 := rfl
@[simp] theorem wr_fc (s : State) (f : Fld) (v : Nat) (i : Nat) (j : Nat) (k : Nat) : (s.wr f v i j k).fc = s.fc := rfl
@[simp] theorem wr_vlt (s : State) (f : Fld) (v : Nat) (i : Nat) (j : Nat) (k : Nat) : (s.wr f v i j k).vlt = s.vlt := rfl
@[simp] theorem wr_pmc (s : State) (f : Fld) (v : Nat) (i : Nat) (j : Nat) (k : Nat) : (s.wr f v i j k).pmc = s.pmc := rfl
@[simp] theorem wr_hlt (s : State) (f : Fld) (v : Nat) (i : Nat) (j : Nat) (k : Nat) : (s.wr f v i j k).hlt = s.hlt := rfl
@[simp] theorem wr_isl (s : State) (f : Fld) (v : Nat) (i : Nat) (j : Nat) (k : Nat) : (s.wr f v i j k).isl = s.isl := rfl
@[simp] theorem wr_free (s : State) (f : Fld) (v : Nat) (i : Nat) (j : Nat) (k : Nat) : (s.wr f v i j k).free = s.free := rfl
@[simp] theorem wr_pending (s : State) (f : Fld) (v : Nat) (i : Nat) (j : Nat) (k : Nat) : (s.wr f v i j k).pending = s.pending := rfl

/-! `sat` -/

@[simp] theorem sat_act (s : State) (f : Fld) (n : Nat) (i : Nat) (j : Nat) (k : Nat) : (s.sat f n i j k).act = s.act := rfl
@[simp] theorem sat_bus (s : State) (f : Fld) (n : Nat) (i : Nat) (j : Nat) (k : Nat) : (s.sat f n i j k).bus = s.bus := rfl
@[simp] theorem sat_evq (s : State) (f : Fld) (n : Nat) (i : Nat) (j : Nat) (k : Nat) : (s.sat f n i j k).evq = s.evq := rfl
@[simp] theorem sat_logq (s : State) (f : Fld) (n : Nat) (i : Nat) (j : Nat) (k : Nat) : (s.sat f n i j k).logq = s.logq := rfl
@[simp] theorem sat_time (s : State) (f : Fld) (n : Nat) (i : Nat) (j : Nat) (k : Nat) : (s.sat f n i j k).time = s.time := rfl
@[simp] theorem sat_sec (s : State) (f : Fld) (n : Nat) (i : Nat) (j : Nat) (k : Nat) : (s.sat f n i j k).sec = s.sec := rfl
@[simp] theorem sat_otp (s : State) (f : Fld) (n : Nat) (i : Nat) (j : Nat) (k : Nat) : (s.sat f n i j k).otp = s.otp := rfl
@[simp] theorem sat_mem (s : State) (f : Fld) (n : Nat) (i : Nat) (j : Nat) (k : Nat) : (s.sat f n i j k).mem = s.mem := rfl
@[simp] theorem sat_hif (s : State) (f : Fld) (n : Nat) (i : Nat) (j : Nat) (k : Nat) : (s.sat f n i j k).hif = s.hif := rfl
@[simp] theorem sat_hostMem (s : State) (f : Fld) (n : Nat) (i : Nat) (j : Nat) (k : Nat) : (s.sat f n i j k).hostMem = s.hostMem := rfl
@[simp] theorem sat_hostBad (s : State) (f : Fld) (n : Nat) (i : Nat) (j : Nat) (k : Nat) : (s.sat f n i j k).hostBad = s.hostBad := rfl
@[simp] theorem sat_toHost (s : State) (f : Fld) (n : Nat) (i : Nat) (j : Nat) (k : Nat) : (s.sat f n i j k).toHost = s.toHost := rfl
@[simp] theorem sat_slc (s : State) (f : Fld) (n : Nat) (i : Nat) (j : Nat) (k : Nat) : (s.sat f n i j k).slc = s.slc := rfl
@[simp] theorem sat_rng (s : State) (f : Fld) (n : Nat) (i : Nat) (j : Nat) (k : Nat) : (s.sat f n i j k).rng = s.rng := rfl
@[simp] theorem sat_prt (s : State) (f : Fld) (n : Nat) (i : Nat) (j : Nat) (k : Nat) : (s.sat f n i j k).prt = s.prt := rfl
@[simp] theorem sat_wire (s : State) (f : Fld) (n : Nat) (i : Nat) (j : Nat) (k : Nat) : (s.sat f n i j k).wire = s.wire := rfl
@[simp] theorem sat_tbl (s : State) (f : Fld) (n : Nat) (i : Nat) (j : Nat) (k : Nat) : (s.sat f n i j k).tbl = s.tbl := rfl
@[simp] theorem sat_swc (s : State) (f : Fld) (n : Nat) (i : Nat) (j : Nat) (k : Nat) : (s.sat f n i j k).swc = s.swc := rfl
@[simp] theorem sat_links (s : State) (f : Fld) (n : Nat) (i : Nat) (j : Nat) (k : Nat) : (s.sat f n i j k).links = s.links := rfl
@[simp] theorem sat_socks (s : State) (f : Fld) (n : Nat) (i : Nat) (j : Nat) (k : Nat) : (s.sat f n i j k).socks = s.socks := rfl
@[simp] theorem sat_rdm (s : State) (f : Fld) (n : Nat) (i : Nat) (j : Nat) (k : Nat) : (s.sat f n i j k).rdm = s.rdm := rfl
@[simp] theorem sat_stq (s : State) (f : Fld) (n : Nat) (i : Nat) (j : Nat) (k : Nat) : (s.sat f n i j k).stq = s.stq := rfl
@[simp] theorem sat_pair (s : State) (f : Fld) (n : Nat) (i : Nat) (j : Nat) (k : Nat) : (s.sat f n i j k).pair = s.pair := rfl
@[simp] theorem sat_due (s : State) (f : Fld) (n : Nat) (i : Nat) (j : Nat) (k : Nat) : (s.sat f n i j k).due = s.due := rfl
@[simp] theorem sat_tm (s : State) (f : Fld) (n : Nat) (i : Nat) (j : Nat) (k : Nat) : (s.sat f n i j k).tm = s.tm := rfl
@[simp] theorem sat_l2 (s : State) (f : Fld) (n : Nat) (i : Nat) (j : Nat) (k : Nat) : (s.sat f n i j k).l2 = s.l2 := rfl
@[simp] theorem sat_fc (s : State) (f : Fld) (n : Nat) (i : Nat) (j : Nat) (k : Nat) : (s.sat f n i j k).fc = s.fc := rfl
@[simp] theorem sat_vlt (s : State) (f : Fld) (n : Nat) (i : Nat) (j : Nat) (k : Nat) : (s.sat f n i j k).vlt = s.vlt := rfl
@[simp] theorem sat_pmc (s : State) (f : Fld) (n : Nat) (i : Nat) (j : Nat) (k : Nat) : (s.sat f n i j k).pmc = s.pmc := rfl
@[simp] theorem sat_hlt (s : State) (f : Fld) (n : Nat) (i : Nat) (j : Nat) (k : Nat) : (s.sat f n i j k).hlt = s.hlt := rfl
@[simp] theorem sat_isl (s : State) (f : Fld) (n : Nat) (i : Nat) (j : Nat) (k : Nat) : (s.sat f n i j k).isl = s.isl := rfl
@[simp] theorem sat_free (s : State) (f : Fld) (n : Nat) (i : Nat) (j : Nat) (k : Nat) : (s.sat f n i j k).free = s.free := rfl
@[simp] theorem sat_pending (s : State) (f : Fld) (n : Nat) (i : Nat) (j : Nat) (k : Nat) : (s.sat f n i j k).pending = s.pending := rfl

/-! `raise` -/

@[simp] theorem raise_act (s : State) (f : Fld) (i : Nat) (j : Nat) (k : Nat) : (s.raise f i j k).act = s.act := rfl
@[simp] theorem raise_bus (s : State) (f : Fld) (i : Nat) (j : Nat) (k : Nat) : (s.raise f i j k).bus = s.bus := rfl
@[simp] theorem raise_evq (s : State) (f : Fld) (i : Nat) (j : Nat) (k : Nat) : (s.raise f i j k).evq = s.evq := rfl
@[simp] theorem raise_logq (s : State) (f : Fld) (i : Nat) (j : Nat) (k : Nat) : (s.raise f i j k).logq = s.logq := rfl
@[simp] theorem raise_time (s : State) (f : Fld) (i : Nat) (j : Nat) (k : Nat) : (s.raise f i j k).time = s.time := rfl
@[simp] theorem raise_sec (s : State) (f : Fld) (i : Nat) (j : Nat) (k : Nat) : (s.raise f i j k).sec = s.sec := rfl
@[simp] theorem raise_otp (s : State) (f : Fld) (i : Nat) (j : Nat) (k : Nat) : (s.raise f i j k).otp = s.otp := rfl
@[simp] theorem raise_mem (s : State) (f : Fld) (i : Nat) (j : Nat) (k : Nat) : (s.raise f i j k).mem = s.mem := rfl
@[simp] theorem raise_hif (s : State) (f : Fld) (i : Nat) (j : Nat) (k : Nat) : (s.raise f i j k).hif = s.hif := rfl
@[simp] theorem raise_hostMem (s : State) (f : Fld) (i : Nat) (j : Nat) (k : Nat) : (s.raise f i j k).hostMem = s.hostMem := rfl
@[simp] theorem raise_hostBad (s : State) (f : Fld) (i : Nat) (j : Nat) (k : Nat) : (s.raise f i j k).hostBad = s.hostBad := rfl
@[simp] theorem raise_toHost (s : State) (f : Fld) (i : Nat) (j : Nat) (k : Nat) : (s.raise f i j k).toHost = s.toHost := rfl
@[simp] theorem raise_slc (s : State) (f : Fld) (i : Nat) (j : Nat) (k : Nat) : (s.raise f i j k).slc = s.slc := rfl
@[simp] theorem raise_rng (s : State) (f : Fld) (i : Nat) (j : Nat) (k : Nat) : (s.raise f i j k).rng = s.rng := rfl
@[simp] theorem raise_prt (s : State) (f : Fld) (i : Nat) (j : Nat) (k : Nat) : (s.raise f i j k).prt = s.prt := rfl
@[simp] theorem raise_wire (s : State) (f : Fld) (i : Nat) (j : Nat) (k : Nat) : (s.raise f i j k).wire = s.wire := rfl
@[simp] theorem raise_tbl (s : State) (f : Fld) (i : Nat) (j : Nat) (k : Nat) : (s.raise f i j k).tbl = s.tbl := rfl
@[simp] theorem raise_swc (s : State) (f : Fld) (i : Nat) (j : Nat) (k : Nat) : (s.raise f i j k).swc = s.swc := rfl
@[simp] theorem raise_links (s : State) (f : Fld) (i : Nat) (j : Nat) (k : Nat) : (s.raise f i j k).links = s.links := rfl
@[simp] theorem raise_socks (s : State) (f : Fld) (i : Nat) (j : Nat) (k : Nat) : (s.raise f i j k).socks = s.socks := rfl
@[simp] theorem raise_rdm (s : State) (f : Fld) (i : Nat) (j : Nat) (k : Nat) : (s.raise f i j k).rdm = s.rdm := rfl
@[simp] theorem raise_stq (s : State) (f : Fld) (i : Nat) (j : Nat) (k : Nat) : (s.raise f i j k).stq = s.stq := rfl
@[simp] theorem raise_pair (s : State) (f : Fld) (i : Nat) (j : Nat) (k : Nat) : (s.raise f i j k).pair = s.pair := rfl
@[simp] theorem raise_due (s : State) (f : Fld) (i : Nat) (j : Nat) (k : Nat) : (s.raise f i j k).due = s.due := rfl
@[simp] theorem raise_tm (s : State) (f : Fld) (i : Nat) (j : Nat) (k : Nat) : (s.raise f i j k).tm = s.tm := rfl
@[simp] theorem raise_l2 (s : State) (f : Fld) (i : Nat) (j : Nat) (k : Nat) : (s.raise f i j k).l2 = s.l2 := rfl
@[simp] theorem raise_fc (s : State) (f : Fld) (i : Nat) (j : Nat) (k : Nat) : (s.raise f i j k).fc = s.fc := rfl
@[simp] theorem raise_vlt (s : State) (f : Fld) (i : Nat) (j : Nat) (k : Nat) : (s.raise f i j k).vlt = s.vlt := rfl
@[simp] theorem raise_pmc (s : State) (f : Fld) (i : Nat) (j : Nat) (k : Nat) : (s.raise f i j k).pmc = s.pmc := rfl
@[simp] theorem raise_hlt (s : State) (f : Fld) (i : Nat) (j : Nat) (k : Nat) : (s.raise f i j k).hlt = s.hlt := rfl
@[simp] theorem raise_isl (s : State) (f : Fld) (i : Nat) (j : Nat) (k : Nat) : (s.raise f i j k).isl = s.isl := rfl
@[simp] theorem raise_free (s : State) (f : Fld) (i : Nat) (j : Nat) (k : Nat) : (s.raise f i j k).free = s.free := rfl
@[simp] theorem raise_pending (s : State) (f : Fld) (i : Nat) (j : Nat) (k : Nat) : (s.raise f i j k).pending = s.pending := rfl

/-! `bump` -/

@[simp] theorem bump_act (s : State) (f : Fld) (i : Nat) (j : Nat) (k : Nat) : (s.bump f i j k).act = s.act := rfl
@[simp] theorem bump_bus (s : State) (f : Fld) (i : Nat) (j : Nat) (k : Nat) : (s.bump f i j k).bus = s.bus := rfl
@[simp] theorem bump_evq (s : State) (f : Fld) (i : Nat) (j : Nat) (k : Nat) : (s.bump f i j k).evq = s.evq := rfl
@[simp] theorem bump_logq (s : State) (f : Fld) (i : Nat) (j : Nat) (k : Nat) : (s.bump f i j k).logq = s.logq := rfl
@[simp] theorem bump_time (s : State) (f : Fld) (i : Nat) (j : Nat) (k : Nat) : (s.bump f i j k).time = s.time := rfl
@[simp] theorem bump_sec (s : State) (f : Fld) (i : Nat) (j : Nat) (k : Nat) : (s.bump f i j k).sec = s.sec := rfl
@[simp] theorem bump_otp (s : State) (f : Fld) (i : Nat) (j : Nat) (k : Nat) : (s.bump f i j k).otp = s.otp := rfl
@[simp] theorem bump_mem (s : State) (f : Fld) (i : Nat) (j : Nat) (k : Nat) : (s.bump f i j k).mem = s.mem := rfl
@[simp] theorem bump_hif (s : State) (f : Fld) (i : Nat) (j : Nat) (k : Nat) : (s.bump f i j k).hif = s.hif := rfl
@[simp] theorem bump_hostMem (s : State) (f : Fld) (i : Nat) (j : Nat) (k : Nat) : (s.bump f i j k).hostMem = s.hostMem := rfl
@[simp] theorem bump_hostBad (s : State) (f : Fld) (i : Nat) (j : Nat) (k : Nat) : (s.bump f i j k).hostBad = s.hostBad := rfl
@[simp] theorem bump_toHost (s : State) (f : Fld) (i : Nat) (j : Nat) (k : Nat) : (s.bump f i j k).toHost = s.toHost := rfl
@[simp] theorem bump_slc (s : State) (f : Fld) (i : Nat) (j : Nat) (k : Nat) : (s.bump f i j k).slc = s.slc := rfl
@[simp] theorem bump_rng (s : State) (f : Fld) (i : Nat) (j : Nat) (k : Nat) : (s.bump f i j k).rng = s.rng := rfl
@[simp] theorem bump_prt (s : State) (f : Fld) (i : Nat) (j : Nat) (k : Nat) : (s.bump f i j k).prt = s.prt := rfl
@[simp] theorem bump_wire (s : State) (f : Fld) (i : Nat) (j : Nat) (k : Nat) : (s.bump f i j k).wire = s.wire := rfl
@[simp] theorem bump_tbl (s : State) (f : Fld) (i : Nat) (j : Nat) (k : Nat) : (s.bump f i j k).tbl = s.tbl := rfl
@[simp] theorem bump_swc (s : State) (f : Fld) (i : Nat) (j : Nat) (k : Nat) : (s.bump f i j k).swc = s.swc := rfl
@[simp] theorem bump_links (s : State) (f : Fld) (i : Nat) (j : Nat) (k : Nat) : (s.bump f i j k).links = s.links := rfl
@[simp] theorem bump_socks (s : State) (f : Fld) (i : Nat) (j : Nat) (k : Nat) : (s.bump f i j k).socks = s.socks := rfl
@[simp] theorem bump_rdm (s : State) (f : Fld) (i : Nat) (j : Nat) (k : Nat) : (s.bump f i j k).rdm = s.rdm := rfl
@[simp] theorem bump_stq (s : State) (f : Fld) (i : Nat) (j : Nat) (k : Nat) : (s.bump f i j k).stq = s.stq := rfl
@[simp] theorem bump_pair (s : State) (f : Fld) (i : Nat) (j : Nat) (k : Nat) : (s.bump f i j k).pair = s.pair := rfl
@[simp] theorem bump_due (s : State) (f : Fld) (i : Nat) (j : Nat) (k : Nat) : (s.bump f i j k).due = s.due := rfl
@[simp] theorem bump_tm (s : State) (f : Fld) (i : Nat) (j : Nat) (k : Nat) : (s.bump f i j k).tm = s.tm := rfl
@[simp] theorem bump_l2 (s : State) (f : Fld) (i : Nat) (j : Nat) (k : Nat) : (s.bump f i j k).l2 = s.l2 := rfl
@[simp] theorem bump_fc (s : State) (f : Fld) (i : Nat) (j : Nat) (k : Nat) : (s.bump f i j k).fc = s.fc := rfl
@[simp] theorem bump_vlt (s : State) (f : Fld) (i : Nat) (j : Nat) (k : Nat) : (s.bump f i j k).vlt = s.vlt := rfl
@[simp] theorem bump_pmc (s : State) (f : Fld) (i : Nat) (j : Nat) (k : Nat) : (s.bump f i j k).pmc = s.pmc := rfl
@[simp] theorem bump_hlt (s : State) (f : Fld) (i : Nat) (j : Nat) (k : Nat) : (s.bump f i j k).hlt = s.hlt := rfl
@[simp] theorem bump_isl (s : State) (f : Fld) (i : Nat) (j : Nat) (k : Nat) : (s.bump f i j k).isl = s.isl := rfl
@[simp] theorem bump_free (s : State) (f : Fld) (i : Nat) (j : Nat) (k : Nat) : (s.bump f i j k).free = s.free := rfl
@[simp] theorem bump_pending (s : State) (f : Fld) (i : Nat) (j : Nat) (k : Nat) : (s.bump f i j k).pending = s.pending := rfl

/-! `addTo` -/

@[simp] theorem addTo_act (s : State) (f : Fld) (n : Nat) (i : Nat) (j : Nat) (k : Nat) : (s.addTo f n i j k).act = s.act := rfl
@[simp] theorem addTo_bus (s : State) (f : Fld) (n : Nat) (i : Nat) (j : Nat) (k : Nat) : (s.addTo f n i j k).bus = s.bus := rfl
@[simp] theorem addTo_evq (s : State) (f : Fld) (n : Nat) (i : Nat) (j : Nat) (k : Nat) : (s.addTo f n i j k).evq = s.evq := rfl
@[simp] theorem addTo_logq (s : State) (f : Fld) (n : Nat) (i : Nat) (j : Nat) (k : Nat) : (s.addTo f n i j k).logq = s.logq := rfl
@[simp] theorem addTo_time (s : State) (f : Fld) (n : Nat) (i : Nat) (j : Nat) (k : Nat) : (s.addTo f n i j k).time = s.time := rfl
@[simp] theorem addTo_sec (s : State) (f : Fld) (n : Nat) (i : Nat) (j : Nat) (k : Nat) : (s.addTo f n i j k).sec = s.sec := rfl
@[simp] theorem addTo_otp (s : State) (f : Fld) (n : Nat) (i : Nat) (j : Nat) (k : Nat) : (s.addTo f n i j k).otp = s.otp := rfl
@[simp] theorem addTo_mem (s : State) (f : Fld) (n : Nat) (i : Nat) (j : Nat) (k : Nat) : (s.addTo f n i j k).mem = s.mem := rfl
@[simp] theorem addTo_hif (s : State) (f : Fld) (n : Nat) (i : Nat) (j : Nat) (k : Nat) : (s.addTo f n i j k).hif = s.hif := rfl
@[simp] theorem addTo_hostMem (s : State) (f : Fld) (n : Nat) (i : Nat) (j : Nat) (k : Nat) : (s.addTo f n i j k).hostMem = s.hostMem := rfl
@[simp] theorem addTo_hostBad (s : State) (f : Fld) (n : Nat) (i : Nat) (j : Nat) (k : Nat) : (s.addTo f n i j k).hostBad = s.hostBad := rfl
@[simp] theorem addTo_toHost (s : State) (f : Fld) (n : Nat) (i : Nat) (j : Nat) (k : Nat) : (s.addTo f n i j k).toHost = s.toHost := rfl
@[simp] theorem addTo_slc (s : State) (f : Fld) (n : Nat) (i : Nat) (j : Nat) (k : Nat) : (s.addTo f n i j k).slc = s.slc := rfl
@[simp] theorem addTo_rng (s : State) (f : Fld) (n : Nat) (i : Nat) (j : Nat) (k : Nat) : (s.addTo f n i j k).rng = s.rng := rfl
@[simp] theorem addTo_prt (s : State) (f : Fld) (n : Nat) (i : Nat) (j : Nat) (k : Nat) : (s.addTo f n i j k).prt = s.prt := rfl
@[simp] theorem addTo_wire (s : State) (f : Fld) (n : Nat) (i : Nat) (j : Nat) (k : Nat) : (s.addTo f n i j k).wire = s.wire := rfl
@[simp] theorem addTo_tbl (s : State) (f : Fld) (n : Nat) (i : Nat) (j : Nat) (k : Nat) : (s.addTo f n i j k).tbl = s.tbl := rfl
@[simp] theorem addTo_swc (s : State) (f : Fld) (n : Nat) (i : Nat) (j : Nat) (k : Nat) : (s.addTo f n i j k).swc = s.swc := rfl
@[simp] theorem addTo_links (s : State) (f : Fld) (n : Nat) (i : Nat) (j : Nat) (k : Nat) : (s.addTo f n i j k).links = s.links := rfl
@[simp] theorem addTo_socks (s : State) (f : Fld) (n : Nat) (i : Nat) (j : Nat) (k : Nat) : (s.addTo f n i j k).socks = s.socks := rfl
@[simp] theorem addTo_rdm (s : State) (f : Fld) (n : Nat) (i : Nat) (j : Nat) (k : Nat) : (s.addTo f n i j k).rdm = s.rdm := rfl
@[simp] theorem addTo_stq (s : State) (f : Fld) (n : Nat) (i : Nat) (j : Nat) (k : Nat) : (s.addTo f n i j k).stq = s.stq := rfl
@[simp] theorem addTo_pair (s : State) (f : Fld) (n : Nat) (i : Nat) (j : Nat) (k : Nat) : (s.addTo f n i j k).pair = s.pair := rfl
@[simp] theorem addTo_due (s : State) (f : Fld) (n : Nat) (i : Nat) (j : Nat) (k : Nat) : (s.addTo f n i j k).due = s.due := rfl
@[simp] theorem addTo_tm (s : State) (f : Fld) (n : Nat) (i : Nat) (j : Nat) (k : Nat) : (s.addTo f n i j k).tm = s.tm := rfl
@[simp] theorem addTo_l2 (s : State) (f : Fld) (n : Nat) (i : Nat) (j : Nat) (k : Nat) : (s.addTo f n i j k).l2 = s.l2 := rfl
@[simp] theorem addTo_fc (s : State) (f : Fld) (n : Nat) (i : Nat) (j : Nat) (k : Nat) : (s.addTo f n i j k).fc = s.fc := rfl
@[simp] theorem addTo_vlt (s : State) (f : Fld) (n : Nat) (i : Nat) (j : Nat) (k : Nat) : (s.addTo f n i j k).vlt = s.vlt := rfl
@[simp] theorem addTo_pmc (s : State) (f : Fld) (n : Nat) (i : Nat) (j : Nat) (k : Nat) : (s.addTo f n i j k).pmc = s.pmc := rfl
@[simp] theorem addTo_hlt (s : State) (f : Fld) (n : Nat) (i : Nat) (j : Nat) (k : Nat) : (s.addTo f n i j k).hlt = s.hlt := rfl
@[simp] theorem addTo_isl (s : State) (f : Fld) (n : Nat) (i : Nat) (j : Nat) (k : Nat) : (s.addTo f n i j k).isl = s.isl := rfl
@[simp] theorem addTo_free (s : State) (f : Fld) (n : Nat) (i : Nat) (j : Nat) (k : Nat) : (s.addTo f n i j k).free = s.free := rfl
@[simp] theorem addTo_pending (s : State) (f : Fld) (n : Nat) (i : Nat) (j : Nat) (k : Nat) : (s.addTo f n i j k).pending = s.pending := rfl

/-! `peak` -/

@[simp] theorem peak_act (s : State) (f : Fld) (v : Nat) (i : Nat) (j : Nat) (k : Nat) : (s.peak f v i j k).act = s.act := rfl
@[simp] theorem peak_bus (s : State) (f : Fld) (v : Nat) (i : Nat) (j : Nat) (k : Nat) : (s.peak f v i j k).bus = s.bus := rfl
@[simp] theorem peak_evq (s : State) (f : Fld) (v : Nat) (i : Nat) (j : Nat) (k : Nat) : (s.peak f v i j k).evq = s.evq := rfl
@[simp] theorem peak_logq (s : State) (f : Fld) (v : Nat) (i : Nat) (j : Nat) (k : Nat) : (s.peak f v i j k).logq = s.logq := rfl
@[simp] theorem peak_time (s : State) (f : Fld) (v : Nat) (i : Nat) (j : Nat) (k : Nat) : (s.peak f v i j k).time = s.time := rfl
@[simp] theorem peak_sec (s : State) (f : Fld) (v : Nat) (i : Nat) (j : Nat) (k : Nat) : (s.peak f v i j k).sec = s.sec := rfl
@[simp] theorem peak_otp (s : State) (f : Fld) (v : Nat) (i : Nat) (j : Nat) (k : Nat) : (s.peak f v i j k).otp = s.otp := rfl
@[simp] theorem peak_mem (s : State) (f : Fld) (v : Nat) (i : Nat) (j : Nat) (k : Nat) : (s.peak f v i j k).mem = s.mem := rfl
@[simp] theorem peak_hif (s : State) (f : Fld) (v : Nat) (i : Nat) (j : Nat) (k : Nat) : (s.peak f v i j k).hif = s.hif := rfl
@[simp] theorem peak_hostMem (s : State) (f : Fld) (v : Nat) (i : Nat) (j : Nat) (k : Nat) : (s.peak f v i j k).hostMem = s.hostMem := rfl
@[simp] theorem peak_hostBad (s : State) (f : Fld) (v : Nat) (i : Nat) (j : Nat) (k : Nat) : (s.peak f v i j k).hostBad = s.hostBad := rfl
@[simp] theorem peak_toHost (s : State) (f : Fld) (v : Nat) (i : Nat) (j : Nat) (k : Nat) : (s.peak f v i j k).toHost = s.toHost := rfl
@[simp] theorem peak_slc (s : State) (f : Fld) (v : Nat) (i : Nat) (j : Nat) (k : Nat) : (s.peak f v i j k).slc = s.slc := rfl
@[simp] theorem peak_rng (s : State) (f : Fld) (v : Nat) (i : Nat) (j : Nat) (k : Nat) : (s.peak f v i j k).rng = s.rng := rfl
@[simp] theorem peak_prt (s : State) (f : Fld) (v : Nat) (i : Nat) (j : Nat) (k : Nat) : (s.peak f v i j k).prt = s.prt := rfl
@[simp] theorem peak_wire (s : State) (f : Fld) (v : Nat) (i : Nat) (j : Nat) (k : Nat) : (s.peak f v i j k).wire = s.wire := rfl
@[simp] theorem peak_tbl (s : State) (f : Fld) (v : Nat) (i : Nat) (j : Nat) (k : Nat) : (s.peak f v i j k).tbl = s.tbl := rfl
@[simp] theorem peak_swc (s : State) (f : Fld) (v : Nat) (i : Nat) (j : Nat) (k : Nat) : (s.peak f v i j k).swc = s.swc := rfl
@[simp] theorem peak_links (s : State) (f : Fld) (v : Nat) (i : Nat) (j : Nat) (k : Nat) : (s.peak f v i j k).links = s.links := rfl
@[simp] theorem peak_socks (s : State) (f : Fld) (v : Nat) (i : Nat) (j : Nat) (k : Nat) : (s.peak f v i j k).socks = s.socks := rfl
@[simp] theorem peak_rdm (s : State) (f : Fld) (v : Nat) (i : Nat) (j : Nat) (k : Nat) : (s.peak f v i j k).rdm = s.rdm := rfl
@[simp] theorem peak_stq (s : State) (f : Fld) (v : Nat) (i : Nat) (j : Nat) (k : Nat) : (s.peak f v i j k).stq = s.stq := rfl
@[simp] theorem peak_pair (s : State) (f : Fld) (v : Nat) (i : Nat) (j : Nat) (k : Nat) : (s.peak f v i j k).pair = s.pair := rfl
@[simp] theorem peak_due (s : State) (f : Fld) (v : Nat) (i : Nat) (j : Nat) (k : Nat) : (s.peak f v i j k).due = s.due := rfl
@[simp] theorem peak_tm (s : State) (f : Fld) (v : Nat) (i : Nat) (j : Nat) (k : Nat) : (s.peak f v i j k).tm = s.tm := rfl
@[simp] theorem peak_l2 (s : State) (f : Fld) (v : Nat) (i : Nat) (j : Nat) (k : Nat) : (s.peak f v i j k).l2 = s.l2 := rfl
@[simp] theorem peak_fc (s : State) (f : Fld) (v : Nat) (i : Nat) (j : Nat) (k : Nat) : (s.peak f v i j k).fc = s.fc := rfl
@[simp] theorem peak_vlt (s : State) (f : Fld) (v : Nat) (i : Nat) (j : Nat) (k : Nat) : (s.peak f v i j k).vlt = s.vlt := rfl
@[simp] theorem peak_pmc (s : State) (f : Fld) (v : Nat) (i : Nat) (j : Nat) (k : Nat) : (s.peak f v i j k).pmc = s.pmc := rfl
@[simp] theorem peak_hlt (s : State) (f : Fld) (v : Nat) (i : Nat) (j : Nat) (k : Nat) : (s.peak f v i j k).hlt = s.hlt := rfl
@[simp] theorem peak_isl (s : State) (f : Fld) (v : Nat) (i : Nat) (j : Nat) (k : Nat) : (s.peak f v i j k).isl = s.isl := rfl
@[simp] theorem peak_free (s : State) (f : Fld) (v : Nat) (i : Nat) (j : Nat) (k : Nat) : (s.peak f v i j k).free = s.free := rfl
@[simp] theorem peak_pending (s : State) (f : Fld) (v : Nat) (i : Nat) (j : Nat) (k : Nat) : (s.peak f v i j k).pending = s.pending := rfl

/-! `acw` -/

@[simp] theorem acw_regs (s : State) (f : Fld) (v : Nat) (i : Nat) (j : Nat) (k : Nat) : (s.acw f v i j k).regs = s.regs := rfl
@[simp] theorem acw_bus (s : State) (f : Fld) (v : Nat) (i : Nat) (j : Nat) (k : Nat) : (s.acw f v i j k).bus = s.bus := rfl
@[simp] theorem acw_evq (s : State) (f : Fld) (v : Nat) (i : Nat) (j : Nat) (k : Nat) : (s.acw f v i j k).evq = s.evq := rfl
@[simp] theorem acw_logq (s : State) (f : Fld) (v : Nat) (i : Nat) (j : Nat) (k : Nat) : (s.acw f v i j k).logq = s.logq := rfl
@[simp] theorem acw_time (s : State) (f : Fld) (v : Nat) (i : Nat) (j : Nat) (k : Nat) : (s.acw f v i j k).time = s.time := rfl
@[simp] theorem acw_sec (s : State) (f : Fld) (v : Nat) (i : Nat) (j : Nat) (k : Nat) : (s.acw f v i j k).sec = s.sec := rfl
@[simp] theorem acw_otp (s : State) (f : Fld) (v : Nat) (i : Nat) (j : Nat) (k : Nat) : (s.acw f v i j k).otp = s.otp := rfl
@[simp] theorem acw_mem (s : State) (f : Fld) (v : Nat) (i : Nat) (j : Nat) (k : Nat) : (s.acw f v i j k).mem = s.mem := rfl
@[simp] theorem acw_hif (s : State) (f : Fld) (v : Nat) (i : Nat) (j : Nat) (k : Nat) : (s.acw f v i j k).hif = s.hif := rfl
@[simp] theorem acw_hostMem (s : State) (f : Fld) (v : Nat) (i : Nat) (j : Nat) (k : Nat) : (s.acw f v i j k).hostMem = s.hostMem := rfl
@[simp] theorem acw_hostBad (s : State) (f : Fld) (v : Nat) (i : Nat) (j : Nat) (k : Nat) : (s.acw f v i j k).hostBad = s.hostBad := rfl
@[simp] theorem acw_toHost (s : State) (f : Fld) (v : Nat) (i : Nat) (j : Nat) (k : Nat) : (s.acw f v i j k).toHost = s.toHost := rfl
@[simp] theorem acw_slc (s : State) (f : Fld) (v : Nat) (i : Nat) (j : Nat) (k : Nat) : (s.acw f v i j k).slc = s.slc := rfl
@[simp] theorem acw_rng (s : State) (f : Fld) (v : Nat) (i : Nat) (j : Nat) (k : Nat) : (s.acw f v i j k).rng = s.rng := rfl
@[simp] theorem acw_prt (s : State) (f : Fld) (v : Nat) (i : Nat) (j : Nat) (k : Nat) : (s.acw f v i j k).prt = s.prt := rfl
@[simp] theorem acw_wire (s : State) (f : Fld) (v : Nat) (i : Nat) (j : Nat) (k : Nat) : (s.acw f v i j k).wire = s.wire := rfl
@[simp] theorem acw_tbl (s : State) (f : Fld) (v : Nat) (i : Nat) (j : Nat) (k : Nat) : (s.acw f v i j k).tbl = s.tbl := rfl
@[simp] theorem acw_swc (s : State) (f : Fld) (v : Nat) (i : Nat) (j : Nat) (k : Nat) : (s.acw f v i j k).swc = s.swc := rfl
@[simp] theorem acw_links (s : State) (f : Fld) (v : Nat) (i : Nat) (j : Nat) (k : Nat) : (s.acw f v i j k).links = s.links := rfl
@[simp] theorem acw_socks (s : State) (f : Fld) (v : Nat) (i : Nat) (j : Nat) (k : Nat) : (s.acw f v i j k).socks = s.socks := rfl
@[simp] theorem acw_rdm (s : State) (f : Fld) (v : Nat) (i : Nat) (j : Nat) (k : Nat) : (s.acw f v i j k).rdm = s.rdm := rfl
@[simp] theorem acw_stq (s : State) (f : Fld) (v : Nat) (i : Nat) (j : Nat) (k : Nat) : (s.acw f v i j k).stq = s.stq := rfl
@[simp] theorem acw_pair (s : State) (f : Fld) (v : Nat) (i : Nat) (j : Nat) (k : Nat) : (s.acw f v i j k).pair = s.pair := rfl
@[simp] theorem acw_due (s : State) (f : Fld) (v : Nat) (i : Nat) (j : Nat) (k : Nat) : (s.acw f v i j k).due = s.due := rfl
@[simp] theorem acw_tm (s : State) (f : Fld) (v : Nat) (i : Nat) (j : Nat) (k : Nat) : (s.acw f v i j k).tm = s.tm := rfl
@[simp] theorem acw_l2 (s : State) (f : Fld) (v : Nat) (i : Nat) (j : Nat) (k : Nat) : (s.acw f v i j k).l2 = s.l2 := rfl
@[simp] theorem acw_fc (s : State) (f : Fld) (v : Nat) (i : Nat) (j : Nat) (k : Nat) : (s.acw f v i j k).fc = s.fc := rfl
@[simp] theorem acw_vlt (s : State) (f : Fld) (v : Nat) (i : Nat) (j : Nat) (k : Nat) : (s.acw f v i j k).vlt = s.vlt := rfl
@[simp] theorem acw_pmc (s : State) (f : Fld) (v : Nat) (i : Nat) (j : Nat) (k : Nat) : (s.acw f v i j k).pmc = s.pmc := rfl
@[simp] theorem acw_hlt (s : State) (f : Fld) (v : Nat) (i : Nat) (j : Nat) (k : Nat) : (s.acw f v i j k).hlt = s.hlt := rfl
@[simp] theorem acw_isl (s : State) (f : Fld) (v : Nat) (i : Nat) (j : Nat) (k : Nat) : (s.acw f v i j k).isl = s.isl := rfl
@[simp] theorem acw_free (s : State) (f : Fld) (v : Nat) (i : Nat) (j : Nat) (k : Nat) : (s.acw f v i j k).free = s.free := rfl
@[simp] theorem acw_pending (s : State) (f : Fld) (v : Nat) (i : Nat) (j : Nat) (k : Nat) : (s.acw f v i j k).pending = s.pending := rfl

/-! `event` -/

@[simp] theorem event_regs (s : State) (block inst code : Nat) (detail : List Byte) (slice : Nat) (toSlice : Nat) : (s.event block inst code detail slice toSlice).regs = s.regs := rfl
@[simp] theorem event_act (s : State) (block inst code : Nat) (detail : List Byte) (slice : Nat) (toSlice : Nat) : (s.event block inst code detail slice toSlice).act = s.act := rfl
@[simp] theorem event_bus (s : State) (block inst code : Nat) (detail : List Byte) (slice : Nat) (toSlice : Nat) : (s.event block inst code detail slice toSlice).bus = s.bus := rfl
@[simp] theorem event_logq (s : State) (block inst code : Nat) (detail : List Byte) (slice : Nat) (toSlice : Nat) : (s.event block inst code detail slice toSlice).logq = s.logq := rfl
@[simp] theorem event_time (s : State) (block inst code : Nat) (detail : List Byte) (slice : Nat) (toSlice : Nat) : (s.event block inst code detail slice toSlice).time = s.time := rfl
@[simp] theorem event_sec (s : State) (block inst code : Nat) (detail : List Byte) (slice : Nat) (toSlice : Nat) : (s.event block inst code detail slice toSlice).sec = s.sec := rfl
@[simp] theorem event_otp (s : State) (block inst code : Nat) (detail : List Byte) (slice : Nat) (toSlice : Nat) : (s.event block inst code detail slice toSlice).otp = s.otp := rfl
@[simp] theorem event_mem (s : State) (block inst code : Nat) (detail : List Byte) (slice : Nat) (toSlice : Nat) : (s.event block inst code detail slice toSlice).mem = s.mem := rfl
@[simp] theorem event_hif (s : State) (block inst code : Nat) (detail : List Byte) (slice : Nat) (toSlice : Nat) : (s.event block inst code detail slice toSlice).hif = s.hif := rfl
@[simp] theorem event_hostMem (s : State) (block inst code : Nat) (detail : List Byte) (slice : Nat) (toSlice : Nat) : (s.event block inst code detail slice toSlice).hostMem = s.hostMem := rfl
@[simp] theorem event_hostBad (s : State) (block inst code : Nat) (detail : List Byte) (slice : Nat) (toSlice : Nat) : (s.event block inst code detail slice toSlice).hostBad = s.hostBad := rfl
@[simp] theorem event_toHost (s : State) (block inst code : Nat) (detail : List Byte) (slice : Nat) (toSlice : Nat) : (s.event block inst code detail slice toSlice).toHost = s.toHost := rfl
@[simp] theorem event_slc (s : State) (block inst code : Nat) (detail : List Byte) (slice : Nat) (toSlice : Nat) : (s.event block inst code detail slice toSlice).slc = s.slc := rfl
@[simp] theorem event_rng (s : State) (block inst code : Nat) (detail : List Byte) (slice : Nat) (toSlice : Nat) : (s.event block inst code detail slice toSlice).rng = s.rng := rfl
@[simp] theorem event_prt (s : State) (block inst code : Nat) (detail : List Byte) (slice : Nat) (toSlice : Nat) : (s.event block inst code detail slice toSlice).prt = s.prt := rfl
@[simp] theorem event_wire (s : State) (block inst code : Nat) (detail : List Byte) (slice : Nat) (toSlice : Nat) : (s.event block inst code detail slice toSlice).wire = s.wire := rfl
@[simp] theorem event_tbl (s : State) (block inst code : Nat) (detail : List Byte) (slice : Nat) (toSlice : Nat) : (s.event block inst code detail slice toSlice).tbl = s.tbl := rfl
@[simp] theorem event_swc (s : State) (block inst code : Nat) (detail : List Byte) (slice : Nat) (toSlice : Nat) : (s.event block inst code detail slice toSlice).swc = s.swc := rfl
@[simp] theorem event_links (s : State) (block inst code : Nat) (detail : List Byte) (slice : Nat) (toSlice : Nat) : (s.event block inst code detail slice toSlice).links = s.links := rfl
@[simp] theorem event_socks (s : State) (block inst code : Nat) (detail : List Byte) (slice : Nat) (toSlice : Nat) : (s.event block inst code detail slice toSlice).socks = s.socks := rfl
@[simp] theorem event_rdm (s : State) (block inst code : Nat) (detail : List Byte) (slice : Nat) (toSlice : Nat) : (s.event block inst code detail slice toSlice).rdm = s.rdm := rfl
@[simp] theorem event_stq (s : State) (block inst code : Nat) (detail : List Byte) (slice : Nat) (toSlice : Nat) : (s.event block inst code detail slice toSlice).stq = s.stq := rfl
@[simp] theorem event_pair (s : State) (block inst code : Nat) (detail : List Byte) (slice : Nat) (toSlice : Nat) : (s.event block inst code detail slice toSlice).pair = s.pair := rfl
@[simp] theorem event_due (s : State) (block inst code : Nat) (detail : List Byte) (slice : Nat) (toSlice : Nat) : (s.event block inst code detail slice toSlice).due = s.due := rfl
@[simp] theorem event_tm (s : State) (block inst code : Nat) (detail : List Byte) (slice : Nat) (toSlice : Nat) : (s.event block inst code detail slice toSlice).tm = s.tm := rfl
@[simp] theorem event_l2 (s : State) (block inst code : Nat) (detail : List Byte) (slice : Nat) (toSlice : Nat) : (s.event block inst code detail slice toSlice).l2 = s.l2 := rfl
@[simp] theorem event_fc (s : State) (block inst code : Nat) (detail : List Byte) (slice : Nat) (toSlice : Nat) : (s.event block inst code detail slice toSlice).fc = s.fc := rfl
@[simp] theorem event_vlt (s : State) (block inst code : Nat) (detail : List Byte) (slice : Nat) (toSlice : Nat) : (s.event block inst code detail slice toSlice).vlt = s.vlt := rfl
@[simp] theorem event_pmc (s : State) (block inst code : Nat) (detail : List Byte) (slice : Nat) (toSlice : Nat) : (s.event block inst code detail slice toSlice).pmc = s.pmc := rfl
@[simp] theorem event_hlt (s : State) (block inst code : Nat) (detail : List Byte) (slice : Nat) (toSlice : Nat) : (s.event block inst code detail slice toSlice).hlt = s.hlt := rfl
@[simp] theorem event_isl (s : State) (block inst code : Nat) (detail : List Byte) (slice : Nat) (toSlice : Nat) : (s.event block inst code detail slice toSlice).isl = s.isl := rfl
@[simp] theorem event_free (s : State) (block inst code : Nat) (detail : List Byte) (slice : Nat) (toSlice : Nat) : (s.event block inst code detail slice toSlice).free = s.free := rfl
@[simp] theorem event_pending (s : State) (block inst code : Nat) (detail : List Byte) (slice : Nat) (toSlice : Nat) : (s.event block inst code detail slice toSlice).pending = s.pending := rfl

/-! `logEvent` -/

@[simp] theorem logEvent_regs (s : State) (block inst code : Nat) (detail : List Byte) (slice : Nat) : (s.logEvent block inst code detail slice).regs = s.regs := rfl
@[simp] theorem logEvent_act (s : State) (block inst code : Nat) (detail : List Byte) (slice : Nat) : (s.logEvent block inst code detail slice).act = s.act := rfl
@[simp] theorem logEvent_bus (s : State) (block inst code : Nat) (detail : List Byte) (slice : Nat) : (s.logEvent block inst code detail slice).bus = s.bus := rfl
@[simp] theorem logEvent_evq (s : State) (block inst code : Nat) (detail : List Byte) (slice : Nat) : (s.logEvent block inst code detail slice).evq = s.evq := rfl
@[simp] theorem logEvent_time (s : State) (block inst code : Nat) (detail : List Byte) (slice : Nat) : (s.logEvent block inst code detail slice).time = s.time := rfl
@[simp] theorem logEvent_sec (s : State) (block inst code : Nat) (detail : List Byte) (slice : Nat) : (s.logEvent block inst code detail slice).sec = s.sec := rfl
@[simp] theorem logEvent_otp (s : State) (block inst code : Nat) (detail : List Byte) (slice : Nat) : (s.logEvent block inst code detail slice).otp = s.otp := rfl
@[simp] theorem logEvent_mem (s : State) (block inst code : Nat) (detail : List Byte) (slice : Nat) : (s.logEvent block inst code detail slice).mem = s.mem := rfl
@[simp] theorem logEvent_hif (s : State) (block inst code : Nat) (detail : List Byte) (slice : Nat) : (s.logEvent block inst code detail slice).hif = s.hif := rfl
@[simp] theorem logEvent_hostMem (s : State) (block inst code : Nat) (detail : List Byte) (slice : Nat) : (s.logEvent block inst code detail slice).hostMem = s.hostMem := rfl
@[simp] theorem logEvent_hostBad (s : State) (block inst code : Nat) (detail : List Byte) (slice : Nat) : (s.logEvent block inst code detail slice).hostBad = s.hostBad := rfl
@[simp] theorem logEvent_toHost (s : State) (block inst code : Nat) (detail : List Byte) (slice : Nat) : (s.logEvent block inst code detail slice).toHost = s.toHost := rfl
@[simp] theorem logEvent_slc (s : State) (block inst code : Nat) (detail : List Byte) (slice : Nat) : (s.logEvent block inst code detail slice).slc = s.slc := rfl
@[simp] theorem logEvent_rng (s : State) (block inst code : Nat) (detail : List Byte) (slice : Nat) : (s.logEvent block inst code detail slice).rng = s.rng := rfl
@[simp] theorem logEvent_prt (s : State) (block inst code : Nat) (detail : List Byte) (slice : Nat) : (s.logEvent block inst code detail slice).prt = s.prt := rfl
@[simp] theorem logEvent_wire (s : State) (block inst code : Nat) (detail : List Byte) (slice : Nat) : (s.logEvent block inst code detail slice).wire = s.wire := rfl
@[simp] theorem logEvent_tbl (s : State) (block inst code : Nat) (detail : List Byte) (slice : Nat) : (s.logEvent block inst code detail slice).tbl = s.tbl := rfl
@[simp] theorem logEvent_swc (s : State) (block inst code : Nat) (detail : List Byte) (slice : Nat) : (s.logEvent block inst code detail slice).swc = s.swc := rfl
@[simp] theorem logEvent_links (s : State) (block inst code : Nat) (detail : List Byte) (slice : Nat) : (s.logEvent block inst code detail slice).links = s.links := rfl
@[simp] theorem logEvent_socks (s : State) (block inst code : Nat) (detail : List Byte) (slice : Nat) : (s.logEvent block inst code detail slice).socks = s.socks := rfl
@[simp] theorem logEvent_rdm (s : State) (block inst code : Nat) (detail : List Byte) (slice : Nat) : (s.logEvent block inst code detail slice).rdm = s.rdm := rfl
@[simp] theorem logEvent_stq (s : State) (block inst code : Nat) (detail : List Byte) (slice : Nat) : (s.logEvent block inst code detail slice).stq = s.stq := rfl
@[simp] theorem logEvent_pair (s : State) (block inst code : Nat) (detail : List Byte) (slice : Nat) : (s.logEvent block inst code detail slice).pair = s.pair := rfl
@[simp] theorem logEvent_due (s : State) (block inst code : Nat) (detail : List Byte) (slice : Nat) : (s.logEvent block inst code detail slice).due = s.due := rfl
@[simp] theorem logEvent_tm (s : State) (block inst code : Nat) (detail : List Byte) (slice : Nat) : (s.logEvent block inst code detail slice).tm = s.tm := rfl
@[simp] theorem logEvent_l2 (s : State) (block inst code : Nat) (detail : List Byte) (slice : Nat) : (s.logEvent block inst code detail slice).l2 = s.l2 := rfl
@[simp] theorem logEvent_fc (s : State) (block inst code : Nat) (detail : List Byte) (slice : Nat) : (s.logEvent block inst code detail slice).fc = s.fc := rfl
@[simp] theorem logEvent_vlt (s : State) (block inst code : Nat) (detail : List Byte) (slice : Nat) : (s.logEvent block inst code detail slice).vlt = s.vlt := rfl
@[simp] theorem logEvent_pmc (s : State) (block inst code : Nat) (detail : List Byte) (slice : Nat) : (s.logEvent block inst code detail slice).pmc = s.pmc := rfl
@[simp] theorem logEvent_hlt (s : State) (block inst code : Nat) (detail : List Byte) (slice : Nat) : (s.logEvent block inst code detail slice).hlt = s.hlt := rfl
@[simp] theorem logEvent_isl (s : State) (block inst code : Nat) (detail : List Byte) (slice : Nat) : (s.logEvent block inst code detail slice).isl = s.isl := rfl
@[simp] theorem logEvent_free (s : State) (block inst code : Nat) (detail : List Byte) (slice : Nat) : (s.logEvent block inst code detail slice).free = s.free := rfl
@[simp] theorem logEvent_pending (s : State) (block inst code : Nat) (detail : List Byte) (slice : Nat) : (s.logEvent block inst code detail slice).pending = s.pending := rfl

/-! `eventBoth` -/

@[simp] theorem eventBoth_regs (s : State) (block inst code : Nat) (detail : List Byte) (slice : Nat) : (s.eventBoth block inst code detail slice).regs = s.regs := rfl
@[simp] theorem eventBoth_act (s : State) (block inst code : Nat) (detail : List Byte) (slice : Nat) : (s.eventBoth block inst code detail slice).act = s.act := rfl
@[simp] theorem eventBoth_bus (s : State) (block inst code : Nat) (detail : List Byte) (slice : Nat) : (s.eventBoth block inst code detail slice).bus = s.bus := rfl
@[simp] theorem eventBoth_time (s : State) (block inst code : Nat) (detail : List Byte) (slice : Nat) : (s.eventBoth block inst code detail slice).time = s.time := rfl
@[simp] theorem eventBoth_sec (s : State) (block inst code : Nat) (detail : List Byte) (slice : Nat) : (s.eventBoth block inst code detail slice).sec = s.sec := rfl
@[simp] theorem eventBoth_otp (s : State) (block inst code : Nat) (detail : List Byte) (slice : Nat) : (s.eventBoth block inst code detail slice).otp = s.otp := rfl
@[simp] theorem eventBoth_mem (s : State) (block inst code : Nat) (detail : List Byte) (slice : Nat) : (s.eventBoth block inst code detail slice).mem = s.mem := rfl
@[simp] theorem eventBoth_hif (s : State) (block inst code : Nat) (detail : List Byte) (slice : Nat) : (s.eventBoth block inst code detail slice).hif = s.hif := rfl
@[simp] theorem eventBoth_hostMem (s : State) (block inst code : Nat) (detail : List Byte) (slice : Nat) : (s.eventBoth block inst code detail slice).hostMem = s.hostMem := rfl
@[simp] theorem eventBoth_hostBad (s : State) (block inst code : Nat) (detail : List Byte) (slice : Nat) : (s.eventBoth block inst code detail slice).hostBad = s.hostBad := rfl
@[simp] theorem eventBoth_toHost (s : State) (block inst code : Nat) (detail : List Byte) (slice : Nat) : (s.eventBoth block inst code detail slice).toHost = s.toHost := rfl
@[simp] theorem eventBoth_slc (s : State) (block inst code : Nat) (detail : List Byte) (slice : Nat) : (s.eventBoth block inst code detail slice).slc = s.slc := rfl
@[simp] theorem eventBoth_rng (s : State) (block inst code : Nat) (detail : List Byte) (slice : Nat) : (s.eventBoth block inst code detail slice).rng = s.rng := rfl
@[simp] theorem eventBoth_prt (s : State) (block inst code : Nat) (detail : List Byte) (slice : Nat) : (s.eventBoth block inst code detail slice).prt = s.prt := rfl
@[simp] theorem eventBoth_wire (s : State) (block inst code : Nat) (detail : List Byte) (slice : Nat) : (s.eventBoth block inst code detail slice).wire = s.wire := rfl
@[simp] theorem eventBoth_tbl (s : State) (block inst code : Nat) (detail : List Byte) (slice : Nat) : (s.eventBoth block inst code detail slice).tbl = s.tbl := rfl
@[simp] theorem eventBoth_swc (s : State) (block inst code : Nat) (detail : List Byte) (slice : Nat) : (s.eventBoth block inst code detail slice).swc = s.swc := rfl
@[simp] theorem eventBoth_links (s : State) (block inst code : Nat) (detail : List Byte) (slice : Nat) : (s.eventBoth block inst code detail slice).links = s.links := rfl
@[simp] theorem eventBoth_socks (s : State) (block inst code : Nat) (detail : List Byte) (slice : Nat) : (s.eventBoth block inst code detail slice).socks = s.socks := rfl
@[simp] theorem eventBoth_rdm (s : State) (block inst code : Nat) (detail : List Byte) (slice : Nat) : (s.eventBoth block inst code detail slice).rdm = s.rdm := rfl
@[simp] theorem eventBoth_stq (s : State) (block inst code : Nat) (detail : List Byte) (slice : Nat) : (s.eventBoth block inst code detail slice).stq = s.stq := rfl
@[simp] theorem eventBoth_pair (s : State) (block inst code : Nat) (detail : List Byte) (slice : Nat) : (s.eventBoth block inst code detail slice).pair = s.pair := rfl
@[simp] theorem eventBoth_due (s : State) (block inst code : Nat) (detail : List Byte) (slice : Nat) : (s.eventBoth block inst code detail slice).due = s.due := rfl
@[simp] theorem eventBoth_tm (s : State) (block inst code : Nat) (detail : List Byte) (slice : Nat) : (s.eventBoth block inst code detail slice).tm = s.tm := rfl
@[simp] theorem eventBoth_l2 (s : State) (block inst code : Nat) (detail : List Byte) (slice : Nat) : (s.eventBoth block inst code detail slice).l2 = s.l2 := rfl
@[simp] theorem eventBoth_fc (s : State) (block inst code : Nat) (detail : List Byte) (slice : Nat) : (s.eventBoth block inst code detail slice).fc = s.fc := rfl
@[simp] theorem eventBoth_vlt (s : State) (block inst code : Nat) (detail : List Byte) (slice : Nat) : (s.eventBoth block inst code detail slice).vlt = s.vlt := rfl
@[simp] theorem eventBoth_pmc (s : State) (block inst code : Nat) (detail : List Byte) (slice : Nat) : (s.eventBoth block inst code detail slice).pmc = s.pmc := rfl
@[simp] theorem eventBoth_hlt (s : State) (block inst code : Nat) (detail : List Byte) (slice : Nat) : (s.eventBoth block inst code detail slice).hlt = s.hlt := rfl
@[simp] theorem eventBoth_isl (s : State) (block inst code : Nat) (detail : List Byte) (slice : Nat) : (s.eventBoth block inst code detail slice).isl = s.isl := rfl
@[simp] theorem eventBoth_free (s : State) (block inst code : Nat) (detail : List Byte) (slice : Nat) : (s.eventBoth block inst code detail slice).free = s.free := rfl
@[simp] theorem eventBoth_pending (s : State) (block inst code : Nat) (detail : List Byte) (slice : Nat) : (s.eventBoth block inst code detail slice).pending = s.pending := rfl

/-! `settle` -/

@[simp] theorem settle_regs (s t : State) : (s.settle t).regs = t.regs := rfl
@[simp] theorem settle_act (s t : State) : (s.settle t).act = t.act := rfl
@[simp] theorem settle_bus (s t : State) : (s.settle t).bus = t.bus := rfl
@[simp] theorem settle_evq (s t : State) : (s.settle t).evq = t.evq := rfl
@[simp] theorem settle_logq (s t : State) : (s.settle t).logq = t.logq := rfl
@[simp] theorem settle_time (s t : State) : (s.settle t).time = t.time := rfl
@[simp] theorem settle_sec (s t : State) : (s.settle t).sec = t.sec := rfl
@[simp] theorem settle_mem (s t : State) : (s.settle t).mem = t.mem := rfl
@[simp] theorem settle_hif (s t : State) : (s.settle t).hif = t.hif := rfl
@[simp] theorem settle_hostMem (s t : State) : (s.settle t).hostMem = t.hostMem := rfl
@[simp] theorem settle_hostBad (s t : State) : (s.settle t).hostBad = t.hostBad := rfl
@[simp] theorem settle_toHost (s t : State) : (s.settle t).toHost = t.toHost := rfl
@[simp] theorem settle_slc (s t : State) : (s.settle t).slc = t.slc := rfl
@[simp] theorem settle_rng (s t : State) : (s.settle t).rng = t.rng := rfl
@[simp] theorem settle_prt (s t : State) : (s.settle t).prt = t.prt := rfl
@[simp] theorem settle_wire (s t : State) : (s.settle t).wire = t.wire := rfl
@[simp] theorem settle_tbl (s t : State) : (s.settle t).tbl = t.tbl := rfl
@[simp] theorem settle_swc (s t : State) : (s.settle t).swc = t.swc := rfl
@[simp] theorem settle_links (s t : State) : (s.settle t).links = t.links := rfl
@[simp] theorem settle_socks (s t : State) : (s.settle t).socks = t.socks := rfl
@[simp] theorem settle_rdm (s t : State) : (s.settle t).rdm = t.rdm := rfl
@[simp] theorem settle_stq (s t : State) : (s.settle t).stq = t.stq := rfl
@[simp] theorem settle_pair (s t : State) : (s.settle t).pair = t.pair := rfl
@[simp] theorem settle_due (s t : State) : (s.settle t).due = t.due := rfl
@[simp] theorem settle_tm (s t : State) : (s.settle t).tm = t.tm := rfl
@[simp] theorem settle_l2 (s t : State) : (s.settle t).l2 = t.l2 := rfl
@[simp] theorem settle_fc (s t : State) : (s.settle t).fc = t.fc := rfl
@[simp] theorem settle_vlt (s t : State) : (s.settle t).vlt = t.vlt := rfl
@[simp] theorem settle_pmc (s t : State) : (s.settle t).pmc = t.pmc := rfl
@[simp] theorem settle_hlt (s t : State) : (s.settle t).hlt = t.hlt := rfl
@[simp] theorem settle_isl (s t : State) : (s.settle t).isl = t.isl := rfl
@[simp] theorem settle_free (s t : State) : (s.settle t).free = t.free := rfl

/-! `sendHost` -/

@[simp] theorem sendHost_regs (s : State) (m : HostMsg) : (s.sendHost m).regs = s.regs := rfl
@[simp] theorem sendHost_act (s : State) (m : HostMsg) : (s.sendHost m).act = s.act := rfl
@[simp] theorem sendHost_bus (s : State) (m : HostMsg) : (s.sendHost m).bus = s.bus := rfl
@[simp] theorem sendHost_evq (s : State) (m : HostMsg) : (s.sendHost m).evq = s.evq := rfl
@[simp] theorem sendHost_logq (s : State) (m : HostMsg) : (s.sendHost m).logq = s.logq := rfl
@[simp] theorem sendHost_time (s : State) (m : HostMsg) : (s.sendHost m).time = s.time := rfl
@[simp] theorem sendHost_sec (s : State) (m : HostMsg) : (s.sendHost m).sec = s.sec := rfl
@[simp] theorem sendHost_otp (s : State) (m : HostMsg) : (s.sendHost m).otp = s.otp := rfl
@[simp] theorem sendHost_mem (s : State) (m : HostMsg) : (s.sendHost m).mem = s.mem := rfl
@[simp] theorem sendHost_hif (s : State) (m : HostMsg) : (s.sendHost m).hif = s.hif := rfl
@[simp] theorem sendHost_hostMem (s : State) (m : HostMsg) : (s.sendHost m).hostMem = s.hostMem := rfl
@[simp] theorem sendHost_hostBad (s : State) (m : HostMsg) : (s.sendHost m).hostBad = s.hostBad := rfl
@[simp] theorem sendHost_slc (s : State) (m : HostMsg) : (s.sendHost m).slc = s.slc := rfl
@[simp] theorem sendHost_rng (s : State) (m : HostMsg) : (s.sendHost m).rng = s.rng := rfl
@[simp] theorem sendHost_prt (s : State) (m : HostMsg) : (s.sendHost m).prt = s.prt := rfl
@[simp] theorem sendHost_wire (s : State) (m : HostMsg) : (s.sendHost m).wire = s.wire := rfl
@[simp] theorem sendHost_tbl (s : State) (m : HostMsg) : (s.sendHost m).tbl = s.tbl := rfl
@[simp] theorem sendHost_swc (s : State) (m : HostMsg) : (s.sendHost m).swc = s.swc := rfl
@[simp] theorem sendHost_links (s : State) (m : HostMsg) : (s.sendHost m).links = s.links := rfl
@[simp] theorem sendHost_socks (s : State) (m : HostMsg) : (s.sendHost m).socks = s.socks := rfl
@[simp] theorem sendHost_rdm (s : State) (m : HostMsg) : (s.sendHost m).rdm = s.rdm := rfl
@[simp] theorem sendHost_stq (s : State) (m : HostMsg) : (s.sendHost m).stq = s.stq := rfl
@[simp] theorem sendHost_pair (s : State) (m : HostMsg) : (s.sendHost m).pair = s.pair := rfl
@[simp] theorem sendHost_due (s : State) (m : HostMsg) : (s.sendHost m).due = s.due := rfl
@[simp] theorem sendHost_tm (s : State) (m : HostMsg) : (s.sendHost m).tm = s.tm := rfl
@[simp] theorem sendHost_l2 (s : State) (m : HostMsg) : (s.sendHost m).l2 = s.l2 := rfl
@[simp] theorem sendHost_fc (s : State) (m : HostMsg) : (s.sendHost m).fc = s.fc := rfl
@[simp] theorem sendHost_vlt (s : State) (m : HostMsg) : (s.sendHost m).vlt = s.vlt := rfl
@[simp] theorem sendHost_pmc (s : State) (m : HostMsg) : (s.sendHost m).pmc = s.pmc := rfl
@[simp] theorem sendHost_hlt (s : State) (m : HostMsg) : (s.sendHost m).hlt = s.hlt := rfl
@[simp] theorem sendHost_isl (s : State) (m : HostMsg) : (s.sendHost m).isl = s.isl := rfl
@[simp] theorem sendHost_free (s : State) (m : HostMsg) : (s.sendHost m).free = s.free := rfl
@[simp] theorem sendHost_pending (s : State) (m : HostMsg) : (s.sendHost m).pending = s.pending := rfl

/-! `setHart` -/

@[simp] theorem setHart_regs (s : State) (h : Nat) (x : Hart) : (s.setHart h x).regs = s.regs := rfl
@[simp] theorem setHart_act (s : State) (h : Nat) (x : Hart) : (s.setHart h x).act = s.act := rfl
@[simp] theorem setHart_bus (s : State) (h : Nat) (x : Hart) : (s.setHart h x).bus = s.bus := rfl
@[simp] theorem setHart_evq (s : State) (h : Nat) (x : Hart) : (s.setHart h x).evq = s.evq := rfl
@[simp] theorem setHart_logq (s : State) (h : Nat) (x : Hart) : (s.setHart h x).logq = s.logq := rfl
@[simp] theorem setHart_time (s : State) (h : Nat) (x : Hart) : (s.setHart h x).time = s.time := rfl
@[simp] theorem setHart_sec (s : State) (h : Nat) (x : Hart) : (s.setHart h x).sec = s.sec := rfl
@[simp] theorem setHart_otp (s : State) (h : Nat) (x : Hart) : (s.setHart h x).otp = s.otp := rfl
@[simp] theorem setHart_mem (s : State) (h : Nat) (x : Hart) : (s.setHart h x).mem = s.mem := rfl
@[simp] theorem setHart_hif (s : State) (h : Nat) (x : Hart) : (s.setHart h x).hif = s.hif := rfl
@[simp] theorem setHart_hostMem (s : State) (h : Nat) (x : Hart) : (s.setHart h x).hostMem = s.hostMem := rfl
@[simp] theorem setHart_hostBad (s : State) (h : Nat) (x : Hart) : (s.setHart h x).hostBad = s.hostBad := rfl
@[simp] theorem setHart_toHost (s : State) (h : Nat) (x : Hart) : (s.setHart h x).toHost = s.toHost := rfl
@[simp] theorem setHart_slc (s : State) (h : Nat) (x : Hart) : (s.setHart h x).slc = s.slc := rfl
@[simp] theorem setHart_rng (s : State) (h : Nat) (x : Hart) : (s.setHart h x).rng = s.rng := rfl
@[simp] theorem setHart_prt (s : State) (h : Nat) (x : Hart) : (s.setHart h x).prt = s.prt := rfl
@[simp] theorem setHart_wire (s : State) (h : Nat) (x : Hart) : (s.setHart h x).wire = s.wire := rfl
@[simp] theorem setHart_tbl (s : State) (h : Nat) (x : Hart) : (s.setHart h x).tbl = s.tbl := rfl
@[simp] theorem setHart_swc (s : State) (h : Nat) (x : Hart) : (s.setHart h x).swc = s.swc := rfl
@[simp] theorem setHart_links (s : State) (h : Nat) (x : Hart) : (s.setHart h x).links = s.links := rfl
@[simp] theorem setHart_socks (s : State) (h : Nat) (x : Hart) : (s.setHart h x).socks = s.socks := rfl
@[simp] theorem setHart_rdm (s : State) (h : Nat) (x : Hart) : (s.setHart h x).rdm = s.rdm := rfl
@[simp] theorem setHart_stq (s : State) (h : Nat) (x : Hart) : (s.setHart h x).stq = s.stq := rfl
@[simp] theorem setHart_pair (s : State) (h : Nat) (x : Hart) : (s.setHart h x).pair = s.pair := rfl
@[simp] theorem setHart_due (s : State) (h : Nat) (x : Hart) : (s.setHart h x).due = s.due := rfl
@[simp] theorem setHart_tm (s : State) (h : Nat) (x : Hart) : (s.setHart h x).tm = s.tm := rfl
@[simp] theorem setHart_l2 (s : State) (h : Nat) (x : Hart) : (s.setHart h x).l2 = s.l2 := rfl
@[simp] theorem setHart_vlt (s : State) (h : Nat) (x : Hart) : (s.setHart h x).vlt = s.vlt := rfl
@[simp] theorem setHart_pmc (s : State) (h : Nat) (x : Hart) : (s.setHart h x).pmc = s.pmc := rfl
@[simp] theorem setHart_hlt (s : State) (h : Nat) (x : Hart) : (s.setHart h x).hlt = s.hlt := rfl
@[simp] theorem setHart_isl (s : State) (h : Nat) (x : Hart) : (s.setHart h x).isl = s.isl := rfl
@[simp] theorem setHart_free (s : State) (h : Nat) (x : Hart) : (s.setHart h x).free = s.free := rfl
@[simp] theorem setHart_pending (s : State) (h : Nat) (x : Hart) : (s.setHart h x).pending = s.pending := rfl

/-! `modHart` -/

@[simp] theorem modHart_regs (s : State) (h : Nat) (f : Hart → Hart) : (s.modHart h f).regs = s.regs := rfl
@[simp] theorem modHart_act (s : State) (h : Nat) (f : Hart → Hart) : (s.modHart h f).act = s.act := rfl
@[simp] theorem modHart_bus (s : State) (h : Nat) (f : Hart → Hart) : (s.modHart h f).bus = s.bus := rfl
@[simp] theorem modHart_evq (s : State) (h : Nat) (f : Hart → Hart) : (s.modHart h f).evq = s.evq := rfl
@[simp] theorem modHart_logq (s : State) (h : Nat) (f : Hart → Hart) : (s.modHart h f).logq = s.logq := rfl
@[simp] theorem modHart_time (s : State) (h : Nat) (f : Hart → Hart) : (s.modHart h f).time = s.time := rfl
@[simp] theorem modHart_sec (s : State) (h : Nat) (f : Hart → Hart) : (s.modHart h f).sec = s.sec := rfl
@[simp] theorem modHart_otp (s : State) (h : Nat) (f : Hart → Hart) : (s.modHart h f).otp = s.otp := rfl
@[simp] theorem modHart_mem (s : State) (h : Nat) (f : Hart → Hart) : (s.modHart h f).mem = s.mem := rfl
@[simp] theorem modHart_hif (s : State) (h : Nat) (f : Hart → Hart) : (s.modHart h f).hif = s.hif := rfl
@[simp] theorem modHart_hostMem (s : State) (h : Nat) (f : Hart → Hart) : (s.modHart h f).hostMem = s.hostMem := rfl
@[simp] theorem modHart_hostBad (s : State) (h : Nat) (f : Hart → Hart) : (s.modHart h f).hostBad = s.hostBad := rfl
@[simp] theorem modHart_toHost (s : State) (h : Nat) (f : Hart → Hart) : (s.modHart h f).toHost = s.toHost := rfl
@[simp] theorem modHart_slc (s : State) (h : Nat) (f : Hart → Hart) : (s.modHart h f).slc = s.slc := rfl
@[simp] theorem modHart_rng (s : State) (h : Nat) (f : Hart → Hart) : (s.modHart h f).rng = s.rng := rfl
@[simp] theorem modHart_prt (s : State) (h : Nat) (f : Hart → Hart) : (s.modHart h f).prt = s.prt := rfl
@[simp] theorem modHart_wire (s : State) (h : Nat) (f : Hart → Hart) : (s.modHart h f).wire = s.wire := rfl
@[simp] theorem modHart_tbl (s : State) (h : Nat) (f : Hart → Hart) : (s.modHart h f).tbl = s.tbl := rfl
@[simp] theorem modHart_swc (s : State) (h : Nat) (f : Hart → Hart) : (s.modHart h f).swc = s.swc := rfl
@[simp] theorem modHart_links (s : State) (h : Nat) (f : Hart → Hart) : (s.modHart h f).links = s.links := rfl
@[simp] theorem modHart_socks (s : State) (h : Nat) (f : Hart → Hart) : (s.modHart h f).socks = s.socks := rfl
@[simp] theorem modHart_rdm (s : State) (h : Nat) (f : Hart → Hart) : (s.modHart h f).rdm = s.rdm := rfl
@[simp] theorem modHart_stq (s : State) (h : Nat) (f : Hart → Hart) : (s.modHart h f).stq = s.stq := rfl
@[simp] theorem modHart_pair (s : State) (h : Nat) (f : Hart → Hart) : (s.modHart h f).pair = s.pair := rfl
@[simp] theorem modHart_due (s : State) (h : Nat) (f : Hart → Hart) : (s.modHart h f).due = s.due := rfl
@[simp] theorem modHart_tm (s : State) (h : Nat) (f : Hart → Hart) : (s.modHart h f).tm = s.tm := rfl
@[simp] theorem modHart_l2 (s : State) (h : Nat) (f : Hart → Hart) : (s.modHart h f).l2 = s.l2 := rfl
@[simp] theorem modHart_vlt (s : State) (h : Nat) (f : Hart → Hart) : (s.modHart h f).vlt = s.vlt := rfl
@[simp] theorem modHart_pmc (s : State) (h : Nat) (f : Hart → Hart) : (s.modHart h f).pmc = s.pmc := rfl
@[simp] theorem modHart_hlt (s : State) (h : Nat) (f : Hart → Hart) : (s.modHart h f).hlt = s.hlt := rfl
@[simp] theorem modHart_isl (s : State) (h : Nat) (f : Hart → Hart) : (s.modHart h f).isl = s.isl := rfl
@[simp] theorem modHart_free (s : State) (h : Nat) (f : Hart → Hart) : (s.modHart h f).free = s.free := rfl
@[simp] theorem modHart_pending (s : State) (h : Nat) (f : Hart → Hart) : (s.modHart h f).pending = s.pending := rfl

/-! `setFunc` -/

@[simp] theorem setFunc_regs (s : State) (fn : Nat) (f : Func) : (s.setFunc fn f).regs = s.regs := rfl
@[simp] theorem setFunc_act (s : State) (fn : Nat) (f : Func) : (s.setFunc fn f).act = s.act := rfl
@[simp] theorem setFunc_bus (s : State) (fn : Nat) (f : Func) : (s.setFunc fn f).bus = s.bus := rfl
@[simp] theorem setFunc_evq (s : State) (fn : Nat) (f : Func) : (s.setFunc fn f).evq = s.evq := rfl
@[simp] theorem setFunc_logq (s : State) (fn : Nat) (f : Func) : (s.setFunc fn f).logq = s.logq := rfl
@[simp] theorem setFunc_time (s : State) (fn : Nat) (f : Func) : (s.setFunc fn f).time = s.time := rfl
@[simp] theorem setFunc_sec (s : State) (fn : Nat) (f : Func) : (s.setFunc fn f).sec = s.sec := rfl
@[simp] theorem setFunc_otp (s : State) (fn : Nat) (f : Func) : (s.setFunc fn f).otp = s.otp := rfl
@[simp] theorem setFunc_mem (s : State) (fn : Nat) (f : Func) : (s.setFunc fn f).mem = s.mem := rfl
@[simp] theorem setFunc_hostMem (s : State) (fn : Nat) (f : Func) : (s.setFunc fn f).hostMem = s.hostMem := rfl
@[simp] theorem setFunc_hostBad (s : State) (fn : Nat) (f : Func) : (s.setFunc fn f).hostBad = s.hostBad := rfl
@[simp] theorem setFunc_toHost (s : State) (fn : Nat) (f : Func) : (s.setFunc fn f).toHost = s.toHost := rfl
@[simp] theorem setFunc_slc (s : State) (fn : Nat) (f : Func) : (s.setFunc fn f).slc = s.slc := rfl
@[simp] theorem setFunc_rng (s : State) (fn : Nat) (f : Func) : (s.setFunc fn f).rng = s.rng := rfl
@[simp] theorem setFunc_prt (s : State) (fn : Nat) (f : Func) : (s.setFunc fn f).prt = s.prt := rfl
@[simp] theorem setFunc_wire (s : State) (fn : Nat) (f : Func) : (s.setFunc fn f).wire = s.wire := rfl
@[simp] theorem setFunc_tbl (s : State) (fn : Nat) (f : Func) : (s.setFunc fn f).tbl = s.tbl := rfl
@[simp] theorem setFunc_swc (s : State) (fn : Nat) (f : Func) : (s.setFunc fn f).swc = s.swc := rfl
@[simp] theorem setFunc_links (s : State) (fn : Nat) (f : Func) : (s.setFunc fn f).links = s.links := rfl
@[simp] theorem setFunc_socks (s : State) (fn : Nat) (f : Func) : (s.setFunc fn f).socks = s.socks := rfl
@[simp] theorem setFunc_rdm (s : State) (fn : Nat) (f : Func) : (s.setFunc fn f).rdm = s.rdm := rfl
@[simp] theorem setFunc_stq (s : State) (fn : Nat) (f : Func) : (s.setFunc fn f).stq = s.stq := rfl
@[simp] theorem setFunc_pair (s : State) (fn : Nat) (f : Func) : (s.setFunc fn f).pair = s.pair := rfl
@[simp] theorem setFunc_due (s : State) (fn : Nat) (f : Func) : (s.setFunc fn f).due = s.due := rfl
@[simp] theorem setFunc_tm (s : State) (fn : Nat) (f : Func) : (s.setFunc fn f).tm = s.tm := rfl
@[simp] theorem setFunc_l2 (s : State) (fn : Nat) (f : Func) : (s.setFunc fn f).l2 = s.l2 := rfl
@[simp] theorem setFunc_fc (s : State) (fn : Nat) (f : Func) : (s.setFunc fn f).fc = s.fc := rfl
@[simp] theorem setFunc_vlt (s : State) (fn : Nat) (f : Func) : (s.setFunc fn f).vlt = s.vlt := rfl
@[simp] theorem setFunc_pmc (s : State) (fn : Nat) (f : Func) : (s.setFunc fn f).pmc = s.pmc := rfl
@[simp] theorem setFunc_hlt (s : State) (fn : Nat) (f : Func) : (s.setFunc fn f).hlt = s.hlt := rfl
@[simp] theorem setFunc_isl (s : State) (fn : Nat) (f : Func) : (s.setFunc fn f).isl = s.isl := rfl
@[simp] theorem setFunc_free (s : State) (fn : Nat) (f : Func) : (s.setFunc fn f).free = s.free := rfl
@[simp] theorem setFunc_pending (s : State) (fn : Nat) (f : Func) : (s.setFunc fn f).pending = s.pending := rfl

/-! `setLane` -/

@[simp] theorem setLane_regs (s : State) (l : Nat) (x : Lane) : (s.setLane l x).regs = s.regs := rfl
@[simp] theorem setLane_act (s : State) (l : Nat) (x : Lane) : (s.setLane l x).act = s.act := rfl
@[simp] theorem setLane_bus (s : State) (l : Nat) (x : Lane) : (s.setLane l x).bus = s.bus := rfl
@[simp] theorem setLane_evq (s : State) (l : Nat) (x : Lane) : (s.setLane l x).evq = s.evq := rfl
@[simp] theorem setLane_logq (s : State) (l : Nat) (x : Lane) : (s.setLane l x).logq = s.logq := rfl
@[simp] theorem setLane_time (s : State) (l : Nat) (x : Lane) : (s.setLane l x).time = s.time := rfl
@[simp] theorem setLane_sec (s : State) (l : Nat) (x : Lane) : (s.setLane l x).sec = s.sec := rfl
@[simp] theorem setLane_otp (s : State) (l : Nat) (x : Lane) : (s.setLane l x).otp = s.otp := rfl
@[simp] theorem setLane_mem (s : State) (l : Nat) (x : Lane) : (s.setLane l x).mem = s.mem := rfl
@[simp] theorem setLane_hif (s : State) (l : Nat) (x : Lane) : (s.setLane l x).hif = s.hif := rfl
@[simp] theorem setLane_hostMem (s : State) (l : Nat) (x : Lane) : (s.setLane l x).hostMem = s.hostMem := rfl
@[simp] theorem setLane_hostBad (s : State) (l : Nat) (x : Lane) : (s.setLane l x).hostBad = s.hostBad := rfl
@[simp] theorem setLane_toHost (s : State) (l : Nat) (x : Lane) : (s.setLane l x).toHost = s.toHost := rfl
@[simp] theorem setLane_slc (s : State) (l : Nat) (x : Lane) : (s.setLane l x).slc = s.slc := rfl
@[simp] theorem setLane_rng (s : State) (l : Nat) (x : Lane) : (s.setLane l x).rng = s.rng := rfl
@[simp] theorem setLane_wire (s : State) (l : Nat) (x : Lane) : (s.setLane l x).wire = s.wire := rfl
@[simp] theorem setLane_tbl (s : State) (l : Nat) (x : Lane) : (s.setLane l x).tbl = s.tbl := rfl
@[simp] theorem setLane_swc (s : State) (l : Nat) (x : Lane) : (s.setLane l x).swc = s.swc := rfl
@[simp] theorem setLane_links (s : State) (l : Nat) (x : Lane) : (s.setLane l x).links = s.links := rfl
@[simp] theorem setLane_socks (s : State) (l : Nat) (x : Lane) : (s.setLane l x).socks = s.socks := rfl
@[simp] theorem setLane_rdm (s : State) (l : Nat) (x : Lane) : (s.setLane l x).rdm = s.rdm := rfl
@[simp] theorem setLane_stq (s : State) (l : Nat) (x : Lane) : (s.setLane l x).stq = s.stq := rfl
@[simp] theorem setLane_pair (s : State) (l : Nat) (x : Lane) : (s.setLane l x).pair = s.pair := rfl
@[simp] theorem setLane_due (s : State) (l : Nat) (x : Lane) : (s.setLane l x).due = s.due := rfl
@[simp] theorem setLane_tm (s : State) (l : Nat) (x : Lane) : (s.setLane l x).tm = s.tm := rfl
@[simp] theorem setLane_l2 (s : State) (l : Nat) (x : Lane) : (s.setLane l x).l2 = s.l2 := rfl
@[simp] theorem setLane_fc (s : State) (l : Nat) (x : Lane) : (s.setLane l x).fc = s.fc := rfl
@[simp] theorem setLane_vlt (s : State) (l : Nat) (x : Lane) : (s.setLane l x).vlt = s.vlt := rfl
@[simp] theorem setLane_pmc (s : State) (l : Nat) (x : Lane) : (s.setLane l x).pmc = s.pmc := rfl
@[simp] theorem setLane_hlt (s : State) (l : Nat) (x : Lane) : (s.setLane l x).hlt = s.hlt := rfl
@[simp] theorem setLane_isl (s : State) (l : Nat) (x : Lane) : (s.setLane l x).isl = s.isl := rfl
@[simp] theorem setLane_free (s : State) (l : Nat) (x : Lane) : (s.setLane l x).free = s.free := rfl
@[simp] theorem setLane_pending (s : State) (l : Nat) (x : Lane) : (s.setLane l x).pending = s.pending := rfl

/-! `setLink` -/

@[simp] theorem setLink_regs (s : State) (n : Nat) (l : Link) : (s.setLink n l).regs = s.regs := rfl
@[simp] theorem setLink_act (s : State) (n : Nat) (l : Link) : (s.setLink n l).act = s.act := rfl
@[simp] theorem setLink_bus (s : State) (n : Nat) (l : Link) : (s.setLink n l).bus = s.bus := rfl
@[simp] theorem setLink_evq (s : State) (n : Nat) (l : Link) : (s.setLink n l).evq = s.evq := rfl
@[simp] theorem setLink_logq (s : State) (n : Nat) (l : Link) : (s.setLink n l).logq = s.logq := rfl
@[simp] theorem setLink_time (s : State) (n : Nat) (l : Link) : (s.setLink n l).time = s.time := rfl
@[simp] theorem setLink_sec (s : State) (n : Nat) (l : Link) : (s.setLink n l).sec = s.sec := rfl
@[simp] theorem setLink_otp (s : State) (n : Nat) (l : Link) : (s.setLink n l).otp = s.otp := rfl
@[simp] theorem setLink_mem (s : State) (n : Nat) (l : Link) : (s.setLink n l).mem = s.mem := rfl
@[simp] theorem setLink_hif (s : State) (n : Nat) (l : Link) : (s.setLink n l).hif = s.hif := rfl
@[simp] theorem setLink_hostMem (s : State) (n : Nat) (l : Link) : (s.setLink n l).hostMem = s.hostMem := rfl
@[simp] theorem setLink_hostBad (s : State) (n : Nat) (l : Link) : (s.setLink n l).hostBad = s.hostBad := rfl
@[simp] theorem setLink_toHost (s : State) (n : Nat) (l : Link) : (s.setLink n l).toHost = s.toHost := rfl
@[simp] theorem setLink_slc (s : State) (n : Nat) (l : Link) : (s.setLink n l).slc = s.slc := rfl
@[simp] theorem setLink_rng (s : State) (n : Nat) (l : Link) : (s.setLink n l).rng = s.rng := rfl
@[simp] theorem setLink_prt (s : State) (n : Nat) (l : Link) : (s.setLink n l).prt = s.prt := rfl
@[simp] theorem setLink_wire (s : State) (n : Nat) (l : Link) : (s.setLink n l).wire = s.wire := rfl
@[simp] theorem setLink_tbl (s : State) (n : Nat) (l : Link) : (s.setLink n l).tbl = s.tbl := rfl
@[simp] theorem setLink_swc (s : State) (n : Nat) (l : Link) : (s.setLink n l).swc = s.swc := rfl
@[simp] theorem setLink_socks (s : State) (n : Nat) (l : Link) : (s.setLink n l).socks = s.socks := rfl
@[simp] theorem setLink_rdm (s : State) (n : Nat) (l : Link) : (s.setLink n l).rdm = s.rdm := rfl
@[simp] theorem setLink_stq (s : State) (n : Nat) (l : Link) : (s.setLink n l).stq = s.stq := rfl
@[simp] theorem setLink_pair (s : State) (n : Nat) (l : Link) : (s.setLink n l).pair = s.pair := rfl
@[simp] theorem setLink_due (s : State) (n : Nat) (l : Link) : (s.setLink n l).due = s.due := rfl
@[simp] theorem setLink_tm (s : State) (n : Nat) (l : Link) : (s.setLink n l).tm = s.tm := rfl
@[simp] theorem setLink_l2 (s : State) (n : Nat) (l : Link) : (s.setLink n l).l2 = s.l2 := rfl
@[simp] theorem setLink_fc (s : State) (n : Nat) (l : Link) : (s.setLink n l).fc = s.fc := rfl
@[simp] theorem setLink_vlt (s : State) (n : Nat) (l : Link) : (s.setLink n l).vlt = s.vlt := rfl
@[simp] theorem setLink_pmc (s : State) (n : Nat) (l : Link) : (s.setLink n l).pmc = s.pmc := rfl
@[simp] theorem setLink_hlt (s : State) (n : Nat) (l : Link) : (s.setLink n l).hlt = s.hlt := rfl
@[simp] theorem setLink_isl (s : State) (n : Nat) (l : Link) : (s.setLink n l).isl = s.isl := rfl
@[simp] theorem setLink_free (s : State) (n : Nat) (l : Link) : (s.setLink n l).free = s.free := rfl
@[simp] theorem setLink_pending (s : State) (n : Nat) (l : Link) : (s.setLink n l).pending = s.pending := rfl

/-! `modLink` -/

@[simp] theorem modLink_regs (s : State) (n : Nat) (f : Link → Link) : (s.modLink n f).regs = s.regs := rfl
@[simp] theorem modLink_act (s : State) (n : Nat) (f : Link → Link) : (s.modLink n f).act = s.act := rfl
@[simp] theorem modLink_bus (s : State) (n : Nat) (f : Link → Link) : (s.modLink n f).bus = s.bus := rfl
@[simp] theorem modLink_evq (s : State) (n : Nat) (f : Link → Link) : (s.modLink n f).evq = s.evq := rfl
@[simp] theorem modLink_logq (s : State) (n : Nat) (f : Link → Link) : (s.modLink n f).logq = s.logq := rfl
@[simp] theorem modLink_time (s : State) (n : Nat) (f : Link → Link) : (s.modLink n f).time = s.time := rfl
@[simp] theorem modLink_sec (s : State) (n : Nat) (f : Link → Link) : (s.modLink n f).sec = s.sec := rfl
@[simp] theorem modLink_otp (s : State) (n : Nat) (f : Link → Link) : (s.modLink n f).otp = s.otp := rfl
@[simp] theorem modLink_mem (s : State) (n : Nat) (f : Link → Link) : (s.modLink n f).mem = s.mem := rfl
@[simp] theorem modLink_hif (s : State) (n : Nat) (f : Link → Link) : (s.modLink n f).hif = s.hif := rfl
@[simp] theorem modLink_hostMem (s : State) (n : Nat) (f : Link → Link) : (s.modLink n f).hostMem = s.hostMem := rfl
@[simp] theorem modLink_hostBad (s : State) (n : Nat) (f : Link → Link) : (s.modLink n f).hostBad = s.hostBad := rfl
@[simp] theorem modLink_toHost (s : State) (n : Nat) (f : Link → Link) : (s.modLink n f).toHost = s.toHost := rfl
@[simp] theorem modLink_slc (s : State) (n : Nat) (f : Link → Link) : (s.modLink n f).slc = s.slc := rfl
@[simp] theorem modLink_rng (s : State) (n : Nat) (f : Link → Link) : (s.modLink n f).rng = s.rng := rfl
@[simp] theorem modLink_prt (s : State) (n : Nat) (f : Link → Link) : (s.modLink n f).prt = s.prt := rfl
@[simp] theorem modLink_wire (s : State) (n : Nat) (f : Link → Link) : (s.modLink n f).wire = s.wire := rfl
@[simp] theorem modLink_tbl (s : State) (n : Nat) (f : Link → Link) : (s.modLink n f).tbl = s.tbl := rfl
@[simp] theorem modLink_swc (s : State) (n : Nat) (f : Link → Link) : (s.modLink n f).swc = s.swc := rfl
@[simp] theorem modLink_socks (s : State) (n : Nat) (f : Link → Link) : (s.modLink n f).socks = s.socks := rfl
@[simp] theorem modLink_rdm (s : State) (n : Nat) (f : Link → Link) : (s.modLink n f).rdm = s.rdm := rfl
@[simp] theorem modLink_stq (s : State) (n : Nat) (f : Link → Link) : (s.modLink n f).stq = s.stq := rfl
@[simp] theorem modLink_pair (s : State) (n : Nat) (f : Link → Link) : (s.modLink n f).pair = s.pair := rfl
@[simp] theorem modLink_due (s : State) (n : Nat) (f : Link → Link) : (s.modLink n f).due = s.due := rfl
@[simp] theorem modLink_tm (s : State) (n : Nat) (f : Link → Link) : (s.modLink n f).tm = s.tm := rfl
@[simp] theorem modLink_l2 (s : State) (n : Nat) (f : Link → Link) : (s.modLink n f).l2 = s.l2 := rfl
@[simp] theorem modLink_fc (s : State) (n : Nat) (f : Link → Link) : (s.modLink n f).fc = s.fc := rfl
@[simp] theorem modLink_vlt (s : State) (n : Nat) (f : Link → Link) : (s.modLink n f).vlt = s.vlt := rfl
@[simp] theorem modLink_pmc (s : State) (n : Nat) (f : Link → Link) : (s.modLink n f).pmc = s.pmc := rfl
@[simp] theorem modLink_hlt (s : State) (n : Nat) (f : Link → Link) : (s.modLink n f).hlt = s.hlt := rfl
@[simp] theorem modLink_isl (s : State) (n : Nat) (f : Link → Link) : (s.modLink n f).isl = s.isl := rfl
@[simp] theorem modLink_free (s : State) (n : Nat) (f : Link → Link) : (s.modLink n f).free = s.free := rfl
@[simp] theorem modLink_pending (s : State) (n : Nat) (f : Link → Link) : (s.modLink n f).pending = s.pending := rfl

/-! `setSock` -/

@[simp] theorem setSock_regs (s : State) (n : Nat) (k : Sock) : (s.setSock n k).regs = s.regs := rfl
@[simp] theorem setSock_act (s : State) (n : Nat) (k : Sock) : (s.setSock n k).act = s.act := rfl
@[simp] theorem setSock_bus (s : State) (n : Nat) (k : Sock) : (s.setSock n k).bus = s.bus := rfl
@[simp] theorem setSock_evq (s : State) (n : Nat) (k : Sock) : (s.setSock n k).evq = s.evq := rfl
@[simp] theorem setSock_logq (s : State) (n : Nat) (k : Sock) : (s.setSock n k).logq = s.logq := rfl
@[simp] theorem setSock_time (s : State) (n : Nat) (k : Sock) : (s.setSock n k).time = s.time := rfl
@[simp] theorem setSock_sec (s : State) (n : Nat) (k : Sock) : (s.setSock n k).sec = s.sec := rfl
@[simp] theorem setSock_otp (s : State) (n : Nat) (k : Sock) : (s.setSock n k).otp = s.otp := rfl
@[simp] theorem setSock_mem (s : State) (n : Nat) (k : Sock) : (s.setSock n k).mem = s.mem := rfl
@[simp] theorem setSock_hif (s : State) (n : Nat) (k : Sock) : (s.setSock n k).hif = s.hif := rfl
@[simp] theorem setSock_hostMem (s : State) (n : Nat) (k : Sock) : (s.setSock n k).hostMem = s.hostMem := rfl
@[simp] theorem setSock_hostBad (s : State) (n : Nat) (k : Sock) : (s.setSock n k).hostBad = s.hostBad := rfl
@[simp] theorem setSock_toHost (s : State) (n : Nat) (k : Sock) : (s.setSock n k).toHost = s.toHost := rfl
@[simp] theorem setSock_slc (s : State) (n : Nat) (k : Sock) : (s.setSock n k).slc = s.slc := rfl
@[simp] theorem setSock_rng (s : State) (n : Nat) (k : Sock) : (s.setSock n k).rng = s.rng := rfl
@[simp] theorem setSock_prt (s : State) (n : Nat) (k : Sock) : (s.setSock n k).prt = s.prt := rfl
@[simp] theorem setSock_wire (s : State) (n : Nat) (k : Sock) : (s.setSock n k).wire = s.wire := rfl
@[simp] theorem setSock_tbl (s : State) (n : Nat) (k : Sock) : (s.setSock n k).tbl = s.tbl := rfl
@[simp] theorem setSock_swc (s : State) (n : Nat) (k : Sock) : (s.setSock n k).swc = s.swc := rfl
@[simp] theorem setSock_links (s : State) (n : Nat) (k : Sock) : (s.setSock n k).links = s.links := rfl
@[simp] theorem setSock_rdm (s : State) (n : Nat) (k : Sock) : (s.setSock n k).rdm = s.rdm := rfl
@[simp] theorem setSock_stq (s : State) (n : Nat) (k : Sock) : (s.setSock n k).stq = s.stq := rfl
@[simp] theorem setSock_pair (s : State) (n : Nat) (k : Sock) : (s.setSock n k).pair = s.pair := rfl
@[simp] theorem setSock_due (s : State) (n : Nat) (k : Sock) : (s.setSock n k).due = s.due := rfl
@[simp] theorem setSock_tm (s : State) (n : Nat) (k : Sock) : (s.setSock n k).tm = s.tm := rfl
@[simp] theorem setSock_l2 (s : State) (n : Nat) (k : Sock) : (s.setSock n k).l2 = s.l2 := rfl
@[simp] theorem setSock_fc (s : State) (n : Nat) (k : Sock) : (s.setSock n k).fc = s.fc := rfl
@[simp] theorem setSock_vlt (s : State) (n : Nat) (k : Sock) : (s.setSock n k).vlt = s.vlt := rfl
@[simp] theorem setSock_pmc (s : State) (n : Nat) (k : Sock) : (s.setSock n k).pmc = s.pmc := rfl
@[simp] theorem setSock_hlt (s : State) (n : Nat) (k : Sock) : (s.setSock n k).hlt = s.hlt := rfl
@[simp] theorem setSock_isl (s : State) (n : Nat) (k : Sock) : (s.setSock n k).isl = s.isl := rfl
@[simp] theorem setSock_free (s : State) (n : Nat) (k : Sock) : (s.setSock n k).free = s.free := rfl
@[simp] theorem setSock_pending (s : State) (n : Nat) (k : Sock) : (s.setSock n k).pending = s.pending := rfl

/-! `modSock` -/

@[simp] theorem modSock_regs (s : State) (n : Nat) (f : Sock → Sock) : (s.modSock n f).regs = s.regs := rfl
@[simp] theorem modSock_act (s : State) (n : Nat) (f : Sock → Sock) : (s.modSock n f).act = s.act := rfl
@[simp] theorem modSock_bus (s : State) (n : Nat) (f : Sock → Sock) : (s.modSock n f).bus = s.bus := rfl
@[simp] theorem modSock_evq (s : State) (n : Nat) (f : Sock → Sock) : (s.modSock n f).evq = s.evq := rfl
@[simp] theorem modSock_logq (s : State) (n : Nat) (f : Sock → Sock) : (s.modSock n f).logq = s.logq := rfl
@[simp] theorem modSock_time (s : State) (n : Nat) (f : Sock → Sock) : (s.modSock n f).time = s.time := rfl
@[simp] theorem modSock_sec (s : State) (n : Nat) (f : Sock → Sock) : (s.modSock n f).sec = s.sec := rfl
@[simp] theorem modSock_otp (s : State) (n : Nat) (f : Sock → Sock) : (s.modSock n f).otp = s.otp := rfl
@[simp] theorem modSock_mem (s : State) (n : Nat) (f : Sock → Sock) : (s.modSock n f).mem = s.mem := rfl
@[simp] theorem modSock_hif (s : State) (n : Nat) (f : Sock → Sock) : (s.modSock n f).hif = s.hif := rfl
@[simp] theorem modSock_hostMem (s : State) (n : Nat) (f : Sock → Sock) : (s.modSock n f).hostMem = s.hostMem := rfl
@[simp] theorem modSock_hostBad (s : State) (n : Nat) (f : Sock → Sock) : (s.modSock n f).hostBad = s.hostBad := rfl
@[simp] theorem modSock_toHost (s : State) (n : Nat) (f : Sock → Sock) : (s.modSock n f).toHost = s.toHost := rfl
@[simp] theorem modSock_slc (s : State) (n : Nat) (f : Sock → Sock) : (s.modSock n f).slc = s.slc := rfl
@[simp] theorem modSock_rng (s : State) (n : Nat) (f : Sock → Sock) : (s.modSock n f).rng = s.rng := rfl
@[simp] theorem modSock_prt (s : State) (n : Nat) (f : Sock → Sock) : (s.modSock n f).prt = s.prt := rfl
@[simp] theorem modSock_wire (s : State) (n : Nat) (f : Sock → Sock) : (s.modSock n f).wire = s.wire := rfl
@[simp] theorem modSock_tbl (s : State) (n : Nat) (f : Sock → Sock) : (s.modSock n f).tbl = s.tbl := rfl
@[simp] theorem modSock_swc (s : State) (n : Nat) (f : Sock → Sock) : (s.modSock n f).swc = s.swc := rfl
@[simp] theorem modSock_links (s : State) (n : Nat) (f : Sock → Sock) : (s.modSock n f).links = s.links := rfl
@[simp] theorem modSock_rdm (s : State) (n : Nat) (f : Sock → Sock) : (s.modSock n f).rdm = s.rdm := rfl
@[simp] theorem modSock_stq (s : State) (n : Nat) (f : Sock → Sock) : (s.modSock n f).stq = s.stq := rfl
@[simp] theorem modSock_pair (s : State) (n : Nat) (f : Sock → Sock) : (s.modSock n f).pair = s.pair := rfl
@[simp] theorem modSock_due (s : State) (n : Nat) (f : Sock → Sock) : (s.modSock n f).due = s.due := rfl
@[simp] theorem modSock_tm (s : State) (n : Nat) (f : Sock → Sock) : (s.modSock n f).tm = s.tm := rfl
@[simp] theorem modSock_l2 (s : State) (n : Nat) (f : Sock → Sock) : (s.modSock n f).l2 = s.l2 := rfl
@[simp] theorem modSock_fc (s : State) (n : Nat) (f : Sock → Sock) : (s.modSock n f).fc = s.fc := rfl
@[simp] theorem modSock_vlt (s : State) (n : Nat) (f : Sock → Sock) : (s.modSock n f).vlt = s.vlt := rfl
@[simp] theorem modSock_pmc (s : State) (n : Nat) (f : Sock → Sock) : (s.modSock n f).pmc = s.pmc := rfl
@[simp] theorem modSock_hlt (s : State) (n : Nat) (f : Sock → Sock) : (s.modSock n f).hlt = s.hlt := rfl
@[simp] theorem modSock_isl (s : State) (n : Nat) (f : Sock → Sock) : (s.modSock n f).isl = s.isl := rfl
@[simp] theorem modSock_free (s : State) (n : Nat) (f : Sock → Sock) : (s.modSock n f).free = s.free := rfl
@[simp] theorem modSock_pending (s : State) (n : Nat) (f : Sock → Sock) : (s.modSock n f).pending = s.pending := rfl

/-! `setVol` -/

@[simp] theorem setVol_regs (s : State) (v : Nat) (x : Option Vol) : (s.setVol v x).regs = s.regs := rfl
@[simp] theorem setVol_act (s : State) (v : Nat) (x : Option Vol) : (s.setVol v x).act = s.act := rfl
@[simp] theorem setVol_bus (s : State) (v : Nat) (x : Option Vol) : (s.setVol v x).bus = s.bus := rfl
@[simp] theorem setVol_evq (s : State) (v : Nat) (x : Option Vol) : (s.setVol v x).evq = s.evq := rfl
@[simp] theorem setVol_logq (s : State) (v : Nat) (x : Option Vol) : (s.setVol v x).logq = s.logq := rfl
@[simp] theorem setVol_time (s : State) (v : Nat) (x : Option Vol) : (s.setVol v x).time = s.time := rfl
@[simp] theorem setVol_sec (s : State) (v : Nat) (x : Option Vol) : (s.setVol v x).sec = s.sec := rfl
@[simp] theorem setVol_otp (s : State) (v : Nat) (x : Option Vol) : (s.setVol v x).otp = s.otp := rfl
@[simp] theorem setVol_mem (s : State) (v : Nat) (x : Option Vol) : (s.setVol v x).mem = s.mem := rfl
@[simp] theorem setVol_hif (s : State) (v : Nat) (x : Option Vol) : (s.setVol v x).hif = s.hif := rfl
@[simp] theorem setVol_hostMem (s : State) (v : Nat) (x : Option Vol) : (s.setVol v x).hostMem = s.hostMem := rfl
@[simp] theorem setVol_hostBad (s : State) (v : Nat) (x : Option Vol) : (s.setVol v x).hostBad = s.hostBad := rfl
@[simp] theorem setVol_toHost (s : State) (v : Nat) (x : Option Vol) : (s.setVol v x).toHost = s.toHost := rfl
@[simp] theorem setVol_slc (s : State) (v : Nat) (x : Option Vol) : (s.setVol v x).slc = s.slc := rfl
@[simp] theorem setVol_rng (s : State) (v : Nat) (x : Option Vol) : (s.setVol v x).rng = s.rng := rfl
@[simp] theorem setVol_prt (s : State) (v : Nat) (x : Option Vol) : (s.setVol v x).prt = s.prt := rfl
@[simp] theorem setVol_wire (s : State) (v : Nat) (x : Option Vol) : (s.setVol v x).wire = s.wire := rfl
@[simp] theorem setVol_tbl (s : State) (v : Nat) (x : Option Vol) : (s.setVol v x).tbl = s.tbl := rfl
@[simp] theorem setVol_swc (s : State) (v : Nat) (x : Option Vol) : (s.setVol v x).swc = s.swc := rfl
@[simp] theorem setVol_links (s : State) (v : Nat) (x : Option Vol) : (s.setVol v x).links = s.links := rfl
@[simp] theorem setVol_socks (s : State) (v : Nat) (x : Option Vol) : (s.setVol v x).socks = s.socks := rfl
@[simp] theorem setVol_rdm (s : State) (v : Nat) (x : Option Vol) : (s.setVol v x).rdm = s.rdm := rfl
@[simp] theorem setVol_pair (s : State) (v : Nat) (x : Option Vol) : (s.setVol v x).pair = s.pair := rfl
@[simp] theorem setVol_due (s : State) (v : Nat) (x : Option Vol) : (s.setVol v x).due = s.due := rfl
@[simp] theorem setVol_tm (s : State) (v : Nat) (x : Option Vol) : (s.setVol v x).tm = s.tm := rfl
@[simp] theorem setVol_l2 (s : State) (v : Nat) (x : Option Vol) : (s.setVol v x).l2 = s.l2 := rfl
@[simp] theorem setVol_fc (s : State) (v : Nat) (x : Option Vol) : (s.setVol v x).fc = s.fc := rfl
@[simp] theorem setVol_vlt (s : State) (v : Nat) (x : Option Vol) : (s.setVol v x).vlt = s.vlt := rfl
@[simp] theorem setVol_pmc (s : State) (v : Nat) (x : Option Vol) : (s.setVol v x).pmc = s.pmc := rfl
@[simp] theorem setVol_hlt (s : State) (v : Nat) (x : Option Vol) : (s.setVol v x).hlt = s.hlt := rfl
@[simp] theorem setVol_isl (s : State) (v : Nat) (x : Option Vol) : (s.setVol v x).isl = s.isl := rfl
@[simp] theorem setVol_free (s : State) (v : Nat) (x : Option Vol) : (s.setVol v x).free = s.free := rfl
@[simp] theorem setVol_pending (s : State) (v : Nat) (x : Option Vol) : (s.setVol v x).pending = s.pending := rfl

/-! `setQp` -/

@[simp] theorem setQp_regs (s : State) (q : Nat) (x : Option Qp) : (s.setQp q x).regs = s.regs := rfl
@[simp] theorem setQp_act (s : State) (q : Nat) (x : Option Qp) : (s.setQp q x).act = s.act := rfl
@[simp] theorem setQp_bus (s : State) (q : Nat) (x : Option Qp) : (s.setQp q x).bus = s.bus := rfl
@[simp] theorem setQp_evq (s : State) (q : Nat) (x : Option Qp) : (s.setQp q x).evq = s.evq := rfl
@[simp] theorem setQp_logq (s : State) (q : Nat) (x : Option Qp) : (s.setQp q x).logq = s.logq := rfl
@[simp] theorem setQp_time (s : State) (q : Nat) (x : Option Qp) : (s.setQp q x).time = s.time := rfl
@[simp] theorem setQp_sec (s : State) (q : Nat) (x : Option Qp) : (s.setQp q x).sec = s.sec := rfl
@[simp] theorem setQp_otp (s : State) (q : Nat) (x : Option Qp) : (s.setQp q x).otp = s.otp := rfl
@[simp] theorem setQp_mem (s : State) (q : Nat) (x : Option Qp) : (s.setQp q x).mem = s.mem := rfl
@[simp] theorem setQp_hif (s : State) (q : Nat) (x : Option Qp) : (s.setQp q x).hif = s.hif := rfl
@[simp] theorem setQp_hostMem (s : State) (q : Nat) (x : Option Qp) : (s.setQp q x).hostMem = s.hostMem := rfl
@[simp] theorem setQp_hostBad (s : State) (q : Nat) (x : Option Qp) : (s.setQp q x).hostBad = s.hostBad := rfl
@[simp] theorem setQp_toHost (s : State) (q : Nat) (x : Option Qp) : (s.setQp q x).toHost = s.toHost := rfl
@[simp] theorem setQp_slc (s : State) (q : Nat) (x : Option Qp) : (s.setQp q x).slc = s.slc := rfl
@[simp] theorem setQp_rng (s : State) (q : Nat) (x : Option Qp) : (s.setQp q x).rng = s.rng := rfl
@[simp] theorem setQp_prt (s : State) (q : Nat) (x : Option Qp) : (s.setQp q x).prt = s.prt := rfl
@[simp] theorem setQp_wire (s : State) (q : Nat) (x : Option Qp) : (s.setQp q x).wire = s.wire := rfl
@[simp] theorem setQp_tbl (s : State) (q : Nat) (x : Option Qp) : (s.setQp q x).tbl = s.tbl := rfl
@[simp] theorem setQp_swc (s : State) (q : Nat) (x : Option Qp) : (s.setQp q x).swc = s.swc := rfl
@[simp] theorem setQp_links (s : State) (q : Nat) (x : Option Qp) : (s.setQp q x).links = s.links := rfl
@[simp] theorem setQp_socks (s : State) (q : Nat) (x : Option Qp) : (s.setQp q x).socks = s.socks := rfl
@[simp] theorem setQp_stq (s : State) (q : Nat) (x : Option Qp) : (s.setQp q x).stq = s.stq := rfl
@[simp] theorem setQp_pair (s : State) (q : Nat) (x : Option Qp) : (s.setQp q x).pair = s.pair := rfl
@[simp] theorem setQp_due (s : State) (q : Nat) (x : Option Qp) : (s.setQp q x).due = s.due := rfl
@[simp] theorem setQp_tm (s : State) (q : Nat) (x : Option Qp) : (s.setQp q x).tm = s.tm := rfl
@[simp] theorem setQp_l2 (s : State) (q : Nat) (x : Option Qp) : (s.setQp q x).l2 = s.l2 := rfl
@[simp] theorem setQp_fc (s : State) (q : Nat) (x : Option Qp) : (s.setQp q x).fc = s.fc := rfl
@[simp] theorem setQp_vlt (s : State) (q : Nat) (x : Option Qp) : (s.setQp q x).vlt = s.vlt := rfl
@[simp] theorem setQp_pmc (s : State) (q : Nat) (x : Option Qp) : (s.setQp q x).pmc = s.pmc := rfl
@[simp] theorem setQp_hlt (s : State) (q : Nat) (x : Option Qp) : (s.setQp q x).hlt = s.hlt := rfl
@[simp] theorem setQp_isl (s : State) (q : Nat) (x : Option Qp) : (s.setQp q x).isl = s.isl := rfl
@[simp] theorem setQp_free (s : State) (q : Nat) (x : Option Qp) : (s.setQp q x).free = s.free := rfl
@[simp] theorem setQp_pending (s : State) (q : Nat) (x : Option Qp) : (s.setQp q x).pending = s.pending := rfl

/-! `setEng` -/

@[simp] theorem setEng_regs (s : State) (e : Nat) (x : VaultEng) : (s.setEng e x).regs = s.regs := rfl
@[simp] theorem setEng_act (s : State) (e : Nat) (x : VaultEng) : (s.setEng e x).act = s.act := rfl
@[simp] theorem setEng_bus (s : State) (e : Nat) (x : VaultEng) : (s.setEng e x).bus = s.bus := rfl
@[simp] theorem setEng_evq (s : State) (e : Nat) (x : VaultEng) : (s.setEng e x).evq = s.evq := rfl
@[simp] theorem setEng_logq (s : State) (e : Nat) (x : VaultEng) : (s.setEng e x).logq = s.logq := rfl
@[simp] theorem setEng_time (s : State) (e : Nat) (x : VaultEng) : (s.setEng e x).time = s.time := rfl
@[simp] theorem setEng_sec (s : State) (e : Nat) (x : VaultEng) : (s.setEng e x).sec = s.sec := rfl
@[simp] theorem setEng_otp (s : State) (e : Nat) (x : VaultEng) : (s.setEng e x).otp = s.otp := rfl
@[simp] theorem setEng_mem (s : State) (e : Nat) (x : VaultEng) : (s.setEng e x).mem = s.mem := rfl
@[simp] theorem setEng_hif (s : State) (e : Nat) (x : VaultEng) : (s.setEng e x).hif = s.hif := rfl
@[simp] theorem setEng_hostMem (s : State) (e : Nat) (x : VaultEng) : (s.setEng e x).hostMem = s.hostMem := rfl
@[simp] theorem setEng_hostBad (s : State) (e : Nat) (x : VaultEng) : (s.setEng e x).hostBad = s.hostBad := rfl
@[simp] theorem setEng_toHost (s : State) (e : Nat) (x : VaultEng) : (s.setEng e x).toHost = s.toHost := rfl
@[simp] theorem setEng_slc (s : State) (e : Nat) (x : VaultEng) : (s.setEng e x).slc = s.slc := rfl
@[simp] theorem setEng_rng (s : State) (e : Nat) (x : VaultEng) : (s.setEng e x).rng = s.rng := rfl
@[simp] theorem setEng_prt (s : State) (e : Nat) (x : VaultEng) : (s.setEng e x).prt = s.prt := rfl
@[simp] theorem setEng_wire (s : State) (e : Nat) (x : VaultEng) : (s.setEng e x).wire = s.wire := rfl
@[simp] theorem setEng_tbl (s : State) (e : Nat) (x : VaultEng) : (s.setEng e x).tbl = s.tbl := rfl
@[simp] theorem setEng_swc (s : State) (e : Nat) (x : VaultEng) : (s.setEng e x).swc = s.swc := rfl
@[simp] theorem setEng_links (s : State) (e : Nat) (x : VaultEng) : (s.setEng e x).links = s.links := rfl
@[simp] theorem setEng_socks (s : State) (e : Nat) (x : VaultEng) : (s.setEng e x).socks = s.socks := rfl
@[simp] theorem setEng_rdm (s : State) (e : Nat) (x : VaultEng) : (s.setEng e x).rdm = s.rdm := rfl
@[simp] theorem setEng_stq (s : State) (e : Nat) (x : VaultEng) : (s.setEng e x).stq = s.stq := rfl
@[simp] theorem setEng_pair (s : State) (e : Nat) (x : VaultEng) : (s.setEng e x).pair = s.pair := rfl
@[simp] theorem setEng_due (s : State) (e : Nat) (x : VaultEng) : (s.setEng e x).due = s.due := rfl
@[simp] theorem setEng_tm (s : State) (e : Nat) (x : VaultEng) : (s.setEng e x).tm = s.tm := rfl
@[simp] theorem setEng_l2 (s : State) (e : Nat) (x : VaultEng) : (s.setEng e x).l2 = s.l2 := rfl
@[simp] theorem setEng_fc (s : State) (e : Nat) (x : VaultEng) : (s.setEng e x).fc = s.fc := rfl
@[simp] theorem setEng_pmc (s : State) (e : Nat) (x : VaultEng) : (s.setEng e x).pmc = s.pmc := rfl
@[simp] theorem setEng_hlt (s : State) (e : Nat) (x : VaultEng) : (s.setEng e x).hlt = s.hlt := rfl
@[simp] theorem setEng_isl (s : State) (e : Nat) (x : VaultEng) : (s.setEng e x).isl = s.isl := rfl
@[simp] theorem setEng_free (s : State) (e : Nat) (x : VaultEng) : (s.setEng e x).free = s.free := rfl
@[simp] theorem setEng_pending (s : State) (e : Nat) (x : VaultEng) : (s.setEng e x).pending = s.pending := rfl

/-! `setSlotK` -/

@[simp] theorem setSlotK_regs (s : State) (i : Nat) (k : KeySlot) : (s.setSlotK i k).regs = s.regs := rfl
@[simp] theorem setSlotK_act (s : State) (i : Nat) (k : KeySlot) : (s.setSlotK i k).act = s.act := rfl
@[simp] theorem setSlotK_bus (s : State) (i : Nat) (k : KeySlot) : (s.setSlotK i k).bus = s.bus := rfl
@[simp] theorem setSlotK_evq (s : State) (i : Nat) (k : KeySlot) : (s.setSlotK i k).evq = s.evq := rfl
@[simp] theorem setSlotK_logq (s : State) (i : Nat) (k : KeySlot) : (s.setSlotK i k).logq = s.logq := rfl
@[simp] theorem setSlotK_time (s : State) (i : Nat) (k : KeySlot) : (s.setSlotK i k).time = s.time := rfl
@[simp] theorem setSlotK_sec (s : State) (i : Nat) (k : KeySlot) : (s.setSlotK i k).sec = s.sec := rfl
@[simp] theorem setSlotK_otp (s : State) (i : Nat) (k : KeySlot) : (s.setSlotK i k).otp = s.otp := rfl
@[simp] theorem setSlotK_mem (s : State) (i : Nat) (k : KeySlot) : (s.setSlotK i k).mem = s.mem := rfl
@[simp] theorem setSlotK_hif (s : State) (i : Nat) (k : KeySlot) : (s.setSlotK i k).hif = s.hif := rfl
@[simp] theorem setSlotK_hostMem (s : State) (i : Nat) (k : KeySlot) : (s.setSlotK i k).hostMem = s.hostMem := rfl
@[simp] theorem setSlotK_hostBad (s : State) (i : Nat) (k : KeySlot) : (s.setSlotK i k).hostBad = s.hostBad := rfl
@[simp] theorem setSlotK_toHost (s : State) (i : Nat) (k : KeySlot) : (s.setSlotK i k).toHost = s.toHost := rfl
@[simp] theorem setSlotK_slc (s : State) (i : Nat) (k : KeySlot) : (s.setSlotK i k).slc = s.slc := rfl
@[simp] theorem setSlotK_rng (s : State) (i : Nat) (k : KeySlot) : (s.setSlotK i k).rng = s.rng := rfl
@[simp] theorem setSlotK_prt (s : State) (i : Nat) (k : KeySlot) : (s.setSlotK i k).prt = s.prt := rfl
@[simp] theorem setSlotK_wire (s : State) (i : Nat) (k : KeySlot) : (s.setSlotK i k).wire = s.wire := rfl
@[simp] theorem setSlotK_tbl (s : State) (i : Nat) (k : KeySlot) : (s.setSlotK i k).tbl = s.tbl := rfl
@[simp] theorem setSlotK_swc (s : State) (i : Nat) (k : KeySlot) : (s.setSlotK i k).swc = s.swc := rfl
@[simp] theorem setSlotK_links (s : State) (i : Nat) (k : KeySlot) : (s.setSlotK i k).links = s.links := rfl
@[simp] theorem setSlotK_socks (s : State) (i : Nat) (k : KeySlot) : (s.setSlotK i k).socks = s.socks := rfl
@[simp] theorem setSlotK_rdm (s : State) (i : Nat) (k : KeySlot) : (s.setSlotK i k).rdm = s.rdm := rfl
@[simp] theorem setSlotK_stq (s : State) (i : Nat) (k : KeySlot) : (s.setSlotK i k).stq = s.stq := rfl
@[simp] theorem setSlotK_pair (s : State) (i : Nat) (k : KeySlot) : (s.setSlotK i k).pair = s.pair := rfl
@[simp] theorem setSlotK_due (s : State) (i : Nat) (k : KeySlot) : (s.setSlotK i k).due = s.due := rfl
@[simp] theorem setSlotK_tm (s : State) (i : Nat) (k : KeySlot) : (s.setSlotK i k).tm = s.tm := rfl
@[simp] theorem setSlotK_l2 (s : State) (i : Nat) (k : KeySlot) : (s.setSlotK i k).l2 = s.l2 := rfl
@[simp] theorem setSlotK_fc (s : State) (i : Nat) (k : KeySlot) : (s.setSlotK i k).fc = s.fc := rfl
@[simp] theorem setSlotK_pmc (s : State) (i : Nat) (k : KeySlot) : (s.setSlotK i k).pmc = s.pmc := rfl
@[simp] theorem setSlotK_hlt (s : State) (i : Nat) (k : KeySlot) : (s.setSlotK i k).hlt = s.hlt := rfl
@[simp] theorem setSlotK_isl (s : State) (i : Nat) (k : KeySlot) : (s.setSlotK i k).isl = s.isl := rfl
@[simp] theorem setSlotK_free (s : State) (i : Nat) (k : KeySlot) : (s.setSlotK i k).free = s.free := rfl
@[simp] theorem setSlotK_pending (s : State) (i : Nat) (k : KeySlot) : (s.setSlotK i k).pending = s.pending := rfl

/-! `setPipe` -/

@[simp] theorem setPipe_regs (s : State) (n : Nat) (p : PipeSt) : (s.setPipe n p).regs = s.regs := rfl
@[simp] theorem setPipe_act (s : State) (n : Nat) (p : PipeSt) : (s.setPipe n p).act = s.act := rfl
@[simp] theorem setPipe_bus (s : State) (n : Nat) (p : PipeSt) : (s.setPipe n p).bus = s.bus := rfl
@[simp] theorem setPipe_evq (s : State) (n : Nat) (p : PipeSt) : (s.setPipe n p).evq = s.evq := rfl
@[simp] theorem setPipe_logq (s : State) (n : Nat) (p : PipeSt) : (s.setPipe n p).logq = s.logq := rfl
@[simp] theorem setPipe_time (s : State) (n : Nat) (p : PipeSt) : (s.setPipe n p).time = s.time := rfl
@[simp] theorem setPipe_sec (s : State) (n : Nat) (p : PipeSt) : (s.setPipe n p).sec = s.sec := rfl
@[simp] theorem setPipe_otp (s : State) (n : Nat) (p : PipeSt) : (s.setPipe n p).otp = s.otp := rfl
@[simp] theorem setPipe_mem (s : State) (n : Nat) (p : PipeSt) : (s.setPipe n p).mem = s.mem := rfl
@[simp] theorem setPipe_hif (s : State) (n : Nat) (p : PipeSt) : (s.setPipe n p).hif = s.hif := rfl
@[simp] theorem setPipe_hostMem (s : State) (n : Nat) (p : PipeSt) : (s.setPipe n p).hostMem = s.hostMem := rfl
@[simp] theorem setPipe_hostBad (s : State) (n : Nat) (p : PipeSt) : (s.setPipe n p).hostBad = s.hostBad := rfl
@[simp] theorem setPipe_toHost (s : State) (n : Nat) (p : PipeSt) : (s.setPipe n p).toHost = s.toHost := rfl
@[simp] theorem setPipe_slc (s : State) (n : Nat) (p : PipeSt) : (s.setPipe n p).slc = s.slc := rfl
@[simp] theorem setPipe_rng (s : State) (n : Nat) (p : PipeSt) : (s.setPipe n p).rng = s.rng := rfl
@[simp] theorem setPipe_prt (s : State) (n : Nat) (p : PipeSt) : (s.setPipe n p).prt = s.prt := rfl
@[simp] theorem setPipe_wire (s : State) (n : Nat) (p : PipeSt) : (s.setPipe n p).wire = s.wire := rfl
@[simp] theorem setPipe_swc (s : State) (n : Nat) (p : PipeSt) : (s.setPipe n p).swc = s.swc := rfl
@[simp] theorem setPipe_links (s : State) (n : Nat) (p : PipeSt) : (s.setPipe n p).links = s.links := rfl
@[simp] theorem setPipe_socks (s : State) (n : Nat) (p : PipeSt) : (s.setPipe n p).socks = s.socks := rfl
@[simp] theorem setPipe_rdm (s : State) (n : Nat) (p : PipeSt) : (s.setPipe n p).rdm = s.rdm := rfl
@[simp] theorem setPipe_stq (s : State) (n : Nat) (p : PipeSt) : (s.setPipe n p).stq = s.stq := rfl
@[simp] theorem setPipe_pair (s : State) (n : Nat) (p : PipeSt) : (s.setPipe n p).pair = s.pair := rfl
@[simp] theorem setPipe_due (s : State) (n : Nat) (p : PipeSt) : (s.setPipe n p).due = s.due := rfl
@[simp] theorem setPipe_tm (s : State) (n : Nat) (p : PipeSt) : (s.setPipe n p).tm = s.tm := rfl
@[simp] theorem setPipe_l2 (s : State) (n : Nat) (p : PipeSt) : (s.setPipe n p).l2 = s.l2 := rfl
@[simp] theorem setPipe_fc (s : State) (n : Nat) (p : PipeSt) : (s.setPipe n p).fc = s.fc := rfl
@[simp] theorem setPipe_vlt (s : State) (n : Nat) (p : PipeSt) : (s.setPipe n p).vlt = s.vlt := rfl
@[simp] theorem setPipe_pmc (s : State) (n : Nat) (p : PipeSt) : (s.setPipe n p).pmc = s.pmc := rfl
@[simp] theorem setPipe_hlt (s : State) (n : Nat) (p : PipeSt) : (s.setPipe n p).hlt = s.hlt := rfl
@[simp] theorem setPipe_isl (s : State) (n : Nat) (p : PipeSt) : (s.setPipe n p).isl = s.isl := rfl
@[simp] theorem setPipe_free (s : State) (n : Nat) (p : PipeSt) : (s.setPipe n p).free = s.free := rfl
@[simp] theorem setPipe_pending (s : State) (n : Nat) (p : PipeSt) : (s.setPipe n p).pending = s.pending := rfl

/-! `modIsl` -/

@[simp] theorem modIsl_regs (s : State) (f : Island → Island) : (s.modIsl f).regs = s.regs := rfl
@[simp] theorem modIsl_act (s : State) (f : Island → Island) : (s.modIsl f).act = s.act := rfl
@[simp] theorem modIsl_bus (s : State) (f : Island → Island) : (s.modIsl f).bus = s.bus := rfl
@[simp] theorem modIsl_evq (s : State) (f : Island → Island) : (s.modIsl f).evq = s.evq := rfl
@[simp] theorem modIsl_logq (s : State) (f : Island → Island) : (s.modIsl f).logq = s.logq := rfl
@[simp] theorem modIsl_time (s : State) (f : Island → Island) : (s.modIsl f).time = s.time := rfl
@[simp] theorem modIsl_sec (s : State) (f : Island → Island) : (s.modIsl f).sec = s.sec := rfl
@[simp] theorem modIsl_otp (s : State) (f : Island → Island) : (s.modIsl f).otp = s.otp := rfl
@[simp] theorem modIsl_mem (s : State) (f : Island → Island) : (s.modIsl f).mem = s.mem := rfl
@[simp] theorem modIsl_hif (s : State) (f : Island → Island) : (s.modIsl f).hif = s.hif := rfl
@[simp] theorem modIsl_hostMem (s : State) (f : Island → Island) : (s.modIsl f).hostMem = s.hostMem := rfl
@[simp] theorem modIsl_hostBad (s : State) (f : Island → Island) : (s.modIsl f).hostBad = s.hostBad := rfl
@[simp] theorem modIsl_toHost (s : State) (f : Island → Island) : (s.modIsl f).toHost = s.toHost := rfl
@[simp] theorem modIsl_slc (s : State) (f : Island → Island) : (s.modIsl f).slc = s.slc := rfl
@[simp] theorem modIsl_rng (s : State) (f : Island → Island) : (s.modIsl f).rng = s.rng := rfl
@[simp] theorem modIsl_prt (s : State) (f : Island → Island) : (s.modIsl f).prt = s.prt := rfl
@[simp] theorem modIsl_wire (s : State) (f : Island → Island) : (s.modIsl f).wire = s.wire := rfl
@[simp] theorem modIsl_tbl (s : State) (f : Island → Island) : (s.modIsl f).tbl = s.tbl := rfl
@[simp] theorem modIsl_swc (s : State) (f : Island → Island) : (s.modIsl f).swc = s.swc := rfl
@[simp] theorem modIsl_links (s : State) (f : Island → Island) : (s.modIsl f).links = s.links := rfl
@[simp] theorem modIsl_socks (s : State) (f : Island → Island) : (s.modIsl f).socks = s.socks := rfl
@[simp] theorem modIsl_rdm (s : State) (f : Island → Island) : (s.modIsl f).rdm = s.rdm := rfl
@[simp] theorem modIsl_stq (s : State) (f : Island → Island) : (s.modIsl f).stq = s.stq := rfl
@[simp] theorem modIsl_pair (s : State) (f : Island → Island) : (s.modIsl f).pair = s.pair := rfl
@[simp] theorem modIsl_due (s : State) (f : Island → Island) : (s.modIsl f).due = s.due := rfl
@[simp] theorem modIsl_tm (s : State) (f : Island → Island) : (s.modIsl f).tm = s.tm := rfl
@[simp] theorem modIsl_l2 (s : State) (f : Island → Island) : (s.modIsl f).l2 = s.l2 := rfl
@[simp] theorem modIsl_fc (s : State) (f : Island → Island) : (s.modIsl f).fc = s.fc := rfl
@[simp] theorem modIsl_vlt (s : State) (f : Island → Island) : (s.modIsl f).vlt = s.vlt := rfl
@[simp] theorem modIsl_pmc (s : State) (f : Island → Island) : (s.modIsl f).pmc = s.pmc := rfl
@[simp] theorem modIsl_hlt (s : State) (f : Island → Island) : (s.modIsl f).hlt = s.hlt := rfl
@[simp] theorem modIsl_free (s : State) (f : Island → Island) : (s.modIsl f).free = s.free := rfl
@[simp] theorem modIsl_pending (s : State) (f : Island → Island) : (s.modIsl f).pending = s.pending := rfl
/-! ### Register fields -/

/-- A field that has been written reads what was written, cut to its width. -/
@[simp] theorem rd_wr_same (s : State) (f : Fld) (v i j k : Nat) : (s.wr f v i j k).rd f i j k = v % 2 ^ f.wd :=
  get_put_same _ _ _ _

/-- A write of one field leaves every field at another place alone. -/
theorem rd_wr_other (s : State) (f g : Fld) (v i j k a b c : Nat) (h : g.key a b c ≠ f.key i j k) :
    (s.wr f v i j k).rd g a b c = s.rd g a b c := get_put_other _ _ _ _ _ _ h

@[simp] theorem ac_acw_same (s : State) (f : Fld) (v i j k : Nat) : (s.acw f v i j k).ac f i j k = v % 2 ^ f.wd := get_put_same _ _ _ _

theorem ac_acw_other (s : State) (f g : Fld) (v i j k a b c : Nat) (h : g.key a b c ≠ f.key i j k) :
    (s.acw f v i j k).ac g a b c = s.ac g a b c := get_put_other _ _ _ _ _ _ h

/-- A raised flag reads all ones. -/
@[simp] theorem rd_raise_same (s : State) (f : Fld) (i j k : Nat) : (s.raise f i j k).rd f i j k = 2 ^ f.wd - 1 := by
  have h : 0 < 2 ^ f.wd := Nat.two_pow_pos _
  rw [State.raise, rd_wr_same, Nat.mod_eq_of_lt (by omega)]

/-- The register store stays canonical for the field's reset value. -/
theorem wr_wf_at (s : State) (f : Fld) (v i j k : Nat) (h : Store.wf (f.rst i j k) s.regs = true) :
    Store.wf (f.rst i j k) (s.wr f v i j k).regs = true := wf_put _ _ _ _ h

@[simp] theorem settle_pending (s t : State) : (s.settle t).pending = s.pending := rfl
@[simp] theorem settle_otp (s t : State) : (s.settle t).otp = s.otp.burnt t.otp := rfl
@[simp] theorem settle_rd (s t : State) (f : Fld) (i j k : Nat) : (s.settle t).rd f i j k = t.rd f i j k := rfl
@[simp] theorem settle_ac (s t : State) (f : Fld) (i j k : Nat) : (s.settle t).ac f i j k = t.ac f i j k := rfl

/-- What a main-domain command answers while its domain is released, and while it is not. -/
theorem whenMain_up (s : State) (f : State → State) (h : s.mainUp = true) : s.whenMain f = .next (s.settle (f s)) := by
  simp [State.whenMain, State.done, h]
theorem whenMain_down (s : State) (f : State → State) (h : s.mainUp = false) : s.whenMain f = .next (s.settle s) := by
  simp [State.whenMain, State.done, h]
theorem whenIsland_up (s : State) (f : State → State) (h : s.isl.up = true) : s.whenIsland f = .next (s.settle (f s)) := by
  simp [State.whenIsland, State.done, h]

/-- A command that has changed nothing leaves the state as it was. -/
theorem burnt_self (o : Otp) : o.burnt o = o := by
  cases o
  simp [Otp.burnt]
theorem settle_self (s : State) : s.settle s = s := by
  cases s
  simp [State.settle, burnt_self]

/-- Fuses blow one way only. -/
theorem burnt_within (a b : Otp) : a.Within (a.burnt b) where
  rows := rfl
  transport := rfl
  count := Nat.le_max_left _ _
  revoked := fun k h => by simp [Otp.burnt, Nat.testBit_or, h]
theorem within_trans {a b c : Otp} (h : a.Within b) (g : b.Within c) : a.Within c where
  rows := g.rows.trans h.rows
  transport := g.transport.trans h.transport
  count := le_trans h.count g.count
  revoked := fun k x => g.revoked k (h.revoked k x)
@[simp] theorem wr_ac (s : State) (f : Fld) (v : Nat) (i : Nat) (j : Nat) (k : Nat) (g : Fld) (a b c : Nat) : (s.wr f v i j k).ac g a b c = s.ac g a b c := rfl
@[simp] theorem sat_ac (s : State) (f : Fld) (n : Nat) (i : Nat) (j : Nat) (k : Nat) (g : Fld) (a b c : Nat) : (s.sat f n i j k).ac g a b c = s.ac g a b c := rfl
@[simp] theorem raise_ac (s : State) (f : Fld) (i : Nat) (j : Nat) (k : Nat) (g : Fld) (a b c : Nat) : (s.raise f i j k).ac g a b c = s.ac g a b c := rfl
@[simp] theorem bump_ac (s : State) (f : Fld) (i : Nat) (j : Nat) (k : Nat) (g : Fld) (a b c : Nat) : (s.bump f i j k).ac g a b c = s.ac g a b c := rfl
@[simp] theorem addTo_ac (s : State) (f : Fld) (n : Nat) (i : Nat) (j : Nat) (k : Nat) (g : Fld) (a b c : Nat) : (s.addTo f n i j k).ac g a b c = s.ac g a b c := rfl
@[simp] theorem peak_ac (s : State) (f : Fld) (v : Nat) (i : Nat) (j : Nat) (k : Nat) (g : Fld) (a b c : Nat) : (s.peak f v i j k).ac g a b c = s.ac g a b c := rfl
@[simp] theorem acw_rd (s : State) (f : Fld) (v : Nat) (i : Nat) (j : Nat) (k : Nat) (g : Fld) (a b c : Nat) : (s.acw f v i j k).rd g a b c = s.rd g a b c := rfl
@[simp] theorem event_rd (s : State) (block inst code : Nat) (detail : List Byte) (slice : Nat) (toSlice : Nat) (g : Fld) (a b c : Nat) : (s.event block inst code detail slice toSlice).rd g a b c = s.rd g a b c := rfl
@[simp] theorem event_ac (s : State) (block inst code : Nat) (detail : List Byte) (slice : Nat) (toSlice : Nat) (g : Fld) (a b c : Nat) : (s.event block inst code detail slice toSlice).ac g a b c = s.ac g a b c := rfl
@[simp] theorem logEvent_rd (s : State) (block inst code : Nat) (detail : List Byte) (slice : Nat) (g : Fld) (a b c : Nat) : (s.logEvent block inst code detail slice).rd g a b c = s.rd g a b c := rfl
@[simp] theorem logEvent_ac (s : State) (block inst code : Nat) (detail : List Byte) (slice : Nat) (g : Fld) (a b c : Nat) : (s.logEvent block inst code detail slice).ac g a b c = s.ac g a b c := rfl
@[simp] theorem eventBoth_rd (s : State) (block inst code : Nat) (detail : List Byte) (slice : Nat) (g : Fld) (a b c : Nat) : (s.eventBoth block inst code detail slice).rd g a b c = s.rd g a b c := rfl
@[simp] theorem eventBoth_ac (s : State) (block inst code : Nat) (detail : List Byte) (slice : Nat) (g : Fld) (a b c : Nat) : (s.eventBoth block inst code detail slice).ac g a b c = s.ac g a b c := rfl
@[simp] theorem sendHost_rd (s : State) (m : HostMsg) (g : Fld) (a b c : Nat) : (s.sendHost m).rd g a b c = s.rd g a b c := rfl
@[simp] theorem sendHost_ac (s : State) (m : HostMsg) (g : Fld) (a b c : Nat) : (s.sendHost m).ac g a b c = s.ac g a b c := rfl
@[simp] theorem setHart_rd (s : State) (h : Nat) (x : Hart) (g : Fld) (a b c : Nat) : (s.setHart h x).rd g a b c = s.rd g a b c := rfl
@[simp] theorem setHart_ac (s : State) (h : Nat) (x : Hart) (g : Fld) (a b c : Nat) : (s.setHart h x).ac g a b c = s.ac g a b c := rfl
@[simp] theorem modHart_rd (s : State) (h : Nat) (f : Hart → Hart) (g : Fld) (a b c : Nat) : (s.modHart h f).rd g a b c = s.rd g a b c := rfl
@[simp] theorem modHart_ac (s : State) (h : Nat) (f : Hart → Hart) (g : Fld) (a b c : Nat) : (s.modHart h f).ac g a b c = s.ac g a b c := rfl
@[simp] theorem setFunc_rd (s : State) (fn : Nat) (f : Func) (g : Fld) (a b c : Nat) : (s.setFunc fn f).rd g a b c = s.rd g a b c := rfl
@[simp] theorem setFunc_ac (s : State) (fn : Nat) (f : Func) (g : Fld) (a b c : Nat) : (s.setFunc fn f).ac g a b c = s.ac g a b c := rfl
@[simp] theorem setLane_rd (s : State) (l : Nat) (x : Lane) (g : Fld) (a b c : Nat) : (s.setLane l x).rd g a b c = s.rd g a b c := rfl
@[simp] theorem setLane_ac (s : State) (l : Nat) (x : Lane) (g : Fld) (a b c : Nat) : (s.setLane l x).ac g a b c = s.ac g a b c := rfl
@[simp] theorem setLink_rd (s : State) (n : Nat) (l : Link) (g : Fld) (a b c : Nat) : (s.setLink n l).rd g a b c = s.rd g a b c := rfl
@[simp] theorem setLink_ac (s : State) (n : Nat) (l : Link) (g : Fld) (a b c : Nat) : (s.setLink n l).ac g a b c = s.ac g a b c := rfl
@[simp] theorem modLink_rd (s : State) (n : Nat) (f : Link → Link) (g : Fld) (a b c : Nat) : (s.modLink n f).rd g a b c = s.rd g a b c := rfl
@[simp] theorem modLink_ac (s : State) (n : Nat) (f : Link → Link) (g : Fld) (a b c : Nat) : (s.modLink n f).ac g a b c = s.ac g a b c := rfl
@[simp] theorem setSock_rd (s : State) (n : Nat) (k : Sock) (g : Fld) (a b c : Nat) : (s.setSock n k).rd g a b c = s.rd g a b c := rfl
@[simp] theorem setSock_ac (s : State) (n : Nat) (k : Sock) (g : Fld) (a b c : Nat) : (s.setSock n k).ac g a b c = s.ac g a b c := rfl
@[simp] theorem modSock_rd (s : State) (n : Nat) (f : Sock → Sock) (g : Fld) (a b c : Nat) : (s.modSock n f).rd g a b c = s.rd g a b c := rfl
@[simp] theorem modSock_ac (s : State) (n : Nat) (f : Sock → Sock) (g : Fld) (a b c : Nat) : (s.modSock n f).ac g a b c = s.ac g a b c := rfl
@[simp] theorem setVol_rd (s : State) (v : Nat) (x : Option Vol) (g : Fld) (a b c : Nat) : (s.setVol v x).rd g a b c = s.rd g a b c := rfl
@[simp] theorem setVol_ac (s : State) (v : Nat) (x : Option Vol) (g : Fld) (a b c : Nat) : (s.setVol v x).ac g a b c = s.ac g a b c := rfl
@[simp] theorem setQp_rd (s : State) (q : Nat) (x : Option Qp) (g : Fld) (a b c : Nat) : (s.setQp q x).rd g a b c = s.rd g a b c := rfl
@[simp] theorem setQp_ac (s : State) (q : Nat) (x : Option Qp) (g : Fld) (a b c : Nat) : (s.setQp q x).ac g a b c = s.ac g a b c := rfl
@[simp] theorem setEng_rd (s : State) (e : Nat) (x : VaultEng) (g : Fld) (a b c : Nat) : (s.setEng e x).rd g a b c = s.rd g a b c := rfl
@[simp] theorem setEng_ac (s : State) (e : Nat) (x : VaultEng) (g : Fld) (a b c : Nat) : (s.setEng e x).ac g a b c = s.ac g a b c := rfl
@[simp] theorem setSlotK_rd (s : State) (i : Nat) (k : KeySlot) (g : Fld) (a b c : Nat) : (s.setSlotK i k).rd g a b c = s.rd g a b c := rfl
@[simp] theorem setSlotK_ac (s : State) (i : Nat) (k : KeySlot) (g : Fld) (a b c : Nat) : (s.setSlotK i k).ac g a b c = s.ac g a b c := rfl
@[simp] theorem setPipe_rd (s : State) (n : Nat) (p : PipeSt) (g : Fld) (a b c : Nat) : (s.setPipe n p).rd g a b c = s.rd g a b c := rfl
@[simp] theorem setPipe_ac (s : State) (n : Nat) (p : PipeSt) (g : Fld) (a b c : Nat) : (s.setPipe n p).ac g a b c = s.ac g a b c := rfl
@[simp] theorem modIsl_rd (s : State) (f : Island → Island) (g : Fld) (a b c : Nat) : (s.modIsl f).rd g a b c = s.rd g a b c := rfl
@[simp] theorem modIsl_ac (s : State) (f : Island → Island) (g : Fld) (a b c : Nat) : (s.modIsl f).ac g a b c = s.ac g a b c := rfl

end Sys2Proof.Laws
end

