-- ==== Sys2Proof/Laws/Ops.lean ====
section
/-! SUPPORT. What the shared operations do, said once: fields, outcomes, domains, the register path, what is due, work on rings. -/

namespace Sys2Proof.Laws
open Sys2Proof Sys2Proof.Machine

/-! ### Fields -/

/-- A write leaves every active value alone, and making a value active leaves every current value alone. -/
@[simp] theorem ac_wr (s : State) (f g : Fld) (v i j k i' j' k' : Nat) : (s.wr f v i j k).ac g i' j' k' = s.ac g i' j' k' := rfl
@[simp] theorem rd_acw (s : State) (f g : Fld) (v i j k i' j' k' : Nat) : (s.acw f v i j k).rd g i' j' k' = s.rd g i' j' k' := rfl

/-! ### Outcomes and domains -/

theorem done_eq (s t : State) : s.done t = .next (s.settle t) := rfl

/-- Burning more fuses keeps those that are blown. -/
theorem within_burnt (o a b : Otp) (h : o.Within a) : o.Within (a.burnt b) :=
  ⟨h.rows, h.transport, Nat.le_trans h.count (Nat.le_max_left _ _), fun k hk => by
    simp [Otp.burnt, Nat.testBit_or, h.revoked k hk]⟩

theorem whenMain_held (s : State) (f : State → State) (h : s.mainUp = false) : s.whenMain f = .next (s.settle s) := by
  simp [State.whenMain, State.done, h]

theorem whenIsland_down (s : State) (f : State → State) (h : s.isl.up = false) : s.whenIsland f = .next (s.settle s) := by
  simp [State.whenIsland, State.done, h]

/-! ### What is due -/

theorem drain_nil (n : Nat) (s : State) (h : s.due = []) : State.drain n s = s := by
  cases n with
  | zero => rfl
  | succ n => simp [State.drain, h]

/-- With nothing due, nothing happens. -/
@[simp] theorem drainDue_nil (s : State) (h : s.due = []) : s.drainDue = s := drain_nil 8192 s h

/-! ### The register path -/

/-- A write of a register that is in service for the requester is its block's write and what follows it. -/
theorem wrReg_takes (s : State) (req : Req) (code : Nat) (r : RegDef) (v n i j k : Nat) (h : s.takes req code n r i)
    (hw : r.flds.any Fld.writable = true) :
    s.wrReg req code r v n i j k = (s.blockWr req (blkOf code) n r i j k (v % 2 ^ r.width)).after := by
  obtain ⟨h1, h2, h3⟩ := h
  simp [State.wrReg, State.regWrite, State.regApply, State.after, h1, h2, h3, hw]

/-- A write of a block that does not answer changes nothing. -/
theorem wrReg_shut (s : State) (req : Req) (code : Nat) (r : RegDef) (v n i j k : Nat) (h : s.blkOpen (blkOf code) n = false) :
    s.wrReg req code r v n i j k = s := by
  simp [State.wrReg, h]

/-! ### Work on rings -/

/-- The oldest entry with one of the opcodes is performed. -/
theorem perform_some (s : State) (r : Nat) (ops : List Nat) (f : Ring → Flight → State → State) (x : Ring) (g : Flight)
    (hr : s.ring r = some x) (hg : s.toPerform r ops = some g) : s.perform r ops f = f x g s := by
  simp [State.perform, hr, hg]

/-- With no such entry nothing happens. -/
theorem perform_none (s : State) (r : Nat) (ops : List Nat) (f : Ring → Flight → State → State) (hg : s.toPerform r ops = none) :
    s.perform r ops f = s := by
  simp only [State.perform, hg]; cases s.ring r <;> rfl

/-- An entry is only found on a ring that exists. -/
theorem ring_of_toPerform (s : State) (r : Nat) (ops : List Nat) (g : Flight) (hg : s.toPerform r ops = some g) : ∃ x, s.ring r = some x := by
  cases h : s.ring r with
  | none => simp [State.toPerform, h] at hg
  | some x => exact ⟨x, rfl⟩

/-! ### Storage -/

/-- Writing HBM changes no byte outside the range. -/
theorem hbm_write_other (m : List Host.Cell) (bs : List Byte) (a c : Nat) (h : c < a ∨ a + bs.length ≤ c) :
    Mem.byte (Mem.write m a bs) c = Mem.byte m c := mem_byte_write_other bs m a c h

end Sys2Proof.Laws
end

