-- ==== Sys2Proof/WellFormed.lean ====
section
/-! DEFINITION. Which commands can arrive at all: operands that the type alone does not bound fit the register, the message
or the pin that brings them. A meaning takes any operand; one that does not fit is cut to its field. -/

namespace Sys2Proof.WellFormed

/-- A value fits a register of so many bytes. -/
def fits (size v : Nat) : Bool := v < 2 ^ (8 * size)

/-- An access of BAR0: an offset within it (64 MiB, 05_host_interface.md R117), and a value that fits the width. -/
def access (off size v : Nat) : Bool := off < 2 ^ 26 && size ≤ 8 && fits size v

/-- A half of a 64-bit register is 32 bits wide (00_scope.md R15). -/
def half (off v : Nat) : Bool := off < 2 ^ 26 && off % 4 == 0 && fits 4 v

/-- A flit is 256 bytes (15_wilotte_link.md R387). -/
def flit (bs : List Byte) : Bool := bs.length == 256

/-- A PFC frame names eight classes, each with 16 bits of quanta (08_network_ports.md R220). -/
def quanta (q : List Nat) : Bool := q.length == 8 && q.all (fits 2)

/-- A PCIe tag has 14 bits (05_host_interface.md, table Capabilities). -/
def tag (t : Nat) : Bool := t < 2 ^ 14

/-- An MCTP packet carries at most 64 bytes (21_management.md R522). -/
def packet (d : List Byte) : Bool := d.length ≤ 64

/-- A MAC address has 48 bits. -/
def mac (m : Nat) : Bool := m < 2 ^ 48

/-- A lane is shorted to another lane than itself (08_network_ports.md R227). -/
def short (l : Fin 144) (o : Option (Fin 144)) : Bool := o != some l

/-- A ring's doorbell count has 32 bits (07_rings.md R186). -/
def count (n : Nat) : Bool := fits 4 n

/-- An address of host memory has 64 bits. -/
def address (a : Nat) : Bool := fits 8 a

/-- A request that a function receives. -/
def request : InReq → Bool
  | .memRead a n => address a && n ≤ 4096
  | .memWrite a d _ => address a && d.length ≤ 4096
  | .io | .lockedRead | .atomic | .configType1 | .vendorMessage => true

end Sys2Proof.WellFormed

namespace Sys2Proof

/-- The command is well-formed; a command without an operand to check is. -/
def wellFormed : Instr → Bool
  | .registerWrite _ off size v => WellFormed.access off size v
  | .rcRead _ off size => WellFormed.access off size 0
  | .lowHalfWrite _ off v | .highHalfWrite _ off v => WellFormed.half off v
  | .lowHalfRead _ off | .highHalfRead _ off => WellFormed.half off 0
  | .hostHeartbeat _ v | .hbCfgWrite _ v | .ownerWrite _ _ v | .ftSourceChange _ v | .ftRateWrite _ v | .ftMboxState _ _ v
  | .chCfgWrite _ _ _ v => WellFormed.fits 4 v
  | .quotaWrite _ _ _ v | .evringWrite _ _ v | .gateForceWrite _ v => WellFormed.fits 8 v
  | .ctrValWrite _ _ v => WellFormed.fits 6 v
  | .dataFlitRx _ f _ | .ctrlFlitRx _ f _ | .nakRx _ f _ | .trainRx _ f _ | .downRx _ f _ => WellFormed.flit f
  | .pfcRx _ _ q => WellFormed.quanta q
  | .readCompletion _ _ t _ _ _ | .cplTimeout _ _ t => WellFormed.tag t
  | .mctpPacket _ _ _ _ _ d => WellFormed.packet d
  | .setMacAddress _ _ m _ => WellFormed.mac m
  | .laneShort l o => WellFormed.short l o
  | .doorbellPost _ _ _ _ n | .doorbellAck _ _ _ _ n => WellFormed.count n
  | .invalidationRequest _ _ _ _ _ a _ => WellFormed.address a
  | .inboundRequest _ _ q => WellFormed.request q
  | _ => true

end Sys2Proof
end

