-- ==== Sys2Proof/Tests/Slice0.lean ====
section
/-! SUPPORT. The model's own tests: states of a few registers, ill-formed commands, the spec's worked examples, published
vectors, single steps, and for every clause of a statement values that meet its hypotheses. -/

set_option Elab.async false

open Sys2Proof Sys2Proof.Machine

namespace Sys2Proof.Tests
open Sys2Proof.Machine

/-- The state that a command ends in. -/
def nextOf (o : Out) : Option State := match o with
  | .next t => some t
  | _ => none

/-- The main domain is released, and nothing else has happened. -/
def up : State := { State.reset with sec := { State.reset.sec with mainUp := true }, isl := { State.reset.isl with up := true, mainPg := true } }

/-- The main domain is released and register fields hold values. -/
def upWith (l : List (Fld × Nat)) : State := l.foldl (fun s p => s.wr p.1 p.2) up

/-- The main domain is released and fields of register arrays hold values. -/
def upAt (l : List (Fld × Nat × Nat × Nat)) : State := l.foldl (fun s p => s.wr p.1 p.2.1 p.2.2.1 p.2.2.2) up

/-- Function 0 of controller 0 is ready: cuff open, link up, enabled. -/
def hostUp : State :=
  upAt [(R.SEC_BOOT_STATUS_cuff_open, 1, 0, 0), (R.HIF_LINK_STATUS_up, 1, 0, 0), (R.HIF_PF_CFG_enable, 1, 0, 0)]

/-- A state with something of the host interface outside its registers. -/
def hostWith (h : Hif) : State := { hostUp with hif := h }

/-- A descriptor of 64 bytes with phase 1. -/
def desc (op : Nat) (rest : List Byte := []) : List Byte := (leBytes 1 op ++ [0, 1] ++ List.replicate 13 0 ++ rest ++ List.replicate 64 0).take 64

/-- An entry in flight. -/
def aFlight (d : List Byte) : Flight := { count := 0, tag := some 7, desc := d, slice := 0, sgen := 0 }

/-- An ACTIVE ring of slice 0 in HBM with one entry posted. -/
def aRing (type : Nat) : Ring :=
  { base := 0, log2 := 6, type := type, mem := true, anyOrder := false, irqEn := false, rearm := false, wbEn := false, prefetch := 0, slice := 0, target := 0, vector := 0, modCount := 0, modUs := 0, dbEn := false, dbPage := 0, tail := 1, head := 0, cpl := 0, ack := 0, wbAddr := 0, state := 1, lastStatus := 0, eng := {} }

/-- The ring with its entry in flight. -/
def flying (type : Nat) (d : List Byte) : Ring := { aRing type with head := 1, eng := { flight := [aFlight d] } }

/-- A stored frame of port 3 for port 5. -/
def aPkt : Pkt := { frame := { data := List.replicate 64 7, src := 3 }, pipe := 0, lane := 0, dest := 0x1005 }

/-- Port 5 is UP and has the frame in hand. -/
def sending : State :=
  { upAt [(R.PRT_PORT_STATUS_state, 2, 0, 5)] with swc := { State.reset.swc with stored := [{ id := 1, pkt := aPkt, cells := 1, banks := [0], acct := 24, charged := 1, copies := 1, full := true }] }, tm := { State.reset.tm with out := [{ d := 5, pkt := aPkt, at_ := 0, cls := 0, id := 1, mirror := false }] } }

/-- A table command descriptor for pipeline 0. -/
def tdesc (op stage idx act opt : Nat) (key : Nat := 0) : List Byte :=
  leBytes 1 op ++ [0, 1] ++ List.replicate 13 0 ++ [0] ++ leBytes 1 stage ++ leBytes 2 idx ++ leBytes 2 act ++ leBytes 1 opt ++ [16] ++ leBytes 20 key ++ List.replicate 20 0

/-- Ring 9 has a table command in flight. -/
def tabling (d : List Byte) : State := up.setRing 9 (flying 7 d)

/-- A QP in RTS whose send ring is ring 9 and whose receive ring is ring 8. -/
def aQp : Qp := { slice := 0, transport := 0, pd := 0, sqRing := 9, rqRing := 8, pipeCls := 0, state := 3, rc := 100, rt := 100 }

/-- QP 5 exists, and its send ring has a descriptor in flight. -/
def rdma (x : Qp) (d : List Byte) : State := (up.setRing 9 (flying 3 d)).setQp 5 (some x)

/-- An active slice 0 that may have four of every pool, and HBM that holds a record. -/
def roomy (b : List Byte) : State :=
  let s := upAt ((R.SLC_STATE_state, 1, 0, 0) :: (R.HIF_LINK_STATUS_up, 1, 0, 0) :: (List.range 16).map (fun p => (R.SLC_QUOTA_limit, 4, 0, p)))
  { s with mem := { s.mem with hbm := Mem.write [] 0 b } }

/-- A stored frame waits at the head of a queue. -/
def queued (s : State) (n : Nat) (k : Pkt) : State :=
  { s with swc := { s.swc with stored := [{ id := 1, pkt := { k with sid := 1 }, cells := 1, banks := [0], acct := 24, charged := 1, copies := 1, full := true }], queues := [(n, [{ id := 1, at_ := 0 }])] } }

/-- A packet waits at the RDMA engine for QP 5. -/
def arrived (x : Qp) (d : List Byte) : State := queued (up.setQp 5 (some x)) 584 { aPkt with frame := { data := d, src := 3 } }

/-- The frame of a RoCEv2 packet for QP 5, from address 0.0.0.0 to 0.0.0.0, its ICRC last. -/
def rocePacket (op n : Nat) (rest : List Byte) : List Byte :=
  let b := beBytes 1 op ++ [0, 0xFF, 0xFF, 0, 0, 0, 5, 0] ++ beBytes 3 n ++ rest
  let ip := [0x45, 0] ++ beBytes 2 (b.length + 32) ++ [0, 0, 0, 0, 0, 17, 0, 0] ++ List.replicate 8 0
  let udp := [0, 0, 0x12, 0xB7] ++ beBytes 2 (b.length + 12) ++ [0, 0]
  List.replicate 12 0 ++ [8, 0] ++ ip ++ udp ++ b ++ leBytes 4 (icrcOf false ip udp b)

def pktOf (d : List Byte) : Pkt := { aPkt with frame := { data := d, src := 3 } }

def noRoce : Roce := { ok := false, v6 := false, ce := false, op := 0, se := false, tver := 0, pkey := 0, dqp := 0, ackReq := false, psn := 0, body := [], ipHdr := [] }

/-- An RDMA write of four bytes through key 0x300 at address 0. -/
def wrBody : List Byte := leBytes 8 0 ++ [0, 0, 3, 0, 0, 0, 0, 4, 1, 2, 3, 4]

def wrMr : Mr := { state := 1, length := 64, kind := 1, access := 4 }

def wrPkt : State := (arrived { aQp with epsn := 7, flags := 17 } (rocePacket 10 7 wrBody)).setMr 3 wrMr

/-- A create record that names rings 9 and 8. -/
def qpRecord : List Byte := leBytes 28 0 ++ [9, 0, 8, 0] ++ leBytes 96 0

def qpMaking : State := (((roomy qpRecord).wr R.RDM_HUSK_MAP_loc 1 0).setRing 9 (flying 3 (desc 0x28))).setRing 8 { aRing 3 with target := 0x8000 }

/-- QP 5 in RESET, and a record that moves it to a state. -/
def qpMoving (n : Byte) : State := ((roomy (leBytes 4 0 ++ [n])).setRing 9 (flying 3 (desc 0x29 [0, 0, 0, 0, 0, 0, 0, 0, 5]))).setQp 5 (some { aQp with state := 0 })

def qpAsked : State := ((roomy []).setRing 9 (flying 3 (desc 0x2A [0, 0, 0, 0, 0, 0, 0, 0, 5]))).setQp 5 (some aQp)

/-- A volume record: 100 blocks of 512 bytes, at most 8 to a command, 4 commands at once, 1 ms, on socket 0. -/
def vrec : List Byte := leBytes 8 100 ++ [0, 0, 9, 2] ++ leBytes 4 8 ++ leBytes 8 0 ++ leBytes 2 4 ++ leBytes 2 1 ++ leBytes 36 0

/-- The module of socket 0, bound to slice 0, is reached. -/
def socketUp : State :=
  let s := ((roomy []).wr R.TSK_STATUS_pwr 3 0).wr R.SLC_BIND_sock_en 1 0
  s.setLink 0 { s.link 0 with state := 4 }

/-- A volume record in the stage. -/
def volStaged (b : List Byte) : State := (List.range 8).foldl (fun s j => s.wr R.STQ_VOL_STAGE_rec (fieldLE b (8 * j) 8) j) socketUp

/-- Volume 7 exists, in a state, and its queue, ring 9, has a command in flight. -/
def stq (st : Nat) (x : Vol) (d : List Byte) : State :=
  ((socketUp.wr R.STQ_VOL_STATE_state st 7).setVol 7 (some x)).setRing 9 { flying 4 d with target := 7, head := 1, tail := 1 }

def aVol : Vol := { rcd := vrec }

/-- Command in slot 0 has been issued at FT 0. -/
def busyVol : Vol := { aVol with cmds := [{ slot := 0, ring := 9, count := 0, issued := 0 }] }

/-- A command of one block. -/
def oneBlock (op : Nat) : List Byte := desc op [0, 0, 0, 0, 1]

/-- A link's layer is as given. -/
def linked (n : Nat) (l : Link) : State := up.setLink n l

/-- A CTRL, DATA or other flit of a type, with nothing else in it. -/
def flitBytes (f : Flit) : List Byte := f.bytes

/-- A payload of TRAIN for version v: role, no seen, id 0, offers 64. -/
def trainBytes (v role : Nat) : List Byte := leBytes 2 v ++ leBytes 1 role ++ leBytes 13 0 ++ leBytes 2 64 ++ leBytes 2 64 ++ leBytes 2 64 ++ leBytes 2 64

def heldFlit : SentFlit := { seq := 5, vc := 1, units := 1, bad := false, payload := List.replicate 16 1, at_ := 0 }

/-- A socket whose module has power state w and whose layer is k. -/
def sockIs (w : Nat) (k : Sock) : State := (socketUp.wr R.TSK_STATUS_pwr w 0).setSock 0 k

/-- A transaction has arrived from the module of socket 0. -/
def fromMod (s : State) (t : Txn) : State := s.setLink 0 { s.link 0 with rxq := [(0, t)] }

/-- Socket-to-host window 0 reaches 4 KiB of HBM at 0, host-to-socket window 0 gives function 0 4 KiB at 0. -/
def windowed : State :=
  [(R.TSK_ACT_S2H_BASE_en, 1), (R.TSK_ACT_S2H_BASE_wr_en, 1), (R.TSK_ACT_S2H_BASE_rd_en, 1), (R.TSK_ACT_S2H_BASE_kind, 1), (R.TSK_ACT_S2H_SIZE_size, 1),
   (R.TSK_ACT_H2S_BASE_en, 1), (R.TSK_ACT_H2S_BASE_wr_en, 1), (R.TSK_ACT_H2S_BASE_rd_en, 1), (R.TSK_ACT_H2S_SIZE_size, 1)].foldl (fun s p => s.wr p.1 p.2 0 0) socketUp

/-- A transaction of a type with data. -/
def txn (vc type sub tag arg : Nat) (bs : List Byte := []) (len : Nat := bs.length) : Txn := { vc := vc, data := txnHeader type sub len tag 0 arg ++ padUnits bs }

/-- Function 0 is ready, with BAR4 and memory enabled. -/
def bar4Up (s : State) : State :=
  let t := ((s.wr R.SEC_BOOT_STATUS_cuff_open 1).wr R.HIF_LINK_STATUS_up 1).wr R.HIF_PF_CFG_enable 1
  (t.wr R.HIF_PF_CFG_bar4_en 1).setFunc 0 { t.func 0 with memEn := true }

/-- A read toward the module with tag 5 is outstanding for nobody. -/
def aRead : SockRd := { tag := 5, len := 4, off := 0, epoch := 0, issued := 0, for_ := .orphan 0 0 0 }

/-- An INTR with index 0 has arrived, and slice 0 is bound to function 0. -/
def intrUp : State := fromMod ((bar4Up socketUp).wr R.TSK_INTR_CFG_count 4 0) (txn 1 0x12 0 0 0)

/-- Thread 3 of core 0 is as given, running unless the caller says otherwise; its channel 5 is enabled. -/
def chanUp (k : Hart) : State :=
  let s := ((up.wr R.FCR_CH_CFG_enable 1 0 5).wr R.FCR_CH_CFG_depth 1 0 5).wr R.FCR_LM_CFG_base 0 0 3
  ((s.wr R.FCR_CH_CFG_owner 3 0 5).acw R.FCR_RXP_CFG_owner 3 0 2).setHart 3 { k with state := if k.state = 0 then 1 else k.state }

/-- Thread 3 has a transmit descriptor of 60 bytes at 0 of its local slice, and port 2 is its own. -/
def txUp : State :=
  let s := (((chanUp { x := [(11, 2)] }).wr R.FCR_LM_CFG_size 1 0 3).acw R.FCR_TXP_CFG_owner 3 0 2).acw R.FCR_TXP_CFG_enable 1 0 2
  s.setFcore 0 { s.fcore 0 with lm := Mem.write [] 8 [60] }

/-- Receive port 2 of core 0 is enabled with one entry of 256 bytes, and a frame waits for it. -/
def rxUp : State := queued ((chanUp {}).acw R.FCR_RXP_CFG_enable 1 0 2 |>.acw R.FCR_RXP_CFG_log2_esize 8 0 2) 4690 aPkt

/-- Thread 3 waits in ch.recv, and a message has arrived. -/
def waking : State := (chanUp { state := 2, x := [(11, 5)], wait := some { kind := 1, obj := 5, word := customWord 0 4 0 11 10, len := 4 } }).setMsgs 0 5 [{ words := [1], sender := 2 }]

/-- Thread 3 is alone in domain 0 and waits in ch.recv. -/
def stuck : State := (chanUp { state := 2, x := [(11, 5)], wait := some { kind := 1, obj := 5, word := customWord 0 4 0 11 10, len := 4 } })

/-- Breakpoint 0 of core 0 matches execution at 64 by thread 3. -/
def broken : State := ((chanUp {}).wr R.FCR_BRK_ADDR_addr 64 0 0).wr R.FCR_BRK_CTL_kind 1 0 0 |>.wr R.FCR_BRK_CTL_threads 8 0 0

/-- Thread 3's slot has come, and ADDI x10, x0, 7 stands at its PC. -/
def issuing : State :=
  let s := (chanUp {}).wr R.FCR_LM_CFG_size 1 0 3
  s.setFcore 0 { s.fcore 0 with clk := 3, lm := Mem.write [] 0 [0x13, 0x05, 0x70, 0x00] }

/-- Thread 3 has 4 KiB that begin with given bytes; slots 4 and 6 hold a key of 16 bytes, slot 5 is EMPTY; x11 is 0, x12 is 4. -/
def vaultUp (b : List Byte) : State :=
  let s := (((chanUp { x := [(12, 4)] }).wr R.FCR_LM_CFG_size 1 0 3).wr R.VLT_STATUS_key_ready 1).wr R.VLT_CFG_lock_max 8
  let t := s.setFcore 0 { s.fcore 0 with lm := Mem.write [] 0 b }
  ((t.setSlotK 4 { state := 3, size := 1, usage := 7, key := leBytes 16 1 }).setSlotK 5 { state := 1 }).setSlotK 6 { state := 3, size := 1, usage := 8, key := leBytes 16 1 }

/-- Thread 3 waits for an engine to encrypt one block. -/
def asking : State :=
  let s := vaultUp []
  { s with vlt := { s.vlt with reqs := [{ hart := 3, op := some { hart := 3, cmac := false, a := 0, b := 4, slot := 4, locked := false } }] } }

/-- Engine 7 encrypts a block of thread 3, which waits for it. -/
def running : State :=
  ((vaultUp []).modHart 3 (fun k => { k with state := 2, wait := some { kind := 8, obj := 0, word := customWord 3 0 12 11 10, len := 4 } })).setEng 7
    { run := some { hart := 3, cmac := false, a := 0, b := 4, slot := 4, locked := false, key := leBytes 16 1 }, retrySec := 5 }

/-- A key command is in flight on ring 9 of an ACTIVE slice. -/
def keyCmd (op : Nat) (rest : List Byte) : State :=
  let s := ((vaultUp []).wr R.SLC_STATE_state 1 0).wr R.SLC_QUOTA_limit 9 0 5
  s.setRing 9 (flying 0 (desc op rest))

/-- An import of a blob into slot 5 under slot 6 is in progress. -/
def importing (b : List Byte) : State :=
  let s := (keyCmd 0x7A []).setSlotK 5 { state := 2 }
  { s with vlt := { s.vlt with imports := [{ slot := 5, kek := 6, blob := b, for_ := .ring 9 0 }] } }

/-- The RFC 3394 wrap, under the key 01 00 … 00 of 16 bytes, of a plaintext for a 128-bit key of zeros with usage 1; computed
apart from the model. -/
def wrapped : List Byte := [41, 82, 138, 222, 114, 23, 106, 39, 169, 94, 188, 217, 171, 137, 31, 22, 126, 54, 88, 162, 225, 121, 254, 23, 76, 29, 151, 105, 240, 188, 73, 224]

/-- Programmable counter i is enabled and selects as the fields say. -/
def counting (i : Nat) (l : List (Fld × Nat)) : State := l.foldl (fun s p => s.wr p.1 p.2 i) (up.wr R.PMC_CTR_CFG_enable 1 i)

/-- The counter saw its event in the last clock. -/
def hotNow (s : State) (i : Nat) : State := { s with pmc := { s.pmc with hot := [i] } }

/-- Counter 200 samples an event of thread 3 and is one short of its wrap. -/
def sampling : State :=
  ((counting 200 [(R.PMC_CTR_CFG_block, 0xF), (R.PMC_CTR_CFG_event, 64), (R.PMC_CTR_CFG_sub, 3), (R.PMC_CTR_CFG_sample, 1)]).wr R.PMC_CTR_VAL_value (2 ^ 48 - 1) 200).setHart 3 { state := 1 }

/-- Dumps of set 4 go to HBM every 50 us, the first now. -/
def dumping : State :=
  let s := ((((roomy []).wr R.PMC_DUMP_BASE_loc 1).wr R.PMC_DUMP_CFG_sets 16).wr R.PMC_DUMP_CFG_period_us 50).wr R.PMC_DUMP_CFG_log2_slots 1
  { s with pmc := { s.pmc with dumpAt := some 0 } }

def aDump : DumpRec := { seq := 1, stamp := 0, period := 50, sets := 16, flags := 0, lost := 0, values := [9] }

/-- A record is being written. -/
def dumpBusy : State := { dumping with pmc := { dumping.pmc with dump := some aDump } }

/-- The thermal step is n, the peak reading 127. -/
def hot (n : Nat) : State := ((up.wr R.HLT_THERM_STATUS_step n).wr R.HLT_THERM_STATUS_warn 1).wr R.HLT_THERM_STATUS_peak_c 127

/-- Sensor 4 reads c, the others 40. -/
def temps (c : Int) : List (Option Int) := (List.range 18).map (fun i => some (if i = 4 then c else 40))

/-- The readings have been taken. -/
def seen (s : State) (c : Int) : State := (List.range 18).foldl (fun s i => s.sensorSeen i (((temps c)[i]?).getD none)) s

/-- The island holds the main domain in reset after a trip. -/
def tripped : State := { State.reset with isl := { State.reset.isl with up := true, mainPg := true, hold := some { cause := 2, since := 0 } } }

/-- A unit in a state with a command that runs. -/
def unitDo (kind i st op : Nat) (force : Bool) : State := (up.setUnit kind i st).setCmds [{ kind := kind, index := i, op := op, force := force, since := 0, wasFenced := false }]
def unitIn (kind i st op : Nat) : State := unitDo kind i st op false

/-- The forced drain of core 7 has disabled its threads. -/
def drainForced : State := (List.range 16).foldl (fun s k => s.threadDisable (16 * 7 + k)) (((unitDo 1 7 1 1 true).setHart 115 { state := 1 }).runTo (0 + max 1 (((unitDo 1 7 1 1 true).setHart 115 { state := 1 }).rd R.HLT_DRAIN_CFG_drain_ms) * unitsPerMs))

/-- An MCTP message is being assembled. -/
def assembling : State := { up with isl := { up.isl with asm := [{ src := 8, tag := 9, data := [7], seq := 3 }] } }

/-- The always-on log holds record 7. -/
def logged : State := { up with isl := { up.isl with log := [(7, { stamp := 0, code := 9, block := 3, inst := 0, detail := [1] })] } }

/-- A PLDM update is under way and has delivered nothing yet. -/
def updating (u : UpdSess) : State :=
  let s := up.wr R.SEC_BOOT_STATUS_state 3
  { s with isl := { s.isl with upd := some u } }

/-- A piece of the image is expected. -/
def updatingNow : State :=
  let s := updating { table := true, running := true, offset := 1024, body := 4096 }
  { s with sec := { s.sec with upd := some { mbox := 1, target := 1, hdr := [] } } }

/-- NC-SI channels 3 and 5 are initialized. -/
def ncsiUp : State := (up.setNcsi 3 { ready := true }).setNcsi 5 { ready := true, tx := true }

/-- Port 5 is UP with a frame in transmission, the cuff is open. -/
def ncsiBusy : State :=
  let s := { sending with isl := ncsiUp.isl }
  s.wr R.SEC_BOOT_STATUS_cuff_open 1

/-- Sublink 0 is ACTIVE. -/
def subUp : State := up.setLink 8 { up.link 8 with state := 4 }

/-- A transaction has arrived on sublink 0. -/
def subGot (t : Txn) : State := up.setLink 8 { up.link 8 with state := 4, rxq := [(0, t)] }

/-- Heartbeat 6 of a primary of priority 255. -/
def beat : Txn := { vc := 3, data := txnHeader 0x40 0 255 6 0 0 }

/-- Joining, with n heartbeats in a row, the last number 5, and another waiting. -/
def beating (n : Nat) : State :=
  let s := (subGot beat).wr R.PAR_STATUS_state 1
  { s with pair := { s.pair with row := n, lastSeq := some 5 } }

/-- The third heartbeat has been taken. -/
def beaten : State :=
  let t := (beating 2).leaveRx 8 (0, beat)
  (({ t with pair := { t.pair with row := 3, lastSeq := some 6, lastHb := t.time.ft, prio := 255, partnerPrimary := true } } : State).wr R.PAR_STATUS_ft_offset_ns (unsigned 32 (max (-(2 ^ 31 - 1)) (min (2 ^ 31 - 1) (ft64Ns 0 + (t.rd R.PAR_LINK_link_ns : Nat) - ft64Ns (ft64 0))))))

/-- The device is PAIRED and primary. -/
def paired : State := (up.wr R.PAR_STATUS_state 2).acw R.PAR_CFG_enable 1

/-- The partner has been lost. -/
def lost (s : State) : State :=
  let t := (s.runTo (paired.ac R.PAR_CFG_miss_max * 10 * unitsPerUs)).addTo R.PAR_CNT_count (paired.ac R.PAR_CFG_miss_max) 5
  ((((t.wr R.PAR_STATUS_state 3).raise R.PAR_STATUS_resync).eventBoth 0x15 0 3 (List.replicate 16 0)).dropDest 72)

/-- The partner's write of 7 to HLT_DRAIN_CFG. -/
def mirrorTxn : Txn := { vc := 1, data := txnHeader 0x41 0 0 3 0 (R.reg_HLT_DRAIN_CFG.base + 4 * 2 ^ 32) ++ leBytes 8 (7 * 65536) ++ leBytes 8 0 }

/-- A transit frame. -/
def transit : Txn := { vc := 0, data := txnHeader 1 0 60 0 0 0 ++ List.replicate 64 0 }

/-- A SEND of n bytes at 0. -/
def sendDesc (n : Nat) : List Byte := desc 0x10 (leBytes 8 0 ++ leBytes 4 n)

/-- Ring 9 has a SEND in flight. -/
def sendingRing (n : Nat) : State := (roomy (leBytes 60 7)).setRing 9 (flying 0 (sendDesc n))

/-- Ring 9, in host memory, has a SEND in flight. -/
def sendWaiting : State :=
  ((hostWith { funcs := [(0, { bme := true, bmeSeen := true })] }).wr R.SLC_BIND_host_en 1).setRing 9 { flying 0 (sendDesc 60) with mem := false }

/-- Ring 9 has a SEND in flight whose payload lies outside the slice's memory. -/
def sendFailing : State := (roomy []).setRing 9 (flying 0 (desc 0x10 (leBytes 8 (2 ^ 60) ++ leBytes 4 60)))

/-- A frame waits in receive queue 5, whose ring is ring 9. -/
def receiving (x : Ring) : State := (queued (roomy []) 597 aPkt).setRing 9 x

/-- A buffer of 64 bytes at 0. -/
def rxDesc : List Byte := desc 0x11 (leBytes 8 0 ++ leBytes 4 64)

def rxFlight : Flight := { aFlight rxDesc with performed := true }

def rxRing9 : Ring := { aRing 1 with head := 1, eng := { flight := [rxFlight] }, target := 5 }

/-- Ring 9 has an entry that may start. -/
def startRing : Ring := { aRing 0 with eng := { copies := [(0, desc 0)] } }
def starting : State := (upAt [(R.SLC_STATE_state, 1, 0, 0), (R.SLC_QUOTA_limit, 4, 0, 1)]).setRing 9 startRing

end Sys2Proof.Tests

open Sys2Proof.Tests

/-! ### Ill-formed commands are refused -/

theorem test_wf_access : wellFormed (.registerWrite .host (2 ^ 26) 4 0) = false := by decide +kernel
theorem test_wf_access_value : wellFormed (.registerWrite .host 0 4 (2 ^ 32)) = false := by decide +kernel
theorem test_wf_access_good : wellFormed (.registerWrite .host 0 4 (2 ^ 32 - 1)) = true := by decide +kernel
theorem test_wf_half : wellFormed (.lowHalfWrite .host 2 0) = false := by decide +kernel
theorem test_wf_fits : wellFormed (.quotaWrite .host 0 0 (2 ^ 64)) = false := by decide +kernel
theorem test_wf_flit : wellFormed (.dataFlitRx 0 [1, 2] true) = false := by decide +kernel
theorem test_wf_quanta : wellFormed (.pfcRx 0 0 [1]) = false := by decide +kernel
theorem test_wf_tag : wellFormed (.cplTimeout 0 0 (2 ^ 14)) = false := by decide +kernel
theorem test_wf_packet : wellFormed (.mctpPacket 0 0 true true 0 (List.replicate 65 0)) = false := by decide +kernel
theorem test_wf_mac : wellFormed (.setMacAddress 0 0 (2 ^ 48) true) = false := by decide +kernel
theorem test_wf_short : wellFormed (.laneShort 3 (some 3)) = false := by decide +kernel
theorem test_wf_address : wellFormed (.invalidationRequest 0 0 0 none false (2 ^ 64) 4096) = false := by decide +kernel
theorem test_wf_request : wellFormed (.inboundRequest 0 0 (.memRead 0 8192)) = false := by decide +kernel

/-! ### The spec's worked examples -/

/-- 00_scope.md R21, the example: second 1,700,000,000, nanosecond 250.5. -/
theorem test_ft_fields : (let u := 1700000000 * unitsPerSec + 250 * unitsPerNs + unitsPerNs / 2;
    ftSec u = 0x6553F100 ∧ ftNs u = 0xFA ∧ ftFrac u = 0x8000 ∧ ft64 u = 0x6553F100000000FA) := by decide +kernel

/-- 04_memories_ecc.md R113, the example: granule 1,165 of pseudo-channel 5 lies in pseudo-channel 32 at 0x2F41_2000. -/
theorem test_spare_place : sparePlace 5 1165 = (32, 0x2F412000) := by decide +kernel

/-- 06_slices.md R164, the example: slice 2 is served from its reserve, slice 1 from the unreserved entries. -/
theorem test_pool_reserve :
    (let s := upAt ([(R.SLC_QUOTA_reserve, 4096, 1, 3), (R.SLC_QUOTA_reserve, 4096, 2, 3), (R.SLC_QUOTA_reserve, 4096, 3, 3),
        (R.SLC_QUOTA_limit, 8192, 1, 3), (R.SLC_QUOTA_in_use, 5000, 1, 3), (R.SLC_QUOTA_in_use, 1000, 2, 3),
        (R.SLC_QUOTA_in_use, 4096, 3, 3), (R.SLC_QUOTA_in_use, 2000, 0, 3), (R.SLC_QUOTA_reserve, 0, 0, 3)]);
      s.freeUnres 3) = 1192 := by decide +kernel

/-- 09_parsing.md R255, the example: both directions of a TCP connection have hash 0x10ED_30AF. -/
theorem test_hash : hashMix 0 0x0A010203 0x0A040506 49152 443 6 = 0x10ED30AF ∧
    hashMix 0 0x0A040506 0x0A010203 443 49152 6 = 0x10ED30AF := by decide +kernel

/-- 11_switch_core.md R289, the example: five free banks are granted 2, 2, 1 to inputs 1, 4, 8 in that order. -/
theorem test_matching : ((matching [(1, 2), (4, 2), (8, 2)] [0, 1, 2, 3, 4]).map (·.1)) = [1, 1, 4, 4, 8] := by decide +kernel

/-- 15_wilotte_link.md R389, the example: the CTRL flit's first and last eight bytes. -/
theorem test_flit_example : (let b := ({ type := 2, ack := 0x2A5, crVc := 1, cr := 0x3C8 } : Flit).bytes;
    b.take 8 = [0x02, 0, 0, 0xA5, 0x12, 0xF2, 0, 0] ∧ b.drop 248 = [0xC9, 0xFF, 0xFF, 0x68, 0x77, 0x58, 0xF6, 0xFF]) := by decide +kernel

/-- 17_flow_cores.md R449, the example: ch.commit a0, a1. -/
theorem test_commit_word : customWord 0 1 0 11 10 = 0x0205850B := by decide +kernel

/-- 17_flow_cores.md R445, the example: in clock 3, with thread 3 blocked, fill thread 8 issues. -/
theorem test_fill_thread :
    ((((up.setHart 3 { state := 2 }).setHart 8 { state := 1 }).setHart 9 { state := 1 }).setFcore 0 { up.fcore 0 with clk := 3 }).issuer 0 = some 8 := by
  decide +kernel

/-! ### Published vectors of the standards that the spec names -/

/-- FIPS 197, appendix C.1. -/
theorem test_aes128 : aesBlock [0, 1, 2, 3, 4, 5, 6, 7, 8, 9, 10, 11, 12, 13, 14, 15]
    [0x00, 0x11, 0x22, 0x33, 0x44, 0x55, 0x66, 0x77, 0x88, 0x99, 0xAA, 0xBB, 0xCC, 0xDD, 0xEE, 0xFF] false =
    [0x69, 0xC4, 0xE0, 0xD8, 0x6A, 0x7B, 0x04, 0x30, 0xD8, 0xCD, 0xB7, 0x80, 0x70, 0xB4, 0xC5, 0x5A] := by decide +kernel

/-- FIPS 197, appendix C.3, inverse. -/
theorem test_aes256_inverse : aesBlock ((List.range 32).map (BitVec.ofNat 8))
    [0x8E, 0xA2, 0xB7, 0xCA, 0x51, 0x67, 0x45, 0xBF, 0xEA, 0xFC, 0x49, 0x90, 0x4B, 0x49, 0x60, 0x89] true =
    [0x00, 0x11, 0x22, 0x33, 0x44, 0x55, 0x66, 0x77, 0x88, 0x99, 0xAA, 0xBB, 0xCC, 0xDD, 0xEE, 0xFF] := by decide +kernel

/-- RFC 3394, section 4.1. -/
theorem test_unwrap : keyUnwrap [0, 1, 2, 3, 4, 5, 6, 7, 8, 9, 10, 11, 12, 13, 14, 15]
    [0x1F, 0xA6, 0x8B, 0x0A, 0x81, 0x12, 0xB4, 0x47, 0xAE, 0xF3, 0x4B, 0xD8, 0xFB, 0x5A, 0x7B, 0x82, 0x9D, 0x3E, 0x86, 0x23, 0x71, 0xD2, 0xCF, 0xE5] =
    some [0x00, 0x11, 0x22, 0x33, 0x44, 0x55, 0x66, 0x77, 0x88, 0x99, 0xAA, 0xBB, 0xCC, 0xDD, 0xEE, 0xFF] := by decide +kernel

/-- The CRC-32 check value of the nine digits, which is the FCS of a frame of those bytes (IEEE 802.3). -/
theorem test_crc32 : crc32 [0x31, 0x32, 0x33, 0x34, 0x35, 0x36, 0x37, 0x38, 0x39] = 0xCBF43926 := by decide +kernel

/-! ### Single steps -/

/-- 17_flow_cores.md R435: ADDI x10, x0, 7, in thread 3's slot. -/
theorem test_addi : (nextOf (exec (.instructionIssue 0) issuing)).map (fun t => (t.xr 3 10, (t.hart 3).pc)) = some (7, 4) := by decide +kernel

/-- 02_fabric_time.md R49: FT_CTRL.source 3 is refused and counted. -/
theorem test_source_refused : (nextOf (exec (.ftSourceChange .host 3) up)).map (fun t => t.rd R.GLB_REFUSED_WR_count) = some 1 := by decide +kernel

/-- 01_architecture.md R41: seizure without a lapse sets seize_refused alone. -/
theorem test_seize_refused : (nextOf (exec (.seize .mgmt) up)).map (fun t => (t.rd R.GLB_HB_STATUS_seize_refused, t.rd hdrOwner 0x100000)) = some (1, 0) := by
  decide +kernel

/-- 01_architecture.md R41, R43: seizure after a lapse moves the block and marks it. -/
theorem test_seize : (nextOf (exec (.seize .mgmt) (upWith [(R.GLB_HB_STATUS_lapsed, 1)]))).map (fun t => (t.rd hdrOwner 0x100000, t.rd hdrSeized 0x100000)) = some (1, 1) := by
  decide +kernel

/-- 13_rdma.md R358, the example: after a CNP at 800,000 Mb/s with alpha 1 the rate is 400,000. -/
theorem test_cnp : (nextOf (exec .cnpRx (arrived { aQp with rc := 800000, rt := 800000 } (rocePacket 0x81 0 (leBytes 16 0))))).map (fun t => ((t.qp 5).map (·.rc))) = some (some 400000) := by decide +kernel

/-! ### Values that meet the hypotheses of the statements -/

/-- Values meet the hypotheses of clauses 1 to 5 of HeartbeatAndOwnership. -/
theorem witness_HeartbeatAndOwnership_1 :
    (∃ (s : State) (v : Nat), s.takes .host 0x01 0 R.reg_GLB_HOST_HB ∧ v < 2 ^ 32) ∧
    (∃ (s : State) (v : Nat), s.takes .mgmt 0x01 0 R.reg_GLB_HB_CFG ∧ v < 2 ^ 16) ∧
    (∃ (s : State), s.mainUp = true ∧ s.rd R.GLB_HB_CFG_timeout_ms ≠ 0) ∧
    (∃ (s : State), s.takes .mgmt 0x01 0 R.reg_GLB_SEIZE ∧ s.on R.GLB_HB_STATUS_lapsed = true) ∧
    (∃ (s : State) (req : Req) (base : Nat) (v : Nat), s.blkIn base = true ∧ base ≠ 0x3C00000 ∧ s.ownerOk req base = true ∧ s.pairState ≠ 2 ∧ v < 2) :=
  ⟨⟨up, 7, by decide +kernel⟩,
   ⟨up, 0, by decide +kernel⟩,
   ⟨up, by decide +kernel⟩,
   ⟨(upWith [(R.GLB_HB_STATUS_lapsed, 1)]), by decide +kernel⟩,
   ⟨up, .host, 0x100000, 1, by decide +kernel⟩⟩

/-- Values meet the hypotheses of clauses 1 to 6 of FabricTimeCommands. -/
theorem witness_FabricTimeCommands_1 :
    (∃ (s : State) (req : Req), s.takes req 0x02 0 R.reg_FT_SNAP) ∧
    (∃ (s : State) (req : Req) (v : Nat), s.takes req 0x02 0 R.reg_FT_CTRL ∧ v < 2 ^ 32 ∧ v % 4 ≠ 3 ∧ v % 4 ≠ s.rd R.FT_CTRL_source) ∧
    (∃ (s : State) (req : Req) (v : Nat), s.takes req 0x02 0 R.reg_FT_CTRL ∧ v < 2 ^ 32 ∧ v % 4 = 3) ∧
    (∃ (s : State) (req : Req) (v : Nat), s.takes req 0x02 0 R.reg_FT_RATE ∧ v < 2 ^ 32 ∧ s.rd R.FT_CTRL_source ≠ 2) ∧
    (∃ (s : State) (req : Req) (u : Nat), s.takes req 0x02 0 R.reg_FT_STEP_CTRL ∧ s.on R.FT_STEP_CTRL_busy = false ∧ s.rd R.GLB_EPOCH_STATUS_state = 0 ∧
      (s.time.ft : Int) + signed 64 (s.rd R.FT_STEP_NS_delta) * unitsPerNs = u ∧ u < ftLimit) ∧
    (∃ (s : State) (req : Req), s.takes req 0x02 0 R.reg_FT_STEP_CTRL ∧ s.on R.FT_STEP_CTRL_busy = false ∧ s.rd R.GLB_EPOCH_STATUS_state = 0 ∧ s.rd
      R.FT_SET_NS_ns < 1000000000) :=
  ⟨⟨up, .host, by decide +kernel⟩,
   ⟨up, .host, 2, by decide +kernel⟩,
   ⟨up, .host, 3, by decide +kernel⟩,
   ⟨up, .host, 0x80000000, by decide +kernel⟩,
   ⟨(upWith [(R.FT_STEP_NS_delta, 5)]), .host, (5 * unitsPerNs), by decide +kernel⟩,
   ⟨(upWith [(R.FT_SET_NS_ns, 999999999)]), .host, by decide +kernel⟩⟩

/-- Values meet the hypotheses of clauses 7 to 10 of FabricTimeCommands. -/
theorem witness_FabricTimeCommands_2 :
    (∃ (s : State) (c : Fin 64) (v : Nat), s.takes .flow 0x0F c R.reg_FCR_FT_MBOX c ∧ s.rd R.FT_CTRL_source = 1 ∧ v = 2 ∨ v = 3 ∨ v = 4) ∧
    (∃ (s : State) (edge : Int) (rate : Int), s.mainUp = true ∧ s.rd R.FT_CTRL_source = 2 ∧ s.rd R.FT_PPS_CFG_cable_ns = 0 ∧ edge.natAbs ≤ 1000000 ∧ s.rd
      R.FT_CTRL_lock_ns < edge.natAbs ∧ edge.natAbs ≤ 4 * s.rd R.FT_CTRL_lock_ns ∧ s.rd R.FT_STATUS_state ≠ 4) ∧
    (∃ (s : State), s.mainUp = true ∧ s.rd R.FT_CTRL_source = 2) ∧
    (∃ (s : State), s.mainUp = true ∧ s.rd R.FT_CTRL_source = 2) :=
  ⟨⟨(upWith [(R.FT_CTRL_source, 1)]), 63, 4, by decide +kernel⟩,
   ⟨(upWith [(R.FT_CTRL_source, 2), (R.FT_CTRL_lock_ns, 100)]), -101, 3, by decide +kernel⟩,
   ⟨(upWith [(R.FT_CTRL_source, 2)]), by decide +kernel⟩,
   ⟨(upWith [(R.FT_CTRL_source, 2)]), by decide +kernel⟩⟩

/-- Values meet the hypotheses of clauses 1 to 6 of WatchdogsAndEpochs. -/
theorem witness_WatchdogsAndEpochs_1 :
    (∃ (s : State) (req : Req) (w : Fin 16), s.takes req 0x02 0 R.reg_FT_WDOG_KICK w ∧ (s.wdogStart w).isSome = true) ∧
    (∃ (s : State) (w : Fin 16) (t0 : Nat), s.mainUp = true ∧ s.wdogStart w = some t0 ∧ s.rd R.FT_WDOG_CFG_action w = 0) ∧
    (∃ (s : State) (req : Req), s.takes req 0x01 0 R.reg_GLB_EPOCH_CTRL ∧ s.rd R.GLB_EPOCH_STATUS_state = 0 ∧ ¬(s.rd R.GLB_EPOCH_ARM_arm 0 = 0 ∧ s.rd
      R.GLB_EPOCH_ARM_arm 1 = 0) ∧ ft64Valid (s.rd R.GLB_EPOCH_T_t) = true ∧ s.time.ft + 20 * unitsPerUs ≤ ft64Units
      (s.rd R.GLB_EPOCH_T_t) ∧ ft64Units (s.rd R.GLB_EPOCH_T_t) ≤ s.time.ft + 60 * unitsPerSec) ∧
    (∃ (s : State) (req : Req), s.takes req 0x01 0 R.reg_GLB_EPOCH_CTRL ∧ s.rd R.GLB_EPOCH_STATUS_state = 0 ∧ s.rd R.GLB_EPOCH_ARM_arm 0 = 0 ∧ s.rd
      R.GLB_EPOCH_ARM_arm 1 = 0) ∧
    (∃ (s : State) (req : Req), s.takes req 0x01 0 R.reg_GLB_EPOCH_CTRL ∧ s.rd R.GLB_EPOCH_STATUS_state = 1) ∧
    (∃ (s : State), s.mainUp = true ∧ s.rd R.GLB_EPOCH_STATUS_state = 1 ∧ s.allAcked = false) :=
  ⟨⟨(({ up with time := { up.time with wdog := [(15, 0)] } } : State)), .host, 15, by decide +kernel⟩,
   ⟨(({ up with time := { up.time with wdog := [(0, 5)] } } : State)), 0, 5, by decide +kernel⟩,
   ⟨(upWith [(R.GLB_EPOCH_ARM_arm, 1), (R.GLB_EPOCH_T_t, 60 * 2 ^ 32)]), .host, by decide +kernel⟩,
   ⟨up, .host, by decide +kernel⟩,
   ⟨(upWith [(R.GLB_EPOCH_STATUS_state, 1)]), .host, by decide +kernel⟩,
   ⟨(upWith [(R.GLB_EPOCH_STATUS_state, 1), (R.GLB_EPOCH_ARM_arm, 1)]), by decide +kernel⟩⟩

/-- Values meet the hypotheses of clauses 7 to 9 of WatchdogsAndEpochs. -/
theorem witness_WatchdogsAndEpochs_2 :
    (∃ (s : State) (u : Fin 128), s.mainUp = true ∧ s.awaited u = true ∧ s.unitRefuses u = false ∧ (s.unitCause u).1 = 0) ∧
    (∃ (s : State) (u : Fin 128), s.mainUp = true ∧ s.awaited u = true ∧ s.unitRefuses u = true ∧ s.heldUnit u = false) ∧
    (∃ (s : State), s.mainUp = true ∧ s.rd R.GLB_EPOCH_STATUS_state = 2) :=
  ⟨⟨(upWith [(R.GLB_EPOCH_STATUS_state, 1), (R.GLB_EPOCH_ARM_arm, 2 ^ 44), (R.GLB_EPOCH_T_t, 2 ^ 32)]), 44, by decide +kernel⟩,
   ⟨((upWith [(R.GLB_EPOCH_STATUS_state, 1), (R.GLB_EPOCH_ARM_arm, 1), (R.GLB_EPOCH_T_t, 2 ^ 32)]).wr R.HLT_UNIT_state 4 0 0), 0, by decide +kernel⟩,
   ⟨(upWith [(R.GLB_EPOCH_STATUS_state, 2)]), by decide +kernel⟩⟩

/-- Values meet the hypotheses of clauses 1 to 6 of RegisterAccess. -/
theorem witness_RegisterAccess_1 :
    (∃ (s : State) (req : Req) (off : Nat) (size : Nat) (v : Nat) (b : BlkDef) (n : Nat) (r : RegDef) (i : Nat) (j : Nat) (k : Nat), s.find off size = .whole b n r i j k ∧ s.refusesFlow req off size = false ∧ r.flds.any Fld.writable = true ∧ s.mayWrite
      req b n r i = true ∧ s.pairState ≠ 2) ∧
    (∃ (s : State) (req : Req) (off : Nat) (size : Nat) (v : Nat) (b : BlkDef) (n : Nat) (r : RegDef) (i : Nat) (j : Nat) (k : Nat), s.find off size = .whole b n r i j k ∧ s.refusesFlow req off size = false ∧ r.flds.any Fld.writable = true ∧ s.mayWrite
      req b n r i = false ∧ s.pairState ≠ 2 ∧ s.due = []) ∧
    (∃ (s : State) (req : Req) (off : Nat) (v : Nat) (b : BlkDef) (n : Nat) (r : RegDef) (i : Nat) (j : Nat) (k : Nat), s.find off 4 = .low b n r i j k ∧ req ≠ .flow ∧ s.due = []) ∧
    (∃ (s : State) (req : Req) (off : Nat) (v : Nat) (b : BlkDef) (n : Nat) (r : RegDef) (i : Nat) (j : Nat) (k : Nat), s.find off 4 = .high b n r i j k ∧ req ≠ .flow ∧ (s.half req true).reg = some (off - 4) ∧ r.flds.any Fld.writable = true
      ∧ s.mayWrite req b n r i = true ∧ s.pairState ≠ 2) ∧
    (∃ (s : State) (req : Req) (off : Nat) (v : Nat) (b : BlkDef) (n : Nat) (r : RegDef) (i : Nat) (j : Nat) (k : Nat), s.find off 4 = .high b n r i j k ∧ req ≠ .flow ∧ (s.half req true).reg ≠ some (off - 4) ∧ r.flds.any Fld.writable = true
      ∧ s.mayWrite req b n r i = true ∧ s.pairState ≠ 2) ∧
    (∃ (s : State) (req : Req) (off : Nat) (b : BlkDef) (n : Nat) (r : RegDef) (i : Nat) (j : Nat) (k : Nat), s.find off 4 = .low b n r i j k ∧ req ≠ .flow) :=
  ⟨⟨up, .host, 0x100070, 4, 3, (blkOf 2), 0, R.reg_FT_RATE, 0, 0, 0, rfl, by decide +kernel, by decide +kernel, by decide +kernel, by decide +kernel⟩,
   ⟨up, .mgmt, 0x100070, 4, 3, (blkOf 2), 0, R.reg_FT_RATE, 0, 0, 0, rfl, by decide +kernel, by decide +kernel, by decide +kernel, by decide +kernel, by decide +kernel⟩,
   ⟨up, .mgmt, 0x210, 3, (blkOf 1), 0, R.reg_GLB_EPOCH_ARM, 0, 0, 0, rfl, by decide +kernel, by decide +kernel⟩,
   ⟨(up.setHalf .host true { reg := some 0x100078, half := 9 }), .host, 0x10007C, 3, (blkOf 2), 0, R.reg_FT_STEP_NS, 0, 0, 0, rfl, by decide +kernel, by decide +kernel, by decide +kernel, by decide +kernel, by decide +kernel⟩,
   ⟨(up.setHalf .host true { reg := some 0x100070, half := 9 }), .host, 0x10007C, 3, (blkOf 2), 0, R.reg_FT_STEP_NS, 0, 0, 0, rfl, by decide +kernel, by decide +kernel, by decide +kernel, by decide +kernel, by decide +kernel⟩,
   ⟨up, .mgmt, 0x48, (blkOf 1), 0, R.reg_GLB_SERIAL, 0, 0, 0, rfl, by decide +kernel⟩⟩

/-- Values meet the hypotheses of clauses 7 to 8 of RegisterAccess. -/
theorem witness_RegisterAccess_2 :
    (∃ (s : State) (req : Req) (off : Nat) (b : BlkDef) (n : Nat) (r : RegDef) (i : Nat) (j : Nat) (k : Nat), s.find off 4 = .high b n r i j k ∧ req ≠ .flow ∧ (s.half req false).reg = some (off - 4)) ∧
    (∃ (s : State) (req : Req) (off : Nat) (size : Nat) (b : BlkDef) (n : Nat) (r : RegDef) (i : Nat) (j : Nat) (k : Nat), s.find off size = .whole b n r i j k ∧ s.refusesFlow req off size = false) :=
  ⟨⟨(up.setHalf .host false { reg := some 0x48, half := 77 }), .host, 0x4C, (blkOf 1), 0, R.reg_GLB_SERIAL, 0, 0, 0, rfl, by decide +kernel, by decide +kernel⟩,
   ⟨(upWith [(R.GLB_NONOWNER_WR_count, 5)]), .host, 0x120, 4, (blkOf 1), 0, R.reg_GLB_NONOWNER_WR, 0, 0, 0, rfl, by decide +kernel⟩⟩

/-- Values meet the hypotheses of clauses 2 to 7 of PowerAndRelease. -/
theorem witness_PowerAndRelease_1 :
    (∃ (s : State) (addr : Fin 128) (pkg : Fin 8), s.isl.up = false ∧ s.isl.mainPg = false ∧ 8 ≤ addr.val ∧ addr.val < 0x78) ∧
    (∃ (s : State) (b0 : Bool) (b1 : Bool) (romOk : Bool), s.isl.mainPg = false ∧ s.isl.up = true ∧ s.isl.hold = none) ∧
    (∃ (s : State), s.isl.mainPg = true) ∧
    (∃ (s : State), s.takes .mgmt 0x14 0 R.reg_MGT_CTRL ∧ s.isl.hold = none ∧ s.isl.mainPg = true) ∧
    (∃ (s : State) (romOk : Bool) (h : Hold), s.isl.hold = some h ∧ h.cause ≠ 2 ∧ s.isl.mainPg = true ∧ h.since + 10 * unitsPerMs ≤ s.isl.ft) ∧
    (∃ (s : State) (us : Nat), s.rd R.SEC_BOOT_STATUS_state = 1 ∧ s.sec.fillDone = false) :=
  ⟨⟨(({ State.reset with isl := { State.reset.isl with up := false, mainPg := false } } : State)), 8, 3, by decide +kernel⟩,
   ⟨(({ State.reset with isl := { State.reset.isl with up := true, mainPg := false } } : State)), true, false, true, by decide +kernel⟩,
   ⟨up, by decide +kernel⟩,
   ⟨up, by decide +kernel⟩,
   ⟨(({ up with isl := { up.isl with hold := some { cause := 3, since := 0 }, ft := 10 * unitsPerMs } } : State)), true, ({ cause := 3, since := 0 }), by decide +kernel⟩,
   ⟨(upWith [(R.SEC_BOOT_STATUS_state, 1)]), 70000, by decide +kernel⟩⟩

/-- Values meet the hypotheses of clauses 8 to 11 of PowerAndRelease. -/
theorem witness_PowerAndRelease_2 :
    (∃ (s : State), s.rd R.SEC_BOOT_STATUS_state = 1 ∧ s.rd R.SEC_LOAD_PROGRESS_seg_done = 0 ∧ 0 < hdrSegCount (s.slot (s.rd
      R.SEC_BOOT_STATUS_slot)).hdr) ∧
    (∃ (s : State), s.rd R.SEC_BOOT_STATUS_state = 1 ∧ s.sec.fillDone = true ∧ bit (s.rd R.SEC_LOAD_PROGRESS_seg_done) 0 = true) ∧
    (∃ (s : State), s.rd R.SEC_BOOT_STATUS_state = 2 ∧ s.allLoaded = true ∧ s.cuffOpen = false) ∧
    (∃ (s : State) (status : Nat), s.rd R.SEC_BOOT_STATUS_state = 1 ∨ s.rd R.SEC_BOOT_STATUS_state = 2) :=
  ⟨⟨(upWith [(R.SEC_BOOT_STATUS_state, 1)]), by decide +kernel⟩,
   ⟨(({ upWith [(R.SEC_BOOT_STATUS_state, 1), (R.SEC_LOAD_PROGRESS_seg_done, 1)] with sec := { State.reset.sec with fillDone := true } } : State)), by decide +kernel⟩,
   ⟨(upWith [(R.SEC_BOOT_STATUS_state, 2), (R.SEC_LOAD_PROGRESS_seg_done, 1)]), by decide +kernel⟩,
   ⟨(upWith [(R.SEC_BOOT_STATUS_state, 2)]), 5, by decide +kernel⟩⟩

/-- Values meet the hypotheses of clauses 1 to 6 of UpdatesAndFuses. -/
theorem witness_UpdatesAndFuses_1 :
    (∃ (s : State) (req : Req) (m : Nat), s.mboxOpen req m ∧ s.sec.upd = none) ∧
    (∃ (s : State) (req : Req) (m : Nat) (u : UpdSession), s.mboxOpen req m ∧ s.sec.upd = some u ∧ u.mbox = m ∧ s.rd R.SEC_MBOX_OFF_offset m = u.got ∧ s.rd R.SEC_MBOX_CMD_length m
      = 4096 ∧ u.got + 4096 ≤ hdrBodyLen u.hdr) ∧
    (∃ (s : State) (req : Req) (m : Nat) (u : UpdSession), s.mboxOpen req m ∧ s.sec.upd = some u ∧ u.mbox = m ∧ u.got = hdrBodyLen u.hdr ∧ s.rd R.SEC_BOOT_STATUS_state ≠ 4) ∧
    (∃ (s : State) (req : Req) (m : Nat), s.mboxOpen req m) ∧
    (∃ (s : State) (u : UpdSession), s.sec.upd = some u) ∧
    (∃ (s : State) (req : Req) (m : Nat), s.mboxOpen req m) :=
  ⟨⟨(upWith [(R.SEC_BOOT_STATUS_state, 3)]), .host, 0, by decide +kernel⟩,
   ⟨(({ upAt [(R.SEC_BOOT_STATUS_state, 3, 0, 0), (R.SEC_MBOX_CMD_length, 4096, 1, 0)] with sec := { State.reset.sec with upd := some { mbox := 1, target := 1, hdr := factoryHeader } } } : State)), .mgmt, 1, ({ mbox := 1, target := 1, hdr := factoryHeader }), by decide +kernel⟩,
   ⟨(({ upAt [(R.SEC_BOOT_STATUS_state, 3, 0, 0)] with sec := { State.reset.sec with upd := some { mbox := 0, target := 1, hdr := factoryHeader, got := 4096 } } } : State)), .host, 0, ({ mbox := 0, target := 1, hdr := factoryHeader, got := 4096 }), by decide +kernel⟩,
   ⟨(upWith [(R.SEC_BOOT_STATUS_state, 4)]), .mgmt, 1, by decide +kernel⟩,
   ⟨(({ up with sec := { State.reset.sec with upd := some { mbox := 0, target := 1, hdr := [] } } } : State)), ({ mbox := 0, target := 1, hdr := [] }), by decide +kernel⟩,
   ⟨(upWith [(R.SEC_BOOT_STATUS_state, 3)]), .host, 0, by decide +kernel⟩⟩

/-- Values meet the hypotheses of clauses 7 to 12 of UpdatesAndFuses. -/
theorem witness_UpdatesAndFuses_2 :
    (∃ (s : State) (req : Req) (m : Nat), s.mboxOpen req m ∧ s.cuffOpen = true ∧ s.on R.SEC_FUSE_CTR_busy = false ∧ s.otp.count < s.rd R.SEC_IMAGE_INFO_secver) ∧
    (∃ (s : State), s.cuffOpen = true ∧ hdrCommitAfter (s.slot (s.rd R.SEC_BOOT_STATUS_slot)).hdr ≠ 0 ∧ s.sec.autoDone = false ∧ s.on
      R.SEC_FUSE_CTR_busy = false ∧ s.otp.count < s.rd R.SEC_IMAGE_INFO_secver) ∧
    (∃ (s : State), s.on R.SEC_FUSE_CTR_busy = true ∧ s.on R.SEC_FUSE_CTR_deferred = false ∧ s.otp.count + 1 < s.rd R.SEC_FUSE_CTR_target ∧
      s.on R.HLT_STATUS_brace = false) ∧
    (∃ (s : State) (req : Req) (m : Nat), s.mboxOpen req m) ∧
    (∃ (s : State) (req : Req) (m : Nat) (row : Fin 4), s.mboxOpen req m ∧ s.otp.present row = false) ∧
    (∃ (s : State) (req : Req) (m : Nat) (row : Fin 4), s.mboxOpen req m ∧ s.otp.present row = true ∧ s.rd R.SEC_BOOT_STATUS_state = 4 ∧ (List.range 4).filter (fun k =>
      s.otp.present k && !bit s.otp.revoked k) ≠ [row.val]) :=
  ⟨⟨(upWith [(R.SEC_BOOT_STATUS_state, 3), (R.SEC_BOOT_STATUS_cuff_open, 1), (R.SEC_IMAGE_INFO_secver, 1)]), .host, 0, by decide +kernel⟩,
   ⟨(({ upWith [(R.SEC_BOOT_STATUS_cuff_open, 1), (R.SEC_IMAGE_INFO_secver, 1)] with sec := { State.reset.sec with slotA := { factorySlot with hdr := List.replicate 0x20 1 } } } : State)), by decide +kernel⟩,
   ⟨(upWith [(R.SEC_FUSE_CTR_busy, 1), (R.SEC_FUSE_CTR_target, 2)]), by decide +kernel⟩,
   ⟨(upWith [(R.SEC_BOOT_STATUS_state, 3)]), .host, 0, by decide +kernel⟩,
   ⟨(upWith [(R.SEC_BOOT_STATUS_state, 3)]), .host, 0, 3, by decide +kernel⟩,
   ⟨(({ upWith [(R.SEC_BOOT_STATUS_state, 4)] with otp := { rows := [[1], [2], [], []] } } : State)), .mgmt, 1, 1, by decide +kernel⟩⟩

/-- Values meet the hypotheses of clauses 1 to 6 of MemoryAccess. -/
theorem witness_MemoryAccess_1 :
    (∃ (s : State) (a : Nat) (n : Nat), s.mainUp = true ∧ a + n ≤ s.hbmLimit ∧ (wordsOf a n).any s.wordBad = false) ∧
    (∃ (s : State) (a : Nat) (bs : List Byte) (bad : Bool), s.mainUp = true ∧ bs.length = 8 ∧ a % 8 = 0 ∧ a + 8 ≤ s.hbmLimit ∧ s.rd R.MEM_PC_STATE_state (hbmPc a) ≠ 3) ∧
    (∃ (s : State) (a : Nat) (n : Nat) (f : EccFind), s.mainUp = true ∧ s.hbmLimit < a + n) ∧
    (∃ (s : State) (b : Nat) (i : Nat) (a : Nat) (syn : Nat), s.mainUp = true) ∧
    (∃ (s : State), s.mainUp = true) ∧
    (∃ (s : State) (word : Nat), s.mainUp = true ∧ s.on R.MEM_PATROL_CFG_enable = true ∧ 8 * word < s.hbmLimit ∧ s.wordBad word = false) :=
  ⟨⟨up, 4090, 16, by decide +kernel⟩,
   ⟨up, 4096, ([1, 2, 3, 4, 5, 6, 7, 8]), true, by decide +kernel⟩,
   ⟨up, 0xBCFFFFFF9, 8, .good, by decide +kernel⟩,
   ⟨up, 6, 1, 40, 3, by decide +kernel⟩,
   ⟨up, by decide +kernel⟩,
   ⟨(upWith [(R.MEM_PATROL_CFG_enable, 1)]), 5, by decide +kernel⟩⟩

/-- Values meet the hypotheses of clauses 7 to 12 of MemoryAccess. -/
theorem witness_MemoryAccess_2 :
    (∃ (s : State) (word : Nat) (syn : Nat), s.mainUp = true ∧ s.on R.MEM_PATROL_CFG_enable = true ∧ 8 * word < s.hbmLimit ∧ s.wordBad word = false) ∧
    (∃ (s : State) (t : State) (req : Req), s.takes req 0x11 0 R.reg_MEM_SCRUB_CMD ∧ t = s.cmdPut R.reg_MEM_SCRUB_CMD [(R.MEM_SCRUB_CMD_go, 1)] ∧ t.on
      R.MEM_SCRUB_STATUS_busy = false ∧ t.rd R.MEM_SCRUB_BASE_value % 4096 = 0 ∧ t.rd R.MEM_SCRUB_LEN_value % 4096 = 0 ∧
      t.rd R.MEM_SCRUB_BASE_value + t.rd R.MEM_SCRUB_LEN_value ≤ t.hbmLimit) ∧
    (∃ (s : State) (req : Req), s.takes req 0x11 0 R.reg_MEM_SCRUB_CMD ∧ s.on R.MEM_SCRUB_STATUS_busy = true) ∧
    (∃ (s : State) (c : Scrub), s.mainUp = true ∧ s.mem.scrub = some c ∧ c.len ≤ 2 ^ 64 ∧ s.mem.bad = [] ∧ c.recAddr + 64 ≤ s.hbmLimit) ∧
    (∃ (s : State) (t : State) (req : Req) (p : Fin 64), s.takes req 0x11 0 R.reg_MEM_SPARE_CMD ∧ t = (s.cmdPut R.reg_MEM_SPARE_CMD [(R.MEM_SPARE_CMD_go, 1),
      (R.MEM_SPARE_CMD_pc, p)]).wr R.MEM_SPARE_STATUS_pc p ∧ s.on R.MEM_SPARE_STATUS_busy = false ∧ t.on
      R.MEM_SPARE_CFG_spare_en = true ∧ t.rd R.MEM_INFO_spared = 0) ∧
    (∃ (s : State) (p : Nat), s.mainUp = true ∧ s.on R.MEM_SPARE_STATUS_busy = true ∧ s.rd R.MEM_SPARE_STATUS_pc = p) :=
  ⟨⟨(upWith [(R.MEM_PATROL_CFG_enable, 1)]), 5, 2, by decide +kernel⟩,
   ⟨(upWith [(R.MEM_SCRUB_LEN_value, 4096)]), ((upWith [(R.MEM_SCRUB_LEN_value, 4096)]).cmdPut R.reg_MEM_SCRUB_CMD [(R.MEM_SCRUB_CMD_go, 1)]), .host, by decide +kernel⟩,
   ⟨(({ upWith [(R.MEM_SCRUB_STATUS_busy, 1)] with mem := { State.reset.mem with scrub := some { base := 0, len := 4096, recAddr := 8192, start := 0, mode := 0 } } } : State)), .host, by decide +kernel⟩,
   ⟨(({ upWith [(R.MEM_SCRUB_STATUS_busy, 1)] with mem := { State.reset.mem with scrub := some { base := 0, len := 4096, recAddr := 8192, start := 0, mode := 0 } } } : State)), ({ base := 0, len := 4096, recAddr := 8192, start := 0, mode := 0 }), by decide +kernel⟩,
   ⟨(upWith [(R.MEM_SPARE_CFG_spare_en, 1)]), (((upWith [(R.MEM_SPARE_CFG_spare_en, 1)]).cmdPut R.reg_MEM_SPARE_CMD [(R.MEM_SPARE_CMD_go, 1), (R.MEM_SPARE_CMD_pc, 63)]).wr R.MEM_SPARE_STATUS_pc 63), .host, 63, by decide +kernel⟩,
   ⟨(upWith [(R.MEM_SPARE_STATUS_busy, 1), (R.MEM_SPARE_STATUS_pc, 9)]), 9, by decide +kernel⟩⟩

/-- Values meet the hypotheses of clauses 1 to 6 of HostLinksAndFunctions. -/
theorem witness_HostLinksAndFunctions_1 :
    (∃ (s : State) (hif : Fin 2) (link : Fin 2), s.mainUp = true ∧ s.hasLink hif link = true ∧ s.noFlit hif link = true ∧ s.linkUp hif link = false) ∧
    (∃ (s : State) (hif : Fin 2) (link : Fin 2) (rate : Fin 16) (width : Fin 32), s.mainUp = true ∧ s.hasLink hif link = true ∧ s.linkUp hif link = false ∧ s.cuffOpen = true) ∧
    (∃ (s : State) (hif : Fin 2) (link : Fin 2) (rate : Fin 16) (width : Fin 32), s.mainUp = true ∧ s.hasLink hif link = true ∧ s.linkUp hif link = false) ∧
    (∃ (s : State) (fn : Nat) (l : List Nat), s.mainUp = true ∧ s.hif.owed = fn :: l ∧ fn < 100 ∧ s.fnReady fn = true) ∧
    (∃ (s : State) (hif : Fin 2) (link : Fin 2) (fn : Nat), s.mainUp = true ∧ s.linkUp hif link = true ∧ s.fnsOf hif link = [fn]) ∧
    (∃ (s : State) (hif : Fin 2) (pf : Fin 8) (r : CfgReg), s.mainUp = true ∧ s.due = [] ∧ s.fnPresent (8 * hif + pf) = true ∧ s.fnReady (8 * hif + pf) = true) :=
  ⟨⟨(upWith [(R.HIF_LINK_STATUS_no_flit, 1)]), 0, 0, by decide +kernel⟩,
   ⟨(upWith [(R.SEC_BOOT_STATUS_cuff_open, 1)]), 1, 0, 6, 16, by decide +kernel⟩,
   ⟨up, 1, 0, 5, 16, by decide +kernel⟩,
   ⟨(hostWith { owed := [0, 102] }), 0, [102], by decide +kernel⟩,
   ⟨hostUp, 0, 0, 0, by decide +kernel⟩,
   ⟨hostUp, 0, 0, .vendorId, by decide +kernel⟩⟩

/-- Values meet the hypotheses of clauses 7 to 12 of HostLinksAndFunctions. -/
theorem witness_HostLinksAndFunctions_2 :
    (∃ (s : State) (hif : Fin 2) (pf : Fin 8) (r : CfgReg) (w : Option Nat), s.mainUp = true ∧ s.due = [] ∧ s.fnPresent (8 * hif + pf) = true ∧ s.fnReady (8 * hif + pf) = false) ∧
    (∃ (s : State) (hif : Fin 2) (pf : Fin 8), s.mainUp = true ∧ s.fnPresent (8 * hif + pf) = true ∧ s.fnReady (8 * hif + pf) = true ∧ (s.func (8 * hif + pf)).bme =
      true) ∧
    (∃ (s : State) (hif : Fin 2) (pf : Fin 8), s.mainUp = true ∧ s.due = [] ∧ s.fnPresent (8 * hif + pf) = true ∧ s.fnReady (8 * hif + pf) = true) ∧
    (∃ (s : State) (hif : Fin 2) (pf : Fin 8) (w : HeldWrite) (l : List HeldWrite) (fn : Nat), s.mainUp = true ∧ fn = 8 * hif.val + pf.val ∧ (s.func fn).held = w :: l ∧ s.cuffOpen = true ∧ (s.func fn).bme = true ∧
      (s.func fn).atsEn = false ∧ s.fnD3 fn = false ∧ s.sliceFn w.slice = some fn ∧ s.slicePasid w.slice = none ∧ 0 <
      w.data.length ∧ w.addr % 4096 + w.data.length ≤ 4096) ∧
    (∃ (s : State) (hif : Fin 2) (pf : Fin 8) (fn : Nat), s.mainUp = true ∧ fn = 8 * hif.val + pf.val ∧ s.fnPresent fn = true ∧ s.fnReady fn = true) ∧
    (∃ (s : State) (t : State) (hif : Fin 2) (pf : Fin 8) (fn : Nat), s.mainUp = true ∧ fn = 8 * hif.val + pf.val ∧ s.on R.HIF_PF_STATUS_flr_busy hif pf = true ∧ (s.slicesOf fn).all (fun x
      => !s.inSeq x) = true ∧ t = s.wr R.HIF_PF_STATUS_flr_busy 0 hif pf) :=
  ⟨⟨(hostUp.wr R.SEC_BOOT_STATUS_cuff_open 0), 0, 0, .deviceId, none, by decide +kernel⟩,
   ⟨(hostWith { funcs := [(0, { bme := true })] }), 0, 0, by decide +kernel⟩,
   ⟨hostUp, 0, 0, by decide +kernel⟩,
   ⟨((hostWith { funcs := [(0, { bme := true, held := [{ slice := 0, addr := 4095, data := [9], bad := false }] })] }).wr R.SLC_BIND_host_en 1), 0, 0, ({ slice := 0, addr := 4095, data := [9], bad := false }), [], 0, by decide +kernel⟩,
   ⟨hostUp, 0, 0, 0, by decide +kernel⟩,
   ⟨(hostUp.wr R.HIF_PF_STATUS_flr_busy 1), (hostUp.wr R.HIF_PF_STATUS_flr_busy 0), 0, 0, 0, by decide +kernel⟩⟩

/-- Values meet the hypotheses of clauses 13 to 15 of HostLinksAndFunctions. -/
theorem witness_HostLinksAndFunctions_3 :
    (∃ (s : State) (hif : Fin 2) (pf : Fin 8) (fn : Nat), s.mainUp = true ∧ fn = 8 * hif.val + pf.val ∧ s.fnPresent fn = true ∧ s.fnReady fn = true ∧ s.fnD3 fn = false) ∧
    (∃ (s : State) (hif : Fin 2) (pf : Fin 8) (fn : Nat), s.mainUp = true ∧ fn = 8 * hif.val + pf.val ∧ s.fnPresent fn = true ∧ s.fnReady fn = true ∧ s.fnD3 fn = true) ∧
    (∃ (s : State) (hif : Fin 2) (pf : Fin 8) (fn : Nat), s.mainUp = true ∧ s.due = [] ∧ fn = 8 * hif.val + pf.val ∧ s.fnPresent fn = true ∧ s.fnReady fn = true) :=
  ⟨⟨hostUp, 0, 0, 0, by decide +kernel⟩,
   ⟨(hostUp.wr R.HIF_PF_STATUS_d3 1), 0, 0, 0, by decide +kernel⟩,
   ⟨hostUp, 0, 0, 0, by decide +kernel⟩⟩

/-- Values meet the hypotheses of clauses 1 to 6 of TranslationsInterruptsAndReads. -/
theorem witness_TranslationsInterruptsAndReads_1 :
    (∃ (s : State) (hif : Fin 2) (pf : Fin 8) (fn : Nat) (id : Nat) (target : Nat) (size : Nat) (rd : Bool) (wr : Bool) (x : Xlat), s.mainUp = true ∧ fn = 8 * hif.val + pf.val ∧ s.hif.xlats.find? (fun x => x.fn == fn && x.id == id) = some x ∧ x.stale =
      false ∧ (if x.write then wr else rd) = true) ∧
    (∃ (s : State) (hif : Fin 2) (pf : Fin 8) (fn : Nat) (id : Nat) (target : Nat) (size : Nat) (granted : Bool) (rd : Bool) (wr : Bool) (x : Xlat), s.mainUp = true ∧ fn = 8 * hif.val + pf.val ∧ s.hif.xlats.find? (fun x => x.fn == fn && x.id == id) = some x ∧ x.stale =
      true) ∧
    (∃ (s : State) (hif : Fin 2) (pf : Fin 8) (itag : Fin 32) (pasid : Option (Fin 1048576)) (addr : Nat) (size : Nat), s.mainUp = true ∧ (s.hif.invals.filter (fun v => v.fn == 8 * hif.val + pf.val)).length < 32 ∧ s.hif.atc = [] ∧
      s.hif.xlats = []) ∧
    (∃ (s : State) (hif : Fin 2) (pf : Fin 8) (v : Inval), s.mainUp = true ∧ s.hif.invals.find? (fun v => v.fn == 8 * hif.val + pf.val) = some v ∧ v.waits.all (fun w =>
      s.hif.reads.all (fun h => !(h.fn == w.1 && h.tag == w.2))) = true) ∧
    (∃ (s : State) (hif : Fin 2) (pf : Fin 8) (vec : Fin 4096), s.mainUp = true ∧ vec.val < s.msixCount (8 * hif + pf) ∧ s.msixSendable (8 * hif + pf) vec = true) ∧
    (∃ (s : State) (hif : Fin 2) (pf : Fin 8) (vec : Fin 4096), s.mainUp = true ∧ vec.val < s.msixCount (8 * hif + pf) ∧ s.msixSendable (8 * hif + pf) vec = false) :=
  ⟨⟨(hostWith { xlats := [{ id := 4, fn := 9, pasid := none, page := 8192, write := true }] }), 1, 1, 9, 4, 0x7000, 4096, false, true, ({ id := 4, fn := 9, pasid := none, page := 8192, write := true }), by decide +kernel⟩,
   ⟨(hostWith { xlats := [{ id := 4, fn := 9, pasid := none, page := 8192, write := true, stale := true }] }), 1, 1, 9, 4, 0x7000, 4096, true, false, true, ({ id := 4, fn := 9, pasid := none, page := 8192, write := true, stale := true }), by decide +kernel⟩,
   ⟨hostUp, 1, 7, 31, (some 5), 4096, 4096, by decide +kernel⟩,
   ⟨(hostWith { invals := [{ fn := 0, itag := 3, arrived := 0, waits := [(0, 1)] }] }), 0, 0, ({ fn := 0, itag := 3, arrived := 0, waits := [(0, 1)] }), by decide +kernel⟩,
   ⟨(hostWith { funcs := [(0, { bme := true, msixEn := true })], msix := [(0, { addr := 64, data := 5, masked := false })] }), 0, 0, 0, by decide +kernel⟩,
   ⟨hostUp, 0, 0, 0, by decide +kernel⟩⟩

/-- Values meet the hypotheses of clauses 7 to 12 of TranslationsInterruptsAndReads. -/
theorem witness_TranslationsInterruptsAndReads_2 :
    (∃ (s : State) (hif : Fin 2) (pf : Fin 8) (vec : Fin 4096), s.mainUp = true ∧ s.msixPending (8 * hif + pf) vec = true ∧ s.msixSendable (8 * hif + pf) vec = true) ∧
    (∃ (s : State) (hif : Fin 2) (pf : Fin 8) (i : Nat) (v : Nat), s.mainUp = true ∧ s.fnPresent (8 * hif + pf) = true ∧ s.memOk (8 * hif + pf) = true ∧ i < 2048 ∧ i < s.msixCount (8 *
      hif + pf)) ∧
    (∃ (s : State) (hif : Fin 2) (pf : Fin 8) (i : Nat), s.mainUp = true ∧ s.fnPresent (8 * hif + pf) = true ∧ s.memOk (8 * hif + pf) = true ∧ i < 2048 ∧ i < s.msixCount (8 *
      hif + pf)) ∧
    (∃ (s : State) (hif : Fin 2) (pf : Fin 8) (a : Nat) (n : Nat) (off : Nat), s.mainUp = true ∧ s.linkUp hif (s.fnLink (8 * hif + pf)) = true ∧ s.memOk (8 * hif + pf) = true ∧ s.barHit (8 * hif +
      pf) a = some (0, off) ∧ n = 4 ∨ n = 8 ∧ off % n = 0) ∧
    (∃ (s : State) (hif : Fin 2) (pf : Fin 8), s.mainUp = true ∧ s.due = [] ∧ s.linkUp hif (s.fnLink (8 * hif + pf)) = true) ∧
    (∃ (s : State) (hif : Fin 2) (pf : Fin 8) (a : Nat) (d : List Byte), s.mainUp = true ∧ s.due = [] ∧ s.linkUp hif (s.fnLink (8 * hif + pf)) = true ∧ s.memOk (8 * hif + pf) = true) :=
  ⟨⟨(hostWith { funcs := [(0, { bme := true, msixEn := true })], msix := [(0, { addr := 64, data := 5, masked := false })], pba := [0] }), 0, 0, 0, by decide +kernel⟩,
   ⟨((hostWith { funcs := [(0, { memEn := true })] }).wr R.HIF_PF_CFG_msix_vectors 2047), 0, 0, 2047, 9, by decide +kernel⟩,
   ⟨(hostWith { funcs := [(0, { memEn := true })] }), 0, 0, 0, by decide +kernel⟩,
   ⟨(hostWith { funcs := [(0, { memEn := true })] }), 0, 0, 72, 8, 72, by decide +kernel⟩,
   ⟨hostUp, 0, 3, by decide +kernel⟩,
   ⟨(hostWith { funcs := [(0, { memEn := true })] }), 0, 0, 72, [1], by decide +kernel⟩⟩

/-- Values meet the hypotheses of clauses 13 to 18 of TranslationsInterruptsAndReads. -/
theorem witness_TranslationsInterruptsAndReads_3 :
    (∃ (s : State) (hif : Fin 2) (pf : Fin 8) (fn : Nat) (tag : Nat) (data : List Byte) (h : HostRead), s.mainUp = true ∧ fn = 8 * hif.val + pf.val ∧ s.hif.reads.find? (fun h => h.fn == fn && h.tag == tag) = some h ∧ h.for_
      = .entry ∧ s.time.ft < s.readLimit h ∧ h.old = false ∧ h.got = [] ∧ h.len = data.length ∧ h.sgen = s.sliceGen
      h.slice) ∧
    (∃ (s : State) (hif : Fin 2) (pf : Fin 8) (fn : Nat) (tag : Nat) (data : List Byte) (h : HostRead) (id : Nat) (wk : Option (Nat × Nat)) (j : HostJob), s.mainUp = true ∧ fn = 8 * hif.val + pf.val ∧ s.hif.reads.find? (fun h => h.fn == fn && h.tag == tag) = some h ∧ h.for_
      = .job id wk ∧ s.time.ft < s.readLimit h ∧ h.old = false ∧ h.got = [] ∧ h.len = data.length ∧ h.sgen = s.sliceGen
      h.slice ∧ s.hif.jobs.find? (·.id == id) = some j) ∧
    (∃ (s : State) (hif : Fin 2) (pf : Fin 8) (fn : Nat) (tag : Nat) (data : List Byte) (h : HostRead) (t : Nat) (x : Nat) (g : Nat), s.mainUp = true ∧ fn = 8 * hif.val + pf.val ∧ s.hif.reads.find? (fun h => h.fn == fn && h.tag == tag) = some h ∧ h.for_
      = .orphan t x g ∧ s.time.ft < s.readLimit h ∧ h.old = false ∧ h.got = [] ∧ h.len = data.length) ∧
    (∃ (s : State) (hif : Fin 2) (pf : Fin 8) (fn : Nat) (tag : Nat) (data : List Byte) (h : HostRead) (t : Nat), s.mainUp = true ∧ fn = 8 * hif.val + pf.val ∧ s.hif.reads.find? (fun h => h.fn == fn && h.tag == tag) = some h ∧ h.for_
      = .aborted t ∧ s.time.ft < s.readLimit h ∧ h.old = false ∧ h.got = [] ∧ h.len = data.length) ∧
    (∃ (s : State) (hif : Fin 2) (pf : Fin 8) (fn : Nat) (tag : Nat) (p : Bool) (data : List Byte) (h : HostRead), s.mainUp = true ∧ fn = 8 * hif.val + pf.val ∧ s.hif.reads.find? (fun h => h.fn == fn && h.tag == tag) = some h ∧ h.for_
      = .entry ∧ s.time.ft < s.readLimit h ∧ h.old = false ∧ h.sgen = s.sliceGen h.slice) ∧
    (∃ (s : State) (hif : Fin 2) (pf : Fin 8) (fn : Nat) (tag : Nat) (st : CplSt) (data : List Byte) (h : HostRead), s.mainUp = true ∧ fn = 8 * hif.val + pf.val ∧ s.hif.reads.find? (fun h => h.fn == fn && h.tag == tag) = some h ∧
      s.time.ft < s.readLimit h ∧ h.old = true ∧ h.len ≤ h.got.length + data.length) :=
  ⟨⟨(hostWith { reads := [{ fn := 0, tag := 2, gen := 0, slice := 0, sgen := 0, ring := 5, count := 0, addr := 0, len := 64, issued := 0 }] }), 0, 0, 0, 2, (desc 0), ({ fn := 0, tag := 2, gen := 0, slice := 0, sgen := 0, ring := 5, count := 0, addr := 0, len := 64, issued := 0 }), by decide +kernel⟩,
   ⟨(hostWith { reads := [{ fn := 0, tag := 2, gen := 0, slice := 0, sgen := 0, ring := 5, count := 0, addr := 0, len := 2, issued := 0, for_ := .job 4 none }], jobs := [{ id := 4, for_ := .av 3 none, fn := 0, slice := 0, sgen := 0, addr := 0, len := 2, todo := [], left := 2 }] }), 0, 0, 0, 2, ([7, 8]), ({ fn := 0, tag := 2, gen := 0, slice := 0, sgen := 0, ring := 5, count := 0, addr := 0, len := 2, issued := 0, for_ := .job 4 none }), 4, none, ({ id := 4, for_ := .av 3 none, fn := 0, slice := 0, sgen := 0, addr := 0, len := 2, todo := [], left := 2 }), by decide +kernel⟩,
   ⟨(hostWith { reads := [{ fn := 0, tag := 2, gen := 0, slice := 0, sgen := 0, ring := 5, count := 0, addr := 0, len := 2, issued := 0, for_ := .orphan 9 0 0 }] }), 0, 0, 0, 2, ([7, 8]), ({ fn := 0, tag := 2, gen := 0, slice := 0, sgen := 0, ring := 5, count := 0, addr := 0, len := 2, issued := 0, for_ := .orphan 9 0 0 }), 9, 0, 0, by decide +kernel⟩,
   ⟨(hostWith { reads := [{ fn := 0, tag := 2, gen := 0, slice := 0, sgen := 0, ring := 5, count := 0, addr := 0, len := 2, issued := 0, for_ := .aborted 9 }] }), 0, 0, 0, 2, ([7, 8]), ({ fn := 0, tag := 2, gen := 0, slice := 0, sgen := 0, ring := 5, count := 0, addr := 0, len := 2, issued := 0, for_ := .aborted 9 }), 9, by decide +kernel⟩,
   ⟨(hostWith { reads := [{ fn := 0, tag := 2, gen := 0, slice := 0, sgen := 0, ring := 5, count := 0, addr := 0, len := 64, issued := 0 }] }), 0, 0, 0, 2, true, [], ({ fn := 0, tag := 2, gen := 0, slice := 0, sgen := 0, ring := 5, count := 0, addr := 0, len := 64, issued := 0 }), by decide +kernel⟩,
   ⟨(hostWith { reads := [{ fn := 0, tag := 2, gen := 0, slice := 0, sgen := 0, ring := 5, count := 0, addr := 0, len := 64, issued := 0, old := true }] }), 0, 0, 0, 2, .success, (desc 0), ({ fn := 0, tag := 2, gen := 0, slice := 0, sgen := 0, ring := 5, count := 0, addr := 0, len := 64, issued := 0, old := true }), by decide +kernel⟩⟩

/-- Values meet the hypotheses of clauses 19 to 20 of TranslationsInterruptsAndReads. -/
theorem witness_TranslationsInterruptsAndReads_4 :
    (∃ (s : State) (hif : Fin 2) (pf : Fin 8) (fn : Nat) (tag : Nat) (h : HostRead), s.mainUp = true ∧ fn = 8 * hif.val + pf.val ∧ s.hif.reads.find? (fun h => h.fn == fn && h.tag == tag) = some h ∧ h.old =
      true) ∧
    (∃ (s : State) (hif : Fin 2) (pf : Fin 8) (fn : Nat) (tag : Nat) (h : HostRead), s.mainUp = true ∧ fn = 8 * hif.val + pf.val ∧ s.hif.reads.find? (fun h => h.fn == fn && h.tag == tag) = some h ∧ h.for_
      = .entry ∧ h.old = false) :=
  ⟨⟨(hostWith { reads := [{ fn := 0, tag := 2, gen := 0, slice := 0, sgen := 0, ring := 5, count := 0, addr := 0, len := 64, issued := 0, old := true }] }), 0, 0, 0, 2, ({ fn := 0, tag := 2, gen := 0, slice := 0, sgen := 0, ring := 5, count := 0, addr := 0, len := 64, issued := 0, old := true }), by decide +kernel⟩,
   ⟨(hostWith { reads := [{ fn := 0, tag := 2, gen := 0, slice := 0, sgen := 0, ring := 5, count := 0, addr := 0, len := 64, issued := 0 }] }), 0, 0, 0, 2, ({ fn := 0, tag := 2, gen := 0, slice := 0, sgen := 0, ring := 5, count := 0, addr := 0, len := 64, issued := 0 }), by decide +kernel⟩⟩

/-- Values meet the hypotheses of clauses 1 to 6 of SliceCommands. -/
theorem witness_SliceCommands_1 :
    (∃ (s : State) (t : State) (req : Req) (x : Fin 4096), s.takes req 0x05 0 R.reg_SLC_CMD ∧ t = s.slicePut 1 x ∧ s.on R.SLC_CMD_STATUS_busy = false ∧ t.sliceState x = 0 ∧
      t.bindOk x = true ∧ t.on R.SLC_STATE_evring_en x = false) ∧
    (∃ (s : State) (t : State) (req : Req) (x : Fin 4096), s.takes req 0x05 0 R.reg_SLC_CMD ∧ t = s.slicePut 2 x ∧ s.on R.SLC_CMD_STATUS_busy = false ∧ t.sliceState x = 1 ∧ x.val
      ≠ 0) ∧
    (∃ (s : State) (req : Req), s.takes req 0x05 0 R.reg_SLC_CMD ∧ s.on R.SLC_CMD_STATUS_busy = false) ∧
    (∃ (s : State) (t : State) (req : Req) (x : Fin 4096), s.takes req 0x05 0 R.reg_SLC_CMD ∧ t = s.slicePut 3 x ∧ s.on R.SLC_CMD_STATUS_busy = false ∧ t.sliceState x = 1 ∧ x.val
      ≠ 0) ∧
    (∃ (s : State) (x : Fin 4096) (q : SliceSeq), s.mainUp = true ∧ Store.get none s.slc.seqs x = some q ∧ q.waiting = true ∧ s.genBlocked x = false ∧ s.rng.rings = [] ∧
      s.rng.late = [] ∧ s.stq.vols = [] ∧ s.rdm.qps = []) ∧
    (∃ (s : State) (x : Fin 4096) (q : SliceSeq), s.mainUp = true ∧ Store.get none s.slc.seqs x = some q ∧ q.waiting = false ∧ q.removal = false ∧ q.cause ≠ 0 ∧ s.seqBusy
      x = false ∧ s.rng.rings = [] ∧ s.slc.pages = []) :=
  ⟨⟨up, (up.slicePut 1 4095), .host, 4095, by decide +kernel⟩,
   ⟨(upAt [(R.SLC_STATE_state, 1, 5, 0)]), ((upAt [(R.SLC_STATE_state, 1, 5, 0)]).slicePut 2 5), .host, 5, by decide +kernel⟩,
   ⟨up, .host, by decide +kernel⟩,
   ⟨(upAt [(R.SLC_STATE_state, 1, 5, 0)]), ((upAt [(R.SLC_STATE_state, 1, 5, 0)]).slicePut 3 5), .host, 5, by decide +kernel⟩,
   ⟨(({ upAt [(R.SLC_STATE_state, 2, 5, 0)] with slc := { State.reset.slc with seqs := [(5, some { removal := false, cause := 0, oldGen := 0, waiting := true })] } } : State)), 5, ({ removal := false, cause := 0, oldGen := 0, waiting := true }), by decide +kernel⟩,
   ⟨(({ upAt [(R.SLC_STATE_state, 2, 5, 0)] with slc := { State.reset.slc with seqs := [(5, some { removal := false, cause := 2, oldGen := 0, waiting := false })] } } : State)), 5, ({ removal := false, cause := 2, oldGen := 0, waiting := false }), by decide +kernel⟩⟩

/-- Values meet the hypotheses of clauses 7 to 10 of SliceCommands. -/
theorem witness_SliceCommands_2 :
    (∃ (s : State) (pg : Nat) (rest : List Nat), s.mainUp = true ∧ s.slc.clearing = pg :: rest) ∧
    (∃ (s : State) (req : Req) (x : Fin 4096) (p : Fin 16) (v : Nat), s.takes req 0x05 0 R.reg_SLC_QUOTA x ∧ v < 2 ^ 42 ∧ v % 2 ^ 21 ≤ v / 2 ^ 21 ∧ s.quotaSlices.foldl (fun a y => if y =
      x.val then a else a + s.rd R.SLC_QUOTA_reserve y p) (v % 2 ^ 21) ≤ s.poolSize p ∧ s.inUse x p ≤ v / 2 ^ 21) ∧
    (∃ (s : State) (req : Req) (x : Fin 4096) (p : Fin 16) (v : Nat), s.takes req 0x05 0 R.reg_SLC_QUOTA x ∧ v < 2 ^ 42 ∧ v / 2 ^ 21 < v % 2 ^ 21) ∧
    (∃ (s : State) (req : Req) (x : Fin 4096) (r : Fin 65536) (y : Ring), s.takes req 0x05 0 R.reg_SLC_STATE x ∧ s.ring r = some y ∧ y.type = 2 ∧ y.slice = x) :=
  ⟨⟨(({ up with slc := { State.reset.slc with clearing := [3, 4] } } : State)), 3, [4], by decide +kernel⟩,
   ⟨up, .host, 4095, 8, (5 * 2 ^ 21 + 5), by decide +kernel⟩,
   ⟨up, .host, 4095, 8, (5 * 2 ^ 21 + 6), by decide +kernel⟩,
   ⟨(up.setRing 5 (aRing 2)), .host, 0, 5, (aRing 2), by decide +kernel⟩⟩

/-- Values meet the hypotheses of clauses 1 to 6 of RingCommands. -/
theorem witness_RingCommands_1 :
    (∃ (s : State) (t : State) (u : State) (req : Req) (r : Fin 65536) (x : Ring), s.takes req 0x06 0 R.reg_RNG_CMD ∧ t = s.ringPut 1 r ∧ x = ringOf t.stageImage t.time.ft ∧ t.ring r = none ∧ t.ctxLegal
      t.stageImage = true ∧ t.sliceActive x.slice = true ∧ t.ctxRange t.stageImage = some u ∧ t.dbFree t.stageImage none
      = true ∧ x.type ≠ 4 ∧ u.allocStatus x.slice 0 = 0 ∧ u.resident < 32768) ∧
    (∃ (s : State) (t : State) (u : State) (req : Req) (r : Fin 65536) (x : Ring) (y : Ring), s.takes req 0x06 0 R.reg_RNG_CMD ∧ t = s.ringPut 2 r ∧ t.ring r = some x ∧ x.state = 0 ∧ y = ringOf t.stageImage
      t.time.ft ∧ t.ctxLegal t.stageImage = true ∧ (y.type, y.slice, y.target) = (x.type, x.slice, x.target) ∧
      t.ctxRange t.stageImage = some u ∧ t.dbFree t.stageImage (some r.val) = true) ∧
    (∃ (s : State) (req : Req) (r : Fin 65536) (x : Ring), s.takes req 0x06 0 R.reg_RNG_CMD ∧ s.ring r = some x ∧ x.state = 1) ∧
    (∃ (s : State) (req : Req) (r : Fin 65536) (x : Ring), s.takes req 0x06 0 R.reg_RNG_CMD ∧ s.ring r = some x ∧ x.state = 0) ∧
    (∃ (s : State) (req : Req) (r : Fin 65536) (x : Ring), s.takes req 0x06 0 R.reg_RNG_CMD ∧ s.ring r = some x) ∧
    (∃ (s : State) (r : Fin 65536) (x : Ring), s.mainUp = true ∧ s.ring r = some x ∧ x.state = 2 ∧ x.eng.flight = [] ∧ before x.head x.tail = false) :=
  ⟨⟨(upAt [(R.RNG_CTX_STAGE_ctx, 6, 1, 0), (R.SLC_QUOTA_limit, 4, 0, 0), (R.SLC_STATE_state, 1, 0, 0)]), ((upAt [(R.RNG_CTX_STAGE_ctx, 6, 1, 0), (R.SLC_QUOTA_limit, 4, 0, 0), (R.SLC_STATE_state, 1, 0, 0)]).ringPut 1 9), ((upAt [(R.RNG_CTX_STAGE_ctx, 6, 1, 0), (R.SLC_QUOTA_limit, 4, 0, 0), (R.SLC_STATE_state, 1, 0, 0)]).ringPut 1 9), .host, 9, (ringOf (up.wr R.RNG_CTX_STAGE_ctx 6 1).stageImage 0), by decide +kernel⟩,
   ⟨((upAt [(R.RNG_CTX_STAGE_ctx, 6, 1, 0), (R.RNG_CTX_STAGE_ctx, 0x500000000, 3, 0)]).setRing 9 { aRing 0 with state := 0 }), (((upAt [(R.RNG_CTX_STAGE_ctx, 6, 1, 0), (R.RNG_CTX_STAGE_ctx, 0x500000000, 3, 0)]).setRing 9 { aRing 0 with state := 0 }).ringPut 2 9), (((upAt [(R.RNG_CTX_STAGE_ctx, 6, 1, 0), (R.RNG_CTX_STAGE_ctx, 0x500000000, 3, 0)]).setRing 9 { aRing 0 with state := 0 }).ringPut 2 9), .host, 9, ({ aRing 0 with state := 0 }), (ringOf ((upAt [(R.RNG_CTX_STAGE_ctx, 6, 1, 0), (R.RNG_CTX_STAGE_ctx, 0x500000000, 3, 0)]).stageImage) 0), by decide +kernel⟩,
   ⟨(up.setRing 9 (flying 1 (desc 0x11))), .host, 9, (flying 1 (desc 0x11)), by decide +kernel⟩,
   ⟨(up.setRing 9 { aRing 0 with state := 0 }), .host, 9, ({ aRing 0 with state := 0 }), by decide +kernel⟩,
   ⟨(up.setRing 9 (aRing 0)), .host, 9, (aRing 0), by decide +kernel⟩,
   ⟨(up.setRing 9 { aRing 0 with state := 2, head := 1 }), 9, ({ aRing 0 with state := 2, head := 1 }), by decide +kernel⟩⟩

/-- Values meet the hypotheses of clauses 7 to 10 of RingCommands. -/
theorem witness_RingCommands_2 :
    (∃ (s : State) (r : Fin 65536) (x : Ring), s.mainUp = true ∧ s.ring r = some x ∧ x.eng.loading = true ∧ x.eng.parked = [] ∧ s.resident < 32768 ∧ s.huskAddr r + 64
      ≤ s.hbmLimit ∧ (wordsOf (s.huskAddr r) 64).any s.wordBad = false) ∧
    (∃ (s : State) (r : Fin 65536) (x : Ring), s.mainUp = true ∧ s.rng.rings = [(r.val, some x)] ∧ x.eng.resident = true ∧ x.idle = true ∧ x.type ≠ 4 ∧ s.rd
      R.RNG_CFG_idle_us ≠ 0 ∧ 0 < s.rd R.RNG_STATUS_loading ∧ 32768 ≤ s.resident) ∧
    (∃ (s : State) (hif : Fin 2) (pf : Fin 8) (page : Fin 4096) (gen : Fin 256) (c : Nat) (r : Nat) (x : Ring), s.mainUp = true ∧ s.fnReady (8 * hif + pf) = true ∧ (s.pageSlice (8 * hif + pf) page).isSome = true ∧ s.on
      R.RNG_DB_MAP_valid (dbIndex (8 * hif + pf) page) = true ∧ s.rd R.RNG_DB_MAP_ring (dbIndex (8 * hif + pf) page) = r
      ∧ s.ring r = some x ∧ x.state = 1 ∧ x.mem = true ∧ x.eng.resident = true ∧ s.sliceActive x.slice = true ∧
      s.sliceGen x.slice = gen ∧ c < 2 ^ 32 ∧ before c x.tail = false ∧ cdiff c x.cpl ≤ x.size ∧ c ≠ x.tail) ∧
    (∃ (s : State) (hif : Fin 2) (pf : Fin 8) (page : Fin 4096) (gen : Fin 256) (c : Nat) (r : Nat) (x : Ring), s.mainUp = true ∧ s.fnReady (8 * hif + pf) = true ∧ (s.pageSlice (8 * hif + pf) page).isSome = true ∧ s.on
      R.RNG_DB_MAP_valid (dbIndex (8 * hif + pf) page) = true ∧ s.rd R.RNG_DB_MAP_ring (dbIndex (8 * hif + pf) page) = r
      ∧ s.ring r = some x ∧ x.state = 1 ∧ x.irqEn = false ∧ x.eng.resident = true ∧ s.sliceActive x.slice = true ∧
      s.sliceGen x.slice = gen ∧ c < 2 ^ 32) :=
  ⟨⟨((up.setRing 9 { aRing 0 with eng := { resident := false, loading := true } }).wr R.RNG_STATUS_loading 1), 9, ({ aRing 0 with eng := { resident := false, loading := true } }), by decide +kernel⟩,
   ⟨((upWith [(R.RNG_CFG_idle_us, 5), (R.RNG_STATUS_loading, 1), (R.RNG_STATUS_resident, 32768)]).setRing 9 { aRing 0 with head := 1 }), 9, ({ aRing 0 with head := 1 }), by decide +kernel⟩,
   ⟨(([(R.SLC_BIND_host_en, 1, 0), (R.SLC_STATE_state, 1, 0), (R.SLC_BIND_db_count, 8, 0), (R.RNG_DB_MAP_valid, 1, 3), (R.RNG_DB_MAP_ring, 9, 3)].foldl (fun s p => s.wr p.1 p.2.1 p.2.2) hostUp).setRing 9 (aRing 0)), 0, 0, 3, 0, 64, 9, (aRing 0), by decide +kernel⟩,
   ⟨(([(R.SLC_BIND_host_en, 1, 0), (R.SLC_STATE_state, 1, 0), (R.SLC_BIND_db_count, 8, 0), (R.RNG_DB_MAP_valid, 1, 3), (R.RNG_DB_MAP_ring, 9, 3)].foldl (fun s p => s.wr p.1 p.2.1 p.2.2) hostUp).setRing 9 (aRing 0)), 0, 0, 3, 0, 64, 9, (aRing 0), by decide +kernel⟩⟩

/-- Values meet the hypotheses of clauses 1 to 6 of DescriptorsAndCompletions. -/
theorem witness_DescriptorsAndCompletions_1 :
    (∃ (s : State) (r : Fin 65536) (x : Ring) (c : Nat), s.mainUp = true ∧ s.ring r = some x ∧ x.state = 1 ∧ x.eng.resident = true ∧ x.mem = true ∧ x.wants = some c ∧ x.entry c
      + 64 ≤ s.hbmLimit ∧ (wordsOf (x.entry c) 64).any s.wordBad = false) ∧
    (∃ (s : State) (r : Fin 65536) (x : Ring) (d : List Byte), s.mainUp = true ∧ s.ring r = some x ∧ x.state = 1 ∧ x.mem = true ∧ before x.head x.tail = true ∧ x.eng.copies =
      [(x.head, d)] ∧ dPhase d = false) ∧
    (∃ (s : State) (r : Fin 65536) (x : Ring) (d : List Byte), s.mainUp = true ∧ s.ring r = some x ∧ x.type = 0 ∧ s.flight r x.head = none ∧ s.sendHeld r = false ∧ x.state = 1 ∧
      before x.head x.tail = true ∧ s.rng.waits = [] ∧ x.eng.resident = true ∧ x.eng.flushing = false ∧ x.eng.marked =
      [] ∧ x.eng.copies = [(x.head, d)] ∧ dPhase d = true ∧ s.startCheck x d = 0 ∧ dFence d = false ∧ s.sliceState
      (dSlice d) = 1 ∧ s.allocStatus (dSlice d) 1 = 0) ∧
    (∃ (s : State) (r : Fin 65536) (x : Ring) (g : Flight), s.mainUp = true ∧ s.ring r = some x ∧ x.eng.flight.find? (fun g => g.staged && !g.payload && !s.payloadAsked r g.count)
      = some g ∧ s.stagedCount < 512 ∧ dOpcode g.desc ≠ 0x10 ∨ x.mem = true) ∧
    (∃ (s : State) (r : Fin 65536) (x : Ring) (g : Flight), s.mainUp = true ∧ s.ring r = some x ∧ x.eng.flight.find? (fun g => g.staged && !g.payload && !s.payloadAsked r g.count)
      = some g ∧ s.stagedCount < 512 ∧ dOpcode g.desc = 0x10 ∧ x.mem = false ∧ sendOk g.desc = true) ∧
    (∃ (s : State) (r : Fin 65536) (x : Ring) (g : Flight), s.mainUp = true ∧ s.ring r = some x ∧ x.firstStaged = some g ∧ s.time.ft ≤ ft64Units g.launch ∧ needsPayload g = false ∨
      g.payload = true) :=
  ⟨⟨(up.setRing 9 (aRing 0)), 9, (aRing 0), 0, by decide +kernel⟩,
   ⟨(up.setRing 9 { aRing 0 with eng := { copies := [(0, [])] } }), 9, ({ aRing 0 with eng := { copies := [(0, [])] } }), [], by decide +kernel⟩,
   ⟨((upAt [(R.SLC_STATE_state, 1, 0, 0), (R.SLC_QUOTA_limit, 4, 0, 1)]).setRing 9 { aRing 0 with eng := { copies := [(0, desc 0)] } }), 9, ({ aRing 0 with eng := { copies := [(0, desc 0)] } }), (desc 0), by decide +kernel⟩,
   ⟨(up.setRing 9 { flying 0 (desc 0x10) with eng := { flight := [{ aFlight (desc 0x10) with staged := true, launch := 2 ^ 32 }] } }), 9, ({ flying 0 (desc 0x10) with eng := { flight := [{ aFlight (desc 0x10) with staged := true, launch := 2 ^ 32 }] } }), ({ aFlight (desc 0x10) with staged := true, launch := 2 ^ 32 }), by decide +kernel⟩,
   ⟨(up.setRing 9 { flying 0 (sendDesc 60) with mem := false, eng := { flight := [{ aFlight (sendDesc 60) with staged := true, launch := 2 ^ 32 }] } }), 9, ({ flying 0 (sendDesc 60) with mem := false, eng := { flight := [{ aFlight (sendDesc 60) with staged := true, launch := 2 ^ 32 }] } }), ({ aFlight (sendDesc 60) with staged := true, launch := 2 ^ 32 }), by decide +kernel⟩,
   ⟨(up.setRing 9 { flying 0 (desc 0) with eng := { flight := [{ aFlight (desc 0) with staged := true, launch := 2 ^ 32 }] } }), 9, ({ flying 0 (desc 0) with eng := { flight := [{ aFlight (desc 0) with staged := true, launch := 2 ^ 32 }] } }), ({ aFlight (desc 0) with staged := true, launch := 2 ^ 32 }), by decide +kernel⟩⟩

/-- Values meet the hypotheses of clauses 7 to 12 of DescriptorsAndCompletions. -/
theorem witness_DescriptorsAndCompletions_2 :
    (∃ (s : State) (r : Fin 65536) (g : Flight), s.mainUp = true ∧ s.toPerform r [0] = some g) ∧
    (∃ (s : State) (r : Fin 65536) (x : Ring) (y : Ring) (g : Flight), s.mainUp = true ∧ s.ring r = some x ∧ s.toPerform r [1] = some g ∧ fieldLE g.desc 0x12 2 = 0 ∧ zeroFrom g.desc 0x1C =
      true ∧ s.ring (fieldLE g.desc 0x10 2) = some y ∧ y.slice = x.slice ∨ x.slice = 0 ∧ reached y.cpl (fieldLE g.desc
      0x14 4) = true) ∧
    (∃ (s : State) (r : Fin 65536) (x : Ring) (y : Ring) (g : Flight), s.mainUp = true ∧ s.ring r = some x ∧ s.toPerform r [1] = some g ∧ fieldLE g.desc 0x12 2 = 0 ∧ zeroFrom g.desc 0x1C =
      true ∧ s.ring (fieldLE g.desc 0x10 2) = some y ∧ y.slice = x.slice ∨ x.slice = 0 ∧ reached y.cpl (fieldLE g.desc
      0x14 4) = false ∧ fieldLE g.desc 0x18 4 = 0) ∧
    (∃ (s : State) (r : Fin 65536) (y : Ring) (o : WaitOn), s.mainUp = true ∧ s.rng.waits.find? (·.ring == r.val) = some o ∧ s.ring o.watched = some y ∧ reached y.cpl o.target =
      true) ∧
    (∃ (s : State) (r : Fin 65536) (y : Ring) (o : WaitOn) (u : Nat), s.mainUp = true ∧ s.rng.waits.find? (·.ring == r.val) = some o ∧ s.ring o.watched = some y ∧ reached y.cpl o.target =
      false ∧ o.deadline = some u) ∧
    (∃ (s : State) (r : Fin 65536) (o : WaitOn), s.mainUp = true ∧ s.rng.waits.find? (·.ring == r.val) = some o ∧ s.ring o.watched = none) :=
  ⟨⟨(up.setRing 9 (flying 0 (desc 0))), 9, (aFlight (desc 0)), by decide +kernel⟩,
   ⟨(up.setRing 9 (flying 0 (desc 1 [9]))), 9, (flying 0 (desc 1 [9])), (flying 0 (desc 1 [9])), (aFlight (desc 1 [9])), by decide +kernel⟩,
   ⟨(up.setRing 9 (flying 0 (desc 1 [9, 0, 0, 0, 1]))), 9, (flying 0 (desc 1 [9, 0, 0, 0, 1])), (flying 0 (desc 1 [9, 0, 0, 0, 1])), (aFlight (desc 1 [9, 0, 0, 0, 1])), by decide +kernel⟩,
   ⟨({ up.setRing 9 (flying 0 (desc 1)) with rng := { (up.setRing 9 (flying 0 (desc 1))).rng with waits := [{ ring := 9, count := 0, watched := 9, target := 0, deadline := none }] } }), 9, (flying 0 (desc 1)), ({ ring := 9, count := 0, watched := 9, target := 0, deadline := none }), by decide +kernel⟩,
   ⟨({ up.setRing 9 (flying 0 (desc 1)) with rng := { (up.setRing 9 (flying 0 (desc 1))).rng with waits := [{ ring := 9, count := 0, watched := 9, target := 1, deadline := some 7 }] } }), 9, (flying 0 (desc 1)), ({ ring := 9, count := 0, watched := 9, target := 1, deadline := some 7 }), 7, by decide +kernel⟩,
   ⟨({ up.setRing 9 (flying 0 (desc 1)) with rng := { (up.setRing 9 (flying 0 (desc 1))).rng with waits := [{ ring := 9, count := 0, watched := 8, target := 1, deadline := none }] } }), 9, ({ ring := 9, count := 0, watched := 8, target := 1, deadline := none }), by decide +kernel⟩⟩

/-- Values meet the hypotheses of clauses 13 to 18 of DescriptorsAndCompletions. -/
theorem witness_DescriptorsAndCompletions_3 :
    (∃ (s : State) (r : Fin 65536) (x : Ring) (y : Ring) (g : Flight) (t : Nat) (c : Nat), s.mainUp = true ∧ s.ring r = some x ∧ s.toPerform r [2] = some g ∧ fieldLE g.desc 0x12 2 = 0 ∧ zeroFrom g.desc 0x18 =
      true ∧ t = fieldLE g.desc 0x10 2 ∧ c = fieldLE g.desc 0x14 4 ∧ s.ring t = some y ∧ y.slice = x.slice ∨ x.slice = 0
      ∧ before c y.tail = true ∧ before c (cnt (y.tail + 2 ^ 32 - y.size)) = false ∧ before c y.head = false) ∧
    (∃ (s : State) (a : AbortOn) (l : List AbortOn), s.mainUp = true ∧ s.due = [] ∧ s.rng.aborts = a :: l ∧ s.flight a.tRing a.tCount = none) ∧
    (∃ (s : State) (r : Fin 65536) (x : Ring) (g : Flight) (k : Cpl), s.mainUp = true ∧ s.ring r = some x ∧ x.eng.resident = true ∧ x.nextCpl = some g ∧ g.cpl = some k ∧ g.tag.isSome = true
      ∧ g.sgen = s.sliceGen g.slice ∧ x.mem = true ∧ x.slice = 0 ∧ x.wbEn = false ∧ x.irqEn = false ∧ x.entry g.count +
      64 ≤ s.hbmLimit ∧ x.entry g.count % 8 = 0 ∧ (cplBytes g k s.now64).length = 64) ∧
    (∃ (s : State) (r : Fin 65536) (x : Ring) (u : Nat), s.mainUp = true ∧ s.ring r = some x ∧ x.eng.pendSince = some u ∧ x.signals = true ∧ x.modUs ≠ 0) ∧
    (∃ (s : State) (r : Fin 65536) (g : Flight), s.mainUp = true ∧ s.toPerform r [0x11] = some g ∧ 64 ≤ fieldLE g.desc 0x18 4 ∧ fieldLE g.desc 0x18 4 ≤ 16384 ∧ zeroFrom
      g.desc 0x1C = true) ∧
    (∃ (s : State) (r : Fin 65536) (g : Flight), s.mainUp = true ∧ s.toPerform r [3] = some g) :=
  ⟨⟨((up.setRing 9 (flying 0 (desc 2 [8]))).setRing 8 (aRing 0)), 9, (flying 0 (desc 2 [8])), (aRing 0), (aFlight (desc 2 [8])), 8, 0, by decide +kernel⟩,
   ⟨({ up.setRing 9 (flying 0 (desc 2)) with rng := { (up.setRing 9 (flying 0 (desc 2))).rng with aborts := [{ ring := 9, count := 0, tRing := 8, tCount := 3 }] } }), ({ ring := 9, count := 0, tRing := 8, tCount := 3 }), [], by decide +kernel⟩,
   ⟨(up.setRing 9 { flying 0 (desc 0) with eng := { flight := [{ aFlight (desc 0) with performed := true, cpl := some { status := 0 } }] } }), 9, ({ flying 0 (desc 0) with eng := { flight := [{ aFlight (desc 0) with performed := true, cpl := some { status := 0 } }] } }), ({ aFlight (desc 0) with performed := true, cpl := some { status := 0 } }), ({ status := 0 }), by decide +kernel⟩,
   ⟨(up.setRing 9 { aRing 0 with irqEn := true, modUs := 4, eng := { pendSince := some 0 } }), 9, ({ aRing 0 with irqEn := true, modUs := 4, eng := { pendSince := some 0 } }), 0, by decide +kernel⟩,
   ⟨(up.setRing 9 (flying 1 (desc 0x11 [0, 0, 0, 0, 0, 0, 0, 0, 0, 64]))), 9, (aFlight (desc 0x11 [0, 0, 0, 0, 0, 0, 0, 0, 0, 64])), by decide +kernel⟩,
   ⟨(up.setRing 9 (flying 2 (desc 3))), 9, (aFlight (desc 3)), by decide +kernel⟩⟩

/-- Values meet the hypotheses of clauses 19 to 19 of DescriptorsAndCompletions. -/
theorem witness_DescriptorsAndCompletions_4 :
    (∃ (s : State) (e : EventRec) (l : List EventRec) (r : Nat) (x : Ring) (g : Flight), s.mainUp = true ∧ s.evq = e :: l ∧ s.on R.SLC_STATE_evring_en e.toSlice = true ∧ s.rd R.SLC_STATE_evring e.toSlice = r ∧
      s.ring r = some x ∧ x.type = 2 ∧ x.firstPosted 3 = some g) :=
  ⟨({ ((up.wr R.SLC_STATE_evring_en 1).wr R.SLC_STATE_evring 9).setRing 9 { flying 2 (desc 3) with eng := { flight := [{ aFlight (desc 3) with performed := true }] } } with evq := [{ block := 2, inst := 0, code := 1, stamp := 0 }] }), ({ block := 2, inst := 0, code := 1, stamp := 0 }), [], 9, ({ flying 2 (desc 3) with eng := { flight := [{ aFlight (desc 3) with performed := true }] } }), ({ aFlight (desc 3) with performed := true }), by decide +kernel⟩

/-- Values meet the hypotheses of clauses 1 to 6 of PortStates. -/
theorem witness_PortStates_1 :
    (∃ (s : State) (p : Fin 64), s.mainUp = true ∧ s.portState p = 1 ∧ s.portAn p = true) ∧
    (∃ (s : State) (p : Fin 64) (rate : Nat), s.mainUp = true ∧ s.portState p = 1 ∧ s.portAn p = true ∧ rate ≠ s.portRate p) ∧
    (∃ (s : State) (p : Fin 64), s.mainUp = true ∧ s.portState p = 1 ∧ s.portBit p R.PRT_PORT_STATUS_an_mismatch = true) ∧
    (∃ (s : State) (p : Fin 64), s.mainUp = true ∧ s.portState p = 1 ∧ s.portLt p = true ∧ s.portBit p R.PRT_PORT_STATUS_an_done = true) ∧
    (∃ (s : State) (p : Fin 64) (inv : Fin 256), s.mainUp = true ∧ s.cuffOpen = true ∧ s.portState p = 1 ∧ s.portBit p R.PRT_PORT_STATUS_an_done = true) ∧
    (∃ (s : State) (p : Fin 64), s.mainUp = true ∧ s.portState p = 2) :=
  ⟨⟨(upAt [(R.PRT_PORT_STATUS_state, 1, 7, 7)]), 63, by decide +kernel⟩,
   ⟨(upAt [(R.PRT_PORT_STATUS_state, 1, 7, 7)]), 63, 400, by decide +kernel⟩,
   ⟨(upAt [(R.PRT_PORT_STATUS_state, 1, 0, 0), (R.PRT_PORT_STATUS_an_mismatch, 1, 0, 0)]), 0, by decide +kernel⟩,
   ⟨(upAt [(R.PRT_PORT_STATUS_state, 1, 0, 0), (R.PRT_PORT_STATUS_an_done, 1, 0, 0)]), 0, by decide +kernel⟩,
   ⟨(upAt [(R.PRT_PORT_STATUS_state, 1, 0, 0), (R.PRT_PORT_STATUS_an_done, 1, 0, 0), (R.SEC_BOOT_STATUS_cuff_open, 1, 0, 0)]), 0, 1, by decide +kernel⟩,
   ⟨sending, 5, by decide +kernel⟩⟩

/-- Values meet the hypotheses of clauses 7 to 11 of PortStates. -/
theorem witness_PortStates_2 :
    (∃ (s : State) (p : Fin 64), s.mainUp = true ∧ s.portState p = 3) ∧
    (∃ (s : State) (p : Nat) (l : Fin 64), s.mainUp = true ∧ s.portOfLane l = some p ∧ s.portState p = 2) ∧
    (∃ (s : State) (g : Fin 8), s.mainUp = true ∧ s.quadMode g 0 = 6) ∧
    (∃ (s : State) (t : State) (l : Fin 144) (p : Nat), s.mainUp = true ∧ l.val < 64 ∧ s.laneShut l = false ∧ t = ((s.raise R.PRT_LANE_STATUS_shut (l / 8) (l % 8)).wr
      R.PRT_LANE_STATUS_state 4 (l / 8) (l % 8)).raise R.PRT_LANE_STATUS_short_gnd (l / 8) (l % 8) ∧ t.portOfLane l =
      some p ∧ t.portState p = 2) ∧
    (∃ (s : State) (t : State) (req : Req) (l : Fin 144) (p : Nat), l.val < 64 ∧ s.takes req 0x07 (l / 8) R.reg_PRT_LANE_STATUS (l / 8) ∧ s.on R.PRT_LANE_STATUS_short_gnd (l / 8) (l % 8) =
      true ∧ s.laneShut l = true ∧ t = (((s.wr R.PRT_LANE_STATUS_short_gnd 0 (l / 8) (l % 8)).wr
      R.PRT_LANE_STATUS_short_lane 0 (l / 8) (l % 8)).wr R.PRT_LANE_STATUS_shut 0 (l / 8) (l % 8)).wr
      R.PRT_LANE_STATUS_state 0 (l / 8) (l % 8) ∧ t.portOfLane l = some p ∧ t.portState p = 4 ∧ (t.lanesOf p).all (fun l
      => !t.laneShut l) = true) :=
  ⟨⟨(upAt [(R.PRT_PORT_STATUS_state, 3, 1, 0)]), 8, by decide +kernel⟩,
   ⟨sending, 5, 5, by decide +kernel⟩,
   ⟨(up.acw hdrPreset 1 0x860000), 3, by decide +kernel⟩,
   ⟨sending, (((sending.raise R.PRT_LANE_STATUS_shut 0 5).wr R.PRT_LANE_STATUS_state 4 0 5).raise R.PRT_LANE_STATUS_short_gnd 0 5), 5, 5, by decide +kernel⟩,
   ⟨(upAt [(R.PRT_PORT_STATUS_state, 4, 0, 5), (R.PRT_LANE_STATUS_short_gnd, 1, 0, 5), (R.PRT_LANE_STATUS_shut, 1, 0, 5)]), (upAt [(R.PRT_PORT_STATUS_state, 4, 0, 5)]), .host, 5, 5, by decide +kernel⟩⟩

/-- Values meet the hypotheses of clauses 1 to 6 of PortFrames. -/
theorem witness_PortFrames_1 :
    (∃ (s : State) (t : State) (p : Fin 64) (data : List Byte) (x : Frame), s.mainUp = true ∧ s.portUp p = true ∧ (s.lane p).rxOpen = none ∧ 60 ≤ data.length ∧ data.length + 4 ≤ s.maxFrame p ∧
      beNat (sliceBytes data 12 2) ≠ 0x8808 ∧ t = (s.prtCnt p 0).prtCnt p 1 (data.length + 4) ∧ x = { data := data, src := p, stamp := s.now64, at_ := s.time.ft }
      ∧ t.ncsiDivert p x = (true, t)) ∧
    (∃ (s : State) (t : State) (p : Fin 64) (f : Fcs), s.mainUp = true ∧ (s.lane p).rxOpen = some false ∧ t = (s.setLane p { s.lane p with rxOpen := none }).countFcs p f ∧
      t.openPkts p = []) ∧
    (∃ (s : State) (p : Fin 64) (o : OutFrame) (f : Stored), s.mainUp = true ∧ s.outOf p = some o ∧ s.stored o.id = some f ∧ f.full = true ∧ s.portUp p = true ∧ f.pkt.frame.bad =
      false ∧ f.pkt.frame.poison = false ∧ f.pkt.ts < 2 ∧ f.pkt.frame.data.length + 4 ≤ s.maxFrame p) ∧
    (∃ (s : State) (p : Fin 64) (q : Fin 65536), s.mainUp = true ∧ s.portUp p = true ∧ s.pauseRxEn p = true) ∧
    (∃ (s : State) (p : Fin 64) (q : Fin 65536), s.mainUp = true ∧ s.portUp p = true ∧ s.pauseRxEn p = false) ∧
    (∃ (s : State) (p : Fin 64) (q : Nat), s.mainUp = true ∧ s.portUp p = true ∧ s.pfcRxEn p = true ∧ (s.lane p).pfcIgnore = [] ∧ q < 65536) :=
  ⟨⟨sending, ((sending.prtCnt 5 0).prtCnt 5 1 64), 5, (List.replicate 60 9), ({ data := List.replicate 60 9, src := 5 }), by decide +kernel⟩,
   ⟨(sending.setLane 5 { rxOpen := some false }), ((sending.setLane 5 {}).countFcs 5 .stomp), 5, .stomp, by decide +kernel⟩,
   ⟨sending, 5, ({ d := 5, pkt := aPkt, at_ := 0, cls := 0, id := 1, mirror := false }), ({ id := 1, pkt := aPkt, cells := 1, banks := [0], acct := 24, charged := 1, copies := 1, full := true }), by decide +kernel⟩,
   ⟨sending, 5, 65535, by decide +kernel⟩,
   ⟨((sending.acw hdrProfile 1 0x800000).acw R.PRT_PORT_CFG_pause_rx_en 0 0 5), 5, 9, by decide +kernel⟩,
   ⟨((sending.acw hdrProfile 1 0x800000).acw R.PRT_PORT_CFG_pfc_rx_en 1 0 5), 5, 100, by decide +kernel⟩⟩

/-- Values meet the hypotheses of clauses 7 to 11 of PortFrames. -/
theorem witness_PortFrames_2 :
    (∃ (s : State) (p : Fin 64) (c : Fin 256) (q : List Nat), s.mainUp = true ∧ s.portUp p = true ∧ s.pfcRxEn p = false) ∧
    (∃ (s : State) (p : Fin 64) (c : Fin 8), s.mainUp = true ∧ bit (s.rd R.PRT_PORT_STATUS_stopped_rx (p / 8) (p % 8)) c = true) ∧
    (∃ (s : State) (p : Fin 64) (want : Nat) (sent : Nat), s.mainUp = true ∧ s.xoffWanted p = want ∧ s.rd R.PRT_PORT_STATUS_xoff_tx (p / 8) (p % 8) = sent ∧ s.portUp p = true ∧
      want ≠ sent ∧ s.outOf p = none) ∧
    (∃ (s : State) (p : Fin 64) (sent : Nat), s.mainUp = true ∧ s.rd R.PRT_PORT_STATUS_xoff_tx (p / 8) (p % 8) = sent ∧ s.portUp p = true ∧ sent ≠ 0) ∧
    (∃ (s : State) (p : Fin 64) (c : Fin 8) (ms : Nat) (t : Nat) (k : Nat), s.mainUp = true ∧ s.rd R.PRT_TS_CFG_pfc_wd_ms (p / 8) (p % 8) = ms ∧ ms ≠ 0 ∧ (s.lane p).pfcSince.find? (·.1 == c.val) =
      some (k, t) ∧ (s.lane p).pfcTripped = [] ∧ s.stopped p c = true ∧ max s.time.ft (t + ms * unitsPerMs) ≤ Store.get
      0 (s.lane p).stopEnd c ∧ s.portBit p R.PRT_TS_CFG_pfc_wd_drop = false) :=
  ⟨⟨sending, 5, 255, [], by decide +kernel⟩,
   ⟨(upAt [(R.PRT_PORT_STATUS_stopped_rx, 128, 7, 7)]), 63, 7, by decide +kernel⟩,
   ⟨(upAt [(R.PRT_PORT_STATUS_state, 2, 0, 5), (R.PRT_PORT_STATUS_xoff_tx, 4, 0, 5)]), 5, 0, 4, by decide +kernel⟩,
   ⟨(upAt [(R.PRT_PORT_STATUS_state, 2, 0, 5), (R.PRT_PORT_STATUS_xoff_tx, 4, 0, 5)]), 5, 4, by decide +kernel⟩,
   ⟨((upAt [(R.PRT_TS_CFG_pfc_wd_ms, 1, 0, 5), (R.PRT_PORT_STATUS_stopped_rx, 2, 0, 5)]).setLane 5 { stopEnd := [(1, 2 * unitsPerMs)], pfcSince := [(1, 0)] }), 5, 1, 1, 0, 1, by decide +kernel⟩⟩

/-- Values meet the hypotheses of clauses 1 to 6 of PacketsOfRings. -/
theorem witness_PacketsOfRings_1 :
    (∃ (s : State) (t : State) (r : Fin 65536) (x : Ring) (g : Flight) (m : Nat) (d : List Byte), s.mainUp = true ∧ s.ring r = some x ∧ s.nextSend r = some g ∧ 60 ≤ fieldLE g.desc 0x18 4 ∧ fieldLE g.desc 0x18 4 ≤ 9596
      ∧ m = fieldLE g.desc 0x1C 2 ∧ m < 32 ∧ fieldLE g.desc 0x1E 2 = 0 ∧ zeroFrom g.desc 0x30 = true ∧ s.readFor (.work
      r g.count) g.slice x.mem (fieldLE g.desc 0x10 8) (fieldLE g.desc 0x18 4) = (.ok d, t)) ∧
    (∃ (s : State) (t : State) (r : Fin 65536) (x : Ring) (g : Flight), s.mainUp = true ∧ s.ring r = some x ∧ s.nextSend r = some g ∧ sendOk g.desc = true ∧ s.readFor (.work r g.count) g.slice
      x.mem (fieldLE g.desc 0x10 8) (fieldLE g.desc 0x18 4) = (.wait, t)) ∧
    (∃ (s : State) (t : State) (r : Fin 65536) (x : Ring) (g : Flight) (st : Nat), s.mainUp = true ∧ s.ring r = some x ∧ s.nextSend r = some g ∧ sendOk g.desc = true ∧ s.readFor (.work r g.count) g.slice
      x.mem (fieldLE g.desc 0x10 8) (fieldLE g.desc 0x18 4) = (.fail st, t)) ∧
    (∃ (s : State) (r : Fin 65536) (x : Ring) (g : Flight), s.mainUp = true ∧ s.ring r = some x ∧ s.nextSend r = some g ∧ fieldLE g.desc 0x18 4 < 60) ∧
    (∃ (s : State) (n : Fin 4096) (k : Pkt), s.mainUp = true ∧ s.headFull (592 + n) = some k ∧ s.rxRing n = none) ∧
    (∃ (s : State) (n : Fin 4096) (k : Pkt) (r : Nat) (x : Ring), s.mainUp = true ∧ s.headFull (592 + n) = some k ∧ s.rxRing n = some (r, x) ∧ k.slice ≠ x.slice) :=
  ⟨⟨(sendingRing 60), (((sendingRing 60).readFor (.work 9 0) 0 true 0 60).2), 9, (flying 0 (sendDesc 60)), (aFlight (sendDesc 60)), 0, (leBytes 60 7), by decide +kernel⟩,
   ⟨sendWaiting, ((sendWaiting.readFor (.work 9 0) 0 false 0 60).2), 9, ({ flying 0 (sendDesc 60) with mem := false }), (aFlight (sendDesc 60)), by decide +kernel⟩,
   ⟨sendFailing, sendFailing, 9, (flying 0 (desc 0x10 (leBytes 8 (2 ^ 60) ++ leBytes 4 60))), (aFlight (desc 0x10 (leBytes 8 (2 ^ 60) ++ leBytes 4 60))), St.ring_range, by decide +kernel⟩,
   ⟨(sendingRing 59), 9, (flying 0 (sendDesc 59)), (aFlight (sendDesc 59)), by decide +kernel⟩,
   ⟨(queued up 597 aPkt), 5, ({ aPkt with sid := 1 }), by decide +kernel⟩,
   ⟨(receiving { aRing 1 with target := 5, slice := 3 }), 5, ({ aPkt with sid := 1 }), 9, ({ aRing 1 with target := 5, slice := 3 }), by decide +kernel⟩⟩

/-- Values meet the hypotheses of clauses 7 to 8 of PacketsOfRings. -/
theorem witness_PacketsOfRings_2 :
    (∃ (s : State) (n : Fin 4096) (k : Pkt) (r : Nat) (x : Ring), s.mainUp = true ∧ s.headFull (592 + n) = some k ∧ s.rxRing n = some (r, x) ∧ k.slice = x.slice ∧ (x.firstPosted
      0x11).isNone = true) ∧
    (∃ (s : State) (t : State) (n : Fin 4096) (k : Pkt) (r : Nat) (x : Ring) (g : Flight), s.mainUp = true ∧ s.headFull (592 + n) = some k ∧ s.rxRing n = some (r, x) ∧ k.slice = x.slice ∧ x.firstPosted 0x11 =
      some g ∧ k.frame.bad = false ∧ k.frame.poison = false ∧ k.frame.data.length ≤ fieldLE g.desc 0x18 4 ∧ s.writeFor
      g.slice x.mem (fieldLE g.desc 0x10 8) (k.frame.data.take (fieldLE g.desc 0x18 4)) false = (.ok [], t)) :=
  ⟨⟨(receiving { aRing 1 with target := 5 }), 5, ({ aPkt with sid := 1 }), 9, ({ aRing 1 with target := 5 }), by decide +kernel⟩,
   ⟨(receiving rxRing9), (((receiving rxRing9).writeFor 0 true 0 (List.replicate 64 7)).2), 5, ({ aPkt with sid := 1 }), 9, rxRing9, rxFlight, by decide +kernel⟩⟩

/-- Values meet the hypotheses of clauses 1 to 6 of TableCommands. -/
theorem witness_TableCommands_1 :
    (∃ (s : State) (req : Req) (n : Fin 9), s.takes req 0x08 n R.reg_PIPE_VER_COMMIT n ∧ s.swc.mirroring = false ∧ s.pipeArmed n = false ∧ (s.pipe n).old.length < 3
      ∧ s.stagedCause n = 0) ∧
    (∃ (s : State) (req : Req) (n : Fin 9), s.takes req 0x08 n R.reg_PIPE_VER_COMMIT n ∧ s.swc.mirroring = false ∧ s.pipeArmed n = false) ∧
    (∃ (s : State) (n : Fin 9) (o : Nat × List (Nat × Nat)) (l : List (Nat × List (Nat × Nat))) (p : PipeSt), s.mainUp = true ∧ (s.pipe n).old = o :: l ∧ p = { s.pipe n with old := l }) ∧
    (∃ (s : State) (t : State) (req : Req) (n : Fin 9) (i : Fin 65536), t = s.wrReg req 0x08 R.reg_PIPE_ACT_IDX i n n ∧ t.takes req 0x08 n R.reg_PIPE_ACT_CMD n ∧ t.rd R.PIPE_ACT_IDX_idx n = i
      ∧ t.swc.mirroring = false ∧ i.val < 49152) ∧
    (∃ (s : State) (t : State) (req : Req) (n : Fin 9) (i : Fin 65536), t = s.wrReg req 0x08 R.reg_PIPE_ACT_IDX i n n ∧ t.takes req 0x08 n R.reg_PIPE_ACT_CMD n ∧ t.rd R.PIPE_ACT_IDX_idx n = i
      ∧ t.swc.mirroring = false) ∧
    (∃ (s : State) (r : Fin 65536) (g : Flight) (c : TCmd), s.mainUp = true ∧ s.tableReady r 0x60 g c ∧ bit c.opt 2 = false ∧ (s.tent c.pipe c.idx).state = 0) :=
  ⟨⟨up, .host, 8, by decide +kernel⟩,
   ⟨up, .host, 8, by decide +kernel⟩,
   ⟨(up.setPipe 2 { ver := 1, old := [(0, [])] }), 2, ((0, [])), [], ({ ver := 1, old := [] }), by decide +kernel⟩,
   ⟨up, (up.wrReg .host 0x08 R.reg_PIPE_ACT_IDX 7 3 3), .host, 3, 7, by decide +kernel⟩,
   ⟨up, (up.wrReg .host 0x08 R.reg_PIPE_ACT_IDX 7 3 3), .host, 3, 7, by decide +kernel⟩,
   ⟨(tabling (tdesc 0x60 0 5 6 0 7)), 9, (aFlight (tdesc 0x60 0 5 6 0 7)), (tcmdOf (tdesc 0x60 0 5 6 0 7)), by decide +kernel⟩⟩

/-- Values meet the hypotheses of clauses 7 to 12 of TableCommands. -/
theorem witness_TableCommands_2 :
    (∃ (s : State) (r : Fin 65536) (g : Flight) (c : TCmd), s.mainUp = true ∧ s.tableReady r 0x61 g c ∧ (s.tent c.pipe c.idx).state = 1 ∧ (s.tent c.pipe c.idx).add ≠ (s.pipe
      c.pipe).ver + 1) ∧
    (∃ (s : State) (r : Fin 65536) (g : Flight) (c : TCmd), s.mainUp = true ∧ s.tableReady r 0x62 g c ∧ (s.tent c.pipe c.idx).state = 1 ∧ (s.tent c.pipe c.act).state = 0) ∧
    (∃ (s : State) (t : State) (r : Fin 65536) (x : Ring) (g : Flight) (c : TCmd), s.mainUp = true ∧ s.ring r = some x ∧ s.tableReady r 0x63 g c ∧ s.writeFor g.slice x.mem (c.key % 2 ^ 64) (s.tent c.pipe
      c.idx).record = (.ok [], t)) ∧
    (∃ (s : State) (r : Fin 65536) (g : Flight) (c : TCmd) (i : Nat) (e : TEnt), s.mainUp = true ∧ s.tableReady r 0x64 g c ∧ bit c.ver 4 = true ∧ s.tcamLookup c.pipe (s.pipe c.pipe).ver c.stage c.key =
      some (i, e)) ∧
    (∃ (s : State) (r : Fin 65536) (g : Flight) (c : TCmd) (v : Nat) (i : Nat), s.mainUp = true ∧ s.tableReady r 0x65 g c ∧ v = (s.pipe c.pipe).ver + 1 ∧ s.hasEm c.pipe v c.stage = true ∧ s.emStaged
      c.pipe c.stage c.ekey = none ∧ (candidates (s.emBanks c.pipe v c.stage) c.ekey).find? (fun i => (s.em c.pipe
      i).isNone) = some i) ∧
    (∃ (s : State) (r : Fin 65536) (g : Flight) (c : TCmd) (i : Nat) (e : EmEnt), s.mainUp = true ∧ s.tableReady r 0x66 g c ∧ bit c.opt 1 = false ∧ s.hasEm c.pipe ((s.pipe c.pipe).ver + 1) c.stage =
      true ∧ s.emStaged c.pipe c.stage c.ekey = some (i, e)) :=
  ⟨⟨((tabling (tdesc 0x61 0 5 0 0)).setTent 0 5 { value := 1, state := 1 }), 9, (aFlight (tdesc 0x61 0 5 0 0)), (tcmdOf (tdesc 0x61 0 5 0 0)), by decide +kernel⟩,
   ⟨((tabling (tdesc 0x62 0 5 6 0)).setTent 0 5 { value := 1, state := 1 }), 9, (aFlight (tdesc 0x62 0 5 6 0)), (tcmdOf (tdesc 0x62 0 5 6 0)), by decide +kernel⟩,
   ⟨(tabling (tdesc 0x63 0 5 0 0 4096)), (((tabling (tdesc 0x63 0 5 0 0 4096)).writeFor 0 true 4096 (List.replicate 64 0)).2), 9, (flying 7 (tdesc 0x63 0 5 0 0 4096)), (aFlight (tdesc 0x63 0 5 0 0 4096)), (tcmdOf (tdesc 0x63 0 5 0 0 4096)), by decide +kernel⟩,
   ⟨((tabling (tdesc 0x64 16 0 0 0)).setTent 0 49157 { act := 3, state := 1 }), 9, (aFlight (tdesc 0x64 16 0 0 0)), (tcmdOf (tdesc 0x64 16 0 0 0)), 49157, ({ act := 3, state := 1 }), by decide +kernel⟩,
   ⟨(tabling (tdesc 0x65 16 0 6 0 7)), 9, (aFlight (tdesc 0x65 16 0 6 0 7)), (tcmdOf (tdesc 0x65 16 0 6 0 7)), 1, (((candidates [12, 13, 14, 15] 7)[0]?).getD 0), by decide +kernel⟩,
   ⟨((tabling (tdesc 0x66 16 0 6 0 7)).setEm 0 (((candidates [12, 13, 14, 15] 7)[0]?).getD 0) (some { key := 7, act := 1 })), 9, (aFlight (tdesc 0x66 16 0 6 0 7)), (tcmdOf (tdesc 0x66 16 0 6 0 7)), (((candidates [12, 13, 14, 15] 7)[0]?).getD 0), ({ key := 7, act := 1 }), by decide +kernel⟩⟩

/-- Values meet the hypotheses of clauses 13 to 17 of TableCommands. -/
theorem witness_TableCommands_3 :
    (∃ (s : State) (r : Fin 65536) (g : Flight) (c : TCmd) (v : Nat) (i : Nat) (e : EmEnt), s.mainUp = true ∧ s.tableReady r 0x67 g c ∧ bit c.ver 4 = true ∧ v = (s.pipe c.pipe).ver ∧ s.hasEm c.pipe v c.stage =
      true ∧ s.emFind c.pipe v (s.emBanks c.pipe v c.stage) c.ekey true = some (i, e)) ∧
    (∃ (s : State) (r : Fin 65536) (g : Flight) (c : TCmd) (i : Nat) (e : EmEnt), s.mainUp = true ∧ s.tableReady r 0x68 g c ∧ s.hasEm c.pipe (s.pipe c.pipe).ver c.stage = true ∧ (s.emOf c.pipe).find?
      (fun p => c.key % 2 ^ 32 ≤ p.1 && inBanks (s.emBanks c.pipe (s.pipe c.pipe).ver c.stage) p.1 && c.passes p.2) =
      some (i, e)) ∧
    (∃ (s : State) (r : Fin 65536) (g : Flight) (c : TCmd) (i : Nat) (e : EmEnt), s.mainUp = true ∧ s.tableReady r 0x69 g c ∧ s.hasEm c.pipe (s.pipe c.pipe).ver c.stage = true ∧ s.emOf c.pipe = [(i, e)]
      ∧ c.passes e = true ∧ e.learned = true ∧ inBanks (s.emBanks c.pipe (s.pipe c.pipe).ver c.stage) i = true) ∧
    (∃ (s : State) (r : Fin 65536) (g : Flight) (c : TCmd) (i : Nat) (e : EmEnt), s.mainUp = true ∧ s.tableReady r 0x6A g c ∧ bit c.opt 1 = true ∧ s.hasEm c.pipe (s.pipe c.pipe).ver c.stage = true ∧
      s.emLearned c.pipe c.stage c.ekey = some (i, e) ∧ e.sprout = true) ∧
    (∃ (s : State) (r : Fin 65536) (g : Flight) (c : TCmd) (i : Nat) (e : EmEnt), s.mainUp = true ∧ s.tableReady r 0x6B g c ∧ bit c.opt 1 = true ∧ s.hasEm c.pipe (s.pipe c.pipe).ver c.stage = true ∧
      s.emLearned c.pipe c.stage c.ekey = some (i, e) ∧ e.learned = true) :=
  ⟨⟨((tabling (tdesc 0x67 16 0 6 0 7)).setEm 0 (((candidates [12, 13, 14, 15] 7)[0]?).getD 0) (some { key := 7, act := 1 })), 9, (aFlight (tdesc 0x67 16 0 6 0 7)), (tcmdOf (tdesc 0x67 16 0 6 0 7)), 0, (((candidates [12, 13, 14, 15] 7)[0]?).getD 0), ({ key := 7, act := 1 }), by decide +kernel⟩,
   ⟨((tabling (tdesc 0x68 16 0 6 8 7)).setEm 0 (((candidates [12, 13, 14, 15] 7)[0]?).getD 0) (some { key := 7, act := 1 })), 9, (aFlight (tdesc 0x68 16 0 6 8 7)), (tcmdOf (tdesc 0x68 16 0 6 8 7)), (((candidates [12, 13, 14, 15] 7)[0]?).getD 0), ({ key := 7, act := 1 }), by decide +kernel⟩,
   ⟨((tabling (tdesc 0x69 16 0 6 16 7)).setEm 0 (((candidates [12, 13, 14, 15] 7)[0]?).getD 0) (some { key := 7, act := 1, learned := true, pinned := true })), 9, (aFlight (tdesc 0x69 16 0 6 16 7)), (tcmdOf (tdesc 0x69 16 0 6 16 7)), (((candidates [12, 13, 14, 15] 7)[0]?).getD 0), ({ key := 7, act := 1, learned := true, pinned := true }), by decide +kernel⟩,
   ⟨((tabling (tdesc 0x6A 16 0 6 2 7)).setEm 0 (((candidates [12, 13, 14, 15] 7)[0]?).getD 0) (some { key := 7, act := 1, learned := true, sprout := true })), 9, (aFlight (tdesc 0x6A 16 0 6 2 7)), (tcmdOf (tdesc 0x6A 16 0 6 2 7)), (((candidates [12, 13, 14, 15] 7)[0]?).getD 0), ({ key := 7, act := 1, learned := true, sprout := true }), by decide +kernel⟩,
   ⟨((tabling (tdesc 0x6B 16 0 6 2 7)).setEm 0 (((candidates [12, 13, 14, 15] 7)[0]?).getD 0) (some { key := 7, act := 1, learned := true, pinned := true })), 9, (aFlight (tdesc 0x6B 16 0 6 2 7)), (tcmdOf (tdesc 0x6B 16 0 6 2 7)), (((candidates [12, 13, 14, 15] 7)[0]?).getD 0), ({ key := 7, act := 1, learned := true, pinned := true }), by decide +kernel⟩⟩

/-- Values meet the hypotheses of clauses 1 to 6 of ClassificationAndLearning. -/
theorem witness_ClassificationAndLearning_1 :
    (∃ (s : State) (n : Fin 9) (lane : Nat) (f : Frame) (p : PipeSt), s.mainUp = true ∧ s.laneOf n = some lane ∧ (s.pipe lane).next (s.on R.SWC_ACCT_STAT_xoff (521 + 4 * lane)) = some (f, p)
      ∧ s.fencedUnit 0 n = false ∧ 4 ≤ f.recirc) ∧
    (∃ (s : State) (t : State) (n : Fin 9) (lane : Nat) (q : Nat) (f : Frame) (p : PipeSt), s.mainUp = true ∧ s.laneOf n = some lane ∧ (s.pipe lane).next (s.on R.SWC_ACCT_STAT_xoff (521 + 4 * lane)) = some (f, p)
      ∧ s.fencedUnit 0 n = false ∧ f.recirc < 4 ∧ f.src < 0x200 ∧ f.bypass = some q ∧ t = (s.setPipe lane p).pcnt n 0) ∧
    (∃ (s : State) (t : State) (n : Fin 9) (lane : Nat) (f : Frame) (p : PipeSt) (x : Parse), s.mainUp = true ∧ s.laneOf n = some lane ∧ (s.pipe lane).next (s.on R.SWC_ACCT_STAT_xoff (521 + 4 * lane)) = some (f, p)
      ∧ s.fencedUnit 0 n = false ∧ f.recirc < 4 ∧ f.src < 0x200 ∧ f.bypass = none ∧ t = (s.setPipe lane p).pcnt n 0 ∧ x
      = parseFrame { vxlan := t.ac R.PIPE_PARSE_CFG_vxlan_port n, geneve := t.ac R.PIPE_PARSE_CFG_geneve_port n, mplsUdp := t.ac R.PIPE_PARSE_CFG_mplsudp_port n, encap := t.ac R.PIPE_PARSE_CFG_encap_en n }
      f.data) ∧
    (∃ (s : State) (e : TEnt), s.mainUp = true ∧ Store.get ({} : TEnt) s.tbl.tcam s.tbl.sweep = e ∧ e.state = 1) ∧
    (∃ (s : State) (k : Nat) (e : TEnt), s.mainUp = true ∧ s.tbl.tcam.find? (fun p => p.2.state == 3) = some (k, e)) ∧
    (∃ (s : State) (t : State) (n : Fin 9) (st : Fin 17) (q : Learn) (l : List Learn) (i : Nat) (e : EmEnt), s.mainUp = true ∧ (s.pipe n).fifoOf st = q :: l ∧ t = (s.setPipe n { s.pipe n with fifo := Store.put [] (s.pipe n).fifo st l }).showFifo
      n ∧ t.emFind n (t.pipe n).ver (t.emBanks n (t.pipe n).ver st) q.key true = some (i, e) ∧ e.learned = true ∧
      e.sprout = false ∧ e.act = q.act) :=
  ⟨⟨(up.setPipe 2 { netq := [{ data := [], src := 3, recirc := 4 }] }), 2, 2, ({ data := [], src := 3, recirc := 4 }), {}, by decide +kernel⟩,
   ⟨(up.setPipe 2 { netq := [{ data := [1], src := 0x102, bypass := some 6 }] }), ((up.setPipe 2 {}).pcnt 2 0), 2, 2, 6, ({ data := [1], src := 0x102, bypass := some 6 }), {}, by decide +kernel⟩,
   ⟨(up.setPipe 2 { netq := [{ data := List.replicate 64 7, src := 17 }] }), ((up.setPipe 2 {}).pcnt 2 0), 2, 2, ({ data := List.replicate 64 7, src := 17 }), {}, (parseFrame { vxlan := up.ac R.PIPE_PARSE_CFG_vxlan_port 2, geneve := up.ac R.PIPE_PARSE_CFG_geneve_port 2, mplsUdp := up.ac R.PIPE_PARSE_CFG_mplsudp_port 2, encap := up.ac R.PIPE_PARSE_CFG_encap_en 2 } (List.replicate 64 7)), by decide +kernel⟩,
   ⟨(up.setTent 0 0 { act := 4, state := 1 }), ({ act := 4, state := 1 }), by decide +kernel⟩,
   ⟨(up.setTent 1 6 { act := 4, state := 3, prev := 1 }), 65542, ({ act := 4, state := 3, prev := 1 }), by decide +kernel⟩,
   ⟨((up.setEm 0 (((candidates [12, 13, 14, 15] 7)[0]?).getD 0) (some { key := 7, act := 1, learned := true })).setPipe 0 { fifo := [(16, [{ key := 7, act := 1, port := 2, base := 0 }])] }), (((up.setEm 0 (((candidates [12, 13, 14, 15] 7)[0]?).getD 0) (some { key := 7, act := 1, learned := true })).setPipe 0 {}).showFifo 0), 0, 16, ({ key := 7, act := 1, port := 2, base := 0 }), [], (((candidates [12, 13, 14, 15] 7)[0]?).getD 0), ({ key := 7, act := 1, learned := true }), by decide +kernel⟩⟩

/-- Values meet the hypotheses of clauses 7 to 7 of ClassificationAndLearning. -/
theorem witness_ClassificationAndLearning_2 :
    (∃ (s : State) (n : Fin 9) (st : Fin 17) (i : Nat) (e : EmEnt), s.mainUp = true ∧ s.ac R.PIPE_EM_CFG_age_ms n st ≠ 0 ∧ ((s.emOf n).filter (fun q => q.2.learned && inBanks (s.emBanks n
      (s.pipe n).ver st) q.1)).find? (fun q => (Store.get (0, 0) (s.pipe n).ager st).1 ≤ q.1) = some (i, e) ∧ e.hit =
      true) :=
  ⟨((up.setEm 0 (((candidates [12, 13, 14, 15] 7)[0]?).getD 0) (some { key := 7, act := 1, learned := true, hit := true })).acw R.PIPE_EM_CFG_age_ms 5 0 16), 0, 16, (((candidates [12, 13, 14, 15] 7)[0]?).getD 0), ({ key := 7, act := 1, learned := true, hit := true }), by decide +kernel⟩

/-- Values meet the hypotheses of clauses 1 to 6 of SwitchAndSleeve. -/
theorem witness_SwitchAndSleeve_1 :
    (∃ (s : State) (n : Fin 9), s.mainUp = true ∧ s.request n = 1 ∧ (List.range 9).all (fun i => i == n.val || s.request i == 0) = true ∧ (List.range
      9).any s.inputHeld = false ∧ Store.get 0 s.swc.bankUsed (s.swc.q % 16) < 32768) ∧
    (∃ (s : State) (t : State) (req : Req) (n : Fin 8), s.takes req 0x09 0 R.reg_SWC_SLEEVE_CMD ∧ t = s.cmdPut R.reg_SWC_SLEEVE_CMD [(R.SWC_SLEEVE_CMD_go, 1),
      (R.SWC_SLEEVE_CMD_op, 1), (R.SWC_SLEEVE_CMD_clone, 0), (R.SWC_SLEEVE_CMD_pipe, n)] ∧ t.sleeveState = 0 ∧
      t.fencedUnit 0 8 = false ∧ t.sleeveEpoch n = false) ∧
    (∃ (s : State) (t : State) (req : Req), s.takes req 0x09 0 R.reg_SWC_SLEEVE_CMD ∧ t = s.cmdPut R.reg_SWC_SLEEVE_CMD [(R.SWC_SLEEVE_CMD_go, 1),
      (R.SWC_SLEEVE_CMD_op, 2), (R.SWC_SLEEVE_CMD_clone, 0)] ∧ t.sleeveState = 4 ∧ t.fencedUnit 0 t.sleevePipe = false ∧
      t.sleeveEpoch t.sleevePipe = false) ∧
    (∃ (s : State), s.mainUp = true ∧ s.sleeveState = 1 ∧ s.swc.clone = false) ∧
    (∃ (s : State), s.mainUp = true ∧ s.sleeveState = 2) ∧
    (∃ (s : State), s.mainUp = true ∧ s.sleeveState = 5) :=
  ⟨⟨(up.setPipe 2 { xin := [aPkt] }), 2, by decide +kernel⟩,
   ⟨up, (up.cmdPut R.reg_SWC_SLEEVE_CMD [(R.SWC_SLEEVE_CMD_go, 1), (R.SWC_SLEEVE_CMD_op, 1), (R.SWC_SLEEVE_CMD_clone, 0), (R.SWC_SLEEVE_CMD_pipe, 7)]), .host, 7, by decide +kernel⟩,
   ⟨(upWith [(R.SWC_SLEEVE_STATUS_state, 4)]), ((upWith [(R.SWC_SLEEVE_STATUS_state, 4)]).cmdPut R.reg_SWC_SLEEVE_CMD [(R.SWC_SLEEVE_CMD_go, 1), (R.SWC_SLEEVE_CMD_op, 2), (R.SWC_SLEEVE_CMD_clone, 0)]), .host, by decide +kernel⟩,
   ⟨(upWith [(R.SWC_SLEEVE_STATUS_state, 1)]), by decide +kernel⟩,
   ⟨(upWith [(R.SWC_SLEEVE_STATUS_state, 2)]), by decide +kernel⟩,
   ⟨(upWith [(R.SWC_SLEEVE_STATUS_state, 5)]), by decide +kernel⟩⟩

/-- Values meet the hypotheses of clauses 7 to 8 of SwitchAndSleeve. -/
theorem witness_SwitchAndSleeve_2 :
    (∃ (s : State), s.mainUp = true ∧ s.sleeveState = 3 ∧ (s.pipe s.sleevePipe).xin = []) ∧
    (∃ (s : State), s.mainUp = true ∧ s.sleeveState = 6 ∧ (s.pipe 8).xin = []) :=
  ⟨⟨(upWith [(R.SWC_SLEEVE_STATUS_state, 3)]), by decide +kernel⟩,
   ⟨(upWith [(R.SWC_SLEEVE_STATUS_state, 6)]), by decide +kernel⟩⟩

/-- Values meet the hypotheses of clauses 1 to 6 of TrafficManager. -/
theorem witness_TrafficManager_1 :
    (∃ (s : State) (t : State) (u : State) (v : State) (d : Fin 73) (c : Nat) (x : Dwrr) (f : Stored) (e : QEnt), s.mainUp = true ∧ t = (if d.val < 64 then s.pfcSend d else s) ∧ t.destFree d = true ∧ u = t.countHeld d ∧ u.choose d =
      some (c, x) ∧ u.eligible d c = some f ∧ u.popQueue (tmQueue d c) = some (e, v) ∧ f.pkt.frame.whole = true ∧
      v.queue (tmQueue d c) ≠ []) ∧
    (∃ (s : State) (p : Fin 64) (l : GateList) (e : Nat × Nat × Nat), s.mainUp = true ∧ s.gateEn p = true ∧ s.gateList p = some l ∧ l.base ≤ s.time.ft ∧ s.gateEntry p = some e ∧ s.tm.out =
      []) ∧
    (∃ (s : State) (p : Fin 64) (l : GateList), s.mainUp = true ∧ (s.gateEng p).next = some l ∧ s.tm.out = []) ∧
    (∃ (s : State) (req : Req) (v : Nat), s.takes req 0x0A 0 R.reg_TM_GATE_FORCE ∧ v < 2 ^ 64 ∧ (List.range 64).all (fun p => !bit (s.rd R.TM_GATE_FORCE_force) p
      || bit v p) = true) ∧
    (∃ (s : State) (t : State), s.mainUp = true ∧ s.ac R.TM_CFG_sample_us ≠ 0 ∧ t = s.runTo (s.tm.sampleAt + s.ac R.TM_CFG_sample_us * unitsPerUs) ∧
      s.swc.queues = []) ∧
    (∃ (s : State) (t : State) (req : Req) (i : Fin 65536) (x : Nat), t = s.wrReg req 0x0A R.reg_TM_POL_IDX i ∧ t.takes req 0x0A 0 R.reg_TM_POL_CMD ∧ t.rd R.TM_POL_IDX_idx = i ∧ (t.policer
      i).slice = some x ∧ bit (({ t.policer i with rcd := t.polData, at_ := t.time.ft } : Policer)).modeByte 4 = false) :=
  ⟨⟨(({ sending with tm := {} } : State).setQueue 47 [{ id := 1, at_ := 0 }, { id := 1, at_ := 5 }]), (({ sending with tm := {} } : State).setQueue 47 [{ id := 1, at_ := 0 }, { id := 1, at_ := 5 }]), (({ sending with tm := {} } : State).setQueue 47 [{ id := 1, at_ := 0 }, { id := 1, at_ := 5 }]), (((({ sending with tm := {} } : State).setQueue 47 [{ id := 1, at_ := 0 }, { id := 1, at_ := 5 }]).popQueue 47).elim up (·.2)), 5, 7, {}, ({ id := 1, pkt := aPkt, cells := 1, banks := [0], acct := 24, charged := 1, copies := 1, full := true }), ({ id := 1, at_ := 0 }), by decide +kernel⟩,
   ⟨((up.setGateEng 3 { cur := some { base := 0, idle := 255, ents := [(1, 100)] } }).acw R.TM_SCHED_CFG_gate_en 1 3), 3, ({ base := 0, idle := 255, ents := [(1, 100)] }), ((0, 1, 100 * unitsPerNs)), by decide +kernel⟩,
   ⟨(up.setGateEng 3 { next := some { base := 7, idle := 255, ents := [] }, start := 7 }), 3, ({ base := 7, idle := 255, ents := [] }), by decide +kernel⟩,
   ⟨up, .host, (2 ^ 63), by decide +kernel⟩,
   ⟨(up.acw R.TM_CFG_sample_us 5), ((up.acw R.TM_CFG_sample_us 5).runTo (5 * unitsPerUs)), by decide +kernel⟩,
   ⟨(up.setPolicer 6 { slice := some 3 }), ((up.setPolicer 6 { slice := some 3 }).wrReg .host 0x0A R.reg_TM_POL_IDX 6), .host, 6, 3, by decide +kernel⟩⟩

/-- Values meet the hypotheses of clauses 7 to 10 of TrafficManager. -/
theorem witness_TrafficManager_2 :
    (∃ (s : State) (t : State) (req : Req) (i : Fin 65536), t = s.wrReg req 0x0A R.reg_TM_POL_IDX i ∧ t.takes req 0x0A 0 R.reg_TM_POL_CMD ∧ t.rd R.TM_POL_IDX_idx = i) ∧
    (∃ (s : State) (t : State) (req : Req) (i : Fin 65536), t = s.wrReg req 0x0A R.reg_TM_POL_IDX i ∧ t.takes req 0x0A 0 R.reg_TM_POL_CMD ∧ t.rd R.TM_POL_IDX_idx = i) ∧
    (∃ (s : State) (t : State) (r : Fin 65536) (g : Flight) (x : Nat), s.mainUp = true ∧ s.toPerform r [0x70] = some g ∧ x = fieldLE g.desc 0x10 2 ∧ x < 4096 ∧ zeroFrom g.desc 0x12 = true ∧
      s.sliceActive x = true ∧ s.allocStatus x 6 = 0 ∧ t = { s with free := s.free + 1 }) ∧
    (∃ (s : State) (r : Fin 65536) (g : Flight) (i : Nat) (x : Nat), s.mainUp = true ∧ s.toPerform r [0x71] = some g ∧ i = fieldLE g.desc 0x12 2 ∧ fieldLE g.desc 0x10 2 = 0 ∧ zeroFrom
      g.desc 0x14 = true ∧ (s.policer i).slice = some x) :=
  ⟨⟨up, (up.wrReg .host 0x0A R.reg_TM_POL_IDX 6), .host, 6, by decide +kernel⟩,
   ⟨up, (up.wrReg .host 0x0A R.reg_TM_POL_IDX 6), .host, 6, by decide +kernel⟩,
   ⟨((upAt [(R.SLC_STATE_state, 1, 0, 0), (R.SLC_QUOTA_limit, 5, 0, 6)]).setRing 9 (flying 7 (desc 0x70))), ({ (upAt [(R.SLC_STATE_state, 1, 0, 0), (R.SLC_QUOTA_limit, 5, 0, 6)]).setRing 9 (flying 7 (desc 0x70)) with free := 1 }), 9, (aFlight (desc 0x70)), 0, by decide +kernel⟩,
   ⟨((up.setRing 9 (flying 7 (desc 0x71 [0, 0, 6]))).setPolicer 6 { slice := some 3 }), 9, (aFlight (desc 0x71 [0, 0, 6])), 6, 3, by decide +kernel⟩⟩

/-- Values meet the hypotheses of clauses 1 to 6 of RdmaPosting. -/
theorem witness_RdmaPosting_1 :
    (∃ (s : State) (r : Fin 65536) (y : Ring) (g : Flight) (q : Nat) (x : Qp), s.mainUp = true ∧ s.rdmaPosts r 0x20 y g q x) ∧
    (∃ (s : State) (r : Fin 65536) (y : Ring) (g : Flight) (q : Nat) (x : Qp), s.mainUp = true ∧ s.rdmaPosts r 0x21 y g q x) ∧
    (∃ (s : State) (r : Fin 65536) (y : Ring) (g : Flight) (q : Nat) (x : Qp), s.mainUp = true ∧ s.rdmaPosts r 0x22 y g q x) ∧
    (∃ (s : State) (r : Fin 65536) (y : Ring) (g : Flight) (q : Nat) (x : Qp), s.mainUp = true ∧ s.rdmaPosts r 0x23 y g q x) ∧
    (∃ (s : State) (r : Fin 65536) (y : Ring) (g : Flight) (q : Nat) (x : Qp), s.mainUp = true ∧ s.rdmaPosts r 0x24 y g q x) ∧
    (∃ (s : State) (r : Fin 65536) (y : Ring) (g : Flight) (q : Nat) (x : Qp), s.mainUp = true ∧ s.rdmaPosts r 0x25 y g q x) :=
  ⟨⟨(rdma aQp (desc 0x20 [5])), 9, (flying 3 (desc 0x20 [5])), (aFlight (desc 0x20 [5])), 5, aQp, by decide +kernel⟩,
   ⟨(rdma aQp (desc 0x21 [5])), 9, (flying 3 (desc 0x21 [5])), (aFlight (desc 0x21 [5])), 5, aQp, by decide +kernel⟩,
   ⟨(rdma aQp (desc 0x22 [5])), 9, (flying 3 (desc 0x22 [5])), (aFlight (desc 0x22 [5])), 5, aQp, by decide +kernel⟩,
   ⟨(rdma aQp (desc 0x23 [5])), 9, (flying 3 (desc 0x23 [5])), (aFlight (desc 0x23 [5])), 5, aQp, by decide +kernel⟩,
   ⟨(rdma aQp (desc 0x24 [5])), 9, (flying 3 (desc 0x24 [5])), (aFlight (desc 0x24 [5])), 5, aQp, by decide +kernel⟩,
   ⟨(rdma aQp (desc 0x25 [5])), 9, (flying 3 (desc 0x25 [5])), (aFlight (desc 0x25 [5])), 5, aQp, by decide +kernel⟩⟩

/-- Values meet the hypotheses of clauses 7 to 12 of RdmaPosting. -/
theorem witness_RdmaPosting_2 :
    (∃ (s : State) (r : Fin 65536) (y : Ring) (g : Flight) (q : Nat) (x : Qp), s.mainUp = true ∧ s.rdmaPosts r 0x26 y g q x) ∧
    (∃ (s : State) (r : Fin 65536) (y : Ring) (g : Flight) (q : Nat) (x : Qp), s.mainUp = true ∧ s.nextWork r rdmaOp 0x20 y g ∧ rdmaDescOk g.desc = true ∧ q = fieldLE g.desc 0x10 3 ∧ s.qp q = some x
      ∧ x.sqRing = r ∧ s.qpVol q = none ∧ x.resident = true ∧ x.state = 4 ∨ x.state = 5) ∧
    (∃ (s : State) (r : Fin 65536) (y : Ring) (g : Flight), s.mainUp = true ∧ s.nextWork r rdmaOp 0x22 y g ∧ rdmaDescOk g.desc = true ∧ s.qp (fieldLE g.desc 0x10 3) = none) ∧
    (∃ (s : State) (r : Fin 65536) (y : Ring) (g : Flight), s.mainUp = true ∧ s.nextWork r rdmaOp 0x24 y g ∧ rdmaDescOk g.desc = false) ∧
    (∃ (s : State) (r : Fin 65536) (y : Ring) (g : Flight), s.mainUp = true ∧ s.nextWork r rdmaOp 0x27 y g ∧ 0 < fieldLE g.desc 0x14 4 ∧ fieldLE g.desc 0x14 4 ≤ 2 ^ 31 ∧ zeroFrom
      g.desc 0x20 = true) ∧
    (∃ (s : State) (t : State) (u : State) (r : Fin 65536) (y : Ring) (g : Flight) (b : List Byte), s.mainUp = true ∧ s.nextWork r rdmaOp 0x2C y g ∧ ctlOk g.desc false = true ∧ s.readFor (.work r g.count) g.slice y.mem
      (fieldLE g.desc 0x10 8) 64 = (.ok b, t) ∧ t.mrLegal b g.slice = some u ∧ u.allocStatus g.slice 7 = 0) :=
  ⟨⟨(rdma aQp (desc 0x26 [5])), 9, (flying 3 (desc 0x26 [5])), (aFlight (desc 0x26 [5])), 5, aQp, by decide +kernel⟩,
   ⟨(rdma { aQp with state := 5 } (desc 0x20 [5])), 9, (flying 3 (desc 0x20 [5])), (aFlight (desc 0x20 [5])), 5, ({ aQp with state := 5 }), by decide +kernel⟩,
   ⟨(rdma aQp (desc 0x22 [6])), 9, (flying 3 (desc 0x22 [6])), (aFlight (desc 0x22 [6])), by decide +kernel⟩,
   ⟨(rdma aQp (desc 0x24 [5, 0, 0, 1])), 9, (flying 3 (desc 0x24 [5, 0, 0, 1])), (aFlight (desc 0x24 [5, 0, 0, 1])), by decide +kernel⟩,
   ⟨(rdma aQp (desc 0x27 [0, 0, 0, 0, 9])), 9, (flying 3 (desc 0x27 [0, 0, 0, 0, 9])), (aFlight (desc 0x27 [0, 0, 0, 0, 9])), by decide +kernel⟩,
   ⟨((roomy (leBytes 8 0 ++ leBytes 8 64 ++ leBytes 12 0 ++ [1])).setRing 9 (flying 3 (desc 0x2C))), ((((roomy (leBytes 8 0 ++ leBytes 8 64 ++ leBytes 12 0 ++ [1])).setRing 9 (flying 3 (desc 0x2C))).readFor (.work 9 0) 0 true 0 64).2), (((((roomy (leBytes 8 0 ++ leBytes 8 64 ++ leBytes 12 0 ++ [1])).setRing 9 (flying 3 (desc 0x2C))).readFor (.work 9 0) 0 true 0 64).2).mrLegal (leBytes 8 0 ++ leBytes 8 64 ++ leBytes 12 0 ++ [1] ++ leBytes 35 0) 0 |>.getD up), 9, (flying 3 (desc 0x2C)), (aFlight (desc 0x2C)), (leBytes 8 0 ++ leBytes 8 64 ++ leBytes 12 0 ++ [1] ++ leBytes 35 0), by decide +kernel⟩⟩

/-- Values meet the hypotheses of clauses 1 to 6 of QueuePairControl. -/
theorem witness_QueuePairControl_1 :
    (∃ (s : State) (t : State) (u : State) (r : Fin 65536) (y : Ring) (g : Flight) (b : List Byte) (n : Qp) (q : Nat), s.mainUp = true ∧ s.nextWork r rdmaOp 0x28 y g ∧ ctlOk g.desc false = true ∧ s.readFor (.work r g.count) g.slice y.mem
      (fieldLE g.desc 0x10 8) 128 = (.ok b, t) ∧ n = t.newQp b g.slice ∧ qpRecOk b = true ∧ n.transport ≤ 1 ∧ n.pipeCls
      < 128 ∧ n.pipeCls % 16 ≤ 7 ∧ t.ringFor n.sqRing g.slice false = true ∧ t.ringFor n.rqRing g.slice true = true ∧
      t.allocStatus g.slice 2 = 0 ∧ t.freeQpn = some q ∧ t.entryFor g.slice = some u) ∧
    (∃ (s : State) (t : State) (u : State) (r : Fin 65536) (y : Ring) (g : Flight) (b : List Byte) (x : Qp) (q : Nat) (n : Nat) (m : Nat), s.mainUp = true ∧ s.nextWork r rdmaOp 0x29 y g ∧ ctlOk g.desc true = true ∧ q = fieldLE g.desc 0x18 4 ∧ s.qp q = some x
      ∧ x.sqRing = r ∧ s.needQp q = (true, t) ∧ t.readFor (.work r g.count) g.slice y.mem (fieldLE g.desc 0x10 8) 128 =
      (.ok b, u) ∧ n = fieldLE b 4 1 ∧ m = (if u.rdmExpert then fieldLE b 0x28 4 else fieldLE b 0x28 4 - (fieldLE b 0x28
      4 &&& 0x9C0)) ∧ qpMove x.state n x.transport = true ∧ n ≠ 0 ∧ n ≠ 5 ∧ qpRecOk b = true ∧ m &&& qpMaskUsed
      x.transport = m ∧ m &&& qpMaskNeed x.state n x.transport u.rdmExpert = qpMaskNeed x.state n x.transport
      u.rdmExpert ∧ qpAttrOk b m = true) ∧
    (∃ (s : State) (t : State) (u : State) (r : Fin 65536) (y : Ring) (g : Flight) (b : List Byte) (x : Qp) (q : Nat), s.mainUp = true ∧ s.nextWork r rdmaOp 0x29 y g ∧ ctlOk g.desc true = true ∧ q = fieldLE g.desc 0x18 4 ∧ s.qp q = some x
      ∧ x.sqRing = r ∧ s.needQp q = (true, t) ∧ t.readFor (.work r g.count) g.slice y.mem (fieldLE g.desc 0x10 8) 128 =
      (.ok b, u) ∧ qpMove x.state (fieldLE b 4 1) x.transport = false) ∧
    (∃ (s : State) (t : State) (u : State) (r : Fin 65536) (y : Ring) (g : Flight) (x : Qp) (q : Nat) (e : List Byte), s.mainUp = true ∧ s.nextWork r rdmaOp 0x2A y g ∧ ctlOk g.desc true = true ∧ q = fieldLE g.desc 0x18 4 ∧ s.qp q = some x
      ∧ x.sqRing = r ∧ x.resident = true ∧ t = s.setQp q (some { x with used := s.time.ft }) ∧ t.writeFor g.slice y.mem
      (fieldLE g.desc 0x10 8) (t.qpRecord q { x with used := s.time.ft }) = (.ok e, u)) ∧
    (∃ (s : State) (r : Fin 65536) (y : Ring) (g : Flight) (x : Qp) (q : Nat), s.mainUp = true ∧ s.nextWork r rdmaOp 0x2B y g ∧ ctlOk g.desc true = true ∧ fieldLE g.desc 0x10 8 = 0 ∧ q = fieldLE
      g.desc 0x18 4 ∧ s.qp q = some x ∧ x.sqRing = r ∧ x.state = 0 ∨ x.state = 5 ∧ x.sq = []) ∧
    (∃ (s : State) (r : Fin 65536) (y : Ring) (g : Flight) (x : Qp) (q : Nat), s.mainUp = true ∧ s.nextWork r rdmaOp 0x2B y g ∧ ctlOk g.desc true = true ∧ fieldLE g.desc 0x10 8 = 0 ∧ q = fieldLE
      g.desc 0x18 4 ∧ s.qp q = some x ∧ x.sqRing = r ∧ x.state ≠ 0 ∧ x.state ≠ 5) :=
  ⟨⟨qpMaking, ((qpMaking.readFor (.work 9 0) 0 true 0 128).2), (((qpMaking.readFor (.work 9 0) 0 true 0 128).2.entryFor 0).getD up), 9, (flying 3 (desc 0x28)), (aFlight (desc 0x28)), qpRecord, (qpMaking.newQp qpRecord 0), 2, by decide +kernel⟩,
   ⟨(qpMoving 1), (((qpMoving 1).needQp 5).2), ((((qpMoving 1).needQp 5).2.readFor (.work 9 0) 0 true 0 128).2), 9, (flying 3 (desc 0x29 [0, 0, 0, 0, 0, 0, 0, 0, 5])), (aFlight (desc 0x29 [0, 0, 0, 0, 0, 0, 0, 0, 5])), (leBytes 4 0 ++ [1] ++ leBytes 123 0), ({ aQp with state := 0 }), 5, 1, 0, by decide +kernel⟩,
   ⟨(qpMoving 3), (((qpMoving 3).needQp 5).2), ((((qpMoving 3).needQp 5).2.readFor (.work 9 0) 0 true 0 128).2), 9, (flying 3 (desc 0x29 [0, 0, 0, 0, 0, 0, 0, 0, 5])), (aFlight (desc 0x29 [0, 0, 0, 0, 0, 0, 0, 0, 5])), (leBytes 4 0 ++ [3] ++ leBytes 123 0), ({ aQp with state := 0 }), 5, by decide +kernel⟩,
   ⟨qpAsked, qpAsked, ((qpAsked.writeFor 0 true 0 (qpAsked.qpRecord 5 aQp)).2), 9, (flying 3 (desc 0x2A [0, 0, 0, 0, 0, 0, 0, 0, 5])), (aFlight (desc 0x2A [0, 0, 0, 0, 0, 0, 0, 0, 5])), aQp, 5, [], by decide +kernel⟩,
   ⟨(rdma { aQp with state := 5 } (desc 0x2B [0, 0, 0, 0, 0, 0, 0, 0, 5])), 9, (flying 3 (desc 0x2B [0, 0, 0, 0, 0, 0, 0, 0, 5])), (aFlight (desc 0x2B [0, 0, 0, 0, 0, 0, 0, 0, 5])), ({ aQp with state := 5 }), 5, by decide +kernel⟩,
   ⟨(rdma aQp (desc 0x2B [0, 0, 0, 0, 0, 0, 0, 0, 5])), 9, (flying 3 (desc 0x2B [0, 0, 0, 0, 0, 0, 0, 0, 5])), (aFlight (desc 0x2B [0, 0, 0, 0, 0, 0, 0, 0, 5])), aQp, 5, by decide +kernel⟩⟩

/-- Values meet the hypotheses of clauses 7 to 10 of QueuePairControl. -/
theorem witness_QueuePairControl_2 :
    (∃ (s : State) (r : Fin 65536) (y : Ring) (g : Flight) (key : Nat), s.mainUp = true ∧ s.nextWork r rdmaOp 0x2D y g ∧ ctlOk g.desc true = true ∧ fieldLE g.desc 0x10 8 = 0 ∧ key = fieldLE
      g.desc 0x18 4 ∧ key / 256 < 1048576 ∧ (s.mr (key / 256)).state = 1 ∧ (s.mr (key / 256)).variant = key % 256 ∧
      (s.mr (key / 256)).slice = g.slice ∨ g.slice = 0) ∧
    (∃ (s : State) (r : Fin 65536) (y : Ring) (g : Flight) (key : Nat), s.mainUp = true ∧ s.nextWork r rdmaOp 0x2D y g ∧ ctlOk g.desc true = true ∧ fieldLE g.desc 0x10 8 = 0 ∧ key = fieldLE
      g.desc 0x18 4 ∧ (s.mr (key / 256)).state ≠ 1 ∨ (s.mr (key / 256)).variant ≠ key % 256) ∧
    (∃ (s : State) (i : Fin 1048576) (r : Nat) (c : Nat), s.mainUp = true ∧ (s.mr i).state = 2 ∧ s.mrInUse i = false ∧ (s.mr i).wrote = false ∧ (s.mr i).waiter = .ring r c) ∧
    (∃ (s : State) (q : Fin 262144) (x : Qp), s.mainUp = true ∧ s.rdm.qps = [(q.val, some x)] ∧ x.resident = true ∧ x.fetching = false ∧ x.parked = [] ∧ s.rd
      R.SLC_QUOTA_limit x.slice 3 < s.inUse x.slice 3) :=
  ⟨⟨((rdma aQp (desc 0x2D [0, 0, 0, 0, 0, 0, 0, 0, 0, 3])).setMr 3 { state := 1 }), 9, (flying 3 (desc 0x2D [0, 0, 0, 0, 0, 0, 0, 0, 0, 3])), (aFlight (desc 0x2D [0, 0, 0, 0, 0, 0, 0, 0, 0, 3])), 768, by decide +kernel⟩,
   ⟨(rdma aQp (desc 0x2D [0, 0, 0, 0, 0, 0, 0, 0, 0, 3])), 9, (flying 3 (desc 0x2D [0, 0, 0, 0, 0, 0, 0, 0, 0, 3])), (aFlight (desc 0x2D [0, 0, 0, 0, 0, 0, 0, 0, 0, 3])), 768, by decide +kernel⟩,
   ⟨((rdma aQp (desc 0x2D)).setMr 3 { state := 2, waiter := .ring 9 0 }), 3, 9, 0, by decide +kernel⟩,
   ⟨(((rdma aQp (desc 0)).wr R.SLC_QUOTA_limit 0 0 3).wr R.SLC_QUOTA_in_use 1 0 3), 5, aQp, by decide +kernel⟩⟩

/-- Values meet the hypotheses of clauses 1 to 6 of RocePackets. -/
theorem witness_RocePackets_1 :
    (∃ (s : State) (c : Nat) (k : Pkt), s.mainUp = true ∧ s.rdmaPick = some (c, k) ∧ rxClass k = .bad) ∧
    (∃ (s : State) (c : Nat) (k : Pkt) (p : Roce) (i : Bool) (f : Bool), s.mainUp = true ∧ s.rdmaPick = some (c, k) ∧ rxClass k = .good p (.send f f i) ∧ s.qp p.dqp = none) ∧
    (∃ (s : State) (t : State) (u : State) (c : Nat) (i : Nat) (k : Pkt) (p : Roce) (x : Qp) (rg : Mr) (d : List Byte) (e : List Byte), s.mainUp = true ∧ s.rdmaIn c k p (.write true true false) x ∧ x.state = 2 ∨ x.state = 3 ∨ x.state = 4 ∧ x.transport = 0
      ∧ p.ce = false ∧ p.psn = x.epsn ∧ x.msg = none ∧ d = p.body.drop 16 ∧ d ≠ [] ∧ d.length ≤ x.mtu ∧ d.length ≤ 2 ^
      31 ∧ beNat (sliceBytes p.body 12 4) = d.length ∧ bit x.flags 4 = true ∧ t = s.setQp p.dqp (some { x with used := s.time.ft })
      ∧ t.keyCheck p.dqp x.slice x.pd (beNat (sliceBytes p.body 8 4)) (beNat (p.body.take 8)) d.length accWrite = some
      (i, rg) ∧ t.mrWrite i rg (beNat (p.body.take 8)) d false = (.ok e, u)) ∧
    (∃ (s : State) (c : Nat) (k : Pkt) (p : Roce) (x : Qp) (f : Bool) (l : Bool) (i : Bool), s.mainUp = true ∧ s.rdmaIn c k p (.send f l i) x ∧ x.state = 2 ∨ x.state = 3 ∨ x.state = 4 ∧ x.transport = 0 ∧ p.ce =
      false ∧ p.psn ≠ x.epsn ∧ psnBefore p.psn x.epsn = true) ∧
    (∃ (s : State) (c : Nat) (k : Pkt) (p : Roce) (x : Qp) (f : Bool) (l : Bool) (i : Bool), s.mainUp = true ∧ s.rdmaIn c k p (.write f l i) x ∧ x.state = 2 ∨ x.state = 3 ∨ x.state = 4 ∧ x.transport = 0 ∧ p.ce =
      false ∧ p.psn ≠ x.epsn ∧ psnBefore p.psn x.epsn = false ∧ x.nakFor ≠ some x.epsn) ∧
    (∃ (s : State) (c : Nat) (k : Pkt) (p : Roce) (x : Qp) (f : Bool) (l : Bool) (i : Bool), s.mainUp = true ∧ s.rdmaPick = some (c, k) ∧ rxClass k = .good p (.send f l i) ∧ s.qp p.dqp = some x ∧ x.resident =
      false ∨ x.parked ≠ []) :=
  ⟨⟨(arrived aQp [1, 2, 3]), 0, ({ aPkt with frame := { data := [1, 2, 3], src := 3 }, sid := 1 }), by decide +kernel⟩,
   ⟨(queued up 584 (pktOf (rocePacket 4 7 []))), 0, ({ pktOf (rocePacket 4 7 []) with sid := 1 }), ((roceOf (rocePacket 4 7 [])).getD noRoce), false, true, by decide +kernel⟩,
   ⟨wrPkt, wrPkt, ((wrPkt.mrWrite 3 wrMr 0 [1, 2, 3, 4] false).2), 0, 3, ({ pktOf (rocePacket 10 7 wrBody) with sid := 1 }), ((roceOf (rocePacket 10 7 wrBody)).getD noRoce), ({ aQp with epsn := 7, flags := 17 }), wrMr, ([1, 2, 3, 4]), [], by decide +kernel⟩,
   ⟨(arrived { aQp with epsn := 8 } (rocePacket 4 7 [])), 0, ({ pktOf (rocePacket 4 7 []) with sid := 1 }), ((roceOf (rocePacket 4 7 [])).getD noRoce), ({ aQp with epsn := 8 }), true, true, false, by decide +kernel⟩,
   ⟨(arrived { aQp with epsn := 6 } (rocePacket 10 7 wrBody)), 0, ({ pktOf (rocePacket 10 7 wrBody) with sid := 1 }), ((roceOf (rocePacket 10 7 wrBody)).getD noRoce), ({ aQp with epsn := 6 }), true, true, false, by decide +kernel⟩,
   ⟨(arrived { aQp with resident := false } (rocePacket 4 7 [])), 0, ({ pktOf (rocePacket 4 7 []) with sid := 1 }), ((roceOf (rocePacket 4 7 [])).getD noRoce), ({ aQp with resident := false }), true, true, false, by decide +kernel⟩⟩

/-- Values meet the hypotheses of clauses 7 to 12 of RocePackets. -/
theorem witness_RocePackets_2 :
    (∃ (s : State) (c : Nat) (k : Pkt) (p : Roce) (x : Qp), s.mainUp = true ∧ s.rdmaIn c k p .ack x ∧ x.state = 3 ∧ x.transport = 0 ∧ p.ce = false ∧ (p.body.head?.map
      (·.toNat)).getD 0 < 0x20) ∧
    (∃ (s : State) (t : State) (q : Fin 262144) (x : Qp) (a : Nat), s.mainUp = true ∧ s.qp q = some x ∧ x.rtAt = some a ∧ s.qpTimeout x ≠ 0 ∧ x.state = 3 ∧ x.una ≠ x.top ∧ t = s.runTo (a +
      4096 * 2 ^ s.qpTimeout x * unitsPerNs) ∧ x.resident = true ∧ x.retries < s.qpRetry x) ∧
    (∃ (s : State) (t : State) (q : Fin 262144) (x : Qp) (a : Nat), s.mainUp = true ∧ s.qp q = some x ∧ x.rnrEnd = some a ∧ x.resident = true ∧ t = s.runTo a) ∧
    (∃ (s : State) (q : Fin 262144) (x : Qp), s.mainUp = true ∧ s.qp q = some x ∧ x.fetching = true ∧ x.parked = [] ∧ (s.huskPlace q).1 = 1 ∧ (s.hbmRead (s.huskPlace
      q).2 512).status = 0 ∧ (s.hbmRead (s.huskPlace q).2 512).next = s) ∧
    (∃ (s : State) (t : State) (c : Nat) (k : Pkt) (p : Roce) (x : Qp), s.mainUp = true ∧ s.rdmaIn c k p .cnp x ∧ x.state = 2 ∨ x.state = 3 ∨ x.state = 4 ∧ x.transport = 0 ∧ p.ce = false ∧
      s.qpCc x = true ∧ x.reactAt = none ∧ t = (s.setQp p.dqp (some { x with used := s.time.ft })).rdmCnt 14) ∧
    (∃ (s : State) (t : State) (q : Fin 262144) (x : Qp), s.mainUp = true ∧ s.qp q = some x ∧ s.qpCc x = true ∧ x.steps < 5 ∧ t = s.runTo (x.incAt + s.ac R.RDM_CC_CFG_inc_us *
      unitsPerUs)) :=
  ⟨⟨(arrived aQp (rocePacket 0x11 7 [0x1F, 0, 0, 0])), 0, ({ pktOf (rocePacket 0x11 7 [0x1F, 0, 0, 0]) with sid := 1 }), ((roceOf (rocePacket 0x11 7 [0x1F, 0, 0, 0])).getD noRoce), aQp, by decide +kernel⟩,
   ⟨(rdma { aQp with rtAt := some 0, top := 1 } (desc 0)), ((rdma { aQp with rtAt := some 0, top := 1 } (desc 0)).runTo (4096 * 2 ^ 14 * unitsPerNs)), 5, ({ aQp with rtAt := some 0, top := 1 }), 0, by decide +kernel⟩,
   ⟨(rdma { aQp with rnrEnd := some 9 } (desc 0)), ((rdma { aQp with rnrEnd := some 9 } (desc 0)).runTo 9), 5, ({ aQp with rnrEnd := some 9 }), 9, by decide +kernel⟩,
   ⟨((rdma { aQp with resident := false, fetching := true } (desc 0)).wr R.RDM_HUSK_MAP_loc 1 0), 5, ({ aQp with resident := false, fetching := true }), by decide +kernel⟩,
   ⟨(arrived aQp (rocePacket 0x81 0 (leBytes 16 0))), (((arrived aQp (rocePacket 0x81 0 (leBytes 16 0))).setQp 5 (some aQp)).rdmCnt 14), 0, ({ pktOf (rocePacket 0x81 0 (leBytes 16 0)) with sid := 1 }), ((roceOf (rocePacket 0x81 0 (leBytes 16 0))).getD noRoce), aQp, by decide +kernel⟩,
   ⟨(rdma aQp (desc 0)), ((rdma aQp (desc 0)).runTo (((rdma aQp (desc 0)).ac R.RDM_CC_CFG_inc_us) * unitsPerUs)), 5, aQp, by decide +kernel⟩⟩

/-- Values meet the hypotheses of clauses 1 to 6 of VolumeControl. -/
theorem witness_VolumeControl_1 :
    (∃ (s : State) (t : State) (u : State) (req : Req) (v : Fin 4096) (x : Vol), s.takes req 0x0C 0 R.reg_STQ_CMD ∧ t = s.volPut 1 v ∧ s.on R.STQ_CMD_STATUS_busy = false ∧ t.volState v = 0 ∧ x = { rcd := t.volStage, idleAt := t.time.ft }
      ∧ volLegal x.rcd = true ∧ t.elogPlace x = some u ∧ t.sliceActive x.slice = true ∧ t.backendOk x = true) ∧
    (∃ (s : State) (t : State) (req : Req) (v : Fin 4096), s.takes req 0x0C 0 R.reg_STQ_CMD ∧ t = s.volPut 1 v ∧ s.on R.STQ_CMD_STATUS_busy = false ∧ t.volState v ≠ 0) ∧
    (∃ (s : State) (t : State) (req : Req) (v : Fin 4096) (x : Vol), s.takes req 0x0C 0 R.reg_STQ_CMD ∧ t = s.volPut 2 v ∧ s.on R.STQ_CMD_STATUS_busy = false ∧ t.vol v = some x ∧ t.volState
      v = 2 ∧ volFixed t.volStage = volFixed x.rcd ∧ volLegal t.volStage = true) ∧
    (∃ (s : State) (t : State) (req : Req) (v : Fin 4096) (x : Vol), s.takes req 0x0C 0 R.reg_STQ_CMD ∧ t = s.volPut 2 v ∧ s.on R.STQ_CMD_STATUS_busy = false ∧ t.vol v = some x ∧ t.volState
      v ≠ 2) ∧
    (∃ (s : State) (t : State) (req : Req) (v : Fin 4096) (f : Bool), s.takes req 0x0C 0 R.reg_STQ_CMD ∧ t = s.volPut 3 v f ∧ s.on R.STQ_CMD_STATUS_busy = false ∧ t.volState v = 2) ∧
    (∃ (s : State) (t : State) (v : Nat) (x : Vol), s.mainUp = true ∧ s.stq.restart = some (v, false) ∧ s.vol v = some x ∧ x.cmds = [] ∧ t = ({ s with stq := { s.stq with restart := none } }
      : State).setVol v (some { x with wakeAt := none, wakeNote := none, wakeAcked := false, wakeFor := none, idleAt := s.time.ft })) :=
  ⟨⟨(volStaged vrec), ((volStaged vrec).volPut 1 7), ((volStaged vrec).volPut 1 7), .host, 7, ({ rcd := vrec }), by decide +kernel⟩,
   ⟨(stq 1 aVol (desc 0)), ((stq 1 aVol (desc 0)).volPut 1 7), .host, 7, by decide +kernel⟩,
   ⟨(((volStaged vrec).wr R.STQ_VOL_STATE_state 2 7).setVol 7 (some aVol)), ((((volStaged vrec).wr R.STQ_VOL_STATE_state 2 7).setVol 7 (some aVol)).volPut 2 7), .host, 7, aVol, by decide +kernel⟩,
   ⟨(stq 1 aVol (desc 0)), ((stq 1 aVol (desc 0)).volPut 2 7), .host, 7, aVol, by decide +kernel⟩,
   ⟨(stq 2 aVol (desc 0)), ((stq 2 aVol (desc 0)).volPut 3 7 true), .host, 7, true, by decide +kernel⟩,
   ⟨({ stq 2 aVol (desc 0) with stq := { (stq 2 aVol (desc 0)).stq with restart := some (7, false) } }), (stq 2 aVol (desc 0)), 7, aVol, by decide +kernel⟩⟩

/-- Values meet the hypotheses of clauses 7 to 9 of VolumeControl. -/
theorem witness_VolumeControl_2 :
    (∃ (s : State) (t : State) (req : Req) (v : Fin 4096) (x : Vol), s.takes req 0x0C 0 R.reg_STQ_CMD ∧ t = s.volPut 4 v ∧ s.on R.STQ_CMD_STATUS_busy = false ∧ t.vol v = some x ∧
      t.volQueues v = [] ∧ x.cmds = []) ∧
    (∃ (s : State) (t : State) (req : Req) (v : Fin 4096) (x : Vol), s.takes req 0x0C 0 R.reg_STQ_CMD ∧ t = s.volPut 4 v ∧ s.on R.STQ_CMD_STATUS_busy = false ∧ t.vol v = some x ∧ x.cmds ≠
      []) ∧
    (∃ (s : State) (t : State) (req : Req) (v : Fin 4096) (x : Vol), s.takes req 0x0C 0 R.reg_STQ_CMD ∧ t = s.volPut 5 v ∧ s.on R.STQ_CMD_STATUS_busy = false ∧ t.vol v = some x) :=
  ⟨⟨((volStaged vrec).setVol 7 (some aVol)), (((volStaged vrec).setVol 7 (some aVol)).volPut 4 7), .host, 7, aVol, by decide +kernel⟩,
   ⟨(stq 1 busyVol (desc 0)), ((stq 1 busyVol (desc 0)).volPut 4 7), .host, 7, busyVol, by decide +kernel⟩,
   ⟨(stq 1 aVol (desc 0)), ((stq 1 aVol (desc 0)).volPut 5 7), .host, 7, aVol, by decide +kernel⟩⟩

/-- Values meet the hypotheses of clauses 1 to 6 of VolumeCommands. -/
theorem witness_VolumeCommands_1 :
    (∃ (s : State) (t : State) (r : Fin 65536) (y : Ring) (g : Flight) (v : Nat) (x : Vol), s.mainUp = true ∧ s.stqStarts t r 0x30 y g v x ∧ x.backend = 2 ∧ t.modStatus x.bref = 0 ∧ t.freeSlot x < x.depth) ∧
    (∃ (s : State) (t : State) (r : Fin 65536) (y : Ring) (g : Flight) (v : Nat) (x : Vol), s.mainUp = true ∧ s.stqStarts t r 0x31 y g v x) ∧
    (∃ (s : State) (t : State) (r : Fin 65536) (y : Ring) (g : Flight) (v : Nat) (x : Vol), s.mainUp = true ∧ s.stqStarts t r 0x32 y g v x) ∧
    (∃ (s : State) (t : State) (r : Fin 65536) (y : Ring) (g : Flight) (v : Nat) (x : Vol), s.mainUp = true ∧ s.stqStarts t r 0x33 y g v x) ∧
    (∃ (s : State) (t : State) (r : Fin 65536) (y : Ring) (g : Flight) (v : Nat) (x : Vol), s.mainUp = true ∧ s.stqStarts t r 0x34 y g v x) ∧
    (∃ (s : State) (r : Fin 65536) (y : Ring) (g : Flight) (v : Nat) (x : Vol), s.mainUp = true ∧ s.ring r = some y ∧ y.type = 4 ∧ v = y.target % 4096 ∧ y.nextCmd = some g ∧ g.staged = false ∧ dOpcode
      g.desc = 0x31 ∧ s.vol v = some x ∧ s.stq.flushTo = [] ∧ fieldLE g.desc 0x10 2 < 2 ∧ fieldLE g.desc 0x12 2 = 0 ∧
      zeroFrom g.desc 0x28 = true ∧ 0 < cNblocks g.desc ∧ cNblocks g.desc ≤ x.maxBlocks ∧ x.capacity < cLba g.desc +
      cNblocks g.desc) :=
  ⟨⟨(stq 1 aVol (oneBlock 0x30)), (stq 1 aVol (oneBlock 0x30)), 9, ({ flying 4 (oneBlock 0x30) with target := 7 }), (aFlight (oneBlock 0x30)), 7, aVol, by decide +kernel⟩,
   ⟨(stq 1 aVol (oneBlock 0x31)), (stq 1 aVol (oneBlock 0x31)), 9, ({ flying 4 (oneBlock 0x31) with target := 7 }), (aFlight (oneBlock 0x31)), 7, aVol, by decide +kernel⟩,
   ⟨(stq 1 aVol (desc 0x32)), (stq 1 aVol (desc 0x32)), 9, ({ flying 4 (desc 0x32) with target := 7 }), (aFlight (desc 0x32)), 7, aVol, by decide +kernel⟩,
   ⟨(stq 1 aVol (oneBlock 0x33)), (stq 1 aVol (oneBlock 0x33)), 9, ({ flying 4 (oneBlock 0x33) with target := 7 }), (aFlight (oneBlock 0x33)), 7, aVol, by decide +kernel⟩,
   ⟨(stq 1 aVol (oneBlock 0x34)), (stq 1 aVol (oneBlock 0x34)), 9, ({ flying 4 (oneBlock 0x34) with target := 7 }), (aFlight (oneBlock 0x34)), 7, aVol, by decide +kernel⟩,
   ⟨(stq 1 aVol (desc 0x31 [0, 0, 0, 0, 1, 0, 0, 0, 100])), 9, ({ flying 4 (desc 0x31 [0, 0, 0, 0, 1, 0, 0, 0, 100]) with target := 7 }), (aFlight (desc 0x31 [0, 0, 0, 0, 1, 0, 0, 0, 100])), 7, aVol, by decide +kernel⟩⟩

/-- Values meet the hypotheses of clauses 7 to 12 of VolumeCommands. -/
theorem witness_VolumeCommands_2 :
    (∃ (s : State) (t : State) (u : State) (r : Fin 65536) (y : Ring) (g : Flight) (v : Nat) (n : Nat) (x : Vol), s.mainUp = true ∧ s.ring r = some y ∧ y.type = 4 ∧ v = y.target % 4096 ∧ y.nextCmd = some g ∧ g.staged = false ∧ dOpcode
      g.desc = 0x30 ∧ s.vol v = some x ∧ s.stq.flushTo = [] ∧ (s.cmdCheck x y g.slice g.desc).toOption = some t ∧
      s.volState v = 1 ∧ x.cmds.length < x.depth ∧ s.rd R.STQ_VOL_STATE_pstate v = 2 ∧ x.wakeAt = none ∧ t.powerNotice v
      x 0 = some (n, u)) ∧
    (∃ (s : State) (t : State) (u : State) (r : Fin 65536) (y : Ring) (g : Flight) (v : Nat) (x : Vol) (e : List Byte), s.mainUp = true ∧ s.ring r = some y ∧ v = y.target % 4096 ∧ y.eng.flight.find? (fun g => !g.performed && !g.staged &&
      g.cpl.isNone && dOpcode g.desc == 0x35) = some g ∧ s.vol v = some x ∧ (s.cmdCheck x y g.slice g.desc).toOption =
      some t ∧ t.writeFor g.slice y.mem (cBuf g.desc) (leBytes 8 x.capacity ++ leBytes 1 x.shift ++ leBytes 1 x.backend
      ++ leBytes 1 (t.rd R.STQ_VOL_STATE_pstate v) ++ leBytes 1 (t.volState v) ++ leBytes 4 x.maxBlocks ++ leBytes 4 3
      ++ leBytes 4 (if x.backend = 0 then 0 else x.exit2) ++ leBytes 8 x.elog ++ List.replicate 32 0) = (.ok e, u)) ∧
    (∃ (s : State) (t : State) (a : StqRsp) (l : List StqRsp) (x : Vol) (c : StqCmd) (g : Flight), s.mainUp = true ∧ s.stq.rsps = a :: l ∧ s.vol a.vol = some x ∧ a.wellFormed = true ∧ a.slot < x.depth ∧ x.cmds.find?
      (fun c => c.slot == a.slot && c.ended.isNone) = some c ∧ a.status = 0 ∧ s.flight c.ring c.count = some g ∧ t = { s with stq := { s.stq with rsps := l } }) ∧
    (∃ (s : State) (a : StqRsp) (l : List StqRsp) (x : Vol), s.mainUp = true ∧ s.stq.rsps = a :: l ∧ s.vol a.vol = some x ∧ a.wellFormed = false) ∧
    (∃ (s : State) (a : StqRsp) (l : List StqRsp), s.mainUp = true ∧ s.stq.rsps = a :: l ∧ s.vol a.vol = none) ∧
    (∃ (s : State) (t : State) (v : Fin 4096) (n : Fin 1024) (x : Vol) (c : StqCmd), s.mainUp = true ∧ s.vol v = some x ∧ x.cmds.find? (fun c => c.slot == n.val && c.ended.isNone) = some c ∧ t = s.runTo
      (c.issued + s.cmdTimeout x * unitsPerMs)) :=
  ⟨⟨((stq 1 aVol (oneBlock 0x30)).wr R.STQ_VOL_STATE_pstate 2 7), ((stq 1 aVol (oneBlock 0x30)).wr R.STQ_VOL_STATE_pstate 2 7), ((((stq 1 aVol (oneBlock 0x30)).wr R.STQ_VOL_STATE_pstate 2 7).sendMgmt 0 2 7).2), 9, ({ flying 4 (oneBlock 0x30) with target := 7 }), (aFlight (oneBlock 0x30)), 7, 0, aVol, by decide +kernel⟩,
   ⟨(stq 1 aVol (desc 0x35)), (stq 1 aVol (desc 0x35)), (((stq 1 aVol (desc 0x35)).writeFor 0 true 0 (leBytes 8 100 ++ [9, 2, 0, 1] ++ leBytes 4 8 ++ leBytes 4 3 ++ leBytes 44 0)).2), 9, ({ flying 4 (desc 0x35) with target := 7 }), (aFlight (desc 0x35)), 7, aVol, [], by decide +kernel⟩,
   ⟨({ stq 1 busyVol (oneBlock 0x30) with stq := { (stq 1 busyVol (oneBlock 0x30)).stq with rsps := [{ vol := 7, slot := 0, status := 0 }] } }), (stq 1 busyVol (oneBlock 0x30)), ({ vol := 7, slot := 0, status := 0 }), [], busyVol, ({ slot := 0, ring := 9, count := 0, issued := 0 }), (aFlight (oneBlock 0x30)), by decide +kernel⟩,
   ⟨({ stq 1 aVol (desc 0x30) with stq := { (stq 1 aVol (desc 0x30)).stq with rsps := [{ vol := 7, slot := 0, status := 0, wellFormed := false }] } }), ({ vol := 7, slot := 0, status := 0, wellFormed := false }), [], aVol, by decide +kernel⟩,
   ⟨({ up with stq := { rsps := [{ vol := 7, slot := 0, status := 0 }] } }), ({ vol := 7, slot := 0, status := 0 }), [], by decide +kernel⟩,
   ⟨(stq 1 busyVol (oneBlock 0x30)), ((stq 1 busyVol (oneBlock 0x30)).runTo ((stq 1 busyVol (oneBlock 0x30)).cmdTimeout busyVol * unitsPerMs)), 7, 0, busyVol, ({ slot := 0, ring := 9, count := 0, issued := 0 }), by decide +kernel⟩⟩

/-- Values meet the hypotheses of clauses 13 to 16 of VolumeCommands. -/
theorem witness_VolumeCommands_3 :
    (∃ (s : State) (t : State) (v : Fin 4096) (x : Vol) (a : Nat) (r : Nat) (c : Nat), s.mainUp = true ∧ s.vol v = some x ∧ x.wakeAt = some a ∧ x.wakeFor = some (r, c) ∧ x.wakeAcked = false ∧ t = s.runTo (a
      + s.cmdTimeout x * unitsPerMs)) ∧
    (∃ (s : State) (v : Fin 4096) (x : Vol) (a : Nat), s.mainUp = true ∧ s.vol v = some x ∧ s.idleSince v x = some a ∧ s.idle1 x ≠ 0 ∧ s.volState v = 1 ∧ s.rd
      R.STQ_VOL_STATE_pstate v = 0) ∧
    (∃ (s : State) (t : State) (v : Fin 4096) (x : Vol) (a : Nat) (n : Nat), s.mainUp = true ∧ s.vol v = some x ∧ s.idleSince v x = some a ∧ s.idle2 x ≠ 0 ∧ s.volState v = 1 ∧ s.rd
      R.STQ_VOL_STATE_pstate v ≠ 2 ∧ (((s.runTo (a + s.idle2 x * unitsPerMs)).wr R.STQ_VOL_STATE_pstate 2 v).stqCnt
      11).powerNotice v x 2 = some (n, t)) ∧
    (∃ (s : State) (v : Fin 4096) (x : Vol) (r : Nat) (c : Nat), s.mainUp = true ∧ s.vol v = some x ∧ x.wakeAcked = true ∧ x.wakeFor = some (r, c)) :=
  ⟨⟨(stq 1 { aVol with wakeAt := some 0, wakeFor := some (9, 0) } (oneBlock 0x30)), ((stq 1 { aVol with wakeAt := some 0, wakeFor := some (9, 0) } (oneBlock 0x30)).runTo ((stq 1 aVol (oneBlock 0x30)).cmdTimeout aVol * unitsPerMs)), 7, ({ aVol with wakeAt := some 0, wakeFor := some (9, 0) }), 0, 9, 0, by decide +kernel⟩,
   ⟨((stq 1 aVol (desc 0)).setRing 9 (aRing 0)), 7, aVol, 0, by decide +kernel⟩,
   ⟨(((stq 1 aVol (desc 0)).setRing 9 (aRing 0)).acw hdrPreset 2 stqBase), ((((((((stq 1 aVol (desc 0)).setRing 9 (aRing 0)).acw hdrPreset 2 stqBase).runTo (10000 * unitsPerMs)).wr R.STQ_VOL_STATE_pstate 2 7).stqCnt 11).sendMgmt 0 1 7).2), 7, aVol, 0, 0, by decide +kernel⟩,
   ⟨(stq 1 { aVol with wakeAcked := true, wakeFor := some (9, 0) } (oneBlock 0x30)), 7, ({ aVol with wakeAcked := true, wakeFor := some (9, 0) }), 9, 0, by decide +kernel⟩⟩

/-- Values meet the hypotheses of clauses 1 to 6 of LinkTransmission. -/
theorem witness_LinkTransmission_1 :
    (∃ (s : State) (t : State) (n : Fin 10), s.mainUp = true ∧ (s.link n).state = 3 ∧ t = s.sendFlit n { type := 4, payload := s.trainPayload n }) ∧
    (∃ (s : State) (n : Fin 10), s.mainUp = true ∧ (s.link n).state = 5) ∧
    (∃ (s : State) (n : Fin 10), s.mainUp = true ∧ (s.link n).state = 0) ∧
    (∃ (s : State) (n : Fin 10), s.mainUp = true ∧ (s.link n).state = 4 ∧ (s.link n).withheld = 0 ∧ s.creditStall (s.link n) = false ∧ (s.link n).nakDue
      = true) ∧
    (∃ (s : State) (t : State) (n : Fin 10) (q : Nat) (h : SentFlit), s.mainUp = true ∧ (s.link n).state = 4 ∧ (s.link n).withheld = 0 ∧ s.creditStall (s.link n) = false ∧ (s.link n).nakDue
      = false ∧ (s.link n).replay = some q ∧ (s.link n).held.find? (·.seq == q) = some h ∧ t = s.setLink n { s.link n with held := (s.link n).held.map (fun x => if x.seq = h.seq then { x with resent := true, at_ := s.time.ft } else x), replay := if (s.link n).held.any (·.seq == (h.seq + 1) % 4096) then some ((h.seq + 1) % 4096) else none }) ∧
    (∃ (s : State) (n : Fin 10), s.mainUp = true ∧ (s.link n).state = 4 ∧ (s.link n).withheld = 0 ∧ s.creditStall (s.link n) = false ∧ (s.link n).nakDue
      = false ∧ (s.link n).replay = none ∧ s.readyVcs (s.link n) = []) :=
  ⟨⟨(linked 3 { state := 3 }), ((linked 3 { state := 3 }).sendFlit 3 { type := 4, payload := (linked 3 { state := 3 }).trainPayload 3 }), 3, by decide +kernel⟩,
   ⟨(linked 3 { state := 5, cause := 6 }), 3, by decide +kernel⟩,
   ⟨up, 9, by decide +kernel⟩,
   ⟨(linked 9 { state := 4, nakDue := true, expect := 7 }), 9, by decide +kernel⟩,
   ⟨(linked 0 { state := 4, replay := some 5, held := [heldFlit] }), (linked 0 { state := 4, held := [{ heldFlit with resent := true }] }), 0, 5, heldFlit, by decide +kernel⟩,
   ⟨(linked 9 { state := 4 }), 9, by decide +kernel⟩⟩

/-- Values meet the hypotheses of clauses 7 to 9 of LinkTransmission. -/
theorem witness_LinkTransmission_2 :
    (∃ (s : State) (t : State) (n : Fin 10) (v : Nat) (m : Nat) (b : Bool) (l : Link) (p : List Byte) (e : List Txn), s.mainUp = true ∧ (s.link n).state = 4 ∧ (s.link n).withheld = 0 ∧ s.creditStall (s.link n) = false ∧ (s.link n).nakDue
      = false ∧ (s.link n).replay = none ∧ s.readyVcs (s.link n) = [v] ∧ v ≠ 3 ∧ (s.fill v 15 { link := s.link n }).link
      = l ∧ (s.fill v 15 { link := s.link n }).payload = p ∧ (s.fill v 15 { link := s.link n }).bad = b ∧ (s.fill v 15 { link := s.link n }).sync
      = none ∧ (s.fill v 15 { link := s.link n }).ended = e ∧ m = p.length / 16 ∧ t = s.setLink n { l with held := l.held ++ [{ seq := (s.link n).txNext, vc := v, units := m, bad := b, payload := p, at_ := s.time.ft }], txNext := ((s.link n).txNext + 1) % 4096 }) ∧
    (∃ (s : State) (t : State) (n : Fin 10) (h : SentFlit) (l : List SentFlit), s.mainUp = true ∧ (s.link n).state = 4 ∧ (s.link n).held = h :: l ∧ (s.link n).replays < s.replayMax n ∧ t = s.runTo
      (h.at_ + s.replayNs n * unitsPerNs)) ∧
    (∃ (s : State) (n : Fin 10) (h : SentFlit) (l : List SentFlit), s.mainUp = true ∧ (s.link n).state = 4 ∧ (s.link n).held = h :: l ∧ s.replayMax n ≤ (s.link n).replays) :=
  ⟨⟨(linked 0 { state := 4, partner := [(1, 64)], txq := [{ vc := 1, data := List.replicate 16 1 }] }), (linked 0 { state := 4, partner := [(1, 64)], consumed := [(1, 1)], held := [{ seq := 0, vc := 1, units := 1, bad := false, payload := List.replicate 16 1, at_ := 0 }], txNext := 1 }), 0, 1, 1, false, ({ state := 4, partner := [(1, 64)], consumed := [(1, 1)] }), (List.replicate 16 1), ([{ vc := 1, data := List.replicate 16 1, sent := 1 }]), by decide +kernel⟩,
   ⟨(linked 9 { state := 4, held := [heldFlit] }), ((linked 9 { state := 4, held := [heldFlit] }).runTo (2000 * unitsPerNs)), 9, heldFlit, [], by decide +kernel⟩,
   ⟨(linked 9 { state := 4, held := [heldFlit], replays := 4 }), 9, heldFlit, [], by decide +kernel⟩⟩

/-- Values meet the hypotheses of clauses 1 to 6 of LinkReception. -/
theorem witness_LinkReception_1 :
    (∃ (s : State) (t : State) (n : Fin 10) (bs : List Byte) (x : Link), s.mainUp = true ∧ s.flitIn4 t n bs 1 ∧ (flitOf bs).seq = (t.link n).expect ∧ takeUnits (8 ≤ n.val) (flitOf bs).vc
      (flitOf bs).bad 16 ((flitOf bs).payload.take (16 * (flitOf bs).units)) (t.link n) = some x) ∧
    (∃ (s : State) (t : State) (n : Fin 10) (bs : List Byte), s.mainUp = true ∧ s.flitIn4 t n bs 1 ∧ before12 (flitOf bs).seq (t.link n).expect = true) ∧
    (∃ (s : State) (t : State) (n : Fin 10) (bs : List Byte), s.mainUp = true ∧ s.flitIn4 t n bs 1 ∧ (flitOf bs).seq ≠ (t.link n).expect ∧ before12 (flitOf bs).seq (t.link n).expect
      = false ∧ (t.link n).nakSent = false) ∧
    (∃ (s : State) (n : Fin 10) (bs : List Byte), s.mainUp = true ∧ (s.link n).state = 4 ∧ flitGood bs true = false ∧ (s.link n).fecBad.length ≤ 16) ∧
    (∃ (s : State) (t : State) (n : Fin 10) (bs : List Byte), s.mainUp = true ∧ s.flitIn4 t n bs 2) ∧
    (∃ (s : State) (t : State) (n : Fin 10) (bs : List Byte), s.mainUp = true ∧ s.flitIn4 t n bs 3 ∧ (t.link n).held.any (·.seq == (flitOf bs).seq) = true ∧ (t.link n).replay = none
      ∧ (t.link n).replays < t.replayMax n) :=
  ⟨⟨(linked 0 { state := 4 }), (((linked 0 { state := 4 }).lcnt 0 1).takeHeader 0 { type := 1, vc := 3, units := 1 }), 0, (flitBytes { type := 1, vc := 3, units := 1, payload := [0x31, 4] }), ({ (((linked 0 { state := 4 }).lcnt 0 1).takeHeader 0 { type := 1 }).link 0 with rxNext := 1, rxUsed := [(3, 1)], rxq := [(0, { vc := 3, data := [0x31, 4] ++ leBytes 14 0 })] }), by decide +kernel⟩,
   ⟨(linked 0 { state := 4, expect := 2 }), (((linked 0 { state := 4, expect := 2 }).lcnt 0 1).takeHeader 0 { type := 1, vc := 3, units := 1 }), 0, (flitBytes { type := 1, vc := 3, units := 1, payload := [0x31, 4] }), by decide +kernel⟩,
   ⟨(linked 0 { state := 4 }), (((linked 0 { state := 4 }).lcnt 0 1).takeHeader 0 { type := 1, vc := 3, units := 1 }), 0, (flitBytes { type := 1, vc := 3, units := 1, seq := 1, payload := [0x31, 4] }), by decide +kernel⟩,
   ⟨(linked 0 { state := 4 }), 0, (List.replicate 256 0), by decide +kernel⟩,
   ⟨(linked 0 { state := 4 }), (((linked 0 { state := 4 }).lcnt 0 1).takeHeader 0 { type := 2, cr := 9 }), 0, (flitBytes { type := 2, cr := 9 }), by decide +kernel⟩,
   ⟨(linked 0 { state := 4, held := [heldFlit] }), (((linked 0 { state := 4, held := [heldFlit] }).lcnt 0 1).takeHeader 0 { type := 3 }), 0, (flitBytes { type := 3, seq := 5 }), by decide +kernel⟩⟩

/-- Values meet the hypotheses of clauses 7 to 11 of LinkReception. -/
theorem witness_LinkReception_2 :
    (∃ (s : State) (t : State) (n : Fin 10) (bs : List Byte), s.mainUp = true ∧ s.flitIn4 t n bs 3 ∧ (t.link n).held.any (·.seq == (flitOf bs).seq) = false) ∧
    (∃ (s : State) (n : Fin 10) (bs : List Byte), s.mainUp = true ∧ (s.link n).state = 4 ∧ flitGood bs true = true ∧ 1 ≤ (flitOf bs).type ∧ (flitOf bs).type ≤ 5 ∧
      flitIllegal bs = true) ∧
    (∃ (s : State) (t : State) (n : Fin 10) (bs : List Byte), s.mainUp = true ∧ s.flitIn4 t n bs 5) ∧
    (∃ (s : State) (t : State) (n : Fin 10) (bs : List Byte) (p : List Byte) (o : List Nat), s.mainUp = true ∧ n.val < 8 ∧ (s.link n).state = 3 ∧ flitGood bs true = true ∧ (flitOf bs).type = 4 ∧ p = (flitOf
      bs).payload ∧ fieldLE p 0 2 = 1 ∧ fieldLE p 2 1 = 1 ∧ o = trainOffers p ∧ offersOk o = true ∧ t = (s.lcnt n
      1).modLink n (fun l => { l with seen := true, seenRx := if bit (fieldLE p 3 1) 0 then l.seenRx + 1 else 0, offer := (o.zipIdx.map (fun p => (p.2, p.1))).filter (fun p => p.2 != 0) })) ∧
    (∃ (s : State) (t : State) (n : Fin 10) (bs : List Byte) (p : List Byte), s.mainUp = true ∧ n.val < 8 ∧ (s.link n).state = 3 ∧ (s.link n).refusedEv = true ∧ flitGood bs true = true ∧ (flitOf
      bs).type = 4 ∧ p = (flitOf bs).payload ∧ fieldLE p 0 2 ≠ 1 ∧ offersOk (trainOffers p) = true ∧ t = (s.lcnt n
      1).modLink n (fun l => { l with seenRx := 0 })) :=
  ⟨⟨(linked 0 { state := 4 }), (((linked 0 { state := 4 }).lcnt 0 1).takeHeader 0 { type := 3 }), 0, (flitBytes { type := 3, seq := 5 }), by decide +kernel⟩,
   ⟨(linked 0 { state := 4 }), 0, (flitBytes { type := 2, units := 3 }), by decide +kernel⟩,
   ⟨(linked 0 { state := 4 }), (((linked 0 { state := 4 }).lcnt 0 1).takeHeader 0 { type := 5 }), 0, (flitBytes { type := 5, payload := [6] }), by decide +kernel⟩,
   ⟨(linked 0 { state := 3 }), (((linked 0 { state := 3 }).lcnt 0 1).modLink 0 (fun l => { l with seen := true, offer := [(0, 64), (1, 64), (2, 64), (3, 64)] })), 0, (flitBytes { type := 4, payload := trainBytes 1 1 }), (trainBytes 1 1 ++ List.replicate 216 0), ([64, 64, 64, 64]), by decide +kernel⟩,
   ⟨(linked 0 { state := 3, refusedEv := true }), (((linked 0 { state := 3, refusedEv := true }).lcnt 0 1).modLink 0 (fun l => { l with seenRx := 0 })), 0, (flitBytes { type := 4, payload := trainBytes 2 1 }), (trainBytes 2 1 ++ List.replicate 216 0), by decide +kernel⟩⟩

/-- Values meet the hypotheses of clauses 1 to 6 of LinkStates. -/
theorem witness_LinkStates_1 :
    (∃ (s : State) (n : Fin 10), s.mainUp = true ∧ (s.link n).state = 1 ∧ s.anyShut n = false) ∧
    (∃ (s : State) (n : Fin 10), s.mainUp = true ∧ s.anyShut n = true) ∧
    (∃ (s : State) (t : State) (n : Fin 10) (i : Fin 256), s.mainUp = true ∧ (s.link n).state = 2 ∧ n.val < 8 ∧ t = (s.modLink n (fun l => { l with seen := false, seenSent := 0, seenRx := 0, refusedEv := false })).setLinkState
      n 3) ∧
    (∃ (s : State) (t : State) (n : Fin 10) (i : Fin 256), s.mainUp = true ∧ (s.link n).state = 2 ∧ 8 ≤ n.val ∧ t = (s.modLink n (fun l => { l with seen := false, seenSent := 0, seenRx := 0, refusedEv := false })).setLinkState
      n 3) ∧
    (∃ (s : State) (n : Fin 10), s.mainUp = true ∧ (s.link n).state = 2) ∧
    (∃ (s : State) (n : Fin 10), s.mainUp = true ∧ (s.link n).state = 3) :=
  ⟨⟨(linked 4 { state := 1 }), 4, by decide +kernel⟩,
   ⟨((linked 4 { state := 1 }).wr R.WLK_LANE_STATUS_shut 1 4 2), 4, by decide +kernel⟩,
   ⟨(linked 4 { state := 2 }), ((linked 4 { state := 2 }).setLinkState 4 3), 4, 9, by decide +kernel⟩,
   ⟨(linked 8 { state := 2 }), ((linked 8 { state := 2 }).setLinkState 8 3), 8, 9, by decide +kernel⟩,
   ⟨(linked 4 { state := 2 }), 4, by decide +kernel⟩,
   ⟨(linked 4 { state := 3 }), 4, by decide +kernel⟩⟩

/-- Values meet the hypotheses of clauses 7 to 10 of LinkStates. -/
theorem witness_LinkStates_2 :
    (∃ (s : State) (t : State) (n : Fin 10) (c : Fin 8), s.mainUp = true ∧ 8 ≤ n.val ∧ c.val ≠ 0 ∧ (s.link n).state = 4 ∧ (s.link n).held = [] ∧ (s.link n).txq = [] ∧ (s.link
      n).part = [] ∧ t = ((s.setLink n { s.link n with held := [], replay := none, consumed := [], partner := [], returned := [], rxUsed := [], withheld := 0, offer := [], txq := [], cause := c }).setLinkState
      n 5).setLaneStates n 1) ∧
    (∃ (s : State) (n : Fin 10) (c : Fin 8), s.mainUp = true ∧ c.val ≠ 0 ∧ (s.link n).state = 5) ∧
    (∃ (s : State) (n : Fin 10), s.mainUp = true ∧ (s.link n).state = 5 ∧ (s.link n).cause ≠ 7 ∧ s.linkEnabled n = true) ∧
    (∃ (s : State) (n : Fin 10), s.mainUp = true ∧ (s.link n).state = 5 ∧ s.linkEnabled n = false) :=
  ⟨⟨(linked 8 { state := 4 }), (((linked 8 { state := 4, cause := 2 }).setLinkState 8 5).setLaneStates 8 1), 8, 2, by decide +kernel⟩,
   ⟨(linked 4 { state := 5 }), 4, 2, by decide +kernel⟩,
   ⟨(((linked 8 { state := 5, cause := 2 }).acw R.PAR_CFG_enable 1).wr R.SEC_BOOT_STATUS_cuff_open 1), 8, by decide +kernel⟩,
   ⟨(linked 8 { state := 5, cause := 2 }), 8, by decide +kernel⟩⟩

/-- Values meet the hypotheses of clauses 1 to 6 of ModuleTransactions. -/
theorem witness_ModuleTransactions_1 :
    (∃ (s : State) (n : Fin 8) (e : Nat × Txn), s.mainUp = true ∧ s.nextTxn n 1 = some e ∧ s.sockGate n = 0 ∧ s.meterHolds n 0 = false ∧ ((((s.meterCharge n 0
      e.2.total).tskCnt n 0).leaveRx n e)).on R.TSK_BYPASS_en n = false) ∧
    (∃ (s : State) (n : Fin 8) (e : Nat × Txn), s.mainUp = true ∧ s.nextTxn n 1 = some e ∧ s.standby n = false ∧ s.sockGate n ≠ 0) ∧
    (∃ (s : State) (n : Fin 8) (e : Nat × Txn) (x : Nat) (a : Nat), s.mainUp = true ∧ s.nextTxn n 0x10 = some e ∧ s.sockGate n = 0 ∧ s.meterHolds n 1 = false ∧ (s.modTarget n e.2.arg
      e.2.len true).map (fun g => (g.slice, g.hbm, g.addr)) = some (x, true, a)) ∧
    (∃ (s : State) (n : Fin 8) (e : Nat × Txn), s.mainUp = true ∧ s.nextTxn n 0x10 = some e ∧ s.sockGate n = 0 ∧ s.meterHolds n 1 = false ∧ (s.modTarget n e.2.arg
      e.2.len true).isNone = true) ∧
    (∃ (s : State) (t : State) (n : Fin 8) (e : Nat × Txn) (x : Nat) (a : Nat), s.mainUp = true ∧ s.nextTxn n 0x20 none true = some e ∧ (s.sock n).modRd.contains e.2.tag = false ∧ (s.sock
      n).modRd.length < max 1 (s.rd R.TSK_CFG_max_rd n) ∧ s.sockGate n = 0 ∧ s.meterHolds n 2 = false ∧ (s.modTarget n
      e.2.arg e.2.len false).map (fun g => (g.slice, g.hbm, g.addr)) = some (x, true, a) ∧ t = (((s.tskCnt n 3).setSock
      n { s.sock n with modRd := (s.sock n).modRd ++ [e.2.tag] }).leaveRx n e).meterCharge n 2 (1 + (e.2.len + 15) / 16)
      ∧ (t.hbmRead a e.2.len).status ≠ St.mem_range) ∧
    (∃ (s : State) (n : Fin 8) (e : Nat × Txn), s.mainUp = true ∧ s.nextTxn n 0x20 none true = some e ∧ (s.sock n).modRd.contains e.2.tag = true) :=
  ⟨⟨(fromMod socketUp (txn 0 1 0 0 0 (List.replicate 60 7))), 0, ((0, txn 0 1 0 0 0 (List.replicate 60 7))), by decide +kernel⟩,
   ⟨((fromMod socketUp (txn 0 1 0 0 0 (List.replicate 60 7))).wr R.SLC_STATE_state 2 0), 0, ((0, txn 0 1 0 0 0 (List.replicate 60 7))), by decide +kernel⟩,
   ⟨(fromMod windowed (txn 1 0x10 0 0 8 [1, 2, 3])), 0, ((0, txn 1 0x10 0 0 8 [1, 2, 3])), 0, 8, by decide +kernel⟩,
   ⟨(fromMod socketUp (txn 1 0x10 0 0 8 [1, 2, 3])), 0, ((0, txn 1 0x10 0 0 8 [1, 2, 3])), by decide +kernel⟩,
   ⟨(fromMod windowed (txn 2 0x20 0 5 8 [] 4)), ((((fromMod windowed (txn 2 0x20 0 5 8 [] 4)).tskCnt 0 3).setSock 0 { modRd := [5] }).leaveRx 0 (0, txn 2 0x20 0 5 8 [] 4)), 0, ((0, txn 2 0x20 0 5 8 [] 4)), 0, 8, by decide +kernel⟩,
   ⟨(fromMod (sockIs 3 { modRd := [5] }) (txn 2 0x20 0 5 8 [] 4)), 0, ((0, txn 2 0x20 0 5 8 [] 4)), by decide +kernel⟩⟩

/-- Values meet the hypotheses of clauses 7 to 12 of ModuleTransactions. -/
theorem witness_ModuleTransactions_2 :
    (∃ (s : State) (t : State) (u : State) (n : Fin 8) (e : Nat × Txn) (x : Ring), s.mainUp = true ∧ s.nextTxn n 0x11 none true = some e ∧ t = s.leaveRx n e ∧ t.sockGate n = 0 ∧ t.meterHolds n 3 = false
      ∧ u = t.meterCharge n 3 1 ∧ u.ring e.2.tag = some x ∧ u.sockSlice n = some x.slice) ∧
    (∃ (s : State) (t : State) (u : State) (n : Fin 8) (e : Nat × Txn), s.mainUp = true ∧ s.nextTxn n 0x11 none true = some e ∧ t = s.leaveRx n e ∧ t.sockGate n = 0 ∧ t.meterHolds n 3 = false
      ∧ u = t.meterCharge n 3 1 ∧ u.ring e.2.tag = none) ∧
    (∃ (s : State) (t : State) (u : State) (n : Fin 8) (e : Nat × Txn) (x : Nat) (f : Nat) (v : Nat), s.mainUp = true ∧ s.nextTxn n 0x12 none true = some e ∧ t = s.leaveRx n e ∧ t.sockGate n = 0 ∧ t.meterHolds n 3 = false
      ∧ u = t.meterCharge n 3 1 ∧ u.sockSlice n = some x ∧ u.sliceFn x = some f ∧ v = t.rd R.TSK_INTR_CFG_base n +
      e.2.tag ∧ e.2.tag < u.rd R.TSK_INTR_CFG_count n ∧ v < u.msixCount f) ∧
    (∃ (s : State) (t : State) (n : Fin 8) (e : Nat × Txn) (v : Nat) (x : Vol) (c : StqCmd), s.mainUp = true ∧ s.nextTxn n 0x14 none true = some e ∧ s.sockGate n = 0 ∧ s.meterHolds n 1 = false ∧ t = (s.meterCharge
      n 1 1).leaveRx n e ∧ t.slotCmd n e.2.tag = some (v, x, c)) ∧
    (∃ (s : State) (t : State) (n : Fin 8) (e : Nat × Txn) (r : SockRd), s.mainUp = true ∧ s.nextTxn n 0x30 = some e ∧ t = s.leaveRx n e ∧ (t.sock n).rds.find? (·.tag == e.2.tag) = some r ∧
      t.time.ft < r.issued + t.rdTimeout n ∧ e.2.status = 0 ∧ e.2.len = r.len) ∧
    (∃ (s : State) (t : State) (n : Fin 8) (e : Nat × Txn), s.mainUp = true ∧ s.nextTxn n 0x30 = some e ∧ t = s.leaveRx n e ∧ (t.sock n).rds.find? (·.tag == e.2.tag) = none) :=
  ⟨⟨(fromMod (socketUp.setRing 9 (aRing 0)) (txn 1 0x11 0 9 2)), ((fromMod (socketUp.setRing 9 (aRing 0)) (txn 1 0x11 0 9 2)).leaveRx 0 (0, txn 1 0x11 0 9 2)), ((fromMod (socketUp.setRing 9 (aRing 0)) (txn 1 0x11 0 9 2)).leaveRx 0 (0, txn 1 0x11 0 9 2)), 0, ((0, txn 1 0x11 0 9 2)), (aRing 0), by decide +kernel⟩,
   ⟨(fromMod socketUp (txn 1 0x11 0 9 2)), ((fromMod socketUp (txn 1 0x11 0 9 2)).leaveRx 0 (0, txn 1 0x11 0 9 2)), ((fromMod socketUp (txn 1 0x11 0 9 2)).leaveRx 0 (0, txn 1 0x11 0 9 2)), 0, ((0, txn 1 0x11 0 9 2)), by decide +kernel⟩,
   ⟨intrUp, (intrUp.leaveRx 0 (0, txn 1 0x12 0 0 0)), (intrUp.leaveRx 0 (0, txn 1 0x12 0 0 0)), 0, ((0, txn 1 0x12 0 0 0)), 0, 0, 0, by decide +kernel⟩,
   ⟨(fromMod (stq 1 busyVol (oneBlock 0x30)) (txn 1 0x14 0 0 0)), ((fromMod (stq 1 busyVol (oneBlock 0x30)) (txn 1 0x14 0 0 0)).leaveRx 0 (0, txn 1 0x14 0 0 0)), 0, ((0, txn 1 0x14 0 0 0)), 7, busyVol, ({ slot := 0, ring := 9, count := 0, issued := 0 }), by decide +kernel⟩,
   ⟨(fromMod (sockIs 3 { rds := [aRead] }) (txn 3 0x30 0 5 0 [1, 2, 3, 4])), ((fromMod (sockIs 3 { rds := [aRead] }) (txn 3 0x30 0 5 0 [1, 2, 3, 4])).leaveRx 0 (0, txn 3 0x30 0 5 0 [1, 2, 3, 4])), 0, ((0, txn 3 0x30 0 5 0 [1, 2, 3, 4])), aRead, by decide +kernel⟩,
   ⟨(fromMod socketUp (txn 3 0x30 0 5 0 [1, 2, 3, 4])), ((fromMod socketUp (txn 3 0x30 0 5 0 [1, 2, 3, 4])).leaveRx 0 (0, txn 3 0x30 0 5 0 [1, 2, 3, 4])), 0, ((0, txn 3 0x30 0 5 0 [1, 2, 3, 4])), by decide +kernel⟩⟩

/-- Values meet the hypotheses of clauses 13 to 16 of ModuleTransactions. -/
theorem witness_ModuleTransactions_3 :
    (∃ (s : State) (n : Fin 8) (g : Fin 4096) (r : SockRd), s.mainUp = true ∧ (s.sock n).rds.find? (·.tag == g.val) = some r) ∧
    (∃ (s : State) (t : State) (n : Fin 8) (e : Nat × Txn) (a : Nat × Nat), s.mainUp = true ∧ s.nextTxn n 0x31 (some 0x80) = some e ∧ t = s.leaveRx n e ∧ (t.sock n).acks.find? (·.1 == e.2.tag) =
      some a ∧ a.2 ≠ 2) ∧
    (∃ (s : State) (t : State) (n : Fin 8) (e : Nat × Txn) (x : Nat), s.mainUp = true ∧ s.nextTxn n 0x31 (some 4) = some e ∧ t = s.leaveRx n e ∧ t.meterHolds n 3 = false ∧ (t.meterCharge n 3
      1).sockSlice n = some x) ∧
    (∃ (s : State) (n : Fin 8), s.mainUp = true ∧ s.meterHolds n 0 = true) :=
  ⟨⟨(sockIs 3 { rds := [aRead] }), 0, 5, aRead, by decide +kernel⟩,
   ⟨(fromMod (sockIs 4 { acks := [(5, 3)] }) (txn 3 0x31 0x80 5 0)), ((fromMod (sockIs 4 { acks := [(5, 3)] }) (txn 3 0x31 0x80 5 0)).leaveRx 0 (0, txn 3 0x31 0x80 5 0)), 0, ((0, txn 3 0x31 0x80 5 0)), ((5, 3)), by decide +kernel⟩,
   ⟨(fromMod socketUp (txn 3 0x31 4 5 9)), ((fromMod socketUp (txn 3 0x31 4 5 9)).leaveRx 0 (0, txn 3 0x31 4 5 9)), 0, ((0, txn 3 0x31 4 5 9)), 0, by decide +kernel⟩,
   ⟨(((fromMod socketUp (txn 0 1 0 0 0 (List.replicate 60 7))).acw hdrPreset 1 (tskBase 0)).setMeter 0 0 (-1)), 0, by decide +kernel⟩⟩

/-- Values meet the hypotheses of clauses 1 to 6 of SocketReadsAndTime. -/
theorem witness_SocketReadsAndTime_1 :
    (∃ (s : State) (hif : Fin 2) (pf : Fin 8) (off : Nat) (len : Nat) (n : Nat) (a : Nat) (x : Nat), s.mainUp = true ∧ off < 2 ^ 36 ∧ len ≤ 4096 ∧ s.fnReady (8 * hif + pf) = true ∧ s.rd R.HIF_PF_CFG_bar4_en ((8 * hif +
      pf) / 8) ((8 * hif + pf) % 8) ≠ 0 ∧ (s.func (8 * hif + pf)).memEn = true ∧ s.fnD3 (8 * hif + pf) = false ∧
      (List.range 8).findSome? (fun n => (s.h2s n (8 * hif + pf) off len false).map (fun a => (n, a))) = some (n, a) ∧
      s.sockSlice n = some x ∧ s.sliceState x = 1 ∧ s.modStatus n = 0) ∧
    (∃ (s : State) (hif : Fin 2) (pf : Fin 8) (off : Nat) (len : Nat) (n : Nat) (a : Nat) (x : Nat) (bs : List Byte), s.mainUp = true ∧ off < 2 ^ 36 ∧ s.fnReady (8 * hif + pf) = true ∧ s.rd R.HIF_PF_CFG_bar4_en ((8 * hif + pf) / 8) ((8 *
      hif + pf) % 8) ≠ 0 ∧ (s.func (8 * hif + pf)).memEn = true ∧ s.fnD3 (8 * hif + pf) = false ∧ (List.range
      8).findSome? (fun n => (s.h2s n (8 * hif + pf) off bs.length true).map (fun a => (n, a))) = some (n, a) ∧
      s.sockSlice n = some x ∧ s.sliceState x = 1 ∧ s.modStatus n = 0) ∧
    (∃ (s : State) (hif : Fin 2) (pf : Fin 8) (off : Nat) (len : Nat) (n : Nat), s.mainUp = true ∧ off < 2 ^ 36 ∧ len ≤ 4096 ∧ s.fnReady (8 * hif + pf) = true ∧ s.rd R.HIF_PF_CFG_bar4_en ((8 * hif +
      pf) / 8) ((8 * hif + pf) % 8) ≠ 0 ∧ (s.func (8 * hif + pf)).memEn = true ∧ s.fnD3 (8 * hif + pf) = false ∧
      (List.range 8).findSome? (fun n => (s.h2s n (8 * hif + pf) off len false).map (fun a => (n, a))) = none ∧
      s.fnSocket (8 * hif + pf) = some n) ∧
    (∃ (s : State) (t : State) (req : Req) (n : Fin 8), s.takes req 0x0E n R.reg_TSK_WIN_COMMIT n ∧ s.winCheck n = 0 ∧ s.armed (29 + n) = false ∧ t = (List.range 16).foldl (fun
      (s : State) (w : Nat) => winFields.foldl (fun (s : State) (p : Fld × Fld) => s.wr p.2 (s.rd p.1 n w) n w) s) s) ∧
    (∃ (s : State) (req : Req) (n : Fin 8), s.takes req 0x0E n R.reg_TSK_WIN_COMMIT n ∧ s.winCheck n ≠ 0) ∧
    (∃ (s : State) (n : Fin 8), s.mainUp = true ∧ s.on R.TSK_WIN_STATUS_busy n = true ∧ s.oldInflight n = 0) :=
  ⟨⟨(bar4Up windowed), 0, 0, 8, 4, 0, 8, 0, by decide +kernel⟩,
   ⟨(bar4Up windowed), 0, 0, 8, 0, 0, 8, 0, ([1, 2, 3, 4]), by decide +kernel⟩,
   ⟨(bar4Up windowed), 0, 0, 8192, 4, 0, by decide +kernel⟩,
   ⟨(((up.wr R.TSK_H2S_BASE_en 1 3 5).wr R.TSK_H2S_SIZE_size 1 3 5)), ((List.range 16).foldl (fun (s : State) (w : Nat) => winFields.foldl (fun (s : State) (p : Fld × Fld) => s.wr p.2 (s.rd p.1 3 w) 3 w) s) (((up.wr R.TSK_H2S_BASE_en 1 3 5).wr R.TSK_H2S_SIZE_size 1 3 5))), .host, 3, by decide +kernel⟩,
   ⟨(up.wr R.TSK_H2S_BASE_en 1 3 5), .host, 3, by decide +kernel⟩,
   ⟨(up.wr R.TSK_WIN_STATUS_busy 1 4), 4, by decide +kernel⟩⟩

/-- Values meet the hypotheses of clauses 7 to 11 of SocketReadsAndTime. -/
theorem witness_SocketReadsAndTime_2 :
    (∃ (s : State) (t : State) (r : Fin 65536) (x : Ring) (g : Flight) (bs : List Byte), s.mainUp = true ∧ s.ring r = some x ∧ s.toPerform r [0x50] = some g ∧ copyOk g.desc = true ∧ s.readFor (.work r g.count)
      g.slice true (fieldLE g.desc 0x10 8) (fieldLE g.desc 0x20 4) = (.ok bs, t) ∧ s.copyStatus x = 0) ∧
    (∃ (s : State) (t : State) (r : Fin 65536) (x : Ring) (g : Flight) (n : Nat), s.mainUp = true ∧ s.ring r = some x ∧ s.toPerform r [0x51] = some g ∧ copyOk g.desc = true ∧ s.claimHbm g.slice (fieldLE
      g.desc 0x10 8) (fieldLE g.desc 0x20 4) = some t ∧ s.copyStatus x = 0 ∧ n = s.rd R.SLC_BIND_socket x.slice) ∧
    (∃ (s : State) (t : State) (n : Fin 8), s.mainUp = true ∧ s.rd R.TSK_CFG_sync_us n ≠ 0 ∧ (s.link n).state = 4 ∧ t = s.runTo (max (s.sock n).syncAt (s.link
      n).since + s.rd R.TSK_CFG_sync_us n * unitsPerUs)) ∧
    (∃ (s : State) (n : Fin 8) (i : Nat) (a : Nat) (b : Bool), s.mainUp = true ∧ (s.sock n).syncDue = some (i, a, b)) ∧
    (∃ (s : State) (t : State) (n : Fin 8) (e : Nat × Txn), s.mainUp = true ∧ s.nextTxn n 0x34 = some e ∧ t = s.leaveRx n e ∧ (t.sock n).dreqAt = none) :=
  ⟨⟨(socketUp.setRing 9 (flying 6 (desc 0x50 (leBytes 16 0 ++ [4])))), (((socketUp.setRing 9 (flying 6 (desc 0x50 (leBytes 16 0 ++ [4])))).readFor (.work 9 0) 0 true 0 4).2), 9, (flying 6 (desc 0x50 (leBytes 16 0 ++ [4]))), (aFlight (desc 0x50 (leBytes 16 0 ++ [4]))), ([0, 0, 0, 0]), by decide +kernel⟩,
   ⟨(socketUp.setRing 9 (flying 6 (desc 0x51 (leBytes 16 0 ++ [4])))), (socketUp.setRing 9 (flying 6 (desc 0x51 (leBytes 16 0 ++ [4])))), 9, (flying 6 (desc 0x51 (leBytes 16 0 ++ [4]))), (aFlight (desc 0x51 (leBytes 16 0 ++ [4]))), 0, by decide +kernel⟩,
   ⟨(socketUp.wr R.TSK_CFG_sync_us 9 0), ((socketUp.wr R.TSK_CFG_sync_us 9 0).runTo (9 * unitsPerUs)), 0, by decide +kernel⟩,
   ⟨(sockIs 3 { syncDue := some (1, 2, true) }), 0, 1, 2, true, by decide +kernel⟩,
   ⟨(fromMod socketUp (txn 3 0x34 0 5 0)), ((fromMod socketUp (txn 3 0x34 0 5 0)).leaveRx 0 (0, txn 3 0x34 0 5 0)), 0, ((0, txn 3 0x34 0 5 0)), by decide +kernel⟩⟩

/-- Values meet the hypotheses of clauses 1 to 6 of ModulePower. -/
theorem witness_ModulePower_1 :
    (∃ (s : State) (t : State) (n : Fin 8), s.mainUp = true ∧ s.rd R.TSK_STATUS_prsnt n ≠ 1 ∧ t = (s.wr R.TSK_STATUS_prsnt 1 n).tskEvent n 1 [] ∧ t.on
      R.TSK_CFG_auto_power n = false) ∧
    (∃ (s : State) (n : Fin 8), s.mainUp = true ∧ s.rd R.TSK_STATUS_prsnt n = 0) ∧
    (∃ (s : State) (req : Req) (n : Fin 8), s.takes req 0x0E n R.reg_TSK_PWR_CTRL n ∧ s.sockPwr n = 0 ∧ s.rd R.TSK_STATUS_prsnt n = 1 ∧ s.cuffOpen = true ∧
      s.pwrFaults n = false ∧ s.fencedUnit 3 n = false) ∧
    (∃ (s : State) (req : Req) (n : Fin 8), s.takes req 0x0E n R.reg_TSK_PWR_CTRL n ∧ s.sockPwr n ≠ 0 ∨ s.rd R.TSK_STATUS_prsnt n ≠ 1 ∨ s.cuffOpen = false ∨
      s.pwrFaults n = true) ∧
    (∃ (s : State) (t : State) (req : Req) (n : Fin 8), s.takes req 0x0E n R.reg_TSK_PWR_CTRL n ∧ s.sockPwr n = 3 ∧ t = (s.wr R.TSK_STATUS_pwr 4 n).setSock n { s.sock n with since := s.time.ft, quiesced := false }
      ∧ s.volsOf 2 n = []) ∧
    (∃ (s : State) (t : State) (n : Fin 8), s.mainUp = true ∧ t = (s.raise R.TSK_STATUS_attn_pressed n).tskEvent n 6 [] ∧ t.on R.TSK_CFG_attn_auto n = false) :=
  ⟨⟨(up.wr R.TSK_CFG_auto_power 0 4), ((((up.wr R.TSK_CFG_auto_power 0 4).wr R.TSK_STATUS_prsnt 1 4).tskEvent 4 1 [])), 4, by decide +kernel⟩,
   ⟨up, 4, by decide +kernel⟩,
   ⟨((up.wr R.TSK_STATUS_prsnt 1 4).wr R.SEC_BOOT_STATUS_cuff_open 1), .host, 4, by decide +kernel⟩,
   ⟨up, .host, 4, by decide +kernel⟩,
   ⟨(sockIs 3 {}), ((sockIs 3 {}).wr R.TSK_STATUS_pwr 4 0), .host, 0, by decide +kernel⟩,
   ⟨(up.wr R.TSK_CFG_attn_auto 0 4), (((up.wr R.TSK_CFG_attn_auto 0 4).raise R.TSK_STATUS_attn_pressed 4).tskEvent 4 6 []), 4, by decide +kernel⟩⟩

/-- Values meet the hypotheses of clauses 7 to 12 of ModulePower. -/
theorem witness_ModulePower_2 :
    (∃ (s : State) (n : Fin 8), s.mainUp = true ∧ s.sockPwr n = 1) ∧
    (∃ (s : State) (t : State) (n : Fin 8), s.mainUp = true ∧ s.sockPwr n = 1 ∧ t = s.runTo ((s.sock n).since + max 1 (s.rd R.TSK_PWR_CFG_pg_timeout_ms n) *
      unitsPerMs)) ∧
    (∃ (s : State) (t : State) (n : Fin 8) (m : Nat), s.mainUp = true ∧ s.sockPwr n = 2 ∧ t = s.runTo ((s.sock n).since + max 1 (s.rd R.TSK_CFG_rst_delay_ms n) * unitsPerMs)) ∧
    (∃ (s : State) (n : Fin 8), s.mainUp = true ∧ s.sockPwr n = 4 ∧ (s.sock n).quiesced = true ∧ s.towardIdle n = true) ∧
    (∃ (s : State) (n : Fin 8) (b : Bool) (m : Nat), s.mainUp = true ∧ m ≤ max 100 (s.rd R.TSK_PWR_CFG_i_limit_ma n)) ∧
    (∃ (s : State) (t : State) (n : Fin 8) (m : Nat), s.mainUp = true ∧ max 100 (s.rd R.TSK_PWR_CFG_i_limit_ma n) < m ∧ t = (s.wr R.TSK_STATUS_i_ma (min m 0xFFFF) n).raise
      R.TSK_STATUS_flt_current n) :=
  ⟨⟨(sockIs 1 {}), 0, by decide +kernel⟩,
   ⟨(sockIs 1 {}), ((sockIs 1 {}).runTo ((sockIs 1 {}).rd R.TSK_PWR_CFG_pg_timeout_ms 0 * unitsPerMs)), 0, by decide +kernel⟩,
   ⟨(sockIs 2 {}), ((sockIs 2 {}).runTo ((sockIs 2 {}).rd R.TSK_CFG_rst_delay_ms 0 * unitsPerMs)), 0, 700, by decide +kernel⟩,
   ⟨(sockIs 4 { quiesced := true }), 0, by decide +kernel⟩,
   ⟨up, 4, true, 100, by decide +kernel⟩,
   ⟨(sockIs 3 {}), (((sockIs 3 {}).wr R.TSK_STATUS_i_ma 65535 0).raise R.TSK_STATUS_flt_current 0), 0, 70000, by decide +kernel⟩⟩

/-- Values meet the hypotheses of clauses 1 to 6 of ChannelInstructions. -/
theorem witness_ChannelInstructions_1 :
    (∃ (s : State) (h : Fin 1024) (rs1 : Fin 32), s.mainUp = true ∧ (s.hart h).state = 1 ∧ (s.hart h).out.length < 8) ∧
    (∃ (s : State) (h : Fin 1024) (rs1 : Fin 32), s.mainUp = true ∧ (s.hart h).state = 1 ∧ 8 ≤ (s.hart h).out.length) ∧
    (∃ (s : State) (h : Fin 1024) (rs1 : Fin 32) (rd : Fin 32) (a : Nat) (c : Nat) (ch : Nat), s.mainUp = true ∧ (s.hart h).state = 1 ∧ a = s.xr h rs1 ∧ a < 4096 ∧ c = a / 64 ∧ ch = a % 64 ∧ (s.hart h).out ≠ [] ∧
      s.dom c = s.dom (h / 16) ∧ s.chOn c ch = true ∧ s.fencedUnit 1 c = false ∧ s.chFull c ch = false) ∧
    (∃ (s : State) (h : Fin 1024) (rs1 : Fin 32) (rd : Fin 32) (a : Nat) (c : Nat) (ch : Nat), s.mainUp = true ∧ (s.hart h).state = 1 ∧ a = s.xr h rs1 ∧ a < 4096 ∧ c = a / 64 ∧ ch = a % 64 ∧ (s.hart h).out ≠ [] ∧
      s.dom c = s.dom (h / 16) ∧ s.chOn c ch = true ∧ s.fencedUnit 1 c = false ∧ s.chFull c ch = true) ∧
    (∃ (s : State) (h : Fin 1024) (rs1 : Fin 32) (rd : Fin 32) (a : Nat) (c : Nat) (ch : Nat), s.mainUp = true ∧ (s.hart h).state = 1 ∧ a = s.xr h rs1 ∧ a < 4096 ∧ c = a / 64 ∧ ch = a % 64 ∧ (s.hart h).out ≠ [] ∧
      s.dom c = s.dom (h / 16) ∧ s.chOn c ch = true ∧ s.fencedUnit 1 c = false ∧ s.chFull c ch = true) ∧
    (∃ (s : State) (h : Fin 1024) (rs1 : Fin 32) (rd : Fin 32) (a : Nat), s.mainUp = true ∧ (s.hart h).state = 1 ∧ a = s.xr h rs1 ∧ a < 4096 ∧ (s.hart h).out ≠ [] ∧ s.dom (a / 64) = s.dom (h /
      16) ∧ s.chOn (a / 64) (a % 64) = false) :=
  ⟨⟨(chanUp { out := [1], x := [(11, 9)] }), 3, 11, by decide +kernel⟩,
   ⟨(chanUp { out := [1, 2, 3, 4, 5, 6, 7, 8] }), 3, 11, by decide +kernel⟩,
   ⟨(chanUp { out := [7], x := [(11, 5)] }), 3, 11, 10, 5, 0, 5, by decide +kernel⟩,
   ⟨((chanUp { out := [7], x := [(11, 5)] }).setMsgs 0 5 [{ words := [1], sender := 2 }]), 3, 11, 10, 5, 0, 5, by decide +kernel⟩,
   ⟨((chanUp { out := [7], x := [(11, 5)] }).setMsgs 0 5 [{ words := [1], sender := 2 }]), 3, 11, 10, 5, 0, 5, by decide +kernel⟩,
   ⟨(chanUp { out := [7], x := [(11, 6)] }), 3, 11, 10, 6, by decide +kernel⟩⟩

/-- Values meet the hypotheses of clauses 7 to 12 of ChannelInstructions. -/
theorem witness_ChannelInstructions_2 :
    (∃ (s : State) (h : Fin 1024), s.mainUp = true ∧ (s.hart h).state = 1) ∧
    (∃ (s : State) (h : Fin 1024) (rs1 : Fin 32) (rd : Fin 32) (a : Nat) (m : Msg) (l : List Msg), s.mainUp = true ∧ (s.hart h).state = 1 ∧ a = s.xr h rs1 ∧ a < 64 ∧ s.ownsCh h a = true ∧ s.chOn (h / 16) a = true ∧
      s.chMsgs (h / 16) a = m :: l) ∧
    (∃ (s : State) (h : Fin 1024) (rs1 : Fin 32) (rd : Fin 32) (a : Nat), s.mainUp = true ∧ (s.hart h).state = 1 ∧ a = s.xr h rs1 ∧ a < 64 ∧ s.ownsCh h a = true ∧ s.chOn (h / 16) a = true ∧
      s.chMsgs (h / 16) a = []) ∧
    (∃ (s : State) (h : Fin 1024) (rs1 : Fin 32) (rd : Fin 32) (a : Nat), s.mainUp = true ∧ (s.hart h).state = 1 ∧ a = s.xr h rs1 ∧ a < 64 ∧ s.ownsCh h a = false) ∧
    (∃ (s : State) (h : Fin 1024) (rs1 : Fin 32) (rd : Fin 32) (a : Nat), s.mainUp = true ∧ (s.hart h).state = 1 ∧ a = s.xr h rs1 ∧ a < 64 ∧ s.ownsCh h a = true ∧ s.chOn (h / 16) a = true ∧
      s.chMsgs (h / 16) a = []) ∧
    (∃ (s : State) (h : Fin 1024) (i : Fin 8) (rd : Fin 32), s.mainUp = true ∧ (s.hart h).state = 1) :=
  ⟨⟨(chanUp { out := [7] }), 3, by decide +kernel⟩,
   ⟨((chanUp { x := [(11, 5)] }).setMsgs 0 5 [{ words := [1], sender := 2 }]), 3, 11, 10, 5, ({ words := [1], sender := 2 }), [], by decide +kernel⟩,
   ⟨(chanUp { x := [(11, 5)] }), 3, 11, 10, 5, by decide +kernel⟩,
   ⟨((chanUp { x := [(11, 5)] }).wr R.FCR_CH_CFG_owner 4 0 5), 3, 11, 10, 5, by decide +kernel⟩,
   ⟨(chanUp { x := [(11, 5)] }), 3, 11, 10, 5, by decide +kernel⟩,
   ⟨(chanUp { inbox := [1, 2] }), 3, 1, 10, by decide +kernel⟩⟩

/-- Values meet the hypotheses of clauses 13 to 18 of ChannelInstructions. -/
theorem witness_ChannelInstructions_3 :
    (∃ (s : State) (h : Fin 1024) (rs1 : Fin 32) (rs2 : Fin 32) (rd : Fin 32) (a : Nat) (i : Nat), s.mainUp = true ∧ (s.hart h).state = 1 ∧ a = s.xr h rs1 ∧ s.xr h rs2 = 0 ∧ (List.range 64).all (fun i => !bit a i ||
      (s.ownsCh h i && s.chOn (h / 16) i)) = true ∧ (List.range 64).find? (fun i => bit a i && !(s.chMsgs (h / 16)
      i).isEmpty) = some i) ∧
    (∃ (s : State) (h : Fin 1024) (rs1 : Fin 32) (rd : Fin 32) (a : Nat), s.mainUp = true ∧ (s.hart h).state = 1 ∧ a = s.xr h rs1 ∧ ft64Valid a = true ∧ a ≤ s.now64) ∧
    (∃ (s : State) (h : Fin 1024) (rs1 : Fin 32) (rd : Fin 32) (a : Nat), s.mainUp = true ∧ (s.hart h).state = 1 ∧ a = s.xr h rs1 ∧ ft64Valid a = true ∧ s.now64 < a) ∧
    (∃ (s : State) (h : Fin 1024) (rs1 : Fin 32) (rd : Fin 32), s.mainUp = true ∧ (s.hart h).state = 1 ∧ ft64Valid (s.xr h rs1) = false) ∧
    (∃ (s : State) (h : Fin 1024) (rs1 : Fin 32) (rs2 : Fin 32) (rd : Fin 32) (a : Nat) (b : Nat), s.mainUp = true ∧ (s.hart h).state = 1 ∧ a = s.xr h rs1 ∧ b = s.xr h rs2 ∧ b < 64 ∧ s.chOn (h / 16) b = true ∧ ft64Valid
      a = true ∧ (s.fc.alarms.filter (·.hart == h.val)).length < 4) ∧
    (∃ (s : State) (h : Fin 1024) (rs1 : Fin 32) (a : Nat), s.mainUp = true ∧ (s.hart h).state = 1 ∧ a = s.xr h rs1 ∧ a < 1024 ∧ s.dom (a / 16) = s.dom (h / 16)) :=
  ⟨⟨((chanUp { x := [(11, 32)] }).setMsgs 0 5 [{ words := [1], sender := 2 }]), 3, 11, 0, 10, 32, 5, by decide +kernel⟩,
   ⟨(chanUp {}), 3, 11, 10, 0, by decide +kernel⟩,
   ⟨(chanUp { x := [(11, 9)] }), 3, 11, 10, 9, by decide +kernel⟩,
   ⟨(chanUp { x := [(11, 4000000000)] }), 3, 11, 10, by decide +kernel⟩,
   ⟨(chanUp { x := [(11, 9), (12, 5)] }), 3, 11, 12, 10, 9, 5, by decide +kernel⟩,
   ⟨(chanUp { x := [(11, 3)] }), 3, 11, 3, by decide +kernel⟩⟩

/-- Values meet the hypotheses of clauses 19 to 21 of ChannelInstructions. -/
theorem witness_ChannelInstructions_4 :
    (∃ (s : State) (h : Fin 1024) (rs1 : Fin 32) (rs2 : Fin 32) (rd : Fin 32) (a : Nat) (x : Ring), s.mainUp = true ∧ (s.hart h).state = 1 ∧ a = s.xr h rs1 ∧ a < 65536 ∧ s.ring a = some x ∧ x.slice = s.hartSlice h) ∧
    (∃ (s : State) (t : State) (h : Fin 1024) (rs1 : Fin 32) (rs2 : Fin 32) (rd : Fin 32) (a : Nat) (b : Nat) (x : Ring) (g : Flight), s.mainUp = true ∧ (s.hart h).state = 1 ∧ a = s.xr h rs1 ∧ a < 2 ^ 41 ∧ b = s.xr h rs2 ∧ s.ring (a % 65536) = some x ∧
      x.slice = s.hartSlice h ∧ x.type = 5 ∧ x.eng.flight.find? (fun (g : Flight) => g.tag == some (bits a 32 16) &&
      g.cpl.isNone && s.tagGen (bits a 32 16) == bits a 40 33) = some g ∧ t = s.finish (a % 65536) g.count { status := b % 65536, bytes := b / 2 ^ 32, x12 := leBytes 2 (bits b 31 16) }) ∧
    (∃ (s : State) (h : Fin 1024) (rs1 : Fin 32) (rs2 : Fin 32) (rd : Fin 32) (a : Nat), s.mainUp = true ∧ (s.hart h).state = 1 ∧ a = s.xr h rs1 ∧ a < 2 ^ 41 ∧ s.ring (a % 65536) = none ∧ s.rng.late = []) :=
  ⟨⟨((chanUp { x := [(11, 9)] }).setRing 9 (aRing 0)), 3, 11, 12, 10, 9, (aRing 0), by decide +kernel⟩,
   ⟨((chanUp { x := [(11, 9 + 7 * 65536), (12, 4 * 2 ^ 32)] }).setRing 9 (flying 5 (desc 0x40))), (((chanUp { x := [(11, 9 + 7 * 65536), (12, 4 * 2 ^ 32)] }).setRing 9 (flying 5 (desc 0x40))).finish 9 0 { status := 0, bytes := 4, x12 := [0, 0] }), 3, 11, 12, 10, (9 + 7 * 65536), (4 * 2 ^ 32), (flying 5 (desc 0x40)), (aFlight (desc 0x40)), by decide +kernel⟩,
   ⟨(chanUp { x := [(11, 9)] }), 3, 11, 12, 10, 9, by decide +kernel⟩⟩

/-- Values meet the hypotheses of clauses 1 to 6 of PacketPortsAndWakes. -/
theorem witness_PacketPortsAndWakes_1 :
    (∃ (s : State) (h : Fin 1024) (rs1 : Fin 32) (rd : Fin 32) (p : Nat) (x : RxPort), s.mainUp = true ∧ (s.hart h).state = 1 ∧ p = s.xr h rs1 ∧ p < 16 ∧ s.ownsRx h p = true ∧ s.rxp (h / 16) p = x ∧
      x.returned < x.filled) ∧
    (∃ (s : State) (h : Fin 1024) (rs1 : Fin 32) (rd : Fin 32) (p : Nat), s.mainUp = true ∧ (s.hart h).state = 1 ∧ p = s.xr h rs1 ∧ p < 16 ∧ s.ownsRx h p = true ∧ (s.rxp (h / 16) p).filled ≤
      (s.rxp (h / 16) p).returned) ∧
    (∃ (s : State) (h : Fin 1024) (rs1 : Fin 32) (rd : Fin 32) (p : Nat), s.mainUp = true ∧ (s.hart h).state = 1 ∧ p = s.xr h rs1 ∧ p < 16 ∧ s.ownsRx h p = true ∧ (s.rxp (h / 16) p).filled ≤
      (s.rxp (h / 16) p).returned) ∧
    (∃ (s : State) (h : Fin 1024) (rs1 : Fin 32) (p : Nat) (x : RxPort), s.mainUp = true ∧ (s.hart h).state = 1 ∧ p = s.xr h rs1 ∧ p < 16 ∧ s.ownsRx h p = true ∧ s.rxp (h / 16) p = x ∧
      x.released < x.returned) ∧
    (∃ (s : State) (h : Fin 1024) (rs1 : Fin 32) (p : Nat), s.mainUp = true ∧ (s.hart h).state = 1 ∧ p = s.xr h rs1 ∧ p < 16 ∧ s.ownsRx h p = true ∧ (s.rxp (h / 16) p).returned ≤
      (s.rxp (h / 16) p).released) ∧
    (∃ (s : State) (h : Fin 1024) (rs1 : Fin 32) (rs2 : Fin 32) (rd : Fin 32) (p : Nat) (o : Nat) (d : List Byte), s.mainUp = true ∧ (s.hart h).state = 1 ∧ p = s.xr h rs1 ∧ p < 16 ∧ s.ac R.FCR_TXP_CFG_owner (h / 16) p = h % 16 ∧ s.ac
      R.FCR_TXP_CFG_enable (h / 16) p = 1 ∧ s.lmRead h (s.xr h rs2) 64 = some d ∧ txDescOk d = true ∧ fieldLE d 0xA 2 =
      0 ∧ fieldLE d 0xC 1 = 0 ∧ fieldLE d 0xD 1 = 0 ∧ s.phys h (s.hart h).priv (fieldLE d 0 8) (fieldLE d 8 2) = some
      (.lm (h / 16) o) ∧ s.injHeld (s.ac R.FCR_TXP_CFG_pipe (h / 16) p) 3 = false) :=
  ⟨⟨((chanUp { x := [(11, 2)] }).setRxp 0 2 { filled := 1 }), 3, 11, 10, 2, ({ filled := 1 }), by decide +kernel⟩,
   ⟨(chanUp { x := [(11, 2)] }), 3, 11, 10, 2, by decide +kernel⟩,
   ⟨(chanUp { x := [(11, 2)] }), 3, 11, 10, 2, by decide +kernel⟩,
   ⟨((chanUp { x := [(11, 2)] }).setRxp 0 2 { filled := 1, returned := 1 }), 3, 11, 2, ({ filled := 1, returned := 1 }), by decide +kernel⟩,
   ⟨(chanUp { x := [(11, 2)] }), 3, 11, 2, by decide +kernel⟩,
   ⟨txUp, 3, 11, 12, 10, 2, 0, (leBytes 8 0 ++ leBytes 2 60 ++ leBytes 54 0), by decide +kernel⟩⟩

/-- Values meet the hypotheses of clauses 7 to 12 of PacketPortsAndWakes. -/
theorem witness_PacketPortsAndWakes_2 :
    (∃ (s : State) (c : Fin 64) (p : Fin 16) (k : Pkt), s.mainUp = true ∧ s.headFull (4688 + 16 * c + p) = some k ∧ s.ac R.FCR_RXP_CFG_enable c p ≠ 1) ∧
    (∃ (s : State) (t : State) (c : Fin 64) (p : Fin 16) (k : Pkt) (x : RxPort), s.mainUp = true ∧ s.headFull (4688 + 16 * c + p) = some k ∧ s.ac R.FCR_RXP_CFG_enable c p = 1 ∧ s.fencedUnit 1 c = false
      ∧ k.frame.bad = false ∧ k.frame.poison = false ∧ x = s.rxp c p ∧ x.filled - x.released < s.rxEntries c p ∧
      k.frame.data.length ≤ s.rxEsize c p - 64 ∧ t = s.physWrite 1024 (.lm c (s.rxEntry c p x.filled)) (pktDesc k ++
      k.frame.data)) ∧
    (∃ (s : State) (t : State) (u : State) (h : Fin 1024) (b : Blocked) (v : Nat), s.mainUp = true ∧ (s.hart h).wait = some b ∧ (s.hart h).state = 2 ∧ b.kind = 1 ∧ b.word = customWord 0 4 0 11 10 ∧ s.xr
      h 11 < 64 ∧ s.ownsCh h (s.xr h 11) = true ∧ s.chOn (h / 16) (s.xr h 11) = true ∧ t = s.setMsgs (h / 16) (s.xr h
      11) ((s.chMsgs (h / 16) (s.xr h 11)).drop 1) ∧ (s.chMsgs (h / 16) (s.xr h 11)).head?.map recvWord = some v ∧ u =
      ((t.modHart h (fun k => { k with inbox := ((s.chMsgs (h / 16) (s.xr h 11)).head?.map (·.words)).getD [] })).modHart
      h (fun k => { k with wait := none })).setHartState h 1) ∧
    (∃ (s : State) (t : State) (a : FcAlarm), s.mainUp = true ∧ s.nextAlarm = some a ∧ t = s.runTo (ft64Units a.time)) ∧
    (∃ (s : State) (t : State) (h : Fin 1024) (b : Blocked), s.mainUp = true ∧ (s.hart h).wait = some b ∧ (s.hart h).state = 2 ∧ b.kind = 3 ∧ t = s.runTo (ft64Units (s.xr h (bits
      b.word 19 15)))) ∧
    (∃ (s : State) (h : Fin 1024) (c : Nat) (b : Bool), s.mainUp = true ∧ (s.hart h).state = 1 ∧ s.takenInt h = some (c, b)) :=
  ⟨⟨(queued up 4690 aPkt), 0, 2, ({ aPkt with sid := 1 }), by decide +kernel⟩,
   ⟨rxUp, (rxUp.physWrite 1024 (.lm 0 0) (pktDesc { aPkt with sid := 1 } ++ aPkt.frame.data)), 0, 2, ({ aPkt with sid := 1 }), {}, by decide +kernel⟩,
   ⟨waking, (waking.setMsgs 0 5 []), (((waking.setMsgs 0 5 []).modHart 3 (fun k => { k with inbox := [1], wait := none })).setHartState 3 1), 3, ({ kind := 1, obj := 5, word := customWord 0 4 0 11 10, len := 4 }), (1 + 2 * 65536), by decide +kernel⟩,
   ⟨({ chanUp {} with fc := { (chanUp {}).fc with alarms := [{ hart := 3, ch := 5, time := 9 }] } }), ({ chanUp {} with fc := { (chanUp {}).fc with alarms := [{ hart := 3, ch := 5, time := 9 }] } }.runTo (9 * unitsPerNs)), ({ hart := 3, ch := 5, time := 9 }), by decide +kernel⟩,
   ⟨(chanUp { state := 2, x := [(11, 9)], wait := some { kind := 3, obj := 0, word := customWord 0 8 0 11 10, len := 4 } }), ((chanUp { state := 2, x := [(11, 9)], wait := some { kind := 3, obj := 0, word := customWord 0 8 0 11 10, len := 4 } }).runTo (9 * unitsPerNs)), 3, ({ kind := 3, obj := 0, word := customWord 0 8 0 11 10, len := 4 }), by decide +kernel⟩,
   ⟨(chanUp { csr := [(0x300, 0xA00000008), (0x304, 8), (0x344, 8)] }), 3, 3, false, by decide +kernel⟩⟩

/-- Values meet the hypotheses of clauses 13 to 13 of PacketPortsAndWakes. -/
theorem witness_PacketPortsAndWakes_3 :
    (∃ (s : State) (t : State) (d : Fin 64) (l : Nat), s.mainUp = true ∧ s.deadlocked d = true ∧ s.fc.dlOn.contains d.val = false ∧ s.domCores d = [l] ∧ t = ((s.snapCore
      l).raise R.FCR_CORE_STATUS_dl l).fcnt l 6 ∧ t.on R.FCR_CORE_CFG_sup_en l = false) :=
  ⟨stuck, (((stuck.snapCore 0).raise R.FCR_CORE_STATUS_dl 0).fcnt 0 6), 0, 0, by decide +kernel⟩

/-- Values meet the hypotheses of clauses 1 to 6 of ThreadsAndDebug. -/
theorem witness_ThreadsAndDebug_1 :
    (∃ (s : State) (t : State) (req : Req) (h : Fin 1024), s.takes req 0x0F (h / 16) R.reg_FCR_THREAD_CFG (h / 16) ∧ (s.hart h).state = 0 ∧ t = (s.wr R.FCR_THREAD_CFG_slice
      (s.hartSlice h) (h / 16) (h % 16)).wr R.FCR_THREAD_CFG_enable 1 (h / 16) (h % 16)) ∧
    (∃ (s : State) (t : State) (req : Req) (h : Fin 1024), s.takes req 0x0F (h / 16) R.reg_FCR_THREAD_CFG (h / 16) ∧ (s.hart h).state ≠ 0 ∧ s.hartSlice h < 4096 ∧ t = (((s.wr
      R.FCR_THREAD_CFG_enable 0 (h / 16) (h % 16)).vaultForget h).setHartState h 0).setHart h {}) ∧
    (∃ (s : State) (req : Req) (c : Fin 64) (ch : Fin 64) (v : Nat), s.takes req 0x0F c R.reg_FCR_CH_CFG c ∧ v < 2 ^ 32 ∧ bit v 31 = true ∧ 16 < bits v 12 8) ∧
    (∃ (s : State) (req : Req) (c : Fin 64) (ch : Fin 64) (v : Nat), s.takes req 0x0F c R.reg_FCR_CH_CFG c ∧ v < 2 ^ 32 ∧ bit v 31 = true ∧ bits v 12 8 ≤ 16 ∧ (List.range 64).all (fun i =>
      i == ch.val || !s.chOn c i) = true ∧ s.chMsgs c ch = []) ∧
    (∃ (s : State) (req : Req) (h : Fin 1024), s.takes req 0x0F (h / 16) R.reg_FCR_DBG_CTRL (h / 16) ∧ (s.hart h).state = 1) ∧
    (∃ (s : State) (req : Req) (h : Fin 1024), s.takes req 0x0F (h / 16) R.reg_FCR_DBG_CTRL (h / 16) ∧ (s.hart h).state = 3) :=
  ⟨⟨up, ((up.wr R.FCR_THREAD_CFG_slice 0 1 4).wr R.FCR_THREAD_CFG_enable 1 1 4), .host, 20, by decide +kernel⟩,
   ⟨(chanUp {}), (((((chanUp {}).wr R.FCR_THREAD_CFG_enable 0 0 3).vaultForget 3).setHartState 3 0).setHart 3 {}), .host, 3, by decide +kernel⟩,
   ⟨up, .host, 2, 5, (2 ^ 31 + 17 * 256), by decide +kernel⟩,
   ⟨up, .host, 2, 5, (2 ^ 31 + 4 * 256), by decide +kernel⟩,
   ⟨(chanUp {}), .host, 3, by decide +kernel⟩,
   ⟨(chanUp { state := 3 }), .host, 3, by decide +kernel⟩⟩

/-- Values meet the hypotheses of clauses 7 to 12 of ThreadsAndDebug. -/
theorem witness_ThreadsAndDebug_2 :
    (∃ (s : State) (req : Req) (h : Fin 1024), s.takes req 0x0F (h / 16) R.reg_FCR_DBG_CTRL (h / 16) ∧ (s.hart h).state = 3) ∧
    (∃ (s : State) (req : Req) (h : Fin 1024), s.takes req 0x0F (h / 16) R.reg_FCR_DBG_CTRL (h / 16) ∧ (s.hart h).state = 3) ∧
    (∃ (s : State) (t : State) (req : Req) (c : Fin 64) (d : Fin 16) (r : Fin 8192) (v : Nat), s.takes req 0x0F c R.reg_FCR_DBG_SEL c ∧ t = s.putReg false R.reg_FCR_DBG_SEL c 0 0 (r + d * 2 ^ 13 + 2 ^ 31) ∧ t.rd
      R.FCR_DBG_SEL_thread c = d ∧ t.rd R.FCR_DBG_SEL_reg c = r ∧ t.on R.FCR_DBG_SEL_wr c = false ∧ (t.hart (16 * c +
      d)).state = 3 ∧ t.dbgGet (16 * c + d) r = some v) ∧
    (∃ (s : State) (t : State) (req : Req) (c : Fin 64) (d : Fin 16) (r : Fin 8192), s.takes req 0x0F c R.reg_FCR_DBG_SEL c ∧ t = s.putReg false R.reg_FCR_DBG_SEL c 0 0 (r + d * 2 ^ 13 + 2 ^ 31) ∧ t.rd
      R.FCR_DBG_SEL_thread c = d ∧ (t.hart (16 * c + d)).state ≠ 3) ∧
    (∃ (s : State) (t : State) (req : Req) (c : Fin 64) (d : Fin 16) (r : Fin 8192), s.takes req 0x0F c R.reg_FCR_DBG_SEL c ∧ t = s.putReg false R.reg_FCR_DBG_SEL c 0 0 (r + d * 2 ^ 13 + 2 ^ 30 + 2 ^ 31) ∧
      t.rd R.FCR_DBG_SEL_thread c = d ∧ t.rd R.FCR_DBG_SEL_reg c = r ∧ t.on R.FCR_DBG_SEL_wr c = true ∧ (t.hart (16 * c
      + d)).state = 3 ∧ r.val < 0x20) ∧
    (∃ (s : State) (t : State) (h : Fin 1024) (k : Fin 4) (a : Nat) (n : Nat) (i : Nat), s.mainUp = true ∧ (s.hart h).state = 1 ∧ k.val ≠ 1 ∨ (s.hart h).passBrk = false ∧ s.brkMatch h k a n = some i ∧ t =
      ((List.range 16).foldl (fun s t => if bit (s.rd R.FCR_BRK_CTL_threads (h / 16) i) t then s.haltHart (16 * (h / 16)
      + t) else s) s)) :=
  ⟨⟨(chanUp { state := 3 }), .host, 3, by decide +kernel⟩,
   ⟨(chanUp { state := 3, out := [1] }), .host, 3, by decide +kernel⟩,
   ⟨(chanUp { state := 3, x := [(11, 9)] }), ((chanUp { state := 3, x := [(11, 9)] }).putReg false R.reg_FCR_DBG_SEL 0 0 0 (11 + 3 * 2 ^ 13 + 2 ^ 31)), .host, 0, 3, 11, 9, by decide +kernel⟩,
   ⟨(chanUp {}), ((chanUp {}).putReg false R.reg_FCR_DBG_SEL 0 0 0 (11 + 3 * 2 ^ 13 + 2 ^ 31)), .host, 0, 3, 11, by decide +kernel⟩,
   ⟨(chanUp { state := 3 }), ((chanUp { state := 3 }).putReg false R.reg_FCR_DBG_SEL 0 0 0 (11 + 3 * 2 ^ 13 + 2 ^ 30 + 2 ^ 31)), .host, 0, 3, 11, by decide +kernel⟩,
   ⟨broken, (broken.haltHart 3), 3, 1, 64, 2, 0, by decide +kernel⟩⟩

/-- Values meet the hypotheses of clauses 13 to 15 of ThreadsAndDebug. -/
theorem witness_ThreadsAndDebug_3 :
    (∃ (s : State) (h : Fin 1024) (k : Fin 4) (a : Nat) (n : Nat), s.mainUp = true ∧ s.brkMatch h k a n = none) ∧
    (∃ (s : State) (t : State) (c : Fin 64), s.mainUp = true ∧ s.issuer c = none ∧ t = s.fcnt c 2) ∧
    (∃ (s : State) (t : State) (u : State) (c : Fin 64) (h : Nat), s.mainUp = true ∧ s.issuer c = some h ∧ (s.hart h).state = 1 ∧ h % 16 < 8 ∧ s.takenInt h = none ∧ s.brkMatch h 1 (s.hart
      h).pc 2 = none ∧ t = s.fcnt c 0 ∧ u = (t.modHart h (fun x => { x with readyAt := (s.fcore c).clk + 8 })).runOne h) :=
  ⟨⟨(chanUp {}), 3, 1, 64, 2, by decide +kernel⟩,
   ⟨up, (up.fcnt 4 2), 4, by decide +kernel⟩,
   ⟨issuing, (issuing.fcnt 0 0), (((issuing.fcnt 0 0).modHart 3 (fun x => { x with readyAt := 11 })).runOne 3), 0, 3, by decide +kernel⟩⟩

/-- Values meet the hypotheses of clauses 1 to 6 of VaultRequests. -/
theorem witness_VaultRequests_1 :
    (∃ (s : State) (h : Fin 1024) (rs1 : Fin 32) (rs2 : Fin 32) (rd : Fin 32) (a : Nat) (b : Nat), s.mainUp = true ∧ (s.hart h).state = 1 ∧ a = s.xr h rs1 ∧ b = s.xr h rs2 ∧ a % 16 = 0 ∧ b < 65536 ∧ (s.ownLm h a
      16).isSome = true ∧ s.slotCheck (s.hartSlice h) b (some 0) = 0) ∧
    (∃ (s : State) (h : Fin 1024) (rs1 : Fin 32) (rs2 : Fin 32) (rd : Fin 32) (a : Nat) (b : Nat), s.mainUp = true ∧ (s.hart h).state = 1 ∧ a = s.xr h rs1 ∧ b = s.xr h rs2 ∧ a % 16 = 0 ∧ b < 65536 ∧ (s.ownLm h a
      16).isSome = true ∧ s.slotCheck (s.hartSlice h) b (some 0) ≠ 0) ∧
    (∃ (s : State) (h : Fin 1024) (rs1 : Fin 32) (rd : Fin 32), s.mainUp = true ∧ (s.hart h).state = 1 ∧ s.xr h rs1 < 65536 ∧ s.keyReady = true ∧ s.lockOf h = none) ∧
    (∃ (s : State) (h : Fin 1024) (rs1 : Fin 32) (rd : Fin 32), s.mainUp = true ∧ (s.hart h).state = 1 ∧ s.xr h rs1 < 65536 ∧ s.keyReady = true ∧ (s.lockOf h).isSome = true) ∧
    (∃ (s : State) (h : Fin 1024) (rd : Fin 32) (e : Nat), s.mainUp = true ∧ (s.hart h).state = 1 ∧ s.lockOf h = some e ∧ (s.eng e).holder = some h.val ∧ (s.eng e).run = none) ∧
    (∃ (s : State) (h : Fin 1024) (rd : Fin 32), s.mainUp = true ∧ (s.hart h).state = 1 ∧ s.lockOf h = none) :=
  ⟨⟨(vaultUp []), 3, 11, 12, 10, 0, 4, by decide +kernel⟩,
   ⟨((vaultUp []).wr R.VLT_STATUS_key_ready 0), 3, 11, 12, 10, 0, 4, by decide +kernel⟩,
   ⟨(vaultUp []), 3, 12, 10, by decide +kernel⟩,
   ⟨((vaultUp []).setEng 7 { holder := some 3 }), 3, 12, 10, by decide +kernel⟩,
   ⟨((vaultUp []).setEng 7 { holder := some 3 }), 3, 10, 7, by decide +kernel⟩,
   ⟨(vaultUp []), 3, 10, by decide +kernel⟩⟩

/-- Values meet the hypotheses of clauses 7 to 12 of VaultRequests. -/
theorem witness_VaultRequests_2 :
    (∃ (s : State) (h : Fin 1024) (rs1 : Fin 32) (rs2 : Fin 32) (rd : Fin 32) (a : Nat) (d : List Byte) (p : Phys), s.mainUp = true ∧ (s.hart h).state = 1 ∧ a = s.xr h rs1 ∧ s.xr h rs2 = 0 ∧ a % 16 = 0 ∧ s.lmRead h a 48 = some d ∧ 0 <
      cmLen d ∧ cmLen d ≤ 65536 ∧ cmFlags d = 3 ∧ fieldLE d 0xF 1 = 0 ∧ fieldLE d 0x20 16 = 0 ∧ s.phys h (s.hart h).priv
      (cmMsg d) (cmLen d) = some p ∧ p.key < 2 ^ 63 ∧ s.slotCheck (s.hartSlice h) (cmSlot d) (some 2) = 0) ∧
    (∃ (s : State) (h : Fin 1024) (rs1 : Fin 32) (rd : Fin 32) (a : Nat) (d : List Byte), s.mainUp = true ∧ (s.hart h).state = 1 ∧ a = s.xr h rs1 ∧ a % 16 = 0 ∧ s.lmRead h a 64 = some d ∧ s.keyReady = true ∧
      fieldLE d 0 2 ≠ 0 ∧ (s.keySlot (fieldLE d 0 2)).state ≠ 0 ∧ (s.keySlot (fieldLE d 0 2)).slice = s.hartSlice h ∧
      s.importCheck (fieldLE d 0 2) (fieldLE d 2 2) false = 0 ∧ fieldLE d 4 1 = 32 ∧ fieldLE d 5 11 = 0 ∧ fieldLE d 0x30
      16 = 0) ∧
    (∃ (s : State) (h : Fin 1024) (rs1 : Fin 32) (rd : Fin 32) (i : Nat), s.mainUp = true ∧ (s.hart h).state = 1 ∧ i = s.xr h rs1 ∧ 0 < i ∧ i < 65536 ∧ s.keyReady = true ∧ (s.keySlot i).state ≠
      0 ∧ (s.keySlot i).state ≠ 2 ∧ (s.keySlot i).slice = s.hartSlice h) ∧
    (∃ (s : State) (t : State) (q : VaultReq) (o : VaultOp) (e : Nat), s.mainUp = true ∧ s.nextReq = some (q, e) ∧ q.op = some o ∧ e ≠ 64 ∧ o.locked = false ∧ t = ({ s with vlt := { s.vlt with reqs := s.vlt.reqs.erase q } }
      : State).loadKey e o.slot ∧ (s.keySlot o.slot).state = 3) ∧
    (∃ (s : State) (t : State) (q : VaultReq) (e : Nat), s.mainUp = true ∧ s.nextReq = some (q, e) ∧ q.op = none ∧ q.preload = 0xFFFF ∧ t = ({ s with vlt := { s.vlt with reqs := s.vlt.reqs.erase q } }
      : State).setEng e { s.eng e with holder := some q.hart, lockAt := s.time.ft, endLock := false }) ∧
    (∃ (s : State) (e : Fin 64) (x : Nat), s.mainUp = true ∧ (s.eng e).holder = some x ∧ (s.eng e).run = none ∧ s.rd R.VLT_CFG_lock_lease_us ≠ 0) :=
  ⟨⟨(vaultUp (leBytes 8 64 ++ leBytes 4 16 ++ [4, 0, 3])), 3, 11, 0, 10, 0, (leBytes 8 64 ++ leBytes 4 16 ++ [4, 0, 3] ++ leBytes 33 0), (.lm 0 64), by decide +kernel⟩,
   ⟨(vaultUp [5, 0, 6, 0, 32]), 3, 11, 10, 0, ([5, 0, 6, 0, 32] ++ leBytes 59 0), by decide +kernel⟩,
   ⟨(vaultUp []), 3, 12, 10, 4, by decide +kernel⟩,
   ⟨asking, ((vaultUp []).loadKey 0 4), ({ hart := 3, op := some { hart := 3, cmac := false, a := 0, b := 4, slot := 4, locked := false } }), ({ hart := 3, cmac := false, a := 0, b := 4, slot := 4, locked := false }), 0, by decide +kernel⟩,
   ⟨({ vaultUp [] with vlt := { (vaultUp []).vlt with reqs := [{ hart := 3, op := none, preload := 0xFFFF }] } }), ((vaultUp []).setEng 0 { holder := some 3 }), ({ hart := 3, op := none, preload := 0xFFFF }), 0, by decide +kernel⟩,
   ⟨(((vaultUp []).setEng 7 { holder := some 3 }).wr R.VLT_CFG_lock_lease_us 100), 7, 3, by decide +kernel⟩⟩

/-- Values meet the hypotheses of clauses 13 to 13 of VaultRequests. -/
theorem witness_VaultRequests_3 :
    (∃ (s : State) (req : Req) (e : Fin 64), s.takes req 0x10 0 R.reg_VLT_ENG_LOCK) :=
  ⟨((vaultUp []).setEng 7 { holder := some 3 }), .host, 7, by decide +kernel⟩

/-- Values meet the hypotheses of clauses 1 to 6 of VaultRunsAndKeys. -/
theorem witness_VaultRunsAndKeys_1 :
    (∃ (s : State) (t : State) (e : Fin 64) (o : VaultOp) (d : List Byte), s.mainUp = true ∧ (s.eng e).run = some o ∧ (s.eng e).endLock = false ∧ (s.eng e).retrySec ≠ ftSec s.time.ft ∧ o.cmac =
      false ∧ bits o.b 31 24 = 0 ∧ bit o.b 16 = false ∧ o.gone = false ∧ t = (s.setEng e { s.eng e with run := none, retrySec := ftSec s.time.ft, retries := 0, lockAt := s.time.ft }).vcnt
      4 0 ∧ t.lmRead o.hart o.a 16 = some d) ∧
    (∃ (s : State) (r : Fin 65536) (g : Flight) (x : Nat), s.mainUp = true ∧ s.toPerform r [0x78] = some g ∧ x = fieldLE g.desc 0x10 2 ∧ x < 4096 ∧ keyRest g.desc [(0x10, 2)] =
      true ∧ s.keyReady = true ∧ s.sliceActive x = true ∧ s.allocStatus x 5 = 0) ∧
    (∃ (s : State) (r : Fin 65536) (g : Flight), s.mainUp = true ∧ s.toPerform r [0x78] = some g ∧ fieldLE g.desc 0x10 2 < 4096 ∧ keyRest g.desc [(0x10, 2)] = true ∧
      s.keyReady = false) ∧
    (∃ (s : State) (r : Fin 65536) (g : Flight) (i : Nat), s.mainUp = true ∧ s.toPerform r [0x79] = some g ∧ i = fieldLE g.desc 0x12 2 ∧ keyRest g.desc [(0x12, 2)] = true ∧
      s.keyReady = true ∧ i ≠ 0 ∧ (s.keySlot i).state ≠ 0 ∧ (s.keySlot i).state ≠ 2) ∧
    (∃ (s : State) (r : Fin 65536) (g : Flight) (i : Nat), s.mainUp = true ∧ s.toPerform r [0x7B] = some g ∧ i = fieldLE g.desc 0x12 2 ∧ keyRest g.desc [(0x12, 2)] = true ∧
      s.keyReady = true ∧ i ≠ 0 ∧ (s.keySlot i).state ≠ 0 ∧ (s.keySlot i).state ≠ 2) ∧
    (∃ (s : State) (r : Fin 65536) (g : Flight) (i : Nat), s.mainUp = true ∧ s.toPerform r [0x7B] = some g ∧ i = fieldLE g.desc 0x12 2 ∧ keyRest g.desc [(0x12, 2)] = true ∧
      s.keyReady = true ∧ i ≠ 0 ∧ (s.keySlot i).state = 2) :=
  ⟨⟨running, (((running.setEng 7 { lockAt := 0 }).vcnt 4 0)), 7, ({ hart := 3, cmac := false, a := 0, b := 4, slot := 4, locked := false, key := leBytes 16 1 }), (leBytes 16 0), by decide +kernel⟩,
   ⟨(keyCmd 0x78 []), 9, (aFlight (desc 0x78 [])), 0, by decide +kernel⟩,
   ⟨((keyCmd 0x78 []).wr R.VLT_STATUS_key_ready 0), 9, (aFlight (desc 0x78 [])), by decide +kernel⟩,
   ⟨(keyCmd 0x79 [0, 0, 4]), 9, (aFlight (desc 0x79 [0, 0, 4])), 4, by decide +kernel⟩,
   ⟨(keyCmd 0x7B [0, 0, 4]), 9, (aFlight (desc 0x7B [0, 0, 4])), 4, by decide +kernel⟩,
   ⟨((keyCmd 0x7B [0, 0, 4]).setSlotK 4 { state := 2 }), 9, (aFlight (desc 0x7B [0, 0, 4])), 4, by decide +kernel⟩⟩

/-- Values meet the hypotheses of clauses 7 to 11 of VaultRunsAndKeys. -/
theorem witness_VaultRunsAndKeys_2 :
    (∃ (s : State) (t : State) (r : Fin 65536) (x : Ring) (g : Flight) (i : Nat) (k : Nat) (b : List Byte), s.mainUp = true ∧ s.ring r = some x ∧ s.toPerform r [0x7A] = some g ∧ i = fieldLE g.desc 0x10 2 ∧ k = fieldLE g.desc
      0x12 2 ∧ fieldLE g.desc 0x14 1 = 32 ∧ keyRest g.desc [(0x10, 5), (0x18, 8)] = true ∧ s.keyReady = true ∧ i ≠ 0 ∧
      (s.keySlot i).state ≠ 0 ∧ s.importCheck i k true = 0 ∧ s.readFor (.work r g.count) g.slice x.mem (fieldLE g.desc
      0x18 8) 32 = (.ok b, t)) ∧
    (∃ (s : State) (o : ImportOn) (l : List ImportOn) (p : List Byte), s.mainUp = true ∧ s.vlt.imports = o :: l ∧ (s.keySlot o.kek).state = 3 ∧ keyUnwrap (s.keySlot o.kek).key o.blob = some p
      ∧ keyAttrOk p = true) ∧
    (∃ (s : State) (o : ImportOn) (l : List ImportOn), s.mainUp = true ∧ s.vlt.imports = o :: l ∧ (s.keySlot o.kek).state = 3 ∧ keyUnwrap (s.keySlot o.kek).key o.blob = none) ∧
    (∃ (s : State) (req : Req), s.takes req 0x10 0 R.reg_VLT_ZEROISE ∧ (s.vlt.slots.filter (fun p => p.1 != 0 && p.2.state != 0)) = []) ∧
    (∃ (s : State) (req : Req) (i : Nat) (k : KeySlot), s.takes req 0x10 0 R.reg_VLT_ZEROISE ∧ (s.vlt.slots.filter (fun p => p.1 != 0 && p.2.state != 0)) = [(i, k)] ∧
      (s.keySlot i).state ≠ 2) :=
  ⟨⟨(keyCmd 0x7A [5, 0, 6, 0, 32]), (((keyCmd 0x7A [5, 0, 6, 0, 32]).readFor (.work 9 0) 0 true 0 32).2), 9, (flying 0 (desc 0x7A [5, 0, 6, 0, 32])), (aFlight (desc 0x7A [5, 0, 6, 0, 32])), 5, 6, (leBytes 32 0), by decide +kernel⟩,
   ⟨(importing (wrapped)), ({ slot := 5, kek := 6, blob := wrapped, for_ := .ring 9 0 }), [], ([1, 1] ++ leBytes 22 0), by decide +kernel⟩,
   ⟨(importing (leBytes 32 0)), ({ slot := 5, kek := 6, blob := leBytes 32 0, for_ := .ring 9 0 }), [], by decide +kernel⟩,
   ⟨up, .host, by decide +kernel⟩,
   ⟨(up.setSlotK 4 { state := 3 }), .host, 4, ({ state := 3 }), by decide +kernel⟩⟩

/-- Values meet the hypotheses of clauses 1 to 6 of ProgrammableCounters. -/
theorem witness_ProgrammableCounters_1 :
    (∃ (s : State) (req : Req), s.takes req 0x12 0 R.reg_PMC_CTRL) ∧
    (∃ (s : State) (c : Nat) (inst : Nat) (event : Nat) (sub : Nat) (value : Nat) (slice : Nat) (part : Nat) (i : Nat) (x : Ctr), s.mainUp = true ∧ (List.range 256).filter (fun k => (s.ctr k).enable && !((s.ctr k).chain && k != 0) && (s.ctr
      k).selects c inst event sub) = [i] ∧ x = s.ctr i ∧ x.edge = false ∧ x.slice = none ∧ 0 < value ∧ s.rd
      R.PMC_CTR_VAL_value i + value < 2 ^ 48) ∧
    (∃ (s : State) (c : Nat) (inst : Nat) (event : Nat) (sub : Nat) (value : Nat) (slice : Nat) (part : Nat) (i : Nat) (x : Ctr), s.mainUp = true ∧ (List.range 256).filter (fun k => (s.ctr k).enable && !((s.ctr k).chain && k != 0) && (s.ctr
      k).selects c inst event sub) = [i] ∧ x = s.ctr i ∧ x.edge = true ∧ x.slice = none ∧ 0 < value ∧ s.pmc.hot.contains
      i = true) ∧
    (∃ (s : State) (c : Nat) (inst : Nat) (event : Nat) (sub : Nat) (value : Nat) (slice : Nat) (part : Nat) (i : Nat) (x : Ctr), s.mainUp = true ∧ (List.range 256).filter (fun k => (s.ctr k).enable && !((s.ctr k).chain && k != 0) && (s.ctr
      k).selects c inst event sub) = [i] ∧ x = s.ctr i ∧ x.edge = true ∧ x.slice = none ∧ 0 < value ∧ s.pmc.hot.contains
      i = false ∧ s.rd R.PMC_CTR_VAL_value i + 1 < 2 ^ 48) ∧
    (∃ (s : State) (c : Nat) (inst : Nat) (event : Nat) (sub : Nat) (value : Nat) (slice : Nat) (part : Nat) (i : Nat) (x : Ctr), s.mainUp = true ∧ (List.range 256).filter (fun k => (s.ctr k).enable && !((s.ctr k).chain && k != 0) && (s.ctr
      k).selects c inst event sub) = [i] ∧ x = s.ctr i ∧ x.edge = false ∧ x.slice = none ∧ x.sample = false ∧ 0 < value
      ∧ 2 ^ 48 ≤ s.rd R.PMC_CTR_VAL_value i + value ∧ (s.ctr (i + 1)).chain = false) ∧
    (∃ (s : State) (t : State) (c : Nat) (inst : Nat) (event : Nat) (sub : Nat) (value : Nat) (slice : Nat) (part : Nat) (i : Nat) (x : Ctr), s.mainUp = true ∧ (List.range 256).filter (fun k => (s.ctr k).enable && !((s.ctr k).chain && k != 0) && (s.ctr
      k).selects c inst event sub) = [i] ∧ x = s.ctr i ∧ x.edge = false ∧ x.slice = none ∧ x.sample = true ∧ 0 < value ∧
      2 ^ 48 ≤ s.rd R.PMC_CTR_VAL_value i + value ∧ (s.hart (16 * x.inst + x.sub)).state ≠ 0 ∧ t = ({ s with pmc := { s.pmc with hot := s.pmc.hot.filter (· != i) ++ [i] } }
      : State)) :=
  ⟨⟨(up.wr R.PMC_CTR_VAL_value 77 200), .host, by decide +kernel⟩,
   ⟨(counting 200 [(R.PMC_CTR_CFG_block, 8), (R.PMC_CTR_CFG_instance, 2)]), 8, 2, 0, 0, 5, 0, 0, 200, ({ enable := true, block := 8, inst := 2 }), by decide +kernel⟩,
   ⟨(hotNow (counting 200 [(R.PMC_CTR_CFG_block, 8), (R.PMC_CTR_CFG_mode, 1)]) 200), 8, 0, 0, 0, 5, 0, 0, 200, ({ enable := true, block := 8, edge := true }), by decide +kernel⟩,
   ⟨(counting 200 [(R.PMC_CTR_CFG_block, 8), (R.PMC_CTR_CFG_mode, 1)]), 8, 0, 0, 0, 5, 0, 0, 200, ({ enable := true, block := 8, edge := true }), by decide +kernel⟩,
   ⟨((counting 200 [(R.PMC_CTR_CFG_block, 8)]).wr R.PMC_CTR_VAL_value (2 ^ 48 - 1) 200), 8, 0, 0, 0, 5, 0, 0, 200, ({ enable := true, block := 8 }), by decide +kernel⟩,
   ⟨sampling, (hotNow sampling 200), 0xF, 0, 64, 3, 5, 0, 0, 200, ({ enable := true, block := 0xF, event := 64, sub := 3, sample := true }), by decide +kernel⟩⟩

/-- Values meet the hypotheses of clauses 7 to 10 of ProgrammableCounters. -/
theorem witness_ProgrammableCounters_2 :
    (∃ (s : State) (req : Req) (c : Fin 256) (v : Nat), s.takes req 0x12 0 R.reg_PMC_CTR_VAL c ∧ v < 2 ^ 48) ∧
    (∃ (s : State) (source : Nat) (obj : Nat) (ns : Nat) (h : Nat), s.mainUp = true ∧ source < 8 ∧ (List.range 16).filter (fun k => s.on R.PMC_HIST_CFG_enable k && s.rd
      R.PMC_HIST_CFG_source k == source && (source == 3 || source == 6 || s.rd R.PMC_HIST_CFG_obj k == obj)) = [h] ∧
      s.on R.PMC_HIST_CFG_freeze h = true) ∧
    (∃ (s : State) (source : Nat) (obj : Nat) (ns : Nat) (h : Nat) (b : Nat), s.mainUp = true ∧ source < 8 ∧ (List.range 16).filter (fun k => s.on R.PMC_HIST_CFG_enable k && s.rd
      R.PMC_HIST_CFG_source k == source && (source == 3 || source == 6 || s.rd R.PMC_HIST_CFG_obj k == obj)) = [h] ∧
      s.on R.PMC_HIST_CFG_freeze h = false ∧ b = min (Nat.log2 (max 1 (ns / 2 ^ s.rd R.PMC_HIST_CFG_shift h))) 31 ∧ s.rd
      R.PMC_HIST_BIN_count h b < 0xFFFFFFFF) ∧
    (∃ (s : State) (req : Req) (h : Fin 16), s.takes req 0x12 0 R.reg_PMC_HIST_CFG h) :=
  ⟨⟨up, .host, 200, 5, by decide +kernel⟩,
   ⟨(((up.wr R.PMC_HIST_CFG_enable 1 5).wr R.PMC_HIST_CFG_source 2 5).wr R.PMC_HIST_CFG_freeze 1 5), 2, 0, 100, 5, by decide +kernel⟩,
   ⟨((up.wr R.PMC_HIST_CFG_enable 1 5).wr R.PMC_HIST_CFG_source 2 5), 2, 0, 100, 5, 6, by decide +kernel⟩,
   ⟨(up.wr R.PMC_HIST_BIN_count 5 5 6), .host, 5, by decide +kernel⟩⟩

/-- Values meet the hypotheses of clauses 1 to 6 of CounterDumps. -/
theorem witness_CounterDumps_1 :
    (∃ (s : State) (t : State) (at_ : Nat), s.mainUp = true ∧ s.pmc.dumpAt = some at_ ∧ t = s.runTo at_ ∧ t.pmc.dump.isSome = false ∧ t.rd R.PMC_DUMP_BASE_loc = 1) ∧
    (∃ (s : State) (t : State) (at_ : Nat), s.mainUp = true ∧ s.pmc.dumpAt = some at_ ∧ t = s.runTo at_ ∧ t.pmc.dump.isSome = true) ∧
    (∃ (s : State) (req : Req), s.takes req 0x12 0 R.reg_PMC_DUMP_CMD ∧ s.pmc.dump.isSome = false ∧ s.rd R.PMC_DUMP_BASE_loc = 1) ∧
    (∃ (s : State) (req : Req), s.takes req 0x12 0 R.reg_PMC_DUMP_CMD ∧ s.rd R.PMC_DUMP_BASE_loc = 0) ∧
    (∃ (s : State) (t : State) (u : State) (d : DumpRec) (a : Nat), s.mainUp = true ∧ s.pmc.dump = some d ∧ s.rd R.PMC_DUMP_BASE_loc = 1 ∧ a = s.rd R.PMC_DUMP_BASE_addr * 32768 + (d.seq %
      2 ^ min (s.rd R.PMC_DUMP_CFG_log2_slots) 12) * 32768 ∧ s.writeFor 0 true (a + 64) (d.values.flatMap (leBytes 8)) =
      (.ok [], t) ∧ t.writeFor 0 true a d.header = (.ok [], u)) ∧
    (∃ (s : State) (t : State) (d : DumpRec) (a : Nat) (st : Nat), s.mainUp = true ∧ s.pmc.dump = some d ∧ s.rd R.PMC_DUMP_BASE_loc = 1 ∧ a = s.rd R.PMC_DUMP_BASE_addr * 32768 + (d.seq %
      2 ^ min (s.rd R.PMC_DUMP_CFG_log2_slots) 12) * 32768 ∧ s.writeFor 0 true (a + 64) (d.values.flatMap (leBytes 8)) =
      (.fail st, t)) :=
  ⟨⟨dumping, (dumping.runTo 0), 0, by decide +kernel⟩,
   ⟨dumpBusy, (dumpBusy.runTo 0), 0, by decide +kernel⟩,
   ⟨dumping, .host, by decide +kernel⟩,
   ⟨up, .host, by decide +kernel⟩,
   ⟨dumpBusy, ((dumpBusy.writeFor 0 true 0x8040 (leBytes 8 9)).2), (((dumpBusy.writeFor 0 true 0x8040 (leBytes 8 9)).2.writeFor 0 true 0x8000 aDump.header).2), aDump, 0x8000, by decide +kernel⟩,
   ⟨(dumpBusy.wr R.PMC_DUMP_BASE_addr 33554432), (((dumpBusy.wr R.PMC_DUMP_BASE_addr 33554432).writeFor 0 true 0x10000008040 (leBytes 8 9)).2), aDump, 0x10000008000, St.ring_range, by decide +kernel⟩⟩

/-- Values meet the hypotheses of clauses 1 to 6 of SuppliesAndTemperature. -/
theorem witness_SuppliesAndTemperature_1 :
    (∃ (s : State) (rail : Fin 3) (mv : Nat), s.mainUp = true ∧ mv < s.rd R.HLT_SUPPLY_CFG_warn_mv rail ∧ s.on R.HLT_STATUS_brace = false) ∧
    (∃ (s : State) (rail : Fin 3) (mv : Nat), s.mainUp = true ∧ s.rd R.HLT_SUPPLY_CFG_warn_mv rail ≤ mv) ∧
    (∃ (s : State) (t : State) (core : Nat) (fc : Nat) (sram : Nat) (us : Nat), s.mainUp = true ∧ s.on R.HLT_STATUS_brace = true ∧ s.rd R.HLT_SUPPLY_CFG_warn_mv 0 + s.rd R.HLT_SUPPLY_CFG_hyst_mv 0 ≤
      core ∧ s.rd R.HLT_SUPPLY_CFG_warn_mv 1 + s.rd R.HLT_SUPPLY_CFG_hyst_mv 1 ≤ fc ∧ s.rd R.HLT_SUPPLY_CFG_warn_mv 2 +
      s.rd R.HLT_SUPPLY_CFG_hyst_mv 2 ≤ sram ∧ t = (((((((s.railSeen 0 core).railLow 0 false).railSeen 1 fc).railLow 1
      false).railSeen 2 sram).railLow 2 false).runTo (s.hlt.braceAt + 10 * unitsPerUs)) ∧ us = (t.time.ft -
      s.hlt.braceAt) / unitsPerUs) ∧
    (∃ (s : State) (core : Nat) (fc : Nat) (sram : Nat), s.mainUp = true ∧ s.on R.HLT_STATUS_brace = true ∧ core < s.rd R.HLT_SUPPLY_CFG_warn_mv 0 ∧ s.rd
      R.HLT_SUPPLY_CFG_warn_mv 1 ≤ fc ∧ s.rd R.HLT_SUPPLY_CFG_warn_mv 2 ≤ sram) ∧
    (∃ (s : State) (rail : Fin 3) (mv : Nat), s.mainUp = true ∧ mv < s.rd R.HLT_SUPPLY_CFG_reset_mv rail ∧ s.isl.mainPg = true ∧ s.isl.up = true ∧ s.isl.hold.isNone =
      true) ∧
    (∃ (s : State) (rail : Fin 3) (mv : Nat), s.mainUp = true ∧ s.rd R.HLT_SUPPLY_CFG_reset_mv rail ≤ mv) :=
  ⟨⟨up, 1, 700, by decide +kernel⟩,
   ⟨up, 1, 740, by decide +kernel⟩,
   ⟨(up.wr R.HLT_STATUS_brace 1), (((((((((up.wr R.HLT_STATUS_brace 1).railSeen 0 750).railLow 0 false).railSeen 1 750).railLow 1 false).railSeen 2 850).railLow 2 false).runTo (10 * unitsPerUs))), 750, 750, 850, 10, by decide +kernel⟩,
   ⟨(up.wr R.HLT_STATUS_brace 1), 700, 750, 850, by decide +kernel⟩,
   ⟨up, 2, 700, by decide +kernel⟩,
   ⟨up, 2, 800, by decide +kernel⟩⟩

/-- Values meet the hypotheses of clauses 7 to 11 of SuppliesAndTemperature. -/
theorem witness_SuppliesAndTemperature_2 :
    (∃ (s : State) (t : State) (u : State) (l : List (Option Int)) (i : Nat) (c : Int), s.mainUp = true ∧ t = (List.range 18).foldl (fun s i => s.sensorSeen i ((l[i]?).getD none)) s ∧ t.hottest = some (i, c)
      ∧ (List.range 16).all (fun i => t.on R.HLT_TEMP_fault i) = false ∧ t.rd R.HLT_THERM_STATUS_step = 1 ∧ (t.rd
      R.HLT_THERM_CFG_step2_c : Int) ≤ c ∧ c < (t.rd R.HLT_THERM_CFG_trip_c : Int) ∧ c ≤ signed 8 (t.rd
      R.HLT_THERM_STATUS_peak_c) ∧ u = ((((t.wr R.HLT_THERM_STATUS_max_c (tempByte c)).wr R.HLT_THERM_STATUS_max_sensor
      i).wr R.HLT_THERM_STATUS_warn 1).wr R.HLT_THERM_STATUS_step 2)) ∧
    (∃ (s : State) (t : State) (u : State) (l : List (Option Int)) (i : Nat) (c : Int), s.mainUp = true ∧ t = (List.range 18).foldl (fun s i => s.sensorSeen i ((l[i]?).getD none)) s ∧ t.hottest = some (i, c)
      ∧ (List.range 16).all (fun i => t.on R.HLT_TEMP_fault i) = false ∧ t.rd R.HLT_THERM_STATUS_step = 2 ∧ t.rd
      R.HLT_THERM_CFG_hyst_c = 3 ∧ c ≤ (t.rd R.HLT_THERM_CFG_step2_c : Int) - 3 ∧ (t.rd R.HLT_THERM_CFG_step1_c : Int) ≤
      c ∧ c < (t.rd R.HLT_THERM_CFG_trip_c : Int) ∧ c ≤ signed 8 (t.rd R.HLT_THERM_STATUS_peak_c) ∧ u = ((((t.wr
      R.HLT_THERM_STATUS_max_c (tempByte c)).wr R.HLT_THERM_STATUS_max_sensor i).wr R.HLT_THERM_STATUS_warn 1).wr
      R.HLT_THERM_STATUS_step 1)) ∧
    (∃ (s : State) (t : State) (l : List (Option Int)) (i : Nat) (c : Int), s.mainUp = true ∧ t = (List.range 18).foldl (fun s i => s.sensorSeen i ((l[i]?).getD none)) s ∧ t.hottest = some (i, c)
      ∧ (List.range 16).all (fun i => t.on R.HLT_TEMP_fault i) = false ∧ t.rd R.HLT_THERM_STATUS_step = 2 ∧ (t.rd
      R.HLT_THERM_CFG_step2_c : Int) ≤ c ∧ c < (t.rd R.HLT_THERM_CFG_trip_c : Int) ∧ c ≤ signed 8 (t.rd
      R.HLT_THERM_STATUS_peak_c)) ∧
    (∃ (s : State) (die : Int) (romOk : Bool) (h : Hold) (t : State), s.isl.hold = some h ∧ h.cause = 2 ∧ t = s.runIsland (h.since + unitsPerSec) ∧ (t.rd R.HLT_THERM_CFG_warn_c : Int) ≤ die) ∧
    (∃ (s : State) (die : Int) (romOk : Bool) (h : Hold) (t : State), s.isl.hold = some h ∧ h.cause = 2 ∧ t = s.runIsland (h.since + unitsPerSec) ∧ die < (t.rd R.HLT_THERM_CFG_warn_c : Int)
      ∧ t.isl.mainPg = true) :=
  ⟨⟨(hot 1), (seen (hot 1) 104), ((((((seen (hot 1) 104).wr R.HLT_THERM_STATUS_max_c 104).wr R.HLT_THERM_STATUS_max_sensor 4).wr R.HLT_THERM_STATUS_warn 1).wr R.HLT_THERM_STATUS_step 2)), (temps 104), 4, 104, by decide +kernel⟩,
   ⟨(hot 2), (seen (hot 2) 100), ((((((seen (hot 2) 100).wr R.HLT_THERM_STATUS_max_c 100).wr R.HLT_THERM_STATUS_max_sensor 4).wr R.HLT_THERM_STATUS_warn 1).wr R.HLT_THERM_STATUS_step 1)), (temps 100), 4, 100, by decide +kernel⟩,
   ⟨(hot 2), (seen (hot 2) 104), (temps 104), 4, 104, by decide +kernel⟩,
   ⟨tripped, 95, true, ({ cause := 2, since := 0 }), (tripped.runIsland unitsPerSec), by decide +kernel⟩,
   ⟨tripped, 94, true, ({ cause := 2, since := 0 }), (tripped.runIsland unitsPerSec), by decide +kernel⟩⟩

/-- Values meet the hypotheses of clauses 1 to 6 of UnitCommands. -/
theorem witness_UnitCommands_1 :
    (∃ (s : State) (t : State) (req : Req) (kind : Fin 8) (index : Fin 128) (drain : Bool) (force : Bool), s.takes req 0x13 0 R.reg_HLT_CMD ∧ t = s.unitPut 1 kind index drain force ∧ kind.val < 6 ∧ kind.val ≠ 3 ∧ kind.val ≠ 4 ∧
      kind.val ≠ 5 ∧ kind.val ≠ 2 ∧ t.hltCheck kind index 1 drain force = 0 ∧ t.unitState kind index = 0) ∧
    (∃ (s : State) (t : State) (req : Req) (kind : Fin 8) (index : Fin 128) (drain : Bool) (force : Bool) (st : Nat), s.takes req 0x13 0 R.reg_HLT_CMD ∧ t = s.unitPut 1 kind index drain force ∧ st = t.hltCheck kind index 1 drain force ∧
      st ≠ 0) ∧
    (∃ (s : State) (t : State) (req : Req) (kind : Fin 8) (index : Fin 128) (drain : Bool) (force : Bool), s.takes req 0x13 0 R.reg_HLT_CMD ∧ t = s.unitPut 2 kind index drain force ∧ kind.val = 2 ∧ t.hltCheck kind index 2 drain
      force = 0) ∧
    (∃ (s : State) (t : State) (req : Req) (kind : Fin 8) (index : Fin 128) (drain : Bool) (force : Bool) (st : Nat), s.takes req 0x13 0 R.reg_HLT_CMD ∧ t = s.unitPut 2 kind index drain force ∧ st = t.hltCheck kind index 2 drain force ∧
      st ≠ 0) ∧
    (∃ (s : State) (t : State) (req : Req) (kind : Fin 8) (index : Fin 128), s.takes req 0x13 0 R.reg_HLT_CMD ∧ t = s.unitPut 3 kind index false false ∧ kind.val = 2 ∧ t.hltCheck 2 index 3 false
      false = 0 ∧ t.unitState 2 index = 4) ∧
    (∃ (s : State) (t : State) (req : Req) (kind : Fin 8) (index : Fin 128), s.takes req 0x13 0 R.reg_HLT_CMD ∧ t = s.unitPut 3 kind index false false ∧ kind.val = 6 ∧ t.hltCheck 6 index 3 false
      false = 0) :=
  ⟨⟨up, (up.unitPut 1 1 7 true false), .host, 1, 7, true, false, by decide +kernel⟩,
   ⟨up, (up.unitPut 1 1 64 true false), .host, 1, 64, true, false, St.hlt_unit, by decide +kernel⟩,
   ⟨up, (up.unitPut 2 2 7 true false), .host, 2, 7, true, false, by decide +kernel⟩,
   ⟨(up.setUnit 2 7 4), ((up.setUnit 2 7 4).unitPut 2 2 7 true false), .host, 2, 7, true, false, St.hlt_unit, by decide +kernel⟩,
   ⟨(up.setUnit 2 7 4), ((up.setUnit 2 7 4).unitPut 3 2 7 false false), .host, 2, 7, by decide +kernel⟩,
   ⟨(up.wr R.HLT_EPOCH_HELD_held 0x20 1), ((up.wr R.HLT_EPOCH_HELD_held 0x20 1).unitPut 3 6 69 false false), .host, 6, 69, by decide +kernel⟩⟩

/-- Values meet the hypotheses of clauses 7 to 12 of UnitCommands. -/
theorem witness_UnitCommands_2 :
    (∃ (s : State) (kind : Fin 8) (i : Fin 128) (c : HltCmd), s.mainUp = true ∧ s.due = [] ∧ s.hltCmd? kind i = some c ∧ s.unitState kind i = 1 ∧ s.drained kind i = true ∧ c.op = 2) ∧
    (∃ (s : State) (kind : Fin 8) (i : Fin 128) (c : HltCmd), s.mainUp = true ∧ s.due = [] ∧ s.hltCmd? kind i = some c ∧ s.unitState kind i = 1 ∧ s.drained kind i = true ∧ c.op = 1 ∧
      kind.val = 1 ∧ c.kind = 1 ∧ c.index = i) ∧
    (∃ (s : State) (core : Fin 64) (c : HltCmd), s.mainUp = true ∧ s.due = [] ∧ s.hltCmd? 1 core = some c ∧ s.unitState 1 core = 1 ∧ s.drained 1 core = false ∧ c.force =
      false) ∧
    (∃ (s : State) (t : State) (core : Fin 64) (c : HltCmd), s.mainUp = true ∧ s.hltCmd? 1 core = some c ∧ s.unitState 1 core = 1 ∧ s.drained 1 core = false ∧ c.force = true ∧ t =
      (List.range 16).foldl (fun s k => s.threadDisable (16 * core + k)) (s.runTo (c.since + max 1 (s.rd
      R.HLT_DRAIN_CFG_drain_ms) * unitsPerMs))) ∧
    (∃ (s : State) (kind : Fin 8) (i : Fin 128) (us : Nat) (c : HltCmd), s.mainUp = true ∧ s.hltCmd? kind i = some c ∧ s.unitState kind i = 2) ∧
    (∃ (s : State) (kind : Fin 8) (i : Fin 128) (us : Nat) (c : HltCmd), s.mainUp = true ∧ s.hltCmd? kind i = some c ∧ s.unitState kind i = 2 ∧ (c.wasFenced && c.op == 1) = false ∧ kind.val = 2) :=
  ⟨⟨(unitIn 2 7 1 2), 2, 7, ({ kind := 2, index := 7, op := 2, force := false, since := 0, wasFenced := false }), by decide +kernel⟩,
   ⟨(unitIn 1 7 1 1), 1, 7, ({ kind := 1, index := 7, op := 1, force := false, since := 0, wasFenced := false }), by decide +kernel⟩,
   ⟨((unitIn 1 7 1 1).setHart 115 { state := 1 }), 7, ({ kind := 1, index := 7, op := 1, force := false, since := 0, wasFenced := false }), by decide +kernel⟩,
   ⟨((unitDo 1 7 1 1 true).setHart 115 { state := 1 }), drainForced, 7, ({ kind := 1, index := 7, op := 1, force := true, since := 0, wasFenced := false }), by decide +kernel⟩,
   ⟨(unitIn 1 7 2 1), 1, 7, 900, ({ kind := 1, index := 7, op := 1, force := false, since := 0, wasFenced := false }), by decide +kernel⟩,
   ⟨(unitIn 2 7 2 3), 2, 7, 900, ({ kind := 2, index := 7, op := 3, force := false, since := 0, wasFenced := false }), by decide +kernel⟩⟩

/-- Values meet the hypotheses of clauses 13 to 14 of UnitCommands. -/
theorem witness_UnitCommands_3 :
    (∃ (s : State) (kind : Fin 8) (i : Fin 128) (us : Nat) (c : HltCmd), s.mainUp = true ∧ s.hltCmd? kind i = some c ∧ s.unitState kind i = 2 ∧ (c.wasFenced && c.op == 1) = false ∧ kind.val = 5) ∧
    (∃ (s : State) (pc : Fin 64) (c : HltCmd), s.mainUp = true ∧ s.hltCmd? 5 pc = some c ∧ s.unitState 5 pc = 3) :=
  ⟨⟨(unitIn 5 7 2 1), 5, 7, 900, ({ kind := 5, index := 7, op := 1, force := false, since := 0, wasFenced := false }), by decide +kernel⟩,
   ⟨(unitIn 5 7 3 1), 7, ({ kind := 5, index := 7, op := 1, force := false, since := 0, wasFenced := false }), by decide +kernel⟩⟩

/-- Values meet the hypotheses of clauses 1 to 6 of BusesAndMctp. -/
theorem witness_BusesAndMctp_1 :
    (∃ (s : State) (b : Fin 4), s.isl.up = true) ∧
    (∃ (s : State) (a : Fin 128), s.isl.up = true ∧ s.isl.dyn = 0) ∧
    (∃ (s : State) (a : Fin 128), s.isl.up = true ∧ s.isl.dyn ≠ 0) ∧
    (∃ (s : State) (a : Fin 128), s.isl.up = true ∧ s.isl.dyn = 0) ∧
    (∃ (s : State), s.isl.up = true) ∧
    (∃ (s : State), s.isl.up = true) :=
  ⟨⟨up, 2, by decide +kernel⟩,
   ⟨up, 9, by decide +kernel⟩,
   ⟨({ up with isl := { up.isl with dyn := 8 } }), 9, by decide +kernel⟩,
   ⟨up, 9, by decide +kernel⟩,
   ⟨({ up with isl := { up.isl with dyn := 8 } }), by decide +kernel⟩,
   ⟨({ up with isl := { up.isl with dyn := 8 } }), by decide +kernel⟩⟩

/-- Values meet the hypotheses of clauses 7 to 12 of BusesAndMctp. -/
theorem witness_BusesAndMctp_2 :
    (∃ (s : State) (src : Fin 256) (tag : Fin 16) (seq : Fin 4) (data : List Byte), s.isl.up = true ∧ data.length ≤ 64 ∧ s.isl.asm = []) ∧
    (∃ (s : State) (src : Fin 256) (tag : Fin 16) (seq : Fin 4) (data : List Byte), s.isl.up = true ∧ data.length ≤ 64 ∧ s.isl.asm = []) ∧
    (∃ (s : State) (src : Fin 256) (tag : Fin 16) (seq : Fin 4) (data : List Byte) (a : McAsm), s.isl.up = true ∧ data.length ≤ 64 ∧ s.isl.asm = [a] ∧ a.src = src ∧ a.tag = tag ∧ a.seq = seq ∧ a.data.length +
      data.length ≤ 1088) ∧
    (∃ (s : State) (src : Fin 256) (tag : Fin 16) (eom : Bool) (seq : Fin 4) (data : List Byte) (a : McAsm), s.isl.up = true ∧ data.length ≤ 64 ∧ s.isl.asm = [a] ∧ a.src = src ∧ a.tag = tag ∧ a.seq ≠ seq) ∧
    (∃ (s : State) (src : Fin 256) (tag : Fin 16) (som : Bool) (eom : Bool) (seq : Fin 4) (data : List Byte), s.isl.up = true ∧ 64 < data.length ∧ s.isl.asm = []) ∧
    (∃ (s : State) (e : Fin 256), s.isl.up = true ∧ e.val ≠ 0 ∧ e.val ≠ 255) :=
  ⟨⟨up, 8, 9, 3, ([1, 2]), by decide +kernel⟩,
   ⟨up, 8, 9, 3, ([1, 2]), by decide +kernel⟩,
   ⟨assembling, 8, 9, 3, ([1, 2]), ({ src := 8, tag := 9, data := [7], seq := 3 }), by decide +kernel⟩,
   ⟨assembling, 8, 9, true, 1, ([1, 2]), ({ src := 8, tag := 9, data := [7], seq := 3 }), by decide +kernel⟩,
   ⟨up, 8, 9, true, true, 1, (leBytes 65 0), by decide +kernel⟩,
   ⟨up, 9, by decide +kernel⟩⟩

/-- Values meet the hypotheses of clauses 13 to 18 of BusesAndMctp. -/
theorem witness_BusesAndMctp_3 :
    (∃ (s : State), s.isl.up = true) ∧
    (∃ (s : State), s.isl.up = true) ∧
    (∃ (s : State) (t : Fin 256), s.isl.up = true ∧ t = 0 ∨ t = 1 ∨ t = 0x7F ∨ t = 0xFF) ∧
    (∃ (s : State) (t : Fin 256), s.isl.up = true ∧ ¬ (t = 0 ∨ t = 1 ∨ t = 0x7F ∨ t = 0xFF)) ∧
    (∃ (s : State), s.isl.up = true) ∧
    (∃ (s : State), s.isl.up = true) :=
  ⟨⟨up, by decide +kernel⟩,
   ⟨up, by decide +kernel⟩,
   ⟨up, 1, by decide +kernel⟩,
   ⟨up, 3, by decide +kernel⟩,
   ⟨up, by decide +kernel⟩,
   ⟨up, by decide +kernel⟩⟩

/-- Values meet the hypotheses of clauses 19 to 23 of BusesAndMctp. -/
theorem witness_BusesAndMctp_4 :
    (∃ (s : State) (cmd : Fin 256), s.isl.up = true) ∧
    (∃ (s : State) (e : EventRec) (l : List EventRec), s.isl.up = true ∧ s.logq = e :: l ∧ s.isl.log.length < 8192) ∧
    (∃ (s : State), s.isl.up = true ∧ s.mainUp = true ∧ s.rd R.FT_STATUS_state ≠ 0) ∧
    (∃ (s : State) (req : Req) (q : Nat), s.takes req 0x14 0 R.reg_MGT_LOG_IDX ∧ q < 2 ^ 64 ∧ (s.isl.log.any (·.1 == q)) = false) ∧
    (∃ (s : State) (req : Req) (q : Nat) (p : Nat × EventRec), s.takes req 0x14 0 R.reg_MGT_LOG_IDX ∧ q < 2 ^ 64 ∧ s.isl.log.find? (·.1 == q) = some p) :=
  ⟨⟨up, 99, by decide +kernel⟩,
   ⟨({ up with logq := [{ stamp := 0, code := 9, block := 3, inst := 0, detail := [1] }] }), ({ stamp := 0, code := 9, block := 3, inst := 0, detail := [1] }), [], by decide +kernel⟩,
   ⟨(up.wr R.FT_STATUS_state 1), by decide +kernel⟩,
   ⟨up, .mgmt, 7, by decide +kernel⟩,
   ⟨logged, .mgmt, 7, ((7, { stamp := 0, code := 9, block := 3, inst := 0, detail := [1] })), by decide +kernel⟩⟩

/-- Values meet the hypotheses of clauses 1 to 6 of Pldm. -/
theorem witness_Pldm_1 :
    (∃ (s : State) (t : Fin 256), s.isl.up = true ∧ t.val ≠ 0 ∧ t.val ≠ 255) ∧
    (∃ (s : State), s.isl.up = true) ∧
    (∃ (s : State) (t : Fin 256), s.isl.up = true ∧ t = 0 ∨ t = 2 ∨ t = 5) ∧
    (∃ (s : State), s.isl.up = true) ∧
    (∃ (s : State) (t : Fin 256) (l : List Nat), s.isl.up = true ∧ pldmCommands t = some l) ∧
    (∃ (s : State) (t : Fin 256) (c : Fin 256), s.isl.up = true) :=
  ⟨⟨up, 9, by decide +kernel⟩,
   ⟨up, by decide +kernel⟩,
   ⟨up, 5, by decide +kernel⟩,
   ⟨up, by decide +kernel⟩,
   ⟨up, 0, ([1, 2, 3, 4, 5]), by decide +kernel⟩,
   ⟨up, 0, 99, by decide +kernel⟩⟩

/-- Values meet the hypotheses of clauses 7 to 12 of Pldm. -/
theorem witness_Pldm_2 :
    (∃ (s : State), s.isl.up = true) ∧
    (∃ (s : State) (n : Nat), s.isl.up = true) ∧
    (∃ (s : State) (i : Fin 65536), s.mainUp = true ∧ s.isl.up = true ∧ 2 ≤ i.val ∧ i.val ≤ 18 ∧ s.on R.HLT_TEMP_fault (i - 1) = false) ∧
    (∃ (s : State) (i : Fin 65536), s.mainUp = false ∧ s.isl.up = true ∧ 2 ≤ i.val ∧ i.val ≤ 18) ∧
    (∃ (s : State) (i : Fin 65536), s.mainUp = true ∧ s.isl.up = true ∧ 40 ≤ i.val ∧ i.val < 48) ∧
    (∃ (s : State) (n : Fin 65536), s.isl.up = true) :=
  ⟨⟨up, by decide +kernel⟩,
   ⟨up, 3, by decide +kernel⟩,
   ⟨up, 7, by decide +kernel⟩,
   ⟨({ up with sec := { up.sec with mainUp := false } }), 7, by decide +kernel⟩,
   ⟨up, 41, by decide +kernel⟩,
   ⟨up, 256, by decide +kernel⟩⟩

/-- Values meet the hypotheses of clauses 13 to 18 of Pldm. -/
theorem witness_Pldm_3 :
    (∃ (s : State), s.isl.up = true ∧ s.isl.evBuf = none) ∧
    (∃ (s : State) (id : Nat) (v : Nat) (n : Nat), s.isl.up = true ∧ s.isl.evBuf = some n ∧ sensorIds.findSome? (fun id => match s.sensorClass id with | some v => if v = Store.get 0 s.isl.sensed id then none else some (id, v) | none => none) = some (id, v)) ∧
    (∃ (s : State), s.isl.up = true ∧ s.mainHeld = false) ∧
    (∃ (s : State) (q : Nat), s.isl.up = true ∧ s.mainHeld = false ∧ q = s.rd R.SEC_IMAGE_INFO_seq ∧ s.slotSt (1 - s.rd R.SEC_BOOT_STATUS_slot) ≠
      .valid) ∧
    (∃ (s : State), s.isl.up = true ∧ s.mboxReady = true ∧ s.sec.upd.isSome = false ∧ s.updSess.isSome = false) ∧
    (∃ (s : State), s.isl.up = true ∧ s.sec.upd.isSome = true) :=
  ⟨⟨up, by decide +kernel⟩,
   ⟨({ up.wr R.HLT_TEMP_temp_c 100 3 with isl := { up.isl with evBuf := some 256 } }), 4, 2, 256, by decide +kernel⟩,
   ⟨up, by decide +kernel⟩,
   ⟨up, 0, by decide +kernel⟩,
   ⟨(up.wr R.SEC_BOOT_STATUS_state 3), by decide +kernel⟩,
   ⟨({ up with sec := { up.sec with upd := some { mbox := 0, target := 1, hdr := [] } } }), by decide +kernel⟩⟩

/-- Values meet the hypotheses of clauses 19 to 24 of Pldm. -/
theorem witness_Pldm_4 :
    (∃ (s : State) (u : UpdSess), s.isl.up = true ∧ s.updSess = some u ∧ u.running = false) ∧
    (∃ (s : State), s.isl.up = true ∧ s.updSess = none ∧ s.mainHeld = false) ∧
    (∃ (s : State) (u : UpdSess), s.isl.up = true ∧ s.updSess = some u ∧ u.table = true ∧ u.running = false) ∧
    (∃ (s : State) (u : UpdSess) (d : List Byte) (f : Bool) (r : Bool), s.isl.up = true ∧ s.updSess = some u ∧ u.running = true ∧ u.done = false ∧ d.length = 1024 ∧ 0 < u.offset ∧
      u.chunk.length + 1024 < 4096) ∧
    (∃ (s : State) (t : State) (u : UpdSess) (d : List Byte) (f : Bool) (r : Bool), s.isl.up = true ∧ s.updSess = some u ∧ u.running = true ∧ u.done = false ∧ d.length = 1024 ∧ u.offset = 0 ∧ t =
      (s.setMbox 1 0 d).updBegin 1 f ∧ t.secStatus ≠ 0) ∧
    (∃ (s : State) (u : UpdSess), s.isl.up = true ∧ s.updSess = some u ∧ u.done = true) :=
  ⟨⟨(updating {}), {}, by decide +kernel⟩,
   ⟨up, by decide +kernel⟩,
   ⟨(updating { table := true }), ({ table := true }), by decide +kernel⟩,
   ⟨updatingNow, ({ table := true, running := true, offset := 1024, body := 4096 }), (leBytes 1024 5), true, true, by decide +kernel⟩,
   ⟨(updating { table := true, running := true }), (((updating { table := true, running := true }).setMbox 1 0 (leBytes 1024 5)).updBegin 1 true), ({ table := true, running := true }), (leBytes 1024 5), true, true, by decide +kernel⟩,
   ⟨(updating { table := true, running := true, done := true }), ({ table := true, running := true, done := true }), by decide +kernel⟩⟩

/-- Values meet the hypotheses of clauses 25 to 28 of Pldm. -/
theorem witness_Pldm_5 :
    (∃ (s : State) (u : UpdSess), s.isl.up = true ∧ s.updSess = some u ∧ u.done = false) ∧
    (∃ (s : State), s.isl.up = true ∧ s.updSess = none ∧ s.mainHeld = false) ∧
    (∃ (s : State) (u : UpdSess), s.isl.up = true ∧ s.updSess = some u ∧ u.running = true) ∧
    (∃ (s : State) (u : UpdSess), s.isl.up = true ∧ s.updSess = some u ∧ u.running = false) :=
  ⟨⟨(updating {}), {}, by decide +kernel⟩,
   ⟨up, by decide +kernel⟩,
   ⟨(updating { table := true, running := true }), ({ table := true, running := true }), by decide +kernel⟩,
   ⟨(updating {}), {}, by decide +kernel⟩⟩

/-- Values meet the hypotheses of clauses 1 to 6 of VendorMessages. -/
theorem witness_VendorMessages_1 :
    (∃ (s : State) (i : Fin 256) (off : Nat) (size : Nat), s.isl.up = true ∧ s.mgmtBad off size = true) ∧
    (∃ (s : State) (i : Fin 256) (off : Nat) (size : Nat), s.isl.up = true ∧ s.mgmtBad off size = false ∧ s.mgmtHeld off = true) ∧
    (∃ (s : State) (i : Fin 256) (off : Nat) (size : Nat), s.isl.up = true ∧ s.mgmtBad off size = false ∧ s.mgmtHeld off = false) ∧
    (∃ (s : State) (i : Fin 256) (off : Nat) (size : Nat) (v : Nat), s.isl.up = true ∧ s.mgmtBad off size = true) ∧
    (∃ (s : State) (i : Fin 256) (off : Nat) (size : Nat) (v : Nat), s.isl.up = true ∧ s.mgmtBad off size = false ∧ s.mgmtHeld off = false ∧ s.mgmtOwner off size = false) ∧
    (∃ (s : State) (i : Fin 256) (off : Nat) (size : Nat) (v : Nat), s.isl.up = true ∧ s.mgmtBad off size = false ∧ s.mgmtHeld off = false ∧ s.mgmtOwner off size = true) :=
  ⟨⟨up, 3, 2, 4, by decide +kernel⟩,
   ⟨(State.reset.modIsl (fun i => { i with up := true })), 3, 0, 4, by decide +kernel⟩,
   ⟨up, 3, 0, 4, by decide +kernel⟩,
   ⟨up, 3, 2, 4, 7, by decide +kernel⟩,
   ⟨up, 3, 0x3C00040, 4, 0, by decide +kernel⟩,
   ⟨(up.wr hdrOwner 0 0x3A00000), 3, 0x3A00040, 4, 0, by decide +kernel⟩⟩

/-- Values meet the hypotheses of clauses 7 to 12 of VendorMessages. -/
theorem witness_VendorMessages_2 :
    (∃ (s : State) (i : Fin 256) (q : Nat) (n : Nat), s.isl.up = true ∧ 0 < n ∧ n ≤ 16) ∧
    (∃ (s : State) (i : Fin 256) (q : Nat) (n : Nat), s.isl.up = true ∧ n = 0 ∨ 16 < n) ∧
    (∃ (s : State) (i : Fin 256) (d : List Byte), s.isl.up = true ∧ s.mainHeld = false ∧ 0 < d.length ∧ d.length ≤ 256 ∧ s.on R.MGT_M2H_STATUS_valid = true) ∧
    (∃ (s : State) (i : Fin 256) (d : List Byte), s.isl.up = true ∧ s.mainHeld = false ∧ d.length = 8 ∧ s.on R.MGT_M2H_STATUS_valid = false) ∧
    (∃ (s : State) (i : Fin 256), s.isl.up = true ∧ s.mainHeld = false) ∧
    (∃ (s : State) (i : Fin 256) (c : Fin 256), s.isl.up = true) :=
  ⟨⟨logged, 3, 7, 1, by decide +kernel⟩,
   ⟨logged, 3, 7, 17, by decide +kernel⟩,
   ⟨(up.wr R.MGT_M2H_STATUS_valid 1), 3, [1], by decide +kernel⟩,
   ⟨up, 3, ([1, 2, 3, 4, 5, 6, 7, 8]), by decide +kernel⟩,
   ⟨up, 3, by decide +kernel⟩,
   ⟨up, 3, 99, by decide +kernel⟩⟩

/-- Values meet the hypotheses of clauses 13 to 15 of VendorMessages. -/
theorem witness_VendorMessages_3 :
    (∃ (s : State) (req : Req) (n : Fin 512), s.takes req 0x14 0 R.reg_MGT_H2M_CTRL ∧ s.on R.MGT_H2M_CTRL_busy = false ∧ 0 < n.val ∧ n.val ≤ 256) ∧
    (∃ (s : State) (req : Req) (n : Fin 512), s.takes req 0x14 0 R.reg_MGT_H2M_CTRL ∧ s.on R.MGT_H2M_CTRL_busy = true) ∧
    (∃ (s : State), s.isl.up = true ∧ s.on R.MGT_H2M_CTRL_busy = true) :=
  ⟨⟨(up.wr R.MGT_H2M_BUF_data 7 0), .host, 4, by decide +kernel⟩,
   ⟨(up.wr R.MGT_H2M_CTRL_busy 1), .host, 4, by decide +kernel⟩,
   ⟨(up.wr R.MGT_H2M_CTRL_busy 1), by decide +kernel⟩⟩

/-- Values meet the hypotheses of clauses 1 to 6 of NcSi. -/
theorem witness_NcSi_1 :
    (∃ (s : State) (t : State) (n : Fin 8), s.isl.up = true ∧ s.ncsiOpen n true = some t) ∧
    (∃ (s : State) (t : State) (n : Fin 8), s.isl.up = true ∧ s.ncsiOpen n true = some t) ∧
    (∃ (s : State) (t : State) (n : Fin 8), s.isl.up = true ∧ s.ncsiOpen n false = some t) ∧
    (∃ (s : State) (t : State) (n : Fin 8), s.isl.up = true ∧ s.ncsiOpen n false = some t) ∧
    (∃ (s : State) (t : State) (n : Fin 8), s.isl.up = true ∧ s.ncsiOpen n false = some t) ∧
    (∃ (s : State) (t : State) (n : Fin 8), s.isl.up = true ∧ s.ncsiOpen n false = some t) :=
  ⟨⟨up, (up.ncsiCounted 3), 3, by decide +kernel⟩,
   ⟨up, (up.ncsiCounted 3), 3, by decide +kernel⟩,
   ⟨ncsiUp, (ncsiUp.ncsiCounted 3), 3, by decide +kernel⟩,
   ⟨ncsiUp, (ncsiUp.ncsiCounted 3), 3, by decide +kernel⟩,
   ⟨ncsiUp, (ncsiUp.ncsiCounted 3), 3, by decide +kernel⟩,
   ⟨ncsiUp, (ncsiUp.ncsiCounted 3), 3, by decide +kernel⟩⟩

/-- Values meet the hypotheses of clauses 7 to 12 of NcSi. -/
theorem witness_NcSi_2 :
    (∃ (s : State) (t : State) (n : Fin 8), s.isl.up = true ∧ s.ncsiOpen n false = some t) ∧
    (∃ (s : State) (t : State) (n : Fin 8) (m : Nat), s.isl.up = true ∧ s.ncsiOpen n false = some t ∧ m < 2 ^ 32) ∧
    (∃ (s : State) (t : State) (n : Fin 8), s.isl.up = true ∧ s.ncsiOpen n false = some t) ∧
    (∃ (s : State) (t : State) (n : Fin 8) (k : Fin 2) (mac : Nat), s.isl.up = true ∧ s.ncsiOpen n false = some t ∧ mac < 2 ^ 48) ∧
    (∃ (s : State) (t : State) (n : Fin 8), s.isl.up = true ∧ s.ncsiOpen n false = some t) ∧
    (∃ (s : State) (t : State) (n : Fin 8), s.isl.up = true ∧ s.ncsiOpen n false = some t) :=
  ⟨⟨ncsiUp, (ncsiUp.ncsiCounted 3), 3, by decide +kernel⟩,
   ⟨ncsiUp, (ncsiUp.ncsiCounted 3), 3, 5, by decide +kernel⟩,
   ⟨ncsiUp, (ncsiUp.ncsiCounted 3), 3, by decide +kernel⟩,
   ⟨ncsiUp, (ncsiUp.ncsiCounted 3), 3, 1, 77, by decide +kernel⟩,
   ⟨ncsiUp, (ncsiUp.ncsiCounted 3), 3, by decide +kernel⟩,
   ⟨ncsiUp, (ncsiUp.ncsiCounted 3), 3, by decide +kernel⟩⟩

/-- Values meet the hypotheses of clauses 13 to 18 of NcSi. -/
theorem witness_NcSi_3 :
    (∃ (s : State) (t : State) (n : Fin 8) (k : Fin 4) (v : Fin 4096), s.isl.up = true ∧ s.ncsiOpen n false = some t) ∧
    (∃ (s : State) (t : State) (n : Fin 8) (m : Fin 4), s.isl.up = true ∧ s.ncsiOpen n false = some t) ∧
    (∃ (s : State) (t : State) (n : Fin 8), s.isl.up = true ∧ s.ncsiOpen n false = some t) ∧
    (∃ (s : State) (t : State) (n : Fin 8), s.isl.up = true ∧ s.ncsiOpen n false = some t) ∧
    (∃ (s : State) (t : State) (n : Fin 8), s.isl.up = true ∧ s.ncsiOpen n false = some t) ∧
    (∃ (s : State) (t : State) (n : Fin 8), s.isl.up = true ∧ s.ncsiOpen n false = some t) :=
  ⟨⟨ncsiUp, (ncsiUp.ncsiCounted 3), 3, 1, 77, by decide +kernel⟩,
   ⟨ncsiUp, (ncsiUp.ncsiCounted 3), 3, 1, by decide +kernel⟩,
   ⟨ncsiUp, (ncsiUp.ncsiCounted 3), 3, by decide +kernel⟩,
   ⟨ncsiUp, (ncsiUp.ncsiCounted 3), 3, by decide +kernel⟩,
   ⟨ncsiUp, (ncsiUp.ncsiCounted 3), 3, by decide +kernel⟩,
   ⟨ncsiUp, (ncsiUp.ncsiCounted 3), 3, by decide +kernel⟩⟩

/-- Values meet the hypotheses of clauses 19 to 24 of NcSi. -/
theorem witness_NcSi_4 :
    (∃ (s : State) (n : Fin 8), s.isl.up = true ∧ s.mainHeld = false ∧ s.portExists n = true ∧ (s.ncsi n).ready = false) ∧
    (∃ (s : State) (n : Fin 8), s.isl.up = true ∧ s.mainHeld = false ∧ s.portExists n = false) ∧
    (∃ (s : State) (n : Fin 8), s.isl.up = true ∧ s.mainHeld = true) ∧
    (∃ (s : State), s.isl.up = true) ∧
    (∃ (s : State), s.isl.up = true) ∧
    (∃ (s : State) (n : Fin 8) (c : Fin 256), s.isl.up = true ∧ s.mainHeld = false ∧ s.portExists n = true) :=
  ⟨⟨up, 3, by decide +kernel⟩,
   ⟨(up.acw hdrPreset 1 0x800000), 2, by decide +kernel⟩,
   ⟨(State.reset.modIsl (fun i => { i with up := true })), 3, by decide +kernel⟩,
   ⟨up, by decide +kernel⟩,
   ⟨up, by decide +kernel⟩,
   ⟨up, 3, 99, by decide +kernel⟩⟩

/-- Values meet the hypotheses of clauses 25 to 27 of NcSi. -/
theorem witness_NcSi_5 :
    (∃ (s : State) (t : State) (n : Fin 8) (d : List Byte), s.isl.up = true ∧ d.length ≤ 1518 ∧ s.cuffOpen = true ∧ s.portUp n = true ∧ (s.ncsi n).ready = true ∧ (s.ncsi n).tx =
      true ∧ (s.ncsi n).txq.length < 8 ∧ t = s.setNcsi n { s.ncsi n with txq := (s.ncsi n).txq ++ [d] } ∧ (s.outOf
      n).isSome = true) ∧
    (∃ (s : State) (n : Fin 8) (d : List Byte), s.isl.up = true ∧ d.length ≤ 1518 ∧ s.cuffOpen = true ∧ s.portUp n = true ∧ (s.ncsi n).ready = true ∧ (s.ncsi n).tx =
      true ∧ (s.ncsi n).txq = [] ∧ (s.outOf n).isSome = false ∧ s.stopped n 0 = false) ∧
    (∃ (s : State) (n : Fin 8) (d : List Byte), s.isl.up = true) :=
  ⟨⟨ncsiBusy, (ncsiBusy.setNcsi 5 { ready := true, tx := true, txq := [[1, 2]] }), 5, ([1, 2]), by decide +kernel⟩,
   ⟨({ ncsiBusy with tm := State.reset.tm }), 5, ([1, 2]), by decide +kernel⟩,
   ⟨up, 5, ([1, 2]), by decide +kernel⟩⟩

/-- Values meet the hypotheses of clauses 1 to 6 of RedundantPair. -/
theorem witness_RedundantPair_1 :
    (∃ (s : State) (t : State) (q : Nat), s.mainUp = true ∧ s.subsUp = [8] ∧ t = s.runTo (s.pair.sentAt + 10 * unitsPerUs) ∧ q = t.pair.hbSeq) ∧
    (∃ (s : State), s.mainUp = true ∧ s.subsUp = []) ∧
    (∃ (s : State) (t : State) (sub : Fin 2) (e : Nat × Txn) (q : Nat), s.mainUp = true ∧ s.nextTxn (8 + sub) 0x40 = some e ∧ t.pair.lastSeq = some q ∧ e.2.tag = (q + 1) % 65536 ∧ t.pair.row +
      1 < 3 ∧ t = (s.leaveRx (8 + sub) e)) ∧
    (∃ (s : State) (t : State) (u : State) (sub : Fin 2) (e : Nat × Txn) (q : Nat), s.mainUp = true ∧ s.nextTxn (8 + sub) 0x40 = some e ∧ t.pair.lastSeq = some q ∧ e.2.tag = (q + 1) % 65536 ∧ 2 ≤
      t.pair.row ∧ t = s.leaveRx (8 + sub) e ∧ t.pairState = 1 ∧ t.pair.wasLost = false ∧ e.2.sub = 0 ∧ t.ac
      R.PAR_CFG_prio < fieldLE e.2.data 2 1 ∧ t.rd R.PAR_STATUS_role = 0 ∧ u = (({ t with pair := { t.pair with row := t.pair.row + 1, lastSeq := some e.2.tag, lastHb := t.time.ft, prio := fieldLE e.2.data 2 1, partnerPrimary := true } }
      : State).wr R.PAR_STATUS_ft_offset_ns (unsigned 32 (max (-(2 ^ 31 - 1)) (min (2 ^ 31 - 1) (ft64Ns e.2.arg + (t.rd
      R.PAR_LINK_link_ns : Nat) - ft64Ns (ft64 e.2.at_))))))) ∧
    (∃ (s : State) (t : State) (u : State) (k : Nat), s.mainUp = true ∧ s.pairState = 2 ∧ k = s.ac R.PAR_CFG_miss_max ∧ t = (s.runTo (s.pair.lastHb + k * 10 *
      unitsPerUs)).addTo R.PAR_CNT_count k 5 ∧ t.pairState = 2 ∧ u = ((((t.wr R.PAR_STATUS_state 3).raise
      R.PAR_STATUS_resync).eventBoth 0x15 0 3 (List.replicate 16 0)).dropDest 72) ∧ u.rd R.PAR_STATUS_role = 0 ∧ u.ac
      R.PAR_CFG_enable ≠ 0) ∧
    (∃ (s : State) (t : State) (u : State) (k : Nat), s.mainUp = true ∧ s.pairState = 2 ∧ k = s.ac R.PAR_CFG_miss_max ∧ t = (s.runTo (s.pair.lastHb + k * 10 *
      unitsPerUs)).addTo R.PAR_CNT_count k 5 ∧ t.pairState = 2 ∧ u = ((((t.wr R.PAR_STATUS_state 3).raise
      R.PAR_STATUS_resync).eventBoth 0x15 0 3 (List.replicate 16 0)).dropDest 72) ∧ u.rd R.PAR_STATUS_role = 1 ∧ (((u.wr
      R.PAR_STATUS_role 0).sat R.PAR_STATUS_takeovers).event 0x15 0 2 (leBytes 1 0 ++ leBytes 1 u.pair.prio ++
      List.replicate 14 0)).pairActive.ac R.PAR_CFG_enable ≠ 0) :=
  ⟨⟨subUp, (subUp.runTo (10 * unitsPerUs)), 0, by decide +kernel⟩,
   ⟨up, by decide +kernel⟩,
   ⟨(beating 0), ((beating 0).leaveRx 8 (0, beat)), 0, ((0, beat)), 5, by decide +kernel⟩,
   ⟨(beating 2), ((beating 2).leaveRx 8 (0, beat)), beaten, 0, ((0, beat)), 5, by decide +kernel⟩,
   ⟨paired, ((paired.runTo (paired.ac R.PAR_CFG_miss_max * 10 * unitsPerUs)).addTo R.PAR_CNT_count (paired.ac R.PAR_CFG_miss_max) 5), (lost paired), (paired.ac R.PAR_CFG_miss_max), by decide +kernel⟩,
   ⟨(paired.wr R.PAR_STATUS_role 1), ((((paired.wr R.PAR_STATUS_role 1)).runTo (paired.ac R.PAR_CFG_miss_max * 10 * unitsPerUs)).addTo R.PAR_CNT_count (paired.ac R.PAR_CFG_miss_max) 5), (lost (paired.wr R.PAR_STATUS_role 1)), (paired.ac R.PAR_CFG_miss_max), by decide +kernel⟩⟩

/-- Values meet the hypotheses of clauses 7 to 11 of RedundantPair. -/
theorem witness_RedundantPair_2 :
    (∃ (s : State), s.mainUp = true ∧ s.pairState ≠ 2) ∧
    (∃ (s : State) (sub : Fin 2) (e : Nat × Txn), s.mainUp = true ∧ s.due = [] ∧ s.nextTxn (8 + sub) 0x41 = some e ∧ s.nextTxn (17 - (8 + sub)) 0x41 = none ∧ (s.leaveRx
      (8 + sub) e).ac R.PAR_CFG_mirror_rx = 0) ∧
    (∃ (s : State) (t : State) (sub : Fin 2) (e : Nat × Txn) (v : Nat), s.mainUp = true ∧ s.nextTxn (8 + sub) 0x41 = some e ∧ s.nextTxn (17 - (8 + sub)) 0x41 = none ∧ t = s.leaveRx (8 + sub) e
      ∧ t.ac R.PAR_CFG_mirror_rx = 1 ∧ fieldLE e.2.data 8 4 = R.reg_HLT_DRAIN_CFG.base ∧ fieldLE e.2.data 0xC 1 = 4 ∧
      fieldLE e.2.data 0x10 8 = v ∧ v < 2 ^ 32 ∧ t.blkOpen (blkOf 0x13) 0 = true ∧ t.rd hdrOwner (blkOf 0x13).base ≤ 1) ∧
    (∃ (s : State) (t : State) (sub : Fin 2) (e : Nat × Txn) (q : Nat), s.mainUp = true ∧ s.nextTxn (8 + sub) 0x01 = some e ∧ t = s.leaveRx (8 + sub) e ∧ t.pairState = 2 ∧ q = s.ac
      R.PAR_CFG_rx_pipe ∧ t.ac R.PAR_CFG_trust_slice = 1) ∧
    (∃ (s : State) (sub : Fin 2) (e : Nat × Txn), s.mainUp = true ∧ s.nextTxn (8 + sub) 0x01 = some e ∧ (s.leaveRx (8 + sub) e).pairState ≠ 2) :=
  ⟨⟨up, by decide +kernel⟩,
   ⟨(subGot mirrorTxn), 0, ((0, mirrorTxn)), by decide +kernel⟩,
   ⟨((subGot mirrorTxn).acw R.PAR_CFG_mirror_rx 1), (((subGot mirrorTxn).acw R.PAR_CFG_mirror_rx 1).leaveRx 8 (0, mirrorTxn)), 0, ((0, mirrorTxn)), (7 * 65536), by decide +kernel⟩,
   ⟨((subGot transit).wr R.PAR_STATUS_state 2 |>.acw R.PAR_CFG_trust_slice 1), (((subGot transit).wr R.PAR_STATUS_state 2 |>.acw R.PAR_CFG_trust_slice 1).leaveRx 8 (0, transit)), 0, ((0, transit)), 0, by decide +kernel⟩,
   ⟨(subGot transit), 0, ((0, transit)), by decide +kernel⟩⟩

/-- Values meet the hypotheses of clauses 1 to 1 of StepTakesTheFrontCommand. -/
theorem witness_StepTakesTheFrontCommand_1 :
    (∃ (c : Instr) (rest : List Instr) (s : State), s.pending = c :: rest) :=
  ⟨.getTid, [.rstdaa], ({ up with pending := [.getTid, .rstdaa] }), by decide +kernel⟩

/-- Values meet the hypotheses of clauses 1 to 1 of EmptyQueueIsOneClock. -/
theorem witness_EmptyQueueIsOneClock_1 :
    (∃ (s : State), s.pending = []) :=
  ⟨up, by decide +kernel⟩

/-- Values meet the hypotheses of clauses 1 to 2 of CommandsKeepTheQueue. -/
theorem witness_CommandsKeepTheQueue_1 :
    (∃ (c : Instr) (s : State) (t : State), exec c s = .next t) ∧
    (∃ (c : Instr) (rest : List Instr) (s : State) (t : State), s.pending = c :: rest ∧ step s = .next t) :=
  ⟨⟨.rstdaa, State.reset, (State.reset.settle State.reset), rfl⟩,
   ⟨.rstdaa, [.getTid], ({ State.reset with pending := [.rstdaa, .getTid] }), (({ State.reset with pending := [.getTid] } : State).settle { State.reset with pending := [.getTid] }), by decide +kernel, rfl⟩⟩

/-- Values meet the hypotheses of clauses 1 to 2 of HeldDomainsDoNothing. -/
theorem witness_HeldDomainsDoNothing_1 :
    (∃ (c : Instr) (s : State), c.domain = .main ∧ s.mainUp = false) ∧
    (∃ (c : Instr) (s : State), c.domain = .island ∧ s.isl.up = false) :=
  ⟨⟨.readinessMessage, State.reset, by decide +kernel⟩,
   ⟨.rstdaa, (State.reset.modIsl (fun i => { i with up := false })), by decide +kernel⟩⟩

/-- Values meet the hypotheses of clauses 1 to 1 of FusesOnlyBlow. -/
theorem witness_FusesOnlyBlow_1 :
    (∃ (o : Otp) (s : State) (t : State), o.Within s.otp ∧ step s = .next t) :=
  ⟨{}, ({ State.reset with pending := [.rstdaa] }), (State.reset.settle State.reset), ⟨rfl, rfl, by decide, fun _ h => h⟩, rfl⟩

/-- Values meet the hypotheses of clauses 1 to 2 of FlitsRoundTrip. -/
theorem witness_FlitsRoundTrip_1 :
    (∃ (f : Flit), f.type < 2 ^ 4 ∧ f.vc < 2 ^ 2 ∧ f.units < 2 ^ 4 ∧ f.seq < 2 ^ 12 ∧ f.ack < 2 ^ 12 ∧ f.crVc < 2 ^ 2 ∧ f.cr < 2 ^ 12 ∧
      f.payload.length = 240) ∧
    (∃ (vc : Nat) (type : Nat) (sub : Nat) (len : Nat) (tag : Nat) (status : Nat) (arg : Nat) (body : List Byte), type < 2 ^ 8 ∧ sub < 2 ^ 8 ∧ len < 2 ^ 16 ∧ tag < 2 ^ 16 ∧ status < 2 ^ 16 ∧ arg < 2 ^ 64 ∧ body.length = len) :=
  ⟨⟨({ type := 1, units := 2, payload := List.replicate 240 7 }), by decide +kernel⟩,
   ⟨1, 0x10, 0, 3, 5, 0, 8, ([1, 2, 3]), by decide +kernel⟩⟩

/-- Values meet the hypotheses of clauses 1 to 3 of SlicesStayInTheirPages. -/
theorem witness_SlicesStayInTheirPages_1 :
    (∃ (s : State) (t : State) (x : Nat) (a : Nat) (bs : List Byte) (bad : Bool) (g : Got) (c : Nat), s.writeFor x true a bs bad = (g, t) ∧ c < a ∨ a + bs.length ≤ c) ∧
    (∃ (s : State) (t : State) (x : Nat) (y : Nat) (a : Nat) (bs : List Byte) (bad : Bool) (g : Got) (c : Nat), s.writeFor x true a bs bad = (g, t) ∧ x ≠ 0 ∧ y ≠ x ∧ s.pageOwner (c / pageSize) = some y) ∧
    (∃ (s : State) (t : State) (w : JobFor) (x : Nat) (a : Nat) (n : Nat) (d : List Byte) (c : Nat), s.readFor w x true a n = (.ok d, t) ∧ x ≠ 0 ∧ a ≤ c ∧ c < a + n) :=
  ⟨⟨(roomy []), (((roomy []).writeFor 0 true 8 [1, 2]).2), 0, 8, ([1, 2]), false, (.ok []), 7, by decide +kernel⟩,
   ⟨((roomy []).setPage 0 (some 4)), ((roomy []).setPage 0 (some 4)), 3, 4, 8, ([1, 2]), false, (.fail St.ring_range), 8, by decide +kernel⟩,
   ⟨((roomy []).setPage 0 (some 3)), (((roomy []).setPage 0 (some 3) |>.readFor (.husk 0) 3 true 8 2).2), (.husk 0), 3, 8, 2, ([0, 0]), 9, by decide +kernel⟩⟩

/-- Values meet the hypotheses of clauses 1 to 2 of StaleTranslations. -/
theorem witness_StaleTranslations_1 :
    (∃ (s : State) (hif : Fin 2) (pf : Fin 8) (fn : Nat) (id : Nat) (target : Nat) (size : Nat) (granted : Bool) (rd : Bool) (wr : Bool) (x : Xlat), s.mainUp = true ∧ s.due = [] ∧ fn = 8 * hif.val + pf.val ∧ s.hif.xlats.find? (fun x => x.fn == fn && x.id == id) = some
      x ∧ x.stale = true) ∧
    (∃ (s : State) (hif : Fin 2) (pf : Fin 8) (fn : Nat) (id : Nat) (target : Nat) (size : Nat) (granted : Bool) (rd : Bool) (wr : Bool) (x : Xlat), s.mainUp = true ∧ s.due = [] ∧ fn = 8 * hif.val + pf.val ∧ s.hif.xlats.find? (fun x => x.fn == fn && x.id == id) = some
      x ∧ x.stale = true) :=
  ⟨⟨(hostWith { xlats := [{ id := 4, fn := 9, pasid := none, page := 8192, write := true, stale := true }] }), 1, 1, 9, 4, 0x7000, 4096, true, false, true, ({ id := 4, fn := 9, pasid := none, page := 8192, write := true, stale := true }), by decide +kernel⟩,
   ⟨(hostWith { xlats := [{ id := 4, fn := 9, pasid := none, page := 8192, write := true, stale := true }] }), 1, 1, 9, 4, 0x7000, 4096, true, false, true, ({ id := 4, fn := 9, pasid := none, page := 8192, write := true, stale := true }), by decide +kernel⟩⟩

/-- Values meet the hypotheses of clauses 1 to 3 of SoftwareInterrupts. -/
theorem witness_SoftwareInterrupts_1 :
    (∃ (s : State) (h : Fin 1024) (rs1 : Fin 32) (a : Nat), s.mainUp = true ∧ (s.hart h).state = 1 ∧ a = s.xr h rs1 ∧ a < 1024 ∧ s.dom (a / 16) = s.dom (h / 16)) ∧
    (∃ (s : State) (h : Fin 1024) (rs1 : Fin 32) (a : Nat), s.mainUp = true ∧ (s.hart h).state = 1 ∧ a = s.xr h rs1 ∧ a < 1024 ∧ s.dom (a / 16) ≠ s.dom (h / 16)) ∧
    (∃ (s : State) (h : Fin 1024) (rs1 : Fin 32), s.mainUp = true ∧ (s.hart h).state = 1 ∧ 1024 ≤ s.xr h rs1) :=
  ⟨⟨(chanUp { x := [(11, 3)] }), 3, 11, 3, by decide +kernel⟩,
   ⟨(chanUp { x := [(11, 16)] }), 3, 11, 16, by decide +kernel⟩,
   ⟨(chanUp { x := [(11, 1024)] }), 3, 11, by decide +kernel⟩⟩

/-- Values meet the hypotheses of clauses 1 to 2 of NothingStartsAtTheTail. -/
theorem witness_NothingStartsAtTheTail_1 :
    (∃ (s : State) (r : Fin 65536) (x : Ring), s.mainUp = true ∧ s.due = [] ∧ s.ring r = some x ∧ before x.head x.tail = false) ∧
    (∃ (s : State) (t : State) (r : Fin 65536) (c : Nat) (x : Ring), s.ring r = some x ∧ s.startEntry r = (t, some c)) :=
  ⟨⟨(up.setRing 9 { aRing 0 with tail := 0 }), 9, ({ aRing 0 with tail := 0 }), by decide +kernel⟩,
   ⟨starting, ((starting.startEntry 9).1), 9, 0, startRing, by decide +kernel, rfl⟩⟩

/-- Values meet the hypotheses of clauses 1 to 1 of EpochEndsAtAReset. -/
theorem witness_EpochEndsAtAReset_1 :
    (∃ (s : State) (cause : Nat) (rail : Nat), s.rd R.GLB_EPOCH_STATUS_state = 1 ∨ s.rd R.GLB_EPOCH_STATUS_state = 2) :=
  ⟨(upWith [(R.GLB_EPOCH_STATUS_state, 1)]), 1, 2, by decide +kernel⟩

/-- Values meet the hypotheses of clauses 1 to 4 of Seizure. -/
theorem witness_Seizure_1 :
    (∃ (s : State) (a : Nat), s.takes .mgmt 0x01 0 R.reg_GLB_SEIZE ∧ s.on R.GLB_HB_STATUS_lapsed = true ∧ a ∈ blkBases ∧ s.rd hdrOwner a = 0) ∧
    (∃ (s : State) (a : Nat), s.takes .mgmt 0x01 0 R.reg_GLB_SEIZE ∧ s.on R.GLB_HB_STATUS_lapsed = true ∧ a ∈ blkBases ∧ s.rd hdrOwner a ≠ 0) ∧
    (∃ (s : State), s.takes .mgmt 0x01 0 R.reg_GLB_SEIZE ∧ s.on R.GLB_HB_STATUS_lapsed = true) ∧
    (∃ (s : State), s.takes .mgmt 0x01 0 R.reg_GLB_SEIZE ∧ s.on R.GLB_HB_STATUS_lapsed = false) :=
  ⟨⟨(upWith [(R.GLB_HB_STATUS_lapsed, 1)]), 0x100000, by decide +kernel⟩,
   ⟨(upWith [(R.GLB_HB_STATUS_lapsed, 1)]), 0x3C00000, by decide +kernel⟩,
   ⟨(upWith [(R.GLB_HB_STATUS_lapsed, 1)]), by decide +kernel⟩,
   ⟨up, by decide +kernel⟩⟩

/-- Values meet the hypotheses of clauses 3 to 11 of ResetState. -/
theorem witness_ResetState_1 :
    (∃ (a : Nat), a ≠ 0x3C00000) ∧
    (∃ (r : Fin 3), r.val < 2) :=
  ⟨⟨0x100000, by decide +kernel⟩,
   ⟨1, by decide +kernel⟩⟩
end

section
/-! PROOFS. Accesses of BAR0 by offset and the holding registers (00_scope.md R7, R9, R15, R16; 01_architecture.md R39): the
register path outside PAIRED, what a write and a read do for each thing an offset can name, and the commands built on them. -/

namespace Sys2Proof.Proofs
open Sys2Proof Sys2Proof.Machine Sys2Proof.Laws

/-! ### Holding registers -/

theorem setHalf_rd (s : State) (req : Req) (w : Bool) (h : Half) (f : Fld) (a b c : Nat) :
    (s.setHalf req w h).rd f a b c = s.rd f a b c := by
  cases req <;> rfl

@[simp] theorem setHalf_due (s : State) (req : Req) (w : Bool) (h : Half) : (s.setHalf req w h).due = s.due := by
  cases req <;> rfl

@[simp] theorem setHalf_pairState (s : State) (req : Req) (w : Bool) (h : Half) :
    (s.setHalf req w h).pairState = s.pairState := setHalf_rd ..

@[simp] theorem setHalf_ownerOk (s : State) (req : Req) (w : Bool) (h : Half) (side : Req) (base : Nat) :
    (s.setHalf req w h).ownerOk side base = s.ownerOk side base := by
  cases side <;> simp only [State.ownerOk, setHalf_rd]

/-- Filling a holding register changes nobody's right to write. -/
@[simp] theorem setHalf_mayWrite (s : State) (req : Req) (w : Bool) (h : Half) (side : Req) (b : BlkDef) (n : Nat) (r : RegDef)
    (i : Nat) : (s.setHalf req w h).mayWrite side b n r i = s.mayWrite side b n r i := by
  simp only [State.mayWrite, setHalf_ownerOk]

/-! ### The register path outside PAIRED -/

section RegisterPath
variable {s : State} {req : Req} {b : BlkDef} {n : Nat} {r : RegDef} {i j k : Nat}

/-- A write that is not mirrored is no more than what the register's block makes of it. -/
theorem regWrite_unpaired (v : Nat) (hp : s.pairState ≠ 2) :
    s.regWrite req b n r i j k v = s.regApply req b n r i j k v := by
  simp [State.regWrite, hp]

/-- A write by a side that may write is its block's write and what follows every register write. -/
theorem regWrite_mayWrite (v : Nat) (hw : r.flds.any Fld.writable = true) (hm : s.mayWrite req b n r i = true)
    (hp : s.pairState ≠ 2) : (s.regWrite req b n r i j k v).drainDue = (s.blockWr req b n r i j k v).after := by
  rw [regWrite_unpaired v hp]
  simp [State.regApply, State.after, hw, hm]

/-- A write by the other side is only counted (R16, R39). -/
theorem regWrite_nonOwner (v : Nat) (hw : r.flds.any Fld.writable = true) (hm : s.mayWrite req b n r i = false)
    (hp : s.pairState ≠ 2) : s.regWrite req b n r i j k v = s.nonOwner := by
  rw [regWrite_unpaired v hp]
  simp [State.regApply, hw, hm]

end RegisterPath

/-! ### Accesses by what the offset names -/

section Access
variable {s : State} {req : Req} {off size : Nat} {b : BlkDef} {n : Nat} {r : RegDef} {i j k : Nat}

theorem busWrite_whole (v : Nat) (hf : s.find off size = .whole b n r i j k) :
    s.busWrite req off size v = s.regWrite req b n r i j k (v % 2 ^ (8 * size)) := by
  simp [State.busWrite, hf]

/-- A write of a low half goes no further than the requester's holding register. -/
theorem busWrite_low (v : Nat) (hf : s.find off 4 = .low b n r i j k) :
    s.busWrite req off 4 v = s.setHalf req true { reg := some off, half := v % 2 ^ 32 } := by
  simp [State.busWrite, hf]

/-- A write of a high half whose low half is held writes both and empties the holding register. -/
theorem busWrite_high_held (v : Nat) (hf : s.find off 4 = .high b n r i j k) (hh : (s.half req true).reg = some (off - 4)) :
    s.busWrite req off 4 v =
      (s.setHalf req true {}).regWrite req b n r i j k ((s.half req true).half + v % 2 ^ 32 * 2 ^ 32) := by
  simp [State.busWrite, hf, hh]

/-- A write of a high half alone writes it over the low half as it stands. -/
theorem busWrite_high_alone (v : Nat) (hf : s.find off 4 = .high b n r i j k) (hh : (s.half req true).reg ≠ some (off - 4)) :
    s.busWrite req off 4 v = s.regWrite req b n r i j k (s.lowImage r i j k + v % 2 ^ 32 * 2 ^ 32) := by
  simp [State.busWrite, hf, hh]

theorem busGet_whole (hf : s.find off size = .whole b n r i j k) :
    s.busGet req off size = ((s.drawn r).clearRc r i j k 0 64).answer req (s.viewReg r i j k) := by
  simp only [State.busGet, State.busRead, hf]

/-- A read of a low half answers it and holds the high half. -/
theorem busGet_low (hf : s.find off 4 = .low b n r i j k) :
    s.busGet req off 4 =
      ((s.clearRc r i j k 0 32).setHalf req false { reg := some off, half := s.viewReg r i j k / 2 ^ 32 }).answer req
        (s.viewReg r i j k % 2 ^ 32) := by
  simp only [State.busGet, State.busRead, hf]

/-- A read of a high half that is held answers what is held and empties the holding register. -/
theorem busGet_high_held (hf : s.find off 4 = .high b n r i j k) (hh : (s.half req false).reg = some (off - 4)) :
    s.busGet req off 4 = ((s.clearRc r i j k 32 64).setHalf req false {}).answer req (s.half req false).half := by
  simp only [State.busGet, State.busRead, hf, hh, if_true]

theorem isLow_of_find (hf : s.find off 4 = .low b n r i j k) : s.isLow off = true := by
  simp only [State.isLow, hf]

theorem isHigh_of_find (hf : s.find off 4 = .high b n r i j k) : s.isHigh off = true := by
  simp only [State.isHigh, hf]

end Access

/-! ### The commands: each is its access, wherever it is one at all -/

section Commands
variable {s : State} {req : Req} {off : Nat}

theorem gives_registerWrite {size : Nat} (v : Nat) (h : s.refusesFlow req off size = false) :
    Gives (.registerWrite req off size v) s (s.busWrite req off size v).drainDue := by
  have hbus : s.registerWrite req off size v = (s.busWrite req off size v).drainDue := by
    simp [State.registerWrite, State.busPut, h]
  exact hbus ▸ done_eq s (s.registerWrite req off size v)

theorem gives_rcRead {size : Nat} (h : s.refusesFlow req off size = false) :
    Gives (.rcRead req off size) s (s.busGet req off size) := by
  have hbus : s.rcRead req off size = s.busGet req off size := by simp [State.rcRead, h]
  exact hbus ▸ done_eq s (s.rcRead req off size)

/-- A half that the offset holds is written by its access, unless a flow core asks. -/
theorem halfWrite_here (v : Nat) (hr : req ≠ .flow) : s.halfWrite req off v true = (s.busWrite req off 4 v).drainDue := by
  simp [State.halfWrite, State.busPut, hr]

theorem halfRead_here (hr : req ≠ .flow) : s.halfRead req off true = s.busGet req off 4 := by
  simp [State.halfRead, hr]

theorem gives_lowHalfWrite (v : Nat) (hr : req ≠ .flow) (h : s.isLow off = true) :
    Gives (.lowHalfWrite req off v) s (s.busWrite req off 4 v).drainDue := by
  rw [← halfWrite_here v hr, ← h]
  exact done_eq ..

theorem gives_highHalfWrite (v : Nat) (hr : req ≠ .flow) (h : s.isHigh off = true) :
    Gives (.highHalfWrite req off v) s (s.busWrite req off 4 v).drainDue := by
  rw [← halfWrite_here v hr, ← h]
  exact done_eq ..

theorem gives_lowHalfRead (hr : req ≠ .flow) (h : s.isLow off = true) :
    Gives (.lowHalfRead req off) s (s.busGet req off 4) := by
  rw [← halfRead_here hr, ← h]
  exact done_eq ..

theorem gives_highHalfRead (hr : req ≠ .flow) (h : s.isHigh off = true) :
    Gives (.highHalfRead req off) s (s.busGet req off 4) := by
  rw [← halfRead_here hr, ← h]
  exact done_eq ..

end Commands

/-! ### The obligation -/

/-- Settles O4: each command is its access, and each access is what the offset names; a write by the owner then takes the
register path, and what makes nothing due ends there. -/
theorem registerAccess : Obligations.RegisterAccess := by
  unfold Obligations.RegisterAccess
  refine ⟨?wholeOwner, ?wholeOther, ?lowWrite, ?highWriteHeld, ?highWriteAlone, ?lowRead, ?highRead, ?wholeRead⟩
  case wholeOwner =>
    intro s req off size v b n r i j k hf hflow hw hm hp
    rw [← regWrite_mayWrite _ hw hm hp, ← busWrite_whole v hf]
    exact gives_registerWrite v hflow
  case wholeOther =>
    intro s req off size v b n r i j k hf hflow hw hm hp hdue
    have hwrite : s.busWrite req off size v = s.nonOwner := by rw [busWrite_whole v hf, regWrite_nonOwner _ hw hm hp]
    rw [← drainDue_nil s.nonOwner ((sat_due ..).trans hdue), ← hwrite]
    exact gives_registerWrite v hflow
  case lowWrite =>
    intro s req off v b n r i j k hf hr hdue
    rw [← drainDue_nil (s.setHalf ..) ((setHalf_due ..).trans hdue), ← busWrite_low v hf]
    exact gives_lowHalfWrite v hr (isLow_of_find hf)
  case highWriteHeld =>
    intro s req off v b n r i j k hf hr hh hw hm hp
    have hm' : (s.setHalf req true {}).mayWrite req b n r i = true := by simpa using hm
    have hp' : (s.setHalf req true {}).pairState ≠ 2 := by simpa using hp
    rw [← regWrite_mayWrite _ hw hm' hp', ← busWrite_high_held v hf hh]
    exact gives_highHalfWrite v hr (isHigh_of_find hf)
  case highWriteAlone =>
    intro s req off v b n r i j k hf hr hh hw hm hp
    rw [← regWrite_mayWrite _ hw hm hp, ← busWrite_high_alone v hf hh]
    exact gives_highHalfWrite v hr (isHigh_of_find hf)
  case lowRead =>
    intro s req off b n r i j k hf hr
    rw [← busGet_low hf]
    exact gives_lowHalfRead hr (isLow_of_find hf)
  case highRead =>
    intro s req off b n r i j k hf hr hh
    rw [← busGet_high_held hf hh]
    exact gives_highHalfRead hr (isHigh_of_find hf)
  case wholeRead =>
    intro s req off size b n r i j k hf hflow
    rw [← busGet_whole hf]
    exact gives_rcRead hflow

end Sys2Proof.Proofs
end

section
/-! PROOFS. Commands and the domains they belong to: what a released domain carries out, and that a held one carries out
nothing (01_architecture.md R31, R70; 21_management.md R520). -/

namespace Sys2Proof.Proofs
open Sys2Proof Sys2Proof.Machine Sys2Proof.Laws

/-- A command of a released main domain gives what its meaning makes of the state. -/
theorem whenMain_released {s t : State} {f : State → State} (hup : s.mainUp = true) (hf : f s = t) :
    s.whenMain f = .next (s.settle t) := by
  simp only [State.whenMain, State.done, hup, hf, if_true]

/-- Every command of the main domain acts through the guard of that domain. -/
theorem exec_of_domain_main (c : Instr) (s : State) (h : c.domain = .main) : ∃ f, exec c s = s.whenMain f := by
  cases c <;> cases h <;> (simp only [exec]; exact ⟨_, rfl⟩)

/-- Every command of the island acts through the island's guard. -/
theorem exec_of_domain_island (c : Instr) (s : State) (h : c.domain = .island) : ∃ f, exec c s = s.whenIsland f := by
  cases c <;> cases h <;> (simp only [exec]; exact ⟨_, rfl⟩)

/-- Settles O49: a command of a domain acts through that domain's guard alone, which leaves the state of a held domain. -/
theorem heldDomainsDoNothing : Obligations.HeldDomainsDoNothing := by
  unfold Obligations.HeldDomainsDoNothing
  refine ⟨?main, ?island⟩
  case main =>
    intro c s hc hheld
    obtain ⟨f, hf⟩ := exec_of_domain_main c s hc
    exact hf.trans (whenMain_held s f hheld)
  case island =>
    intro c s hc hdown
    obtain ⟨f, hf⟩ := exec_of_domain_island c s hc
    exact hf.trans (whenIsland_down s f hdown)

end Sys2Proof.Proofs
end

section
/-! PROOFS. Heartbeats, their lapse, seizure and ownership (01_architecture.md R36, R39-R43): what seizure does to the header of
a block, what GLB_ makes of each of its writes, and the commands built on them. -/

namespace Sys2Proof.Proofs
open Sys2Proof Sys2Proof.Machine Sys2Proof.Laws

/-! ### Reads of fields after writes -/

theorem rd_wr_same (s : State) (f : Fld) (v i j k : Nat) : (s.wr f v i j k).rd f i j k = v % 2 ^ f.wd := get_put_same ..

/-- A write leaves every field at another bit place alone. -/
theorem rd_wr_other (s : State) (f g : Fld) (v i j k i' j' k' : Nat) (h : g.key i' j' k' ≠ f.key i j k) :
    (s.wr f v i j k).rd g i' j' k' = s.rd g i' j' k' := get_put_other _ _ _ _ _ _ h

/-! ### Seizure of one block and of many -/

section Seizing
variable (s : State) (a b : Nat)

/-- The block at base offset `a` moves to the management side, marked seized (R41). -/
def seizedAt : State := (s.wr hdrOwner 1 a).raise hdrSeized a

theorem seizeAll_cons (l : List Nat) :
    s.seizeAll (a :: l) = (if s.rd hdrOwner a = 0 then seizedAt s a else s).seizeAll l := rfl

theorem hdrOwner_key_ne_hdrSeized_key : hdrOwner.key a 0 0 ≠ hdrSeized.key b 0 0 := by
  simp only [Fld.key, Fld.off, hdrOwner, hdrSeized]
  omega

theorem hdrOwner_key_ne (h : b ≠ a) : hdrOwner.key b 0 0 ≠ hdrOwner.key a 0 0 := by
  simp only [Fld.key, Fld.off, hdrOwner]
  omega

theorem hdrSeized_key_ne (h : b ≠ a) : hdrSeized.key b 0 0 ≠ hdrSeized.key a 0 0 := by
  simp only [Fld.key, Fld.off, hdrSeized]
  omega

theorem seizedAt_owner_same : (seizedAt s a).rd hdrOwner a = 1 :=
  (rd_wr_other _ _ _ _ _ _ _ _ _ _ (hdrOwner_key_ne_hdrSeized_key a a)).trans (rd_wr_same ..)

theorem seizedAt_seized_same : (seizedAt s a).rd hdrSeized a = 1 := rd_wr_same ..

variable {a b}

theorem seizedAt_owner_other (h : b ≠ a) : (seizedAt s a).rd hdrOwner b = s.rd hdrOwner b :=
  (rd_wr_other _ _ _ _ _ _ _ _ _ _ (hdrOwner_key_ne_hdrSeized_key b a)).trans
    (rd_wr_other _ _ _ _ _ _ _ _ _ _ (hdrOwner_key_ne a b h))

theorem seizedAt_seized_other (h : b ≠ a) : (seizedAt s a).rd hdrSeized b = s.rd hdrSeized b :=
  (rd_wr_other _ _ _ _ _ _ _ _ _ _ (hdrSeized_key_ne a b h)).trans
    (rd_wr_other _ _ _ _ _ _ _ _ _ _ (hdrOwner_key_ne_hdrSeized_key a b).symm)

variable {s}

/-- Seizure leaves the header of a block that the host does not own as it is. -/
theorem seizeAll_keeps (l : List Nat) (h : s.rd hdrOwner b ≠ 0) :
    (s.seizeAll l).rd hdrOwner b = s.rd hdrOwner b ∧ (s.seizeAll l).rd hdrSeized b = s.rd hdrSeized b := by
  induction l generalizing s with
  | nil => exact ⟨rfl, rfl⟩
  | cons a l ih =>
    rw [seizeAll_cons]
    split
    next ha =>
      have hne : b ≠ a := fun e => h (e ▸ ha)
      have howner := seizedAt_owner_other s hne
      rw [← howner, ← seizedAt_seized_other s hne]
      exact ih (howner.symm ▸ h)
    next => exact ih h

/-- Seizure gives a block of its list that the host owns to the management side, marked seized. -/
theorem seizeAll_moves {l : List Nat} (hb : b ∈ l) (h : s.rd hdrOwner b = 0) :
    (s.seizeAll l).rd hdrOwner b = 1 ∧ (s.seizeAll l).rd hdrSeized b = 1 := by
  induction l generalizing s with
  | nil => cases hb
  | cons a l ih =>
    rw [seizeAll_cons]
    by_cases hba : b = a
    · subst hba
      have howner := seizedAt_owner_same s b
      rw [if_pos h, ← howner]
      obtain ⟨hown, hsz⟩ := seizeAll_keeps (s := seizedAt s b) l (by rw [howner]; decide)
      exact ⟨hown, by rw [hsz, seizedAt_seized_same, howner]⟩
    · have hbl : b ∈ l := (List.mem_cons.mp hb).resolve_left hba
      split
      next => exact ih hbl ((seizedAt_owner_other s hba).trans h)
      next => exact ih hbl h

end Seizing

/-! ### What GLB_ makes of a write of its registers -/

section GlbWrites
variable {s : State} {v : Nat}

/-- A write of a register of GLB_ that is in service for the requester is what GLB_ makes of it. -/
theorem wrReg_glb {req : Req} {r : RegDef} (h : s.takes req 0x01 0 r) (hw : r.flds.any Fld.writable = true)
    (hv : v < 2 ^ r.width) : s.wrReg req 0x01 r v = (s.glbWr r 0 v).after := by
  rw [wrReg_takes s req 0x01 r v 0 0 0 0 h hw, Nat.mod_eq_of_lt hv]
  rfl

theorem wrReg_hostHb (h : s.takes .host 0x01 0 R.reg_GLB_HOST_HB) (hv : v < 2 ^ 32) :
    s.wrReg .host 0x01 R.reg_GLB_HOST_HB v = (s.hostBeat v).after := wrReg_glb h (by decide) hv

theorem wrReg_hbCfg (h : s.takes .mgmt 0x01 0 R.reg_GLB_HB_CFG) (hv : v < 2 ^ 32) :
    s.wrReg .mgmt 0x01 R.reg_GLB_HB_CFG v = (s.hbCfg v).after := wrReg_glb h (by decide) hv

theorem wrReg_seize (h : s.takes .mgmt 0x01 0 R.reg_GLB_SEIZE) : s.wrReg .mgmt 0x01 R.reg_GLB_SEIZE 1 = s.seizeWr.after :=
  wrReg_glb h (by decide) (by decide)

/-- A write of timeout_ms that fits the field: 0 clears lapsed as well (R40). -/
theorem hbCfg_of_lt (h : v < 2 ^ 16) :
    s.hbCfg v = if v = 0 then (s.wr R.GLB_HB_CFG_timeout_ms 0).wr R.GLB_HB_STATUS_lapsed 0
      else s.wr R.GLB_HB_CFG_timeout_ms v := by
  rw [State.hbCfg, Nat.mod_eq_of_lt h]
  split
  next hv => rw [hv]
  next => rfl

theorem seizeWr_lapsed (h : s.on R.GLB_HB_STATUS_lapsed = true) :
    s.seizeWr = (s.seizeAll blkBases).eventBoth 1 0 1
      (leBytes 2 (blkBases.filter (fun a => s.rd hdrOwner a == 0)).length ++ List.replicate 14 0) := by
  simp only [State.seizeWr, h, if_true]

theorem seizeWr_refused (h : s.on R.GLB_HB_STATUS_lapsed = false) : s.seizeWr = s.raise R.GLB_HB_STATUS_seize_refused := by
  simp [State.seizeWr, h]

/-- With a timeout in force, lapsed is set once it has passed since the last heartbeat (R40). -/
theorem lapse_timeout (h : s.rd R.GLB_HB_CFG_timeout_ms ≠ 0) :
    s.lapse = (s.runTo (s.time.beatAt + min (s.rd R.GLB_HB_CFG_timeout_ms) 60000 * unitsPerMs)).raise R.GLB_HB_STATUS_lapsed :=
  if_neg (by simp only [State.hbTimeout]; omega)

end GlbWrites

/-! ### Writes of an owner field -/

section OwnerWrites
variable {s : State} {req : Req} {base v : Nat}

/-- A block instance other than MGT_ that answers, by its block and number. -/
theorem blkIn_inv (h : s.blkIn base = true) :
    ∃ b n, blkAt base = some (b, n) ∧ base = b.base + n * b.stride ∧ s.blkOpen b n = true ∧ b.code ≠ 0x14 := by
  unfold State.blkIn at h
  split at h
  next b n hat => exact ⟨b, n, hat, by simpa [and_assoc] using h⟩
  next => cases h

/-- The owner's write of a block's owner field outside PAIRED (R36, R43). -/
theorem headerWrite_owner {b : BlkDef} {n : Nat} (hcode : b.code ≠ 0x14) (ho : s.ownerOk req (b.base + n * b.stride) = true)
    (hp : s.pairState ≠ 2) : s.headerWrite req b n 8 v = s.writeOwner (b.base + n * b.stride) v := by
  simp [State.headerWrite, State.headerApply, hcode, ho, hp]

theorem ownerWrite_owner (hin : s.blkIn base = true) (ho : s.ownerOk req base = true) (hp : s.pairState ≠ 2)
    (hv : v < 2 ^ 32) : s.ownerWrite req base v = (s.writeOwner base v).drainDue := by
  obtain ⟨b, n, hat, rfl, hopen, hcode⟩ := blkIn_inv hin
  simp only [State.ownerWrite, hat, hopen, and_self, if_true, headerWrite_owner hcode ho hp, Nat.mod_eq_of_lt hv]

/-- A return to the host clears seized; the management side's claim leaves it (R43). -/
theorem writeOwner_of_lt (hb : base ≠ 0x3C00000) (hv : v < 2) :
    s.writeOwner base v = if v = 0 then (s.wr hdrOwner 0 base).wr hdrSeized 0 base else s.wr hdrOwner 1 base := by
  obtain rfl | rfl : v = 0 ∨ v = 1 := by omega
  · simp [State.writeOwner, hb]
  · simp [State.writeOwner, hb]

end OwnerWrites

/-! ### The commands -/

section Commands
variable {s : State}

/-- A management write of seize is GLB_'s own write. -/
theorem gives_seize (h : s.takes .mgmt 0x01 0 R.reg_GLB_SEIZE) : Gives (.seize .mgmt) s s.seizeWr.after :=
  congrArg s.done (wrReg_seize h)

theorem gives_seize_lapsed (h : s.takes .mgmt 0x01 0 R.reg_GLB_SEIZE) (hl : s.on R.GLB_HB_STATUS_lapsed = true) :
    Gives (.seize .mgmt) s ((s.seizeAll blkBases).eventBoth 1 0 1
      (leBytes 2 (blkBases.filter (fun a => s.rd hdrOwner a == 0)).length ++ List.replicate 14 0)).after := by
  rw [← seizeWr_lapsed hl]
  exact gives_seize h

end Commands

/-! ### The obligations -/

/-- Settles O58: seizure walks the list of all blocks, moves those that the host owns and keeps the headers of the others. -/
theorem seizure : Obligations.Seizure := by
  unfold Obligations.Seizure
  refine ⟨?moved, ?kept, ?lapsed, ?refused⟩
  case moved => exact fun s a _ _ ha howner => seizeAll_moves ha howner
  case kept => exact fun s a _ _ _ howner => seizeAll_keeps blkBases howner
  case lapsed => exact fun s => gives_seize_lapsed
  case refused =>
    intro s h hl
    rw [← seizeWr_refused hl]
    exact gives_seize h

/-- Settles O1: each register write is GLB_'s own, the lapse is the released domain's timer, and an owner's write of an owner
field is the header's. -/
theorem heartbeatAndOwnership : Obligations.HeartbeatAndOwnership := by
  unfold Obligations.HeartbeatAndOwnership
  refine ⟨?heartbeat, ?timeout, ?lapse, ?seize, ?owner⟩
  case heartbeat => exact fun s v h hv => congrArg s.done (wrReg_hostHb h hv)
  case timeout =>
    intro s v h hv
    rw [← hbCfg_of_lt hv]
    exact congrArg s.done (wrReg_hbCfg h (hv.trans (by decide)))
  case lapse =>
    intro s hup ht
    rw [← lapse_timeout ht]
    exact whenMain_released hup rfl
  case seize => exact fun s => gives_seize_lapsed
  case owner =>
    intro s req base v hin hbase ho hp hv
    rw [← writeOwner_of_lt hbase hv]
    exact congrArg s.done (ownerWrite_owner hin ho hp (hv.trans (by decide)))

end Sys2Proof.Proofs
end

section
/-! PROOFS. Packets between rings and the fabric (01_architecture.md R24; 07_rings.md R204, R561; 09_parsing.md R252): what SEND
does by how the read of its payload ends, and what a delivery does by the ring it finds. -/

namespace Sys2Proof.Proofs
open Sys2Proof Sys2Proof.Machine Sys2Proof.Laws

/-! ### The descriptor of a SEND -/

theorem bit_eq_testBit (v b : Nat) : bit v b = v.testBit b := by
  rw [bit, Nat.testBit_eq_decide_div_mod_eq, beq_eq_decide]

theorem sendOk_of_fields {d : List Byte} (hlo : 60 ≤ fieldLE d 0x18 4) (hhi : fieldLE d 0x18 4 ≤ 9596)
    (hopt : fieldLE d 0x1C 2 < 32) (hres : fieldLE d 0x1E 2 = 0) (hz : zeroFrom d 0x30 = true) : sendOk d = true := by
  simp [sendOk, hlo, hhi, Nat.div_eq_of_lt hopt, hres, hz]

theorem sendOk_short {d : List Byte} (h : fieldLE d 0x18 4 < 60) : sendOk d = false := by
  simp [sendOk, h]

/-! ### SEND -/

/-- The frame that a SEND injects as number `i`, with the options of its descriptor (R561). -/
def sentFrame (r i : Nat) (g : Flight) (d : List Byte) : Frame :=
  { data := d, src := 0x300, slice := g.slice, cls := if (fieldLE g.desc 0x1C 2).testBit 3 then some (fieldLE g.desc 0x1C 2 % 8) else none,
    ts := b2n ((fieldLE g.desc 0x1C 2).testBit 4), user := fieldLE g.desc 0x20 16, send := some (r, i) }

/-- The state with a SEND performed and taken down as a send of one copy. -/
def sendTaken (t : State) (r : Nat) (g : Flight) : State :=
  let i := t.rng.nextSend
  let u := (t.performed r g.count).setSend (r, i) (some { ring := r, count := g.count, id := i, copies := 1, len := fieldLE g.desc 0x18 4 })
  { u with rng := { u.rng with nextSend := i + 1 } }

/-- What a SEND in order does once the read of its payload has ended, or has not, in state `t`. -/
def sendEnd (t : State) (r : Nat) (x : Ring) (g : Flight) : Got → State
  | .wait => t
  | .fail st => t.finish r g.count { status := st }
  | .ok d => (sendTaken t r g).toPipe (x.target % 8) (sentFrame r t.rng.nextSend g d)

section Send
variable {s t : State} {r : Nat} {x : Ring} {g : Flight}

theorem sendFrame_bad (hr : s.ring r = some x) (hg : s.nextSend r = some g) (hok : sendOk g.desc = false) :
    s.sendFrame r = s.fail r g.count St.bad_desc := by
  simp only [State.sendFrame, hr, hg, hok, Bool.not_false, if_true]

/-- A SEND in order does what the end of its payload's read says. -/
theorem sendFrame_read (hr : s.ring r = some x) (hg : s.nextSend r = some g) (hok : sendOk g.desc = true) {got : Got}
    (hread : s.readFor (.work r g.count) g.slice x.mem (fieldLE g.desc 0x10 8) (fieldLE g.desc 0x18 4) = (got, t)) :
    s.sendFrame r = sendEnd t r x g got := by
  cases got <;> simp [State.sendFrame, State.fail, sendEnd, sendTaken, sentFrame, bit_eq_testBit, hr, hg, hok, hread]

end Send

/-! ### Delivery to a receive ring -/

section Deliver
variable {s t : State} {n : Nat} {k : Pkt} {r : Nat} {x : Ring}

theorem rxDeliver_noRing (hk : s.headFull (592 + n) = some k) (hx : s.rxRing n = none) :
    s.rxDeliver n = (s.pcnt k.pipe 12).consume (592 + n) false := by
  simp only [State.rxDeliver, hk, hx]

theorem rxDeliver_mismatch (hk : s.headFull (592 + n) = some k) (hx : s.rxRing n = some (r, x)) (hs : k.slice ≠ x.slice) :
    s.rxDeliver n = (s.sat R.SLC_DISCARD_mismatch 1 x.slice).consume (592 + n) false := by
  simp only [State.rxDeliver, hk, hx, if_pos hs]

theorem rxDeliver_noBuffer (hk : s.headFull (592 + n) = some k) (hx : s.rxRing n = some (r, x)) (hs : k.slice = x.slice)
    (hb : x.firstPosted 0x11 = none) : s.rxDeliver n = s := by
  simp [State.rxDeliver, hk, hx, hs, hb]

/-- A good frame that fits its buffer completes with its length and stamps. -/
theorem rxDeliver_whole {g : Flight} (hk : s.headFull (592 + n) = some k) (hx : s.rxRing n = some (r, x)) (hs : k.slice = x.slice)
    (hb : x.firstPosted 0x11 = some g) (hgood : k.frame.bad = false) (hclean : k.frame.poison = false)
    (hfit : k.frame.data.length ≤ fieldLE g.desc 0x18 4)
    (hw : s.writeFor g.slice x.mem (fieldLE g.desc 0x10 8) (k.frame.data.take (fieldLE g.desc 0x18 4)) false = (.ok [], t)) :
    s.rxDeliver n =
      (t.finish r g.count { status := 0, bytes := k.frame.data.length, x12 := leBytes 2 k.frame.src, x18 := rxDetail k }).consume
        (592 + n) true := by
  simp [State.rxDeliver, hk, hx, hs, hb, hgood, hclean, hw, Nat.not_lt.mpr hfit]

end Deliver

/-! ### The obligation -/

/-- In a released main domain the command SEND is SEND. -/
theorem gives_send {s t : State} {r : Fin 65536} (hup : s.mainUp = true) (h : s.sendFrame r = t) :
    Gives (.send r) s t := whenMain_released (f := (·.sendFrame r)) hup h

/-- In a released main domain the command RX_DELIVER is a delivery. -/
theorem gives_rxDeliver {s t : State} {n : Fin 4096} (hup : s.mainUp = true) (h : s.rxDeliver n = t) :
    Gives (.rxDeliver n) s t := whenMain_released (f := (·.rxDeliver n)) hup h

/-- Settles O15: SEND by its descriptor and by how the read of its payload ends, a delivery by the ring and the buffer it finds. -/
theorem packetsOfRings : Obligations.PacketsOfRings := by
  unfold Obligations.PacketsOfRings
  refine ⟨?sent, ?waiting, ?unreadable, ?short, ?noRing, ?mismatch, ?noBuffer, ?delivered⟩
  case sent =>
    intro s t r x g m d hup hr hg hlo hhi hm hopt hres hz hread
    subst hm
    exact gives_send hup (sendFrame_read hr hg (sendOk_of_fields hlo hhi hopt hres hz) hread)
  case waiting => exact fun s t r x g hup hr hg hok hread => gives_send hup (sendFrame_read hr hg hok hread)
  case unreadable => exact fun s t r x g st hup hr hg hok hread => gives_send hup (sendFrame_read hr hg hok hread)
  case short => exact fun s r x g hup hr hg hlen => gives_send hup (sendFrame_bad hr hg (sendOk_short hlen))
  case noRing => exact fun s n k hup hk hx => gives_rxDeliver hup (rxDeliver_noRing hk hx)
  case mismatch => exact fun s n k r x hup hk hx hs => gives_rxDeliver hup (rxDeliver_mismatch hk hx hs)
  case noBuffer =>
    exact fun s n k r x hup hk hx hs hb => gives_rxDeliver hup (rxDeliver_noBuffer hk hx hs (Option.isNone_iff_eq_none.mp hb))
  case delivered =>
    exact fun s t n k r x g hup hk hx hs hb hgood hclean hfit hw =>
      gives_rxDeliver hup (rxDeliver_whole hk hx hs hb hgood hclean hfit hw)

end Sys2Proof.Proofs
end

section
/-! PROOFS. Watchdogs and the epoch controller (02_fabric_time.md R62-R65): what the writes of FT_WDOG_KICK and GLB_EPOCH_CTRL are,
how a watchdog expires, and how an epoch is answered, ended and applied. -/

namespace Sys2Proof.Proofs
open Sys2Proof Sys2Proof.Machine Sys2Proof.Laws

/-! ### Watchdogs -/

section Watchdogs
variable {s : State} {w : Nat}

/-- A write of a watchdog's kick is FT_'s own kick of it. -/
theorem wrReg_wdogKick {req : Req} (h : s.takes req 0x02 0 R.reg_FT_WDOG_KICK w) :
    s.wrReg req 0x02 R.reg_FT_WDOG_KICK 1 0 w = (s.wdogKick w 1).after :=
  wrReg_takes s req 0x02 R.reg_FT_WDOG_KICK 1 0 w 0 0 h (by decide)

/-- A running watchdog is started anew by a kick. -/
theorem wdogKick_running (h : (s.wdogStart w).isSome = true) : s.wdogKick w 1 = s.wdogArm w := if_pos h

theorem runTo_rd (s : State) (u : Nat) (f : Fld) (i j k : Nat) : (s.runTo u).rd f i j k = s.rd f i j k := by
  unfold State.runTo
  split <;> rfl

/-- An expiry leaves the watchdog's action as it was configured. -/
theorem rd_action_raise_expired (s : State) (w : Nat) :
    (s.raise R.FT_WDOG_CFG_expired w).rd R.FT_WDOG_CFG_action w = s.rd R.FT_WDOG_CFG_action w :=
  rd_wr_other _ _ _ _ _ _ _ _ _ _ (by simp only [Fld.key, Fld.off, R.FT_WDOG_CFG_action, R.FT_WDOG_CFG_expired]; omega)

/-- With action 0 an expiry is the stop, the flag and the event alone. -/
theorem wdogFire_noAction (h : s.rd R.FT_WDOG_CFG_action w = 0) :
    s.wdogFire w = ((s.wdogStop w).raise R.FT_WDOG_CFG_expired w).event 2 0 (Config.eventCode 2 2) (Config.eventDetail 2 2) := by
  have hact : (((s.wdogStop w).raise R.FT_WDOG_CFG_expired w).event 2 0 (Config.eventCode 2 2)
      (Config.eventDetail 2 2)).rd R.FT_WDOG_CFG_action w = 0 :=
    (rd_action_raise_expired (s.wdogStop w) w).trans h
  simp [State.wdogFire, hact]

theorem wdogExpire_running {t0 : Nat} (h : s.wdogStart w = some t0) :
    s.wdogExpire w = (s.runTo (t0 + max (s.rd R.FT_WDOG_CFG_period_ms w) 10 * unitsPerMs)).wdogFire w := by
  simp only [State.wdogExpire, h, State.wdogPeriod]

end Watchdogs

/-! ### Starting and cancelling an epoch -/

section EpochControl
variable {s : State}

/-- GLB_EPOCH_CTRL holds nothing: a write of one of its bits writes that bit alone. -/
theorem wrFlds_epochCtrl {req : Req} (f : Fld) (h : s.takes req 0x01 0 R.reg_GLB_EPOCH_CTRL) (hv : showFld 0 f 1 < 2 ^ 32) :
    s.wrFlds req 0x01 R.reg_GLB_EPOCH_CTRL [(f, 1)] = (s.epochCtrl (showFld 0 f 1)).after := wrReg_glb h (by decide) hv

theorem epochCtrl_go (h : s.rd R.GLB_EPOCH_STATUS_state = 0) :
    s.epochCtrl (showFld 0 R.GLB_EPOCH_CTRL_go 1) = s.epochGo := by
  simp only [State.epochCtrl, h]
  rfl

theorem epochCtrl_cancel (h : s.rd R.GLB_EPOCH_STATUS_state = 1) :
    s.epochCtrl (showFld 0 R.GLB_EPOCH_CTRL_cancel 1) = s.epochEnd 4 := by
  simp only [State.epochCtrl, State.epochCancel, h]
  rfl

/-- Outside a running epoch a write of go is the controller's go (R63). -/
theorem gives_epochGo {req : Req} (h : s.takes req 0x01 0 R.reg_GLB_EPOCH_CTRL) (hidle : s.rd R.GLB_EPOCH_STATUS_state = 0) :
    Gives (.epochGo req) s s.epochGo.after :=
  congrArg s.done ((wrFlds_epochCtrl R.GLB_EPOCH_CTRL_go h (by decide)).trans (by rw [epochCtrl_go hidle]))

theorem gives_epochCancel {req : Req} (h : s.takes req 0x01 0 R.reg_GLB_EPOCH_CTRL) (hc : s.rd R.GLB_EPOCH_STATUS_state = 1) :
    Gives (.epochCancel req) s (s.epochEnd 4).after :=
  congrArg s.done ((wrFlds_epochCtrl R.GLB_EPOCH_CTRL_cancel h (by decide)).trans (by rw [epochCtrl_cancel hc]))

theorem epochGo_unarmed (hidle : s.rd R.GLB_EPOCH_STATUS_state = 0) (h0 : s.rd R.GLB_EPOCH_ARM_arm 0 = 0)
    (h1 : s.rd R.GLB_EPOCH_ARM_arm 1 = 0) : s.epochGo = s.wr R.GLB_EPOCH_STATUS_result 6 := by
  simp [State.epochGo, hidle, h0, h1]

/-- An armed unit and a T in reach start the epoch (R63). -/
theorem epochGo_starts (hidle : s.rd R.GLB_EPOCH_STATUS_state = 0)
    (harm : ¬(s.rd R.GLB_EPOCH_ARM_arm 0 = 0 ∧ s.rd R.GLB_EPOCH_ARM_arm 1 = 0)) (hT : ft64Valid (s.rd R.GLB_EPOCH_T_t) = true)
    (hlo : s.time.ft + 20 * unitsPerUs ≤ ft64Units (s.rd R.GLB_EPOCH_T_t))
    (hhi : ft64Units (s.rd R.GLB_EPOCH_T_t) ≤ s.time.ft + 60 * unitsPerSec) :
    s.epochGo = ((s.wr R.GLB_EPOCH_STATUS_state 1).wr R.GLB_EPOCH_ACK_ack 0 0).wr R.GLB_EPOCH_ACK_ack 0 1 := by
  simp [State.epochGo, hidle, harm, hT, Nat.not_lt.mpr hlo, Nat.not_lt.mpr hhi]

end EpochControl

/-! ### The units' answers, the deadline and the apply time -/

section EpochRun
variable {s : State} {u : Nat}

theorem epochDeadline_missing (hc : s.rd R.GLB_EPOCH_STATUS_state = 1) (hm : s.allAcked = false) :
    s.epochDeadline = (s.runTo (ft64Units (s.rd R.GLB_EPOCH_T_t) - 10 * unitsPerUs)).epochEnd 2 := if_pos ⟨hc, hm⟩

/-- A unit that the epoch awaits and that finds its staged values legal acknowledges (R64). -/
theorem unitAck_legal (ha : s.awaited u = true) (hr : s.unitRefuses u = false) (hc : (s.unitCause u).1 = 0) :
    s.unitAck u =
      let a := (s.unitCause u).2.setEpochBit R.GLB_EPOCH_ACK_ack u true
      if a.allAcked then a.wr R.GLB_EPOCH_STATUS_state 2 else a := by
  simp [State.unitAck, ha, hr, hc]

/-- A unit out of service, and not held, ends the epoch and records itself (R64, R515). -/
theorem unitRefuse_outOfService (ha : s.awaited u = true) (hr : s.unitRefuses u = true) (hh : s.heldUnit u = false) :
    s.unitRefuse u = (s.wr R.HLT_STATUS_epoch_ref u).epochEnd 3 := by
  simp [State.unitRefuse, ha, hr, hh]

/-- With no unit failing, every armed one applies at T and the epoch ends with result 0 (R65). -/
theorem epochApply_none_fails {t : State} (hc : s.rd R.GLB_EPOCH_STATUS_state = 2)
    (ht : s.runTo (ft64Units (s.rd R.GLB_EPOCH_T_t)) = t) :
    s.epochApply [] = (((List.range 111).filter t.armed).foldl State.unitApply
      (t.wr R.GLB_EPOCH_NUM_num (t.rd R.GLB_EPOCH_NUM_num + 1))).epochEnd 0 := by
  have hnone : ∀ l : List Nat, l.any [].contains = false := fun l => List.any_eq_false.mpr (fun _ _ => by simp)
  simp [State.epochApply, hc, ht, hnone, b2n]

end EpochRun

/-! ### The obligation -/

/-- Settles O3: kick, go and cancel are writes that their registers turn into the watchdog's and the controller's own operations;
expiry, answers, deadline and apply are what the released domain makes of them. -/
theorem watchdogsAndEpochs : Obligations.WatchdogsAndEpochs := by
  unfold Obligations.WatchdogsAndEpochs
  refine ⟨?kick, ?expire, ?go, ?unarmed, ?cancel, ?deadline, ?ack, ?refuse, ?apply⟩
  case kick =>
    intro s req w h hrun
    exact congrArg s.done ((wrReg_wdogKick h).trans (congrArg State.after (wdogKick_running hrun)))
  case expire =>
    intro s w t0 hup hrun hact
    rw [← wdogFire_noAction ((runTo_rd ..).trans hact), ← wdogExpire_running hrun]
    exact whenMain_released (f := (·.wdogExpire w)) hup rfl
  case go =>
    intro s req h hidle harm hT hlo hhi
    rw [← epochGo_starts hidle harm hT hlo hhi]
    exact gives_epochGo h hidle
  case unarmed =>
    intro s req h hidle h0 h1
    rw [← epochGo_unarmed hidle h0 h1]
    exact gives_epochGo h hidle
  case cancel => exact fun s req => gives_epochCancel
  case deadline => exact fun s hup hc hm => whenMain_released hup (epochDeadline_missing hc hm)
  case ack =>
    exact fun s u hup ha hr hc => whenMain_released (f := (·.unitAck u)) hup (unitAck_legal ha hr hc)
  case refuse =>
    exact fun s u hup ha hr hh => whenMain_released (f := (·.unitRefuse u)) hup (unitRefuse_outOfService ha hr hh)
  case apply =>
    exact fun s hup hc => whenMain_released (f := fun s => (s.epochApply []).drainDue) hup
      (congrArg State.drainDue (epochApply_none_fails hc rfl))

end Sys2Proof.Proofs
end

section
/-! PROOFS. Entries of rings from their read to their completion (07_rings.md R179-R207; 02_fabric_time.md R59-R61): reading,
starting, launching, performing, waiting, aborting, completing, and the records of event rings. -/

namespace Sys2Proof.Proofs
open Sys2Proof Sys2Proof.Machine Sys2Proof.Laws

/-! ### Rings as stored -/

section Rings
variable (s : State) (r : Nat)

theorem ring_setRing_same (x : Ring) : (s.setRing r x).ring r = some x :=
  get_put_same none s.rng.rings r (some x)

theorem ring_modRing_same (f : Ring → Ring) : (s.modRing r f).ring r = (s.ring r).map f := by
  cases h : s.ring r with
  | none => simp [State.modRing, h]
  | some x => simp [State.modRing, h, ring_setRing_same]

/-- Whether a ring interrupts does not depend on what the ring engine keeps beside its context. -/
theorem signals_modRing {f : Ring → Ring} (hf : ∀ x, (f x).signals = x.signals) :
    ((s.modRing r f).ring r).map Ring.signals = (s.ring r).map Ring.signals := by
  rw [ring_modRing_same, Option.map_map]
  exact congrArg (fun h => (s.ring r).map h) (funext hf)

theorem signals_retireFlight (g : Flight) :
    ((s.retireFlight r g).ring r).map Ring.signals = (s.ring r).map Ring.signals := by
  unfold State.retireFlight
  dsimp only
  split <;> exact signals_modRing s r fun _ => rfl

/-- A ring without interrupts is not moderated (R207). -/
theorem moderate_silent (irq : Bool) (h : (s.ring r).map Ring.signals = some false) : s.moderate r irq = s := by
  obtain ⟨x, hx, hsig⟩ := Option.map_eq_some_iff.mp h
  simp [State.moderate, hx, hsig]

theorem modFlight_due (c : Nat) (f : Flight → Flight) : (s.modFlight r c f).due = s.due := by
  unfold State.modFlight State.modRing
  split <;> rfl

/-- Finishing an entry makes nothing due. -/
theorem finish_due (c : Nat) (k : Cpl) : (s.finish r c k).due = s.due := by
  unfold State.finish State.lateFree
  split
  next => dsimp only; split <;> rfl
  next =>
    split
    next => split <;> simp only [modFlight_due]
    next => rfl

end Rings

/-! ### Reads and writes of HBM without errors -/

section Hbm
variable {s : State} {a n : Nat} {bs : List Byte}

theorem readWords_clean : ∀ {ws : List Nat}, ws.any s.wordBad = false → s.readWords ws = s
  | [], _ => rfl
  | w :: ws, h => by
    obtain ⟨hw, hws⟩ : s.wordBad w = false ∧ ws.any s.wordBad = false := by simpa using h
    rw [State.readWords, hw]
    exact readWords_clean hws

/-- A read of good words below the limit answers the bytes and counts nothing (R98, R99). -/
theorem hbmRead_clean (hlim : a + n ≤ s.hbmLimit) (hc : (wordsOf a n).any s.wordBad = false) :
    s.hbmRead a n = { data := Mem.read s.mem.hbm a n, bad := false, status := 0, next := s } := by
  simp [State.hbmRead, Nat.not_lt.mpr hlim, hc, readWords_clean hc]

/-- A whole word is written without a status, and rings are no part of it. -/
theorem hbmWriteWord_whole (bad : Bool) (h : 8 ≤ bs.length) :
    (s.hbmWriteWord a bs bad).2 = 0 ∧ (s.hbmWriteWord a bs bad).1.rng = s.rng := by
  unfold State.hbmWriteWord
  split
  next => exact ⟨rfl, rfl⟩
  next => rw [if_neg fun hpart => by omega]; exact ⟨rfl, rfl⟩

theorem hbmWriteAux_whole (bad : Bool) : ∀ (n : Nat) (s : State) (a : Nat) (bs : List Byte), a % 8 = 0 → bs.length % 8 = 0 →
    (State.hbmWriteAux bad n s a bs 0).2 = 0 ∧ (State.hbmWriteAux bad n s a bs 0).1.rng = s.rng
  | 0, _, _, _, _, _ => ⟨rfl, rfl⟩
  | n + 1, s, a, bs, ha, hbs => by
    unfold State.hbmWriteAux
    split
    next => exact ⟨rfl, rfl⟩
    next hne =>
      have hlen : bs.length ≠ 0 := fun h => hne (by simpa using h)
      obtain ⟨hst, hrng⟩ := hbmWriteWord_whole (s := s) (a := a) (bs := bs.take 8) bad (by rw [List.length_take]; omega)
      have ih := hbmWriteAux_whole bad n (s.hbmWriteWord a (bs.take 8) bad).1 (a + 8) (bs.drop 8) (by omega)
        (by rw [List.length_drop]; omega)
      simpa only [ha, Nat.sub_zero, hst, if_true, hrng] using ih

/-- Whole words below the limit are written without a status (R98, R102). -/
theorem hbmWrite_whole (hlim : a + bs.length ≤ s.hbmLimit) (ha : a % 8 = 0) (hbs : bs.length % 8 = 0) :
    (s.hbmWrite a bs).2 = 0 ∧ (s.hbmWrite a bs).1.rng = s.rng := by
  rw [State.hbmWrite, if_neg (Nat.not_lt.mpr hlim)]
  exact hbmWriteAux_whole false _ s a bs ha hbs

/-- Slice 0 may write any address below the limit (R161). -/
theorem writeFor_slice0 (hlim : a + bs.length ≤ s.hbmLimit) (ha : a % 8 = 0) (hbs : bs.length % 8 = 0) :
    s.writeFor 0 true a bs = (.ok [], (s.hbmWrite a bs).1) := by
  have hclaim : s.claimHbm 0 a bs.length = some s := by
    rw [State.claimHbm, if_neg (Nat.not_lt.mpr hlim), if_pos rfl]
  simp only [State.writeFor, if_true, hclaim, (hbmWrite_whole hlim ha hbs).1]

end Hbm

/-! ### Reading entries -/

section Reading
variable {s : State} {r : Nat} {x : Ring} {c : Nat} {d : List Byte}

theorem readHbmEntry_clean (hlim : x.entry c + 64 ≤ s.hbmLimit) (hc : (wordsOf (x.entry c) 64).any s.wordBad = false) :
    s.readHbmEntry r x c = s.gotEntry r c (Mem.read s.mem.hbm (x.entry c) 64) := by
  rw [State.readHbmEntry, hbmRead_clean hlim hc]
  rfl

/-- A resident ring in HBM reads the next entry it may read. -/
theorem descRead_hbm (hr : s.ring r = some x) (hst : x.state = 1) (hres : x.eng.resident = true) (hm : x.mem = true)
    (hw : x.wants = some c) : s.descRead r = s.readHbmEntry r x c := by
  simp [State.descRead, hr, hst, hres, hm, hw]

/-- The covered entry at head, read with phase 0, is read again (R194). -/
theorem refetch_hbm (hr : s.ring r = some x) (hst : x.state = 1) (hm : x.mem = true) (hb : before x.head x.tail = true)
    (hcop : x.eng.copies = [(x.head, d)]) (hph : dPhase d = false) :
    s.refetch r =
      let y := { x with eng := { x.eng with copies := [], refetch := x.eng.refetch + 1 } }
      ((s.pass (max (s.rd R.RNG_CFG_refetch_us) 1 * unitsPerUs)).setRing r y).readHbmEntry r y x.head := by
  simp [State.refetch, Ring.eng', hr, hst, hm, hb, hcop, hph]

end Reading

/-! ### Starting an entry -/

/-- The state with one tag of pool 1 charged to slice `sl`, its number drawn. -/
def tagTaken (s : State) (sl : Nat) : State := ({ s with free := s.free + 1 } : State).charge sl 1

/-- The entry `d` at head of `x` as it goes in flight, with the tag that is drawn. -/
def startedFlight (s : State) (x : Ring) (d : List Byte) : Flight :=
  { count := x.head, tag := some (freeTag s.tagsHeld s.tagsHeld.length (Config.tagPick s.free)), desc := d, slice := dSlice d,
    sgen := s.sliceGen (dSlice d), fgen := (s.sliceFn (dSlice d)).map s.fnGen, launch := dLaunch d, fetched := s.time.ft,
    staged := dLaunch d != 0, startAt := s.time.ft }

/-- The ring with its only copy, that of the entry at head, gone in flight as `g` at FT `now`. -/
def launchedRing (x : Ring) (g : Flight) (now : Nat) : Ring :=
  { x with head := cnt (x.head + 1), eng := { x.eng with copies := [], refetch := 0, marked := [], used := now, flight := x.eng.flight ++ [g] } }

section Starting
variable {s : State} {r : Nat} {x : Ring} {d : List Byte} {g : Flight}

/-- A charge of a pool changes the in_use field alone. -/
theorem rd_tagTaken (s : State) (sl : Nat) (f : Fld) (i j k : Nat) (h : f.key i j k ≠ R.SLC_QUOTA_in_use.key sl 1 0) :
    (tagTaken s sl).rd f i j k = s.rd f i j k := rd_wr_other _ _ _ _ _ _ _ _ _ _ h

@[simp] theorem tagTaken_time (s : State) (sl : Nat) : (tagTaken s sl).time = s.time := rfl

theorem sliceGen_tagTaken (s : State) (sl x : Nat) : (tagTaken s sl).sliceGen x = s.sliceGen x :=
  rd_tagTaken _ _ _ _ _ _ (by simp only [Fld.key, Fld.off, R.SLC_STATE_gen, R.SLC_QUOTA_in_use]; omega)

theorem fnGen_tagTaken (s : State) (sl : Nat) : (tagTaken s sl).fnGen = s.fnGen :=
  funext fun _ => rd_tagTaken _ _ _ _ _ _ (by simp only [Fld.key, Fld.off, R.HIF_PF_STATUS_gen, R.SLC_QUOTA_in_use]; omega)

theorem sliceFn_tagTaken (s : State) (sl x : Nat) : (tagTaken s sl).sliceFn x = s.sliceFn x := by
  have hen := rd_tagTaken s sl R.SLC_BIND_host_en x 0 0
    (by simp only [Fld.key, Fld.off, R.SLC_BIND_host_en, R.SLC_QUOTA_in_use]; omega)
  have hhif := rd_tagTaken s sl R.SLC_BIND_hif x 0 0
    (by simp only [Fld.key, Fld.off, R.SLC_BIND_hif, R.SLC_QUOTA_in_use]; omega)
  have hpf := rd_tagTaken s sl R.SLC_BIND_pf x 0 0
    (by simp only [Fld.key, Fld.off, R.SLC_BIND_pf, R.SLC_QUOTA_in_use]; omega)
  rw [State.sliceFn, State.on, hen, hhif, hpf]
  rfl

theorem allocTag_granted {sl : Nat} (h : s.allocStatus sl 1 = 0) :
    s.allocTag sl = some (freeTag s.tagsHeld s.tagsHeld.length (Config.tagPick s.free), tagTaken s sl) := if_pos h

theorem launchEntry_onlyCopy (hcop : x.eng.copies = [(x.head, d)]) (hmark : x.eng.marked = []) :
    s.launchEntry r x g = s.setRing r (launchedRing x g s.time.ft) := by
  simp [State.launchEntry, Ring.advance, Ring.eng', launchedRing, hcop, hmark]

/-- The entry at head passes every check and takes a tag (R190). -/
theorem startEntry_passes (hr : s.ring r = some x) (hst : x.state = 1) (hb : before x.head x.tail = true)
    (hw : s.rng.waits = []) (hres : x.eng.resident = true) (hfl : x.eng.flushing = false) (hmark : x.eng.marked = [])
    (hcop : x.eng.copies = [(x.head, d)]) (hph : dPhase d = true) (hck : s.startCheck x d = 0) (hfe : dFence d = false)
    (hsl : s.sliceState (dSlice d) = 1) (hal : s.allocStatus (dSlice d) 1 = 0) :
    s.startEntry r =
      ((tagTaken s (dSlice d)).setRing r (launchedRing x (startedFlight s x d) s.time.ft), some x.head) := by
  simp [State.startEntry, State.ringWaits, hr, hst, hb, hw, hres, hfl, hmark, hcop, hph, hck, hfe, hsl, allocTag_granted hal,
    launchEntry_onlyCopy hcop hmark, startedFlight, sliceGen_tagTaken, fnGen_tagTaken, sliceFn_tagTaken]

/-- The entry that has just gone in flight is found under its count, no earlier one having it. -/
theorem flight_setRing_launched (hr : s.ring r = some x) (hnone : s.flight r x.head = none) (hg : g.count = x.head)
    (t : State) (now : Nat) : (t.setRing r (launchedRing x g now)).flight r x.head = some g := by
  have hno : x.eng.flight.find? (·.count == x.head) = none := by simpa [State.flight, hr] using hnone
  simp [State.flight, ring_setRing_same, launchedRing, List.find?_append, hno, hg]

theorem workFull_type0 (hr : s.ring r = some x) (ht : x.type = 0) : s.workFull r = false := by
  simp [State.workFull, hr, ht]

/-- What follows the start of an entry of a type 0 ring: a staged one waits, another asks for its payload. -/
theorem descStart_started {t : State} {now : Nat} (hr : s.ring r = some x) (ht : x.type = 0)
    (hnone : s.flight r x.head = none) (hheld : s.sendHeld r = false) (hg : g.count = x.head)
    (hstart : s.startEntry r = (t.setRing r (launchedRing x g now), some x.head)) :
    s.descStart r =
      if g.staged then t.setRing r (launchedRing x g now) else (t.setRing r (launchedRing x g now)).payloadRead r x g := by
  have htype : (launchedRing x g now).type = 0 := ht
  simp only [State.descStart, hheld, workFull_type0 hr ht, hstart, flight_setRing_launched hr hnone hg, ring_setRing_same, htype]
  rfl

end Starting

/-! ### Launch timing -/

section Launching
variable {s : State} {r : Nat} {x : Ring} {g : Flight}

theorem runTo_rng (s : State) (u : Nat) : (s.runTo u).rng = s.rng := by
  unfold State.runTo
  split <;> rfl

theorem runTo_stagedCount (s : State) (u : Nat) : (s.runTo u).stagedCount = s.stagedCount := by
  simp only [State.stagedCount, runTo_rng]

/-- In a released main domain FT reaches a time that is not past, and goes no further. -/
theorem runTo_ft {u : Nat} (hup : s.mainUp = true) (h : s.time.ft ≤ u) : (s.runTo u).time.ft = u := by
  have hsec : s.sec.mainUp = true := hup
  unfold State.runTo
  split
  next => simp only [State.pass, hsec, if_true]; omega
  next => omega

/-- A payload in HBM, or no payload, is fetched at the prefetch time itself (R59). -/
theorem launchPrefetch_here (hr : s.ring r = some x)
    (hg : x.eng.flight.find? (fun g => g.staged && !g.payload && !s.payloadAsked r g.count) = some g)
    (hcnt : s.stagedCount < 512) (hpay : dOpcode g.desc ≠ 0x10 ∨ x.mem = true) :
    s.launchPrefetch r = (s.runTo (ft64Units g.launch - max (s.rd R.FT_LAUNCH_CFG_prefetch_us) 1 * unitsPerUs)).modFlight r
      g.count (fun g => { g with payload := true }) := by
  have hno : (needsPayload g && !x.mem && sendOk g.desc) = false := by
    obtain h | h := hpay <;> simp [needsPayload, h]
  simp [State.launchPrefetch, hr, hg, runTo_stagedCount, Nat.not_le.mpr hcnt, hno]

/-- A payload in host memory is asked for at the prefetch time (R59). -/
theorem launchPrefetch_host (hr : s.ring r = some x)
    (hg : x.eng.flight.find? (fun g => g.staged && !g.payload && !s.payloadAsked r g.count) = some g)
    (hcnt : s.stagedCount < 512) (hop : dOpcode g.desc = 0x10) (hm : x.mem = false) (hok : sendOk g.desc = true) :
    s.launchPrefetch r = (s.runTo (ft64Units g.launch - max (s.rd R.FT_LAUNCH_CFG_prefetch_us) 1 * unitsPerUs)).wantHost
      (.work r g.count) g.slice (fieldLE g.desc 0x10 8) (fieldLE g.desc 0x18 4) := by
  simp [State.launchPrefetch, State.payloadRead, needsPayload, hr, hg, runTo_stagedCount, Nat.not_le.mpr hcnt, hop, hm, hok]

/-- An entry whose launch is still to come, with its payload there, is released in time (R60). -/
theorem launchRelease_inTime (hup : s.mainUp = true) (hr : s.ring r = some x) (hg : x.firstStaged = some g)
    (ht : s.time.ft ≤ ft64Units g.launch) (hpay : needsPayload g = false ∨ g.payload = true) :
    s.launchRelease r = (s.runTo (ft64Units g.launch)).modFlight r g.count (fun g => { g with staged := false }) := by
  have hlate : (needsPayload g && !g.payload) = false := by
    obtain h | h := hpay <;> simp [h]
  simp [State.launchRelease, hr, hg, runTo_ft hup ht, hlate]

end Launching

/-! ### NOP, WAIT, ABORT and posted entries -/

section Performing
variable {s : State} {r : Nat} {x y : Ring} {g : Flight}

theorem nop_performed (hg : s.toPerform r [0] = some g) : s.nop r = s.finish r g.count { status := 0 } := by
  obtain ⟨x, hr⟩ := ring_of_toPerform s r _ g hg
  exact perform_some s r _ _ x g hr hg

/-- A WAIT in order whose watched ring is within reach of its own: it ends at once or waits (R200). -/
theorem waitStart_inOrder (hr : s.ring r = some x) (hg : s.toPerform r [1] = some g) (h12 : fieldLE g.desc 0x12 2 = 0)
    (hz : zeroFrom g.desc 0x1C = true) (hy : s.ring (fieldLE g.desc 0x10 2) = some y) (hsl : y.slice = x.slice ∨ x.slice = 0) :
    s.waitStart r =
      if reached y.cpl (fieldLE g.desc 0x14 4) then s.finish r g.count { status := 0 }
      else
        let t := s.performed r g.count
        let o : WaitOn := { ring := r, count := g.count, watched := fieldLE g.desc 0x10 2, target := fieldLE g.desc 0x14 4, deadline := if fieldLE g.desc 0x18 4 = 0 then none else some (s.time.ft + fieldLE g.desc 0x18 4 * unitsPerUs) }
        { t with rng := { t.rng with waits := t.rng.waits ++ [o] } } := by
  have hmine : ¬(y.slice ≠ x.slice ∧ x.slice ≠ 0) := by tauto
  rw [State.waitStart, perform_some s r _ _ x g hr hg]
  simp [h12, hz, hy, hmine]

theorem waitDone_reached {o : WaitOn} (ho : s.rng.waits.find? (·.ring == r) = some o) (hy : s.ring o.watched = some y)
    (h : reached y.cpl o.target = true) : s.waitDone r = (s.dropWait o).finish r o.count { status := 0 } := by
  simp [State.waitDone, ho, hy, h]

/-- The timeout passes with the count not reached (R200). -/
theorem waitTimeout_passes {o : WaitOn} {u : Nat} (ho : s.rng.waits.find? (·.ring == r) = some o)
    (hy : s.ring o.watched = some y) (h : reached y.cpl o.target = false) (hu : o.deadline = some u) :
    s.waitTimeout r = ((s.runTo u).dropWait o).finish r o.count { status := St.wait_timeout } := by
  simp [State.waitTimeout, State.fail, ho, hy, h, hu]

theorem waitGone_noRing {o : WaitOn} (ho : s.rng.waits.find? (·.ring == r) = some o) (hy : s.ring o.watched = none) :
    s.waitGone r = (s.dropWait o).finish r o.count { status := St.wait_gone } := by
  simp only [State.waitGone, State.fail, ho, hy]

/-- An ABORT in order of an entry not started marks its count (R201). -/
theorem abortStart_marks (hr : s.ring r = some x) (hg : s.toPerform r [2] = some g) (h12 : fieldLE g.desc 0x12 2 = 0)
    (hz : zeroFrom g.desc 0x18 = true) (hy : s.ring (fieldLE g.desc 0x10 2) = some y) (hsl : y.slice = x.slice ∨ x.slice = 0)
    (htail : before (fieldLE g.desc 0x14 4) y.tail = true)
    (hold : before (fieldLE g.desc 0x14 4) (cnt (y.tail + 2 ^ 32 - y.size)) = false)
    (hhead : before (fieldLE g.desc 0x14 4) y.head = false) :
    s.abortStart r =
      (s.setRing (fieldLE g.desc 0x10 2) { y with eng := { y.eng with marked := y.eng.marked ++ [fieldLE g.desc 0x14 4] } }).finish
        r g.count { status := 0 } := by
  have hmine : ¬(y.slice ≠ x.slice ∧ x.slice ≠ 0) := by tauto
  rw [State.abortStart, perform_some s r _ _ x g hr hg]
  simp [-Nat.reducePow, Ring.eng', h12, hz, hy, hmine, htail, hold, hhead]

/-- An ABORT whose target is no longer in flight comes too late (R202). -/
theorem abortArrives_noTarget {a : AbortOn} {l : List AbortOn} (ha : s.rng.aborts = a :: l)
    (hf : s.flight a.tRing a.tCount = none) :
    s.abortArrives = ({ s with rng := { s.rng with aborts := l } } : State).finish a.ring a.count { status := St.too_late } := by
  have hf' : ({ s with rng := { s.rng with aborts := l } } : State).flight a.tRing a.tCount = none := hf
  simp [State.abortArrives, State.abortArrive, State.fail, ha, hf, hf']

theorem recvBuf_posted (hg : s.toPerform r [0x11] = some g) (hlo : 64 ≤ fieldLE g.desc 0x18 4)
    (hhi : fieldLE g.desc 0x18 4 ≤ 16384) (hz : zeroFrom g.desc 0x1C = true) : s.recvBuf r = s.performed r g.count := by
  obtain ⟨x, hr⟩ := ring_of_toPerform s r _ g hg
  rw [State.recvBuf, perform_some s r _ _ x g hr hg]
  simp [Nat.not_lt.mpr hlo, Nat.not_lt.mpr hhi, hz]

theorem eventSlot_posted (hg : s.toPerform r [3] = some g) : s.eventSlot r = s.performed r g.count := by
  obtain ⟨x, hr⟩ := ring_of_toPerform s r _ g hg
  exact perform_some s r _ _ x g hr hg

end Performing

/-! ### Completions, moderation and event records -/

section Completing
variable {s : State} {r : Nat} {x : Ring} {g : Flight}

/-- A completion of slice 0 into HBM, without write-back and interrupt, is written and its tag returns (R197). -/
theorem writeCpl_slice0 {k : Cpl} (hr : s.ring r = some x) (hres : x.eng.resident = true) (hn : x.nextCpl = some g)
    (hk : g.cpl = some k) (hgen : g.sgen = s.sliceGen g.slice) (hm : x.mem = true) (hsl : x.slice = 0) (hwb : x.wbEn = false)
    (hirq : x.irqEn = false) (hlim : x.entry g.count + 64 ≤ s.hbmLimit) (hal : x.entry g.count % 8 = 0)
    (hlen : (cplBytes g k s.now64).length = 64) :
    s.writeCpl r = ((s.hbmWrite (x.entry g.count) (cplBytes g k s.now64)).1.retireFlight r g).modRing r
      (fun x => { x with cpl := cnt (x.cpl + 1) }) := by
  have hfit : x.entry g.count + (cplBytes g k s.now64).length ≤ s.hbmLimit := by rw [hlen]; exact hlim
  have hwhole : (cplBytes g k s.now64).length % 8 = 0 := by rw [hlen]
  have hring : ((s.hbmWrite (x.entry g.count) (cplBytes g k s.now64)).1).ring r = some x := by
    rw [State.ring, (hbmWrite_whole hfit hal hwhole).2]; exact hr
  have hsilent : ((((s.hbmWrite (x.entry g.count) (cplBytes g k s.now64)).1.retireFlight r g).modRing r
      (fun x => { x with cpl := cnt (x.cpl + 1) })).ring r).map Ring.signals = some false := by
    rw [signals_modRing (f := fun x => { x with cpl := cnt (x.cpl + 1) }) _ _ (fun _ => rfl), signals_retireFlight, hring]
    simp [Ring.signals, hirq]
  simp [State.writeCpl, hr, hres, hn, hk, hgen, hm, hsl, hwb, writeFor_slice0 hfit hal hwhole, moderate_silent _ _ _ hsilent]

theorem modTimer_pending {u : Nat} (hr : s.ring r = some x) (hp : x.eng.pendSince = some u) (hsig : x.signals = true)
    (hus : x.modUs ≠ 0) : s.modTimer r = (s.runTo (u + x.modUs * unitsPerUs)).ringFire r := by
  simp [State.modTimer, hr, hp, hsig, hus]

/-- The oldest record fills the first posted slot of its slice's event ring (R205, R206). -/
theorem deliverEvent_posted {e : EventRec} {l : List EventRec} (he : s.evq = e :: l)
    (hen : s.on R.SLC_STATE_evring_en e.toSlice = true) (hr : s.ring (s.rd R.SLC_STATE_evring e.toSlice) = some x)
    (ht : x.type = 2) (hg : x.firstPosted 3 = some g) :
    s.deliverEvent =
      (({ s with evq := l } : State).setRing (s.rd R.SLC_STATE_evring e.toSlice) { x with eng := { x.eng with evSeq := x.eng.evSeq + 1, lost := 0 } }).finish
        (s.rd R.SLC_STATE_evring e.toSlice) g.count
        { status := 0, bytes := 32, x18 := leBytes 8 x.eng.evSeq ++ eventBytes { e with lost := x.eng.lost } } := by
  have hen' : ({ s with evq := l } : State).on R.SLC_STATE_evring_en e.toSlice = true := hen
  have hrd : ({ s with evq := l } : State).rd R.SLC_STATE_evring e.toSlice = s.rd R.SLC_STATE_evring e.toSlice := rfl
  have hr' : ({ s with evq := l } : State).ring (s.rd R.SLC_STATE_evring e.toSlice) = some x := hr
  simp [State.deliverEvent, Ring.eng', he, hen', hrd, hr', ht, hg]

end Completing

/-! ### The obligation -/

/-- A started entry of a type 0 ring and what follows its start, as the command carries it out. -/
theorem gives_descriptorStart {s t : State} {r : Fin 65536} (hup : s.mainUp = true) (h : s.descStart r = t) :
    Gives (.descriptorStart r) s t.drainDue :=
  whenMain_released (f := fun s => (s.descStart r).drainDue) hup (congrArg State.drainDue h)

theorem gives_abortArrive {s t : State} (hup : s.mainUp = true) (h : s.abortArrives.drainDue = t) : Gives .abortArrive s t :=
  whenMain_released (f := fun s => s.abortArrives.drainDue) hup h

theorem gives_launchPrefetch {s t : State} {r : Fin 65536} (hup : s.mainUp = true) (h : s.launchPrefetch r = t) :
    Gives (.launchPrefetch r) s t := whenMain_released (f := (·.launchPrefetch r)) hup h

theorem gives_wait {s t : State} {r : Fin 65536} (hup : s.mainUp = true) (h : s.waitStart r = t) :
    Gives (.wait r) s t := whenMain_released (f := (·.waitStart r)) hup h

/-- Settles O12: in a released main domain each command is its step of the ring engine, and each step does what the ring, the
entry and the clock it finds say. -/
theorem descriptorsAndCompletions : Obligations.DescriptorsAndCompletions := by
  unfold Obligations.DescriptorsAndCompletions
  refine ⟨?read, ?refetch, ?start, ?prefetch, ?prefetchHost, ?release, ?nop, ?reached, ?waits, ?satisfied, ?timeout, ?gone,
    ?abort, ?abortLate, ?completion, ?moderation, ?buffer, ?slot, ?record⟩
  case read =>
    intro s r x c hup hr hst hres hm hw hlim hc
    exact whenMain_released (f := (·.descRead r)) hup ((descRead_hbm hr hst hres hm hw).trans (readHbmEntry_clean hlim hc))
  case refetch =>
    exact fun s r x d hup hr hst hm hb hcop hph =>
      whenMain_released (f := (·.refetch r)) hup (refetch_hbm hr hst hm hb hcop hph)
  case start =>
    intro s r x d hup hr ht hnone hheld hst hb hw hres hfl hmark hcop hph hck hfe hsl hal
    exact gives_descriptorStart hup (descStart_started hr ht hnone hheld rfl
      (startEntry_passes hr hst hb hw hres hfl hmark hcop hph hck hfe hsl hal))
  case prefetch =>
    exact fun s r x g hup hr hg hcnt hpay => gives_launchPrefetch hup (launchPrefetch_here hr hg hcnt hpay)
  case prefetchHost =>
    exact fun s r x g hup hr hg hcnt hop hm hok => gives_launchPrefetch hup (launchPrefetch_host hr hg hcnt hop hm hok)
  case release =>
    exact fun s r x g hup hr hg ht hpay =>
      whenMain_released (f := (·.launchRelease r)) hup (launchRelease_inTime hup hr hg ht hpay)
  case nop => exact fun s r g hup hg => whenMain_released (f := (·.nop r)) hup (nop_performed hg)
  case reached =>
    intro s r x y g hup hr hg h12 hz hy hsl hreach
    exact gives_wait hup ((waitStart_inOrder hr hg h12 hz hy hsl).trans (if_pos hreach))
  case waits =>
    intro s r x y g hup hr hg h12 hz hy hsl hreach hus
    refine gives_wait hup ((waitStart_inOrder hr hg h12 hz hy hsl).trans ?_)
    simp only [hreach, hus, Bool.false_eq_true, if_false, if_true]
  case satisfied =>
    exact fun s r y o hup ho hy h => whenMain_released (f := (·.waitDone r)) hup (waitDone_reached ho hy h)
  case timeout =>
    exact fun s r y o u hup ho hy h hu => whenMain_released (f := (·.waitTimeout r)) hup (waitTimeout_passes ho hy h hu)
  case gone => exact fun s r o hup ho hy => whenMain_released (f := (·.waitGone r)) hup (waitGone_noRing ho hy)
  case abort =>
    rintro s r x y g t c hup hr hg h12 hz rfl rfl hy hsl htail hold hhead
    exact whenMain_released (f := (·.abortStart r)) hup (abortStart_marks hr hg h12 hz hy hsl htail hold hhead)
  case abortLate =>
    intro s a l hup hdue ha hf
    refine gives_abortArrive hup ((congrArg State.drainDue (abortArrives_noTarget ha hf)).trans ?_)
    exact drainDue_nil _ ((finish_due ..).trans hdue)
  case completion =>
    exact fun s r x g k hup hr hres hn hk _ hgen hm hsl hwb hirq hlim hal hlen =>
      whenMain_released (f := (·.writeCpl r)) hup (writeCpl_slice0 hr hres hn hk hgen hm hsl hwb hirq hlim hal hlen)
  case moderation =>
    exact fun s r x u hup hr hp hsig hus => whenMain_released (f := (·.modTimer r)) hup (modTimer_pending hr hp hsig hus)
  case buffer =>
    exact fun s r g hup hg hlo hhi hz => whenMain_released (f := (·.recvBuf r)) hup (recvBuf_posted hg hlo hhi hz)
  case slot => exact fun s r g hup hg => whenMain_released (f := (·.eventSlot r)) hup (eventSlot_posted hg)
  case record =>
    rintro s e l r x g hup he hen rfl hr ht hg
    exact whenMain_released (f := State.deliverEvent) hup (deliverEvent_posted he hen hr ht hg)

end Sys2Proof.Proofs
end

section
/-! PROOFS. Fuses (03_boot_images.md R90, R91, R95): every command ends in a state that settle has closed, whose fuses are burnt
over those before it, and a clock without a command leaves them alone. -/

namespace Sys2Proof.Proofs
open Sys2Proof Sys2Proof.Machine Sys2Proof.Laws

/-- A command that belongs to neither domain alone ends through settle. -/
theorem exec_of_domain_whole (c : Instr) (s : State) (h : c.domain = .whole) : ∃ u, exec c s = .next (s.settle u) := by
  cases c <;> cases h <;> (simp only [exec]; exact ⟨_, rfl⟩)

/-- Every command ends in what settle makes of some state: the guards of both domains end there too. -/
theorem exec_settles (c : Instr) (s : State) : ∃ u, exec c s = .next (s.settle u) := by
  cases hc : c.domain with
  | main =>
    obtain ⟨f, hf⟩ := exec_of_domain_main c s hc
    exact ⟨_, hf⟩
  | island =>
    obtain ⟨f, hf⟩ := exec_of_domain_island c s hc
    exact ⟨_, hf⟩
  | whole => exact exec_of_domain_whole c s hc

@[simp] theorem tick_otp (s : State) : s.tick.otp = s.otp := by
  unfold State.tick
  dsimp only
  split <;> rfl

/-- Sending what the channels of the management package hold reaches no fuse. -/
@[simp] theorem ncsiDrain_otp (s : State) : s.ncsiDrain.otp = s.otp := by
  refine List.foldlRecOn (motive := fun t : State => t.otp = s.otp) _ _ rfl fun t ht p _ => ?_
  split
  · exact ht
  · exact ht

theorem within_refl (o : Otp) : o.Within o := ⟨rfl, rfl, le_rfl, fun _ h => h⟩

theorem within_exec {c : Instr} {s t : State} (h : exec c s = .next t) : s.otp.Within t.otp := by
  obtain ⟨u, hu⟩ := exec_settles c s
  obtain rfl : s.settle u = t := Host.Outcome.next.inj (hu.symm.trans h)
  exact burnt_within s.otp u.otp

/-- A step blows fuses and does nothing else to them. -/
theorem within_step {s t : State} (h : step s = .next t) : s.otp.Within t.otp := by
  unfold step at h
  split at h
  next =>
    obtain rfl : s.idle = t := Host.Outcome.next.inj h
    have hidle : s.idle.otp = s.otp := (ncsiDrain_otp _).trans (tick_otp s)
    exact hidle ▸ within_refl s.otp
  next c rest _ => exact within_exec (s := { s with pending := rest }) h

/-- Settles O50: a step keeps or blows each fuse, and so does whatever came before it. -/
theorem fusesOnlyBlow : Obligations.FusesOnlyBlow := by
  unfold Obligations.FusesOnlyBlow
  exact fun _ _ _ hbefore hstep => within_trans hbefore (within_step hstep)

end Sys2Proof.Proofs
end

section
/-! PROOFS. Power, boot and release (03_boot_images.md R70, R75, R77-R81; 21_management.md R521; 23_electrical_package.md R551,
R552): what each event of the boot makes of a state in which it can happen. -/

namespace Sys2Proof.Proofs
open Sys2Proof Sys2Proof.Machine Sys2Proof.Laws

/-! ### Power and pins -/

section Power
variable {s : State}

/-- AON_RST# before main power-good: a static address that SMBus allows is taken as the straps give it (R550, R554). -/
theorem aonReset_first {addr pkg : Nat} (hup : s.isl.up = false) (hpg : s.isl.mainPg = false) (hlo : 8 ≤ addr)
    (hhi : addr < 0x78) :
    s.aonReset addr pkg =
      let t := (s.wr R.MGT_INFO_smbus_addr addr).wr R.MGT_NCSI_STATUS_package pkg
      { t with isl := { t.isl with up := true } } := by
  have haddr : ¬(addr < 8 ∨ 0x78 ≤ addr) := by omega
  simp [State.aonReset, hup, hpg, haddr]

/-- MAIN_PG rises with the island running and holding no reset (R551). -/
theorem mainPowerGood_rises (b0 b1 romOk : Bool) (hpg : s.isl.mainPg = false) (hup : s.isl.up = true)
    (hhold : s.isl.hold = none) :
    s.mainPowerGood b0 b1 romOk =
      ({ s with isl := { s.isl with mainPg := true, straps := b2n b0 + 2 * b2n b1 } } : State).strapHif.romFlow romOk := by
  simp [State.mainPowerGood, State.strapHif, hpg, hup, hhold]

theorem mainPgLoss_up (hpg : s.isl.mainPg = true) :
    s.mainPgLoss =
      let t := s.clearMain.recordCause 0 0
      { t with isl := { t.isl with mainPg := false, hold := none } } := if_pos hpg

/-! ### Resets that the island holds -/

theorem requestReset_idle (cause : Nat) (hhold : s.isl.hold = none) (hpg : s.isl.mainPg = true) :
    s.requestReset cause = s.mainReset cause := by
  simp only [State.requestReset, hhold, hpg, if_true]

/-- A management write of main_reset is a reset request of cause 3 (R521). -/
theorem wrReg_mgtCtrl {req : Req} (h : s.takes req 0x14 0 R.reg_MGT_CTRL) :
    s.wrReg req 0x14 R.reg_MGT_CTRL (2 ^ 31) = (s.requestReset 3).after :=
  wrReg_takes s req 0x14 R.reg_MGT_CTRL (2 ^ 31) 0 0 0 0 h (by decide)

theorem runIsland_past {u : Nat} (h : u ≤ s.isl.ft) : s.runIsland u = s := if_neg (Nat.not_lt.mpr h)

/-- A reset that no thermal trip holds ends 10 ms after it began (R521). -/
theorem resetRelease_held {h : Hold} (romOk : Bool) (hhold : s.isl.hold = some h) (hcause : h.cause ≠ 2) :
    s.resetRelease romOk =
      let t := s.runIsland (h.since + 10 * unitsPerMs)
      let u := { t with isl := { t.isl with hold := none } }
      if u.isl.mainPg then u.romFlow romOk else u := by
  unfold State.resetRelease
  rw [hhold]
  exact if_neg hcause

/-- Once its 10 ms have passed, such a reset ends in the ROM flow (R521). -/
theorem resetRelease_elapsed {h : Hold} (romOk : Bool) (hhold : s.isl.hold = some h) (hcause : h.cause ≠ 2)
    (hpg : s.isl.mainPg = true) (hpast : h.since + 10 * unitsPerMs ≤ s.isl.ft) :
    s.resetRelease romOk = ({ s with isl := { s.isl with hold := none } } : State).romFlow romOk := by
  rw [resetRelease_held romOk hhold hcause, runIsland_past hpast]
  exact if_pos hpg

end Power

/-! ### The boot attempt -/

section Boot
variable {s : State}

/-- A fill pass that met no error (R104, R105). -/
theorem fillEnd_good (us : Nat) (hload : s.rd R.SEC_BOOT_STATUS_state = 1) (hfill : s.sec.fillDone = false) :
    s.fillEnd true us 0 false =
      let t := ((s.raise R.MEM_FILL_STATUS_done).wr R.MEM_FILL_STATUS_fill_us (min us 0xFFFF)).raise R.HLT_BOOT_TEST_done
      { t with mem := { t.mem with hbm := [], bad := [] }, sec := { t.sec with fillDone := true } } := by
  simp [State.fillEnd, hload, hfill]

/-- Segment 0 goes to the shared L2, as the first of its image (R79). -/
theorem segmentLoaded_first (hload : s.rd R.SEC_BOOT_STATUS_state = 1) (hnone : s.rd R.SEC_LOAD_PROGRESS_seg_done = 0)
    (hseg : 0 < hdrSegCount (s.slot (s.rd R.SEC_BOOT_STATUS_slot)).hdr) :
    s.segmentLoaded 0 =
      let sl := s.slot (s.rd R.SEC_BOOT_STATUS_slot)
      let g := hdrSeg sl.hdr 0
      let t := s.wr R.SEC_LOAD_PROGRESS_seg_done 1
      { t with l2 := Mem.write t.l2 g.2.2 (copyBody sl.body g.1 g.2.1) } := by
  simp [State.segmentLoaded, hload, hnone, hseg]

theorem mainRelease_ready (hload : s.rd R.SEC_BOOT_STATUS_state = 1) (hfill : s.sec.fillDone = true)
    (hseg : bit (s.rd R.SEC_LOAD_PROGRESS_seg_done) 0 = true) :
    s.mainRelease =
      let h := (s.slot (s.rd R.SEC_BOOT_STATUS_slot)).hdr
      ((s.release.wr R.FCR_THREAD_PC_pc (0x2000000 + (hdrSeg h 0).2.2 + hdrEntry h) 0 0).wr R.FCR_THREAD_CFG_slice 0 0
        0).threadEnable 0 := if_pos ⟨hload, hfill, hseg⟩

end Boot

/-! ### The cuff -/

section Cuff
variable {s : State}

theorem cuffOpen_wr_other (f : Fld) (v i : Nat) (h : R.SEC_BOOT_STATUS_cuff_open.key 0 0 0 ≠ f.key i 0 0) :
    (s.wr f v i).cuffOpen = s.cuffOpen := congrArg (· == 1) (rd_wr_other s f _ v i 0 0 0 0 0 h)

theorem cuffOpen_raise_cuff_open : (s.raise R.SEC_BOOT_STATUS_cuff_open).cuffOpen = true :=
  congrArg (· == 1) (rd_raise_same s R.SEC_BOOT_STATUS_cuff_open 0 0 0)

theorem setSlot_rd (i : Nat) (x : Slot) (f : Fld) (a b c : Nat) : (s.setSlot i x).rd f a b c = s.rd f a b c := by
  unfold State.setSlot
  split <;> rfl

/-- Retiring the other slot leaves the cuff as it is. -/
theorem retireOther_cuffOpen : s.retireOther.cuffOpen = s.cuffOpen := by
  unfold State.retireOther
  dsimp only
  split
  · exact (cuffOpen_wr_other _ _ _ (by decide)).trans (congrArg (· == 1) (setSlot_rd ..))
  · rfl

/-- With every segment loaded the cuff opens (R80). -/
theorem openCuff_opens (hrun : s.rd R.SEC_BOOT_STATUS_state = 2) (hall : s.allLoaded = true) :
    s.openCuff.cuffOpen = true := by
  rw [State.openCuff, if_pos ⟨hrun, hall⟩]
  refine (cuffOpen_wr_other _ _ _ (by decide)).trans (retireOther_cuffOpen.trans ?_)
  have hopen : (((s.raise R.SEC_BOOT_STATUS_cuff_open).wr R.SEC_BOOT_STATUS_state 3).clearTried).cuffOpen = true := by
    simp only [State.clearTried]
    rw [cuffOpen_wr_other _ _ _ (by decide), cuffOpen_wr_other _ _ _ (by decide), cuffOpen_wr_other _ _ _ (by decide)]
    exact cuffOpen_raise_cuff_open
  split <;> exact hopen

theorem cuffOpens_opens (hrun : s.rd R.SEC_BOOT_STATUS_state = 2) (hall : s.allLoaded = true) (hclosed : s.cuffOpen = false) :
    s.cuffOpens = s.openCuff.afterCuff.drainDue := if_pos ⟨hclosed, openCuff_opens hrun hall⟩

end Cuff

/-! ### The obligation -/

/-- Settles O5: each command is its event, and each event does what the power, the pins and the boot state it finds say. -/
theorem powerAndRelease : Obligations.PowerAndRelease := by
  unfold Obligations.PowerAndRelease
  refine ⟨?powerOn, ?aonReset, ?powerGood, ?pgLoss, ?mainReset, ?resetRelease, ?fill, ?segment, ?release, ?cuff, ?fail,
    ?powerLoss⟩
  case powerOn => exact fun s => done_eq s s.powerOn
  case aonReset => exact fun s addr pkg hup hpg hlo hhi => congrArg s.done (aonReset_first hup hpg hlo hhi)
  case powerGood => exact fun s b0 b1 romOk hpg hup hhold => congrArg s.done (mainPowerGood_rises b0 b1 romOk hpg hup hhold)
  case pgLoss => exact fun s hpg => congrArg s.done (mainPgLoss_up hpg)
  case mainReset =>
    intro s ht hhold hpg
    refine congrArg s.done ((wrReg_mgtCtrl ht).trans ?_)
    rw [requestReset_idle 3 hhold hpg]
    rfl
  case resetRelease =>
    exact fun s romOk h hhold hcause hpg hpast => congrArg s.done (resetRelease_elapsed romOk hhold hcause hpg hpast)
  case fill => exact fun s us hload hfill => congrArg s.done (fillEnd_good us hload hfill)
  case segment => exact fun s hload hnone hseg => congrArg s.done (segmentLoaded_first hload hnone hseg)
  case release => exact fun s hload hfill hseg => congrArg s.done (mainRelease_ready hload hfill hseg)
  case cuff => exact fun s hrun hall hclosed => congrArg s.done (cuffOpens_opens hrun hall hclosed)
  case fail => exact fun s status hst => congrArg s.done (if_pos hst)
  case powerLoss => exact fun s => done_eq s s.powerOn

end Sys2Proof.Proofs
end

section
/-! PROOFS. The security mailboxes, update sessions, fuse commits and key revocation (03_boot_images.md R84-R96): what a mailbox
command leaves of the registers it is judged by, and each command in the state it finds. -/

namespace Sys2Proof.Proofs
open Sys2Proof Sys2Proof.Machine Sys2Proof.Laws

/-! ### Mailbox commands -/

section Mailboxes
variable {s t : State} {req : Req} {m op arg : Nat}

/-- Writing a mailbox command leaves every field outside its opcode and argument alone. -/
theorem mboxPut_rd (f : Fld) (i : Nat) (hop : f.key i 0 0 ≠ R.SEC_MBOX_CMD_opcode.key m 0 0)
    (harg : f.key i 0 0 ≠ R.SEC_MBOX_CMD_arg.key m 0 0) : (s.mboxPut m op arg).rd f i = s.rd f i :=
  (rd_wr_other _ _ _ _ _ _ _ _ _ _ harg).trans (rd_wr_other _ _ _ _ _ _ _ _ _ _ hop)

/-- The registers below the mailboxes keep their values. -/
theorem mboxPut_rd_below (f : Fld) (h : f.key 0 0 0 < 8 * 0x200100) : (s.mboxPut m op arg).rd f = s.rd f :=
  mboxPut_rd f 0 (by simp only [Fld.key, Fld.off, R.SEC_MBOX_CMD_opcode] at h ⊢; omega)
    (by simp only [Fld.key, Fld.off, R.SEC_MBOX_CMD_arg] at h ⊢; omega)

theorem mboxPut_on_below (f : Fld) (h : f.key 0 0 0 < 8 * 0x200100) : (s.mboxPut m op arg).on f = s.on f :=
  congrArg (· == 1) (mboxPut_rd_below f h)

/-- So do the fields of the mailbox itself, other than those two. -/
theorem mboxPut_rd_mbox (f : Fld) (hs : f.s0 = 0x80) (hop : f.key 0 0 0 ≠ R.SEC_MBOX_CMD_opcode.key 0 0 0)
    (harg : f.key 0 0 0 ≠ R.SEC_MBOX_CMD_arg.key 0 0 0) : (s.mboxPut m op arg).rd f m = s.rd f m :=
  mboxPut_rd f m (by simp only [Fld.key, Fld.off, hs, R.SEC_MBOX_CMD_opcode] at hop ⊢; omega)
    (by simp only [Fld.key, Fld.off, hs, R.SEC_MBOX_CMD_arg] at harg ⊢; omega)

theorem mboxPut_busy : (s.mboxPut m op arg).on R.SEC_MBOX_STATUS_busy m = s.on R.SEC_MBOX_STATUS_busy m :=
  congrArg (· == 1) (mboxPut_rd_mbox _ rfl (by decide) (by decide))

theorem mboxPut_offset : (s.mboxPut m op arg).rd R.SEC_MBOX_OFF_offset m = s.rd R.SEC_MBOX_OFF_offset m :=
  mboxPut_rd_mbox _ rfl (by decide) (by decide)

theorem mboxPut_length : (s.mboxPut m op arg).rd R.SEC_MBOX_CMD_length m = s.rd R.SEC_MBOX_CMD_length m :=
  mboxPut_rd_mbox _ rfl (by decide) (by decide)

theorem mboxPut_bootState : (s.mboxPut m op arg).rd R.SEC_BOOT_STATUS_state = s.rd R.SEC_BOOT_STATUS_state :=
  mboxPut_rd_below _ (by decide)

/-- A mailbox that takes a command still takes it once it is written. -/
theorem mboxPut_takes : (s.mboxPut m op arg).mboxTakes m = s.mboxTakes m := by
  simp only [State.mboxTakes, mboxPut_bootState, mboxPut_busy]

/-- An open mailbox carries its command out. -/
theorem mboxOp_open {f : State → Nat → State} (h : s.mboxOpen req m) :
    s.mboxOp req op arg f = (f (s.mboxPut m op arg) m).drainDue := by
  obtain ⟨hup, hheld, hreq, htakes⟩ := h
  rw [← mboxPut_takes (op := op) (arg := arg)] at htakes
  rcases hreq with ⟨rfl, rfl⟩ | ⟨rfl, rfl⟩
  all_goals
    simp only [State.mboxOp, hup, hheld]
    exact if_pos htakes

theorem done_mboxOp {f : State → Nat → State} (h : s.mboxOpen req m) (hf : f (s.mboxPut m op arg) m = t) :
    s.done (s.mboxOp req op arg f) = .next (s.settle t.drainDue) :=
  congrArg s.done ((mboxOp_open h).trans (congrArg State.drainDue hf))

end Mailboxes

/-! ### Update sessions -/

section Updates
variable {s : State} {m : Nat} {u : UpdSession}

@[simp] theorem setSlot_time (i : Nat) (x : Slot) : (s.setSlot i x).time = s.time := by
  unfold State.setSlot
  split <;> rfl

@[simp] theorem program_time (i : Nat) (st : SlotState) : (s.program i st).time = s.time := setSlot_time ..

/-- Without a session UPD_BEGIN answers the first check that fails, or opens a session on the erased target (R84-R86). -/
theorem updBegin_noSession (h : s.sec.upd = none) :
    s.updBegin m true =
      let hd := s.mboxBytes m 1024
      if s.updCheck hd ≠ 0 then s.mboxDone m (s.updCheck hd) else
      let g := s.updTarget
      let v := (if s.slotSt g = .empty then s else s.program g .retired).setSlot g erasedSlot
      ({ v with sec := { v.sec with upd := some { mbox := m, target := g, hdr := hd, last := s.time.ft } } } : State).mboxDone
        m 0 := by
  have htime : (if s.slotSt s.updTarget = .empty then s else s.program s.updTarget .retired).time = s.time := by
    split
    · rfl
    · exact program_time ..
  simp only [State.updBegin, h, setSlot_time, htime]
  rfl

/-- UPD_DATA of the session's mailbox with the next chunk (R96). -/
theorem updData_next (hu : s.sec.upd = some u) (hm : u.mbox = m) (hoff : s.rd R.SEC_MBOX_OFF_offset m = u.got)
    (hlen : s.rd R.SEC_MBOX_CMD_length m = 4096) (hroom : u.got + 4096 ≤ hdrBodyLen u.hdr) :
    s.updData m true =
      let sl := s.slot u.target
      let v := s.setSlot u.target { sl with body := putBody sl.body u.got (s.mboxBytes m 4096) }
      ({ v with sec := { v.sec with upd := some { u with got := u.got + 4096, last := s.time.ft } } } : State).mboxDone m 0 := by
  simp [State.updData, hu, hm, hoff, hlen, Nat.not_lt.mpr hroom]

/-- UPD_END of the session's mailbox with the whole body (R86). -/
theorem updEnd_whole (hu : s.sec.upd = some u) (hm : u.mbox = m) (hgot : u.got = hdrBodyLen u.hdr)
    (hst : s.rd R.SEC_BOOT_STATUS_state ≠ 4) :
    s.updEnd m true =
      let sl := s.slot u.target
      if Config.sha384Body (hdrBodyLen u.hdr) sl.body ≠ sliceBytes u.hdr 0x130 48 then s.endUpd.mboxDone m St.img_digest
      else (((s.setSlot u.target { sl with hdr := taggedHeader u.hdr (Config.imageTag (u.hdr.take 0x220) sl.body),
                                           word := wordOf .written }).program u.target .valid).endUpd).mboxDone m 0 := by
  have hmine : ¬(u.mbox ≠ m ∨ u.got ≠ hdrBodyLen u.hdr) := by simp [hm, hgot]
  have hrun (t : State) (x y : Slot) : ((((t.setSlot u.target x).setSlot u.target y).endUpd).mboxDone m 0).rd
      R.SEC_BOOT_STATUS_state = t.rd R.SEC_BOOT_STATUS_state :=
    (rd_wr_other _ _ _ _ _ _ _ _ _ _ (by
      simp only [Fld.key, Fld.off, R.SEC_BOOT_STATUS_state, R.SEC_MBOX_STATUS_status]; omega)).trans
      ((setSlot_rd ..).trans (setSlot_rd ..))
  simp only [State.updEnd, hu, if_neg hmine, State.program, hrun, if_neg hst, if_true]

theorem updTimeout_session (hu : s.sec.upd = some u) :
    s.updTimeout = (s.runTo (u.last + 10 * unitsPerSec)).endUpd.mboxDone u.mbox St.upd_order := by
  unfold State.updTimeout
  rw [hu]

end Updates

/-! ### Fuses -/

section Fuses
variable {s : State} {m : Nat}

/-- A commit that has fuses to blow and is not running already starts, without a mailbox (R90). -/
theorem commitStart_none (hidle : s.on R.SEC_FUSE_CTR_busy = false)
    (hless : s.otp.count < s.rd R.SEC_IMAGE_INFO_secver) :
    s.commitStart none = (s.wr R.SEC_FUSE_CTR_target (s.rd R.SEC_IMAGE_INFO_secver)).raise R.SEC_FUSE_CTR_busy :=
  (if_neg (by simp [hidle])).trans (if_neg (Nat.not_le.mpr hless))

/-- With a mailbox it starts as well, and the mailbox is busy until it ends (R90). -/
theorem commitStart_some (hidle : s.on R.SEC_FUSE_CTR_busy = false)
    (hless : s.otp.count < s.rd R.SEC_IMAGE_INFO_secver) :
    s.commitStart (some m) =
      let t := (s.wr R.SEC_FUSE_CTR_target (s.rd R.SEC_IMAGE_INFO_secver)).raise R.SEC_FUSE_CTR_busy
      { (t.raise R.SEC_MBOX_STATUS_busy m) with sec := { t.sec with commitMbox := some m } } :=
  (if_neg (by simp [hidle])).trans (if_neg (Nat.not_le.mpr hless))

theorem fuseCommit_open (hcuff : s.cuffOpen = true) (hidle : s.on R.SEC_FUSE_CTR_busy = false)
    (hless : s.otp.count < s.rd R.SEC_IMAGE_INFO_secver) :
    s.fuseCommit m =
      let t := (s.wr R.SEC_FUSE_CTR_target (s.rd R.SEC_IMAGE_INFO_secver)).raise R.SEC_FUSE_CTR_busy
      { (t.raise R.SEC_MBOX_STATUS_busy m) with sec := { t.sec with commitMbox := some m } } :=
  (if_pos hcuff).trans (commitStart_some hidle hless)

@[simp] theorem runTo_otp (u : Nat) : (s.runTo u).otp = s.otp := by
  unfold State.runTo
  split <;> rfl

/-- Letting time pass until the automatic commit changes nothing of what it is judged by. -/
theorem commitStart_autoDone (u : Nat) (hidle : s.on R.SEC_FUSE_CTR_busy = false)
    (hless : s.otp.count < s.rd R.SEC_IMAGE_INFO_secver) :
    let t := s.runTo u
    let v : State := { t with sec := { t.sec with autoDone := true } }
    v.commitStart none =
      (v.wr R.SEC_FUSE_CTR_target (s.rd R.SEC_IMAGE_INFO_secver)).raise R.SEC_FUSE_CTR_busy := by
  intro t v
  have hrd (f : Fld) : v.rd f = s.rd f := runTo_rd s u f 0 0 0
  have hless' : v.otp.count < v.rd R.SEC_IMAGE_INFO_secver := by
    rw [hrd, show v.otp = s.otp from runTo_otp u]
    exact hless
  rw [← hrd R.SEC_IMAGE_INFO_secver]
  exact commitStart_none ((congrArg (· == 1) (hrd R.SEC_FUSE_CTR_busy)).trans hidle) hless'

/-- The automatic commit of an image that asks for one starts once its time has passed (R90). -/
theorem fuseDeadline_starts (hcuff : s.cuffOpen = true)
    (hask : hdrCommitAfter (s.slot (s.rd R.SEC_BOOT_STATUS_slot)).hdr ≠ 0) (hnew : s.sec.autoDone = false)
    (hidle : s.on R.SEC_FUSE_CTR_busy = false) (hless : s.otp.count < s.rd R.SEC_IMAGE_INFO_secver) :
    s.fuseDeadline =
      let t := s.runTo (s.sec.openedAt + hdrCommitAfter (s.slot (s.rd R.SEC_BOOT_STATUS_slot)).hdr * unitsPerSec)
      let v : State := { t with sec := { t.sec with autoDone := true } }
      (v.wr R.SEC_FUSE_CTR_target (s.rd R.SEC_IMAGE_INFO_secver)).raise R.SEC_FUSE_CTR_busy :=
  (if_pos ⟨hcuff, hask, hnew⟩).trans (commitStart_autoDone _ hidle hless)

/-- A fuse that is not the last of its commit, blown outside brace (R91). -/
theorem fuseBlown_more (hbusy : s.on R.SEC_FUSE_CTR_busy = true) (hrun : s.on R.SEC_FUSE_CTR_deferred = false)
    (hmore : s.otp.count + 1 < s.rd R.SEC_FUSE_CTR_target) (hbrace : s.on R.HLT_STATUS_brace = false) :
    s.fuseBlown =
      let t := s.pass (100 * unitsPerUs)
      { t with otp := { t.otp with count := t.otp.count + 1 } } := by
  have hbrace' : ¬s.on R.HLT_STATUS_brace = true := by simp [hbrace]
  rw [State.fuseBlown, if_pos ⟨hbusy, hrun⟩]
  exact (if_neg (Nat.not_le.mpr hmore)).trans (if_neg hbrace')

/-- A row that was never programmed cannot be revoked (R95). -/
theorem keyRevoke_absent {row : Nat} (h : s.otp.present row = false) : s.keyRevoke m row = s.mboxDone m St.img_key := by
  simp [State.keyRevoke, h]

/-- In recovery no row is in use: one that is not the last live row is revoked (R95). -/
theorem keyRevoke_recovery {row : Nat} (hrow : row < 4) (hp : s.otp.present row = true) (hst : s.rd R.SEC_BOOT_STATUS_state = 4)
    (hlast : (List.range 4).filter (fun k => s.otp.present k && !bit s.otp.revoked k) ≠ [row]) :
    s.keyRevoke m row =
      ({ s with otp := { s.otp with revoked := setBit s.otp.revoked row true } } : State).mboxDone m 0 := by
  simp only [State.keyRevoke, hp, hst, if_neg hlast]
  simp [Nat.not_le.mpr hrow]

end Fuses

/-! ### The obligation -/

/-- Settles O6: an open mailbox carries out the command as it stands in the registers, which writing it leaves alone; the
timeout, the deadline and the fuse are events of their own. -/
theorem updatesAndFuses : Obligations.UpdatesAndFuses := by
  unfold Obligations.UpdatesAndFuses
  refine ⟨?updBegin, ?updData, ?updEnd, ?updAbort, ?updTimeout, ?activate, ?fuseCommit, ?fuseDeadline, ?fuseBlown, ?slotQuery,
    ?revokeAbsent, ?revoke⟩
  case updBegin => exact fun s req m ho hnone => done_mboxOp ho (updBegin_noSession (s := s.mboxPut m 1 0) hnone)
  case updData =>
    exact fun s req m u ho hu hm hoff hlen hroom => done_mboxOp ho
      (updData_next (s := s.mboxPut m 2 0) hu hm (mboxPut_offset.trans hoff) (mboxPut_length.trans hlen) hroom)
  case updEnd =>
    exact fun s req m u ho hu hm hgot hst => done_mboxOp ho
      (updEnd_whole (s := s.mboxPut m 3 0) hu hm hgot (mboxPut_bootState.trans_ne hst))
  case updAbort => exact fun s req m ho => done_mboxOp ho rfl
  case updTimeout => exact fun s u hu => congrArg s.done (updTimeout_session hu)
  case activate => exact fun s req m ho => done_mboxOp ho rfl
  case fuseCommit =>
    intro s req m ho hcuff hidle hless
    have hsecver : (s.mboxPut m 6 0).rd R.SEC_IMAGE_INFO_secver = s.rd R.SEC_IMAGE_INFO_secver :=
      mboxPut_rd_below _ (by decide)
    rw [← hsecver] at hless ⊢
    exact done_mboxOp ho (fuseCommit_open (s := s.mboxPut m 6 0) ((mboxPut_on_below _ (by decide)).trans hcuff)
      ((mboxPut_on_below _ (by decide)).trans hidle) hless)
  case fuseDeadline =>
    exact fun s hcuff hask hnew hidle hless => congrArg s.done (fuseDeadline_starts hcuff hask hnew hidle hless)
  case fuseBlown =>
    exact fun s hbusy hrun hmore hbrace => congrArg s.done (fuseBlown_more hbusy hrun hmore hbrace)
  case slotQuery => exact fun s req m ho => done_mboxOp ho rfl
  case revokeAbsent =>
    exact fun s req m row ho habsent => done_mboxOp ho (keyRevoke_absent (s := s.mboxPut m 8 row) habsent)
  case revoke =>
    exact fun s req m row ho hp hst hlast => done_mboxOp ho
      (keyRevoke_recovery (s := s.mboxPut m 8 row) row.isLt hp (mboxPut_bootState.trans hst) hlast)

end Sys2Proof.Proofs
end

section
/-! PROOFS. Memories, error correction, scrubbing and sparing (04_memories_ecc.md R98-R113): accesses to HBM by what they reach,
the command registers of MEM_, and range scrubs and sparing copies from their start to their end. -/

namespace Sys2Proof.Proofs
open Sys2Proof Sys2Proof.Machine Sys2Proof.Laws

/-! ### Accesses to HBM -/

section HbmAccess
variable {s : State} {a n : Nat} {bs : List Byte}

theorem hbmAccess_read_clean (hlim : a + n ≤ s.hbmLimit) (hc : (wordsOf a n).any s.wordBad = false) :
    s.hbmAccess a (.read n) .good = s.memAnswer (Mem.read s.mem.hbm a n) false 0 := by
  simp [State.hbmAccess, State.eccFound, Nat.not_lt.mpr hlim, hc, readWords_clean hc]

/-- A read that reaches the limit answers all ones, whatever its words hold (R98). -/
theorem hbmAccess_read_beyond (f : EccFind) (h : s.hbmLimit < a + n) :
    s.hbmAccess a (.read n) f = (s.rangeRefusal a).memAnswer (List.replicate n 0xFF) false St.mem_range := by
  simp [State.hbmAccess, State.hbmRead, h]

/-- Whole words are written without a look at what the decoder finds in them (R102). -/
theorem hbmAccess_write_aligned (bad : Bool) (f : EccFind) (ha : a % 8 = 0) (hbs : bs.length % 8 = 0) :
    s.hbmAccess a (.write bs bad) f = (s.hbmWrite a bs bad).1.memAnswer [] false (s.hbmWrite a bs bad).2 := by
  simp [State.hbmAccess, ha, hbs]

/-- Outside a fenced pseudo-channel a whole word is stored, and its mark says whether it is poisoned (R100). -/
theorem hbmWriteWord_stored (bad : Bool) (hlen : bs.length = 8) (hpc : s.rd R.MEM_PC_STATE_state (hbmPc a) ≠ 3) :
    s.hbmWriteWord a bs bad =
      (({ s with mem := { s.mem with hbm := Mem.write s.mem.hbm a bs } } : State).markWord (a / 8) bad, 0) := by
  simp [State.hbmWriteWord, hpc, hlen]

/-- A write of one aligned word is the write of that word. -/
theorem hbmWrite_word (bad : Bool) (hlen : bs.length = 8) (ha : a % 8 = 0) (hlim : a + 8 ≤ s.hbmLimit) :
    s.hbmWrite a bs bad = s.hbmWriteWord a bs bad := by
  have htake : bs.take 8 = bs := List.take_of_length_le hlen.le
  have hdrop : bs.drop 8 = [] := List.drop_of_length_le hlen.le
  have hne : bs ≠ [] := by rintro rfl; cases hlen
  simp [State.hbmWrite, State.hbmWriteAux, Nat.not_lt.mpr hlim, hlen, ha, htake, hdrop, hne]

end HbmAccess

/-! ### The patrol scrubber -/

/-- On a word below the limit that is not stored as bad, the patrol scrubber accounts for what the decoder finds corrected or
good (R99). -/
theorem patrolRead_hbm {s : State} {word : Nat} {f : EccFind} (hon : s.on R.MEM_PATROL_CFG_enable = true)
    (hlim : 8 * word < s.hbmLimit) (hw : s.wordBad word = false) (hf : ∀ syn, f ≠ .double syn) :
    s.patrolRead .hbm word f = s.eccFound (hbmPc (8 * word)) (8 * word) f := by
  cases f with
  | double syn => exact absurd rfl (hf syn)
  | good => simp [State.patrolRead, hon, Nat.not_le.mpr hlim, hw]
  | single syn => simp [State.patrolRead, hon, Nat.not_le.mpr hlim, hw]

/-! ### Command registers -/

section CommandRegisters
variable {s : State}

theorem rd_putField_other (locked armed : Bool) (f g : Fld) (i j k v i' j' k' : Nat) (h : g.key i' j' k' ≠ f.key i j k) :
    (s.putField locked armed f i j k v).rd g i' j' k' = s.rd g i' j' k' := by
  unfold State.putField
  cases f.acc <;> dsimp only
  case rws => cases armed <;> simp [rd_wr_other, h]
  case rwl => cases locked <;> simp [rd_wr_other, h]
  all_goals simp [rd_wr_other, h]

/-- Storing a value in a register leaves every field that is not one of its own alone. -/
theorem rd_putReg_other (armed : Bool) (r : RegDef) (g : Fld) (i j k v i' j' k' : Nat)
    (h : ∀ f ∈ r.flds, g.key i' j' k' ≠ f.key i j k) : (s.putReg armed r i j k v).rd g i' j' k' = s.rd g i' j' k' :=
  List.foldlRecOn r.flds _ (motive := fun t : State => t.rd g i' j' k' = s.rd g i' j' k') rfl
    fun _ ht f hf => (rd_putField_other _ armed f g i j k v i' j' k' (h f hf)).trans ht

theorem on_cmdPut_other (r : RegDef) (fs : List (Fld × Nat)) (g : Fld) (h : ∀ f ∈ r.flds, g.key 0 0 0 ≠ f.key 0 0 0) :
    (s.cmdPut r fs).on g = s.on g := congrArg (· == 1) (rd_putReg_other false r g 0 0 0 _ 0 0 0 h)

/-- The value with which a command writes its register. -/
def cmdWord (s : State) (r : RegDef) (fs : List (Fld × Nat)) : Nat :=
  fs.foldl (fun v p => showFld v p.1 p.2) (s.image r 0 0 0) % 2 ^ r.width

/-- A write of some fields of a register of MEM_ is MEM_'s own write of the register's new value. -/
theorem wrFlds_mem {req : Req} {r : RegDef} (fs : List (Fld × Nat)) (h : s.takes req 0x11 0 r)
    (hw : r.flds.any Fld.writable = true) : s.wrFlds req 0x11 r fs = (s.memWr (some 42) r 0 (cmdWord s r fs)).after :=
  wrReg_takes s req 0x11 r _ 0 0 0 0 h hw

/-- MEM_SCRUB_CMD keeps nothing but its mode, MEM_SPARE_CMD nothing but its number. -/
theorem image_scrubCmd : s.image R.reg_MEM_SCRUB_CMD 0 0 0 = s.rd R.MEM_SCRUB_CMD_mode % 2 * 16 := by
  simp [State.image, R.reg_MEM_SCRUB_CMD, R.MEM_SCRUB_CMD_mode, R.MEM_SCRUB_CMD_abort, R.MEM_SCRUB_CMD_go]

theorem image_spareCmd : s.image R.reg_MEM_SPARE_CMD 0 0 0 = s.rd R.MEM_SPARE_CMD_pc % 64 := by
  simp [State.image, R.reg_MEM_SPARE_CMD, R.MEM_SPARE_CMD_go, R.MEM_SPARE_CMD_pc]

/-- The words of the three commands: the bit that asks for the command beside what the register keeps. -/
abbrev scrubGoWord (s : State) : Nat := cmdWord s R.reg_MEM_SCRUB_CMD [(R.MEM_SCRUB_CMD_go, 1)]
abbrev scrubAbortWord (s : State) : Nat := cmdWord s R.reg_MEM_SCRUB_CMD [(R.MEM_SCRUB_CMD_abort, 1)]
abbrev spareGoWord (s : State) (p : Fin 64) : Nat :=
  cmdWord s R.reg_MEM_SPARE_CMD [(R.MEM_SPARE_CMD_go, 1), (R.MEM_SPARE_CMD_pc, p)]

theorem scrubGoWord_eq : scrubGoWord s = s.rd R.MEM_SCRUB_CMD_mode % 2 * 16 + 1 := by
  rw [scrubGoWord, cmdWord, image_scrubCmd]
  simp only [List.foldl, showFld, putFld, bits, R.MEM_SCRUB_CMD_go, R.reg_MEM_SCRUB_CMD]
  omega

theorem scrubAbortWord_eq : scrubAbortWord s = s.rd R.MEM_SCRUB_CMD_mode % 2 * 16 + 2 := by
  rw [scrubAbortWord, cmdWord, image_scrubCmd]
  simp only [List.foldl, showFld, putFld, bits, R.MEM_SCRUB_CMD_abort, R.reg_MEM_SCRUB_CMD]
  omega

theorem spareGoWord_eq (p : Fin 64) : spareGoWord s p = 2 ^ 31 + p := by
  rw [spareGoWord, cmdWord, image_spareCmd]
  simp only [List.foldl, showFld, putFld, bits, R.MEM_SPARE_CMD_go, R.MEM_SPARE_CMD_pc, R.reg_MEM_SPARE_CMD]
  omega

/-- Each word asks for its own command alone. -/
theorem scrubGoWord_has :
    has R.MEM_SCRUB_CMD_go (scrubGoWord s) = true ∧ has R.MEM_SCRUB_CMD_abort (scrubGoWord s) = false := by
  rw [scrubGoWord_eq]
  obtain h | h := Nat.mod_two_eq_zero_or_one (s.rd R.MEM_SCRUB_CMD_mode) <;> rw [h] <;> decide

theorem scrubAbortWord_has :
    has R.MEM_SCRUB_CMD_go (scrubAbortWord s) = false ∧ has R.MEM_SCRUB_CMD_abort (scrubAbortWord s) = true := by
  rw [scrubAbortWord_eq]
  obtain h | h := Nat.mod_two_eq_zero_or_one (s.rd R.MEM_SCRUB_CMD_mode) <;> rw [h] <;> decide

theorem spareGoWord_has (p : Fin 64) :
    has R.MEM_SPARE_CMD_go (spareGoWord s p) = true ∧ part R.MEM_SPARE_CMD_pc (spareGoWord s p) = p := by
  rw [spareGoWord_eq]
  revert p
  decide

end CommandRegisters

/-! ### Range scrubs -/

section Scrubs
variable {s : State} {req : Req}

/-- A write of go starts a scrub of what the registers name. -/
theorem wrFlds_scrubGo (h : s.takes req 0x11 0 R.reg_MEM_SCRUB_CMD) :
    s.wrFlds req 0x11 R.reg_MEM_SCRUB_CMD [(R.MEM_SCRUB_CMD_go, 1)] =
      (s.cmdPut R.reg_MEM_SCRUB_CMD [(R.MEM_SCRUB_CMD_go, 1)]).scrubGo.after := by
  obtain ⟨hgo, habort⟩ := scrubGoWord_has (s := s)
  rw [wrFlds_mem _ h (by decide)]
  simp only [State.memWr, if_true, hgo, habort]
  rfl

/-- A write of abort ends the running scrub, and starts none. -/
theorem wrFlds_scrubAbort (h : s.takes req 0x11 0 R.reg_MEM_SCRUB_CMD) :
    s.wrFlds req 0x11 R.reg_MEM_SCRUB_CMD [(R.MEM_SCRUB_CMD_abort, 1)] =
      (s.cmdPut R.reg_MEM_SCRUB_CMD [(R.MEM_SCRUB_CMD_abort, 1)]).scrubAbort.after := by
  obtain ⟨hgo, habort⟩ := scrubAbortWord_has (s := s)
  rw [wrFlds_mem _ h (by decide)]
  simp only [State.memWr, if_true, hgo, habort]
  rfl

/-- A legal scrub starts with its command as the registers hold it (R106). -/
theorem scrubGo_legal (hidle : s.on R.MEM_SCRUB_STATUS_busy = false) (hbase : s.rd R.MEM_SCRUB_BASE_value % 4096 = 0)
    (hlen : s.rd R.MEM_SCRUB_LEN_value % 4096 = 0)
    (hlim : s.rd R.MEM_SCRUB_BASE_value + s.rd R.MEM_SCRUB_LEN_value ≤ s.hbmLimit) :
    s.scrubGo =
      let u := s.raise R.MEM_SCRUB_STATUS_busy
      { u with mem := { u.mem with scrub := some {
          base := s.rd R.MEM_SCRUB_BASE_value, len := s.rd R.MEM_SCRUB_LEN_value, recAddr := s.rd R.MEM_SCRUB_REC_value
          start := s.now64, mode := s.rd R.MEM_SCRUB_CMD_mode } } } := by
  have hrec : (s.raise R.MEM_SCRUB_STATUS_busy).rd R.MEM_SCRUB_REC_value = s.rd R.MEM_SCRUB_REC_value :=
    rd_wr_other _ _ _ _ _ _ _ _ _ _ (by decide)
  have hmode : (s.raise R.MEM_SCRUB_STATUS_busy).rd R.MEM_SCRUB_CMD_mode = s.rd R.MEM_SCRUB_CMD_mode :=
    rd_wr_other _ _ _ _ _ _ _ _ _ _ (by decide)
  simp [State.scrubGo, hidle, hbase, hlen, Nat.not_lt.mpr hlim, hrec, hmode, State.now64]

/-- How far an aborted scrub has come is a free value (R107). -/
theorem scrubAbort_busy (h : s.on R.MEM_SCRUB_STATUS_busy = true) :
    s.scrubAbort = ({ s with free := s.free + 1 } : State).scrubEnd (Config.scrubReach s.free) [] St.scrub_aborted := if_pos h

/-- A scrub that finds nothing in a memory without poison ends with a clean record (R107). -/
theorem scrubEnd_clean {c : Scrub} {done : Nat} (hc : s.mem.scrub = some c) (hdone : c.len ≤ done) (hbad : s.mem.bad = []) :
    s.scrubEnd done [] 0 =
      let t := (s.hbmWrite c.recAddr (leBytes 8 c.base ++ leBytes 8 c.len ++ leBytes 8 c.start ++ leBytes 8 s.now64 ++
        leBytes 8 (c.len / 8) ++ leBytes 4 0 ++ leBytes 4 0 ++ leBytes 8 (2 ^ 64 - 1) ++ leBytes 2 0 ++ leBytes 6 0)).1
      let u := (t.wr R.MEM_SCRUB_STATUS_busy 0).wr R.MEM_SCRUB_STATUS_status 0
      ({ u with mem := { u.mem with scrub := none } } : State).memEvent (hbmPc c.base) c.base 6 0 0 := by
  simp only [State.scrubEnd, hc, hbad, Nat.min_eq_right hdone]
  rfl

end Scrubs

/-! ### Sparing -/

section Sparing
variable {s : State} {req : Req} {p : Nat}

theorem wrFlds_spareGo (p : Fin 64) (h : s.takes req 0x11 0 R.reg_MEM_SPARE_CMD) :
    s.wrFlds req 0x11 R.reg_MEM_SPARE_CMD [(R.MEM_SPARE_CMD_go, 1), (R.MEM_SPARE_CMD_pc, p)] =
      ((s.cmdPut R.reg_MEM_SPARE_CMD [(R.MEM_SPARE_CMD_go, 1), (R.MEM_SPARE_CMD_pc, p)]).spareGo p).after := by
  obtain ⟨hgo, hpc⟩ := spareGoWord_has (s := s) p
  have hother : R.reg_MEM_SPARE_CMD.base ≠ R.reg_MEM_SCRUB_CMD.base := by decide
  rw [wrFlds_mem _ h (by decide)]
  simp only [State.memWr, hother, if_true, if_false, hgo, hpc]
  rfl

/-- With spare rows reserved and unused the copy starts (R113). -/
theorem spareGo_spare (hidle : s.on R.MEM_SPARE_STATUS_busy = false)
    (hen : (s.wr R.MEM_SPARE_STATUS_pc p).on R.MEM_SPARE_CFG_spare_en = true)
    (hfree : (s.wr R.MEM_SPARE_STATUS_pc p).rd R.MEM_INFO_spared = 0) :
    s.spareGo p = ((s.wr R.MEM_SPARE_STATUS_pc p).raise R.MEM_SPARE_STATUS_busy).wr R.MEM_PC_STATE_state 1 p := by
  simp [State.spareGo, hidle, hen, hfree]

/-- The end of a copy swaps the pseudo-channel that the status names (R113). -/
theorem spareDone_busy (h : s.on R.MEM_SPARE_STATUS_busy = true) (hp : s.rd R.MEM_SPARE_STATUS_pc = p) :
    s.spareDone = ((((s.wr R.MEM_SPARE_STATUS_busy 0).wr R.MEM_SPARE_STATUS_status 0).wr R.MEM_PC_STATE_state 2 p).wr
      R.MEM_INFO_spared 1).memEvent p 0 5 0 0 := hp ▸ if_pos h

end Sparing

/-! ### The obligation -/

/-- In a released main domain the command MEM_ACCESS is the access. -/
theorem gives_memAccess {s t : State} {m : MemName} {a : Nat} {op : MemOp} {f : EccFind} (hup : s.mainUp = true)
    (h : s.memAccess m a op f = t) : Gives (.memAccess m a op f) s t :=
  whenMain_released (f := (·.memAccess m a op f)) hup h

/-- In a released main domain the command PATROL_READ is one read of the patrol scrubber. -/
theorem gives_patrolRead {s t : State} {m : MemName} {word : Nat} {f : EccFind} (hup : s.mainUp = true)
    (h : s.patrolRead m word f = t) : Gives (.patrolRead m word f) s t :=
  whenMain_released (f := (·.patrolRead m word f)) hup h

/-- Settles O7: an access or a patrol read is what the words it reaches make of it; scrubs and sparing start by a write of their
command register, which leaves their status alone, and end as what is running says. -/
theorem memoryAccess : Obligations.MemoryAccess := by
  unfold Obligations.MemoryAccess
  refine ⟨?read, ?write, ?beyond, ?sram, ?window, ?patrolGood, ?patrolSingle, ?scrubGo, ?scrubAbort, ?scrubDone, ?spareGo,
    ?spareDone⟩
  case read => exact fun s a n hup hlim hc => gives_memAccess hup (hbmAccess_read_clean hlim hc)
  case write =>
    intro s a bs bad hup hlen ha hlim hpc
    refine gives_memAccess hup ((hbmAccess_write_aligned bad .good ha (by omega)).trans ?_)
    rw [hbmWrite_word bad hlen ha hlim, hbmWriteWord_stored bad hlen hpc]
  case beyond => exact fun s a n f hup h => gives_memAccess hup (hbmAccess_read_beyond f h)
  case sram => exact fun s b i a syn hup => gives_memAccess hup rfl
  case window => exact fun s hup => whenMain_released (f := State.ceWindow) hup rfl
  case patrolGood =>
    exact fun s word hup hon hlim hw => gives_patrolRead hup (patrolRead_hbm hon hlim hw fun _ => EccFind.noConfusion)
  case patrolSingle =>
    exact fun s word syn hup hon hlim hw => gives_patrolRead hup (patrolRead_hbm hon hlim hw fun _ => EccFind.noConfusion)
  case scrubGo =>
    intro s t req h ht hidle hbase hlen hlim
    subst ht
    exact congrArg s.done ((wrFlds_scrubGo h).trans (congrArg State.after (scrubGo_legal hidle hbase hlen hlim)))
  case scrubAbort =>
    intro s req h hbusy
    have hbusy' := (on_cmdPut_other R.reg_MEM_SCRUB_CMD [(R.MEM_SCRUB_CMD_abort, 1)] R.MEM_SCRUB_STATUS_busy (by decide)).trans hbusy
    exact congrArg s.done ((wrFlds_scrubAbort h).trans (congrArg State.after (scrubAbort_busy hbusy')))
  case scrubDone =>
    exact fun s c hup hc hlen hbad _ => whenMain_released (f := (·.scrubEnd (2 ^ 64) [] 0)) hup (scrubEnd_clean hc hlen hbad)
  case spareGo =>
    intro s t req p h ht hidle hen hfree
    subst ht
    have hidle' := (on_cmdPut_other R.reg_MEM_SPARE_CMD [(R.MEM_SPARE_CMD_go, 1), (R.MEM_SPARE_CMD_pc, p)]
      R.MEM_SPARE_STATUS_busy (by decide)).trans hidle
    exact congrArg s.done ((wrFlds_spareGo p h).trans (congrArg State.after (spareGo_spare hidle' hen hfree)))
  case spareDone =>
    exact fun s p hup hbusy hp => whenMain_released (f := State.spareDone) hup (spareDone_busy hbusy hp)

end Sys2Proof.Proofs
end

section
/-! PROOFS. Admission to a pipeline, the TCAM sweeper, learning and aging (01_architecture.md R28; 04_memories_ecc.md R111, R112;
09_parsing.md R231, R232; 10_forwarding_tables.md R276-R282; 16_tenant_sockets.md R433): what becomes of an admitted frame, of an
entry whose parity fails, and of a learned entry that is seen again or visited by the ager. -/

namespace Sys2Proof.Proofs
open Sys2Proof Sys2Proof.Machine Sys2Proof.Laws

/-! ### Admission -/

section Admission

/-- A packet joins those that pipeline instance `n` has for the crossbar. -/
def joinXbar (u : State) (n : Nat) (k : Pkt) : State := u.setPipe n { u.pipe n with xin := (u.pipe n).xin ++ [k] }

/-- The packet that a by-pass frame for receive queue `q` becomes in state `t` (R433). -/
def bypassPkt (t : State) (n lane q : Nat) (f : Frame) : Pkt :=
  { frame := f, pipe := n, lane := lane, dest := 0x3000 + q, cls := t.ac R.PIPE_SRC_CFG_class n 8, slice := f.slice
    ver := (t.pipe n).ver % 16 }

/-- What pipeline instance `n` finds in a frame in state `t`. -/
def parsed (t : State) (n : Nat) (f : Frame) : Parse :=
  parseFrame { vxlan := t.ac R.PIPE_PARSE_CFG_vxlan_port n, geneve := t.ac R.PIPE_PARSE_CFG_geneve_port n
               mplsUdp := t.ac R.PIPE_PARSE_CFG_mplsudp_port n, encap := t.ac R.PIPE_PARSE_CFG_encap_en n } f.data

/-- A frame whose classification went through ends dropped or is handed to the crossbar. -/
def chainEnd (n : Nat) : State × Option Pkt → State
  | (u, none) => u
  | (u, some k) => joinXbar u n k

/-- What becomes of a frame by its classification. -/
def classified (n lane : Nat) (f : Frame) (x : Parse) : Option Chain × State → State
  | (none, u) => u.dropFrame f
  | (some c, _) => chainEnd n (c.finish n lane f x)

/-- What an admitted frame comes to in state `t`: it by-passes the pipeline, or it is classified. -/
def admitted (t : State) (n lane : Nat) (f : Frame) : State :=
  match f.bypass with
  | some q => joinXbar t n (bypassPkt t n lane q f)
  | none => classified n lane f (parsed t n f) (t.classify n f (parsed t n f))

theorem admitted_bypass {t : State} {n lane q : Nat} {f : Frame} (h : f.bypass = some q) :
    admitted t n lane f = joinXbar t n (bypassPkt t n lane q f) := by
  simp only [admitted, h]

theorem admitted_classified {t : State} {n lane : Nat} {f : Frame} (h : f.bypass = none) :
    admitted t n lane f = classified n lane f (parsed t n f) (t.classify n f (parsed t n f)) := by
  simp only [admitted, h]

variable {s : State} {n lane : Nat} {f : Frame} {p : PipeSt} (hl : s.laneOf n = some lane)
  (hn : (s.pipe lane).next (s.on R.SWC_ACCT_STAT_xoff (521 + 4 * lane)) = some (f, p)) (hu : s.fencedUnit 0 n = false)
include hl hn hu

/-- A frame that has been recirculated four times goes no further (R28). -/
theorem packetAdmit_recirculated (h : 4 ≤ f.recirc) :
    s.packetAdmit n = ((s.setPipe lane p).pcnt n 8).dropFrame f := by
  have hu' : (s.setPipe lane p).fencedUnit 0 n = false := hu
  simp only [State.packetAdmit, hl, hn, hu', h, if_true, Bool.false_eq_true, if_false]

/-- Any other frame of the network or of a socket is counted and admitted (R232). -/
theorem packetAdmit_fromOutside (h : f.recirc < 4) (hsrc : f.src < 0x200) :
    s.packetAdmit n = admitted ((s.setPipe lane p).pcnt n 0) n lane f := by
  have hu' : (s.setPipe lane p).fencedUnit 0 n = false := hu
  simp only [State.packetAdmit, hl, hn, hu', Nat.not_le.mpr h, Nat.not_le.mpr hsrc, decide_false, Bool.false_and]
  rfl

end Admission

/-! ### The TCAM sweeper -/

section Sweeper
variable {s : State} {k : Nat} {e : TEnt}

/-- A live entry whose parity fails is disabled, and keeps in mind that it was live (R111). -/
theorem tcamSweep_live (he : Store.get ({} : TEnt) s.tbl.tcam s.tbl.sweep = e) (hlive : e.state = 1) :
    s.tcamSweep false =
      { s with tbl := { s.tbl with sweep := (s.tbl.sweep + 1) % 589824,
                                   tcam := Store.put {} s.tbl.tcam s.tbl.sweep { e with prev := 1, state := 3 } } } := by
  simp [State.tcamSweep, he, hlive]

/-- The first disabled entry comes back from a good shadow as it was (R112). -/
theorem tcamRestore_first (h : s.tbl.tcam.find? (fun p => p.2.state == 3) = some (k, e)) :
    s.tcamRestore true =
      ({ s with tbl := { s.tbl with tcam := Store.put {} s.tbl.tcam k { e with state := e.prev, prev := 0 } } } : State).memEvent
        (sramId 8 (k / 65536)) (k % 65536) 3 0 0 := by
  simp [State.tcamRestore, h]

end Sweeper

/-! ### Learning -/

section Learning
variable {s : State} {n st i : Nat} {q : Learn} {e : EmEnt}

/-- The oldest request of a table's FIFO leaves it and is applied (R276). -/
theorem learnApply_oldest {l : List Learn} (h : (s.pipe n).fifoOf st = q :: l) :
    s.learnApply n st =
      ((s.setPipe n { s.pipe n with fifo := Store.put [] (s.pipe n).fifo st l }).showFifo n).learnOne n st q := by
  simp only [State.learnApply, h]

/-- A request that names a learned, confirmed entry with the same action is a hit of that entry (R277). -/
theorem learnOne_sameAction (h : s.emFind n (s.pipe n).ver (s.emBanks n (s.pipe n).ver st) q.key true = some (i, e))
    (hl : e.learned = true) (hs : e.sprout = false) (ha : e.act = q.act) :
    s.learnOne n st q = (s.setEm n i (some { e with hit := true, age := 0, sprout := false })).tcnt n 2 := by
  simp [State.learnOne, h, hl, hs, ha]

end Learning

/-! ### Aging -/

section Aging
variable {s : State} {n st i : Nat} {e : EmEnt}

/-- The learned entries of a table, in index order. -/
def agedEntries (s : State) (n st : Nat) : List (Nat × EmEnt) :=
  (s.emOf n).filter (fun q => q.2.learned && inBanks (s.emBanks n (s.pipe n).ver st) q.1)

/-- Where the ager stands in a table, and the boundary of its period. -/
def agerPlace (s : State) (n st : Nat) : Nat × Nat := Store.get (0, 0) (s.pipe n).ager st

/-- Within a pass the ager visits the next entry and moves past it (R281). -/
theorem agerVisit_next (hms : s.ac R.PIPE_EM_CFG_age_ms n st ≠ 0)
    (h : (agedEntries s n st).find? (fun q => (agerPlace s n st).1 ≤ q.1) = some (i, e)) :
    s.agerVisit n st =
      (s.setPipe n { s.pipe n with ager := Store.put (0, 0) (s.pipe n).ager st (i + 1, (agerPlace s n st).2) }).agerEntry n st i
        e := by
  refine (if_neg hms).trans ?_
  dsimp only
  split
  next i' e' h' => cases h'.symm.trans h; rfl
  next h' => cases h'.symm.trans h

/-- A visit of an entry that was hit clears its mark (R282). -/
theorem agerEntry_hit (h : e.hit = true) : s.agerEntry n st i e = s.setEm n i (some { e with hit := false, age := 0 }) := if_pos h

end Aging

/-! ### The obligation -/

/-- In a released main domain the command PACKET_ADMIT is an admission. -/
theorem gives_packetAdmit {s t : State} {n : Fin 9} (hup : s.mainUp = true) (h : s.packetAdmit n = t) :
    Gives (.packetAdmit n) s t := whenMain_released (f := (·.packetAdmit n)) hup h

/-- Settles O17: an admitted frame goes by its recirculations, its by-pass and its classification, an entry of the TCAM by its
parity and its shadow, and a learned entry by the request or the visit that finds it. -/
theorem classificationAndLearning : Obligations.ClassificationAndLearning := by
  unfold Obligations.ClassificationAndLearning
  refine ⟨?recirculated, ?bypass, ?classify, ?sweep, ?restore, ?learn, ?age⟩
  case recirculated =>
    exact fun s n lane f p hup hl hn hu h => gives_packetAdmit hup (packetAdmit_recirculated hl hn hu h)
  case bypass =>
    intro s t n lane q f p hup hl hn hu h hsrc hq ht
    subst ht
    exact gives_packetAdmit hup ((packetAdmit_fromOutside hl hn hu h hsrc).trans (admitted_bypass hq))
  case classify =>
    intro s t n lane f p x hup hl hn hu h hsrc hq ht hx
    subst ht hx
    exact gives_packetAdmit hup ((packetAdmit_fromOutside hl hn hu h hsrc).trans (admitted_classified hq))
  case sweep => exact fun s e hup he hlive => whenMain_released (f := (·.tcamSweep false)) hup (tcamSweep_live he hlive)
  case restore => exact fun s k e hup h => whenMain_released (f := (·.tcamRestore true)) hup (tcamRestore_first h)
  case learn =>
    intro s t n st q l i e hup hfifo ht hfind hl hs ha
    subst ht
    exact whenMain_released (f := (·.learnApply n st)) hup
      ((learnApply_oldest hfifo).trans (learnOne_sameAction hfind hl hs ha))
  case age =>
    exact fun s n st i e hup hms hfind hhit => whenMain_released (f := (·.agerVisit n st)) hup
      ((agerVisit_next hms hfind).trans (agerEntry_hit hhit))

end Sys2Proof.Proofs
end

section
/-! PROOFS. Host links, functions and their configuration space (05_host_interface.md R116, R118, R143-R153, R560): training and
its end, readiness messages, a link that goes down, what a ready function answers and what its configuration writes do, and the
issue of a held write. -/

namespace Sys2Proof.Proofs
open Sys2Proof Sys2Proof.Machine Sys2Proof.Laws

/-! ### Links -/

section HostLinks
variable {s : State} {hif l : Nat}

/-- The status of a host link stands apart from the cuff. -/
theorem cuffOpen_setLinkStatus (up noFlit : Bool) (width rate : Nat) :
    (s.setLinkStatus hif l up noFlit width rate).cuffOpen = s.cuffOpen := by
  have hkey (f : Fld) (hf : 0x300000 ≤ f.base) : R.SEC_BOOT_STATUS_cuff_open.key 0 0 0 ≠ f.key hif 0 0 := by
    simp only [Fld.key, Fld.off, R.SEC_BOOT_STATUS_cuff_open]
    omega
  unfold State.setLinkStatus
  split
  · rw [cuffOpen_wr_other _ _ _ (hkey _ (by decide)), cuffOpen_wr_other _ _ _ (hkey _ (by decide)),
      cuffOpen_wr_other _ _ _ (hkey _ (by decide)), cuffOpen_wr_other _ _ _ (hkey _ (by decide))]
  · exact cuffOpen_wr_other _ _ _ (hkey _ (by decide))

/-- A link that found no Flit mode trains again 100 ms after its training began (R116). -/
theorem trainRetry_noFlit (hl : s.hasLink hif l = true) (hn : s.noFlit hif l = true) (hd : s.linkUp hif l = false) :
    s.trainRetry hif l = (s.runTo (Store.get 0 s.hif.trainAt (2 * hif + l) + 100 * unitsPerMs)).trainLink hif l := by
  simp [State.trainRetry, hl, hn, hd]

/-- A link that becomes active with the cuff open owes its readiness message (R153). -/
theorem dlActive_flit {rate width : Nat} (hl : s.hasLink hif l = true) (hd : s.linkUp hif l = false) (hc : s.cuffOpen = true) :
    s.dlActive hif l true rate width = (s.setLinkStatus hif l true false width rate).owe (100 + 2 * hif + l) := by
  simp [State.dlActive, hl, hd, cuffOpen_setLinkStatus, hc]

/-- Without Flit mode a link stays down, and its training starts anew (R116). -/
theorem dlActive_noFlit {rate width : Nat} (hl : s.hasLink hif l = true) (hd : s.linkUp hif l = false) :
    s.dlActive hif l false rate width = (s.setLinkStatus hif l false true 0 0).trainLink hif l := by
  simp [State.dlActive, hl, hd]

/-- The message of a ready function that is owed first is sent (R153). -/
theorem readinessMessage_function {fn : Nat} {q : List Nat} (ho : s.hif.owed = fn :: q) (hf : fn < 100)
    (hr : s.fnReady fn = true) :
    s.readinessMessage = ({ s with hif := { s.hif with owed := q } } : State).sendHost (.functionReady fn) := by
  simp only [State.readinessMessage, ho, Nat.not_le.mpr hf, hr, if_true, if_false]

/-- An active link with one function goes down: the function is reset, its invalidations and its message go, and its reads end
(R149, R150). -/
theorem hostLinkDown_oneFunction {fn : Nat} (hu : s.linkUp hif l = true) (hf : s.fnsOf hif l = [fn]) :
    (s.hostLinkDown hif l).drainDue =
      (let t := (s.setLinkStatus hif l false false 0 0).countDown hif l
       let u := (t.funcReset fn St.host_link_down 2).wr R.HIF_PF_STATUS_flr_busy 0 (fn / 8) (fn % 8)
       let v : State := { u with hif := { u.hif with
         invals := u.hif.invals.filter (·.fn != fn), owed := u.hif.owed.filter (· != fn) } }
       let w := (v.hif.reads.filter (·.fn == fn)).foldl (fun w h => w.readEnds h) v
       (({ w with hif := { w.hif with owed := w.hif.owed.filter (· != 100 + 2 * hif + l) } } : State).trainLink hif
         l).drainDue) := by
  have hmine : (fun h : HostRead => [fn].contains h.fn) = (·.fn == fn) := funext fun h => Bool.or_false _
  simp only [State.hostLinkDown, hu, hf, hmine, Bool.not_true, Bool.false_eq_true, if_false, List.foldl_cons, List.foldl_nil]

end HostLinks

/-! ### Configuration requests -/

section ConfigSpace
variable {s : State} {fn : Nat}

/-- A ready function answers a configuration read with the value (R118). -/
theorem cfgRequest_read {r : CfgReg} (hp : s.fnPresent fn = true) (hr : s.fnReady fn = true) :
    s.cfgRequest fn r none = s.sendHost (.cplData fn (s.cfgRead fn r)) := by
  simp [State.cfgRequest, hp, hr]

/-- A ready function carries out a configuration write and completes it. -/
theorem cfgRequest_write {r : CfgReg} {v : Nat} (hp : s.fnPresent fn = true) (hr : s.fnReady fn = true) :
    s.cfgRequest fn r (some v) = (s.cfgWrite fn r v).sendHost (.cplData fn 0) := by
  simp [State.cfgRequest, hp, hr]

/-- A function that is not ready asks for the request again (R152). -/
theorem cfgRequest_notReady {r : CfgReg} {w : Option Nat} (hp : s.fnPresent fn = true) (hr : s.fnReady fn = false) :
    s.cfgRequest fn r w = s.sendHost (.cplRrs fn) := by
  simp [State.cfgRequest, hp, hr]

/-- A clear of Bus Master Enable stops what the function does in host memory (R143). -/
theorem cfgWrite_bmeClear (hb : (s.func fn).bme = true) : s.cfgWrite fn .busMasterEnable 0 = s.bmeStop fn St.bme_off := if_pos hb

theorem cfgWrite_bmeSet :
    s.cfgWrite fn .busMasterEnable 1 = s.setFunc fn { s.func fn with bme := true, bmeSeen := true } := rfl

theorem cfgWrite_initiateFlr :
    s.cfgWrite fn .initiateFlr 1 = (s.funcReset fn St.func_reset 1).raise R.HIF_PF_STATUS_flr_busy (fn / 8) (fn % 8) := rfl

/-- A function that enters D3hot stops as by a clear of Bus Master Enable (R148). -/
theorem cfgWrite_d3hot (hd : s.fnD3 fn = false) :
    s.cfgWrite fn .powerState 3 = (s.bmeStop fn St.bme_off).raise R.HIF_PF_STATUS_d3 (fn / 8) (fn % 8) := by
  simp [State.cfgWrite, State.enterD3, hd]

/-- A function that returns to D0 is reset (R148). -/
theorem cfgWrite_d0 (hd : s.fnD3 fn = true) :
    s.cfgWrite fn .powerState 0 =
      (s.funcReset fn St.func_reset 3).raise R.HIF_PF_STATUS_flr_busy (fn / 8) (fn % 8) := if_pos hd

theorem cfgWrite_atsClear :
    s.cfgWrite fn .atsEnable 0 = (s.setFunc fn { s.func fn with atsEn := false }).atcFlush fn := rfl

theorem atcFlush_due (s : State) (fn : Nat) : (s.atcFlush fn).due = s.due := rfl

/-- With nothing due, a message to the host is all that a command leaves to do. -/
theorem drainDue_sendHost {t : State} (m : HostMsg) (h : t.due = []) : (t.sendHost m).drainDue = t.sendHost m :=
  drainDue_nil _ h

end ConfigSpace

/-! ### The end of a reset -/

theorem fn_div (hif : Fin 2) (pf : Fin 8) : (8 * hif.val + pf.val) / 8 = hif := by omega
theorem fn_mod (hif : Fin 2) (pf : Fin 8) : (8 * hif.val + pf.val) % 8 = pf := by omega

/-- A reset of a function ends when its slices' sequences have; a function that becomes ready owes its message (R147, R153). -/
theorem flrDone_slicesDone {s : State} {hif : Fin 2} {pf : Fin 8} {fn : Nat} (hfn : fn = 8 * hif.val + pf.val)
    (hb : s.on R.HIF_PF_STATUS_flr_busy hif pf = true) (hs : (s.slicesOf fn).all (fun x => !s.inSeq x) = true) :
    s.flrDone fn = (let t := s.wr R.HIF_PF_STATUS_flr_busy 0 hif pf; if t.fnReady fn then t.owe fn else t) := by
  subst hfn
  simp only [State.flrDone, fn_div, fn_mod, hb, hs, Bool.and_self, if_true]

/-! ### Held writes -/

section HeldWrites
variable {s : State} {fn : Nat}

/-- Without ATS a request goes out untranslated (R127). -/
theorem translate_atsOff {pasid : Option Nat} {a : Nat} {write : Bool} (h : (s.func fn).atsEn = false) :
    s.translate fn pasid a write = (.at a none, s) := by
  simp [State.translate, h]

theorem translateRange_empty (pasid : Option Nat) (write : Bool) (k a : Nat) :
    s.translateRange fn pasid write k a 0 = (some [], false, s) := by
  cases k <;> rfl

/-- A range within one page is one piece. -/
theorem translateRange_onePage {pasid : Option Nat} {write : Bool} {a n : Nat} (k : Nat) (h : (s.func fn).atsEn = false)
    (h0 : 0 < n) (hn : a % 4096 + n ≤ 4096) :
    s.translateRange fn pasid write (k + 1) a n = (some [(a, n)], false, s) := by
  have hlen : min n (4096 - a % 4096) = n := by omega
  simp only [State.translateRange, Nat.ne_of_gt h0, translate_atsOff h, hlen, Nat.sub_self, translateRange_empty, if_false]

theorem issueWrite_onePage {x a : Nat} {bs : List Byte} {bad : Bool} (h : (s.func fn).atsEn = false) (h0 : 0 < bs.length)
    (hn : a % 4096 + bs.length ≤ 4096) :
    s.issueWrite fn x a bs bad = (.ok [], s.storeHost fn bad [(a, bs.length)] bs) := by
  simp only [State.issueWrite, translateRange_onePage _ h h0 hn]

/-- Storing in host memory leaves the functions as they are. -/
theorem storeHost_func (bad : Bool) (ps : List (Nat × Nat)) (bs : List Byte) (g : Nat) :
    (s.storeHost fn bad ps bs).func g = s.func g := by
  induction ps generalizing s bs with
  | nil => rfl
  | cons p ps ih => exact ih ..

/-- The oldest held write of a function that may issue it, of a slice still bound to it, is stored in host memory (R560). -/
theorem heldIssue_stores {w : HeldWrite} {l : List HeldWrite} (hw : (s.func fn).held = w :: l) (hc : s.cuffOpen = true)
    (hb : (s.func fn).bme = true) (ha : (s.func fn).atsEn = false) (hd : s.fnD3 fn = false) (hx : s.sliceFn w.slice = some fn)
    (hp : s.slicePasid w.slice = none) (h0 : 0 < w.data.length) (hn : w.addr % 4096 + w.data.length ≤ 4096) :
    s.heldIssue fn =
      (s.storeHost fn w.bad [(w.addr, w.data.length)] w.data).setFunc fn { s.func fn with held := l } := by
  simp [State.heldIssue, hw, hc, hb, hd, hx, hp, issueWrite_onePage ha h0 hn, storeHost_func]

end HeldWrites

/-! ### The obligation -/

/-- In a released main domain, a command that is a configuration write of a ready function is what the write does, and its
completion. -/
theorem gives_cfgWrite {i : Instr} {s t : State} {fn : Nat} {r : CfgReg} {v : Nat}
    (hi : exec i s = s.whenMain (fun s => (s.cfgRequest fn r (some v)).drainDue)) (hup : s.mainUp = true)
    (hp : s.fnPresent fn = true) (hr : s.fnReady fn = true) (hw : s.cfgWrite fn r v = t) :
    Gives i s (t.sendHost (.cplData fn 0)).drainDue :=
  hi.trans (whenMain_released hup (by rw [cfgRequest_write hp hr, hw]))

/-- The same for a write that makes nothing due. -/
theorem gives_cfgWrite_nothingDue {i : Instr} {s t : State} {fn : Nat} {r : CfgReg} {v : Nat}
    (hi : exec i s = s.whenMain (fun s => (s.cfgRequest fn r (some v)).drainDue)) (hup : s.mainUp = true)
    (hp : s.fnPresent fn = true) (hr : s.fnReady fn = true) (hw : s.cfgWrite fn r v = t) (hdue : t.due = []) :
    Gives i s (t.sendHost (.cplData fn 0)) := by
  rw [← drainDue_sendHost _ hdue]
  exact gives_cfgWrite hi hup hp hr hw

theorem gives_configRequest {s : State} {hif : Fin 2} {pf : Fin 8} {r : CfgReg} {w : Option Nat} {m : HostMsg}
    (hup : s.mainUp = true) (hdue : s.due = []) (h : s.cfgRequest (8 * hif.val + pf.val) r w = s.sendHost m) :
    Gives (.configRequest hif pf r w) s (s.sendHost m) :=
  whenMain_released (f := fun s => (s.cfgRequest (8 * hif.val + pf.val) r w).drainDue) hup
    ((congrArg State.drainDue h).trans (drainDue_sendHost m hdue))

/-- Settles O8: a link's command goes by the state of the link, a configuration write of a ready function is what its register
does and a completion, and a reset's end and a held write go by what stands in the way of them. -/
theorem hostLinksAndFunctions : Obligations.HostLinksAndFunctions := by
  unfold Obligations.HostLinksAndFunctions
  refine ⟨?retry, ?active, ?noFlit, ?message, ?down, ?read, ?notReady, ?bmeClear, ?bmeSet, ?held, ?flr, ?flrDone, ?d3hot, ?d0,
    ?ats⟩
  case retry =>
    exact fun s hif link hup hl hn hd => whenMain_released (f := (·.trainRetry hif link)) hup (trainRetry_noFlit hl hn hd)
  case active =>
    exact fun s hif link rate width hup hl hd hc =>
      whenMain_released (f := (·.dlActive hif link true rate width)) hup (dlActive_flit hl hd hc)
  case noFlit =>
    exact fun s hif link rate width hup hl hd =>
      whenMain_released (f := (·.dlActive hif link false rate width)) hup (dlActive_noFlit hl hd)
  case message =>
    exact fun s fn l hup ho hf hr => whenMain_released (f := State.readinessMessage) hup (readinessMessage_function ho hf hr)
  case down =>
    intro s hif link fn hup hu hf
    have hdown : Gives (.linkDown hif link) s _ :=
      whenMain_released (f := fun s => (s.hostLinkDown hif link).drainDue) hup (hostLinkDown_oneFunction hu hf)
    with_reducible exact hdown
  case read => exact fun s hif pf r hup hdue hp hr => gives_configRequest hup hdue (cfgRequest_read hp hr)
  case notReady => exact fun s hif pf r w hup hdue hp hr => gives_configRequest hup hdue (cfgRequest_notReady hp hr)
  case bmeClear => exact fun s hif pf hup hp hr hb => gives_cfgWrite rfl hup hp hr (cfgWrite_bmeClear hb)
  case bmeSet =>
    exact fun s hif pf hup hdue hp hr =>
      gives_cfgWrite_nothingDue rfl hup hp hr cfgWrite_bmeSet ((setFunc_due ..).trans hdue)
  case held =>
    intro s hif pf w l fn hup hfn hw hc hb ha hd hx hp h0 hn
    subst hfn
    exact whenMain_released (f := (·.heldIssue (8 * hif.val + pf.val))) hup (heldIssue_stores hw hc hb ha hd hx hp h0 hn)
  case flr =>
    intro s hif pf fn hup hfn hp hr
    subst hfn
    exact gives_cfgWrite rfl hup hp hr cfgWrite_initiateFlr
  case flrDone =>
    intro s t hif pf fn hup hfn hb hs ht
    subst ht
    exact whenMain_released (f := (·.flrDone (8 * hif.val + pf.val))) hup (hfn ▸ flrDone_slicesDone hfn hb hs)
  case d3hot =>
    intro s hif pf fn hup hfn hp hr hd
    subst hfn
    exact gives_cfgWrite rfl hup hp hr (cfgWrite_d3hot hd)
  case d0 =>
    intro s hif pf fn hup hfn hp hr hd
    subst hfn
    exact gives_cfgWrite rfl hup hp hr (cfgWrite_d0 hd)
  case ats =>
    intro s hif pf fn hup hdue hfn hp hr
    subst hfn
    exact gives_cfgWrite_nothingDue rfl hup hp hr cfgWrite_atsClear ((atcFlush_due ..).trans ((setFunc_due ..).trans hdue))

end Sys2Proof.Proofs
end

section
/-! PROOFS. Translations, invalidations, MSI-X, inbound requests and completions of reads (05_host_interface.md R127-R142): what a
translation completion finds and asks for, what an invalidation touches, when a vector is sent, what a request of the host is
answered, and what a completed, refused or timed-out read does to the work it is for. -/

namespace Sys2Proof.Proofs
open Sys2Proof Sys2Proof.Machine Sys2Proof.Laws

/-! ### Translations -/

section Translations
variable {s : State} {fn id target size : Nat} {granted rd wr : Bool} {x : Xlat}

/-- A request that an invalidation marked stale goes out again, as a new one that is not stale. -/
def askedAgain (s : State) (fn : Nat) (x : Xlat) : State :=
  ({ s with hif := { s.hif with
    xlats := s.hif.xlats.filter (· != x) ++ [{ x with id := s.hif.nextId, stale := false }]
    nextId := s.hif.nextId + 1 } } : State).sendHost (.xlatReq fn s.hif.nextId x.page)

/-- Whatever the completion of a stale request grants, the request is asked again and nothing else happens (R130). -/
theorem xlatDone_stale (hx : s.hif.xlats.find? (fun x => x.fn == fn && x.id == id) = some x) (hs : x.stale = true) :
    s.xlatDone fn id granted target size rd wr = askedAgain s fn x := by
  simp only [State.xlatDone, hx, hs, if_true]
  rfl

/-- A granted translation of the needed kind enters the cache, aligned to its size (R127). -/
theorem xlatDone_granted (hx : s.hif.xlats.find? (fun x => x.fn == fn && x.id == id) = some x) (hs : x.stale = false)
    (hk : (if x.write then wr else rd) = true) :
    s.xlatDone fn id true target size rd wr =
      (let n := floorPow2 63 (max size 4096)
       (({ s with hif := { s.hif with xlats := s.hif.xlats.filter (· != x) } } : State).atcAdd
         { fn := fn, pasid := x.pasid, page := x.page / n * n, size := n, target := target, rd := rd, wr := wr
           used := 0 }).hostSettle) := by
  have hkind : (if x.write then !wr else !rd) = false := (apply_ite (!·) ..).symm.trans (congrArg (!·) hk)
  simp [State.xlatDone, hx, hs, hkind]

end Translations

/-! ### Invalidations -/

section Invalidations
variable {s : State} {fn : Nat}

/-- With no cached translation and no translation request, an invalidation is only remembered, and waits for no read (R129). -/
theorem invalidate_nothingTouched {itag addr size : Nat} {pasid : Option Nat}
    (hroom : (s.hif.invals.filter (·.fn == fn)).length < 32) (hatc : s.hif.atc = []) (hx : s.hif.xlats = []) :
    s.invalidate fn itag pasid false addr size =
      { s with hif := { s.hif with
        invals := s.hif.invals ++ [{ fn := fn, itag := itag, arrived := s.time.ft, waits := [] }] } } := by
  simp only [State.invalidate, Nat.not_le.mpr hroom, hatc, hx, List.filter_nil, List.map_nil, List.any_nil, if_false]
  rw [List.filter_eq_nil_iff.mpr fun h _ => by cases h.under <;> simp, List.map_nil]

/-- The oldest invalidation of a function is completed when none of the reads that it waits for is left (R129). -/
theorem invalDone_noReads {v : Inval} (hv : s.hif.invals.find? (·.fn == fn) = some v)
    (hw : v.waits.all (fun w => s.hif.reads.all (fun h => !(h.fn == w.1 && h.tag == w.2))) = true) :
    s.invalDone fn =
      ({ s with hif := { s.hif with invals := s.hif.invals.erase v } } : State).sendHost (.invalCpl fn v.itag) := by
  have hnone : v.waits.any (fun w => s.hif.reads.any (fun h => h.fn == w.1 && h.tag == w.2)) = false := by
    simpa only [← List.not_any_eq_all_not, Bool.not_eq_true'] using hw
  simp only [State.invalDone, hv, hnone, Bool.false_eq_true, if_false]

end Invalidations

/-! ### MSI-X -/

section Msix
variable {s : State} {fn vec : Nat}

/-- A sendable vector sends its entry's message (R133). -/
theorem msixFire_sendable (hv : vec < s.msixCount fn) (hs : s.msixSendable fn vec = true) :
    s.msixFire fn vec = s.sendHost (.msi fn (s.msixEntry fn vec).addr (s.msixEntry fn vec).data) := by
  simp only [State.msixFire, Nat.not_le.mpr hv, hs, if_true, if_false]

/-- Any other vector of the table becomes pending (R134). -/
theorem msixFire_held (hv : vec < s.msixCount fn) (hs : s.msixSendable fn vec = false) :
    s.msixFire fn vec = s.setPending fn vec true := by
  simp [State.msixFire, Nat.not_le.mpr hv, hs]

/-- A pending vector that has become sendable is sent and cleared (R134). -/
theorem msixUnmask_pending (hp : s.msixPending fn vec = true) (hs : s.msixSendable fn vec = true) :
    s.msixUnmask fn vec =
      (s.sendHost (.msi fn (s.msixEntry fn vec).addr (s.msixEntry fn vec).data)).setPending fn vec false := by
  simp only [State.msixUnmask, hp, hs, Bool.and_self, if_true]

/-- Word `k` of MSI-X table entry `i` stands at offset `16 * i + 4 * k` of the table. -/
theorem msix_wordPlace {i k : Nat} (hi : i < 2048) (hk : k < 4) :
    let off := 0xFF0000 + (16 * i + 4 * k) % 65536
    off % 4 = 0 ∧ off < 0xFF8000 ∧ (16 * i + 4 * k) % 65536 / 16 = i ∧ off % 16 / 4 = k := by
  dsimp only
  omega

section Table
variable {i k : Nat} (hp : s.fnPresent fn = true) (hm : s.memOk fn = true) (hi : i < 2048) (hk : k < 4)
  (hc : i < s.msixCount fn)
include hp hm hi hk hc

/-- A 32-bit read of the table is answered with the word (R136). -/
theorem msixTable_read :
    s.msixTable fn (16 * i + 4 * k) 4 none = s.sendHost (.cplData fn ((s.msixEntry fn i).word k)) := by
  obtain ⟨halign, htab, hentry, hword⟩ := msix_wordPlace hi hk
  simp [State.msixTable, State.msixAccess, State.msixWord, hp, hm, hc, halign, htab, hentry, hword]

/-- A 32-bit write of the table changes the word (R136). -/
theorem msixTable_write (v : Nat) :
    s.msixTable fn (16 * i + 4 * k) 4 (some v) =
      { s with hif := { s.hif with
        msix := Store.put {} s.hif.msix (msixKey fn i) ((s.msixEntry fn i).setWord k v) } } := by
  obtain ⟨halign, htab, hentry, hword⟩ := msix_wordPlace hi hk
  simp [State.msixTable, State.msixAccess, State.setMsixWord, hp, hm, hc, halign, htab, hentry, hword]

end Table

end Msix

/-! ### Inbound requests -/

section Inbound
variable {s : State} {fn : Nat}

/-- A legal read of BAR0 is answered with the register (R137). -/
theorem inbound_bar0Read {a n off : Nat} (hl : s.linkUp (fn / 8) (s.fnLink fn) = true) (hm : s.memOk fn = true)
    (hb : s.barHit fn a = some (0, off)) (hn : n = 4 ∨ n = 8) (ho : off % n = 0) :
    s.inbound fn (.memRead a n) = (s.busRead .host off n).2.sendHost (.cplData fn (s.busRead .host off n).1) := by
  simp [State.inbound, State.memRead, hl, hm, hb, hn, ho]

/-- An atomic is a request that the device does not take (R137). -/
theorem inbound_atomic (hl : s.linkUp (fn / 8) (s.fnLink fn) = true) :
    s.inbound fn .atomic = ((s.hifErr fn 2).aer fn .unsupportedRequest).sendHost (.cplUr fn) := by
  simp [State.inbound, State.unsupported, hl]

/-- A poisoned write is only reported (R137). -/
theorem inbound_poisonedWrite {a : Nat} {d : List Byte} (hl : s.linkUp (fn / 8) (s.fnLink fn) = true)
    (hm : s.memOk fn = true) : s.inbound fn (.memWrite a d true) = s.aer fn .poisonedTlp := by
  simp [State.inbound, hl, hm]

@[simp] theorem hifErr_due (k : Nat) : (s.hifErr fn k).due = s.due := sat_due ..

/-- A report by AER makes nothing due. -/
@[simp] theorem aer_due (e : AerErr) : (s.aer fn e).due = s.due := by
  unfold State.aer
  dsimp only
  split <;> rfl

end Inbound

/-! ### Completions of reads -/

section Reads
variable {s : State} {fn tag : Nat} {data : List Byte} {h : HostRead}

/-- The state without an outstanding read. -/
def dropRead (s : State) (h : HostRead) : State :=
  { s with hif := { s.hif with reads := s.hif.reads.filter (fun x => !(x.fn == h.fn && x.tag == h.tag)) } }

theorem readEnds_entry (hf : h.for_ = .entry) : s.readEnds h = dropRead s h := by
  simp only [State.readEnds, hf]
  rfl

theorem readEnds_job {id : Nat} {w : Option (Nat × Nat)} (hf : h.for_ = .job id w) : s.readEnds h = dropRead s h := by
  simp only [State.readEnds, hf]
  rfl

/-- What has come is the whole entry: the ring gets it, unless its slice's generation has moved on. -/
theorem readData_entry {t : State} (hf : h.for_ = .entry) (hg : h.sgen = t.sliceGen h.slice) :
    t.readData h data = t.gotEntry h.ring h.count data := by
  simp [State.readData, hf, hg]

theorem readData_job {t : State} {id : Nat} {w : Option (Nat × Nat)} {j : HostJob} (hf : h.for_ = .job id w)
    (hg : h.sgen = t.sliceGen h.slice) (hj : t.hif.jobs.find? (·.id == id) = some j) :
    t.readData h data = t.setJob (j.piece h.off data 0) := by
  simp [State.readData, State.jobEnds, hf, hg, hj]

theorem readData_orphan {t : State} {a x g : Nat} (hf : h.for_ = .orphan a x g) :
    t.readData h data = t.sat R.SLC_DISCARD_late 1 x := by
  simp only [State.readData, hf]

theorem readData_aborted {t : State} {a : Nat} (hf : h.for_ = .aborted a) : t.readData h data = t.lateDrop := by
  simp only [State.readData, hf]

/-- A failed read of an entry stops its ring, unless the generation of its slice has moved on: then it is late (R138). -/
theorem readFails_entry {t : State} (status : Nat) (hf : h.for_ = .entry) :
    t.readFails h status =
      if h.sgen ≠ t.sliceGen h.slice then t.sat R.SLC_DISCARD_late 1 h.slice else t.stopRing h.ring status := by
  simp only [State.readFails, hf]

variable (hfind : s.hif.reads.find? (fun h => h.fn == fn && h.tag == tag) = some h)
include hfind

section InTime
variable (hlim : s.time.ft < s.readLimit h)
include hlim

/-- A good completion that brings all of a read's data at once (R138, R141). -/
theorem readCpl_whole (hold : h.old = false) (hgot : h.got = []) (hlen : h.len = data.length) :
    s.readCpl fn tag .success false data = ((s.readEnds h).readData h data).hostSettle := by
  simp [State.readCpl, hfind, Nat.not_le.mpr hlim, hold, hgot, hlen]

/-- A read that the host does not support fails (R138). -/
theorem readCpl_unsupported {poison : Bool} (hold : h.old = false) :
    s.readCpl fn tag .unsupported poison data = ((s.readEnds h).readFails h St.host_ur).hostSettle := by
  simp [State.readCpl, hfind, Nat.not_le.mpr hlim, hold]

/-- The last completion of a read of an old generation is only counted (R144). -/
theorem readCpl_old {st : CplSt} {poison : Bool} (hold : h.old = true) (hlen : h.len ≤ h.got.length + data.length) :
    s.readCpl fn tag st poison data = ((s.readEnds h).hifErr fn 5).hostSettle := by
  simp [State.readCpl, hfind, Nat.not_le.mpr hlim, hold, hlen]

end InTime

/-- The timeout of a read of an old generation is only counted (R144). -/
theorem cplTimeout_old (hold : h.old = true) :
    s.cplTimeout fn tag = (((s.runTo (s.readLimit h)).readEnds h).hifErr fn 6).hostSettle := by
  simp only [State.cplTimeout, hfind, hold, if_true]

/-- Any other timeout is reported, and the read fails (R142). -/
theorem cplTimeout_current (hold : h.old = false) :
    s.cplTimeout fn tag = (((((s.runTo (s.readLimit h)).readEnds h).hifErr fn 6).aer fn .completionTimeout).readFails h
      St.cpl_timeout).hostSettle := by
  simp only [State.cplTimeout, hfind, hold, Bool.false_eq_true, if_false]

end Reads

/-! ### The obligations -/

section Commands
variable {s t : State} {hif : Fin 2} {pf : Fin 8}

theorem gives_translationCompletion {id target size : Nat} {granted rd wr : Bool} (hup : s.mainUp = true)
    (h : s.xlatDone (8 * hif.val + pf.val) id granted target size rd wr = t) :
    Gives (.translationCompletion hif pf id granted target size rd wr) s t.drainDue :=
  whenMain_released (f := fun s => (s.xlatDone (8 * hif.val + pf.val) id granted target size rd wr).drainDue) hup
    (congrArg State.drainDue h)

theorem gives_inboundRequest {q : InReq} (hup : s.mainUp = true) (h : s.inbound (8 * hif.val + pf.val) q = t) :
    Gives (.inboundRequest hif pf q) s t.drainDue :=
  whenMain_released (f := fun s => (s.inbound (8 * hif.val + pf.val) q).drainDue) hup (congrArg State.drainDue h)

/-- The same for a request that makes nothing due. -/
theorem gives_inboundRequest_nothingDue {q : InReq} (hup : s.mainUp = true) (h : s.inbound (8 * hif.val + pf.val) q = t)
    (hdue : t.due = []) : Gives (.inboundRequest hif pf q) s t := by
  rw [← drainDue_nil t hdue]
  exact gives_inboundRequest hup h

theorem gives_readCompletion {tag : Nat} {st : CplSt} {poison : Bool} {data : List Byte} (hup : s.mainUp = true)
    (h : s.readCpl (8 * hif.val + pf.val) tag st poison data = t) :
    Gives (.readCompletion hif pf tag st poison data) s t.drainDue :=
  whenMain_released (f := fun s => (s.readCpl (8 * hif.val + pf.val) tag st poison data).drainDue) hup
    (congrArg State.drainDue h)

theorem gives_cplTimeout {tag : Nat} (hup : s.mainUp = true) (h : s.cplTimeout (8 * hif.val + pf.val) tag = t) :
    Gives (.cplTimeout hif pf tag) s t.drainDue :=
  whenMain_released (f := fun s => (s.cplTimeout (8 * hif.val + pf.val) tag).drainDue) hup (congrArg State.drainDue h)

theorem linkUp_fn (hl : s.linkUp hif (s.fnLink (8 * hif.val + pf.val)) = true) :
    s.linkUp ((8 * hif.val + pf.val) / 8) (s.fnLink (8 * hif.val + pf.val)) = true := by
  rwa [fn_div]

/-- A completion of a stale request, as the command carries it out when nothing is due. -/
theorem gives_staleCompletion {id target size : Nat} {granted rd wr : Bool} {x : Xlat} (hup : s.mainUp = true) (hdue : s.due = [])
    (hx : s.hif.xlats.find? (fun x => x.fn == 8 * hif.val + pf.val && x.id == id) = some x) (hs : x.stale = true) :
    Gives (.translationCompletion hif pf id granted target size rd wr) s (askedAgain s (8 * hif.val + pf.val) x) := by
  rw [← drainDue_nil (askedAgain s (8 * hif.val + pf.val) x) hdue]
  exact gives_translationCompletion hup (xlatDone_stale hx hs)

end Commands

/-- Settles O54: the completion of a stale request asks again, which touches neither the cache, nor reads, memory or rings. -/
theorem staleTranslations : Obligations.StaleTranslations := by
  unfold Obligations.StaleTranslations
  refine ⟨?again, ?frame⟩
  case again =>
    intro s hif pf fn id target size granted rd wr x hup hdue hfn hx hs
    subst hfn
    exact gives_staleCompletion hup hdue hx hs
  case frame =>
    intro s hif pf fn id target size granted rd wr x hup hdue hfn hx hs
    subst hfn
    exact ⟨_, gives_staleCompletion hup hdue hx hs, rfl, rfl, rfl, rfl⟩

/-- Settles O9: a translation, an invalidation, a vector, a request of the host and a completion each go by what the state holds
for it, and a read that ends brings its data, or its failure, to the work that it is for. -/
theorem translationsInterruptsAndReads : Obligations.TranslationsInterruptsAndReads := by
  unfold Obligations.TranslationsInterruptsAndReads
  refine ⟨?granted, ?stale, ?invalidate, ?invalidated, ?fire, ?pend, ?unmask, ?tableWrite, ?tableRead, ?bar0, ?atomic, ?poisoned,
    ?entry, ?job, ?orphan, ?aborted, ?refused, ?oldRead, ?oldTimeout, ?entryTimeout⟩
  case granted =>
    intro s hif pf fn id target size rd wr x hup hfn hx hs hk
    subst hfn
    exact gives_translationCompletion hup (xlatDone_granted hx hs hk)
  case stale =>
    intro s hif pf fn id target size granted rd wr x hup hfn hx hs
    subst hfn
    exact gives_translationCompletion hup (xlatDone_stale hx hs)
  case invalidate =>
    exact fun s hif pf itag pasid addr size hup hroom hatc hx =>
      whenMain_released (f := (·.invalidate (8 * hif.val + pf.val) itag (pasid.map Fin.val) false addr size)) hup
        (invalidate_nothingTouched hroom hatc hx)
  case invalidated =>
    exact fun s hif pf v hup hv hw =>
      whenMain_released (f := (·.invalDone (8 * hif.val + pf.val))) hup (invalDone_noReads hv hw)
  case fire =>
    exact fun s hif pf vec hup hv hs =>
      whenMain_released (f := (·.msixFire (8 * hif.val + pf.val) vec)) hup (msixFire_sendable hv hs)
  case pend =>
    exact fun s hif pf vec hup hv hs =>
      whenMain_released (f := (·.msixFire (8 * hif.val + pf.val) vec)) hup (msixFire_held hv hs)
  case unmask =>
    exact fun s hif pf vec hup hp hs =>
      whenMain_released (f := (·.msixUnmask (8 * hif.val + pf.val) vec)) hup (msixUnmask_pending hp hs)
  case tableWrite =>
    exact fun s hif pf i v hup hp hm hi hc =>
      whenMain_released (f := (·.msixTable (8 * hif.val + pf.val) (16 * i + 8) 4 (some v))) hup
        (msixTable_write (k := 2) hp hm hi (by decide) hc v)
  case tableRead =>
    exact fun s hif pf i hup hp hm hi hc =>
      whenMain_released (f := (·.msixTable (8 * hif.val + pf.val) (16 * i + 12) 4 none)) hup
        (msixTable_read (k := 3) hp hm hi (by decide) hc)
  case bar0 =>
    exact fun s hif pf a n off hup hl hm hb hn ho =>
      gives_inboundRequest hup (inbound_bar0Read (linkUp_fn hl) hm hb hn ho)
  case atomic =>
    exact fun s hif pf hup hdue hl =>
      gives_inboundRequest_nothingDue hup (inbound_atomic (linkUp_fn hl)) (by simp [hdue])
  case poisoned =>
    exact fun s hif pf a d hup hdue hl hm =>
      gives_inboundRequest_nothingDue hup (inbound_poisonedWrite (linkUp_fn hl) hm) ((aer_due _).trans hdue)
  case entry =>
    intro s hif pf fn tag data h hup hfn hfind hf hlim hold hgot hlen hg
    subst hfn
    have hdata : (s.readEnds h).readData h data = (s.readEnds h).gotEntry h.ring h.count data :=
      readData_entry hf (by rw [readEnds_entry hf]; exact hg)
    exact gives_readCompletion hup ((readCpl_whole hfind hlim hold hgot hlen).trans (congrArg State.hostSettle hdata))
  case job =>
    intro s hif pf fn tag data h id wk j hup hfn hfind hf hlim hold hgot hlen hg hj
    subst hfn
    have hdata : (s.readEnds h).readData h data = (s.readEnds h).setJob (j.piece h.off data 0) :=
      readData_job hf (by rw [readEnds_job hf]; exact hg) (by rw [readEnds_job hf]; exact hj)
    exact gives_readCompletion hup ((readCpl_whole hfind hlim hold hgot hlen).trans (congrArg State.hostSettle hdata))
  case orphan =>
    intro s hif pf fn tag data h t x g hup hfn hfind hf hlim hold hgot hlen
    subst hfn
    exact gives_readCompletion hup
      ((readCpl_whole hfind hlim hold hgot hlen).trans (congrArg State.hostSettle (readData_orphan hf)))
  case aborted =>
    intro s hif pf fn tag data h t hup hfn hfind hf hlim hold hgot hlen
    subst hfn
    exact gives_readCompletion hup
      ((readCpl_whole hfind hlim hold hgot hlen).trans (congrArg State.hostSettle (readData_aborted hf)))
  case refused =>
    intro s hif pf fn tag p data h hup hfn hfind hf hlim hold hg
    subst hfn
    have hstop : (s.readEnds h).readFails h St.host_ur = (s.readEnds h).stopRing h.ring St.host_ur :=
      (readFails_entry _ hf).trans (if_neg (not_not.mpr (by rw [readEnds_entry hf]; exact hg)))
    exact gives_readCompletion hup ((readCpl_unsupported hfind hlim hold).trans (congrArg State.hostSettle hstop))
  case oldRead =>
    intro s hif pf fn tag st data h hup hfn hfind hlim hold hlen
    subst hfn
    exact gives_readCompletion hup (readCpl_old hfind hlim hold hlen)
  case oldTimeout =>
    intro s hif pf fn tag h hup hfn hfind hold
    subst hfn
    exact gives_cplTimeout hup (cplTimeout_old hfind hold)
  case entryTimeout =>
    intro s hif pf fn tag h hup hfn hfind hf hold
    subst hfn
    exact gives_cplTimeout hup
      ((cplTimeout_current hfind hold).trans (congrArg State.hostSettle (readFails_entry _ hf)))

end Sys2Proof.Proofs
end

section
/-! PROOFS. Descriptors and the HBM pages of slices (06_slices.md R161, R163; 07_rings.md R181): what claiming pages does to their
owners, what reads and writes of HBM leave alone, and that a tenant slice stays in its own pages. -/

namespace Sys2Proof.Proofs
open Sys2Proof Sys2Proof.Machine Sys2Proof.Laws

/-! ### Pages and their owners -/

section Pages
variable {s t u : State} {x y a n c pg q : Nat}

theorem pageOwner_setPage_same (s : State) (pg x : Nat) : (s.setPage pg (some x)).pageOwner pg = some x := by
  simp only [State.pageOwner, State.setPage, get_put_same]

theorem pageOwner_setPage_other (s : State) (o : Option Nat) (h : q ≠ pg) : (s.setPage pg o).pageOwner q = s.pageOwner q := by
  simp only [State.pageOwner, State.setPage, get_put_other 0 0 _ _ _ _ h]

theorem pageOwner_of_slc (h : t.slc = s.slc) : t.pageOwner q = s.pageOwner q := by
  unfold State.pageOwner
  rw [h]

/-- From `s` to `t` bytes stand as they were, and no page has left its owner. -/
structure OwnersKept (s t : State) : Prop where
  mem : t.mem = s.mem
  owner : ∀ {q y : Nat}, s.pageOwner q = some y → t.pageOwner q = some y

theorem OwnersKept.refl (s : State) : OwnersKept s s := ⟨rfl, id⟩

theorem OwnersKept.trans (h : OwnersKept s t) (k : OwnersKept t u) : OwnersKept s u :=
  ⟨k.mem.trans h.mem, fun hq => k.owner (h.owner hq)⟩

/-- Charging a page that has no owner takes no page from anyone. -/
theorem ownersKept_charge (p : Nat) (h : s.pageOwner pg = none) : OwnersKept s ((s.charge x p).setPage pg (some x)) := by
  refine ⟨rfl, fun {q y} hq => ?_⟩
  have hne : q ≠ pg := fun e => by simp [← e, hq] at h
  exact (pageOwner_setPage_other _ _ hne).trans hq

/-- A claim of a page and those after it makes the first page the slice's, and goes on with the rest. -/
theorem claimPages_succ (h : s.claimPages x pg (n + 1) = some u) :
    ∃ t, OwnersKept s t ∧ t.pageOwner pg = some x ∧ t.claimPages x (pg + 1) n = some u := by
  unfold State.claimPages at h
  split at h
  next y hy =>
    split at h
    next hyx => exact ⟨s, .refl s, hyx ▸ hy, h⟩
    next => cases h
  next hnone =>
    split at h
    next => exact ⟨_, ownersKept_charge 8 hnone, pageOwner_setPage_same .., h⟩
    next => cases h

theorem claimPages_kept : ∀ {n pg : Nat} {s : State}, s.claimPages x pg n = some u → OwnersKept s u
  | 0, _, _, h => Option.some.inj h ▸ .refl _
  | _ + 1, _, _, h => by
    obtain ⟨t, hkept, _, hrest⟩ := claimPages_succ h
    exact hkept.trans (claimPages_kept hrest)

/-- Every page of a granted claim is the slice's. -/
theorem claimPages_owner : ∀ {n pg : Nat} {s : State}, s.claimPages x pg n = some u → pg ≤ q → q < pg + n →
    u.pageOwner q = some x
  | 0, _, _, _, hlo, hhi => by omega
  | n + 1, pg, _, h, hlo, hhi => by
    obtain ⟨t, _, hpg, hrest⟩ := claimPages_succ h
    obtain rfl | hq : pg = q ∨ pg + 1 ≤ q := by omega
    · exact (claimPages_kept hrest).owner hpg
    · exact claimPages_owner hrest hq (by omega)

theorem claimHbm_kept (h : s.claimHbm x a n = some u) : OwnersKept s u := by
  unfold State.claimHbm at h
  split at h
  next => cases h
  next =>
    split at h
    next => exact Option.some.inj h ▸ .refl s
    next => exact claimPages_kept h

/-- Every byte of a tenant slice's granted range lies in a page charged to the slice (R161). -/
theorem claimHbm_owner (h : s.claimHbm x a n = some u) (hx : x ≠ 0) (hlo : a ≤ c) (hhi : c < a + n) :
    u.pageOwner (c / pageSize) = some x := by
  have hfirst : a / pageSize ≤ c / pageSize := Nat.div_le_div_right hlo
  have hlast : c / pageSize ≤ (a + n - 1) / pageSize := Nat.div_le_div_right (by omega)
  have hn : n ≠ 0 := by omega
  simp only [State.claimHbm, if_neg hx, if_neg hn] at h
  split at h
  next => cases h
  next => exact claimPages_owner h hfirst (by omega)

end Pages

/-! ### What accesses to HBM leave alone -/

section HbmFrames
variable {s : State} {a c : Nat} {bs : List Byte}

@[simp] theorem memEvent_mem (s : State) (m addr kind syn count : Nat) : (s.memEvent m addr kind syn count).mem = s.mem := by
  unfold State.memEvent
  dsimp only
  split <;> rfl

@[simp] theorem memEvent_slc (s : State) (m addr kind syn count : Nat) : (s.memEvent m addr kind syn count).slc = s.slc := by
  unfold State.memEvent
  dsimp only
  split <;> rfl

/-- Counting an uncorrectable error changes no byte. -/
@[simp] theorem uncorrectable_hbm (s : State) (m addr syn : Nat) : (s.uncorrectable m addr syn).mem.hbm = s.mem.hbm := by
  unfold State.uncorrectable
  dsimp only
  split <;> split <;> split <;> simp [State.setEcc]

@[simp] theorem uncorrectable_slc (s : State) (m addr syn : Nat) : (s.uncorrectable m addr syn).slc = s.slc := by
  unfold State.uncorrectable
  dsimp only
  split <;> split <;> split <;> simp [State.setEcc]

@[simp] theorem readWords_slc : ∀ (ws : List Nat) (s : State), (s.readWords ws).slc = s.slc
  | [], _ => rfl
  | w :: ws, s => by
    rw [State.readWords, readWords_slc ws]
    split
    next => exact uncorrectable_slc ..
    next => rfl

@[simp] theorem hbmRead_slc (s : State) (a n : Nat) : (s.hbmRead a n).next.slc = s.slc := by
  unfold State.hbmRead
  split
  next => rfl
  next => exact readWords_slc ..

/-- A read of HBM charges no page. -/
theorem pageOwner_hbmRead (s : State) (a n q : Nat) : (s.hbmRead a n).next.pageOwner q = s.pageOwner q :=
  pageOwner_of_slc (hbmRead_slc s a n)

/-- A write of a word's part changes no byte beside it, whatever becomes of the write (R100, R102). -/
theorem hbmWriteWord_byte_other (bad : Bool) (h : c < a ∨ a + bs.length ≤ c) :
    Mem.byte (s.hbmWriteWord a bs bad).1.mem.hbm c = Mem.byte s.mem.hbm c := by
  unfold State.hbmWriteWord
  dsimp only
  split
  next => rfl
  next =>
    split
    next => rw [uncorrectable_hbm]
    next => exact mem_byte_write_other bs _ a c h

theorem hbmWriteAux_byte_other (bad : Bool) : ∀ (n : Nat) (s : State) (a : Nat) (bs : List Byte) (st : Nat),
    c < a ∨ a + bs.length ≤ c → Mem.byte (State.hbmWriteAux bad n s a bs st).1.mem.hbm c = Mem.byte s.mem.hbm c
  | 0, _, _, _, _, _ => rfl
  | n + 1, s, a, bs, st, h => by
    unfold State.hbmWriteAux
    split
    next => rfl
    next =>
      dsimp only
      rw [hbmWriteAux_byte_other bad n _ _ _ _ (by rw [List.length_drop]; omega)]
      exact hbmWriteWord_byte_other bad (by rw [List.length_take]; omega)

/-- A write to HBM changes no byte outside the range it names (R98). -/
theorem hbmWrite_byte_other (bad : Bool) (h : c < a ∨ a + bs.length ≤ c) :
    Mem.byte (s.hbmWrite a bs bad).1.mem.hbm c = Mem.byte s.mem.hbm c := by
  unfold State.hbmWrite
  split
  next => rfl
  next => exact hbmWriteAux_byte_other bad _ s a bs 0 h

end HbmFrames

/-! ### Descriptors -/

section Descriptors
variable {s t : State} {x a c : Nat} {bs : List Byte} {bad : Bool} {g : Got}

/-- A descriptor's write to HBM changes nothing where the slice may not write, and else is a write after the claim. -/
theorem writeFor_hbm (h : s.writeFor x true a bs bad = (g, t)) :
    t = s ∨ ∃ u, s.claimHbm x a bs.length = some u ∧ t = (u.hbmWrite a bs bad).1 := by
  unfold State.writeFor at h
  rw [if_pos rfl] at h
  split at h
  next => exact .inl (Prod.mk.inj h).2.symm
  next u hu =>
    dsimp only at h
    refine .inr ⟨u, hu, ?_⟩
    split at h <;> exact (Prod.mk.inj h).2.symm

/-- A descriptor's read of HBM that gives data is a read after the claim. -/
theorem readFor_hbm_ok {w : JobFor} {n : Nat} {d : List Byte} (h : s.readFor w x true a n = (.ok d, t)) :
    ∃ u, s.claimHbm x a n = some u ∧ t = (u.hbmRead a n).next := by
  unfold State.readFor at h
  rw [if_pos rfl] at h
  split at h
  next => cases h
  next u hu =>
    dsimp only at h
    split at h
    next => exact ⟨u, hu, (Prod.mk.inj h).2.symm⟩
    next => cases h

theorem writeFor_byte_other (h : s.writeFor x true a bs bad = (g, t)) (hc : c < a ∨ a + bs.length ≤ c) :
    Mem.byte t.mem.hbm c = Mem.byte s.mem.hbm c := by
  obtain rfl | ⟨u, hclaim, rfl⟩ := writeFor_hbm h
  · rfl
  · rw [hbmWrite_byte_other bad hc, (claimHbm_kept hclaim).mem]

/-- A byte in another slice's page is outside any range that a claim grants to a tenant slice. -/
theorem claimHbm_outside {u : State} {y n : Nat} (h : s.claimHbm x a n = some u) (hx : x ≠ 0) (hy : y ≠ x)
    (hown : s.pageOwner (c / pageSize) = some y) : c < a ∨ a + n ≤ c := by
  by_contra hin
  have hc : u.pageOwner (c / pageSize) = some x := claimHbm_owner h hx (by omega) (by omega)
  exact hy (Option.some.inj (((claimHbm_kept h).owner hown).symm.trans hc))

end Descriptors

/-! ### The obligation -/

/-- Settles O53: a claim grants a tenant slice only pages that are or become its own, a write stays in the range claimed, and a
read charges nothing further. -/
theorem slicesStayInTheirPages : Obligations.SlicesStayInTheirPages := by
  unfold Obligations.SlicesStayInTheirPages
  refine ⟨?outside, ?foreign, ?read⟩
  case outside => exact fun s t x a bs bad g c h hc => writeFor_byte_other h hc
  case foreign =>
    intro s t x y a bs bad g c h hx hy hown
    obtain rfl | ⟨u, hclaim, _⟩ := writeFor_hbm h
    · rfl
    · exact writeFor_byte_other h (claimHbm_outside hclaim hx hy hown)
  case read =>
    intro s t w x a n d c h hx hlo hhi
    obtain ⟨u, hclaim, rfl⟩ := readFor_hbm_ok h
    exact (pageOwner_hbmRead ..).trans (claimHbm_owner hclaim hx hlo hhi)

end Sys2Proof.Proofs
end

section
/-! PROOFS. Slice commands, quotas, event rings and the sequences of reset and removal (06_slices.md R158, R164, R168-R178): what a
write of each register of SLC_ is, and what each step of a sequence does where nothing of the slice is left. -/

namespace Sys2Proof.Proofs
open Sys2Proof Sys2Proof.Machine Sys2Proof.Laws

/-! ### SLC_CMD -/

section SliceCommand
variable {s : State} {req : Req}

/-- The word of a slice command: go, the operation and the slice, each field of the register named. -/
abbrev sliceWord (s : State) (op x : Nat) : Nat :=
  cmdWord s R.reg_SLC_CMD [(R.SLC_CMD_go, 1), (R.SLC_CMD_op, op), (R.SLC_CMD_slice, x)]

theorem image_sliceCmd :
    s.image R.reg_SLC_CMD 0 0 0 = s.rd R.SLC_CMD_op % 8 * 2 ^ 24 + s.rd R.SLC_CMD_slice % 4096 := by
  simp [State.image, R.reg_SLC_CMD, R.SLC_CMD_go, R.SLC_CMD_op, R.SLC_CMD_slice]

theorem sliceWord_eq (op : Fin 8) (x : Fin 4096) : sliceWord s op x = 2 ^ 31 + op * 2 ^ 24 + x := by
  rw [sliceWord, cmdWord, image_sliceCmd]
  simp only [List.foldl, showFld, putFld, bits, R.SLC_CMD_go, R.SLC_CMD_op, R.SLC_CMD_slice, R.reg_SLC_CMD]
  omega

/-- The word asks for its own operation on its own slice. -/
theorem sliceWord_has (op : Fin 8) (x : Fin 4096) :
    has R.SLC_CMD_go (sliceWord s op x) = true ∧ part R.SLC_CMD_op (sliceWord s op x) = op ∧
      part R.SLC_CMD_slice (sliceWord s op x) = x := by
  rw [sliceWord_eq]
  simp only [has, part, bits, R.SLC_CMD_go, R.SLC_CMD_op, R.SLC_CMD_slice, bne_iff_ne]
  omega

/-- A write of a register of SLC_ that is in service for the requester is what SLC_ makes of it. -/
theorem wrReg_slc {r : RegDef} {i j : Nat} (v : Nat) (h : s.takes req 0x05 0 r i) (hw : r.flds.any Fld.writable = true) :
    s.wrReg req 0x05 r v 0 i j = (s.slcWr (some 37) r i j (v % 2 ^ r.width)).after :=
  wrReg_takes s req 0x05 r v 0 i j 0 h hw

theorem slcWr_cmd (u : Option Nat) (i j v : Nat) : s.slcWr u R.reg_SLC_CMD i j v = s.sliceCmd v := if_pos rfl

theorem slcWr_state (u : Option Nat) (i j v : Nat) : s.slcWr u R.reg_SLC_STATE i j v = s.evringWr i v := rfl

theorem slcWr_quota (u : Option Nat) (i j v : Nat) : s.slcWr u R.reg_SLC_QUOTA i j v = s.quotaWr i j v := rfl

theorem sliceOp_takes {op x : Nat} (h : s.takes req 0x05 0 R.reg_SLC_CMD) :
    s.sliceOp req op x = (s.sliceCmd (sliceWord s op x)).after :=
  (wrReg_slc _ h (by decide)).trans (congrArg State.after (slcWr_cmd _ _ _ _))

/-- A command that finds SLC_CMD idle is written and carried out (R158). -/
theorem sliceCmd_idle (op : Fin 8) (x : Fin 4096) (hidle : s.on R.SLC_CMD_STATUS_busy = false) :
    s.sliceCmd (sliceWord s op x) = match op.val with
      | 1 => (s.slicePut op x).activateSlice x
      | 2 => (s.slicePut op x).seqCmd x false
      | 3 => (s.slicePut op x).seqCmd x true
      | _ => (s.slicePut op x).sliceCmdDone St.slice_state := by
  obtain ⟨hgo, hop, hx⟩ := sliceWord_has (s := s) op x
  have hbusy : (s.putReg false R.reg_SLC_CMD 0 0 0 (sliceWord s op x)).on R.SLC_CMD_STATUS_busy = false :=
    (on_cmdPut_other _ _ _ (by decide)).trans hidle
  simp only [State.sliceCmd, hgo, hop, hx, hbusy] <;> rfl

/-- ACTIVATE of a FREE slice with an acceptable binding and no event ring (R158). -/
theorem activateSlice_free {x : Nat} (hfree : s.sliceState x = 0) (hbind : s.bindOk x = true)
    (hev : s.on R.SLC_STATE_evring_en x = false) : s.activateSlice x = (s.wr R.SLC_STATE_state 1 x).sliceCmdDone 0 := by
  have hev' : (s.wr R.SLC_STATE_state 1 x).on R.SLC_STATE_evring_en x = false := by
    rw [State.on, rd_wr_other _ _ _ _ _ _ _ _ _ _ (by simp [Fld.key, Fld.off, R.SLC_STATE_state, R.SLC_STATE_evring_en])]
    exact hev
  simp [State.activateSlice, State.inSeq, State.evringCheck, hfree, hbind, hev']

/-- RESET and REMOVE of an ACTIVE slice other than 0 begin its sequence (R168, R172). -/
theorem seqCmd_active {x : Nat} (removal : Bool) (hact : s.sliceState x = 1) (hx : x ≠ 0) :
    s.seqCmd x removal = (s.raise R.SLC_CMD_STATUS_busy).seqStart x removal 0 := by
  simp [State.seqCmd, State.inSeq, hact, hx]

theorem seqCmd_slice0 (removal : Bool) : s.seqCmd 0 removal = s.sliceCmdDone St.slice_op0 := if_pos rfl

end SliceCommand

/-! ### The sequences -/

section Sequences
variable {s : State} {x : Nat}

/-- Answering a module's read changes a link's queue at most. -/
theorem mrdEnd_links (n tag : Nat) (j : HostJob) : ∃ l, s.mrdEnd n tag j = { s with links := l } := by
  unfold State.mrdEnd State.sendCpl State.sendTxn
  dsimp only
  split
  next => split <;> split <;> exact ⟨_, rfl⟩
  next => exact ⟨_, rfl⟩

/-- Giving up a slice's gathered reads touches the reads and the links alone. -/
theorem jobsGone_hif_links (s : State) (x : Nat) :
    (s.jobsGone x).stq = s.stq ∧ (s.jobsGone x).rng = s.rng ∧ (s.jobsGone x).rdm = s.rdm := by
  unfold State.jobsGone
  refine List.foldlRecOn _ _ (motive := fun t : State => t.stq = s.stq ∧ t.rng = s.rng ∧ t.rdm = s.rdm) ⟨rfl, rfl, rfl⟩ ?_
  intro t ht j _
  split
  next n tag _ =>
    obtain ⟨l, hl⟩ := mrdEnd_links (s := t) n tag { j with status := St.slice_reset }
    rw [hl]
    exact ht
  next => exact ht

theorem stqAbandon_noVolume (h : s.stq.vols = []) : s.stqAbandon x = s := by
  simp [State.stqAbandon, h]

theorem foreignWork_noRing (h : s.rng.rings = []) : s.foreignWork x = s := by
  simp [State.foreignWork, h]

theorem qpsGone_noQp (h : s.rdm.qps = []) : s.qpsGone x = s := by
  simp [State.qpsGone, h]

theorem sliceRings_noRing (h : s.rng.rings = []) : s.sliceRings x = [] := by
  simp [State.sliceRings, h]

/-- The state in which the generation of a slice in its sequence has advanced (R168). -/
def genStepped (s : State) (x : Nat) (q : SliceSeq) : State :=
  let t := s.wr R.SLC_STATE_gen ((s.sliceGen x + 1) % 256) x
  { t with slc := { t.slc with seqs := Store.put none t.slc.seqs x (some { q with waiting := false }) } }

/-- The state in which, besides, what a slice without entries in flight reads has been given up (R170). -/
def readsGone (s : State) (x : Nat) (q : SliceSeq) : State :=
  (((genStepped s x q).orphanReads x (s.sliceGen x) (fun _ _ => none)).jobsGone x).forgetCopyIns []

theorem readsGone_keeps (q : SliceSeq) :
    (readsGone s x q).stq = s.stq ∧ (readsGone s x q).rng.rings = s.rng.rings ∧ (readsGone s x q).rdm = s.rdm := by
  obtain ⟨hstq, hrng, hrdm⟩ := jobsGone_hif_links ((genStepped s x q).orphanReads x (s.sliceGen x) (fun _ _ => none)) x
  exact ⟨hstq, (congrArg Rng.rings hrng).trans rfl, hrdm⟩

/-- Steps 2 to 6 where there are no rings, volumes or queue pairs: reads, regions, keys and policers remain (R174). -/
theorem genAdvance_noWork {q : SliceSeq} (hq : Store.get none s.slc.seqs x = some q) (hrings : s.rng.rings = [])
    (hlate : s.rng.late = []) (hvols : s.stq.vols = []) (hqps : s.rdm.qps = []) :
    s.genAdvance x = ((readsGone s x q).mrsGone x []).keysGone x := by
  obtain ⟨hstq, hrng, hrdm⟩ := readsGone_keeps (s := s) (x := x) q
  have hadv : s.genAdvance x =
      (((((readsGone s x q).stqAbandon x).foreignWork x).qpsGone x).mrsGone x []).keysGone x := by
    simp only [State.genAdvance, hq, sliceRings_noRing hrings, hrings, hlate, List.flatMap_nil, List.filter_nil, List.map_nil,
      List.append_nil, List.find?_nil, Option.map_none, List.foldl_nil, readsGone, genStepped]
  rw [hadv, stqAbandon_noVolume (hstq ▸ hvols), foreignWork_noRing (hrng.trans hrings), qpsGone_noQp (hrdm ▸ hqps)]

/-- The last orphan tag that blocked a sequence has gone (R171). -/
theorem genWaitEnd_unblocked {q : SliceSeq} (hq : Store.get none s.slc.seqs x = some q) (hwait : q.waiting = true)
    (hfree : s.genBlocked x = false) : s.genWaitEnd x = s.genAdvance x := by
  simp [State.genWaitEnd, hq, hwait, hfree]

/-- A reset by another cause than the command ends, with no rings and no pages to give back (R174-R176). -/
theorem seqEnd_reset {q : SliceSeq} (hq : Store.get none s.slc.seqs x = some q) (hwait : q.waiting = false)
    (hreset : q.removal = false) (hcause : q.cause ≠ 0) (hbusy : s.seqBusy x = false) (hrings : s.rng.rings = [])
    (hpages : s.slc.pages = []) :
    s.seqEnd x =
      let t : State := { s with slc := { s.slc with seqs := Store.put none s.slc.seqs x none } }
      let u := (List.range 16).foldl (fun s p => s.wr R.SLC_QUOTA_in_use 0 x p)
        (t.wr R.SLC_STATUS_clearing_pages s.slc.clearing.length)
      let v := (u.shaperFull x).wr R.SLC_STATE_state 1 x
      v.sliceDone x q.oldGen (v.sliceGen x) q.cause false := by
  simp only [State.seqEnd, hq, hwait, hreset, hcause, hbusy, sliceRings_noRing hrings, hpages, Bool.or_self, if_false,
    List.filter_nil, List.map_nil, List.foldl_nil, List.append_nil, and_false, Bool.false_eq_true]

theorem pageCleared_next {pg : Nat} {rest : List Nat} (h : s.slc.clearing = pg :: rest) :
    s.pageCleared =
      let t := s.hbmZero (pg * 2097152) ((pg + 1) * 2097152)
      ({ t with slc := { t.slc with clearing := rest } } : State).wr R.SLC_STATUS_clearing_pages rest.length := by
  simp only [State.pageCleared, h]
  rfl

end Sequences

/-! ### Quotas and event rings -/

section Quotas
variable {s : State} {x p v : Nat}

/-- The two fields of a value written to SLC_QUOTA. -/
theorem quotaWord_fields (hv : v < 2 ^ 42) : bits v 41 21 = v / 2 ^ 21 ∧ bits v 20 0 = v % 2 ^ 21 := by
  simp only [bits]
  omega

/-- A legal quota write that covers what is in use takes both fields (R164). -/
theorem quotaWr_legal (hv : v < 2 ^ 42) (hle : v % 2 ^ 21 ≤ v / 2 ^ 21)
    (hsum : s.quotaSlices.foldl (fun a y => if y = x then a else a + s.rd R.SLC_QUOTA_reserve y p) (v % 2 ^ 21) ≤ s.poolSize p)
    (huse : s.inUse x p ≤ v / 2 ^ 21) :
    s.quotaWr x p v = (s.wr R.SLC_QUOTA_limit (v / 2 ^ 21) x p).wr R.SLC_QUOTA_reserve (v % 2 ^ 21) x p := by
  obtain ⟨hlim, hrsv⟩ := quotaWord_fields hv
  have hkept : ((s.wr R.SLC_QUOTA_limit (v / 2 ^ 21) x p).wr R.SLC_QUOTA_reserve (v % 2 ^ 21) x p).inUse x p = s.inUse x p := by
    unfold State.inUse
    rw [rd_wr_other _ _ _ _ _ _ _ _ _ _ (by simp [Fld.key, Fld.off, R.SLC_QUOTA_in_use, R.SLC_QUOTA_reserve]),
      rd_wr_other _ _ _ _ _ _ _ _ _ _ (by simp [Fld.key, Fld.off, R.SLC_QUOTA_in_use, R.SLC_QUOTA_limit])]
  simp only [State.quotaWr, hlim, hrsv, hkept]
  rw [if_neg (by omega), if_neg (by omega)]

/-- A quota write whose limit is below its reserve is discarded and counted (R164). -/
theorem quotaWr_reserveOver (hv : v < 2 ^ 42) (hlt : v / 2 ^ 21 < v % 2 ^ 21) :
    s.quotaWr x p v = (s.wr R.SLC_QUOTA_ERR_status St.reserve_over).sat R.SLC_QUOTA_ERR_count := by
  obtain ⟨hlim, hrsv⟩ := quotaWord_fields hv
  simp only [State.quotaWr, hlim, hrsv]
  rw [if_pos (.inl hlt)]
  rfl

/-- A slice takes a ring of type 2 of its own for its events (R178). -/
theorem evringWr_own {r : Nat} {y : Ring} (hnum : bits v 47 32 = r) (hen : bit v 48 = true) (hr : s.ring r = some y)
    (ht : y.type = 2) (hs : y.slice = x) :
    s.evringWr x v = (s.wr R.SLC_STATE_evring r x).wr R.SLC_STATE_evring_en 1 x := by
  simp [State.evringWr, hnum, hen, hr, ht, hs, b2n]

end Quotas

/-! ### The obligation -/

section Commands
variable {s t : State} {req : Req} {x : Fin 4096} {p : Fin 16} {v : Nat}

theorem done_sliceOp {op : Nat} (h : s.takes req 0x05 0 R.reg_SLC_CMD) (hcmd : s.sliceCmd (sliceWord s op x) = t) :
    s.done (s.sliceOp req op x) = .next (s.settle t.after) :=
  congrArg s.done ((sliceOp_takes h).trans (congrArg State.after hcmd))

theorem gives_quotaWrite (h : s.takes req 0x05 0 R.reg_SLC_QUOTA x) (hv : v < 2 ^ 42) (hq : s.quotaWr x p v = t) :
    Gives (.quotaWrite req x p v) s t.after := by
  have hwr : s.wrReg req 0x05 R.reg_SLC_QUOTA v 0 x p = (s.quotaWr x p (v % 2 ^ 64)).after :=
    (wrReg_slc v h (by decide)).trans (congrArg State.after (slcWr_quota ..))
  rw [Nat.mod_eq_of_lt (by omega), hq] at hwr
  exact congrArg s.done hwr

theorem gives_evringWrite (h : s.takes req 0x05 0 R.reg_SLC_STATE x) (hv : v < 2 ^ 64) (hq : s.evringWr x v = t) :
    Gives (.evringWrite req x v) s t.after := by
  have hwr : s.wrReg req 0x05 R.reg_SLC_STATE v 0 x = (s.evringWr x (v % 2 ^ 64)).after :=
    (wrReg_slc v h (by decide)).trans (congrArg State.after (slcWr_state ..))
  rw [Nat.mod_eq_of_lt hv, hq] at hwr
  exact congrArg s.done hwr

end Commands

/-- Settles O10: a command that finds SLC_CMD idle is its operation on the slice, quotas and event rings are SLC_'s own writes, and
the steps of a sequence are what is left of the slice. -/
theorem sliceCommands : Obligations.SliceCommands := by
  unfold Obligations.SliceCommands
  refine ⟨?activate, ?reset, ?reset0, ?remove, ?advance, ?seqEnd, ?pageClear, ?quota, ?quotaOver, ?evring⟩
  case activate =>
    rintro s _ req x h rfl hidle hfree hbind hev
    exact done_sliceOp h ((sliceCmd_idle 1 x hidle).trans (activateSlice_free hfree hbind hev))
  case reset =>
    rintro s _ req x h rfl hidle hact hx
    exact done_sliceOp h ((sliceCmd_idle 2 x hidle).trans (seqCmd_active false hact hx))
  case reset0 =>
    intro s req h hidle
    exact done_sliceOp h ((sliceCmd_idle 2 0 hidle).trans (seqCmd_slice0 false))
  case remove =>
    rintro s _ req x h rfl hidle hact hx
    exact done_sliceOp h ((sliceCmd_idle 3 x hidle).trans (seqCmd_active true hact hx))
  case advance =>
    intro s x q hup hq hwait hfree hrings hlate hvols hqps
    exact whenMain_released (f := (·.genWaitEnd x)) hup
      ((genWaitEnd_unblocked hq hwait hfree).trans (genAdvance_noWork hq hrings hlate hvols hqps))
  case seqEnd =>
    intro s x q hup hq hwait hreset hcause hbusy hrings hpages
    exact whenMain_released (f := (·.seqEnd x)) hup (seqEnd_reset hq hwait hreset hcause hbusy hrings hpages)
  case pageClear => exact fun s pg rest hup hc => whenMain_released (f := State.pageCleared) hup (pageCleared_next hc)
  case quota => exact fun s req x p v h hv hle hsum huse => gives_quotaWrite h hv (quotaWr_legal hv hle hsum huse)
  case quotaOver => exact fun s req x p v h hv hlt => gives_quotaWrite h hv (quotaWr_reserveOver hv hlt)
  case evring =>
    intro s req x r y h hr ht hs
    have hnum : bits (2 ^ 48 + r.val * 2 ^ 32) 47 32 = r := by simp only [bits]; omega
    have hen : bit (2 ^ 48 + r.val * 2 ^ 32) 48 = true := by simp only [bit, beq_iff_eq]; omega
    exact gives_evringWrite h (by omega) (evringWr_own hnum hen hr ht hs)

end Sys2Proof.Proofs
end

section
/-! PROOFS. Commands of rings, their residency and their doorbells (07_rings.md R180, R182-R188, R207, R565, R566): what a write of
RNG_CMD is, what each command finds and leaves, and that nothing starts at the tail. -/

namespace Sys2Proof.Proofs
open Sys2Proof Sys2Proof.Machine Sys2Proof.Laws

/-! ### The start of entries and the tail -/

section Tail
variable {s t : State} {r c : Nat} {x : Ring}

/-- At or after the tail nothing starts (R188). -/
theorem startEntry_atTail (hr : s.ring r = some x) (hb : before x.head x.tail = false) : s.startEntry r = (s, none) := by
  simp [State.startEntry, hr, hb]

/-- A count that is answered is the ring's head: every other way through the checks answers none. -/
theorem startEntry_count (hr : s.ring r = some x) (h : s.startEntry r = (t, some c)) : c = x.head := by
  simp only [State.startEntry, hr] at h
  repeat' split at h
  all_goals simp only [Prod.mk.injEq, Option.some.injEq, reduceCtorEq, and_false] at h
  exact h.2.symm

/-- Whenever an entry starts, the ring's head was before its tail (R188). -/
theorem startEntry_beforeTail (hr : s.ring r = some x) (h : s.startEntry r = (t, some c)) : before x.head x.tail = true := by
  by_contra hb
  simp [startEntry_atTail hr (Bool.eq_false_iff.mpr hb)] at h

theorem descStart_atTail (hr : s.ring r = some x) (hb : before x.head x.tail = false) : s.descStart r = s := by
  simp [State.descStart, startEntry_atTail hr hb]

end Tail

/-- Settles O56: a head that is not before the tail stops the start of an entry, and a started entry is the one at head. -/
theorem nothingStartsAtTheTail : Obligations.NothingStartsAtTheTail := by
  unfold Obligations.NothingStartsAtTheTail
  refine ⟨?atTail, ?started⟩
  case atTail =>
    intro s r x hup hdue hr hb
    have hgives := gives_descriptorStart hup (descStart_atTail hr hb)
    rwa [drainDue_nil s hdue] at hgives
  case started =>
    intro s t r c x hr h
    obtain rfl := startEntry_count hr h
    exact ⟨rfl, startEntry_beforeTail hr h⟩

/-! ### RNG_CMD -/

/-- What RNG_CMD does with an operation, once its word is stored (R183-R185). -/
def ringOpOn (t : State) (op r : Nat) (flush : Bool) : State :=
  match op with
  | 1 => t.ringCreate r t.volOk
  | 2 => t.ringEnable r
  | 3 => t.ringDisable r flush
  | 4 => t.ringDestroy r
  | 5 => t.ringRead r
  | _ => t.ringCmdDone St.ring_state

section RingCommand
variable {s : State} {req : Req}

theorem putField_rng (locked armed : Bool) (f : Fld) (i j k v : Nat) : (s.putField locked armed f i j k v).rng = s.rng := by
  unfold State.putField
  cases f.acc <;> dsimp only
  case rws => cases armed <;> rfl
  case rwl => cases locked <;> rfl
  all_goals rfl

/-- Storing a value in a register touches no ring. -/
theorem putReg_rng (armed : Bool) (r : RegDef) (i j k v : Nat) : (s.putReg armed r i j k v).rng = s.rng :=
  List.foldlRecOn r.flds _ (motive := fun t : State => t.rng = s.rng) rfl
    fun _ ht f _ => (putField_rng _ armed f i j k v).trans ht

theorem ring_ringPut (op r : Nat) (flush : Bool) (r' : Nat) : (s.ringPut op r flush).ring r' = s.ring r' := by
  rw [State.ring, State.ringPut, State.cmdPut, putReg_rng]
  rfl

/-- The word of a ring command: go, the operation, flush and the ring, each field of the register named. -/
abbrev ringWord (s : State) (op r : Nat) (flush : Bool) : Nat :=
  cmdWord s R.reg_RNG_CMD [(R.RNG_CMD_go, 1), (R.RNG_CMD_op, op), (R.RNG_CMD_flush, b2n flush), (R.RNG_CMD_ring, r)]

/-- Storing that word is what stands in RNG_CMD once the command is written. -/
theorem putReg_ringWord (op r : Nat) (flush : Bool) :
    s.putReg false R.reg_RNG_CMD 0 0 0 (ringWord s op r flush) = s.ringPut op r flush := rfl

theorem image_ringCmd :
    s.image R.reg_RNG_CMD 0 0 0 =
      s.rd R.RNG_CMD_op % 8 * 2 ^ 28 + s.rd R.RNG_CMD_flush % 2 * 2 ^ 27 + s.rd R.RNG_CMD_ring % 65536 := by
  simp [State.image, R.reg_RNG_CMD, R.RNG_CMD_go, R.RNG_CMD_op, R.RNG_CMD_flush, R.RNG_CMD_ring]

theorem b2n_lt_two (b : Bool) : b2n b < 2 := by cases b <;> decide

theorem b2n_bne_zero (b : Bool) : (b2n b != 0) = b := by cases b <;> rfl

theorem ringWord_eq (op : Fin 8) (r : Fin 65536) (flush : Bool) :
    ringWord s op r flush = 2 ^ 31 + op * 2 ^ 28 + b2n flush * 2 ^ 27 + r := by
  have hflush := b2n_lt_two flush
  rw [ringWord, cmdWord, image_ringCmd]
  simp only [List.foldl, showFld, putFld, bits, R.RNG_CMD_go, R.RNG_CMD_op, R.RNG_CMD_flush, R.RNG_CMD_ring, R.reg_RNG_CMD]
  omega

/-- The word asks for its own operation, with its own flush, on its own ring. -/
theorem ringWord_has (op : Fin 8) (r : Fin 65536) (flush : Bool) :
    has R.RNG_CMD_go (ringWord s op r flush) = true ∧ part R.RNG_CMD_op (ringWord s op r flush) = op ∧
      has R.RNG_CMD_flush (ringWord s op r flush) = flush ∧ part R.RNG_CMD_ring (ringWord s op r flush) = r := by
  have hflush := b2n_lt_two flush
  have hbit : bits (2 ^ 31 + op * 2 ^ 28 + b2n flush * 2 ^ 27 + r) 27 27 = b2n flush := by
    simp only [bits]
    omega
  rw [ringWord_eq]
  refine ⟨?goes, ?operation, (congrArg (· != 0) hbit).trans (b2n_bne_zero flush), ?names⟩ <;>
    simp only [has, part, bits, R.RNG_CMD_go, R.RNG_CMD_op, R.RNG_CMD_ring, bne_iff_ne] <;>
    omega

/-- A write of a ring command stores its word and does the operation it asks for. -/
theorem ringCmd_word (op : Fin 8) (r : Fin 65536) (flush : Bool) :
    s.ringCmd (ringWord s op r flush) = ringOpOn (s.ringPut op r flush) op r flush := by
  obtain ⟨hgo, hop, hflush, hr⟩ := ringWord_has (s := s) op r flush
  simp only [State.ringCmd, putReg_ringWord, hgo, hop, hflush, hr, Bool.not_true, Bool.false_eq_true, if_false]
  rfl

/-- A write of a register of RNG_ that is in service for the requester is what RNG_ makes of it. -/
theorem wrReg_rng {g : RegDef} {i : Nat} (v : Nat) (h : s.takes req 0x06 0 g i) (hw : g.flds.any Fld.writable = true) :
    s.wrReg req 0x06 g v 0 i = (s.rngWr (some 38) g i (v % 2 ^ g.width)).after :=
  wrReg_takes s req 0x06 g v 0 i 0 0 h hw

theorem rngWr_cmd (u : Option Nat) (i v : Nat) : s.rngWr u R.reg_RNG_CMD i v = s.ringCmd v := if_pos rfl

/-- A ring command written to a RNG_CMD in service is its operation, and what follows every register write (R566). -/
theorem done_ringOp (op : Fin 8) (r : Fin 65536) (flush : Bool) {t : State} (h : s.takes req 0x06 0 R.reg_RNG_CMD)
    (ht : ringOpOn (s.ringPut op r flush) op r flush = t) : s.done (s.ringOp req op r flush) = .next (s.settle t.after) := by
  have hwr : s.ringOp req op r flush = (s.ringCmd (ringWord s op r flush)).after :=
    (wrReg_rng _ h (by decide)).trans (congrArg State.after (rngWr_cmd ..))
  exact congrArg s.done (hwr.trans (congrArg State.after ((ringCmd_word op r flush).trans ht)))

end RingCommand

/-! ### Creating, enabling and ending rings -/

section Control
variable {s u : State} {r : Nat} {x y : Ring}

/-- A charge of a pool leaves the count of resident contexts alone. -/
theorem resident_charge (s : State) (sl p : Nat) : (s.charge sl p).resident = s.resident :=
  rd_wr_other _ _ _ _ _ _ _ _ _ _ (by simp only [Fld.key, Fld.off, R.RNG_STATUS_resident, R.SLC_QUOTA_in_use]; omega)

/-- CREATE with every check of R183 passed, of a ring that names no volume, while a resident entry is free. -/
theorem ringCreate_passes {volOk : Nat → Nat → Bool} (hx : x = ringOf s.stageImage s.time.ft) (hnone : s.ring r = none)
    (hlegal : s.ctxLegal s.stageImage = true) (hact : s.sliceActive x.slice = true) (hrange : s.ctxRange s.stageImage = some u)
    (hdb : s.dbFree s.stageImage none = true) (ht : x.type ≠ 4) (hal : u.allocStatus x.slice 0 = 0) (hres : u.resident < 32768) :
    s.ringCreate r volOk =
      let v := u.charge x.slice 0
      (((v.wr R.RNG_STATUS_resident (v.resident + 1)).setRing r { x with eng := { x.eng with resident := true } }).mapDb
        x r).ringCmdDone 0 := by
  subst hx
  simp [State.ringCreate, Ring.eng', resident_charge, hnone, hlegal, hact, hrange, hdb, ht, hal, hres]

/-- ENABLE of a DISABLED ring by a legal image that carries the ring's own type, slice and target (R184). -/
theorem ringEnable_passes (hr : s.ring r = some x) (hst : x.state = 0) (hy : y = ringOf s.stageImage s.time.ft)
    (hlegal : s.ctxLegal s.stageImage = true) (hown : (y.type, y.slice, y.target) = (x.type, x.slice, x.target))
    (hrange : s.ctxRange s.stageImage = some u) (hdb : s.dbFree s.stageImage (some r) = true) :
    s.ringEnable r =
      let z := { y with tail := y.head, cpl := y.head, ack := y.head, state := 1, eng := { y.eng with resident := x.eng.resident, irqAt := y.head, evSeq := x.eng.evSeq } }
      ((((u.endFlight r x).unmapDb x).setRing r z).mapDb z r).ringCmdDone 0 := by
  subst hy
  obtain ⟨htype, hslice, htarget⟩ := by simpa only [Prod.mk.injEq] using hown
  simp [State.ringEnable, hr, hst, hlegal, htype, hslice, htarget, hrange, hdb]

/-- DISABLE without flush stops an ACTIVE ring, and the entries posted on it that nothing fills are flushed all the same (R565). -/
theorem ringDisable_active (hr : s.ring r = some x) (hst : x.state = 1) :
    s.ringDisable r false =
      (s.setRing r ({ x with state := 2, eng := { x.eng with copies := [], flushing := false } }).flushPosted).ringCmdDone 0 := by
  simp [State.ringDisable, hr, hst]

theorem ringDestroy_disabled (hr : s.ring r = some x) (hst : x.state = 0) :
    s.ringDestroy r = (s.removeRing r x).ringCmdDone 0 := by
  simp [State.ringDestroy, hr, hst]

theorem ringRead_some (hr : s.ring r = some x) : s.ringRead r = (s.setStage x.image).ringCmdDone 0 := by
  simp [State.ringRead, hr]

/-- A STOPPING ring with nothing in flight and nothing left to start is DISABLED (R184). -/
theorem ringDrained_empty (hr : s.ring r = some x) (hst : x.state = 2) (hfl : x.eng.flight = []) (hb : before x.head x.tail = false) :
    s.ringDrained r = s.setRing r { x with state := 0, eng := { x.eng with flushing := false, copies := [], marked := [], refetch := 0 } } := by
  simp [State.ringDrained, hr, hst, hfl, hb]

end Control

/-! ### Residency -/

section Residency
variable {s : State} {r : Nat} {x : Ring}

@[simp] theorem rd_setRing (s : State) (r : Nat) (x : Ring) (f : Fld) (i j k : Nat) : (s.setRing r x).rd f i j k = s.rd f i j k :=
  rfl

@[simp] theorem resident_setRing (s : State) (r : Nat) (x : Ring) : (s.setRing r x).resident = s.resident := rfl

/-- A husk in good words is loaded into a free resident entry, with nothing waiting for it (R182). -/
theorem huskLoaded_clean (hr : s.ring r = some x) (hload : x.eng.loading = true) (hpark : x.eng.parked = [])
    (hres : s.resident < 32768) (hlim : s.huskAddr r + 64 ≤ s.hbmLimit) (hc : (wordsOf (s.huskAddr r) 64).any s.wordBad = false) :
    s.huskLoaded r =
      ((s.setRing r { x with eng := { x.eng with resident := true, loading := false, parked := [], used := s.time.ft } }).wr
        R.RNG_STATUS_resident (s.resident + 1)).wr R.RNG_STATUS_loading (s.rd R.RNG_STATUS_loading - 1) := by
  simp [State.huskLoaded, Ring.eng', hr, hload, hpark, hres, hbmRead_clean hlim hc]

theorem ring_of_only (h : s.rng.rings = [(r, some x)]) : s.ring r = some x := by
  simp [State.ring, Store.get, h]

/-- The only ring, idle and naming no volume, goes to its husk when a load finds every resident entry taken (R182). -/
theorem ringEvict_only (h : s.rng.rings = [(r, some x)]) (hres : x.eng.resident = true) (hidle : x.idle = true) (ht : x.type ≠ 4)
    (hus : s.rd R.RNG_CFG_idle_us ≠ 0) (hload : 0 < s.rd R.RNG_STATUS_loading) (hfull : 32768 ≤ s.resident) :
    s.ringEvict r =
      let u := ((s.runTo (x.eng.used + s.rd R.RNG_CFG_idle_us * unitsPerUs)).hbmWrite (s.huskAddr r) x.image).1
      (u.setRing r { x with eng := { x.eng with resident := false } }).wr R.RNG_STATUS_resident (u.resident - 1) := by
  have hhusk (v : Nat) : (s.runTo v).huskAddr r = s.huskAddr r := by simp only [State.huskAddr, runTo_rd]
  simp [State.ringEvict, Ring.eng', ring_of_only h, h, hres, hidle, ht, hus, hload, hfull, hhusk]

end Residency

/-! ### Doorbells -/

section Doorbells
variable {s : State} {fn page r v c : Nat} {x : Ring}

/-- A doorbell on a page of a slice that is mapped goes to its ring (R186). -/
theorem pageDoorbell_mapped (hpage : (s.pageSlice fn page).isSome = true) (hvalid : s.on R.RNG_DB_MAP_valid (dbIndex fn page) = true)
    (hmap : s.rd R.RNG_DB_MAP_ring (dbIndex fn page) = r) : s.pageDoorbell fn page v = s.doorbell r v := by
  have hsome : (s.pageSlice fn page).isNone = false := by simpa using hpage
  simp [State.pageDoorbell, hsome, hvalid, hmap]

/-- The fields of a doorbell value: kind 0 or 1, the generation and the count, with nothing reserved set (R187). -/
theorem doorbellValue_fields (kind : Fin 2) (gen : Fin 256) (hc : c < 2 ^ 32) (hv : v = kind * 2 ^ 60 + gen * 2 ^ 48 + c) :
    bits v 63 60 = kind ∧ bits v 59 56 = 0 ∧ bits v 55 48 = gen ∧ bits v 47 32 = 0 ∧ bits v 31 0 = c := by
  subst hv
  simp only [bits]
  omega

/-- A doorbell of the slice's generation to a resident ACTIVE ring is a post or an acknowledge by its kind (R187). -/
theorem doorbell_delivered (kind : Fin 2) (gen : Fin 256) (hc : c < 2 ^ 32) (hv : v = kind * 2 ^ 60 + gen * 2 ^ 48 + c)
    (hr : s.ring r = some x) (hst : x.state = 1) (hres : x.eng.resident = true) (hact : s.sliceActive x.slice = true)
    (hgen : s.sliceGen x.slice = gen) : s.doorbell r v = if kind.val = 0 then s.dbPost r x c else s.dbAck r x c := by
  obtain ⟨hkind, hz, hg, hz', hcount⟩ := doorbellValue_fields kind gen hc hv
  have hle : ¬1 < kind.val := by omega
  simp [State.doorbell, hr, hst, hres, hact, hgen, hkind, hz, hg, hz', hcount, hle]

/-- A post that moves the tail of a ring in HBM within its size asks for no read (R187). -/
theorem dbPost_moves (hm : x.mem = true) (hb : before c x.tail = false) (hsize : cdiff c x.cpl ≤ x.size) (hne : c ≠ x.tail) :
    s.dbPost r x c = s.setRing r { x with tail := c, eng := { x.eng with used := s.time.ft } } := by
  simp [State.dbPost, State.issueFetch, ring_setRing_same, hb, Nat.not_lt.mpr hsize, hne, hm]

/-- An acknowledge of a ring without interrupts is recorded, and fires nothing (R207). -/
theorem dbAck_silent (hirq : x.irqEn = false) :
    s.dbAck r x c = s.setRing r { x with ack := c, eng := { x.eng with armed := true } } := by
  simp [State.dbAck, Ring.signals, hirq]

/-- A host's doorbell on a page mapped to a ring, as the command of a released main domain carries it out. -/
theorem whenMain_pageDoorbell {t : State} (hup : s.mainUp = true) (hready : s.fnReady fn = true)
    (hpage : (s.pageSlice fn page).isSome = true) (hvalid : s.on R.RNG_DB_MAP_valid (dbIndex fn page) = true)
    (hmap : s.rd R.RNG_DB_MAP_ring (dbIndex fn page) = r) (h : s.doorbell r v = t) :
    s.whenMain (fun s => if s.fnReady fn then s.pageDoorbell fn page v else s) = .next (s.settle t) :=
  whenMain_released hup (by simp only [hready, if_true, pageDoorbell_mapped hpage hvalid hmap, h])

end Doorbells

/-! ### The obligation -/

/-- Settles O11: a command written to RNG_CMD is its operation on the ring as it stood, residency and draining are steps of the
released ring engine, and a doorbell reaches the ring of its page. -/
theorem ringCommands : Obligations.RingCommands := by
  unfold Obligations.RingCommands
  refine ⟨?create, ?enable, ?disable, ?destroy, ?read, ?drained, ?loaded, ?evict, ?post, ?ack⟩
  case create =>
    rintro s _ u req r x h rfl hx hnone hlegal hact hrange hdb ht hal hres
    exact done_ringOp 1 r false h (ringCreate_passes hx hnone hlegal hact hrange hdb ht hal hres)
  case enable =>
    rintro s _ u req r x y h rfl hr hst hy hlegal hown hrange hdb
    exact done_ringOp 2 r false h (ringEnable_passes hr hst hy hlegal hown hrange hdb)
  case disable =>
    exact fun s req r x h hr hst => done_ringOp 3 r false h (ringDisable_active ((ring_ringPut ..).trans hr) hst)
  case destroy =>
    exact fun s req r x h hr hst => done_ringOp 4 r false h (ringDestroy_disabled ((ring_ringPut ..).trans hr) hst)
  case read => exact fun s req r x h hr => done_ringOp 5 r false h (ringRead_some ((ring_ringPut ..).trans hr))
  case drained =>
    exact fun s r x hup hr hst hfl hb => whenMain_released (f := (·.ringDrained r)) hup (ringDrained_empty hr hst hfl hb)
  case loaded =>
    exact fun s r x hup hr hload hpark hres hlim hc =>
      whenMain_released (f := (·.huskLoaded r)) hup (huskLoaded_clean hr hload hpark hres hlim hc)
  case evict =>
    exact fun s r x hup h hres hidle ht hus hload hfull =>
      whenMain_released (f := (·.ringEvict r)) hup (ringEvict_only h hres hidle ht hus hload hfull)
  case post =>
    intro s hif pf page gen c r x hup hready hpage hvalid hmap hr hst hm hres hact hgen hc hb hsize hne
    refine whenMain_pageDoorbell hup hready hpage hvalid hmap ?_
    exact (doorbell_delivered 0 gen hc (by rw [Nat.mod_eq_of_lt hc]; simp) hr hst hres hact hgen).trans
      ((if_pos rfl).trans (dbPost_moves hm hb hsize hne))
  case ack =>
    intro s hif pf page gen c r x hup hready hpage hvalid hmap hr hst hirq hres hact hgen hc
    refine whenMain_pageDoorbell hup hready hpage hvalid hmap ?_
    exact (doorbell_delivered 1 gen hc (by rw [Nat.mod_eq_of_lt hc]; simp) hr hst hres hact hgen).trans
      ((if_neg (by decide)).trans (dbAck_silent hirq))

end Sys2Proof.Proofs
end

section
/-! PROOFS. States of network ports (08_network_ports.md R212-R215, R227-R229, table Port states): what negotiation, training, alignment, faults and
lane shorts make of a port by the state they find it in. -/

namespace Sys2Proof.Proofs
open Sys2Proof Sys2Proof.Machine Sys2Proof.Laws

/-! ### Negotiation and training -/

section Training
variable {s : State} {p : Nat}

/-- A partner that resolves to the port's rate ends negotiation (R212). -/
theorem anResolved_match (hst : s.portState p = 1) (han : s.portAn p = true) :
    s.anResolved p (s.portRate p) =
      ((s.setPort p R.PRT_PORT_STATUS_an_done 1).setPort p R.PRT_PORT_STATUS_an_mismatch 0).waitNow p :=
  (if_pos ⟨hst, han⟩).trans (if_pos rfl)

theorem anResolved_mismatch {rate : Nat} (hst : s.portState p = 1) (han : s.portAn p = true) (hrate : rate ≠ s.portRate p) :
    s.anResolved p rate =
      ((s.setPort p R.PRT_PORT_STATUS_an_mismatch 1).setPort p R.PRT_PORT_STATUS_an_done 0).waitNow p :=
  (if_pos ⟨hst, han⟩).trans (if_neg hrate)

theorem anRestart_mismatched (hst : s.portState p = 1) (hmis : s.portBit p R.PRT_PORT_STATUS_an_mismatch = true) :
    s.anRestart p = ((s.runTo ((s.lane p).waitAt + unitsPerSec)).setPort p R.PRT_PORT_STATUS_an_done 0).waitNow p :=
  if_pos ⟨hst, hmis⟩

/-- A training that follows a finished negotiation starts again after 1 s and is counted (R212). -/
theorem trainTimeout_negotiated (hst : s.portState p = 1) (hlt : s.portLt p = true)
    (hdone : s.portBit p R.PRT_PORT_STATUS_an_done = true) :
    s.trainTimeout p =
      (((s.runTo ((s.lane p).waitAt + unitsPerSec)).prtCnt p 18).setPort p R.PRT_PORT_STATUS_an_done 0).waitNow p :=
  if_pos ⟨hst, hlt, .inl hdone⟩

/-- Alignment of a port in TRAINING whose negotiation is over, with the cuff open (R213, table Port states). -/
theorem portUpEvent_trained (inv : Nat) (hcuff : s.cuffOpen = true) (hst : s.portState p = 1)
    (hdone : s.portBit p R.PRT_PORT_STATUS_an_done = true) :
    s.portUpEvent p inv =
      let t := ((s.setPort p R.PRT_PORT_STATUS_state 2).setPort p R.PRT_PORT_STATUS_lt_done (b2n (s.portLt p))).setPortUp p true
      let u := ((t.setPort p R.PRT_PORT_STATUS_local_fault 0).setPort p R.PRT_PORT_STATUS_remote_fault 0).setLanes p 2
      (((u.clearLos p).setInverted p inv).portEvent p 1 []).linkAen p :=
  if_pos ⟨hcuff, .inl ⟨hst, .inr hdone⟩⟩

end Training

/-! ### Faults, loss of signal and reversal -/

section Faults
variable {s : State} {p : Nat}

theorem portUp_of_state (h : s.portState p = 2) : s.portUp p = true := beq_iff_eq.mpr h

/-- A local fault takes a port that was UP down, and its 10 ms begin (table Port states). -/
theorem portFault_local_up (hst : s.portState p = 2) :
    s.portFault p false =
      (((s.portDown p 1).setPort p R.PRT_PORT_STATUS_local_fault 1).setPort p R.PRT_PORT_STATUS_state 3).waitNow p :=
  (if_pos (.inl hst)).trans (if_pos (portUp_of_state hst))

theorem faultTimeout_fault (hst : s.portState p = 3) :
    s.faultTimeout p = (s.runTo ((s.lane p).waitAt + 10 * unitsPerMs)).train p := if_pos hst

theorem lossOfSignal_up {l : Nat} (hl : s.portOfLane l = some p) (hst : s.portState p = 2) :
    s.lossOfSignal l =
      (((s.portDown p 0).train p).wr R.PRT_LANE_STATUS_los 1 (l / 8) (l % 8)).wr R.PRT_LANE_STATUS_state 3 (l / 8) (l % 8) := by
  simp only [State.lossOfSignal, hl]
  exact if_pos (.inr (.inl hst))

theorem groupReversal_800G {g : Nat} (h : s.quadMode g 0 = 6) :
    s.groupReversal g = (s.raise R.PRT_GRP_STATUS_reversed g).event 7 g 4 (leBytes 1 g ++ List.replicate 15 0) :=
  if_pos (.inl h)

end Faults

/-! ### Shorted lanes -/

section Lanes
variable {s : State} {l p : Nat}

/-- A shut lane takes a port that was UP into LANE_FAULT, and its other lanes idle (R227). -/
theorem laneFault_up (hl : s.portOfLane l = some p) (hst : s.portState p = 2) :
    s.laneFault l = ((s.portDown p 2).setPort p R.PRT_PORT_STATUS_state 4).setLanes p 0 := by
  simp only [State.laneFault, hl]
  exact if_neg (by omega)

/-- A network lane in service that is shorted to ground is shut, its port is in fault, and the event names the lane (R227). -/
theorem laneShorted_network (hnet : l < 64) (hshut : s.laneShut l = false) :
    s.laneShorted l none =
      ((s.shutLane l false).laneFault l).eventBoth 7 (l / 8) 3 (leBytes 1 l ++ List.replicate 15 0) := by
  have hin : s.laneIsShut l = false := (if_pos hnet).trans hshut
  simp only [State.laneShorted, hin, hnet, sameLanes, State.netLaneShort, Bool.not_true, Bool.or_self, Bool.false_eq_true, if_false,
    if_true, List.append_assoc]
  rfl

/-- The fault bit of a network lane as a read of its status register shows it. -/
theorem has_shortGnd_laneStatus {i j : Nat} (h : s.on R.PRT_LANE_STATUS_short_gnd i j = true) :
    has R.PRT_LANE_STATUS_short_gnd (s.getReg R.reg_PRT_LANE_STATUS i j 0) = true := by
  have hrd : s.rd R.PRT_LANE_STATUS_short_gnd i j = 1 := beq_iff_eq.mp h
  simp only [has, bits, State.getReg, R.reg_PRT_LANE_STATUS, List.foldl, hrd, bne_iff_ne]
  simp only [R.PRT_LANE_STATUS_short_gnd, R.PRT_LANE_STATUS_short_lane, R.PRT_LANE_STATUS_los, R.PRT_LANE_STATUS_shut,
    R.PRT_LANE_STATUS_state, reduceCtorEq, if_false]
  omega

/-- A retry of a network lane shorted to ground, by a requester whose writes it takes, tries the lane again (R228). -/
theorem laneRetryCmd_shortGnd {req : Req} (persists : Bool) (hnet : l < 64)
    (htakes : s.takes req 0x07 (l / 8) R.reg_PRT_LANE_STATUS (l / 8))
    (hgnd : s.on R.PRT_LANE_STATUS_short_gnd (l / 8) (l % 8) = true) :
    s.laneRetryCmd req l persists = s.netLaneRetry l persists := by
  obtain ⟨hopen, hmay, -⟩ := htakes
  have hreg : laneReg l = (0x07, l / 8, R.reg_PRT_LANE_STATUS, l / 8, l % 8, R.PRT_LANE_STATUS_short_gnd,
    R.PRT_LANE_STATUS_short_lane) := if_pos hnet
  have hasked : has R.PRT_LANE_STATUS_short_gnd
      (2 ^ R.PRT_LANE_STATUS_short_gnd.lo + 2 ^ R.PRT_LANE_STATUS_short_lane.lo) = true := by decide
  simp [State.laneRetryCmd, State.laneWr, State.laneRetry, hreg, hopen, hmay, hasked, has_shortGnd_laneStatus hgnd, hnet]

/-- A shut lane that is no longer shorted is driven again, and its port, with no lane left shut, trains (R228). -/
theorem netLaneRetry_cleared {t : State} (hshut : s.laneShut l = true)
    (ht : t = (((s.wr R.PRT_LANE_STATUS_short_gnd 0 (l / 8) (l % 8)).wr R.PRT_LANE_STATUS_short_lane 0 (l / 8) (l % 8)).wr
      R.PRT_LANE_STATUS_shut 0 (l / 8) (l % 8)).wr R.PRT_LANE_STATUS_state 0 (l / 8) (l % 8))
    (hl : t.portOfLane l = some p) (hst : t.portState p = 4) (hall : (t.lanesOf p).all (fun l => !t.laneShut l) = true) :
    s.netLaneRetry l false = t.train p := by
  simp only [State.netLaneRetry, hshut, ← ht, hl, hst, hall, Bool.not_true, Bool.false_eq_true, if_false, and_self, if_true]

end Lanes

/-! ### The obligation -/

/-- Settles O13: each event of a port is the branch of its meaning that the port's state selects; a short and a retry of a lane are
those of the network lane, whose port they take down and train again. -/
theorem portStates : Obligations.PortStates := by
  unfold Obligations.PortStates
  refine ⟨?resolved, ?mismatch, ?restart, ?trainAgain, ?up, ?fault, ?faultEnds, ?signalLoss, ?reversal, ?short, ?retry⟩
  case resolved =>
    exact fun s p hup hst han => whenMain_released (f := (·.anResolved p (s.portRate p))) hup (anResolved_match hst han)
  case mismatch =>
    exact fun s p rate hup hst han hrate => whenMain_released (f := (·.anResolved p rate)) hup (anResolved_mismatch hst han hrate)
  case restart =>
    exact fun s p hup hst hmis => whenMain_released (f := (·.anRestart p)) hup (anRestart_mismatched hst hmis)
  case trainAgain =>
    exact fun s p hup hst hlt hdone => whenMain_released (f := (·.trainTimeout p)) hup (trainTimeout_negotiated hst hlt hdone)
  case up =>
    exact fun s p inv hup hcuff hst hdone =>
      whenMain_released (f := (·.portUpEvent p inv)) hup (portUpEvent_trained inv hcuff hst hdone)
  case fault => exact fun s p hup hst => whenMain_released (f := (·.portFault p false)) hup (portFault_local_up hst)
  case faultEnds => exact fun s p hup hst => whenMain_released (f := (·.faultTimeout p)) hup (faultTimeout_fault hst)
  case signalLoss =>
    exact fun s p l hup hl hst => whenMain_released (f := (·.lossOfSignal l)) hup (lossOfSignal_up hl hst)
  case reversal => exact fun s g hup h => whenMain_released (f := (·.groupReversal g)) hup (groupReversal_800G h)
  case short =>
    rintro s _ l p hup hnet hshut rfl hl hst
    refine whenMain_released (f := fun s => (s.laneShorted l none).drainDue) hup (congrArg State.drainDue ?_)
    rw [← laneFault_up hl hst]
    exact laneShorted_network hnet hshut
  case retry =>
    intro s t req l p hnet htakes hgnd hshut ht hl hst hall
    exact congrArg (fun u : State => s.done u.drainDue)
      ((laneRetryCmd_shortGnd false hnet htakes hgnd).trans (netLaneRetry_cleared hshut ht hl hst hall))

end Sys2Proof.Proofs
end

section
/-! PROOFS. Frames, PAUSE and PFC at network ports (08_network_ports.md R218-R223, R226; 12_traffic_management.md R311): reception and
its tail, transmission, what stops and releases a class, and what the port sends of its own. -/

namespace Sys2Proof.Proofs
open Sys2Proof Sys2Proof.Machine Sys2Proof.Laws

/-! ### Reception -/

section Reception
variable {s t : State} {p : Nat} {data : List Byte} {x : Frame}

/-- A good frame of legal length passes the MAC's checks whole and is counted (R218). -/
theorem macReceive_good (hup : s.portUp p = true) (hrx : (s.lane p).rxOpen = none) (hlo : 60 ≤ data.length)
    (hhi : data.length + 4 ≤ s.maxFrame p) (hctl : beNat (sliceBytes data 12 2) ≠ 0x8808) :
    s.macReceive p data true .good =
      ((s.prtCnt p 0).prtCnt p 1 (data.length + 4), some { data := data, src := p, stamp := s.now64, at_ := s.time.ft }) := by
  have hlong : ¬s.maxFrame p - 4 < data.length := by omega
  have htake : data.take (s.maxFrame p - 4) = data := List.take_of_length_le (by omega)
  have hshort : ¬data.length + 4 < 64 := by omega
  simp only [State.macReceive, hup, hrx, hshort, hctl, hlong, htake, State.countFcs, Bool.not_true, Option.isSome_none, Bool.or_self,
    Bool.false_eq_true, if_false, if_true, decide_false, bne_self_eq_false, Bool.and_false]
  rfl

/-- A frame from the wire joins the queue of the port group's pipeline. -/
theorem toPipe_network (n : Nat) (hsrc : x.src < 0x200) :
    s.toPipe n x = s.setPipe n { s.pipe n with netq := (s.pipe n).netq ++ [x] } := if_pos hsrc

/-- A frame that the MAC passes and no management filter takes goes to its group's pipeline (R218). -/
theorem frameReceive_passed {whole : Bool} {f : Fcs} (hmac : s.macReceive p data whole f = (t, some x))
    (hdiv : t.ncsiDivert p x = (true, t)) : s.frameReceive p data whole f = t.toPipe (p / 8) x := by
  simp only [State.frameReceive, hmac, hdiv]

/-- The tail of a frame that was not too long and is not classified yet: no charge was judged by an assumed length, so nothing is
corrected (R218, R311). -/
theorem tailArrives_unclassified {f : Fcs} (hrx : (s.lane p).rxOpen = some false)
    (ht : t = (s.setLane p { s.lane p with rxOpen := none }).countFcs p f) (hopen : t.openPkts p = []) :
    s.tailArrives p f = t.mapTail p (fun x => x.tail (f != .good)) := by
  simp only [State.tailArrives, hrx, Bool.false_eq_true, if_false, ← ht, State.lengthCorrect, hopen]

end Reception

/-! ### Transmission -/

/-- A port that is UP sends a good stored frame of legal length that asks for no one-step rewriting (R223, R226). -/
theorem frameTransmit_good {s : State} {p : Nat} {o : OutFrame} {f : Stored} (ho : s.outOf p = some o)
    (hf : s.stored o.id = some f) (hfull : f.full = true) (hup : s.portUp p = true) (hbad : f.pkt.frame.bad = false)
    (hpoison : f.pkt.frame.poison = false) (hts : f.pkt.ts < 2) (hlen : f.pkt.frame.data.length + 4 ≤ s.maxFrame p) :
    s.frameTransmit p = (s.putWire p f.pkt.frame.data false).outDone { o with pkt := f.pkt } true s.now64 := by
  have hlong : ¬s.maxFrame p - 4 < f.pkt.frame.data.length := by omega
  have htake : f.pkt.frame.data.take (s.maxFrame p - 4) = f.pkt.frame.data := List.take_of_length_le (by omega)
  have hstep : ¬2 ≤ f.pkt.ts := by omega
  simp only [State.frameTransmit, ho, hf, hfull, hup, hbad, hpoison, hlong, hstep, htake, Bool.not_true, Bool.or_self,
    Bool.false_and, Bool.false_eq_true, if_false, Option.isNone_some, Option.getD_some, decide_false]
  rfl

/-! ### Received PAUSE and PFC -/

section Stopping
variable {s : State} {p : Nat}

theorem pauseRx_heeded (q : Nat) (hup : s.portUp p = true) (hen : s.pauseRxEn p = true) :
    s.pauseRx p q = (List.range 8).foldl (fun s c => s.stopClass p c q false) (s.prtCnt p 7) := by
  simp only [State.pauseRx, hup, hen, Bool.not_true, Bool.false_eq_true, if_false, if_true]

theorem pauseRx_ignored (q : Nat) (hup : s.portUp p = true) (hen : s.pauseRxEn p = false) : s.pauseRx p q = s.prtCnt p 9 := by
  simp only [State.pauseRx, hup, hen, Bool.not_true, Bool.false_eq_true, if_false]

theorem pfcRx_ignored (classes : Nat) (quanta : List Nat) (hup : s.portUp p = true) (hen : s.pfcRxEn p = false) :
    s.pfcRx p classes quanta = s.prtCnt p 9 := by
  simp only [State.pfcRx, hup, hen, Bool.not_true, Bool.false_eq_true, if_false]

/-- A PFC frame that names class 0 alone stops that class alone, where the port listens to it (R220). -/
theorem pfcRx_class0 {q : Nat} (hup : s.portUp p = true) (hen : s.pfcRxEn p = true) (hlisten : (s.lane p).pfcIgnore = [])
    (hq : q < 65536) : s.pfcRx p 1 [q] = (s.prtCnt p 8).stopClass p 0 q true := by
  have hlisten' : ((s.prtCnt p 8).lane p).pfcIgnore = [] := hlisten
  have hnamed : bit 1 0 = true := by decide
  obtain ⟨others, hrange, hothers⟩ : ∃ l, List.range 8 = 0 :: l ∧ ∀ c ∈ l, bit 1 c = false :=
    ⟨[1, 2, 3, 4, 5, 6, 7], rfl, by decide⟩
  simp only [State.pfcRx, hup, hen, hrange, List.foldl_cons, hnamed, hlisten', List.contains_nil, Bool.not_true, Bool.false_eq_true,
    if_false, if_true, List.getElem?_cons_zero, Option.getD_some, Nat.mod_eq_of_lt hq]
  refine List.foldlRecOn _ _ (motive := (· = (s.prtCnt p 8).stopClass p 0 q true)) rfl ?_
  rintro t rfl c hc
  simp only [hothers c hc, Bool.not_false, if_true]

theorem pauseExpire_stopped {c : Nat} (h : bit (s.rd R.PRT_PORT_STATUS_stopped_rx (p / 8) (p % 8)) c = true) :
    s.pauseExpire p c = (s.runTo (Store.get 0 (s.lane p).stopEnd c)).releaseClass p c := if_pos h

end Stopping

/-! ### PFC frames and the watchdog -/

section Sending
variable {s : State} {p : Nat}

/-- A port that is UP and has no frame in hand sends the PFC frame it owes (R221). -/
theorem pfcSend_owed {want sent : Nat} (hwant : s.xoffWanted p = want) (hsent : s.rd R.PRT_PORT_STATUS_xoff_tx (p / 8) (p % 8) = sent)
    (hup : s.portUp p = true) (hne : want ≠ sent) (hidle : s.outOf p = none) :
    s.pfcSend p =
      (s.sendPfc p (want ^^^ sent) (want &&& (want ^^^ sent))).setPort p R.PRT_PORT_STATUS_xoff_tx want := by
  simp only [State.pfcSend, hwant, hsent, hup, hidle, beq_false_of_ne hne, Bool.not_true, Option.isSome_none, Bool.or_self,
    Bool.false_eq_true, if_false]

theorem pfcRefresh_standing {sent : Nat} (hsent : s.rd R.PRT_PORT_STATUS_xoff_tx (p / 8) (p % 8) = sent) (hup : s.portUp p = true)
    (hne : sent ≠ 0) :
    s.pfcRefresh p =
      (s.runTo ((s.lane p).pfcAt + s.quantaUnits p (2 * s.rd R.PRT_PFC_CFG_refresh (p / 8) (p % 8)))).sendPfc p sent sent := by
  simp only [State.pfcRefresh, hsent, hup, beq_false_of_ne hne, Bool.not_true, Bool.or_self, Bool.false_eq_true, if_false]

/-- Counting at a port leaves its choice of what the PFC watchdog does as it was configured. -/
theorem portBit_pfcDrop_prtCnt (s : State) (p c : Nat) :
    (s.prtCnt p c).portBit p R.PRT_TS_CFG_pfc_wd_drop = s.portBit p R.PRT_TS_CFG_pfc_wd_drop := by
  refine congrArg (· == 1) (rd_wr_other _ _ _ _ _ _ _ _ _ _ ?_)
  simp only [Fld.key, Fld.off, R.PRT_TS_CFG_pfc_wd_drop, R.PRT_CNT_count]
  omega

/-- A class that PFC has held for pfc_wd_ms trips the watchdog, which without pfc_wd_drop counts and reports it alone (R222). -/
theorem pfcWatchdog_trips {c ms t k : Nat} (hms : s.rd R.PRT_TS_CFG_pfc_wd_ms (p / 8) (p % 8) = ms) (hne : ms ≠ 0)
    (hsince : (s.lane p).pfcSince.find? (·.1 == c) = some (k, t)) (hfirst : (s.lane p).pfcTripped = [])
    (hstop : s.stopped p c = true) (hheld : max s.time.ft (t + ms * unitsPerMs) ≤ Store.get 0 (s.lane p).stopEnd c)
    (hdrop : s.portBit p R.PRT_TS_CFG_pfc_wd_drop = false) :
    s.pfcWatchdog p c =
      (((s.runTo (max s.time.ft (t + ms * unitsPerMs))).prtCnt p 19).portEvent p 5 (leBytes 1 c)).setLane p
        { s.lane p with pfcTripped := [c] } := by
  have hkeeps (u : Nat) :
      (((s.runTo u).prtCnt p 19).portEvent p 5 (leBytes 1 c)).portBit p R.PRT_TS_CFG_pfc_wd_drop = false :=
    (portBit_pfcDrop_prtCnt (s.runTo u) p 19).trans ((congrArg (· == 1) (runTo_rd ..)).trans hdrop)
  simp [State.pfcWatchdog, hms, hne, hsince, hfirst, hstop, Nat.not_lt.mpr hheld, hkeeps]

end Sending

/-! ### The obligation -/

/-- Settles O14: reception ends in the group's pipeline, transmission with the copy finished, and a class is stopped, released,
reported or named in a PFC frame by the port's configuration and what it holds of the class. -/
theorem portFrames : Obligations.PortFrames := by
  unfold Obligations.PortFrames
  refine ⟨?received, ?tail, ?sent, ?pause, ?pauseIgnored, ?pfc, ?pfcIgnored, ?expires, ?owed, ?repeated, ?watchdog⟩
  case received =>
    rintro s _ p data _ hmain hup hrx hlo hhi hctl rfl rfl hdiv
    refine whenMain_released (f := fun s => (s.frameReceive p data true .good).drainDue) hmain (congrArg State.drainDue ?_)
    exact (frameReceive_passed (macReceive_good hup hrx hlo hhi hctl) hdiv).trans
      (toPipe_network _ (lt_trans p.isLt (by decide)))
  case tail =>
    exact fun s t p f hmain hrx ht hopen =>
      whenMain_released (f := (·.tailArrives p f)) hmain (tailArrives_unclassified hrx ht hopen)
  case sent =>
    intro s p o f hmain ho hf hfull hup hbad hpoison hts hlen
    exact whenMain_released (f := fun s => (s.frameSent p).drainDue) hmain
      (congrArg (fun t : State => ((t.tsFlush.pfcSend p).ncsiFlush p).drainDue)
        (frameTransmit_good ho hf hfull hup hbad hpoison hts hlen))
  case pause => exact fun s p q hmain hup hen => whenMain_released (f := (·.pauseRx p q)) hmain (pauseRx_heeded q hup hen)
  case pauseIgnored =>
    exact fun s p q hmain hup hen => whenMain_released (f := (·.pauseRx p q)) hmain (pauseRx_ignored q hup hen)
  case pfc =>
    exact fun s p q hmain hup hen hlisten hq =>
      whenMain_released (f := (·.pfcRx p 1 [q])) hmain (pfcRx_class0 hup hen hlisten hq)
  case pfcIgnored =>
    exact fun s p c q hmain hup hen => whenMain_released (f := (·.pfcRx p c q)) hmain (pfcRx_ignored c q hup hen)
  case expires => exact fun s p c hmain h => whenMain_released (f := (·.pauseExpire p c)) hmain (pauseExpire_stopped h)
  case owed =>
    exact fun s p want sent hmain hwant hsent hup hne hidle =>
      whenMain_released (f := (·.pfcSend p)) hmain (pfcSend_owed hwant hsent hup hne hidle)
  case repeated =>
    exact fun s p sent hmain hsent hup hne =>
      whenMain_released (f := (·.pfcRefresh p)) hmain (pfcRefresh_standing hsent hup hne)
  case watchdog =>
    exact fun s p c ms t k hmain hms hne hsince hfirst hstop hheld hdrop =>
      whenMain_released (f := (·.pfcWatchdog p c)) hmain (pfcWatchdog_trips hms hne hsince hfirst hstop hheld hdrop)

end Sys2Proof.Proofs
end

section
/-! PROOFS. Rule versions, action entries and table commands (09_parsing.md R248, R257-R261, R264; 10_forwarding_tables.md R265-R274,
R278, R280, R283-R285): what a pipeline makes of its command registers, and what a table command of a ring answers, while the
sleeve mirrors nothing. -/

namespace Sys2Proof.Proofs
open Sys2Proof Sys2Proof.Machine Sys2Proof.Laws

/-! ### Pipelines that are not mirrored -/

section Unmirrored
variable {s : State} (n : Nat) (hm : s.swc.mirroring = false)
include hm

/-- An operation that names a pipeline acts on its own tables alone. -/
theorem copies_unmirrored : s.copies n = [n] := if_neg fun h => by simp [hm] at h

theorem namesSleeve_unmirrored : s.namesSleeve n = false := by
  simp only [State.namesSleeve, hm, Bool.and_false]

end Unmirrored

/-! ### The command registers of a pipeline -/

section PipeRegisters
variable {s : State} {req : Req} {n : Nat}

/-- A write of a pipeline's register that is in service for the requester is what the pipeline makes of it. -/
theorem wrReg_pipe {r : RegDef} (v : Nat) (h : s.takes req 0x08 n r n) (hw : r.flds.any Fld.writable = true) :
    s.wrReg req 0x08 r v n n = (s.pipeWr ((blkOf 0x08).unit.map (· + n)) r n 0 0 (v % 2 ^ r.width)).after :=
  wrReg_takes s req 0x08 r v n n 0 0 h hw

/-- PIPE_ACT_CMD holds nothing: a write of one of its bits writes that bit alone. -/
theorem wrFlds_actCmd (f : Fld) (h : s.takes req 0x08 n R.reg_PIPE_ACT_CMD n) (hv : showFld 0 f 1 < 2 ^ 32) :
    s.wrFlds req 0x08 R.reg_PIPE_ACT_CMD [(f, 1)] n n =
      (s.pipeWr ((blkOf 0x08).unit.map (· + n)) R.reg_PIPE_ACT_CMD n 0 0 (showFld 0 f 1)).after :=
  (wrReg_pipe _ h (by decide)).trans
    (congrArg (fun v => (s.pipeWr _ R.reg_PIPE_ACT_CMD n 0 0 v).after) (Nat.mod_eq_of_lt hv))

variable (u : Option Nat) (hm : s.swc.mirroring = false)
include hm

theorem pipeWr_commit : s.pipeWr u R.reg_PIPE_VER_COMMIT n 0 0 1 = s.verCommit n := by
  rw [State.pipeWr, namesSleeve_unmirrored n hm]
  rfl

theorem pipeWr_discard : s.pipeWr u R.reg_PIPE_VER_COMMIT n 0 0 2 = s.verDiscard n := by
  rw [State.pipeWr, namesSleeve_unmirrored n hm]
  rfl

theorem pipeWr_actWrite : s.pipeWr u R.reg_PIPE_ACT_CMD n 0 0 (showFld 0 R.PIPE_ACT_CMD_write 1) = s.actWrite n := by
  rw [State.pipeWr, namesSleeve_unmirrored n hm]
  rfl

theorem pipeWr_actRead : s.pipeWr u R.reg_PIPE_ACT_CMD n 0 0 (showFld 0 R.PIPE_ACT_CMD_read 1) = s.actRead n := by
  rw [State.pipeWr, namesSleeve_unmirrored n hm]
  rfl

end PipeRegisters

/-! ### Rule versions -/

section Versions
variable {s : State} {req : Req} {n : Nat}

/-- With room for one more live version, legal staged values become the active version (R258, R260). -/
theorem verCommit_legal (hm : s.swc.mirroring = false) (harm : s.pipeArmed n = false) (hroom : (s.pipe n).old.length < 3)
    (hlegal : s.stagedCause n = 0) : s.verCommit n = s.commitOne n := by
  have hfits : ¬4 ≤ (s.pipe n).old.length + 1 := by omega
  simp [State.verCommit, harm, hfits, hlegal, copies_unmirrored n hm]

/-- Outside an armed epoch the staged changes are dropped (R260, R261). -/
theorem verDiscard_unarmed (hm : s.swc.mirroring = false) (harm : s.pipeArmed n = false) : s.verDiscard n = s.discardOne n := by
  simp [State.verDiscard, harm, copies_unmirrored n hm]

/-- A TCAM entry as it stands once `o` is the oldest live version: freed, if no live version sees it (R259). -/
def tentFrom (o : Nat) (e : TEnt) : TEnt := if (e.state = 2 ∨ (e.state = 3 ∧ e.prev = 2)) ∧ e.del ≤ o then {} else e

/-- An exact-match entry as it stands once `o` is the oldest live version. -/
def emFrom (o : Nat) (e : EmEnt) : Option EmEnt :=
  match e.del with
  | some d => if e.learned = false ∧ d ≤ o then none else some e
  | none => some e

/-- The oldest version leaves the list of live ones, and with it go the entries that it alone saw (R259). -/
theorem retireOne_oldest {o : Nat × List (Nat × Nat)} {l : List (Nat × List (Nat × Nat))} {p : PipeSt}
    (hold : (s.pipe n).old = o :: l) (hp : p = { s.pipe n with old := l }) :
    s.retireOne n = (((s.setPipe n p).mapTcam n (tentFrom p.oldest)).mapEm n (emFrom p.oldest)).showVer n := by
  subst hp
  simp only [State.retireOne, hold]
  rfl

end Versions

/-! ### Action entries -/

section Actions
variable {s : State} {n i : Nat}

/-- What PIPE_ACT_DATA holds, as one action entry (R248). -/
def actData (s : State) (n : Nat) : Nat := (List.range 4).foldl (fun a j => a + s.rd R.PIPE_ACT_DATA_data n j * 2 ^ (64 * j)) 0

/-- An entry that is not the basic program's is written whatever the profile is (R264). -/
theorem actWrite_own (hm : s.swc.mirroring = false) (hi : s.rd R.PIPE_ACT_IDX_idx n = i) (hown : i < 49152) :
    s.actWrite n = s.setAction n i (actData s n) := by
  have hfree : ¬(s.ac hdrProfile (pipeBase n) = 0 ∧ 49152 ≤ i) := by omega
  simp only [State.actWrite, hi, if_neg hfree, copies_unmirrored n hm]
  rfl

theorem actRead_entry (hi : s.rd R.PIPE_ACT_IDX_idx n = i) :
    s.actRead n = (List.range 4).foldl (fun u j => u.wr R.PIPE_ACT_DATA_data (s.action n i / 2 ^ (64 * j)) n j) s := by
  rw [State.actRead, hi]

end Actions

/-! ### The TCAM -/

section Tcam
variable {s : State} {n : Nat} {c : TCmd}

/-- An EMPTY place takes an entry that the staged version is the first to see (R266). -/
theorem tcamWrite_empty (hopt : bit c.opt 2 = false) (hempty : (s.tent n c.idx).state = 0) :
    s.tcamWrite n c =
      ans ((s.setTent n c.idx { value := c.key, mask := c.mask, act := c.act, add := (s.pipe n).ver + 1, state := 1 }).dirty n)
        0 := by
  simp [State.tcamWrite, hopt, hempty]

/-- A live entry of an older version is not seen from the staged version on (R266). -/
theorem tcamDelete_live (hlive : (s.tent n c.idx).state = 1) (hadd : (s.tent n c.idx).add ≠ (s.pipe n).ver + 1) :
    s.tcamDelete n c =
      ans ((s.setTent n c.idx { s.tent n c.idx with state := 2, del := (s.pipe n).ver + 1 }).dirty n) 0 := by
  simp [State.tcamDelete, hlive, hadd]

/-- A live entry moves to an EMPTY place as it is (R267). -/
theorem tcamMove_live (hlive : (s.tent n c.idx).state = 1) (hempty : (s.tent n c.act).state = 0) :
    s.tcamMove n c = ans ((s.setTent n c.idx {}).setTent n c.act (s.tent n c.idx)) 0 := by
  simp [State.tcamMove, hlive, hempty]

end Tcam

/-! ### Exact match -/

section ExactMatch
variable {s : State} {n i : Nat} {c : TCmd} {e : EmEnt}

/-- A key that the staged version has no entry of takes the first free candidate (R273). -/
theorem emInsertCmd_free {v : Nat} (hv : v = (s.pipe n).ver + 1) (habsent : s.emStaged n c.stage c.ekey = none)
    (hfree : (candidates (s.emBanks n v c.stage) c.ekey).find? (fun i => (s.em n i).isNone) = some i) :
    s.emInsertCmd n c =
      ((s.setEm n i (some { key := c.ekey, act := c.act, add := v })).dirty n,
        { status := 0, x18 := leBytes 4 i ++ leBytes 16 0 }) := by
  subst hv
  simp [State.emInsertCmd, State.emInsert, habsent, hfree]

theorem emDeleteCmd_staged (hopt : bit c.opt 1 = false) (hfind : s.emStaged n c.stage c.ekey = some (i, e)) :
    s.emDeleteCmd n c = ans (s.emDeleteSoft n i e) 0 := by
  simp [State.emDeleteCmd, hopt, hfind]

theorem emNext_found
    (hfind : (s.emOf n).find? (fun p => c.key % 2 ^ 32 ≤ p.1 && inBanks (s.emBanks n (s.pipe n).ver c.stage) p.1 && c.passes p.2) =
      some (i, e)) :
    s.emNext n c = (s, { status := 0, x18 := leBytes 4 i ++ e.image }) := by
  simp only [State.emNext, hfind]

/-- A flush that passes the one entry there is, a learned one of the table, drops it and counts one (R285). -/
theorem emFlush_onlyLearned (hof : s.emOf n = [(i, e)]) (hpass : c.passes e = true) (hlearned : e.learned = true)
    (hin : inBanks (s.emBanks n (s.pipe n).ver c.stage) i = true) :
    s.emFlush n c = (s.dropLearned n i e, { status := 0, x18 := leBytes 4 1 }) := by
  simp [State.emFlush, hof, hpass, hlearned, hin]

/-- A sprout that is confirmed is an entry like the others (R278). -/
theorem emConfirm_sprout (hopt : bit c.opt 1 = true) (hfind : s.emLearned n c.stage c.ekey = some (i, e))
    (hsprout : e.sprout = true) :
    s.emConfirm n c = ans ((s.setEm n i (some { e with sprout := false })).tcnt n 11) 0 := by
  simp [State.emConfirm, hopt, hfind, hsprout]

/-- A learned entry is unpinned, and its tracker history ends (R280). -/
theorem emUnpin_learned (hopt : bit c.opt 1 = true) (hfind : s.emLearned n c.stage c.ekey = some (i, e))
    (hlearned : e.learned = true) :
    s.emUnpin n c = ans ((s.dropLearned n i e).setEm n i (some { e with pinned := false })) 0 := by
  simp [State.emUnpin, hopt, hfind, hlearned]

end ExactMatch

/-! ### Table commands by their opcode -/

section ByOpcode
variable {s : State} {c : TCmd}

/-- What a command does to each copy of its pipeline, with the answer of the pipeline named (R304). -/
def onCopies (s : State) (n : Nat) (f : State → Nat → TAns) : TAns :=
  let a := f s ((s.copies n).headD n)
  if a.2.status = 0 then ((s.copies n).tail.foldl (fun t m => (f t m).1) a.1, a.2) else a

theorem onCopies_unmirrored (n : Nat) (f : State → Nat → TAns) (hm : s.swc.mirroring = false) : onCopies s n f = f s n := by
  rw [onCopies, copies_unmirrored n hm]
  exact ite_self _

/-- A lookup under the active version answers the winning entry (R265, R283). -/
theorem tableCmd_tcamLookup {i : Nat} {e : TEnt} (hop : c.op = 0x64) (hver : bit c.ver 4 = true)
    (hfind : s.tcamLookup c.pipe (s.pipe c.pipe).ver c.stage c.key = some (i, e)) :
    s.tableCmd c = (s, { status := 0, x12 := leBytes 2 e.act, x18 := leBytes 2 i }) := by
  simp only [State.tableCmd, State.cmdVer, hop, hver, hfind, if_true]

/-- A search under the active version answers the entry that a lookup of the key would hit (R272, R283). -/
theorem tableCmd_emSearch {i v : Nat} {e : EmEnt} (hop : c.op = 0x67) (hver : bit c.ver 4 = true) (hv : v = (s.pipe c.pipe).ver)
    (hem : s.hasEm c.pipe v c.stage = true) (hfind : s.emFind c.pipe v (s.emBanks c.pipe v c.stage) c.ekey true = some (i, e)) :
    s.tableCmd c = (s, { status := 0, x18 := leBytes 4 i ++ e.image }) := by
  subst hv
  simp [State.tableCmd, State.cmdVer, hop, hver, hem, hfind]

theorem tableCmd_emNext (hop : c.op = 0x68) (hem : s.hasEm c.pipe (s.pipe c.pipe).ver c.stage = true) :
    s.tableCmd c = s.emNext c.pipe c := by
  simp only [State.tableCmd, hop, hem, if_true]

variable (hm : s.swc.mirroring = false)
include hm

theorem tableCmd_tcamWrite (hop : c.op = 0x60) : s.tableCmd c = s.tcamWrite c.pipe c := by
  simp only [State.tableCmd, hop]
  exact onCopies_unmirrored c.pipe (fun s m => s.tcamWrite m c) hm

theorem tableCmd_tcamDelete (hop : c.op = 0x61) : s.tableCmd c = s.tcamDelete c.pipe c := by
  simp only [State.tableCmd, hop]
  exact onCopies_unmirrored c.pipe (fun s m => s.tcamDelete m c) hm

theorem tableCmd_tcamMove (hop : c.op = 0x62) : s.tableCmd c = s.tcamMove c.pipe c := by
  simp only [State.tableCmd, hop]
  exact onCopies_unmirrored c.pipe (fun s m => s.tcamMove m c) hm

theorem tableCmd_emInsert (hop : c.op = 0x65) (hem : s.hasEm c.pipe ((s.pipe c.pipe).ver + 1) c.stage = true) :
    s.tableCmd c = s.emInsertCmd c.pipe c := by
  simp only [State.tableCmd, hop, hem, if_true]
  exact onCopies_unmirrored c.pipe (fun s m => s.emInsertCmd m c) hm

/-- A deletion of a software entry goes by the staged table (R283). -/
theorem tableCmd_emDelete_staged (hop : c.op = 0x66) (hopt : bit c.opt 1 = false)
    (hem : s.hasEm c.pipe ((s.pipe c.pipe).ver + 1) c.stage = true) : s.tableCmd c = s.emDeleteCmd c.pipe c := by
  simp only [State.tableCmd, hop, hopt, hem, Bool.false_eq_true, if_false, if_true]
  exact onCopies_unmirrored c.pipe (fun s m => s.emDeleteCmd m c) hm

theorem tableCmd_emFlush (hop : c.op = 0x69) (hem : s.hasEm c.pipe (s.pipe c.pipe).ver c.stage = true) :
    s.tableCmd c = s.emFlush c.pipe c := by
  simp only [State.tableCmd, hop, hem, Bool.true_or, if_true]
  exact onCopies_unmirrored c.pipe (fun s m => s.emFlush m c) hm

theorem tableCmd_emConfirm (hop : c.op = 0x6A) (hem : s.hasEm c.pipe (s.pipe c.pipe).ver c.stage = true) :
    s.tableCmd c = s.emConfirm c.pipe c := by
  simp only [State.tableCmd, hop, hem, if_true]
  exact onCopies_unmirrored c.pipe (fun s m => s.emConfirm m c) hm

theorem tableCmd_emUnpin (hop : c.op = 0x6B) (hem : s.hasEm c.pipe (s.pipe c.pipe).ver c.stage = true) :
    s.tableCmd c = s.emUnpin c.pipe c := by
  simp only [State.tableCmd, hop, hem, if_true]
  exact onCopies_unmirrored c.pipe (fun s m => s.emUnpin m c) hm

end ByOpcode

/-! ### Table commands of a ring -/

section OfRing
variable {s t : State} {r op : Nat} {g : Flight} {c : TCmd}

/-- A table command that is ready finishes with what the command answers. -/
theorem tableDesc_answers {k : Cpl} (h : s.tableReady r op g c) (hread : op ≠ 0x63)
    (hans : s.swc.mirroring = false → c.op = op → s.tableCmd c = (t, k)) : s.tableDesc r op = t.finish r g.count k := by
  obtain ⟨hg, rfl, hop, hwell, harm, hm⟩ := h
  obtain ⟨x, hr⟩ := ring_of_toPerform s r _ g hg
  refine (perform_some s r _ _ x g hr hg).trans ?_
  simp only [hwell, namesSleeve_unmirrored _ hm, harm, hread, hans hm hop, Bool.false_eq_true, if_false]

/-- TCAM_READ that is ready writes the entry's record, and finishes once it is written (R283). -/
theorem tableDesc_tcamRead {x : Ring} (hr : s.ring r = some x) (h : s.tableReady r 0x63 g c)
    (hw : s.writeFor g.slice x.mem (c.key % 2 ^ 64) (s.tent c.pipe c.idx).record = (.ok [], t)) :
    s.tableDesc r 0x63 = t.finish r g.count { status := 0, bytes := 64 } := by
  obtain ⟨hg, rfl, -, hwell, harm, hm⟩ := h
  refine (perform_some s r _ _ x g hr hg).trans ?_
  simp only [hwell, namesSleeve_unmirrored _ hm, harm, hw, Bool.false_eq_true, if_false, if_true]

/-- In a released main domain a table command that is ready finishes with what the command answers. -/
theorem whenMain_tableDesc {k : Cpl} (hup : s.mainUp = true) (h : s.tableReady r op g c) (hread : op ≠ 0x63)
    (hans : s.swc.mirroring = false → c.op = op → s.tableCmd c = (t, k)) :
    s.whenMain (·.tableDesc r op) = .next (s.settle (t.finish r g.count k)) :=
  whenMain_released hup (tableDesc_answers h hread hans)

end OfRing

/-! ### The obligation -/

/-- Settles O16: a command register of a pipeline is its own operation on versions or action entries, and a table command
finishes with what its opcode answers for the entry or the place it finds. -/
theorem tableCommands : Obligations.TableCommands := by
  unfold Obligations.TableCommands
  refine ⟨?commit, ?discard, ?retire, ?actWrite, ?actRead, ?tcamWrite, ?tcamDelete, ?tcamMove, ?tcamRead, ?tcamLookup, ?emInsert,
    ?emDelete, ?emSearch, ?emNext, ?emFlush, ?emConfirm, ?emUnpin⟩
  case commit =>
    intro s req n h hm harm hroom hlegal
    rw [← verCommit_legal hm harm hroom hlegal]
    exact congrArg s.done ((wrReg_pipe 1 h (by decide)).trans (congrArg State.after (pipeWr_commit _ hm)))
  case discard =>
    intro s req n h hm harm
    rw [← verDiscard_unarmed hm harm]
    exact congrArg s.done ((wrReg_pipe 2 h (by decide)).trans (congrArg State.after (pipeWr_discard _ hm)))
  case retire => exact fun s n o l p hup hold hp => whenMain_released (f := (·.retireOne n)) hup (retireOne_oldest hold hp)
  case actWrite =>
    intro s t req n i ht h hi hm hown
    subst ht
    exact congrArg s.done ((wrFlds_actCmd R.PIPE_ACT_CMD_write h (by decide)).trans
      (congrArg State.after ((pipeWr_actWrite _ hm).trans (actWrite_own hm hi hown))))
  case actRead =>
    intro s t req n i ht h hi hm
    subst ht
    exact congrArg s.done ((wrFlds_actCmd R.PIPE_ACT_CMD_read h (by decide)).trans
      (congrArg State.after ((pipeWr_actRead _ hm).trans (actRead_entry hi))))
  case tcamWrite =>
    exact fun s r g c hup h hopt hempty => whenMain_tableDesc hup h (by decide) fun hm hop =>
      (tableCmd_tcamWrite hm hop).trans (tcamWrite_empty hopt hempty)
  case tcamDelete =>
    exact fun s r g c hup h hlive hadd => whenMain_tableDesc hup h (by decide) fun hm hop =>
      (tableCmd_tcamDelete hm hop).trans (tcamDelete_live hlive hadd)
  case tcamMove =>
    exact fun s r g c hup h hlive hempty => whenMain_tableDesc hup h (by decide) fun hm hop =>
      (tableCmd_tcamMove hm hop).trans (tcamMove_live hlive hempty)
  case tcamRead =>
    exact fun s t r x g c hup hr h hw => whenMain_released (f := (·.tableDesc r 0x63)) hup (tableDesc_tcamRead hr h hw)
  case tcamLookup =>
    exact fun s r g c i e hup h hver hfind => whenMain_tableDesc hup h (by decide) fun _ hop =>
      tableCmd_tcamLookup hop hver hfind
  case emInsert =>
    intro s r g c v i hup h hv hem habsent hfree
    exact whenMain_tableDesc hup h (by decide) fun hm hop =>
      (tableCmd_emInsert hm hop (hv ▸ hem)).trans (emInsertCmd_free hv habsent hfree)
  case emDelete =>
    exact fun s r g c i e hup h hopt hem hfind => whenMain_tableDesc hup h (by decide) fun hm hop =>
      (tableCmd_emDelete_staged hm hop hopt hem).trans (emDeleteCmd_staged hopt hfind)
  case emSearch =>
    exact fun s r g c v i e hup h hver hv hem hfind => whenMain_tableDesc hup h (by decide) fun _ hop =>
      tableCmd_emSearch hop hver hv hem hfind
  case emNext =>
    exact fun s r g c i e hup h hem hfind => whenMain_tableDesc hup h (by decide) fun _ hop =>
      (tableCmd_emNext hop hem).trans (emNext_found hfind)
  case emFlush =>
    exact fun s r g c i e hup h hem hof hpass hlearned hin => whenMain_tableDesc hup h (by decide) fun hm hop =>
      (tableCmd_emFlush hm hop hem).trans (emFlush_onlyLearned hof hpass hlearned hin)
  case emConfirm =>
    exact fun s r g c i e hup h hopt hem hfind hsprout => whenMain_tableDesc hup h (by decide) fun hm hop =>
      (tableCmd_emConfirm hm hop hem).trans (emConfirm_sprout hopt hfind hsprout)
  case emUnpin =>
    exact fun s r g c i e hup h hopt hem hfind hlearned => whenMain_tableDesc hup h (by decide) fun hm hop =>
      (tableCmd_emUnpin hm hop hem).trans (emUnpin_learned hopt hfind hlearned)

end Sys2Proof.Proofs
end

section
/-! PROOFS. The crossbar's match of one request and the sleeve (11_switch_core.md R289, R303-R306): what is granted when one input
asks for one cell, what a write of SWC_SLEEVE_CMD asks the sleeve for, and the steps of a substitution and of a return. -/

namespace Sys2Proof.Proofs
open Sys2Proof Sys2Proof.Machine Sys2Proof.Laws

/-! ### The crossbar -/

section Crossbar
variable {s : State} {n : Nat}

/-- The inputs in the order in which a match serves them. -/
def inputOrder (s : State) : List Nat := (List.range 9).map (fun k => (s.swc.p + k) % 9)

/-- The inputs that ask for cells, with how many each, in that order. -/
def xbarRequests (s : State) : List (Nat × Nat) := ((inputOrder s).map (fun i => (i, s.request i))).filter (fun x => x.2 != 0)

/-- The banks with room, in the order in which a match fills them. -/
def freeBanks (s : State) : List Nat :=
  ((List.range 16).map (fun k => (s.swc.q + k) % 16)).filter (fun b => Store.get 0 s.swc.bankUsed b < 32768)

theorem inputOrder_nodup : (inputOrder s).Nodup := by
  refine List.Nodup.map_on ?_ List.nodup_range
  intro a ha b hb hab
  rw [List.mem_range] at ha hb
  omega

theorem mem_inputOrder : n ∈ inputOrder s ↔ n < 9 := by
  simp only [inputOrder, List.mem_map, List.mem_range]
  constructor
  · rintro ⟨k, -, rfl⟩
    exact Nat.mod_lt _ (by decide)
  · intro hn
    exact ⟨(n + 9 - s.swc.p % 9) % 9, by omega, by omega⟩

/-- Where input `n` alone asks, its request is the only one. -/
theorem xbarRequests_one (hn : n < 9) (hask : s.request n ≠ 0) (hothers : ∀ i < 9, i ≠ n → s.request i = 0) :
    xbarRequests s = [(n, s.request n)] := by
  have hasks : ∀ i ∈ inputOrder s, (s.request i != 0) = decide (i = n) := by
    intro i hi
    by_cases h : i = n
    · simp [h, hask]
    · simp [h, hothers i (mem_inputOrder.mp hi) h]
  have honly : (inputOrder s).filter (fun i => s.request i != 0) = [n] := by
    rw [List.filter_congr hasks, List.filter_eq, List.count_eq_one_of_mem inputOrder_nodup (mem_inputOrder.mpr hn)]
    rfl
  rw [xbarRequests, List.filter_map]
  exact congrArg (List.map _) honly

/-- The bank that is next in turn is the first free one, if it has room. -/
theorem freeBanks_next (h : Store.get 0 s.swc.bankUsed (s.swc.q % 16) < 32768) : ∃ l, freeBanks s = s.swc.q % 16 :: l :=
  ⟨_, List.filter_cons_of_pos (decide_eq_true h)⟩

theorem matching_one (i b : Nat) (l : List Nat) : matching [(i, 1)] (b :: l) = [(i, b)] := rfl

/-- Counting an event of the switch core holds no input back. -/
theorem inputHeld_swcCnt (c k : Nat) : (s.swcCnt c k).inputHeld = s.inputHeld := by
  have hstate : (s.swcCnt c k).rd R.SWC_SLEEVE_STATUS_state = s.rd R.SWC_SLEEVE_STATUS_state :=
    rd_wr_other _ _ _ _ _ _ _ _ _ _ (by simp only [Fld.key, Fld.off, R.SWC_SLEEVE_STATUS_state, R.SWC_CNT_count]; omega)
  have hpipe : (s.swcCnt c k).sleevePipe = s.sleevePipe :=
    rd_wr_other _ _ _ _ _ _ _ _ _ _ (by simp only [Fld.key, Fld.off, R.SWC_SLEEVE_STATUS_pipe, R.SWC_CNT_count]; omega)
  funext i
  simp only [State.inputHeld, State.heldBySwitch, hstate, hpipe]
  rfl

/-- One input that asks for one cell is granted the bank next in turn, and both pointers move past what was granted (R289). -/
theorem xbarMatch_one (hn : n < 9) (hask : s.request n = 1) (hothers : ∀ i < 9, i ≠ n → s.request i = 0)
    (hheld : (List.range 9).any s.inputHeld = false) (hroom : Store.get 0 s.swc.bankUsed (s.swc.q % 16) < 32768) :
    s.xbarMatch =
      let t := s.swcCnt 9 0
      (({ t with swc := { t.swc with p := (n + 1) % 9, q := (s.swc.q % 16 + 1) % 16 } } : State).grantCell n
        (s.swc.q % 16)).acctClock := by
  have hreqs : xbarRequests s = [(n, 1)] := hask ▸ xbarRequests_one hn (by omega) hothers
  obtain ⟨l, hfree⟩ := freeBanks_next hroom
  unfold xbarRequests inputOrder at hreqs
  unfold freeBanks at hfree
  simp only [State.xbarMatch, hreqs, hfree, matching_one, inputHeld_swcCnt, hheld, List.foldl_cons, List.foldl_nil]
  rfl

end Crossbar

/-! ### SWC_SLEEVE_CMD -/

section SleeveCommand
variable {s : State} {req : Req}

/-- The word that asks for operation `op` of pipeline `p`, with cloning if `c` is 1. -/
def sleeveWord (op c p : Nat) : Nat := 2 ^ 31 + op * 2 ^ 28 + c * 2 ^ 27 + p

/-- What a command stores in SWC_SLEEVE_CMD. -/
abbrev sleevePut (s : State) (v : Nat) : State := s.putReg false R.reg_SWC_SLEEVE_CMD 0 0 0 v

/-- The fields of SWC_SLEEVE_CMD that keep what is written, one by one. -/
theorem sleevePut_eq (v : Nat) :
    sleevePut s v = ((s.wr R.SWC_SLEEVE_CMD_op (v / 2 ^ 28 % 2 ^ 3)).wr R.SWC_SLEEVE_CMD_clone (v / 2 ^ 27 % 2 ^ 1)).wr
      R.SWC_SLEEVE_CMD_pipe (v / 2 ^ 0 % 2 ^ 3) := rfl

section Word
variable {op c p x : Nat} (hop : op < 8) (hc : c < 2) (hp : p < 8)
include hop hc hp

theorem sleeveWord_lt : sleeveWord op c p < 2 ^ 32 := by
  simp only [sleeveWord]
  omega

/-- Each field of the word is written apart from the others. -/
theorem showFld_sleeveGo : showFld (op * 2 ^ 28 + c * 2 ^ 27 + p) R.SWC_SLEEVE_CMD_go 1 = sleeveWord op c p := by
  simp only [showFld, putFld, bits, sleeveWord, R.SWC_SLEEVE_CMD_go]
  omega

theorem showFld_sleeveOp (hx : x < 8) : showFld (sleeveWord op c p) R.SWC_SLEEVE_CMD_op x = sleeveWord x c p := by
  simp only [showFld, putFld, bits, sleeveWord, R.SWC_SLEEVE_CMD_op]
  omega

theorem showFld_sleeveClone (hx : x < 2) : showFld (sleeveWord op c p) R.SWC_SLEEVE_CMD_clone x = sleeveWord op x p := by
  simp only [showFld, putFld, bits, sleeveWord, R.SWC_SLEEVE_CMD_clone]
  omega

theorem showFld_sleevePipe (hx : x < 8) : showFld (sleeveWord op c p) R.SWC_SLEEVE_CMD_pipe x = sleeveWord op c x := by
  simp only [showFld, putFld, bits, sleeveWord, R.SWC_SLEEVE_CMD_pipe]
  omega

theorem sleeveWord_go : has R.SWC_SLEEVE_CMD_go (sleeveWord op c p) = true := by
  simp only [has, bits, sleeveWord, R.SWC_SLEEVE_CMD_go, bne_iff_ne]
  omega

/-- A command that is stored reads back as it was written. -/
theorem sleevePut_rd_op : (sleevePut s (sleeveWord op c p)).rd R.SWC_SLEEVE_CMD_op = op := by
  rw [sleevePut_eq, rd_wr_other _ _ _ _ _ _ _ _ _ _ (by decide), rd_wr_other _ _ _ _ _ _ _ _ _ _ (by decide), rd_wr_same]
  simp only [sleeveWord, R.SWC_SLEEVE_CMD_op]
  omega

omit hop in
theorem sleevePut_rd_clone : (sleevePut s (sleeveWord op c p)).rd R.SWC_SLEEVE_CMD_clone = c := by
  rw [sleevePut_eq, rd_wr_other _ _ _ _ _ _ _ _ _ _ (by decide), rd_wr_same]
  simp only [sleeveWord, R.SWC_SLEEVE_CMD_clone]
  omega

omit hop hc in
theorem sleevePut_rd_pipe : (sleevePut s (sleeveWord op c p)).rd R.SWC_SLEEVE_CMD_pipe = p := by
  rw [sleevePut_eq, rd_wr_same]
  simp only [sleeveWord, R.SWC_SLEEVE_CMD_pipe]
  omega

end Word

/-! The fields that a command writes: RETURN keeps the pipeline that the register names, TAKE names its own. -/

abbrev sleeveFlds (op c : Nat) : List (Fld × Nat) :=
  [(R.SWC_SLEEVE_CMD_go, 1), (R.SWC_SLEEVE_CMD_op, op), (R.SWC_SLEEVE_CMD_clone, c)]
abbrev returnFlds (clone : Bool) : List (Fld × Nat) := sleeveFlds 2 (b2n clone)
abbrev takeFlds (clone : Bool) (n : Nat) : List (Fld × Nat) := sleeveFlds 1 (b2n clone) ++ [(R.SWC_SLEEVE_CMD_pipe, n)]

theorem image_sleeveCmd :
    s.image R.reg_SWC_SLEEVE_CMD 0 0 0 =
      s.rd R.SWC_SLEEVE_CMD_op % 8 * 2 ^ 28 + s.rd R.SWC_SLEEVE_CMD_clone % 2 * 2 ^ 27 + s.rd R.SWC_SLEEVE_CMD_pipe % 8 := by
  simp [State.image, R.reg_SWC_SLEEVE_CMD, R.SWC_SLEEVE_CMD_go, R.SWC_SLEEVE_CMD_op, R.SWC_SLEEVE_CMD_clone,
    R.SWC_SLEEVE_CMD_pipe]

theorem sleeveFlds_word {op c : Nat} (hop : op < 8) (hc : c < 2) :
    (sleeveFlds op c).foldl (fun v q => showFld v q.1 q.2) (s.image R.reg_SWC_SLEEVE_CMD 0 0 0) =
      sleeveWord op c (s.rd R.SWC_SLEEVE_CMD_pipe % 8) := by
  have ho : s.rd R.SWC_SLEEVE_CMD_op % 8 < 8 := Nat.mod_lt _ (by decide)
  have hk : s.rd R.SWC_SLEEVE_CMD_clone % 2 < 2 := Nat.mod_lt _ (by decide)
  have hp : s.rd R.SWC_SLEEVE_CMD_pipe % 8 < 8 := Nat.mod_lt _ (by decide)
  rw [List.foldl_cons, List.foldl_cons, List.foldl_cons, List.foldl_nil, image_sleeveCmd, showFld_sleeveGo ho hk hp,
    showFld_sleeveOp ho hk hp hop, showFld_sleeveClone hop hk hp hc]

theorem returnWord_eq (clone : Bool) :
    cmdWord s R.reg_SWC_SLEEVE_CMD (returnFlds clone) = sleeveWord 2 (b2n clone) (s.rd R.SWC_SLEEVE_CMD_pipe % 8) := by
  have hc := b2n_lt_two clone
  rw [cmdWord, sleeveFlds_word (by decide) hc]
  exact Nat.mod_eq_of_lt (sleeveWord_lt (by decide) hc (Nat.mod_lt _ (by decide)))

theorem takeWord_eq (clone : Bool) (n : Fin 8) :
    cmdWord s R.reg_SWC_SLEEVE_CMD (takeFlds clone n) = sleeveWord 1 (b2n clone) n := by
  have hc := b2n_lt_two clone
  rw [cmdWord, List.foldl_append, sleeveFlds_word (by decide) hc]
  exact (congrArg (· % 2 ^ 32) (showFld_sleevePipe (by decide) hc (Nat.mod_lt _ (by decide)) n.isLt)).trans
    (Nat.mod_eq_of_lt (sleeveWord_lt (by decide) hc n.isLt))

theorem b2n_beq_one (b : Bool) : (b2n b == 1) = b := by cases b <;> rfl

/-- A stored command is the operation that it asks for (R303). -/
theorem sleeveGo_return (clone : Bool) :
    (s.cmdPut R.reg_SWC_SLEEVE_CMD (returnFlds clone)).sleeveGo =
      (s.cmdPut R.reg_SWC_SLEEVE_CMD (returnFlds clone)).sleeveReturn clone := by
  have hop : 2 < 8 := by decide
  have hc := b2n_lt_two clone
  have hp : s.rd R.SWC_SLEEVE_CMD_pipe % 8 < 8 := Nat.mod_lt _ (by decide)
  have hput : s.cmdPut R.reg_SWC_SLEEVE_CMD (returnFlds clone) =
      sleevePut s (sleeveWord 2 (b2n clone) (s.rd R.SWC_SLEEVE_CMD_pipe % 8)) := congrArg (sleevePut s) (returnWord_eq clone)
  simp only [hput, State.sleeveGo, State.on, sleevePut_rd_op hop hc hp, sleevePut_rd_clone hc hp, b2n_beq_one]

theorem sleeveGo_take (clone : Bool) (n : Fin 8) :
    (s.cmdPut R.reg_SWC_SLEEVE_CMD (takeFlds clone n)).sleeveGo =
      (s.cmdPut R.reg_SWC_SLEEVE_CMD (takeFlds clone n)).sleeveTake n clone := by
  have hop : 1 < 8 := by decide
  have hc := b2n_lt_two clone
  have hput : s.cmdPut R.reg_SWC_SLEEVE_CMD (takeFlds clone n) = sleevePut s (sleeveWord 1 (b2n clone) n) :=
    congrArg (sleevePut s) (takeWord_eq clone n)
  simp only [hput, State.sleeveGo, State.on, sleevePut_rd_op hop hc n.isLt, sleevePut_rd_clone hc n.isLt,
    sleevePut_rd_pipe n.isLt, b2n_beq_one]

/-- A write of go in a register in service stores the command and begins it, and what follows every register write follows. -/
theorem wrFlds_sleeveCmd {fs : List (Fld × Nat)} (h : s.takes req 0x09 0 R.reg_SWC_SLEEVE_CMD)
    (hgo : has R.SWC_SLEEVE_CMD_go (cmdWord s R.reg_SWC_SLEEVE_CMD fs) = true) :
    s.wrFlds req 0x09 R.reg_SWC_SLEEVE_CMD fs = (s.cmdPut R.reg_SWC_SLEEVE_CMD fs).sleeveGo.after := by
  have hwr : s.swcWr (blkOf 0x09).unit R.reg_SWC_SLEEVE_CMD 0 (cmdWord s R.reg_SWC_SLEEVE_CMD fs) =
      (s.cmdPut R.reg_SWC_SLEEVE_CMD fs).sleeveGo := (if_pos rfl).trans (if_pos hgo)
  exact (wrReg_takes s req 0x09 R.reg_SWC_SLEEVE_CMD _ 0 0 0 0 h (by decide)).trans (congrArg State.after hwr)

theorem wrFlds_return (clone : Bool) (h : s.takes req 0x09 0 R.reg_SWC_SLEEVE_CMD) :
    s.wrFlds req 0x09 R.reg_SWC_SLEEVE_CMD (returnFlds clone) =
      ((s.cmdPut R.reg_SWC_SLEEVE_CMD (returnFlds clone)).sleeveReturn clone).after := by
  have hgo : has R.SWC_SLEEVE_CMD_go (cmdWord s R.reg_SWC_SLEEVE_CMD (returnFlds clone)) = true :=
    returnWord_eq (s := s) clone ▸ sleeveWord_go (by decide) (b2n_lt_two clone) (Nat.mod_lt _ (by decide))
  rw [wrFlds_sleeveCmd h hgo, sleeveGo_return]

theorem wrFlds_take (clone : Bool) (n : Fin 8) (h : s.takes req 0x09 0 R.reg_SWC_SLEEVE_CMD) :
    s.wrFlds req 0x09 R.reg_SWC_SLEEVE_CMD (takeFlds clone n) =
      ((s.cmdPut R.reg_SWC_SLEEVE_CMD (takeFlds clone n)).sleeveTake n clone).after := by
  have hgo : has R.SWC_SLEEVE_CMD_go (cmdWord s R.reg_SWC_SLEEVE_CMD (takeFlds clone n)) = true :=
    takeWord_eq (s := s) clone n ▸ sleeveWord_go (by decide) (b2n_lt_two clone) n.isLt
  rw [wrFlds_sleeveCmd h hgo, sleeveGo_take]

end SleeveCommand

/-! ### The sleeve -/

section Sleeve
variable {s : State} {n : Nat}

/-- A sleeve that is off, with no epoch pending on either pipeline, wakes for the one it is to stand in for (R303). -/
theorem sleeveTake_off (hoff : s.sleeveState = 0) (hfence : s.fencedUnit 0 8 = false) (hepoch : s.sleeveEpoch n = false) :
    s.sleeveTake n false =
      let u := (((s.setSleeve 1).wr R.SWC_SLEEVE_STATUS_pipe n).wr R.SWC_SLEEVE_STATUS_pipe_drained 0).sleeveDone 0
      ({ u with swc := { u.swc with clone := false } } : State) := by
  simp [State.sleeveTake, hoff, hfence, hepoch]

/-- A sleeve that stands in for a pipeline in service switches back to it (R303). -/
theorem sleeveReturn_active (hactive : s.sleeveState = 4) (hfence : s.fencedUnit 0 s.sleevePipe = false)
    (hepoch : s.sleeveEpoch s.sleevePipe = false) :
    s.sleeveReturn false = ((s.sleeveDone 0).wr R.SWC_SLEEVE_STATUS_pipe_drained 0).setSleeve 6 := by
  simp [State.sleeveReturn, hactive, hfence, hepoch]

/-- A sleeve that is not to clone wakes with empty tables and goes on to switch (R306). -/
theorem sleeveWoken_empty (hwake : s.sleeveState = 1) (hclone : s.swc.clone = false) :
    s.sleeveWoken = (s.emptyTables 8).setSleeve 3 := by
  have hclone' : (s.emptyTables 8).swc.clone = false := hclone
  simp [State.sleeveWoken, hwake, hclone']

/-- A copy that is done goes on to switch, to the sleeve or back from it (R304). -/
theorem sleeveCopied_toSleeve (h : s.sleeveState = 2) : s.sleeveCopied = s.setSleeve 3 := if_pos h

theorem sleeveCopied_toPipe (h : s.sleeveState = 5) : s.sleeveCopied = s.setSleeve 6 := by
  simp [State.sleeveCopied, h]

/-- The switch to the sleeve ends once the pipeline holds no packet (R305). -/
theorem sleeveSwitched_toSleeve (hswitch : s.sleeveState = 3) (hempty : (s.pipe s.sleevePipe).xin = []) :
    s.sleeveSwitched =
      ((s.setSleeve 4).raise R.SWC_SLEEVE_STATUS_pipe_drained).event 9 0 0x10 (leBytes 1 s.sleevePipe ++ List.replicate 15 0) :=
  if_pos ⟨hswitch, List.isEmpty_iff.mpr hempty⟩

/-- The switch back ends, and with it the mirroring, once the sleeve holds no packet (R305, R306). -/
theorem sleeveSwitched_toPipe (hswitch : s.sleeveState = 6) (hempty : (s.pipe 8).xin = []) :
    s.sleeveSwitched =
      let t := ((s.setSleeve 0).wr R.SWC_SLEEVE_STATUS_pipe_drained 0).event 9 0 0x11
        (leBytes 1 s.sleevePipe ++ List.replicate 15 0)
      ({ t with swc := { t.swc with mirroring := false, mirrorLost := false } } : State) := by
  have hback : ¬(s.sleeveState = 3 ∧ (s.pipe s.sleevePipe).xin.isEmpty = true) := fun h =>
    absurd (hswitch.symm.trans h.1) (by decide)
  exact (if_neg hback).trans (if_pos ⟨hswitch, List.isEmpty_iff.mpr hempty⟩)

end Sleeve

/-! ### The obligation -/

/-- Settles O18: the one request is matched with the bank next in turn, a command written to SWC_SLEEVE_CMD is its operation, and
each step of the sleeve goes by the state and the packets it finds. -/
theorem switchAndSleeve : Obligations.SwitchAndSleeve := by
  unfold Obligations.SwitchAndSleeve
  refine ⟨?xbar, ?take, ?giveBack, ?wake, ?copyOut, ?copyBack, ?switched, ?returned⟩
  case xbar =>
    intro s n hup hask hothers hheld hroom
    have hothers' : ∀ i < 9, i ≠ n.val → s.request i = 0 := fun i hi hne => by
      simpa [hne] using List.all_eq_true.mp hothers i (List.mem_range.mpr hi)
    exact whenMain_released hup (xbarMatch_one n.isLt hask hothers' hheld hroom)
  case take =>
    rintro s _ req n h rfl hoff hfence hepoch
    exact congrArg s.done ((wrFlds_take false n h).trans (congrArg State.after (sleeveTake_off hoff hfence hepoch)))
  case giveBack =>
    rintro s _ req h rfl hactive hfence hepoch
    exact congrArg s.done
      ((wrFlds_return false h).trans (congrArg State.after (sleeveReturn_active hactive hfence hepoch)))
  case wake => exact fun s hup hwake hclone => whenMain_released hup (sleeveWoken_empty hwake hclone)
  case copyOut => exact fun s hup h => whenMain_released hup (sleeveCopied_toSleeve h)
  case copyBack => exact fun s hup h => whenMain_released hup (sleeveCopied_toPipe h)
  case switched => exact fun s hup hswitch hempty => whenMain_released hup (sleeveSwitched_toSleeve hswitch hempty)
  case returned => exact fun s hup hswitch hempty => whenMain_released hup (sleeveSwitched_toPipe hswitch hempty)

end Sys2Proof.Proofs
end

section
/-! PROOFS. Flits and transaction headers (15_wilotte_link.md R387-R389; 16_tenant_sockets.md R406): little-endian fields of byte
strings, and that what a link writes into its 256 bytes is what its partner reads from them. -/

namespace Sys2Proof.Proofs
open Sys2Proof Sys2Proof.Machine Sys2Proof.Laws

/-! ### Little-endian fields of byte strings -/

@[simp] theorem length_leBytes : ∀ k n : Nat, (leBytes k n).length = k
  | 0, _ => rfl
  | k + 1, n => congrArg (· + 1) (length_leBytes k (n / 256))

/-- What a little-endian string says of a number: its low bytes. -/
theorem leNat_leBytes : ∀ k n : Nat, leNat (leBytes k n) = n % 256 ^ k
  | 0, n => (Nat.mod_one n).symm
  | k + 1, n => by
    have hhead : (BitVec.ofNat 8 n).toNat = n % 256 := BitVec.toNat_ofNat n 8
    rw [leBytes, leNat, leNat_leBytes k, hhead, pow_succ', Nat.mod_mul]

/-- A field at the front of a string. -/
theorem fieldLE_leBytes_append (k n : Nat) (q : List Byte) : fieldLE (leBytes k n ++ q) 0 k = n % 256 ^ k := by
  rw [fieldLE, sliceBytes, List.drop_zero, List.take_left' (length_leBytes k n), leNat_leBytes]

/-- A field behind a part of a string is a field of the rest. -/
theorem fieldLE_append_right {p : List Byte} {off : Nat} (q : List Byte) (n : Nat) (h : p.length ≤ off) :
    fieldLE (p ++ q) off n = fieldLE q (off - p.length) n := by
  rw [fieldLE, sliceBytes, List.drop_append, List.drop_eq_nil_of_le h]
  rfl

/-! ### Flits -/

section FlitBytes
variable (f : Flit)

/-- The header of a flit as one number (table Flit header). -/
def flitHead : Nat :=
  f.type + f.vc * 2 ^ 4 + b2n f.bad * 2 ^ 6 + f.units * 2 ^ 8 + f.seq * 2 ^ 12 + f.ack * 2 ^ 24 + f.crVc * 2 ^ 36 + f.cr * 2 ^ 38

/-- The bytes of a flit that its check value covers. -/
def flitBody : List Byte := leBytes 8 (flitHead f) ++ f.payload

/-- The fields of a flit fit their places in its header. -/
structure FlitFits : Prop where
  type : f.type < 2 ^ 4
  vc : f.vc < 2 ^ 2
  units : f.units < 2 ^ 4
  seq : f.seq < 2 ^ 12
  ack : f.ack < 2 ^ 12
  crVc : f.crVc < 2 ^ 2
  cr : f.cr < 2 ^ 12

variable {f}

theorem length_flitBody (hp : f.payload.length = 240) : (flitBody f).length = 248 := by simp [flitBody, hp]

theorem flitBytes_eq (hp : f.payload.length = 240) : f.bytes = flitBody f ++ leBytes 8 (flitCheck (flitBody f)) := by
  have hpay : (f.payload ++ List.replicate 240 0).take 240 = f.payload := List.take_left' hp
  simp only [Flit.bytes, hpay]
  rfl

theorem flitCheck_append {b : List Byte} (c : List Byte) (h : b.length = 248) : flitCheck (b ++ c) = flitCheck b := by
  simp only [flitCheck, List.take_left' h, List.take_of_length_le h.le]

theorem length_flitBytes (hp : f.payload.length = 240) : f.bytes.length = 256 := by
  simp [flitBytes_eq hp, length_flitBody hp]

/-- The check value stands in the last eight bytes. -/
theorem fieldLE_flitBytes_check (hp : f.payload.length = 240) : fieldLE f.bytes 0xF8 8 = flitCheck (flitBody f) := by
  have hlast : fieldLE f.bytes 0xF8 8 = fieldLE (leBytes 8 (flitCheck (flitBody f)) ++ []) 0 8 := by
    rw [flitBytes_eq hp, fieldLE_append_right _ _ (length_flitBody hp).le, length_flitBody hp, List.append_nil]
  rw [hlast, fieldLE_leBytes_append]
  refine Nat.mod_eq_of_lt (Nat.lt_of_le_of_lt (Nat.sub_le _ _) ?_)
  decide

theorem flitGood_flitBytes (hp : f.payload.length = 240) : flitGood f.bytes true = true := by
  have hcheck : flitCheck f.bytes = flitCheck (flitBody f) := by
    rw [flitBytes_eq hp, flitCheck_append _ (length_flitBody hp)]
  simp [flitGood, length_flitBytes hp, fieldLE_flitBytes_check hp, hcheck]

theorem flitHead_lt (h : FlitFits f) : flitHead f < 2 ^ 50 := by
  obtain ⟨htype, hvc, hunits, hseq, hack, hcrVc, hcr⟩ := h
  unfold flitHead b2n
  split <;> omega

theorem fieldLE_flitBytes_head (h : FlitFits f) (hp : f.payload.length = 240) : fieldLE f.bytes 0 8 = flitHead f := by
  rw [flitBytes_eq hp, flitBody, List.append_assoc, fieldLE_leBytes_append]
  exact Nat.mod_eq_of_lt ((flitHead_lt h).trans (by decide))

theorem sliceBytes_flitBytes_payload (hp : f.payload.length = 240) : sliceBytes f.bytes 8 240 = f.payload := by
  rw [flitBytes_eq hp, flitBody, List.append_assoc, sliceBytes, List.drop_left' (length_leBytes ..), List.take_left' hp]

/-- Every field of a header that fits is read back from its bits. -/
theorem flitHead_fields (h : FlitFits f) :
    bits (flitHead f) 3 0 = f.type ∧ bits (flitHead f) 5 4 = f.vc ∧ bit (flitHead f) 6 = f.bad ∧
      bits (flitHead f) 11 8 = f.units ∧ bits (flitHead f) 23 12 = f.seq ∧ bits (flitHead f) 35 24 = f.ack ∧
      bits (flitHead f) 37 36 = f.crVc ∧ bits (flitHead f) 49 38 = f.cr := by
  obtain ⟨htype, hvc, hunits, hseq, hack, hcrVc, hcr⟩ := h
  simp only [bits, bit, flitHead, b2n]
  cases f.bad <;> simp only [if_true, Bool.false_eq_true, if_false, beq_iff_eq, beq_eq_false_iff_ne] <;> omega

/-- Reading the bytes of a flit gives the flit. -/
theorem flitOf_flitBytes (h : FlitFits f) (hp : f.payload.length = 240) : flitOf f.bytes = f := by
  obtain ⟨htype, hvc, hbad, hunits, hseq, hack, hcrVc, hcr⟩ := flitHead_fields h
  simp only [flitOf, fieldLE_flitBytes_head h hp, sliceBytes_flitBytes_payload hp, htype, hvc, hbad, hunits, hseq, hack, hcrVc, hcr]

end FlitBytes

/-! ### Transaction headers -/

theorem length_txnHeader (type sub len tag status arg : Nat) : (txnHeader type sub len tag status arg).length = 16 := by
  simp [txnHeader]

/-- Each field of a header is the part of its operand that fits (table Transaction header). -/
theorem txnHeader_fields (type sub len tag status arg : Nat) (q : List Byte) :
    let d := txnHeader type sub len tag status arg ++ q
    fieldLE d 0 1 = type % 256 ^ 1 ∧ fieldLE d 1 1 = sub % 256 ^ 1 ∧ fieldLE d 2 2 = len % 256 ^ 2 ∧
      fieldLE d 4 2 = tag % 256 ^ 2 ∧ fieldLE d 6 2 = status % 256 ^ 2 ∧ fieldLE d 8 8 = arg % 256 ^ 8 := by
  simp [-Nat.reducePow, txnHeader, List.append_assoc, fieldLE_append_right, fieldLE_leBytes_append]

/-! ### The obligation -/

/-- Settles O52: the 256 bytes are the header's number, the payload and their check value, and each part is read back from its
place; a transaction's header likewise. -/
theorem flitsRoundTrip : Obligations.FlitsRoundTrip := by
  unfold Obligations.FlitsRoundTrip
  refine ⟨?flit, ?header⟩
  case flit =>
    intro f htype hvc hunits hseq hack hcrVc hcr hp
    exact ⟨length_flitBytes hp, flitGood_flitBytes hp, flitOf_flitBytes ⟨htype, hvc, hunits, hseq, hack, hcrVc, hcr⟩ hp⟩
  case header =>
    intro vc type sub len tag status arg body htype hsub hlen htag hstatus harg hbody t
    obtain ⟨ftype, fsub, flen, ftag, fstatus, farg⟩ := txnHeader_fields type sub len tag status arg (padUnits body)
    have hlen' : t.len = len := flen.trans (Nat.mod_eq_of_lt hlen)
    refine ⟨ftype.trans (Nat.mod_eq_of_lt htype), fsub.trans (Nat.mod_eq_of_lt hsub), hlen',
      ftag.trans (Nat.mod_eq_of_lt htag), fstatus.trans (Nat.mod_eq_of_lt hstatus), farg.trans (Nat.mod_eq_of_lt harg), ?_⟩
    rw [Txn.body, hlen', List.drop_left' (length_txnHeader ..), padUnits, List.take_left' hbody]

end Sys2Proof.Proofs
end

section
/-! PROOFS. The step, its queue and the state after reset (00_scope.md; 01_architecture.md R31; 02_fabric_time.md R47): a step is
the front command or one idle clock, every command answers a next state and leaves the queue alone, and reset leaves every
register at its reset value. -/

namespace Sys2Proof.Proofs
open Sys2Proof Sys2Proof.Machine Sys2Proof.Laws

/-! ### The step -/

/-- A command that waits at the front is carried out on the rest of the queue. -/
theorem step_of_pending {c : Instr} {rest : List Instr} {s : State} (h : s.pending = c :: rest) :
    step s = exec c { s with pending := rest } := by
  rw [step, h]

theorem step_of_idle {s : State} (h : s.pending = []) : step s = .next s.tick.ncsiDrain := by
  rw [step, h]
  rfl

/-- Settle puts the queue back, whatever the command has made of it. -/
@[simp] theorem settle_pending (s t : State) : (s.settle t).pending = s.pending := rfl

theorem pending_of_exec {c : Instr} {s t : State} (h : exec c s = .next t) : t.pending = s.pending := by
  obtain ⟨u, hu⟩ := exec_settles c s
  obtain rfl : s.settle u = t := Host.Outcome.next.inj (hu.symm.trans h)
  exact settle_pending s u

/-- Settles O45: the queue's front is what the step takes. -/
theorem stepTakesTheFrontCommand : Obligations.StepTakesTheFrontCommand := by
  unfold Obligations.StepTakesTheFrontCommand
  exact fun _ _ _ => step_of_pending

/-- Settles O46: without a command the step is the idle clock. -/
theorem emptyQueueIsOneClock : Obligations.EmptyQueueIsOneClock := by
  unfold Obligations.EmptyQueueIsOneClock
  exact fun _ => step_of_idle

/-- Settles O47: every command ends in what settle makes of some state. -/
theorem everyCommandCompletes : Obligations.EveryCommandCompletes := by
  unfold Obligations.EveryCommandCompletes
  exact fun c s => (exec_settles c s).imp' s.settle fun _ h => h

/-- Settles O48: every command ends in settle, which keeps the queue it was given; a step gives it the queue's rest. -/
theorem commandsKeepTheQueue : Obligations.CommandsKeepTheQueue := by
  unfold Obligations.CommandsKeepTheQueue
  refine ⟨?command, ?front⟩
  case command => exact fun _ _ _ => pending_of_exec
  case front =>
    intro c rest s t hq hstep
    exact pending_of_exec (s := { s with pending := rest }) ((step_of_pending hq).symm.trans hstep)

/-! ### Reset -/

/-- No register holds a value of its own after reset. -/
theorem reset_rd (f : Fld) (i j k : Nat) : State.reset.rd f i j k = f.rst i j k := rfl

/-- Settles O51: the fuses of reset are those that manufacture left, none of them blown. -/
theorem fusesAtReset : Obligations.FusesAtReset := by
  unfold Obligations.FusesAtReset
  exact ⟨within_refl _, rfl, rfl⟩

/-- Settles O59: the stores of reset are empty, so every register reads its reset value and no ring or queue pair exists. -/
theorem resetState : Obligations.ResetState := by
  unfold Obligations.ResetState
  refine ⟨rfl, rfl, ?hostOwns, rfl, rfl, rfl, rfl, rfl, rfl, rfl, ?warning, ?rings, ?qps⟩
  case hostOwns => exact fun a ha => (reset_rd hdrOwner a 0 0).trans (if_neg ha)
  case warning => exact fun r hr => (reset_rd R.HLT_SUPPLY_CFG_warn_mv r 0 0).trans (if_neg (by omega))
  case rings => exact fun _ => rfl
  case qps => exact fun _ => rfl

end Sys2Proof.Proofs
end

section
/-! PROOFS. How a link moves between its states (15_wilotte_link.md R385, R401-R405; 22_redundant_pair.md R533): what each event
does by the state it finds, and that a link's own registers do not decide whether it is enabled. -/

namespace Sys2Proof.Proofs
open Sys2Proof Sys2Proof.Machine Sys2Proof.Laws

@[simp] theorem runTo_ac (s : State) (u : Nat) (f : Fld) (i j k : Nat) : (s.runTo u).ac f i j k = s.ac f i j k := by
  unfold State.runTo
  split <;> rfl

/-! ### What a link writes -/

/-- A place in the registers of the Wilotte links or of the pair. -/
def linkKey (key : Nat) : Prop := (8 * 0x2C00000 ≤ key ∧ key < 8 * 0x2D00000) ∨ 8 * 0x3E00000 ≤ key

/-- `t` holds the registers of `s` but for those of links and pair. -/
structure OnlyLinkRegs (s t : State) : Prop where
  act : t.act = s.act
  rd : ∀ f i j k, ¬ linkKey (f.key i j k) → t.rd f i j k = s.rd f i j k

theorem OnlyLinkRegs.refl (s : State) : OnlyLinkRegs s s := ⟨rfl, fun _ _ _ _ _ => rfl⟩

theorem OnlyLinkRegs.trans {s t u : State} (h : OnlyLinkRegs s t) (g : OnlyLinkRegs t u) : OnlyLinkRegs s u :=
  ⟨g.act.trans h.act, fun f i j k hk => (g.rd f i j k hk).trans (h.rd f i j k hk)⟩

theorem onlyLinkRegs_wr (s : State) {f : Fld} {i j k : Nat} (v : Nat) (h : linkKey (f.key i j k)) :
    OnlyLinkRegs s (s.wr f v i j k) :=
  ⟨rfl, fun g i' j' k' hg => rd_wr_other s f g v i j k i' j' k' fun e => hg (e ▸ h)⟩

section LinkWrites
variable (s : State) (n : Nat)

theorem onlyLinkRegs_setLinkState (st : Nat) : OnlyLinkRegs s (s.setLinkState n st) := by
  have hmod : OnlyLinkRegs s (s.modLink n (fun l => { l with state := st, since := s.time.ft })) :=
    ⟨rfl, fun _ _ _ _ _ => rfl⟩
  unfold State.setLinkState
  split
  next hn =>
    refine hmod.trans (onlyLinkRegs_wr _ _ (Or.inl ?_))
    simp only [Fld.key, Fld.off, R.WLK_STATUS_state]
    omega
  next =>
    refine hmod.trans (onlyLinkRegs_wr _ _ (Or.inr ?_))
    simp only [Fld.key, Fld.off, R.PAR_STATUS_sub_state]
    omega

theorem onlyLinkRegs_setLaneState {l : Nat} (hl : l < 8) (st : Nat) :
    OnlyLinkRegs s (s.setLlane n R.WLK_LANE_STATUS_state R.PAR_LANE_STATUS_state l st) := by
  unfold State.setLlane
  split
  next hn =>
    refine onlyLinkRegs_wr _ _ (Or.inl ?_)
    simp only [Fld.key, Fld.off, R.WLK_LANE_STATUS_state]
    omega
  next =>
    refine onlyLinkRegs_wr _ _ (Or.inr ?_)
    simp only [Fld.key, Fld.off, R.PAR_LANE_STATUS_state]
    omega

theorem onlyLinkRegs_setLaneStates (st : Nat) : OnlyLinkRegs s (s.setLaneStates n st) := by
  refine List.foldlRecOn (List.range 8) _ (OnlyLinkRegs.refl s) fun t ht l hl => ?_
  split
  next => exact ht
  next => exact ht.trans (onlyLinkRegs_setLaneState t n (List.mem_range.mp hl) st)

variable {s n}

/-- Whether a link may leave DISABLED is not for its own registers to say. -/
theorem linkEnabled_of_onlyLinkRegs {t : State} (hn : n < 10) (h : OnlyLinkRegs s t) : t.linkEnabled n = s.linkEnabled n := by
  have hac : ∀ f, t.ac f n = s.ac f n ∧ t.ac f = s.ac f := fun f => by simp only [State.ac, h.act, and_self]
  have hcuff : t.rd R.SEC_BOOT_STATUS_cuff_open = s.rd R.SEC_BOOT_STATUS_cuff_open := h.rd _ _ _ _ (by unfold linkKey; decide)
  have hpwr : n < 8 → t.rd R.TSK_STATUS_pwr n = s.rd R.TSK_STATUS_pwr n := fun hn => h.rd _ _ _ _ (by
    simp only [linkKey, Fld.key, Fld.off, R.TSK_STATUS_pwr]; omega)
  have hunit : t.rd R.HLT_UNIT_state 3 n = s.rd R.HLT_UNIT_state 3 n := h.rd _ _ _ _ (by
    simp only [linkKey, Fld.key, Fld.off, R.HLT_UNIT_state]; omega)
  simp only [State.linkEnabled, State.cuffOpen, State.on, State.modPowered, State.fencedUnit, hcuff, hunit, hac]
  split
  next hn => simp only [hpwr hn]
  next => rfl

@[simp] theorem runTo_linkEnabled (u : Nat) : (s.runTo u).linkEnabled n = s.linkEnabled n := by
  simp only [State.linkEnabled, State.cuffOpen, State.on, State.modPowered, State.fencedUnit, runTo_rd, runTo_ac]

end LinkWrites

/-! ### Signal, lock and timeouts -/

section Training
variable {s : State} {n : Nat}

theorem linkSignal_detect (hst : (s.link n).state = 1) (hshut : s.anyShut n = false) :
    s.linkSignal n =
      (((List.range 8).foldl (fun s l => s.setLlane n R.WLK_LANE_STATUS_los R.PAR_LANE_STATUS_los l 0) s).setLinkState n
        2).setLaneStates n 1 := if_pos ⟨hst, hshut⟩

theorem linkSignal_shut (hshut : s.anyShut n = true) : s.linkSignal n = s :=
  if_neg fun h => Bool.noConfusion (hshut.symm.trans h.2)

/-- Lock begins CONFIG with nothing seen of the partner yet (R401). -/
theorem linkLock_wilotte (i : Nat) (hst : (s.link n).state = 2) (hn : n < 8) :
    s.linkLock n i =
      (((((s.modLink n (fun l => { l with seen := false, seenSent := 0, seenRx := 0, refusedEv := false })).setLinkState n 3).wr
        R.WLK_STATUS_version_mismatch 0 n).wr R.WLK_STATUS_credit_low 0 n).wr R.WLK_STATUS_rx_inverted i n) := by
  simp only [State.linkLock, hst, hn, if_true]

theorem linkLock_pair (i : Nat) (hst : (s.link n).state = 2) (hn : 8 ≤ n) :
    s.linkLock n i =
      ((s.modLink n (fun l => { l with seen := false, seenSent := 0, seenRx := 0, refusedEv := false })).setLinkState n 3).wr
        R.PAR_STATUS_id_mismatch 0 := by
  simp only [State.linkLock, hst, Nat.not_lt.mpr hn, if_true, if_false]

theorem linkTimeout_waiting {st : Nat} (ms : Nat) (hst : (s.link n).state = st) :
    s.linkTimeout n st ms = ((s.runTo ((s.link n).since + ms * unitsPerMs)).lcnt n 13).setLinkState n 1 := if_pos hst

end Training

/-! ### Going down and coming back -/

section Down
variable {s : State} {n : Nat}

theorem linkDown_again (cause : Nat) (hst : (s.link n).state = 5) : s.linkDown n cause = s.lcnt n 14 := by
  simp only [State.linkDown, hst, if_true]

theorem endPart_none {l : Link} (h : l.part = []) : l.endPart = l := by
  cases l
  cases h
  simp [Link.endPart]

/-- An ACTIVE sublink that holds, sends and receives nothing ends without a loss (R402). -/
theorem linkDown_idleSublink (cause : Nat) (hn : 8 ≤ n) (hst : (s.link n).state = 4) (hheld : (s.link n).held = [])
    (htxq : (s.link n).txq = []) (hpart : (s.link n).part = []) :
    s.linkDown n cause =
      (let t := ((s.setLink n { s.link n with held := [], replay := none, consumed := [], partner := [], returned := [], rxUsed := [], withheld := 0, offer := [], txq := [], cause := cause }).setLinkState n 5).setLaneStates n 1
       ({ t with due := t.due ++ [.linkLost n cause] } : State)) := by
  have h8 : ¬ n < 8 := Nat.not_lt.mpr hn
  simp [State.linkDown, State.lcnt, State.linkEvent, hst, hheld, htxq, endPart_none hpart, h8]

theorem downEnd_detect (hst : (s.link n).state = 5) (hcause : (s.link n).cause ≠ 7) (hen : s.linkEnabled n = true) :
    s.downEnd n = (s.runTo ((s.link n).since + unitsPerUs)).setLinkState n 1 := by
  simp [State.downEnd, hst, hcause, hen]

/-- A link that is not enabled stays DISABLED (R405). -/
theorem downEnd_disabled (hn : n < 10) (hst : (s.link n).state = 5) (hen : s.linkEnabled n = false) :
    s.downEnd n = ((s.runTo ((s.link n).since + unitsPerUs)).setLinkState n 0).setLaneStates n 0 := by
  have hstays : ∀ u : State, u.linkEnabled n = false →
      ((u.setLinkState n 0).setLaneStates n 0).linkStart n = (u.setLinkState n 0).setLaneStates n 0 := fun u hu => by
    have hregs := (onlyLinkRegs_setLinkState u n 0).trans (onlyLinkRegs_setLaneStates _ n 0)
    have hoff : ((u.setLinkState n 0).setLaneStates n 0).linkEnabled n = false :=
      (linkEnabled_of_onlyLinkRegs hn hregs).trans hu
    simp [State.linkStart, hoff]
  simp [State.downEnd, hst, hen, hstays]

end Down

/-! ### The obligation -/

/-- Settles O27: each event of a link goes by the state it finds. -/
theorem linkStates : Obligations.LinkStates := by
  unfold Obligations.LinkStates
  refine ⟨?signal, ?shut, ?lock, ?lockPair, ?lockTimeout, ?configTimeout, ?cause, ?causeAgain, ?ends, ?endsDisabled⟩
  case signal => exact fun s n hup hst hshut => whenMain_released (f := (·.linkSignal n)) hup (linkSignal_detect hst hshut)
  case shut => exact fun s n hup hshut => whenMain_released (f := (·.linkSignal n)) hup (linkSignal_shut hshut)
  case lock =>
    rintro s _ n i hup hst hn rfl
    exact whenMain_released (f := (·.linkLock n i)) hup (linkLock_wilotte i hst hn)
  case lockPair =>
    rintro s _ n i hup hst hn rfl
    exact whenMain_released (f := (·.linkLock n i)) hup (linkLock_pair i hst hn)
  case lockTimeout => exact fun s n hup hst => whenMain_released (f := (·.linkTimeout n 2 100)) hup (linkTimeout_waiting 100 hst)
  case configTimeout => exact fun s n hup hst => whenMain_released (f := (·.linkTimeout n 3 10)) hup (linkTimeout_waiting 10 hst)
  case cause =>
    rintro s _ n c hup hn hc hst hheld htxq hpart rfl
    exact whenMain_released (f := fun s => if c.val = 0 then s else (s.linkDown n c).drainDue) hup
      ((if_neg hc).trans (congrArg State.drainDue (linkDown_idleSublink c hn hst hheld htxq hpart)))
  case causeAgain =>
    exact fun s n c hup hc hst => whenMain_released (f := fun s => if c.val = 0 then s else (s.linkDown n c).drainDue) hup
      ((if_neg hc).trans (congrArg State.drainDue (linkDown_again c hst)))
  case ends => exact fun s n hup hst hcause hen => whenMain_released (f := (·.downEnd n)) hup (downEnd_detect hst hcause hen)
  case endsDisabled =>
    exact fun s n hup hst hen => whenMain_released (f := (·.downEnd n)) hup (downEnd_disabled n.isLt hst hen)

end Sys2Proof.Proofs
end

section
/-! PROOFS. What a link sends in a flit time, and its replay timeout (15_wilotte_link.md R390-R394, R400): one lemma per state of
the link and per choice of an ACTIVE transmitter. -/

namespace Sys2Proof.Proofs
open Sys2Proof Sys2Proof.Machine Sys2Proof.Laws

@[simp] theorem runTo_link (s : State) (u n : Nat) : (s.runTo u).link n = s.link n := by
  unfold State.runTo
  split <;> rfl

/-! ### Outside ACTIVE -/

section Quiet
variable {s : State} {n : Nat}

theorem flitTransmit_config (h : (s.link n).state = 3) :
    s.flitTransmit n =
      ((s.sendFlit n { type := 4, payload := s.trainPayload n }).modLink n
        (fun l => if l.seen then { l with seenSent := l.seenSent + 1 } else l)).linkActive n := by
  simp only [State.flitTransmit, h]

theorem flitTransmit_down (h : (s.link n).state = 5) :
    s.flitTransmit n = s.sendFlit n { type := 5, payload := leBytes 1 (s.link n).cause } := by
  simp only [State.flitTransmit, h]

theorem flitTransmit_disabled (h : (s.link n).state = 0) : s.flitTransmit n = s := by
  simp only [State.flitTransmit, h]

end Quiet

/-! ### The ACTIVE transmitter (R390-R393) -/

/-- Nothing of a link's next flit is decided by its credits: none are withheld, and no transaction waits for one. -/
structure SendsFreely (s : State) (n : Nat) : Prop where
  active : (s.link n).state = 4
  none_withheld : (s.link n).withheld = 0
  no_stall : s.creditStall (s.link n) = false

/-- A link that neither owes a NAK nor replays. -/
structure SendsNew (s : State) (n : Nat) : Prop extends SendsFreely s n where
  no_nak : (s.link n).nakDue = false
  no_replay : (s.link n).replay = none

section Active
variable {s : State} {n : Nat}

theorem releaseCredits_none (h : (s.link n).withheld = 0) : s.releaseCredits n = s := if_neg fun hw => hw.1 h

theorem flitTransmit_active (h : SendsFreely s n) : s.flitTransmit n = s.activeFlit n := by
  simp only [State.flitTransmit, h.active]

theorem activeFlit_nak (h : SendsFreely s n) (hnak : (s.link n).nakDue = true) :
    s.activeFlit n =
      ((s.setLink n { s.link n with nakDue := false }).lcnt n 5).sendFlit n { type := 3, seq := (s.link n).expect } := by
  simp [State.activeFlit, releaseCredits_none h.none_withheld, h.no_stall, hnak]

theorem activeFlit_replay {q : Nat} {f : SentFlit} (h : SendsFreely s n) (hnak : (s.link n).nakDue = false)
    (hq : (s.link n).replay = some q) (hf : (s.link n).held.find? (·.seq == q) = some f) :
    s.activeFlit n =
      ((s.setLink n { s.link n with
          held := (s.link n).held.map (fun x => if x.seq = f.seq then { x with resent := true, at_ := s.time.ft } else x)
          replay := if (s.link n).held.any (·.seq == (f.seq + 1) % 4096) then some ((f.seq + 1) % 4096) else none }).lcnt n 9).sendFlit
        n { type := 1, vc := f.vc, bad := f.bad, units := f.units, seq := f.seq, payload := f.payload } := by
  simp [State.activeFlit, releaseCredits_none h.none_withheld, h.no_stall, hnak, hq, hf]

theorem noReplay_eq {l : Link} (h : l.replay = none) : { l with replay := none } = l := by
  cases l
  cases h
  rfl

/-- With no channel ready the flit carries acknowledgement and credits alone. -/
theorem activeFlit_ctrl (h : SendsNew s n) (hready : s.readyVcs (s.link n) = []) :
    s.activeFlit n = (s.setLink n (s.link n)).sendFlit n { type := 2 } := by
  simp only [State.activeFlit, releaseCredits_none h.none_withheld, noReplay_eq h.no_replay]
  simp [h.no_stall, h.no_nak, h.no_replay, hready]

/-- The only ready channel fills the flit, which is held until it is acknowledged. -/
theorem activeFlit_data {v : Nat} {x : Fill} (h : SendsNew s n) (hready : s.readyVcs (s.link n) = [v])
    (hx : s.fill v 15 { link := s.link n } = x) (hsync : x.sync = none) :
    s.activeFlit n =
      x.ended.foldl (fun s t => s.txnSent n t)
        ((s.setLink n { x.link with
            held := x.link.held ++ [{ seq := (s.link n).txNext, vc := v, units := x.payload.length / 16, bad := x.bad, payload := x.payload, at_ := s.time.ft }]
            txNext := ((s.link n).txNext + 1) % 4096 }).sendFlit n
          { type := 1, vc := v, bad := x.bad, units := x.payload.length / 16, seq := (s.link n).txNext, payload := x.payload }) := by
  simp only [State.activeFlit, releaseCredits_none h.none_withheld, noReplay_eq h.no_replay]
  simp [h.no_stall, h.no_nak, h.no_replay, hready, hx, hsync]

end Active

/-! ### The replay timeout (R394) -/

section ReplayTimeout
variable {s : State} {n : Nat} {f : SentFlit} {l : List SentFlit}

theorem replayTimeout_active (hst : (s.link n).state = 4) (hheld : (s.link n).held = f :: l) :
    s.replayTimeout n = (s.runTo (f.at_ + s.replayNs n * unitsPerNs)).startReplay n f.seq := by
  simp only [State.replayTimeout, hst, hheld, if_true]

@[simp] theorem runTo_replayMax (u : Nat) : (s.runTo u).replayMax n = s.replayMax n := by
  simp only [State.replayMax, runTo_ac]

theorem startReplay_left (q : Nat) (h : (s.link n).replays < s.replayMax n) :
    s.startReplay n q =
      (s.setLink n { s.link n with replay := some q, replays := (s.link n).replays + 1 }).lcnt n 8 := if_neg (Nat.not_le.mpr h)

theorem startReplay_spent (q : Nat) (h : s.replayMax n ≤ (s.link n).replays) : s.startReplay n q = s.linkDown n 3 := if_pos h

end ReplayTimeout

/-! ### The obligation -/

/-- In a released main domain the command FLIT_TRANSMIT is one flit time and what it makes due. -/
theorem gives_flitTransmit {s t : State} {n : Fin 10} (hup : s.mainUp = true) (h : s.flitTransmit n = t) :
    Gives (.flitTransmit n) s t.drainDue :=
  whenMain_released (f := fun s => (s.flitTransmit n).drainDue) hup (congrArg State.drainDue h)

theorem gives_replayTimeout {s t : State} {n : Fin 10} (hup : s.mainUp = true) (h : s.replayTimeout n = t) :
    Gives (.replayTimeout n) s t.drainDue :=
  whenMain_released (f := fun s => (s.replayTimeout n).drainDue) hup (congrArg State.drainDue h)

/-- Settles O25: the flit of each state, the order of an ACTIVE transmitter's choices, and the timeout by the replays left. -/
theorem linkTransmission : Obligations.LinkTransmission := by
  unfold Obligations.LinkTransmission
  refine ⟨?train, ?down, ?disabled, ?nak, ?replay, ?ctrl, ?data, ?timeout, ?lastTimeout⟩
  case train =>
    rintro s _ n hup hst rfl
    exact gives_flitTransmit hup (flitTransmit_config hst)
  case down => exact fun s n hup hst => gives_flitTransmit hup (flitTransmit_down hst)
  case disabled => exact fun s n hup hst => gives_flitTransmit hup (flitTransmit_disabled hst)
  case nak =>
    intro s n hup hst hheld hstall hnak
    have hfree : SendsFreely s n := ⟨hst, hheld, hstall⟩
    exact gives_flitTransmit hup ((flitTransmit_active hfree).trans (activeFlit_nak hfree hnak))
  case replay =>
    rintro s _ n q f hup hst hheld hstall hnak hq hf rfl
    have hfree : SendsFreely s n := ⟨hst, hheld, hstall⟩
    exact gives_flitTransmit hup ((flitTransmit_active hfree).trans (activeFlit_replay hfree hnak hq hf))
  case ctrl =>
    intro s n hup hst hheld hstall hnak hrep hready
    have hnew : SendsNew s n := ⟨⟨hst, hheld, hstall⟩, hnak, hrep⟩
    exact gives_flitTransmit hup ((flitTransmit_active hnew.toSendsFreely).trans (activeFlit_ctrl hnew hready))
  case data =>
    rintro s _ n v _ _ _ _ _ hup hst hheld hstall hnak hrep hready - rfl rfl rfl hsync rfl rfl rfl
    have hnew : SendsNew s n := ⟨⟨hst, hheld, hstall⟩, hnak, hrep⟩
    exact gives_flitTransmit hup ((flitTransmit_active hnew.toSendsFreely).trans (activeFlit_data hnew hready rfl hsync))
  case timeout =>
    rintro s _ n f l hup hst hheld hleft rfl
    refine gives_replayTimeout hup ((replayTimeout_active hst hheld).trans ?_)
    rw [startReplay_left f.seq (by rwa [runTo_link, runTo_replayMax]), runTo_link]
  case lastTimeout =>
    intro s n f l hup hst hheld hspent
    refine gives_replayTimeout hup ((replayTimeout_active hst hheld).trans ?_)
    exact startReplay_spent f.seq (by rwa [runTo_link, runTo_replayMax])

end Sys2Proof.Proofs
end

section
/-! PROOFS. What a received flit does (15_wilotte_link.md R389-R393, R398, R401, R402): the flit on its way to the meaning of its
type, and that meaning. -/

namespace Sys2Proof.Proofs
open Sys2Proof Sys2Proof.Machine Sys2Proof.Laws

/-! ### What counting leaves alone -/

section Counting
variable (s : State) (n c k : Nat)

@[simp] theorem lcnt_link (m : Nat) : (s.lcnt n c k).link m = s.link m := by
  unfold State.lcnt
  split <;> rfl

@[simp] theorem lcnt_ac (f : Fld) (i j l : Nat) : (s.lcnt n c k).ac f i j l = s.ac f i j l := by
  unfold State.lcnt
  split <;> rfl

@[simp] theorem lcnt_replayMax (m : Nat) : (s.lcnt n c k).replayMax m = s.replayMax m := by
  simp only [State.replayMax, lcnt_ac]

end Counting

/-! ### From the wire to the meaning of the flit's type -/

section Arrival
variable {s t : State} {n type : Nat} {bs : List Byte}

/-- A good flit that an ACTIVE link takes does what its type says, once its acknowledgement is taken. -/
theorem flitIn_active (h : s.flitIn4 t n bs type) (hk : 1 ≤ type ∧ type ≤ 5 ∧ type ≠ 4) :
    s.flitIn n bs true = t.flitAct n (flitOf bs) := by
  obtain ⟨hst, hgood, hlegal, htype, rfl⟩ := h
  obtain ⟨hlo, hhi, hne⟩ := hk
  have hknown : ¬(type = 0 ∨ 6 ≤ type) := by omega
  simp [State.flitIn, State.flitRx, hst, hgood, hlegal, htype, hknown, hne]

theorem flitIn4_type (h : s.flitIn4 t n bs type) : (flitOf bs).type = type := h.2.2.2.1

/-- A flit that fails its check is a lost one: while its codewords are correctable it only makes a NAK due (R389, R392). -/
theorem flitIn_failed (hst : (s.link n).state = 4) (hbad : flitGood bs true = false) (hfec : (s.link n).fecBad.length ≤ 16) :
    s.flitIn n bs true = ((s.lcnt n 1).lcnt n 2).wantNak n := by
  simp [State.flitIn, State.flitRx, State.flitLost, hst, hbad, Nat.not_lt.mpr hfec]

theorem flitIn_illegal (hst : (s.link n).state = 4) (hgood : flitGood bs true = true) (hlo : 1 ≤ (flitOf bs).type)
    (hhi : (flitOf bs).type ≤ 5) (hill : flitIllegal bs = true) : s.flitIn n bs true = ((s.lcnt n 1).lcnt n 15).linkDown n 5 := by
  have hknown : ¬((flitOf bs).type = 0 ∨ 6 ≤ (flitOf bs).type) := by omega
  simp [State.flitIn, State.flitRx, State.linkProtocol, hst, hgood, hknown, hill]

end Arrival

/-! ### DATA and NAK (R392, R393) -/

section Active
variable {t : State} {n : Nat} {f : Flit}

theorem flitAct_data (h : f.type = 1) :
    t.flitAct n f = if n < 8 then (t.dataFlit n f).dropMalformed n else (t.dataFlit n f).pairMalformed n := by
  simp [State.flitAct, h]

theorem flitAct_ctrl (h : f.type = 2) : t.flitAct n f = t := by simp [State.flitAct, h]

theorem flitAct_nak (h : f.type = 3) : t.flitAct n f = t.nakRx n f := by simp [State.flitAct, h]

theorem flitAct_down (h : f.type = 5) : t.flitAct n f = t.linkDown n 4 := by simp [State.flitAct, h]

/-- The expected flit is taken into its channel's stream. -/
theorem dataFlit_expected {x : Link} (hseq : f.seq = (t.link n).expect)
    (hx : takeUnits (8 ≤ n) f.vc f.bad 16 (f.payload.take (16 * f.units)) (t.link n) = some x) :
    t.dataFlit n f = t.setLink n { x with expect := ((t.link n).expect + 1) % 4096, nakSent := false, nakDue := false, rxq := x.rxq.map (fun e => if (t.link n).rxq.any (·.1 == e.1) then e else (e.1, { e.2 with at_ := t.time.ft })) } := by
  simp only [State.dataFlit, hseq, if_true, hx]

theorem dataFlit_accepted (hseq : before12 f.seq (t.link n).expect = true) : t.dataFlit n f = t.lcnt n 7 := by
  have hne : f.seq ≠ (t.link n).expect := fun e => by
    simp only [e, before12, Bool.and_eq_true, decide_eq_true_eq] at hseq
    omega
  simp [State.dataFlit, hne, hseq]

theorem dataFlit_beyond (hne : f.seq ≠ (t.link n).expect) (hseq : before12 f.seq (t.link n).expect = false)
    (hnak : (t.link n).nakSent = false) :
    t.dataFlit n f = (t.lcnt n 7).setLink n { t.link n with nakSent := true, nakDue := true } := by
  simp [State.dataFlit, State.wantNak, State.modLink, hne, hseq, hnak]

theorem nakRx_held (hheld : (t.link n).held.any (·.seq == f.seq) = true) (hrep : (t.link n).replay = none)
    (hleft : (t.link n).replays < t.replayMax n) :
    t.nakRx n f =
      ((t.lcnt n 6).setLink n { t.link n with replay := some f.seq, replays := (t.link n).replays + 1 }).lcnt n 8 := by
  have hstart := startReplay_left (s := t.lcnt n 6) f.seq (by rwa [lcnt_link, lcnt_replayMax])
  rw [lcnt_link] at hstart
  simp [State.nakRx, hheld, hrep, hstart]

theorem nakRx_gone (hheld : (t.link n).held.any (·.seq == f.seq) = false) : t.nakRx n f = (t.lcnt n 6).lcnt n 10 := by
  simp only [State.nakRx, lcnt_link, hheld, Bool.not_false, if_true]

end Active

/-! ### TRAIN (R401) -/

section Train
variable {s t : State} {n : Nat} {bs : List Byte}

theorem flitIn_config (fecOk : Bool) (hst : (s.link n).state = 3) : s.flitIn n bs fecOk = s.trainRx n bs fecOk := if_pos hst

/-- A valid TRAIN flit records the partner and its offers. -/
theorem trainRx_valid (hn : n < 8) (hst : (s.link n).state = 3) (hgood : flitGood bs true = true) (htype : (flitOf bs).type = 4)
    (hver : fieldLE (flitOf bs).payload 0 2 = 1) (hrole : fieldLE (flitOf bs).payload 2 1 = 1)
    (hcr : offersOk (trainOffers (flitOf bs).payload) = true) :
    s.trainRx n bs true =
      (let p := (flitOf bs).payload
       let o := trainOffers p
       let t := (s.lcnt n 1).modLink n (fun l => { l with seen := true, seenRx := if bit (fieldLE p 3 1) 0 then l.seenRx + 1 else 0, offer := (o.zipIdx.map (fun p => (p.2, p.1))).filter (fun p => p.2 != 0) })
       (((((t.wr R.WLK_PARTNER_ID_id (fieldLE p 8 8) n).wr R.WLK_PARTNER_CR_vc0 (o.getD 0 0) n).wr R.WLK_PARTNER_CR_vc1 (o.getD 1 0)
         n).wr R.WLK_PARTNER_CR_vc2 (o.getD 2 0) n).wr R.WLK_PARTNER_CR_vc3 (o.getD 3 0) n).linkActive n) := by
  simp [State.trainRx, hst, hgood, htype, hver, hrole, hcr, hn, Nat.not_le.mpr hn]

/-- A TRAIN flit of another version is refused; that was reported before (R401). -/
theorem trainRx_otherVersion (hn : n < 8) (hst : (s.link n).state = 3) (hev : (s.link n).refusedEv = true)
    (hgood : flitGood bs true = true) (htype : (flitOf bs).type = 4) (hver : fieldLE (flitOf bs).payload 0 2 ≠ 1)
    (hcr : offersOk (trainOffers (flitOf bs).payload) = true) :
    s.trainRx n bs true = ((s.lcnt n 1).modLink n (fun l => { l with seenRx := 0 })).raise R.WLK_STATUS_version_mismatch n := by
  simp [State.trainRx, hst, hev, hgood, htype, hver, hcr, hn]

end Train

/-! ### The obligation -/

/-- A command that brings a flit, in a released main domain. -/
theorem gives_flitIn {i : Instr} {s t : State} {n : Nat} {bs : List Byte}
    (hi : exec i s = s.whenMain (fun s => (s.flitIn n bs true).drainDue)) (hup : s.mainUp = true) (h : s.flitIn n bs true = t) :
    Gives i s t.drainDue := hi.trans (whenMain_released hup (congrArg State.drainDue h))

/-- A flit that an ACTIVE link takes, by what its type does. -/
theorem gives_flitAct {i : Instr} {s t u : State} {n type : Nat} {bs : List Byte}
    (hi : exec i s = s.whenMain (fun s => (s.flitIn n bs true).drainDue)) (hup : s.mainUp = true) (hin : s.flitIn4 t n bs type)
    (hk : 1 ≤ type ∧ type ≤ 5 ∧ type ≠ 4) (h : t.flitAct n (flitOf bs) = u) : Gives i s u.drainDue :=
  gives_flitIn hi hup ((flitIn_active hin hk).trans h)

/-- Settles O26: the flit reaches the meaning of its type, or is lost or refused before, and each meaning goes by the number, the
held flits or the partner's offers. -/
theorem linkReception : Obligations.LinkReception := by
  unfold Obligations.LinkReception
  refine ⟨?expected, ?accepted, ?beyond, ?failed, ?ctrl, ?nak, ?nakGone, ?illegal, ?down, ?train, ?trainVersion⟩
  case expected =>
    intro s t n bs x hup hin hseq hx
    refine gives_flitAct rfl hup hin (by decide) ?_
    rw [flitAct_data (flitIn4_type hin), dataFlit_expected hseq hx]
  case accepted =>
    intro s t n bs hup hin hseq
    refine gives_flitAct rfl hup hin (by decide) ?_
    rw [flitAct_data (flitIn4_type hin), dataFlit_accepted hseq]
  case beyond =>
    intro s t n bs hup hin hne hseq hnak
    refine gives_flitAct rfl hup hin (by decide) ?_
    rw [flitAct_data (flitIn4_type hin), dataFlit_beyond hne hseq hnak]
  case failed => exact fun s n bs hup hst hbad hfec => gives_flitIn rfl hup (flitIn_failed hst hbad hfec)
  case ctrl =>
    exact fun s t n bs hup hin => gives_flitAct rfl hup hin (by decide) (flitAct_ctrl (flitIn4_type hin))
  case nak =>
    intro s t n bs hup hin hheld hrep hleft
    exact gives_flitAct rfl hup hin (by decide) ((flitAct_nak (flitIn4_type hin)).trans (nakRx_held hheld hrep hleft))
  case nakGone =>
    intro s t n bs hup hin hheld
    exact gives_flitAct rfl hup hin (by decide) ((flitAct_nak (flitIn4_type hin)).trans (nakRx_gone hheld))
  case illegal =>
    exact fun s n bs hup hst hgood hlo hhi hill => gives_flitIn rfl hup (flitIn_illegal hst hgood hlo hhi hill)
  case down =>
    exact fun s t n bs hup hin => gives_flitAct rfl hup hin (by decide) (flitAct_down (flitIn4_type hin))
  case train =>
    rintro s _ n bs _ _ hup hn hst hgood htype rfl hver hrole rfl hcr rfl
    exact gives_flitIn rfl hup ((flitIn_config true hst).trans (trainRx_valid hn hst hgood htype hver hrole hcr))
  case trainVersion =>
    rintro s _ n bs _ hup hn hst hev hgood htype rfl hver hcr rfl
    exact gives_flitIn rfl hup ((flitIn_config true hst).trans (trainRx_otherVersion hn hst hev hgood htype hver hcr))

end Sys2Proof.Proofs
end

section
/-! PROOFS. Transactions from a tenant module (16_tenant_sockets.md R406-R424, R432): what a socket does with the next received
transaction of each type, by the gate, the meters and what the transaction finds. -/

namespace Sys2Proof.Proofs
open Sys2Proof Sys2Proof.Machine Sys2Proof.Laws

section FromModule
variable {s t u : State} {n : Nat} {e : Nat × Txn}

/-! ### PKT (R406, R432) -/

theorem sockPkt_admitted (he : s.nextTxn n 0x01 = some e) (hgate : s.sockGate n = 0) (hmeter : s.meterHolds n 0 = false)
    (ht : ((s.meterCharge n 0 e.2.total).tskCnt n 0).leaveRx n e = t) (hbyp : t.on R.TSK_BYPASS_en n = false) :
    s.sockPkt n = t.toPipe n { data := e.2.body, src := 0x100 + n, stamp := t.now64, at_ := t.time.ft, bad := e.2.bad, slice := (t.sockSlice n).getD 0 } := by
  simp [State.sockPkt, he, hgate, hmeter, ht, hbyp]

/-- Counting in a socket does not change who serves its module. -/
theorem standby_tskCnt (c : Nat) : (s.tskCnt n c).standby n = s.standby n := by
  have hrole : (s.tskCnt n c).rd R.PAR_STATUS_role = s.rd R.PAR_STATUS_role :=
    rd_wr_other _ _ _ _ _ _ _ _ _ _ (by simp only [Fld.key, Fld.off, R.PAR_STATUS_role, R.TSK_CNT_count]; omega)
  have hdual : (s.tskCnt n c).ac R.PAR_CFG_dual = s.ac R.PAR_CFG_dual := rfl
  simp only [State.standby, hrole, hdual]

/-- Without an ACTIVE slice a PKT is counted twice, as received and as refused, and leaves the buffer. -/
theorem sockPkt_gated (he : s.nextTxn n 0x01 = some e) (hstandby : s.standby n = false) (hgate : s.sockGate n ≠ 0) :
    s.sockPkt n = ((s.tskCnt n 0).tskCnt n 13).leaveRx n e := by
  simp [State.sockPkt, State.gateCount, standby_tskCnt, he, hgate, hstandby]

/-! ### MWR and MRD (R410, R415) -/

theorem sockMwr_hbm {g : SockTgt} (he : s.nextTxn n 0x10 = some e) (hgate : s.sockGate n = 0) (hmeter : s.meterHolds n 1 = false)
    (hg : s.modTarget n e.2.arg e.2.len true = some g) (hhbm : g.hbm = true) :
    s.sockMwr n = ((((s.meterCharge n 1 e.2.total).tskCnt n 2).leaveRx n e).hbmWrite g.addr e.2.body e.2.bad).1 := by
  simp [State.sockMwr, he, hgate, hmeter, hg, hhbm]

theorem sockMwr_noWindow (he : s.nextTxn n 0x10 = some e) (hgate : s.sockGate n = 0) (hmeter : s.meterHolds n 1 = false)
    (hg : s.modTarget n e.2.arg e.2.len true = none) :
    s.sockMwr n = (((s.meterCharge n 1 e.2.total).tskCnt n 2).leaveRx n e).noWindow n 1 e.2.arg := by
  simp [State.sockMwr, he, hgate, hmeter, hg]

theorem sockMrd_hbm {g : SockTgt} (he : s.nextTxn n 0x20 none true = some e) (hnew : (s.sock n).modRd.contains e.2.tag = false)
    (hroom : (s.sock n).modRd.length < max 1 (s.rd R.TSK_CFG_max_rd n)) (hgate : s.sockGate n = 0)
    (hmeter : s.meterHolds n 2 = false) (hg : s.modTarget n e.2.arg e.2.len false = some g) (hhbm : g.hbm = true)
    (ht : (((s.tskCnt n 3).setSock n { s.sock n with modRd := (s.sock n).modRd ++ [e.2.tag] }).leaveRx n e).meterCharge n 2
      (1 + (e.2.len + 15) / 16) = t) (hin : (t.hbmRead g.addr e.2.len).status ≠ St.mem_range) :
    s.sockMrd n =
      (let r := t.hbmRead g.addr e.2.len
       r.next.sendCpl n e.2.tag 0 r.data r.bad) := by
  have htake : (((s.tskCnt n 3).modSock n (fun k => { k with modRd := k.modRd ++ [e.2.tag] })).leaveRx n e).meterCharge n 2
      (1 + (e.2.len + 15) / 16) = t := ht
  simp only [State.sockMrd, he, hnew, hgate, hmeter, hg, hhbm, htake, hin, Nat.not_le.mpr hroom, Bool.false_eq_true, if_false, if_true,
    ne_eq, not_true_eq_false]

/-- A read whose tag is in use is counted and dropped (R414). -/
theorem sockMrd_tagInUse (he : s.nextTxn n 0x20 none true = some e) (hold : (s.sock n).modRd.contains e.2.tag = true) :
    s.sockMrd n = ((s.tskCnt n 3).tskCnt n 10).leaveRx n e := by
  simp only [State.sockMrd, he, hold, if_true]

/-! ### DB and INTR (R417) -/

theorem meterEvent_passes (h : s.meterHolds n 3 = false) : s.meterEvent n = some (s.meterCharge n 3 1) := by
  simp [State.meterEvent, h]

theorem sockDb_own {x : Ring} (he : s.nextTxn n 0x11 none true = some e) (ht : s.leaveRx n e = t) (hgate : t.sockGate n = 0)
    (hmeter : t.meterHolds n 3 = false) (hu : t.meterCharge n 3 1 = u) (hr : u.ring e.2.tag = some x)
    (hx : u.sockSlice n = some x.slice) : s.sockDb n = u.doorbell e.2.tag e.2.arg := by
  simp [State.sockDb, he, ht, hgate, meterEvent_passes hmeter, hu, hr, hx]

theorem sockDb_noRing (he : s.nextTxn n 0x11 none true = some e) (ht : s.leaveRx n e = t) (hgate : t.sockGate n = 0)
    (hmeter : t.meterHolds n 3 = false) (hu : t.meterCharge n 3 1 = u) (hr : u.ring e.2.tag = none) :
    s.sockDb n = u.tskCnt n 11 := by
  simp [State.sockDb, he, ht, hgate, meterEvent_passes hmeter, hu, hr]

theorem sockIntr_fires {x fn : Nat} (he : s.nextTxn n 0x12 none true = some e) (ht : s.leaveRx n e = t) (hgate : t.sockGate n = 0)
    (hmeter : t.meterHolds n 3 = false) (hu : t.meterCharge n 3 1 = u) (hx : u.sockSlice n = some x) (hfn : u.sliceFn x = some fn)
    (hcount : e.2.tag < u.rd R.TSK_INTR_CFG_count n) (hvec : t.rd R.TSK_INTR_CFG_base n + e.2.tag < u.msixCount fn) :
    s.sockIntr n = u.msixFire fn (t.rd R.TSK_INTR_CFG_base n + e.2.tag) := by
  simp [State.sockIntr, he, ht, hgate, meterEvent_passes hmeter, hu, hx, hfn, hcount, hvec]

/-! ### Answers of the module (R416, R420, R423) -/

theorem sockRsp_slot {v : Nat} {x : Vol} {c : StqCmd} (he : s.nextTxn n 0x14 none true = some e) (hgate : s.sockGate n = 0)
    (hmeter : s.meterHolds n 1 = false) (ht : (s.meterCharge n 1 1).leaveRx n e = t) (hc : t.slotCmd n e.2.tag = some (v, x, c)) :
    s.sockRsp n = t.stqAnswer { vol := v, slot := e.2.tag, status := e.2.status } := by
  simp [State.sockRsp, he, hgate, hmeter, ht, hc]

/-- A CPL of the length asked for, in time and without an error, ends its read. -/
theorem sockCpl_inTime {r : SockRd} (he : s.nextTxn n 0x30 = some e) (ht : s.leaveRx n e = t)
    (hr : (t.sock n).rds.find? (·.tag == e.2.tag) = some r) (htime : t.time.ft < r.issued + t.rdTimeout n) (hst : e.2.status = 0)
    (hlen : e.2.len = r.len) : s.sockCpl n = t.readDone n r e.2.body e.2.bad 0 := by
  simp [State.sockCpl, he, ht, hr, hst, hlen, Nat.not_le.mpr htime]

theorem sockCpl_noRead (he : s.nextTxn n 0x30 = some e) (ht : s.leaveRx n e = t)
    (hr : (t.sock n).rds.find? (·.tag == e.2.tag) = none) : s.sockCpl n = t.tskCnt n 8 := by
  simp only [State.sockCpl, he, ht, hr]

theorem sockRdTimeout_outstanding {tag : Nat} {r : SockRd} (hr : (s.sock n).rds.find? (·.tag == tag) = some r) :
    s.sockRdTimeout n tag =
      ((s.runTo (r.issued + s.rdTimeout n)).tskCnt n 8).readDone n r [] false St.tsk_rd_timeout := by
  simp only [State.sockRdTimeout, hr]

/-- An ACK of a message that was no power notice is matched with it. -/
theorem sockAck_matched {a : Nat × Nat} (he : s.nextTxn n 0x31 (some 0x80) = some e) (ht : s.leaveRx n e = t)
    (ha : (t.sock n).acks.find? (·.1 == e.2.tag) = some a) (hkind : a.2 ≠ 2) :
    s.sockAck n = t.setSock n { t.sock n with acks := (t.sock n).acks.erase a, quiesced := (t.sock n).quiesced || a.2 == 3 } := by
  simp [State.sockAck, State.modSock, he, ht, ha, hkind]

theorem sockAlert_slice {x : Nat} (he : s.nextTxn n 0x31 (some 4) = some e) (ht : s.leaveRx n e = t) (hmeter : t.meterHolds n 3 = false)
    (hx : (t.meterCharge n 3 1).sockSlice n = some x) :
    s.sockAlert n =
      (t.meterCharge n 3 1).sliceEvent 0xE n 8 x (leBytes 2 e.2.status ++ leBytes 6 0 ++ leBytes 8 e.2.arg) := by
  simp [State.sockAlert, he, ht, meterEvent_passes hmeter, hx]

/-! ### Meters (R424) -/

theorem meterRelease_pkt (h : s.meterHolds n 0 = true) :
    s.meterRelease n 0 =
      (s.runTo (s.time.ft + ((-(s.meterLevel n 0)).toNat / meterRate 0 (s.meterCfg n 0).1 + 1) * unitsPerNs)).sockPkt n := by
  simp [State.meterRelease, h]

end FromModule

/-! ### The obligation -/

/-- A target whose slice, kind and address are known. -/
theorem modTarget_of_map {o : Option SockTgt} {x a : Nat}
    (h : o.map (fun g => (g.slice, g.hbm, g.addr)) = some (x, true, a)) : ∃ g, o = some g ∧ g.hbm = true ∧ g.addr = a := by
  obtain ⟨g, hg, hxa⟩ := Option.map_eq_some_iff.mp h
  simp only [Prod.mk.injEq] at hxa
  exact ⟨g, hg, hxa.2⟩

/-- Settles O28: in a released main domain each command is its socket's reception, which goes by the transaction it finds. -/
theorem moduleTransactions : Obligations.ModuleTransactions := by
  unfold Obligations.ModuleTransactions
  refine ⟨?pkt, ?pktGated, ?mwr, ?mwrNoWindow, ?mrd, ?mrdTag, ?doorbell, ?doorbellNoRing, ?intr, ?rsp, ?cpl, ?cplNoRead,
    ?timeout, ?ack, ?alert, ?release⟩
  case pkt =>
    exact fun s n e hup he hgate hmeter hbyp =>
      whenMain_released (f := (·.sockPkt n)) hup (sockPkt_admitted he hgate hmeter rfl hbyp)
  case pktGated =>
    exact fun s n e hup he hstandby hgate =>
      whenMain_released (f := (·.sockPkt n)) hup (sockPkt_gated he hstandby hgate)
  case mwr =>
    intro s n e x a hup he hgate hmeter hmap
    obtain ⟨g, hg, hhbm, rfl⟩ := modTarget_of_map hmap
    exact whenMain_released (f := (·.sockMwr n)) hup (sockMwr_hbm he hgate hmeter hg hhbm)
  case mwrNoWindow =>
    exact fun s n e hup he hgate hmeter hg =>
      whenMain_released (f := (·.sockMwr n)) hup (sockMwr_noWindow he hgate hmeter (Option.isNone_iff_eq_none.mp hg))
  case mrd =>
    rintro s _ n e x a hup he hnew hroom hgate hmeter hmap rfl hin
    obtain ⟨g, hg, hhbm, rfl⟩ := modTarget_of_map hmap
    exact whenMain_released (f := (·.sockMrd n)) hup (sockMrd_hbm he hnew hroom hgate hmeter hg hhbm rfl hin)
  case mrdTag => exact fun s n e hup he hold => whenMain_released (f := (·.sockMrd n)) hup (sockMrd_tagInUse he hold)
  case doorbell =>
    rintro s _ _ n e x hup he rfl hgate hmeter rfl hr hx
    exact whenMain_released (f := (·.sockDb n)) hup (sockDb_own he rfl hgate hmeter rfl hr hx)
  case doorbellNoRing =>
    rintro s _ _ n e hup he rfl hgate hmeter rfl hr
    exact whenMain_released (f := (·.sockDb n)) hup (sockDb_noRing he rfl hgate hmeter rfl hr)
  case intr =>
    rintro s _ _ n e x fn _ hup he rfl hgate hmeter rfl hx hfn rfl hcount hvec
    exact whenMain_released (f := (·.sockIntr n)) hup (sockIntr_fires he rfl hgate hmeter rfl hx hfn hcount hvec)
  case rsp =>
    rintro s _ n e v x c hup he hgate hmeter rfl hc
    exact whenMain_released (f := (·.sockRsp n)) hup (sockRsp_slot he hgate hmeter rfl hc)
  case cpl =>
    rintro s _ n e r hup he rfl hr htime hst hlen
    exact whenMain_released (f := fun s => (s.sockCpl n).drainDue) hup
      (congrArg State.drainDue (sockCpl_inTime he rfl hr htime hst hlen))
  case cplNoRead =>
    rintro s _ n e hup he rfl hr
    exact whenMain_released (f := fun s => (s.sockCpl n).drainDue) hup (congrArg State.drainDue (sockCpl_noRead he rfl hr))
  case timeout =>
    exact fun s n tag r hup hr => whenMain_released (f := fun s => (s.sockRdTimeout n tag).drainDue) hup
      (congrArg State.drainDue (sockRdTimeout_outstanding hr))
  case ack =>
    rintro s _ n e a hup he rfl ha hkind
    exact whenMain_released (f := (·.sockAck n)) hup (sockAck_matched he rfl ha hkind)
  case alert =>
    rintro s _ n e x hup he rfl hmeter hx
    exact whenMain_released (f := (·.sockAlert n)) hup (sockAlert_slice he rfl hmeter hx)
  case release => exact fun s n hup h => whenMain_released (f := (·.meterRelease n 0)) hup (meterRelease_pkt h)

end Sys2Proof.Proofs
end

section
/-! PROOFS. Writes of command registers: the word that a write of some fields of a register puts, what its fields hold, and
the write of a register in service as its block's own write (00_scope.md R15; 21_management.md R525). -/

namespace Sys2Proof.Proofs
open Sys2Proof Sys2Proof.Machine Sys2Proof.Laws

/-! ### The fields of a word -/

/-- Two fields of a register that share no bit. -/
def apart (f g : Fld) : Bool := f.lo + f.wd ≤ g.lo || g.lo + g.wd ≤ f.lo

theorem part_eq (f : Fld) (v : Nat) (hf : 0 < f.wd) : part f v = v / 2 ^ f.lo % 2 ^ f.wd := by
  have hwd : f.lo + f.wd - 1 - f.lo + 1 = f.wd := by omega
  rw [part, bits, hwd]

theorem has_eq (f : Fld) (v : Nat) : has f v = (part f v != 0) := rfl

theorem bit_eq_div (v i : Nat) : bit v i = (v / 2 ^ i % 2 == 1) := by
  rw [bit_eq_testBit, Nat.testBit_eq_decide_div_mod_eq]; rfl

/-- A value with a field replaced: what lies below the field, the field, and what lies above it. -/
theorem showFld_eq (v : Nat) (f : Fld) (x : Nat) (hf : 0 < f.wd) :
    showFld v f x = v % 2 ^ f.lo + 2 ^ f.lo * (x % 2 ^ f.wd + 2 ^ f.wd * (v / 2 ^ f.lo / 2 ^ f.wd)) := by
  have hpart : bits v (f.lo + f.wd - 1) f.lo = v / 2 ^ f.lo % 2 ^ f.wd := part_eq f v hf
  have hlow := Nat.mod_add_div v (2 ^ f.lo)
  have hhigh := congrArg (2 ^ f.lo * ·) (Nat.mod_add_div (v / 2 ^ f.lo) (2 ^ f.wd))
  simp only [Nat.mul_add] at hhigh
  rw [showFld, putFld, hpart, Nat.mul_add, Nat.mul_comm (_ % _), Nat.mul_comm (_ % _)]
  omega

/-- A field that has been written holds what was written. -/
theorem part_showFld_same (v : Nat) (f : Fld) (x : Nat) (hf : 0 < f.wd) : part f (showFld v f x) = x % 2 ^ f.wd := by
  rw [part_eq f _ hf, showFld_eq v f x hf, Nat.add_mul_div_left _ _ (Nat.two_pow_pos _),
    Nat.div_eq_of_lt (Nat.mod_lt _ (Nat.two_pow_pos _)), Nat.zero_add, Nat.add_mul_mod_self_left, Nat.mod_mod]

/-- What lies above a field stays as it was when the field is written. -/
theorem showFld_div_above (v : Nat) (f : Fld) (x n : Nat) (hf : 0 < f.wd) (h : f.lo + f.wd ≤ n) :
    showFld v f x / 2 ^ n = v / 2 ^ n := by
  have hw := Nat.two_pow_pos f.wd
  have hl := Nat.two_pow_pos f.lo
  obtain ⟨d, rfl⟩ := Nat.exists_eq_add_of_le h
  rw [showFld_eq v f x hf, Nat.pow_add, Nat.pow_add, ← Nat.div_div_eq_div_mul, ← Nat.div_div_eq_div_mul,
    Nat.add_mul_div_left _ _ hl, Nat.div_eq_of_lt (Nat.mod_lt _ hl), Nat.zero_add, Nat.add_mul_div_left _ _ hw,
    Nat.div_eq_of_lt (Nat.mod_lt _ hw), Nat.zero_add, ← Nat.div_div_eq_div_mul, ← Nat.div_div_eq_div_mul]

/-- What lies below a field stays as it was when the field is written. -/
theorem showFld_mod_below (v : Nat) (f : Fld) (x n : Nat) (hf : 0 < f.wd) (h : n ≤ f.lo) :
    showFld v f x % 2 ^ n = v % 2 ^ n := by
  obtain ⟨d, hd⟩ := Nat.exists_eq_add_of_le h
  have hdvd : v % 2 ^ f.lo % 2 ^ n = v % 2 ^ n := Nat.mod_mod_of_dvd _ (Nat.pow_dvd_pow 2 h)
  rw [showFld_eq v f x hf]
  conv_lhs => rw [hd, Nat.pow_add, Nat.mul_assoc, Nat.add_mul_mod_self_left, ← Nat.pow_add, ← hd]
  exact hdvd

/-- The low bits of a value settle every field among them. -/
theorem part_congr_mod (f : Fld) (v w n : Nat) (hf : 0 < f.wd) (h : f.lo + f.wd ≤ n) (heq : v % 2 ^ n = w % 2 ^ n) :
    part f v = part f w := by
  have hdvd : 2 ^ (f.lo + f.wd) ∣ 2 ^ n := Nat.pow_dvd_pow 2 h
  have hlow : v % 2 ^ (f.lo + f.wd) = w % 2 ^ (f.lo + f.wd) := by
    rw [← Nat.mod_mod_of_dvd v hdvd, ← Nat.mod_mod_of_dvd w hdvd, heq]
  have hdiv (u : Nat) : u / 2 ^ f.lo % 2 ^ f.wd = u % 2 ^ (f.lo + f.wd) / 2 ^ f.lo := by
    rw [Nat.pow_add, Nat.mod_mul_right_div_self]
  rw [part_eq f v hf, part_eq f w hf, hdiv, hdiv, hlow]

theorem part_mod (f : Fld) (v n : Nat) (hf : 0 < f.wd) (h : f.lo + f.wd ≤ n) : part f (v % 2 ^ n) = part f v :=
  part_congr_mod f _ v n hf h (Nat.mod_mod _ _)

/-- A write of one field leaves every other. -/
theorem part_showFld_other (v : Nat) (f g : Fld) (x : Nat) (hf : 0 < f.wd) (hg : 0 < g.wd) (h : apart f g = true) :
    part g (showFld v f x) = part g v := by
  simp only [apart, Bool.or_eq_true, decide_eq_true_eq] at h
  rcases h with habove | hbelow
  · rw [part_eq g _ hg, part_eq g _ hg, showFld_div_above v f x g.lo hf habove]
  · exact part_congr_mod g _ _ f.lo hg hbelow (showFld_mod_below v f x f.lo hf (Nat.le_refl _))

/-- A bit of a value is the field of width 1 that stands there. -/
theorem bit_eq_part (v : Nat) (f : Fld) (hf : f.wd = 1) : bit v f.lo = (part f v == 1) := by
  rw [bit_eq_div, part_eq f v (by omega), hf, Nat.pow_one]

/-! ### The word of a command -/

section Word
variable {s : State} {req : Req} {code : Nat} {r : RegDef} {n i j k : Nat}

/-- The value with which a command writes the element of an array of registers. -/
def elemWord (s : State) (r : RegDef) (fs : List (Fld × Nat)) (i j k : Nat) : Nat :=
  fs.foldl (fun v p => showFld v p.1 p.2) (s.image r i j k) % 2 ^ r.width

theorem part_foldl_other (g : Fld) (hg : 0 < g.wd) (fs : List (Fld × Nat)) (v : Nat)
    (h : ∀ p ∈ fs, 0 < p.1.wd ∧ apart p.1 g = true) :
    part g (fs.foldl (fun v p => showFld v p.1 p.2) v) = part g v :=
  List.foldlRecOn fs _ (motive := fun w => part g w = part g v) rfl
    fun _ hw p hp => (part_showFld_other _ p.1 g p.2 (h p hp).1 hg (h p hp).2).trans hw

/-- A field that a command does not name keeps what the register held. -/
theorem part_elemWord_other (fs : List (Fld × Nat)) (g : Fld) (hg : 0 < g.wd) (hr : g.lo + g.wd ≤ r.width)
    (h : ∀ p ∈ fs, 0 < p.1.wd ∧ apart p.1 g = true) : part g (elemWord s r fs i j k) = part g (s.image r i j k) :=
  (part_mod g _ r.width hg hr).trans (part_foldl_other g hg fs _ h)

/-- Fields that a command may name together: each has a bit and lies within the register, and no two share one. -/
def fieldsOk (r : RegDef) : List (Fld × Nat) → Bool
  | [] => true
  | p :: ps => (decide (0 < p.1.wd) && decide (p.1.lo + p.1.wd ≤ r.width) && ps.all (fun q => decide (0 < q.1.wd) && apart q.1 p.1))
      && fieldsOk r ps

theorem part_foldl_mem {fs : List (Fld × Nat)} {g : Fld} {x : Nat} (hok : fieldsOk r fs = true) (hm : (g, x) ∈ fs) (v : Nat) :
    part g (fs.foldl (fun v p => showFld v p.1 p.2) v) = x % 2 ^ g.wd := by
  induction fs generalizing v with
  | nil => cases hm
  | cons p ps ih =>
    simp only [fieldsOk, Bool.and_eq_true, decide_eq_true_eq, List.all_eq_true] at hok
    obtain ⟨⟨⟨hwd, -⟩, hapart⟩, hrest⟩ := hok
    rcases List.mem_cons.1 hm with rfl | hin
    · exact (part_foldl_other g hwd ps _ hapart).trans (part_showFld_same v g x hwd)
    · exact ih hrest hin _

theorem fieldsOk_mem {fs : List (Fld × Nat)} {p : Fld × Nat} (hok : fieldsOk r fs = true) (hm : p ∈ fs) :
    0 < p.1.wd ∧ p.1.lo + p.1.wd ≤ r.width := by
  induction fs with
  | nil => cases hm
  | cons q qs ih =>
    simp only [fieldsOk, Bool.and_eq_true, decide_eq_true_eq] at hok
    obtain ⟨⟨hq, -⟩, hrest⟩ := hok
    rcases List.mem_cons.1 hm with rfl | hin
    · exact hq
    · exact ih hrest hin

/-- A field that a command names holds its value. -/
theorem part_elemWord {fs : List (Fld × Nat)} {g : Fld} {x : Nat} (hok : fieldsOk r fs = true) (hm : (g, x) ∈ fs) :
    part g (elemWord s r fs i j k) = x % 2 ^ g.wd :=
  (part_mod g _ r.width (fieldsOk_mem hok hm).1 (fieldsOk_mem hok hm).2).trans (part_foldl_mem hok hm _)

/-- A bit that a command names stands as it was named. -/
theorem bit_elemWord {fs : List (Fld × Nat)} {g : Fld} {b : Bool} (hok : fieldsOk r fs = true) (hm : (g, b2n b) ∈ fs)
    (hg : g.wd = 1) : bit (elemWord s r fs i j k) g.lo = b := by
  rw [bit_eq_part _ g hg, part_elemWord hok hm, hg]
  cases b <;> rfl

theorem has_elemWord {fs : List (Fld × Nat)} {g : Fld} {b : Bool} (hok : fieldsOk r fs = true) (hm : (g, b2n b) ∈ fs)
    (hg : g.wd = 1) : has g (elemWord s r fs i j k) = b := by
  rw [has_eq, part_elemWord hok hm, hg]
  cases b <;> rfl

/-! ### Writes of registers in service -/

/-- A write of a register in service that the block turns into `t`, and what follows every register write. -/
theorem wrReg_block {t : State} (v : Nat) (h : s.takes req code n r i) (hw : r.flds.any Fld.writable = true)
    (hv : v < 2 ^ r.width) (ht : s.blockWr req (blkOf code) n r i j k v = t) : s.wrReg req code r v n i j k = t.after := by
  rw [wrReg_takes s req code r v n i j k h hw, Nat.mod_eq_of_lt hv, ht]

/-- A write of some fields of a register in service, likewise. -/
theorem wrFlds_block {t : State} (fs : List (Fld × Nat)) (h : s.takes req code n r i) (hw : r.flds.any Fld.writable = true)
    (ht : s.blockWr req (blkOf code) n r i j k (elemWord s r fs i j k) = t) :
    s.wrFlds req code r fs n i j k = t.after := by
  rw [State.wrFlds, wrReg_takes s req code r _ n i j k h hw]
  exact congrArg State.after ht

/-- What a command stores is its word. -/
theorem cmdPut_eq (fs : List (Fld × Nat)) : s.cmdPut r fs i j k = s.putReg false r i j k (elemWord s r fs i j k) := rfl

end Word

end Sys2Proof.Proofs
end

section
/-! PROOFS. Volumes: creation, changes, restart and removal (14_storage_queues.md R362, R364, R382). -/

namespace Sys2Proof.Proofs
open Sys2Proof Sys2Proof.Machine Sys2Proof.Laws

section StqCommand
variable {s t : State} {req : Req} {op : Nat} {v : Fin 4096} {flush : Bool}

/-- The fields that a storage command names. -/
abbrev volFlds (op v : Nat) (flush : Bool) : List (Fld × Nat) :=
  [(R.STQ_CMD_go, 1), (R.STQ_CMD_op, op), (R.STQ_CMD_flush, b2n flush), (R.STQ_CMD_volume, v)]

/-- The word of a storage command. -/
abbrev volWord (s : State) (op v : Nat) (flush : Bool) : Nat := elemWord s R.reg_STQ_CMD (volFlds op v flush) 0 0 0

theorem volWord_go : bit (volWord s op v flush) 31 = true :=
  bit_elemWord (g := R.STQ_CMD_go) (b := true) rfl (by simp [b2n]) rfl

theorem volWord_flush : bit (volWord s op v flush) 27 = flush :=
  bit_elemWord (g := R.STQ_CMD_flush) rfl (by simp) rfl

theorem volWord_op (h : op < 8) : bits (volWord s op v flush) 30 28 = op :=
  (part_elemWord (g := R.STQ_CMD_op) (x := op) rfl (by simp)).trans (Nat.mod_eq_of_lt h)

theorem volWord_volume : bits (volWord s op v flush) 11 0 = v :=
  (part_elemWord (g := R.STQ_CMD_volume) (x := v) rfl (by simp)).trans (Nat.mod_eq_of_lt v.isLt)

/-- What a storage command that is not held up by another one does. -/
def volDo (t : State) (op v : Nat) (flush : Bool) : State :=
  match op with
  | 1 => t.volCreate v
  | 2 => t.volModify v
  | 3 => t.volRestart v flush
  | 4 => t.volDestroy v
  | 5 => t.volRead v
  | _ => t.volCmdDone St.stq_vol_state

theorem volDo_create (t : State) (v : Nat) : volDo t 1 v flush = t.volCreate v := rfl
theorem volDo_modify (t : State) (v : Nat) : volDo t 2 v flush = t.volModify v := rfl
theorem volDo_restart (t : State) (v : Nat) : volDo t 3 v flush = t.volRestart v flush := rfl
theorem volDo_destroy (t : State) (v : Nat) : volDo t 4 v flush = t.volDestroy v := rfl
theorem volDo_read (t : State) (v : Nat) : volDo t 5 v flush = t.volRead v := rfl

/-- A write of STQ_CMD is the storage queues' own. -/
theorem blockWr_stqCmd (w : Nat) : s.blockWr req (blkOf 0x0C) 0 R.reg_STQ_CMD 0 0 0 w = s.stqCmd w := rfl

theorem stqCmd_go {w : Nat} (hgo : bit w 31 = true)
    (hfree : (s.putReg false R.reg_STQ_CMD 0 0 0 w).on R.STQ_CMD_STATUS_busy = false) :
    s.stqCmd w = volDo (s.putReg false R.reg_STQ_CMD 0 0 0 w) (bits w 30 28) (bits w 11 0) (bit w 27) := by
  simp only [State.stqCmd, hgo, hfree]
  rfl

/-- A storage command in service is stored and begins, and what follows every register write follows. -/
theorem volOp_free (h : s.takes req 0x0C 0 R.reg_STQ_CMD) (hop : op < 8) (hfree : s.on R.STQ_CMD_STATUS_busy = false) :
    s.volOp req op v flush = (volDo (s.volPut op v flush) op v flush).after := by
  have hbusy : (s.volPut op v flush).on R.STQ_CMD_STATUS_busy = false :=
    (on_cmdPut_other R.reg_STQ_CMD _ R.STQ_CMD_STATUS_busy (by decide)).trans hfree
  have hcmd := stqCmd_go (s := s) volWord_go hbusy
  rw [volWord_op hop, volWord_volume, volWord_flush] at hcmd
  exact wrFlds_block _ h (by decide) ((blockWr_stqCmd _).trans hcmd)

end StqCommand

/-! ### What each command does -/

section VolumeCommand
variable {s t : State} {v : Nat} {x : Vol}

theorem volCreate_free (hstate : s.volState v = 0) (hx : x = { rcd := s.volStage, idleAt := s.time.ft })
    (hlegal : volLegal x.rcd = true) (hlog : s.elogPlace x = some t) (hslice : s.sliceActive x.slice = true)
    (hback : s.backendOk x = true) :
    s.volCreate v = (((((t.setVol v (some x)).wr R.STQ_VOL_STATE_state 1 v).sat R.STQ_STATUS_volumes).wr
      R.STQ_VOL_STATE_pstate 0 v).wr R.STQ_VOL_STATE_cause 0 v).volCmdDone 0 := by
  subst hx
  simp [State.volCreate, hstate, hlegal, hlog, hslice, hback]

theorem volCreate_used (hstate : s.volState v ≠ 0) : s.volCreate v = s.volCmdDone St.stq_vol_state := by
  simp [State.volCreate, hstate]

theorem volModify_frozen (hvol : s.vol v = some x) (hstate : s.volState v = 2)
    (hfixed : volFixed s.volStage = volFixed x.rcd) (hlegal : volLegal s.volStage = true) :
    s.volModify v = (s.setVol v (some { x with rcd := s.volStage })).volCmdDone 0 := by
  simp [State.volModify, hvol, hstate, hfixed, hlegal]

theorem volModify_notFrozen (hvol : s.vol v = some x) (hstate : s.volState v ≠ 2) :
    s.volModify v = s.volCmdDone St.stq_vol_state := by
  simp [State.volModify, hvol, hstate]

theorem volRestart_frozen (flush : Bool) (hstate : s.volState v = 2) : s.volRestart v flush =
    { s.raise R.STQ_CMD_STATUS_busy with stq := { s.stq with restart := some (v, flush) } } := by
  simp [State.volRestart, hstate]

theorem volDestroy_unused (hvol : s.vol v = some x) (hrings : s.volQueues v = []) (hcmds : x.cmds = []) :
    s.volDestroy v = (((((s.setVol v none).wr R.STQ_VOL_STATE_state 0 v).wr R.STQ_STATUS_volumes
      (s.rd R.STQ_STATUS_volumes - 1)).wr R.STQ_VOL_STATE_pstate 0 v).wr R.STQ_VOL_STATE_cause 0 v).volCmdDone 0 := by
  simp [State.volDestroy, hvol, hrings, hcmds]

theorem volDestroy_inFlight (hvol : s.vol v = some x) (hcmds : x.cmds ≠ []) :
    s.volDestroy v = s.volCmdDone St.stq_busy := by
  simp [State.volDestroy, hvol, hcmds]

theorem volRead_some (hvol : s.vol v = some x) : s.volRead v =
    ((List.range 8).foldl (fun s j => s.wr R.STQ_VOL_STAGE_rec (fieldLE x.rcd (8 * j) 8) j) s).volCmdDone 0 := by
  simp [State.volRead, hvol]

/-- With its commands ended, the volume under RESTART is ACTIVE again, with its power state and its cause reset (R382). -/
theorem restartResume_idle (hr : s.stq.restart = some (v, false)) (hvol : s.vol v = some x) (hcmds : x.cmds = [])
    (ht : t = ({ s with stq := { s.stq with restart := none } } : State).setVol v (some
      { x with wakeAt := none, wakeNote := none, wakeAcked := false, wakeFor := none, idleAt := s.time.ft })) :
    s.restartResume = ((((t.wr R.STQ_VOL_STATE_state 1 v).wr R.STQ_VOL_STATE_pstate 0 v).wr R.STQ_VOL_STATE_cause 0
      v).wr R.STQ_CMD_STATUS_busy 0).volCmdDone 0 := by
  have hvol' : ({ s with stq := { s.stq with restart := none } } : State).vol v = some x := hvol
  subst ht
  simp [State.restartResume, hr, hvol, hcmds, State.modVol, hvol']

end VolumeCommand

/-- Settles O23: a storage command in service is stored and begun, and what it begins is read off its one case. -/
theorem volumeControl : Obligations.VolumeControl := by
  have command (s : State) (req : Req) (op : Nat) (v : Fin 4096) (f : Bool) (u : State)
      (h : s.takes req 0x0C 0 R.reg_STQ_CMD) (hop : op < 8) (hfree : s.on R.STQ_CMD_STATUS_busy = false)
      (hdo : volDo (s.volPut op v f) op v f = u) : s.done (s.volOp req op v f) = .next (s.settle u.after) := by
    rw [volOp_free h hop hfree, hdo, done_eq]
  refine ⟨?create, ?createUsed, ?modify, ?modifyActive, ?restart, ?resume, ?destroy, ?destroyBusy, ?read⟩
  case create =>
    rintro s _ u req v x h rfl hfree hstate hx hlegal hlog hslice hback
    exact command s req 1 v false _ h (by decide) hfree ((volDo_create ..).trans (volCreate_free hstate hx hlegal hlog hslice hback))
  case createUsed =>
    rintro s _ req v h rfl hfree hstate
    exact command s req 1 v false _ h (by decide) hfree ((volDo_create ..).trans (volCreate_used hstate))
  case modify =>
    rintro s _ req v x h rfl hfree hvol hstate hfixed hlegal
    exact command s req 2 v false _ h (by decide) hfree ((volDo_modify ..).trans (volModify_frozen hvol hstate hfixed hlegal))
  case modifyActive =>
    rintro s _ req v x h rfl hfree hvol hstate
    exact command s req 2 v false _ h (by decide) hfree ((volDo_modify ..).trans (volModify_notFrozen hvol hstate))
  case restart =>
    rintro s _ req v f h rfl hfree hstate
    exact command s req 3 v f _ h (by decide) hfree ((volDo_restart ..).trans (volRestart_frozen f hstate))
  case resume =>
    exact fun s t v x hup hr hvol hcmds ht => whenMain_released (f := (·.restartResume)) hup (restartResume_idle hr hvol hcmds ht)
  case destroy =>
    rintro s _ req v x h rfl hfree hvol hrings hcmds
    exact command s req 4 v false _ h (by decide) hfree ((volDo_destroy ..).trans (volDestroy_unused hvol hrings hcmds))
  case destroyBusy =>
    rintro s _ req v x h rfl hfree hvol hcmds
    exact command s req 4 v false _ h (by decide) hfree ((volDo_destroy ..).trans (volDestroy_inFlight hvol hcmds))
  case read =>
    rintro s _ req v x h rfl hfree hvol
    exact command s req 5 v false _ h (by decide) hfree ((volDo_read ..).trans (volRead_some hvol))

end Sys2Proof.Proofs
end

section
/-! PROOFS. Test, fence and return of units, their drains and results (20_health_test.md R509-R516). -/

namespace Sys2Proof.Proofs
open Sys2Proof Sys2Proof.Machine Sys2Proof.Laws

section HltCommand
variable {s : State} {req : Req} {op : Nat} {kind : Fin 8} {index : Fin 128} {drain force : Bool}

/-- The fields that a unit command names. -/
abbrev unitFlds (op kind index : Nat) (drain force : Bool) : List (Fld × Nat) :=
  [(R.HLT_CMD_go, 1), (R.HLT_CMD_op, op), (R.HLT_CMD_drain, b2n drain), (R.HLT_CMD_force, b2n force), (R.HLT_CMD_kind, kind),
    (R.HLT_CMD_index, index)]

/-- The word of a unit command. -/
abbrev unitWord (s : State) (op kind index : Nat) (drain force : Bool) : Nat :=
  elemWord s R.reg_HLT_CMD (unitFlds op kind index drain force) 0 0 0

theorem unitWord_go : has R.HLT_CMD_go (unitWord s op kind index drain force) = true :=
  has_elemWord (b := true) rfl (by simp [b2n]) rfl

theorem unitWord_drain : has R.HLT_CMD_drain (unitWord s op kind index drain force) = drain :=
  has_elemWord rfl (by simp) rfl

theorem unitWord_force : has R.HLT_CMD_force (unitWord s op kind index drain force) = force :=
  has_elemWord rfl (by simp) rfl

theorem unitWord_op (h : op < 8) : part R.HLT_CMD_op (unitWord s op kind index drain force) = op :=
  (part_elemWord (x := op) rfl (by simp)).trans (Nat.mod_eq_of_lt h)

theorem unitWord_kind : part R.HLT_CMD_kind (unitWord s op kind index drain force) = kind :=
  (part_elemWord (x := kind) rfl (by simp)).trans (Nat.mod_eq_of_lt kind.isLt)

theorem unitWord_index : part R.HLT_CMD_index (unitWord s op kind index drain force) = index :=
  (part_elemWord (x := index) rfl (by simp)).trans (Nat.mod_eq_of_lt index.isLt)

/-- A write of HLT_CMD with go stores its word and begins the command. -/
theorem blockWr_hltCmd {w : Nat} (hgo : has R.HLT_CMD_go w = true) : s.blockWr req (blkOf 0x13) 0 R.reg_HLT_CMD 0 0 0 w =
    (s.putReg false R.reg_HLT_CMD 0 0 0 w).hltCmd (part R.HLT_CMD_kind w) (part R.HLT_CMD_index w) (part R.HLT_CMD_op w)
      (has R.HLT_CMD_drain w) (has R.HLT_CMD_force w) := if_pos hgo

/-- A unit command in service is stored and begins, and what follows every register write follows. -/
theorem unitOp_takes (h : s.takes req 0x13 0 R.reg_HLT_CMD) (hop : op < 8) : s.unitOp req op kind index drain force =
    ((s.unitPut op kind index drain force).hltCmd kind index op drain force).after := by
  have hcmd := blockWr_hltCmd (s := s) (req := req) (unitWord_go (s := s) (op := op) (kind := kind) (index := index)
    (drain := drain) (force := force))
  rw [unitWord_kind, unitWord_index, unitWord_op hop, unitWord_drain, unitWord_force] at hcmd
  exact wrFlds_block _ h (by decide) hcmd

end HltCommand

/-! ### What a command does -/

section UnitCommand
variable {s : State} {kind i op : Nat} {drain force : Bool}

/-- A command that its unit does not allow has no effect but its result. -/
theorem hltCmd_refused {st : Nat} (hst : st = s.hltCheck kind i op drain force) (hbad : st ≠ 0) :
    s.hltCmd kind i op drain force = s.hltResult kind i op st 0 := by
  subst hst
  simp [State.hltCmd, hbad]

/-- RETURN of an epoch unit ends its hold. -/
theorem hltCmd_hold (hcheck : s.hltCheck 6 i op drain force = 0) : s.hltCmd 6 i op drain force =
    (s.wr R.HLT_EPOCH_HELD_held (setBit (s.rd R.HLT_EPOCH_HELD_held (i / 64)) (i % 64) false) (i / 64)).hltResult 6 i op 0 0 := by
  simp [State.hltCmd, hcheck]

/-- The state with a command running. -/
abbrev withCmd (s : State) (kind i op : Nat) (force fenced : Bool) : State :=
  s.setCmds (s.hlt.cmds ++ [{ kind := kind, index := i, op := op, force := force, since := s.time.ft, wasFenced := fenced }])

/-- On a unit that is not FENCED the drain starts. -/
theorem hltCmd_drains (hcheck : s.hltCheck kind i op drain force = 0) (hk : kind ≠ 6) (hst : s.unitState kind i ≠ 4) :
    s.hltCmd kind i op drain force = (withCmd s kind i op force false).drainStart kind i := by
  have hfenced : (s.unitState kind i == 4) = false := by simpa using hst
  simp only [State.hltCmd, hcheck, hk, hfenced]
  rfl

/-- On a FENCED unit the test starts. -/
theorem hltCmd_tests (hcheck : s.hltCheck kind i op drain force = 0) (hk : kind ≠ 6) (hst : s.unitState kind i = 4) :
    s.hltCmd kind i op drain force = (withCmd s kind i op force true).testStart kind i := by
  simp [State.hltCmd, hcheck, hk, hst, withCmd]

/-- A FENCE that its unit allows finds it not FENCED. -/
theorem unitState_of_fenceAllowed (hcheck : s.hltCheck kind i 2 drain force = 0) : s.unitState kind i ≠ 4 := by
  intro hst
  have hbad : St.hlt_unit ≠ 0 := by decide
  dsimp only [State.hltCheck] at hcheck
  split at hcheck
  · exact hbad hcheck
  split at hcheck
  · exact hbad hcheck
  split at hcheck
  · exact hbad hcheck
  exact hbad ((if_pos ⟨rfl, hst⟩).symm.trans hcheck)

theorem drainStart_plain (hk : kind ≠ 2 ∧ kind ≠ 3 ∧ kind ≠ 4 ∧ kind ≠ 5) : s.drainStart kind i = s.setUnit kind i 1 := by
  simp [State.drainStart, hk]

theorem drainStart_engine : s.drainStart 2 i = (s.setUnit 2 i 1).endLockOf i true := by
  simp [State.drainStart]

/-- A FENCE of an engine that is allowed starts its drain, which ends the engine's lock. -/
theorem hltCmd_fenceEngine (hk : kind = 2) (hcheck : s.hltCheck kind i 2 drain force = 0) :
    s.hltCmd kind i 2 drain force = ((withCmd s 2 i 2 force false).setUnit 2 i 1).endLockOf i true := by
  subst hk
  exact (hltCmd_drains hcheck (by decide) (unitState_of_fenceAllowed hcheck)).trans drainStart_engine

theorem testStart_engine : s.testStart 2 i = s.setUnit 2 i 2 := by
  simp [State.testStart]

theorem testStart_core : s.testStart 1 i =
    (s.setUnit 1 i 2).setFcore i { (s.setUnit 1 i 2).fcore i with lm := [] } := by
  simp [State.testStart]

end UnitCommand

/-! ### How a drain, a test and a copy end -/

section UnitEnds
variable {s : State} {kind i us : Nat} {c : HltCmd}

theorem drainEnds_fence (hop : c.op = 2) :
    s.drainEnds c = ((s.setUnit c.kind c.index 4).hltCnt 6).hltDone c 0 0 := by
  simp [State.drainEnds, hop]

theorem drainDone_drained (hc : s.hltCmd? kind i = some c) (hst : s.unitState kind i = 1) (hd : s.drained kind i = true) :
    s.drainDone kind i = s.drainEnds c := by
  simp [State.drainDone, hc, hst, hd]

/-- The time at which a drain of a flow core runs out (R512). -/
abbrev drainEnd (s : State) (c : HltCmd) : State := s.runTo (c.since + max 1 (s.rd R.HLT_DRAIN_CFG_drain_ms) * unitsPerMs)

theorem drainTimeout_givesUp (hc : s.hltCmd? 1 i = some c) (hst : s.unitState 1 i = 1) (hd : s.drained 1 i = false)
    (hforce : c.force = false) : s.drainTimeout i =
      ((((drainEnd s c).setUnit 1 i 0).hltCnt 7).hltDone c St.hlt_drain_timeout 0) := by
  simp [State.drainTimeout, hc, hst, hd, hforce, drainEnd]

theorem drainTimeout_forced (hc : s.hltCmd? 1 i = some c) (hst : s.unitState 1 i = 1) (hd : s.drained 1 i = false)
    (hforce : c.force = true) : s.drainTimeout i =
      ((List.range 16).foldl (fun s t => s.threadDisable (16 * i + t)) (drainEnd s c)).drainEnds c := by
  simp [State.drainTimeout, hc, hst, hd, hforce, drainEnd]

theorem testDone_failed (hc : s.hltCmd? kind i = some c) (hst : s.unitState kind i = 2) : s.testDone kind i false us =
    ((((s.hltCnt 4).hltCnt 5).sat R.HLT_UNIT_fails 1 kind i).setUnit kind i 4).hltDone c St.hlt_failed us := by
  simp [State.testDone, hc, hst]

/-- An engine that passes returns to service. -/
theorem testDone_engine (hc : s.hltCmd? 2 i = some c) (hst : s.unitState 2 i = 2) (hop : (c.wasFenced && c.op == 1) = false) :
    s.testDone 2 i true us = ((((s.hltCnt 4).setUnit 2 i 0).wr R.VLT_ENG_FENCED_fenced
      (setBit (((s.hltCnt 4).setUnit 2 i 0).rd R.VLT_ENG_FENCED_fenced) i false)).hltDone c 0 us) := by
  simp only [State.testDone, hc, hst, hop]
  rfl

/-- A pseudo-channel that passes copies its data back first (R514). -/
theorem testDone_channel (hc : s.hltCmd? 5 i = some c) (hst : s.unitState 5 i = 2) (hop : (c.wasFenced && c.op == 1) = false) :
    s.testDone 5 i true us = (s.hltCnt 4).setUnit 5 i 3 := by
  simp only [State.testDone, hc, hst, hop]
  rfl

theorem copyBackDone_copying (hc : s.hltCmd? 5 i = some c) (hst : s.unitState 5 i = 3) : s.copyBackDone i =
    (((s.wr R.MEM_PC_STATE_state 0 i).wr R.MEM_INFO_spared 0).setUnit 5 i 0).hltDone c 0 0 := by
  simp only [State.copyBackDone, hc, hst]
  rfl

end UnitEnds

/-- Settles O39: a unit command in service is stored and begun, and each end of a drain, a test or a copy is its one case. -/
theorem unitCommands : Obligations.UnitCommands := by
  have command (s : State) (req : Req) (op : Nat) (kind : Fin 8) (i : Fin 128) (d f : Bool) (u : State)
      (h : s.takes req 0x13 0 R.reg_HLT_CMD) (hop : op < 8)
      (hdo : (s.unitPut op kind i d f).hltCmd kind i op d f = u) :
      s.done (s.unitOp req op kind i d f) = .next (s.settle u.after) := by
    rw [unitOp_takes h hop, hdo, done_eq]
  refine ⟨?test, ?testRefused, ?fence, ?fenceRefused, ?back, ?release, ?fenced, ?testing, ?gaveUp, ?forced, ?failed, ?passed,
    ?channel, ?copied⟩
  case test =>
    rintro s _ req kind i d f h rfl hlt h3 h4 h5 h2 hcheck hst
    exact command s req 1 kind i d f _ h (by decide) ((hltCmd_drains hcheck (by omega) (by omega)).trans
      (drainStart_plain ⟨h2, h3, h4, h5⟩))
  case testRefused =>
    rintro s _ req kind i d f st h rfl hst hbad
    exact command s req 1 kind i d f _ h (by decide) (hltCmd_refused hst hbad)
  case fence =>
    rintro s _ req kind i d f h rfl hk hcheck
    exact command s req 2 kind i d f _ h (by decide) (hltCmd_fenceEngine hk hcheck)
  case fenceRefused =>
    rintro s _ req kind i d f st h rfl hst hbad
    exact command s req 2 kind i d f _ h (by decide) (hltCmd_refused hst hbad)
  case back =>
    rintro s _ req kind i h rfl hk hcheck hst
    exact command s req 3 kind i false false _ h (by decide)
      (hk ▸ (hltCmd_tests hcheck (by decide) hst).trans testStart_engine)
  case release =>
    rintro s _ req kind i h rfl hk hcheck
    exact command s req 3 kind i false false _ h (by decide) (hk ▸ hltCmd_hold hcheck)
  case fenced =>
    exact fun s kind i c hup _ hc hst hd hop => whenMain_released (f := fun s => (s.drainDone kind i).drainDue) hup
      (congrArg State.drainDue ((drainDone_drained hc hst hd).trans (drainEnds_fence hop)))
  case testing =>
    intro s kind i c hup hdue hc hst hd hop hk hck hci
    have hends : s.drainDone kind i = (s.setUnit 1 i 2).setFcore i { (s.setUnit 1 i 2).fcore i with lm := [] } := by
      rw [drainDone_drained hc hst hd, State.drainEnds, if_pos hop, hck, hci, testStart_core]
    exact whenMain_released (f := fun s => (s.drainDone kind i).drainDue) hup
      ((congrArg State.drainDue hends).trans (drainDue_nil _ hdue))
  case gaveUp =>
    exact fun s core c hup _ hc hst hd hforce => whenMain_released (f := fun s => (s.drainTimeout core).drainDue) hup
      (congrArg State.drainDue (drainTimeout_givesUp hc hst hd hforce))
  case forced =>
    intro s t core c hup hc hst hd hforce ht
    have hends : s.drainTimeout core = t.drainEnds c := ht ▸ drainTimeout_forced hc hst hd hforce
    exact whenMain_released (f := fun s => (s.drainTimeout core).drainDue) hup (congrArg State.drainDue hends)
  case failed =>
    exact fun s kind i us c hup hc hst => whenMain_released (f := (·.testDone kind i false us)) hup (testDone_failed hc hst)
  case passed =>
    intro s kind i us c hup hc hst hop hk
    exact whenMain_released (f := (·.testDone kind i true us)) hup (by rw [hk] at hc hst ⊢; exact testDone_engine hc hst hop)
  case channel =>
    intro s kind i us c hup hc hst hop hk
    exact whenMain_released (f := (·.testDone kind i true us)) hup (by rw [hk] at hc hst ⊢; exact testDone_channel hc hst hop)
  case copied =>
    exact fun s pc c hup hc hst => whenMain_released (f := (·.copyBackDone pc)) hup (copyBackDone_copying hc hst)

end Sys2Proof.Proofs
end

section
/-! PROOFS. Brace, the reset of the main domain by a rail, thermal steps and trips (20_health_test.md R503-R508). -/

namespace Sys2Proof.Proofs
open Sys2Proof Sys2Proof.Machine Sys2Proof.Laws

/-- An event of HLT_ that the log keeps as well, with its detail filled up with zeros. -/
theorem hltEvent_logged (s : State) (code n : Nat) (d : List Byte) (hd : d.length + n = 16) :
    s.hltEvent code d true = s.eventBoth 0x13 0 code (d ++ List.replicate n 0) := by
  have hfill : (d ++ List.replicate 16 0).take 16 = d ++ List.replicate n 0 := by
    rw [List.take_append, List.take_of_length_le (by omega), List.take_replicate,
      show min (16 - d.length) 16 = n by omega]
  exact congrArg (fun b => s.eventBoth 0x13 0 code b) hfill

theorem rd_hltCnt_other (s : State) (c n : Nat) (f : Fld) (h : f.key 0 0 0 ≠ R.HLT_CNT_count.key c 0 0) :
    (s.hltCnt c n).rd f = s.rd f := rd_wr_other _ _ _ _ _ _ _ _ _ _ h

/-! ### Rails -/

section Rails
variable {s : State} {r mv : Nat}

@[simp] theorem rd_warn_railSeen (i : Nat) : (s.railSeen r mv).rd R.HLT_SUPPLY_CFG_warn_mv i = s.rd R.HLT_SUPPLY_CFG_warn_mv i := by
  rw [State.railSeen, rd_wr_other, rd_wr_other] <;>
    simp only [Fld.key, Fld.off, R.HLT_SUPPLY_CFG_warn_mv, R.HLT_SUPPLY_STATUS_now_mv, R.HLT_SUPPLY_STATUS_min_mv] <;> omega

@[simp] theorem rd_hyst_railSeen (i : Nat) : (s.railSeen r mv).rd R.HLT_SUPPLY_CFG_hyst_mv i = s.rd R.HLT_SUPPLY_CFG_hyst_mv i := by
  rw [State.railSeen, rd_wr_other, rd_wr_other] <;>
    simp only [Fld.key, Fld.off, R.HLT_SUPPLY_CFG_hyst_mv, R.HLT_SUPPLY_STATUS_now_mv, R.HLT_SUPPLY_STATUS_min_mv] <;> omega

@[simp] theorem rd_warn_railLow (low : Bool) (i : Nat) :
    (s.railLow r low).rd R.HLT_SUPPLY_CFG_warn_mv i = s.rd R.HLT_SUPPLY_CFG_warn_mv i := by
  rw [State.railLow, rd_wr_other, rd_wr_other] <;>
    simp only [Fld.key, Fld.off, R.HLT_SUPPLY_CFG_warn_mv, R.HLT_SUPPLY_STATUS_below_warn, R.HLT_STATUS_brace_rails] <;> omega

@[simp] theorem rd_hyst_railLow (low : Bool) (i : Nat) :
    (s.railLow r low).rd R.HLT_SUPPLY_CFG_hyst_mv i = s.rd R.HLT_SUPPLY_CFG_hyst_mv i := by
  rw [State.railLow, rd_wr_other, rd_wr_other] <;>
    simp only [Fld.key, Fld.off, R.HLT_SUPPLY_CFG_hyst_mv, R.HLT_SUPPLY_STATUS_below_warn, R.HLT_STATUS_brace_rails] <;> omega

/-- Measuring a rail leaves brace as it is. -/
theorem on_brace_measured (r : Fin 3) (low : Bool) :
    ((s.railSeen r mv).railLow r low).on R.HLT_STATUS_brace = s.on R.HLT_STATUS_brace := by
  simp only [State.on, State.railLow, State.railSeen]
  rw [rd_wr_other, rd_wr_other, rd_wr_other, rd_wr_other] <;>
    simp only [Fld.key, Fld.off, R.HLT_STATUS_brace, R.HLT_STATUS_brace_rails, R.HLT_SUPPLY_STATUS_below_warn,
      R.HLT_SUPPLY_STATUS_now_mv, R.HLT_SUPPLY_STATUS_min_mv] <;> omega

theorem braceEnter_low (r : Fin 3) (hlow : mv < s.rd R.HLT_SUPPLY_CFG_warn_mv r) (hoff : s.on R.HLT_STATUS_brace = false) :
    s.braceEnter r mv =
      (let t := (((s.railSeen r mv).railLow r true).raise R.HLT_STATUS_brace).sat R.HLT_SUPPLY_STATUS_braces 1 r
      ({ t.hltCnt 0 with hlt := { t.hlt with braceAt := t.time.ft } } : State).eventBoth 0x13 0 1
        (leBytes 1 r ++ [0] ++ leBytes 2 (min mv 0xFFFF) ++ List.replicate 12 0)) := by
  have hno := on_brace_measured (s := s) (mv := mv) r true
  have hwarn : ¬ (s.railSeen r mv).rd R.HLT_SUPPLY_CFG_warn_mv r ≤ mv := by simpa using hlow
  rw [hoff] at hno
  simp only [State.braceEnter, if_neg hwarn, hno]
  exact hltEvent_logged _ 1 12 _ (by simp [length_leBytes])

theorem braceEnter_high (h : s.rd R.HLT_SUPPLY_CFG_warn_mv r ≤ mv) : s.braceEnter r mv = s.railSeen r mv := by
  simp [State.braceEnter, h]

/-- The rails with their readings. -/
abbrev railsSeen (s : State) (core fc sram : Nat) (low : Bool) : State :=
  (((((s.railSeen 0 core).railLow 0 low).railSeen 1 fc).railLow 1 false).railSeen 2 sram).railLow 2 false

/-- The reading of a rail by its number. -/
abbrev railReading (core fc sram r : Nat) : Nat := if r = 0 then core else if r = 1 then fc else sram

variable {t : State} {core fc sram : Nat}

theorem runTo_hlt (s : State) (u : Nat) : (s.runTo u).hlt = s.hlt := by
  unfold State.runTo
  split <;> rfl

theorem railsSeen_hlt (low : Bool) : (railsSeen s core fc sram low).hlt = s.hlt := rfl

theorem braceExit_up (hon : s.on R.HLT_STATUS_brace = true)
    (h0 : s.rd R.HLT_SUPPLY_CFG_warn_mv 0 + s.rd R.HLT_SUPPLY_CFG_hyst_mv 0 ≤ core)
    (h1 : s.rd R.HLT_SUPPLY_CFG_warn_mv 1 + s.rd R.HLT_SUPPLY_CFG_hyst_mv 1 ≤ fc)
    (h2 : s.rd R.HLT_SUPPLY_CFG_warn_mv 2 + s.rd R.HLT_SUPPLY_CFG_hyst_mv 2 ≤ sram) {us : Nat}
    (ht : t = (railsSeen s core fc sram false).runTo (s.hlt.braceAt + 10 * unitsPerUs))
    (hus : us = (t.time.ft - s.hlt.braceAt) / unitsPerUs) :
    s.braceExit (railReading core fc sram) =
      ((((t.wr R.HLT_STATUS_brace 0).wr R.SEC_FUSE_CTR_deferred 0).hltCnt 1 us).eventBoth 0x13 0 2
        (leBytes 4 us ++ List.replicate 12 0)) := by
  have hseen : (List.range 3).foldl (fun s r => (s.railSeen r (railReading core fc sram r)).railLow r
      (railReading core fc sram r < s.rd R.HLT_SUPPLY_CFG_warn_mv r)) s = railsSeen s core fc sram false := by
    have n0 : ¬ core < s.rd R.HLT_SUPPLY_CFG_warn_mv 0 := by omega
    have n1 : ¬ fc < s.rd R.HLT_SUPPLY_CFG_warn_mv 1 := by omega
    have n2 : ¬ sram < s.rd R.HLT_SUPPLY_CFG_warn_mv 2 := by omega
    simp [List.range_succ, railReading, railsSeen, n0, n1, n2]
  have hup : (List.range 3).all (fun r => (railsSeen s core fc sram false).rd R.HLT_SUPPLY_CFG_warn_mv r +
      (railsSeen s core fc sram false).rd R.HLT_SUPPLY_CFG_hyst_mv r ≤ railReading core fc sram r) = true := by
    simp [List.range_succ, railReading, railsSeen, h0, h1, h2]
  have hat : t.hlt.braceAt = s.hlt.braceAt := by rw [ht, runTo_hlt, railsSeen_hlt]
  simp only [State.braceExit, hon, hseen, hup, railsSeen_hlt]
  simp only [← ht, hat, ← hus]
  exact hltEvent_logged _ 2 12 _ (by simp [length_leBytes])

theorem braceExit_low (hon : s.on R.HLT_STATUS_brace = true) (h0 : core < s.rd R.HLT_SUPPLY_CFG_warn_mv 0)
    (h1 : s.rd R.HLT_SUPPLY_CFG_warn_mv 1 ≤ fc) (h2 : s.rd R.HLT_SUPPLY_CFG_warn_mv 2 ≤ sram) :
    s.braceExit (railReading core fc sram) = railsSeen s core fc sram true := by
  have hseen : (List.range 3).foldl (fun s r => (s.railSeen r (railReading core fc sram r)).railLow r
      (railReading core fc sram r < s.rd R.HLT_SUPPLY_CFG_warn_mv r)) s = railsSeen s core fc sram true := by
    have n1 : ¬ fc < s.rd R.HLT_SUPPLY_CFG_warn_mv 1 := by omega
    have n2 : ¬ sram < s.rd R.HLT_SUPPLY_CFG_warn_mv 2 := by omega
    simp [List.range_succ, railReading, railsSeen, h0, n1, n2]
  have hnot : (List.range 3).all (fun r => (railsSeen s core fc sram true).rd R.HLT_SUPPLY_CFG_warn_mv r +
      (railsSeen s core fc sram true).rd R.HLT_SUPPLY_CFG_hyst_mv r ≤ railReading core fc sram r) = false := by
    have n0 : ¬ s.rd R.HLT_SUPPLY_CFG_warn_mv 0 + s.rd R.HLT_SUPPLY_CFG_hyst_mv 0 ≤ core := by omega
    simp [List.range_succ, railReading, railsSeen, n0]
  simp only [State.braceExit, hon, hseen, hnot]
  rfl

theorem supplyReset_low (h : mv < s.rd R.HLT_SUPPLY_CFG_reset_mv r) (hpg : s.isl.mainPg = true) (hup : s.isl.up = true)
    (hhold : s.isl.hold.isNone = true) : s.supplyReset r mv = s.mainReset 1 r := if_pos ⟨h, hpg, hup, hhold⟩

theorem supplyReset_high (h : s.rd R.HLT_SUPPLY_CFG_reset_mv r ≤ mv) : s.supplyReset r mv = s :=
  if_neg fun hlow => absurd hlow.1 (Nat.not_lt.2 h)

end Rails

/-! ### Thermal steps -/

section Thermal
variable {s t : State} {l : List (Option Int)} {i : Nat} {c : Int}

/-- The hottest sensor, and the step, as the status registers show them. -/
abbrev hottestSeen (t : State) (i : Nat) (c : Int) (step : Nat) : State :=
  (((t.wr R.HLT_THERM_STATUS_max_c (tempByte c)).wr R.HLT_THERM_STATUS_max_sensor i).wr R.HLT_THERM_STATUS_warn 1).wr
    R.HLT_THERM_STATUS_step step

/-- Step 2 holds at its threshold or above. -/
theorem stepFor_second (hlive : (List.range 16).all (fun i => t.on R.HLT_TEMP_fault i) = false)
    (hc : (t.rd R.HLT_THERM_CFG_step2_c : Int) ≤ c) : t.stepFor (some (i, c)) = 3 := by
  simp only [State.stepFor, hlive, stepHolds, decide_eq_true hc]
  rfl

/-- From step 2, with hyst_c 3: 3 degrees below its threshold, step 1 holds at its own. -/
theorem stepFor_leaves (hlive : (List.range 16).all (fun i => t.on R.HLT_TEMP_fault i) = false)
    (hyst : t.rd R.HLT_THERM_CFG_hyst_c = 3) (hlow : c ≤ (t.rd R.HLT_THERM_CFG_step2_c : Int) - 3)
    (hc : (t.rd R.HLT_THERM_CFG_step1_c : Int) ≤ c) : t.stepFor (some (i, c)) = 2 := by
  have hbelow : ¬ (t.rd R.HLT_THERM_CFG_step2_c : Int) ≤ c := by omega
  have hleft : ¬ (t.rd R.HLT_THERM_CFG_step2_c : Int) - 3 < c := by omega
  have hthree : max (1 : Int) (min 15 ((3 : Nat) : Int)) = 3 := by decide
  simp only [State.stepFor, hlive, hyst, hthree, stepHolds, decide_eq_false hbelow, decide_eq_false hleft, decide_eq_true hc]
  simp

/-- A reading that trips nothing, and is not above the highest one so far, is shown with the step it asks for; a step that is
entered is counted, and one that changes writes its event. -/
theorem thermalSample_below {new old : Nat} (ht : t = (List.range 18).foldl (fun s i => s.sensorSeen i ((l[i]?).getD none)) s)
    (hm : t.hottest = some (i, c)) (hnew : t.stepFor (some (i, c)) = new) (hwarn : 1 ≤ new)
    (hold : (if t.rd R.HLT_THERM_STATUS_step = 2 then 3 else if t.rd R.HLT_THERM_STATUS_step = 1 then 2 else
      t.rd R.HLT_THERM_STATUS_warn) = old) (hcount : ¬ (old < 2 ∧ 2 ≤ new))
    (hpeak : c ≤ signed 8 (t.rd R.HLT_THERM_STATUS_peak_c)) (htrip : c < (t.rd R.HLT_THERM_CFG_trip_c : Int)) :
    s.thermalSample l =
      (let u := hottestSeen t i c (new - 1)
      let u := if old < 3 ∧ 3 ≤ new then u.hltCnt 3 else u
      if old = new then u else u.hltEvent 3 (leBytes 1 (if new = 1 then 3 else new - 1) ++
        leBytes 1 (u.rd R.HLT_THERM_STATUS_max_sensor) ++ leBytes 1 (u.rd R.HLT_THERM_STATUS_max_c)) true) := by
  have hp : ¬ signed 8 (((t.wr R.HLT_THERM_STATUS_max_c (tempByte c)).wr R.HLT_THERM_STATUS_max_sensor i).rd
      R.HLT_THERM_STATUS_peak_c) < c := by
    rw [rd_wr_other _ _ _ _ _ _ _ _ _ _ (by decide), rd_wr_other _ _ _ _ _ _ _ _ _ _ (by decide)]
    exact not_lt.2 hpeak
  have hkeep (n : Nat) : (hottestSeen t i c n).rd R.HLT_THERM_CFG_trip_c = t.rd R.HLT_THERM_CFG_trip_c := by
    simp (disch := decide) only [hottestSeen, rd_wr_other]
  have htr : ¬ (t.rd R.HLT_THERM_CFG_trip_c : Int) ≤ c := not_le.2 htrip
  have hone : b2n (decide (1 ≤ new)) = 1 := by rw [decide_eq_true hwarn]; rfl
  simp only [State.thermalSample, ← ht, hm, hnew, hold, if_neg hp, if_neg hcount, hone]
  refine if_neg fun hboth => htr ?_
  have hcnt := (rd_hltCnt_other (hottestSeen t i c (new - 1)) 3 1 R.HLT_THERM_CFG_trip_c (by decide)).trans (hkeep (new - 1))
  have hseen := hboth.1
  split at hseen <;> split at hseen
  · exact le_of_eq_of_le (congrArg Nat.cast hcnt).symm hseen
  · exact le_of_eq_of_le (congrArg Nat.cast (hkeep _)).symm hseen
  · exact le_of_eq_of_le (congrArg Nat.cast hcnt).symm hseen
  · exact le_of_eq_of_le (congrArg Nat.cast (hkeep _)).symm hseen

theorem thermalSample_enters2 (ht : t = (List.range 18).foldl (fun s i => s.sensorSeen i ((l[i]?).getD none)) s)
    (hm : t.hottest = some (i, c)) (hlive : (List.range 16).all (fun i => t.on R.HLT_TEMP_fault i) = false)
    (hstep : t.rd R.HLT_THERM_STATUS_step = 1) (hc : (t.rd R.HLT_THERM_CFG_step2_c : Int) ≤ c)
    (htrip : c < (t.rd R.HLT_THERM_CFG_trip_c : Int)) (hpeak : c ≤ signed 8 (t.rd R.HLT_THERM_STATUS_peak_c)) :
    s.thermalSample l = ((hottestSeen t i c 2).hltCnt 3).eventBoth 0x13 0 3 (leBytes 1 2 ++
      leBytes 1 ((hottestSeen t i c 2).rd R.HLT_THERM_STATUS_max_sensor) ++
      leBytes 1 ((hottestSeen t i c 2).rd R.HLT_THERM_STATUS_max_c) ++ List.replicate 13 0) := by
  have hsample := thermalSample_below (old := 2) ht hm (stepFor_second hlive hc) (by decide) (by rw [hstep]; rfl) (by decide)
    hpeak htrip
  have hevent := hltEvent_logged ((hottestSeen t i c 2).hltCnt 3) 3 13 (leBytes 1 2 ++
    leBytes 1 (((hottestSeen t i c 2).hltCnt 3).rd R.HLT_THERM_STATUS_max_sensor) ++
    leBytes 1 (((hottestSeen t i c 2).hltCnt 3).rd R.HLT_THERM_STATUS_max_c)) (by simp [length_leBytes])
  have hsensor := rd_hltCnt_other (hottestSeen t i c 2) 3 1 R.HLT_THERM_STATUS_max_sensor (by decide)
  have hmax := rd_hltCnt_other (hottestSeen t i c 2) 3 1 R.HLT_THERM_STATUS_max_c (by decide)
  exact (hsample.trans hevent).trans (by rw [hsensor, hmax])

theorem thermalSample_leaves2 (ht : t = (List.range 18).foldl (fun s i => s.sensorSeen i ((l[i]?).getD none)) s)
    (hm : t.hottest = some (i, c)) (hlive : (List.range 16).all (fun i => t.on R.HLT_TEMP_fault i) = false)
    (hstep : t.rd R.HLT_THERM_STATUS_step = 2) (hyst : t.rd R.HLT_THERM_CFG_hyst_c = 3)
    (hlow : c ≤ (t.rd R.HLT_THERM_CFG_step2_c : Int) - 3) (hc : (t.rd R.HLT_THERM_CFG_step1_c : Int) ≤ c)
    (htrip : c < (t.rd R.HLT_THERM_CFG_trip_c : Int)) (hpeak : c ≤ signed 8 (t.rd R.HLT_THERM_STATUS_peak_c)) :
    s.thermalSample l = (hottestSeen t i c 1).eventBoth 0x13 0 3 (leBytes 1 1 ++
      leBytes 1 ((hottestSeen t i c 1).rd R.HLT_THERM_STATUS_max_sensor) ++
      leBytes 1 ((hottestSeen t i c 1).rd R.HLT_THERM_STATUS_max_c) ++ List.replicate 13 0) := by
  have hsample := thermalSample_below (old := 3) ht hm (stepFor_leaves hlive hyst hlow hc) (by decide) (by rw [hstep]; rfl)
    (by decide) hpeak htrip
  exact hsample.trans (hltEvent_logged (hottestSeen t i c 1) 3 13 _ (by simp [length_leBytes]))

theorem thermalSample_stays2 (ht : t = (List.range 18).foldl (fun s i => s.sensorSeen i ((l[i]?).getD none)) s)
    (hm : t.hottest = some (i, c)) (hlive : (List.range 16).all (fun i => t.on R.HLT_TEMP_fault i) = false)
    (hstep : t.rd R.HLT_THERM_STATUS_step = 2) (hc : (t.rd R.HLT_THERM_CFG_step2_c : Int) ≤ c)
    (htrip : c < (t.rd R.HLT_THERM_CFG_trip_c : Int)) (hpeak : c ≤ signed 8 (t.rd R.HLT_THERM_STATUS_peak_c)) :
    s.thermalSample l = hottestSeen t i c 2 :=
  thermalSample_below (old := 3) ht hm (stepFor_second hlive hc) (by decide) (by rw [hstep]; rfl) (by decide) hpeak htrip

/-- A second after a trip, a die that is not yet below warn_c holds the domain (R508). -/
theorem tripRelease_hot {die : Int} {romOk : Bool} {h : Hold} (hh : s.isl.hold = some h) (hcause : h.cause = 2)
    (ht : t = s.runIsland (h.since + unitsPerSec)) (hdie : (t.rd R.HLT_THERM_CFG_warn_c : Int) ≤ die) :
    s.tripRelease die romOk = t := by
  have hnot : ¬ die < (t.rd R.HLT_THERM_CFG_warn_c : Int) := not_lt.2 hdie
  subst ht
  simp [State.tripRelease, hh, hcause, hnot]

theorem tripRelease_cool {die : Int} {romOk : Bool} {h : Hold} (hh : s.isl.hold = some h) (hcause : h.cause = 2)
    (ht : t = s.runIsland (h.since + unitsPerSec)) (hdie : die < (t.rd R.HLT_THERM_CFG_warn_c : Int))
    (hpg : t.isl.mainPg = true) : s.tripRelease die romOk = (({ t with isl := { t.isl with hold := none } } : State).logEvent
      0x14 0 (Config.eventCode 0x14 0) (Config.eventDetail 0x14 0)).romFlow romOk := by
  simp only [State.tripRelease, hh, hcause, ← ht, if_pos hdie]
  exact if_pos hpg

end Thermal

/-- Settles O38: one case of each command, of a rail, of a sample and of the release of a trip. -/
theorem suppliesAndTemperature : Obligations.SuppliesAndTemperature := by
  refine ⟨?enters, ?measured, ?ends, ?keeps, ?resets, ?noReset, ?enters2, ?leaves2, ?stays2, ?held, ?released⟩
  case enters =>
    exact fun s rail mv hup hlow hoff => whenMain_released (f := (·.braceEnter rail mv)) hup (braceEnter_low rail hlow hoff)
  case measured =>
    exact fun s rail mv hup h => whenMain_released (f := (·.braceEnter rail mv)) hup (braceEnter_high h)
  case ends =>
    exact fun s t core fc sram us hup hon h0 h1 h2 ht hus =>
      whenMain_released (f := (·.braceExit (railReading core fc sram))) hup (braceExit_up hon h0 h1 h2 ht hus)
  case keeps =>
    exact fun s core fc sram hup hon h0 h1 h2 =>
      whenMain_released (f := (·.braceExit (railReading core fc sram))) hup (braceExit_low hon h0 h1 h2)
  case resets =>
    exact fun s rail mv hup h hpg hisl hhold =>
      whenMain_released (f := (·.supplyReset rail mv)) hup (supplyReset_low h hpg hisl hhold)
  case noReset =>
    exact fun s rail mv hup h => whenMain_released (f := (·.supplyReset rail mv)) hup (supplyReset_high h)
  case enters2 =>
    rintro s t _ l i c hup ht hm hlive hstep hc htrip hpeak rfl
    exact whenMain_released (f := (·.thermalSample l)) hup (thermalSample_enters2 ht hm hlive hstep hc htrip hpeak)
  case leaves2 =>
    rintro s t _ l i c hup ht hm hlive hstep hyst hlow hc htrip hpeak rfl
    exact whenMain_released (f := (·.thermalSample l)) hup (thermalSample_leaves2 ht hm hlive hstep hyst hlow hc htrip hpeak)
  case stays2 =>
    exact fun s t l i c hup ht hm hlive hstep hc htrip hpeak =>
      whenMain_released (f := (·.thermalSample l)) hup (thermalSample_stays2 ht hm hlive hstep hc htrip hpeak)
  case held =>
    exact fun s die romOk h t hh hcause ht hdie => congrArg s.done (tripRelease_hot hh hcause ht hdie)
  case released =>
    exact fun s die romOk h t hh hcause ht hdie hpg => congrArg s.done (tripRelease_cool hh hcause ht hdie hpg)

end Sys2Proof.Proofs
end

section
/-! PROOFS. Programmable counters and dumps (19_counters_telemetry.md R490-R500). -/

namespace Sys2Proof.Proofs
open Sys2Proof Sys2Proof.Machine Sys2Proof.Laws

/-! ### The write of a counter's value -/

/-- A released device whose register store lists a flag of counter 0 with the value that an unlisted flag reads as. -/
def listedFlag : State := { State.reset with
  sec := { State.reset.sec with mainUp := true }
  regs := [(R.PMC_CTR_VAL_sampled.key 0 0 0, 0)] }

/-- With no deadlock noted and nothing due, nothing follows a register write. -/
theorem after_quiet (s : State) (hdl : s.fc.dlOn = []) (hdue : s.due = []) : s.after = s := by
  rw [State.after, State.dlRefresh, if_pos hdl, drainDue_nil s hdue]

theorem listedFlag_takes : listedFlag.takes .host 0x12 0 R.reg_PMC_CTR_VAL 0 := by decide

/-- The write of the value also writes each flag back as it reads, which takes the flag off the list. -/
theorem ctrValWrite_listedFlag : exec (.ctrValWrite .host 0 0) listedFlag =
    .next (listedFlag.settle (listedFlag.putReg false R.reg_PMC_CTR_VAL 0 0 0 0)) := by
  have hwrite : listedFlag.wrReg .host 0x12 R.reg_PMC_CTR_VAL 0 0 0 =
      (listedFlag.putReg false R.reg_PMC_CTR_VAL 0 0 0 0).after :=
    wrReg_block 0 listedFlag_takes (by decide) (by decide) rfl
  rw [after_quiet _ rfl rfl] at hwrite
  exact congrArg listedFlag.done hwrite

/-- Refutes O36: in a state whose store lists a counter's flag as 0, which reads no differently from one that does not list it,
the write of the counter's value takes the flag off the list; the statement's next state keeps it. -/
theorem not_programmableCounters : ¬ Obligations.ProgrammableCounters := by
  unfold Obligations.ProgrammableCounters
  rintro ⟨-, -, -, -, -, -, value, -⟩
  have hclaim := value listedFlag .host 0 0 listedFlag_takes (by decide)
  rw [after_quiet _ rfl rfl] at hclaim
  have heq := Host.Outcome.next.inj (ctrValWrite_listedFlag.symm.trans hclaim)
  exact absurd (congrArg State.regs heq) (by decide)

/-! ### Dumps -/

section Dumps
variable {s t u : State} {at_ a : Nat} {d : DumpRec}

/-- With no record being written and a ring in HBM, the record is captured (R498). -/
theorem dumpTake_free (now : Bool) (hfree : s.pmc.dump.isSome = false) (hloc : s.rd R.PMC_DUMP_BASE_loc = 1) :
    s.dumpTake now = ({ s with pmc := { s.pmc with
      dump := some (s.dumpRec now), seq := s.pmc.seq + 1, lost := 0, stepped := false } } : State).raise R.PMC_DUMP_STATUS_busy := by
  simp [State.dumpTake, hfree, hloc]

/-- The record of a periodic dump. -/
theorem dumpRec_periodic (s : State) : s.dumpRec false =
    { seq := s.pmc.seq, stamp := s.now64, period := s.dumpPeriod, sets := s.rd R.PMC_DUMP_CFG_sets,
      flags := 2 * b2n s.pmc.stepped, lost := s.pmc.lost, values := s.dumpValues (s.rd R.PMC_DUMP_CFG_sets) } := by
  simp [State.dumpRec, b2n]

theorem dumpTake_busy (now : Bool) (h : s.pmc.dump.isSome = true) :
    s.dumpTake now = (s.dumpLost 1).sat R.PMC_DUMP_STATUS_skipped := by
  simp only [State.dumpTake, h]
  rfl

theorem dumpTake_noRing (now : Bool) (h : s.rd R.PMC_DUMP_BASE_loc = 0) :
    s.dumpTake now = (s.dumpLost 1).sat R.PMC_DUMP_STATUS_skipped := by
  simp [State.dumpTake, h]

/-- Neither a capture nor a skip changes the period in force. -/
theorem dumpPeriod_dumpTake (now : Bool) : (s.dumpTake now).dumpPeriod = s.dumpPeriod := by
  have hperiod : (s.dumpTake now).rd R.PMC_DUMP_CFG_period_us = s.rd R.PMC_DUMP_CFG_period_us := by
    dsimp only [State.dumpTake]
    split
    · exact rd_wr_other _ _ _ _ _ _ _ _ _ _ (by decide)
    · exact rd_wr_other _ _ _ _ _ _ _ _ _ _ (by decide)
  simp only [State.dumpPeriod, hperiod]

theorem dumpCapture_due (hat : s.pmc.dumpAt = some at_) (ht : t = s.runTo at_) : s.dumpCapture =
    { t.dumpTake false with pmc := { (t.dumpTake false).pmc with dumpAt := some (at_ + t.dumpPeriod * unitsPerUs) } } := by
  subst ht
  simp only [State.dumpCapture, hat, dumpPeriod_dumpTake]

/-- A write of now takes a dump. -/
theorem wrReg_dumpNow {req : Req} (h : s.takes req 0x12 0 R.reg_PMC_DUMP_CMD) :
    s.wrReg req 0x12 R.reg_PMC_DUMP_CMD 1 = (s.dumpTake true).after :=
  wrReg_block 1 h (by decide) (by decide) rfl

/-- The place of a record. -/
abbrev dumpPlace (s : State) (d : DumpRec) : Nat :=
  s.rd R.PMC_DUMP_BASE_addr * 32768 + (d.seq % 2 ^ min (s.rd R.PMC_DUMP_CFG_log2_slots) 12) * 32768

/-- The values are written before the header, and the number is published when both are (R499). -/
theorem dumpWrite_done (hd : s.pmc.dump = some d) (hloc : s.rd R.PMC_DUMP_BASE_loc = 1) (ha : a = dumpPlace s d)
    (hvalues : s.writeFor 0 true (a + 64) (d.values.flatMap (leBytes 8)) = (.ok [], t))
    (hheader : t.writeFor 0 true a d.header = (.ok [], u)) : s.dumpWrite =
      (({ u with pmc := { u.pmc with dump := none } } : State).wr R.PMC_DUMP_STATUS_busy 0).wr R.PMC_DUMP_STATUS_seq d.seq := by
  subst ha
  simp only [State.dumpWrite, hd, hloc, beq_self_eq_true, hvalues, hheader]
  rfl

theorem dumpWrite_fails {st : Nat} (hd : s.pmc.dump = some d) (hloc : s.rd R.PMC_DUMP_BASE_loc = 1) (ha : a = dumpPlace s d)
    (hvalues : s.writeFor 0 true (a + 64) (d.values.flatMap (leBytes 8)) = (.fail st, t)) : s.dumpWrite =
      (({ t with pmc := { t.pmc with dump := none, lost := t.pmc.lost + 1 } } : State).wr R.PMC_DUMP_STATUS_busy 0).raise
        R.PMC_DUMP_STATUS_failed := by
  subst ha
  simp only [State.dumpWrite, hd, hloc, beq_self_eq_true, hvalues]
  rfl

end Dumps

/-- Settles O37: what a dump takes when it falls due or is asked for, and how the write of its record ends. -/
theorem counterDumps : Obligations.CounterDumps := by
  refine ⟨?captured, ?skipped, ?now, ?noRing, ?written, ?failed⟩
  case captured =>
    intro s t at_ hup hat ht hfree hloc
    exact whenMain_released (f := (·.dumpCapture)) hup
      ((dumpCapture_due hat ht).trans (by rw [dumpTake_free false hfree hloc, dumpRec_periodic]; rfl))
  case skipped =>
    intro s t at_ hup hat ht hbusy
    exact whenMain_released (f := (·.dumpCapture)) hup
      ((dumpCapture_due hat ht).trans (by rw [dumpTake_busy false hbusy]; rfl))
  case now =>
    intro s req h hfree hloc
    exact congrArg s.done ((wrReg_dumpNow h).trans (congrArg State.after (dumpTake_free true hfree hloc)))
  case noRing =>
    intro s req h hloc
    exact congrArg s.done ((wrReg_dumpNow h).trans (congrArg State.after (dumpTake_noRing true hloc)))
  case written =>
    exact fun s t u d a hup hd hloc ha hvalues hheader =>
      whenMain_released (f := (·.dumpWrite)) hup (dumpWrite_done hd hloc ha hvalues hheader)
  case failed =>
    exact fun s t d a st hup hd hloc ha hvalues =>
      whenMain_released (f := (·.dumpWrite)) hup (dumpWrite_fails hd hloc ha hvalues)

end Sys2Proof.Proofs
end

section
/-! PROOFS. The instructions of the channel extension: the fields of a word, what each word asks for, and how an instruction
ends (17_flow_cores.md R451, R456; 18_cipher_vault.md R478). -/

namespace Sys2Proof.Proofs
open Sys2Proof Sys2Proof.Machine Sys2Proof.Laws

/-! ### The fields of an instruction word -/

section Word
variable {f3 f7 r2 r1 rd : Nat}

@[simp] theorem customWord_rd (h : rd < 32) : bits (customWord f3 f7 r2 r1 rd) 11 7 = rd := by
  simp only [bits, customWord]; omega

@[simp] theorem customWord_f3 (h3 : f3 < 8) (hd : rd < 32) : bits (customWord f3 f7 r2 r1 rd) 14 12 = f3 := by
  simp only [bits, customWord]; omega

@[simp] theorem customWord_rs1 (h1 : r1 < 32) (h3 : f3 < 8) (hd : rd < 32) : bits (customWord f3 f7 r2 r1 rd) 19 15 = r1 := by
  simp only [bits, customWord]; omega

@[simp] theorem customWord_rs2 (h2 : r2 < 32) (h1 : r1 < 32) (h3 : f3 < 8) (hd : rd < 32) :
    bits (customWord f3 f7 r2 r1 rd) 24 20 = r2 := by
  simp only [bits, customWord]; omega

@[simp] theorem customWord_f7 (h7 : f7 < 128) (h2 : r2 < 32) (h1 : r1 < 32) (h3 : f3 < 8) (hd : rd < 32) :
    bits (customWord f3 f7 r2 r1 rd) 31 25 = f7 := by
  simp only [bits, customWord]; omega

end Word

/-! ### What each word asks for -/

section Custom
variable {s : State} {h : Nat} {rs1 rs2 rd : Fin 32}

theorem custom_put : s.custom h (customWord 0 0 0 rs1 0) = s.chPut h (s.xr h rs1) := by
  rw [State.custom, customWord_f3, customWord_f7, customWord_rs1, customWord_rs2, customWord_rd]
  · rfl
  all_goals simp

theorem custom_commit : s.custom h (customWord 0 1 0 rs1 rd) = s.chCommit h (s.xr h rs1) false := by
  rw [State.custom, customWord_f3, customWord_f7, customWord_rs1, customWord_rs2, customWord_rd]
  · rfl
  all_goals simp

theorem custom_tcommit : s.custom h (customWord 0 2 0 rs1 rd) = s.chCommit h (s.xr h rs1) true := by
  rw [State.custom, customWord_f3, customWord_f7, customWord_rs1, customWord_rs2, customWord_rd]
  · rfl
  all_goals simp

theorem custom_drop : s.custom h (customWord 0 3 0 0 0) = .done (s.modHart h (fun k => { k with out := [] })) none := by
  rw [State.custom, customWord_f3, customWord_f7, customWord_rs1, customWord_rs2, customWord_rd]
  · rfl
  all_goals simp

theorem custom_recv : s.custom h (customWord 0 4 0 rs1 rd) = s.chRecv h (s.xr h rs1) false := by
  rw [State.custom, customWord_f3, customWord_f7, customWord_rs1, customWord_rs2, customWord_rd]
  · rfl
  all_goals simp

theorem custom_trecv : s.custom h (customWord 0 5 0 rs1 rd) = s.chRecv h (s.xr h rs1) true := by
  rw [State.custom, customWord_f3, customWord_f7, customWord_rs1, customWord_rs2, customWord_rd]
  · rfl
  all_goals simp

theorem custom_select : s.custom h (customWord 0 7 rs2 rs1 rd) = s.chSelect h (s.xr h rs1) (s.xr h rs2) := by
  rw [State.custom, customWord_f3, customWord_f7, customWord_rs1, customWord_rs2, customWord_rd]
  · rfl
  all_goals simp

theorem custom_wait : s.custom h (customWord 0 8 0 rs1 rd) = s.chWait (s.xr h rs1) := by
  rw [State.custom, customWord_f3, customWord_f7, customWord_rs1, customWord_rs2, customWord_rd]
  · rfl
  all_goals simp

theorem custom_alarm : s.custom h (customWord 0 9 rs2 rs1 rd) = s.chAlarm h (s.xr h rs1) (s.xr h rs2) := by
  rw [State.custom, customWord_f3, customWord_f7, customWord_rs1, customWord_rs2, customWord_rd]
  · rfl
  all_goals simp

theorem custom_ipi : s.custom h (customWord 0 10 0 rs1 0) = s.chIpi h (s.xr h rs1) := by
  rw [State.custom, customWord_f3, customWord_f7, customWord_rs1, customWord_rs2, customWord_rd]
  · rfl
  all_goals simp

theorem custom_db : s.custom h (customWord 1 0 rs2 rs1 rd) = s.chDb h (s.xr h rs1) (s.xr h rs2) := by
  rw [State.custom, customWord_f3, customWord_f7, customWord_rs1, customWord_rs2, customWord_rd]
  · rfl
  all_goals simp

theorem custom_cpl : s.custom h (customWord 1 1 rs2 rs1 rd) = s.chCpl h (s.xr h rs1) (s.xr h rs2) := by
  rw [State.custom, customWord_f3, customWord_f7, customWord_rs1, customWord_rs2, customWord_rd]
  · rfl
  all_goals simp

theorem custom_ptRecv : s.custom h (customWord 2 0 0 rs1 rd) = s.ptRecv h (s.xr h rs1) false := by
  rw [State.custom, customWord_f3, customWord_f7, customWord_rs1, customWord_rs2, customWord_rd]
  · rfl
  all_goals simp

theorem custom_ptTrecv : s.custom h (customWord 2 1 0 rs1 rd) = s.ptRecv h (s.xr h rs1) true := by
  rw [State.custom, customWord_f3, customWord_f7, customWord_rs1, customWord_rs2, customWord_rd]
  · rfl
  all_goals simp

theorem custom_ptDone : s.custom h (customWord 2 2 0 rs1 0) = s.ptDone h (s.xr h rs1) := by
  rw [State.custom, customWord_f3, customWord_f7, customWord_rs1, customWord_rs2, customWord_rd]
  · rfl
  all_goals simp

theorem custom_ptSend : s.custom h (customWord 2 3 rs2 rs1 rd) = s.ptSend h (s.xr h rs1) (s.xr h rs2) := by
  rw [State.custom, customWord_f3, customWord_f7, customWord_rs1, customWord_rs2, customWord_rd]
  · rfl
  all_goals simp

theorem custom_blk : s.custom h (customWord 3 0 rs2 rs1 rd) = s.vxBlk h (s.xr h rs1) (s.xr h rs2) := by
  rw [State.custom, customWord_f3, customWord_f7, customWord_rs1, customWord_rs2, customWord_rd]
  · rfl
  all_goals simp

theorem custom_lock : s.custom h (customWord 3 1 0 rs1 rd) = s.vxLock h (s.xr h rs1) := by
  rw [State.custom, customWord_f3, customWord_f7, customWord_rs1, customWord_rs2, customWord_rd]
  · rfl
  all_goals simp

theorem custom_unlock : s.custom h (customWord 3 2 0 0 rd) = s.vxUnlock h := by
  rw [State.custom, customWord_f3, customWord_f7, customWord_rs1, customWord_rs2, customWord_rd]
  · rfl
  all_goals simp

theorem custom_cmac : s.custom h (customWord 3 3 rs2 rs1 rd) = s.vxCmac h (s.xr h rs1) (s.xr h rs2) := by
  rw [State.custom, customWord_f3, customWord_f7, customWord_rs1, customWord_rs2, customWord_rd]
  · rfl
  all_goals simp

theorem custom_import : s.custom h (customWord 3 4 0 rs1 rd) = s.vxImport h (s.xr h rs1) := by
  rw [State.custom, customWord_f3, customWord_f7, customWord_rs1, customWord_rs2, customWord_rd]
  · rfl
  all_goals simp

theorem custom_zero : s.custom h (customWord 3 5 0 rs1 rd) = s.vxZero h (s.xr h rs1) := by
  rw [State.custom, customWord_f3, customWord_f7, customWord_rs1, customWord_rs2, customWord_rd]
  · rfl
  all_goals simp

theorem custom_in (i : Fin 8) : s.custom h (customWord 0 6 i 0 rd) = .done s (some ((s.hart h).inbox.getD i 0)) := by
  have hi : (i : Nat) < 32 := by omega
  rw [State.custom, customWord_f3, customWord_f7, customWord_rs1, customWord_rs2 hi, customWord_rd]
  · change (if 8 ≤ (i : Nat) then ChRes.illegal else _) = _
    exact if_neg (by omega)
  all_goals simp [hi]

end Custom

/-! ### How an instruction ends -/

section Ends
variable {s t : State} {h f3 f7 r2 r1 rd v k o : Nat}

theorem chRow_running (hrun : (s.hart h).state = 1) :
    s.chRow h f3 f7 r2 r1 rd = s.customStep h (customWord f3 f7 r2 r1 rd) := if_pos hrun

/-- An instruction that gives a value writes it to its destination register, and the thread goes on. -/
theorem chRow_value (hrun : (s.hart h).state = 1) (hrd : rd < 32)
    (hc : s.custom h (customWord f3 f7 r2 r1 rd) = .done t (some v)) :
    s.chRow h f3 f7 r2 r1 rd = (t.xw h rd v).retire h 4 := by
  rw [chRow_running hrun, State.customStep, hc]
  simp only [customWord_rd hrd]

theorem chRow_plain (hrun : (s.hart h).state = 1) (hc : s.custom h (customWord f3 f7 r2 r1 rd) = .done t none) :
    s.chRow h f3 f7 r2 r1 rd = t.retire h 4 := by
  rw [chRow_running hrun, State.customStep, hc]

theorem chRow_blocks (hrun : (s.hart h).state = 1) (hc : s.custom h (customWord f3 f7 r2 r1 rd) = .wait t k o) :
    s.chRow h f3 f7 r2 r1 rd = t.block h k o (customWord f3 f7 r2 r1 rd) 4 := by
  rw [chRow_running hrun, State.customStep, hc]

theorem chRow_faults (hrun : (s.hart h).state = 1) (hc : s.custom h (customWord f3 f7 r2 r1 rd) = .fault k) :
    s.chRow h f3 f7 r2 r1 rd = s.trap h 24 k := by
  rw [chRow_running hrun, State.customStep, hc]

end Ends

end Sys2Proof.Proofs
end

section
/-! PROOFS. The channel extension: messages, waits, alarms, doorbells and software interrupts (17_flow_cores.md R449-R462). -/

namespace Sys2Proof.Proofs
open Sys2Proof Sys2Proof.Machine Sys2Proof.Laws

section Channel
variable {s t : State} {h a b : Nat}

theorem chPut_room (hroom : (s.hart h).out.length < 8) :
    s.chPut h a = .done (s.modHart h (fun k => { k with out := k.out ++ [a] })) none := if_neg (by omega)

theorem chPut_full (hfull : 8 ≤ (s.hart h).out.length) : s.chPut h a = .fault 2 := if_pos hfull

/-- The core that a channel address names. -/
theorem chCore_eq (ha : a < 4096) : bits a 11 6 = a / 64 := by simp only [bits]; omega

section Commit
variable {try_ : Bool} (ha : a < 4096) (hout : (s.hart h).out ≠ []) (hdom : s.dom (a / 64) = s.dom (h / 16))
include ha hout hdom

theorem chCommit_room (hon : s.chOn (a / 64) (a % 64) = true) (hunit : s.fencedUnit 1 (a / 64) = false)
    (hroom : s.chFull (a / 64) (a % 64) = false) : s.chCommit h a try_ =
      .done ((s.chPush (a / 64) (a % 64) { words := (s.hart h).out, sender := h }).modHart h (fun k => { k with out := [] }))
        (some 0) := by
  simp [State.chCommit, chCore_eq ha, Nat.div_eq_of_lt ha, hout, hdom, hon, hunit, hroom]

theorem chCommit_full (hon : s.chOn (a / 64) (a % 64) = true) (hunit : s.fencedUnit 1 (a / 64) = false)
    (hfull : s.chFull (a / 64) (a % 64) = true) :
    s.chCommit h a try_ = if try_ then .done s (some 1) else .wait s 4 (a % 64) := by
  simp [State.chCommit, chCore_eq ha, Nat.div_eq_of_lt ha, hout, hdom, hon, hunit, hfull]

theorem chCommit_off (hoff : s.chOn (a / 64) (a % 64) = false) : s.chCommit h a try_ = .fault 5 := by
  simp [State.chCommit, chCore_eq ha, Nat.div_eq_of_lt ha, hout, hdom, hoff]

end Commit

section Receive
variable {try_ : Bool} (ha : a < 64)
include ha

theorem chRecv_head {m : Msg} {l : List Msg} (hown : s.ownsCh h a = true) (hon : s.chOn (h / 16) a = true)
    (hm : s.chMsgs (h / 16) a = m :: l) : s.chRecv h a try_ =
      .done ((s.setMsgs (h / 16) a l).modHart h (fun k => { k with inbox := m.words })) (some (recvWord m)) := by
  simp [State.chRecv, Nat.not_le.2 ha, hown, hon, hm]

theorem chRecv_empty (hown : s.ownsCh h a = true) (hon : s.chOn (h / 16) a = true) (hm : s.chMsgs (h / 16) a = []) :
    s.chRecv h a try_ = if try_ then .done s (some 0) else .wait s 1 a := by
  simp [State.chRecv, Nat.not_le.2 ha, hown, hon, hm]

theorem chRecv_other (hown : s.ownsCh h a = false) : s.chRecv h a try_ = .fault 1 := by
  simp [State.chRecv, Nat.not_le.2 ha, hown]

end Receive

/-- Of the channels of the mask, all the thread's own and enabled, the lowest that holds a message (R453). -/
theorem chSelect_ready {i : Nat}
    (hall : (List.range 64).all (fun i => !bit a i || (s.ownsCh h i && s.chOn (h / 16) i)) = true)
    (hfind : (List.range 64).find? (fun i => bit a i && !(s.chMsgs (h / 16) i).isEmpty) = some i) :
    s.chSelect h a 0 = .done s (some i) := by
  have hown : ((List.range 64).filter (fun i => bit a i)).any (fun i => !s.ownsCh h i) = false := by
    simp only [List.any_eq_false, List.mem_filter]
    rintro j ⟨hj, hbit⟩
    have := List.all_eq_true.1 hall j hj
    simp_all
  have hon : ((List.range 64).filter (fun i => bit a i)).any (fun i => !s.chOn (h / 16) i) = false := by
    simp only [List.any_eq_false, List.mem_filter]
    rintro j ⟨hj, hbit⟩
    have := List.all_eq_true.1 hall j hj
    simp_all
  have hports : (List.range 16).filter (fun i => bit 0 i) = [] := by decide
  have hmsg : ((List.range 64).filter (fun i => bit a i)).find? (fun i => !(s.chMsgs (h / 16) i).isEmpty) = some i := by
    simpa only [List.find?_filter, Bool.decide_and, Bool.decide_eq_true] using hfind
  simp only [State.chSelect, hown, hon, hports, hmsg]
  rfl

theorem chWait_past (hv : ft64Valid a = true) (hle : a ≤ s.now64) : s.chWait a = .done s (some 0) := by
  simp [State.chWait, hv, hle]

theorem chWait_ahead (hv : ft64Valid a = true) (hlt : s.now64 < a) : s.chWait a = .wait s 3 0 := by
  simp [State.chWait, hv, Nat.not_le.2 hlt]

theorem chWait_badTime (hv : ft64Valid a = false) : s.chWait a = .done s (some St.bad_time) := by
  simp [State.chWait, hv]

theorem chAlarm_armed (hb : b < 64) (hon : s.chOn (h / 16) b = true) (hv : ft64Valid a = true)
    (hroom : (s.fc.alarms.filter (·.hart == h)).length < 4) : s.chAlarm h a b =
      .done { s with fc := { s.fc with alarms := s.fc.alarms ++ [{ hart := h, ch := b, time := a }] } } (some 0) := by
  simp [State.chAlarm, Nat.not_le.2 hb, hon, hv, Nat.not_le.2 hroom]

theorem chIpi_inside (ha : a < 1024) (hdom : s.dom (a / 16) = s.dom (h / 16)) :
    s.chIpi h a = .done (s.raiseInt a 3) none := by
  simp [State.chIpi, Nat.not_le.2 ha, hdom]

theorem chIpi_outside (hout : 1024 ≤ a ∨ s.dom (a / 16) ≠ s.dom (h / 16)) : s.chIpi h a = .fault 4 := if_pos hout

theorem chDb_own {x : Ring} (ha : a < 65536) (hr : s.ring a = some x) (hslice : x.slice = s.hartSlice h) :
    s.chDb h a b = .done (s.doorbell a b) (some 0) := by
  simp [State.chDb, Nat.not_le.2 ha, hr, hslice]

/-- A completion of the descriptor that its ring, tag and generation name finishes it (R461). -/
theorem chCpl_current {x : Ring} {g : Flight} (ha : a < 2 ^ 41) (hr : s.ring (a % 65536) = some x)
    (hslice : x.slice = s.hartSlice h) (htype : x.type = 5)
    (hg : x.eng.flight.find? (fun (g : Flight) => g.tag == some (bits a 32 16) && g.cpl.isNone &&
      s.tagGen (bits a 32 16) == bits a 40 33) = some g)
    (ht : t = s.finish (a % 65536) g.count { status := b % 65536, bytes := b / 2 ^ 32, x12 := leBytes 2 (bits b 31 16) }) :
    s.chCpl h a b = .done (t.workDone (a % 65536) g.count (if bits b 31 16 = 0 then b % 65536 else bits b 31 16)) (some 0) := by
  subst ht
  simp only [State.chCpl, Nat.div_eq_of_lt ha, hr, hslice, beq_self_eq_true, htype, if_true, hg]
  exact if_neg (by simp)

/-- A completion for a ring that does not exist is stale: it is counted (R461). -/
theorem chCpl_stale (ha : a < 2 ^ 41) (hr : s.ring (a % 65536) = none) (hlate : s.rng.late = []) :
    s.chCpl h a b = .done (s.fcnt (h / 16) 7) (some 1) := by
  simp only [State.chCpl, Nat.div_eq_of_lt ha, hr, hlate]
  exact if_neg (by simp)

end Channel

/-- Settles O31: what each instruction asks for, in the case that the statement names, and how an instruction ends. -/
theorem channelInstructions : Obligations.ChannelInstructions := by
  refine ⟨?put, ?putFull, ?commit, ?commitFull, ?tcommitFull, ?commitOff, ?drop, ?recv, ?recvEmpty, ?recvOther, ?trecvEmpty,
    ?inWord, ?select, ?waitPast, ?waitAhead, ?waitBad, ?alarm, ?ipi, ?db, ?cpl, ?stale⟩
  case put =>
    exact fun s h rs1 hup hrun hroom => whenMain_released (f := (·.chRow h 0 0 0 rs1 0)) hup
      (chRow_plain hrun (custom_put.trans (chPut_room hroom)))
  case putFull =>
    exact fun s h rs1 hup hrun hfull => whenMain_released (f := (·.chRow h 0 0 0 rs1 0)) hup
      (chRow_faults hrun (custom_put.trans (chPut_full hfull)))
  case commit =>
    rintro s h rs1 rd _ _ _ hup hrun rfl ha rfl rfl hout hdom hon hunit hroom
    exact whenMain_released (f := (·.chRow h 0 1 0 rs1 rd)) hup
      (chRow_value hrun rd.isLt (custom_commit.trans (chCommit_room ha hout hdom hon hunit hroom)))
  case commitFull =>
    rintro s h rs1 rd _ _ _ hup hrun rfl ha rfl rfl hout hdom hon hunit hfull
    exact whenMain_released (f := (·.chRow h 0 1 0 rs1 rd)) hup
      (chRow_blocks hrun (custom_commit.trans (chCommit_full ha hout hdom hon hunit hfull)))
  case tcommitFull =>
    rintro s h rs1 rd _ _ _ hup hrun rfl ha rfl rfl hout hdom hon hunit hfull
    exact whenMain_released (f := (·.chRow h 0 2 0 rs1 rd)) hup
      (chRow_value hrun rd.isLt (custom_tcommit.trans (chCommit_full ha hout hdom hon hunit hfull)))
  case commitOff =>
    rintro s h rs1 rd _ hup hrun rfl ha hout hdom hoff
    exact whenMain_released (f := (·.chRow h 0 1 0 rs1 rd)) hup
      (chRow_faults hrun (custom_commit.trans (chCommit_off ha hout hdom hoff)))
  case drop =>
    exact fun s h hup hrun => whenMain_released (f := (·.chRow h 0 3 0 0 0)) hup (chRow_plain hrun custom_drop)
  case recv =>
    rintro s h rs1 rd _ m l hup hrun rfl ha hown hon hm
    exact whenMain_released (f := (·.chRow h 0 4 0 rs1 rd)) hup
      (chRow_value hrun rd.isLt (custom_recv.trans (chRecv_head ha hown hon hm)))
  case recvEmpty =>
    rintro s h rs1 rd _ hup hrun rfl ha hown hon hm
    exact whenMain_released (f := (·.chRow h 0 4 0 rs1 rd)) hup
      (chRow_blocks hrun (custom_recv.trans (chRecv_empty ha hown hon hm)))
  case recvOther =>
    rintro s h rs1 rd _ hup hrun rfl ha hown
    exact whenMain_released (f := (·.chRow h 0 4 0 rs1 rd)) hup
      (chRow_faults hrun (custom_recv.trans (chRecv_other ha hown)))
  case trecvEmpty =>
    rintro s h rs1 rd _ hup hrun rfl ha hown hon hm
    exact whenMain_released (f := (·.chRow h 0 5 0 rs1 rd)) hup
      (chRow_value hrun rd.isLt (custom_trecv.trans (chRecv_empty ha hown hon hm)))
  case inWord =>
    exact fun s h i rd hup hrun => whenMain_released (f := (·.chRow h 0 6 i 0 rd)) hup
      (chRow_value hrun rd.isLt (custom_in i))
  case select =>
    rintro s h rs1 rs2 rd _ i hup hrun rfl hzero hall hfind
    exact whenMain_released (f := (·.chRow h 0 7 rs2 rs1 rd)) hup
      (chRow_value hrun rd.isLt (custom_select.trans (hzero ▸ chSelect_ready hall hfind)))
  case waitPast =>
    rintro s h rs1 rd _ hup hrun rfl hv hle
    exact whenMain_released (f := (·.chRow h 0 8 0 rs1 rd)) hup
      (chRow_value hrun rd.isLt (custom_wait.trans (chWait_past hv hle)))
  case waitAhead =>
    rintro s h rs1 rd _ hup hrun rfl hv hlt
    exact whenMain_released (f := (·.chRow h 0 8 0 rs1 rd)) hup (chRow_blocks hrun (custom_wait.trans (chWait_ahead hv hlt)))
  case waitBad =>
    exact fun s h rs1 rd hup hrun hv => whenMain_released (f := (·.chRow h 0 8 0 rs1 rd)) hup
      (chRow_value hrun rd.isLt (custom_wait.trans (chWait_badTime hv)))
  case alarm =>
    rintro s h rs1 rs2 rd _ _ hup hrun rfl rfl hb hon hv hroom
    exact whenMain_released (f := (·.chRow h 0 9 rs2 rs1 rd)) hup
      (chRow_value hrun rd.isLt (custom_alarm.trans (chAlarm_armed hb hon hv hroom)))
  case ipi =>
    rintro s h rs1 _ hup hrun rfl ha hdom
    exact whenMain_released (f := (·.chRow h 0 10 0 rs1 0)) hup (chRow_plain hrun (custom_ipi.trans (chIpi_inside ha hdom)))
  case db =>
    rintro s h rs1 rs2 rd _ x hup hrun rfl ha hr hslice
    exact whenMain_released (f := (·.chRow h 1 0 rs2 rs1 rd)) hup
      (chRow_value hrun rd.isLt (custom_db.trans (chDb_own ha hr hslice)))
  case cpl =>
    rintro s t h rs1 rs2 rd _ _ x g hup hrun rfl ha rfl hr hslice htype hg ht
    exact whenMain_released (f := (·.chRow h 1 1 rs2 rs1 rd)) hup
      (chRow_value hrun rd.isLt (custom_cpl.trans (chCpl_current ha hr hslice htype hg ht)))
  case stale =>
    rintro s h rs1 rs2 rd _ hup hrun rfl ha hr hlate
    exact whenMain_released (f := (·.chRow h 1 1 rs2 rs1 rd)) hup
      (chRow_value hrun rd.isLt (custom_cpl.trans (chCpl_stale ha hr hlate)))

/-- Settles O55: a target inside the domain, one outside it, and one that is no thread. -/
theorem softwareInterrupts : Obligations.SoftwareInterrupts := by
  refine ⟨?inside, ?outside, ?beyond⟩
  case inside =>
    rintro s h rs1 _ hup hrun rfl ha hdom
    exact whenMain_released (f := (·.chRow h 0 10 0 rs1 0)) hup (chRow_plain hrun (custom_ipi.trans (chIpi_inside ha hdom)))
  case outside =>
    rintro s h rs1 _ hup hrun rfl _ hdom
    exact whenMain_released (f := (·.chRow h 0 10 0 rs1 0)) hup
      (chRow_faults hrun (custom_ipi.trans (chIpi_outside (.inr hdom))))
  case beyond =>
    exact fun s h rs1 hup hrun ha => whenMain_released (f := (·.chRow h 0 10 0 rs1 0)) hup
      (chRow_faults hrun (custom_ipi.trans (chIpi_outside (.inl ha))))

end Sys2Proof.Proofs
end

section
/-! PROOFS. Packet ports, wakes, alarms, interrupts and the deadlock detector (17_flow_cores.md R437, R455-R458, R464, R465). -/

namespace Sys2Proof.Proofs
open Sys2Proof Sys2Proof.Machine Sys2Proof.Laws

/-! ### Receive and transmit ports -/

section PacketPorts
variable {s t : State} {h p : Nat} {x : RxPort}

section OwnPort
variable {try_ : Bool} (hp : p < 16) (hown : s.ownsRx h p = true)
include hp hown

theorem ptRecv_filled (hx : s.rxp (h / 16) p = x) (hready : x.returned < x.filled) : s.ptRecv h p try_ =
    .done (s.setRxp (h / 16) p { x with returned := x.returned + 1 })
      (some (s.rxEntry (h / 16) p x.returned - s.rd R.FCR_LM_CFG_base (h / 16) (h % 16) * 4096)) := by
  simp [State.ptRecv, Nat.not_le.2 hp, hown, hx, RxPort.ready, hready]

theorem ptRecv_empty (hempty : (s.rxp (h / 16) p).filled ≤ (s.rxp (h / 16) p).returned) :
    s.ptRecv h p try_ = if try_ then .done s (some 0) else .wait s 5 p := by
  simp [State.ptRecv, Nat.not_le.2 hp, hown, RxPort.ready, Nat.not_lt.2 hempty]

theorem ptDone_returned (hx : s.rxp (h / 16) p = x) (hheld : x.released < x.returned) :
    s.ptDone h p = .done (s.setRxp (h / 16) p { x with released := x.released + 1 }) none := by
  simp [State.ptDone, Nat.not_le.2 hp, hown, hx, Nat.not_le.2 hheld]

theorem ptDone_none (hnone : (s.rxp (h / 16) p).returned ≤ (s.rxp (h / 16) p).released) : s.ptDone h p = .fault 7 := by
  simp [State.ptDone, Nat.not_le.2 hp, hown, hnone]

end OwnPort

/-- A transmit descriptor that asks for nothing but its frame, which lies in the thread's local memory (R458). -/
theorem ptSend_plain {a o : Nat} {d : List Byte} (hp : p < 16) (hown : s.ac R.FCR_TXP_CFG_owner (h / 16) p = h % 16)
    (hen : s.ac R.FCR_TXP_CFG_enable (h / 16) p = 1) (hd : s.lmRead h a 64 = some d) (hok : txDescOk d = true)
    (hslice : fieldLE d 0xA 2 = 0) (hk : fieldLE d 0xC 1 = 0) (hr : fieldLE d 0xD 1 = 0)
    (hphys : s.phys h (s.hart h).priv (fieldLE d 0 8) (fieldLE d 8 2) = some (.lm (h / 16) o))
    (hfree : s.injHeld (s.ac R.FCR_TXP_CFG_pipe (h / 16) p) 3 = false) : s.ptSend h p a =
      .done (s.toPipe (s.ac R.FCR_TXP_CFG_pipe (h / 16) p)
        { data := Mem.read (s.fcore (h / 16)).lm o (fieldLE d 8 2), src := 0x200 + h / 16, slice := s.hartSlice h,
          user := fieldLE d 0x18 16 }) (some 0) := by
  have hbit (n : Nat) : bit 0 n = false := by simp [bit_eq_testBit]
  simp [State.ptSend, Nat.not_le.2 hp, hown, hd, hslice, hbit, hen, hok, hphys, hfree, State.physRead, hk, hr, b2n]

variable {c : Nat} {k : Pkt}

theorem portRx_disabled (hk : s.headFull (4688 + 16 * c + p) = some k) (hoff : s.ac R.FCR_RXP_CFG_enable c p ≠ 1) :
    s.portRx c p = (s.swcCnt 6).consume (4688 + 16 * c + p) false := by
  simp [State.portRx, hk, hoff]

/-- A good frame that fits goes whole into the next free entry (R457). -/
theorem portRx_stored (hk : s.headFull (4688 + 16 * c + p) = some k) (hon : s.ac R.FCR_RXP_CFG_enable c p = 1)
    (hunit : s.fencedUnit 1 c = false) (hbad : k.frame.bad = false) (hpoison : k.frame.poison = false) (hx : x = s.rxp c p)
    (hfree : x.filled - x.released < s.rxEntries c p) (hfits : k.frame.data.length ≤ s.rxEsize c p - 64)
    (ht : t = s.physWrite 1024 (.lm c (s.rxEntry c p x.filled)) (pktDesc k ++ k.frame.data)) : s.portRx c p =
      ((t.setRxp c p { x with filled := x.filled + 1 }).clearDl (t.dom c)).consume (4688 + 16 * c + p) true := by
  have hroom : ¬ s.rxEntries c p ≤ (s.rxp c p).filled - (s.rxp c p).released := Nat.not_le.2 (hx ▸ hfree)
  subst hx ht
  simp only [State.portRx, hk, hon, hunit, hbad, hpoison, if_neg hroom, if_neg (Nat.not_lt.2 hfits),
    List.take_of_length_le hfits]
  rfl

end PacketPorts

/-! ### Wakes, alarms and interrupts -/

section Wakes
variable {s t : State} {h : Nat} {b : Blocked}

theorem runTo_hart (s : State) (u h : Nat) : (s.runTo u).hart h = s.hart h := by
  unfold State.runTo
  split <;> rfl

/-- A thread that waits in ch.recv goes on with the head message once there is one (R456). -/
theorem blockedWake_recv {v : Nat} (hwait : (s.hart h).wait = some b) (hst : (s.hart h).state = 2) (hkind : b.kind = 1)
    (hword : b.word = customWord 0 4 0 11 10) (ha : s.xr h 11 < 64) (hown : s.ownsCh h (s.xr h 11) = true)
    (hon : s.chOn (h / 16) (s.xr h 11) = true)
    (ht : t = s.setMsgs (h / 16) (s.xr h 11) ((s.chMsgs (h / 16) (s.xr h 11)).drop 1))
    (hv : (s.chMsgs (h / 16) (s.xr h 11)).head?.map recvWord = some v) : s.blockedWake h =
      (((((t.modHart h (fun k => { k with inbox := ((s.chMsgs (h / 16) (s.xr h 11)).head?.map (·.words)).getD [] })).modHart h
        (fun k => { k with wait := none })).setHartState h 1).xw h 10 v).retire h b.len) := by
  have hcustom : s.custom h b.word = s.chRecv h (s.xr h 11) false := hword ▸ custom_recv (rs1 := 11) (rd := 10)
  have hrd : bits b.word 11 7 = 10 := hword ▸ customWord_rd (by decide)
  cases hm : s.chMsgs (h / 16) (s.xr h 11) with
  | nil => simp [hm] at hv
  | cons m l =>
    have hval : recvWord m = v := by simpa [hm] using hv
    rw [chRecv_head ha hown hon hm] at hcustom
    subst ht
    simp only [State.blockedWake, hwait, hst, hkind, hcustom, hrd, hval, hm]
    rfl

theorem alarmFire_next {a : FcAlarm} (ha : s.nextAlarm = some a) (ht : t = s.runTo (ft64Units a.time)) : s.alarmFire =
    ({ t with fc := { t.fc with alarms := t.fc.alarms.erase a } } : State).devMsg (a.hart / 16) a.ch [a.time] := by
  subst ht
  simp only [State.alarmFire, ha]

/-- A blocking instruction ends with a value. -/
theorem wakeWith_waiting {v : Nat} (hwait : (s.hart h).wait = some b) : s.wakeWith h v =
    ((((s.modHart h (fun k => { k with wait := none })).setHartState h 1).xw h (bits b.word 11 7) v).retire h b.len) := by
  simp only [State.wakeWith, hwait]

theorem chWaitEnd_blocked (hwait : (s.hart h).wait = some b) (hst : (s.hart h).state = 2) (hkind : b.kind = 3) :
    s.chWaitEnd h = (s.runTo (ft64Units (s.xr h (bits b.word 19 15)))).wakeWith h 0 := by
  simp [State.chWaitEnd, hwait, hst, hkind]

theorem chWaitEnd_waiting (hwait : (s.hart h).wait = some b) (hst : (s.hart h).state = 2) (hkind : b.kind = 3)
    (ht : t = s.runTo (ft64Units (s.xr h (bits b.word 19 15)))) : s.chWaitEnd h =
      ((((t.modHart h (fun k => { k with wait := none })).setHartState h 1).xw h (bits b.word 11 7) 0).retire h b.len) := by
  have hlater : (t.hart h).wait = some b := by rw [ht, runTo_hart, hwait]
  rw [chWaitEnd_blocked hwait hst hkind, ← ht, wakeWith_waiting hlater]

theorem unblock_running (hst : (s.hart h).state ≠ 2) : s.unblock h = s := if_neg hst

theorem takeInterrupt_running {c : Nat} {toS : Bool} (hst : (s.hart h).state = 1) (hint : s.takenInt h = some (c, toS)) :
    s.takeInterrupt h = (s.modHart h (fun k => { k with passBrk := false })).enterTrap h toS true c 0 := by
  simp [State.takeInterrupt, hst, hint, unblock_running]

end Wakes

theorem on_event (s : State) (f : Fld) (i block inst code : Nat) (d : List Byte) :
    (s.event block inst code d).on f i = s.on f i := rfl

/-- The detector latches a deadlocked domain of one core once (R464, R465). -/
theorem deadlockDetect_core {s t : State} {d l : Nat} (hdead : s.deadlocked d = true) (hnew : s.fc.dlOn.contains d = false)
    (hcores : s.domCores d = [l]) (ht : t = ((s.snapCore l).raise R.FCR_CORE_STATUS_dl l).fcnt l 6)
    (hsup : t.on R.FCR_CORE_CFG_sup_en l = false) : s.deadlockDetect d =
      (let u := t.event 0x0F l 1 (leBytes 1 d ++ leBytes 1 0 ++ leBytes 2 (s.domHarts d).length ++ leBytes 4 0 ++ leBytes 8 (2 ^ l))
      { u with fc := { u.fc with dlOn := u.fc.dlOn ++ [d] } }) := by
  simp only [State.deadlockDetect, hdead, hnew, hcores, List.headD_cons, List.foldl_cons, List.foldl_nil, ← ht, on_event, hsup,
    Nat.zero_add]
  rfl

/-- Settles O32: the ports' instructions in the case that the statement names, and each wake, alarm, interrupt and detection. -/
theorem packetPortsAndWakes : Obligations.PacketPortsAndWakes := by
  refine ⟨?recv, ?recvEmpty, ?trecvEmpty, ?done, ?doneNone, ?send, ?rxOff, ?rxStored, ?wake, ?alarm, ?waitEnd, ?interrupt, ?deadlock⟩
  case recv =>
    rintro s h rs1 rd _ x hup hrun rfl hp hown hx hready
    exact whenMain_released (f := (·.chRow h 2 0 0 rs1 rd)) hup
      (chRow_value hrun rd.isLt (custom_ptRecv.trans (ptRecv_filled hp hown hx hready)))
  case recvEmpty =>
    rintro s h rs1 rd _ hup hrun rfl hp hown hempty
    exact whenMain_released (f := (·.chRow h 2 0 0 rs1 rd)) hup
      (chRow_blocks hrun (custom_ptRecv.trans (ptRecv_empty hp hown hempty)))
  case trecvEmpty =>
    rintro s h rs1 rd _ hup hrun rfl hp hown hempty
    exact whenMain_released (f := (·.chRow h 2 1 0 rs1 rd)) hup
      (chRow_value hrun rd.isLt (custom_ptTrecv.trans (ptRecv_empty hp hown hempty)))
  case done =>
    rintro s h rs1 _ x hup hrun rfl hp hown hx hheld
    exact whenMain_released (f := (·.chRow h 2 2 0 rs1 0)) hup
      (chRow_plain hrun (custom_ptDone.trans (ptDone_returned hp hown hx hheld)))
  case doneNone =>
    rintro s h rs1 _ hup hrun rfl hp hown hnone
    exact whenMain_released (f := (·.chRow h 2 2 0 rs1 0)) hup
      (chRow_faults hrun (custom_ptDone.trans (ptDone_none hp hown hnone)))
  case send =>
    rintro s h rs1 rs2 rd _ o d hup hrun rfl hp hown hen hd hok hslice hk hr hphys hfree
    exact whenMain_released (f := (·.chRow h 2 3 rs2 rs1 rd)) hup (chRow_value hrun rd.isLt
      (custom_ptSend.trans (ptSend_plain hp hown hen hd hok hslice hk hr hphys hfree)))
  case rxOff =>
    exact fun s c p k hup hk hoff => whenMain_released (f := (·.portRx c p)) hup (portRx_disabled hk hoff)
  case rxStored =>
    exact fun s t c p k x hup hk hon hunit hbad hpoison hx hfree hfits ht => whenMain_released (f := (·.portRx c p)) hup
      (portRx_stored hk hon hunit hbad hpoison hx hfree hfits ht)
  case wake =>
    rintro s t _ h b v hup hwait hst hkind hword ha hown hon ht hv rfl
    exact whenMain_released (f := (·.blockedWake h)) hup (blockedWake_recv hwait hst hkind hword ha hown hon ht hv)
  case alarm =>
    exact fun s t a hup ha ht => whenMain_released (f := (·.alarmFire)) hup (alarmFire_next ha ht)
  case waitEnd =>
    exact fun s t h b hup hwait hst hkind ht => whenMain_released (f := (·.chWaitEnd h)) hup
      (chWaitEnd_waiting hwait hst hkind ht)
  case interrupt =>
    exact fun s h c b hup hst hint => whenMain_released (f := (·.takeInterrupt h)) hup (takeInterrupt_running hst hint)
  case deadlock =>
    exact fun s t d l hup hdead hnew hcores ht hsup => whenMain_released (f := (·.deadlockDetect d)) hup
      (deadlockDetect_core hdead hnew hcores ht hsup)

end Sys2Proof.Proofs
end

section
/-! PROOFS. Threads started, stopped, halted, stepped and examined; a clock of a core (17_flow_cores.md R443-R449, R466,
R467). -/

namespace Sys2Proof.Proofs
open Sys2Proof Sys2Proof.Machine Sys2Proof.Laws

/-! ### What FCR_ makes of a write of its registers -/

section FcrWrites
variable {s : State} {req : Req} {n i j v : Nat}

theorem blockWr_threadCfg : s.blockWr req (blkOf 0x0F) n R.reg_FCR_THREAD_CFG i j 0 v = s.threadCfg (16 * i + j) v := rfl
theorem blockWr_dbgCtrl : s.blockWr req (blkOf 0x0F) n R.reg_FCR_DBG_CTRL i j 0 v = s.dbgCtrl (16 * i + j) v := rfl
theorem blockWr_dbgSel : s.blockWr req (blkOf 0x0F) n R.reg_FCR_DBG_SEL i 0 0 v = s.dbgSel i v := rfl
theorem blockWr_chCfg : s.blockWr req (blkOf 0x0F) n R.reg_FCR_CH_CFG i j 0 v = s.chCfg i j v := rfl

/-- A field takes what is written modulo its width. -/
theorem wr_mod (f : Fld) (i j k : Nat) : s.wr f (v % 2 ^ f.wd) i j k = s.wr f v i j k := by
  rw [State.wr, State.wr, Nat.mod_mod]

end FcrWrites

/-! ### Start and stop -/

section Threads
variable {s t : State} {req : Req} {h : Fin 1024}

/-- The word of a start or a stop: the slice as it stands, and the bit. -/
abbrev threadWord (s : State) (h : Nat) (en : Bool) : Nat :=
  elemWord s R.reg_FCR_THREAD_CFG [(R.FCR_THREAD_CFG_enable, b2n en)] (h / 16) (h % 16) 0

theorem threadWord_enable (en : Bool) : bit (threadWord s h en) 0 = en :=
  bit_elemWord (g := R.FCR_THREAD_CFG_enable) rfl (by simp) rfl

theorem threadWord_slice (en : Bool) : bits (threadWord s h en) 31 20 = s.hartSlice h % 2 ^ 12 := by
  have hkept := part_elemWord_other (s := s) (r := R.reg_FCR_THREAD_CFG) (i := h / 16) (j := h % 16) (k := 0)
    [(R.FCR_THREAD_CFG_enable, b2n en)] R.FCR_THREAD_CFG_slice (by decide) (by decide)
    (by simp only [List.mem_singleton, forall_eq]; decide)
  refine hkept.trans ?_
  simp [part_eq, State.image, State.hartSlice, R.reg_FCR_THREAD_CFG, R.FCR_THREAD_CFG_slice, R.FCR_THREAD_CFG_enable]
  omega

theorem threadOp_takes {en : Bool} (htakes : s.takes req 0x0F (h / 16) R.reg_FCR_THREAD_CFG (h / 16))
    (ht : s.threadCfg h (threadWord s h en) = t) : s.threadOp req h en = t.after :=
  wrFlds_block _ htakes (by decide) (blockWr_threadCfg.trans (by rw [Nat.div_add_mod]; exact ht))

/-- A disabled thread starts in M mode at its start address with its number in x10 (R443). -/
theorem threadCfg_start (hoff : (s.hart h).state = 0) (ht : t = (s.wr R.FCR_THREAD_CFG_slice (s.hartSlice h) (h / 16) (h % 16)).wr
    R.FCR_THREAD_CFG_enable 1 (h / 16) (h % 16)) : s.threadCfg h (threadWord s h true) =
      (t.setHart h
        { pc := t.rd R.FCR_THREAD_PC_pc (h / 16) (h % 16), x := Store.put 0 [] 10 h, readyAt := (t.fcore (h / 16)).clk }
        ).setHartState h 1 := by
  have hslice : s.wr R.FCR_THREAD_CFG_slice (s.hartSlice h % 2 ^ 12) (h / 16) (h % 16) =
      s.wr R.FCR_THREAD_CFG_slice (s.hartSlice h) (h / 16) (h % 16) := wr_mod R.FCR_THREAD_CFG_slice _ _ _
  have hstill : ((s.wr R.FCR_THREAD_CFG_slice (s.hartSlice h) (h / 16) (h % 16)).hart h).state = 0 := hoff
  simp only [State.threadCfg, threadWord_slice, threadWord_enable, hoff, beq_self_eq_true, if_true, hslice,
    State.threadEnable, hstill, ← ht]
  rfl

theorem threadCfg_stop (hon : (s.hart h).state ≠ 0) (hslice : s.hartSlice h < 4096)
    (ht : t = (((s.wr R.FCR_THREAD_CFG_enable 0 (h / 16) (h % 16)).vaultForget h).setHartState h 0).setHart h {}) :
    s.threadCfg h (threadWord s h false) =
      { t with fc := { t.fc with alarms := t.fc.alarms.filter (·.hart != h.val) } } := by
  have hsame : s.hartSlice h % 2 ^ 12 = s.hartSlice h := Nat.mod_eq_of_lt hslice
  have hoff : ((s.hart h).state == 0) = false := by simpa using hon
  have hstill : ((s.wr R.FCR_THREAD_CFG_enable 0 (h / 16) (h % 16)).hart h).state ≠ 0 := hon
  simp only [State.threadCfg, threadWord_slice, threadWord_enable, hoff, hsame, Bool.false_eq_true, if_false, if_true,
    State.threadDisable, if_neg hstill, ← ht]

end Threads

/-! ### Channels -/

section Channels
variable {s : State} {c ch : Fin 64} {v : Nat}

theorem chCfg_tooDeep (hen : bit v 31 = true) (hdepth : 16 < bits v 12 8) : s.chCfg c ch v = s.refusedWr := by
  simp [State.chCfg, hen, hdepth]

/-- With no other channel of the core enabled, the depth stays within the core's limit (R449). -/
theorem chCfg_alone (hen : bit v 31 = true) (hdepth : bits v 12 8 ≤ 16)
    (hothers : (List.range 64).all (fun i => i == ch.val || !s.chOn c i) = true) (hempty : s.chMsgs c ch = []) :
    s.chCfg c ch v = s.putReg false R.reg_FCR_CH_CFG c ch 0 v := by
  have hsum : (List.range 64).foldl (fun a i => if i ≠ (ch : Nat) ∧ s.chOn c i = true then a + s.chDepth c i else a)
      (max 1 (bits v 12 8)) = max 1 (bits v 12 8) :=
    List.foldlRecOn _ _ (motive := fun a => a = max 1 (bits v 12 8)) rfl fun a ha i hi => by
      have hone := List.all_eq_true.1 hothers i hi
      have hskip : ¬ (i ≠ (ch : Nat) ∧ s.chOn c i = true) := by
        rintro ⟨hne, hon⟩
        simp [hne, hon] at hone
      rw [if_neg hskip, ha]
  have hfits : ¬ (16 < bits v 12 8 ∨ 512 < max 1 (bits v 12 8) ∨ max 1 (bits v 12 8) < (s.chMsgs c ch).length) := by
    rw [hempty, List.length_nil]
    omega
  simp only [State.chCfg, hen, hsum, if_neg hfits]
  rfl

end Channels

/-! ### Debug -/

section Debug
variable {s t : State} {req : Req}

/-- FCR_DBG_CTRL holds nothing: a write of one of its bits writes that bit alone. -/
theorem dbgOp_takes {h : Fin 1024} (f : Fld) (htakes : s.takes req 0x0F (h / 16) R.reg_FCR_DBG_CTRL (h / 16))
    (ht : s.dbgCtrl h (showFld 0 f 1 % 2 ^ 32) = t) : s.dbgOp req h f = t.after :=
  wrFlds_block [(f, 1)] htakes (by decide) (blockWr_dbgCtrl.trans (by rw [Nat.div_add_mod]; exact ht))

theorem dbgCtrl_halt (h : Nat) : s.dbgCtrl h (showFld 0 R.FCR_DBG_CTRL_halt 1 % 2 ^ 32) = s.haltHart h := rfl
theorem dbgCtrl_resume (h : Nat) : s.dbgCtrl h (showFld 0 R.FCR_DBG_CTRL_resume 1 % 2 ^ 32) = s.resumeHart h := rfl
theorem dbgCtrl_discard (h : Nat) :
    s.dbgCtrl h (showFld 0 R.FCR_DBG_CTRL_discard_outbox 1 % 2 ^ 32) = s.discardOutbox h := rfl

theorem dbgCtrl_step {h : Nat} (hst : (s.hart h).state = 3) : s.dbgCtrl h (showFld 0 R.FCR_DBG_CTRL_step 1 % 2 ^ 32) =
    (s.modHart h (fun k => { k with stepping := true })).setHartState h 1 := by
  have hword : showFld 0 R.FCR_DBG_CTRL_step 1 % 2 ^ 32 = 4 := by decide
  have h4 : bit 4 4 = false := by decide
  have h2 : bit 4 2 = true := by decide
  have h0 : bit 4 0 = false := by decide
  rw [hword]
  simp [State.dbgCtrl, h4, h2, h0, hst]

theorem haltHart_running {h : Nat} (hst : (s.hart h).state = 1) : s.haltHart h =
    ((s.unblock h).modHart h (fun k => { k with stepping := false })).setHartState h 3 := if_pos (.inl hst)

theorem resumeHart_halted {h : Nat} (hst : (s.hart h).state = 3) : s.resumeHart h = s.setHartState h 1 := if_pos hst

theorem discardOutbox_halted {h : Nat} (hst : (s.hart h).state = 3) :
    s.discardOutbox h = s.modHart h (fun k => { k with out := [] }) := if_pos hst

/-- The word of FCR_DBG_SEL that asks for an access. -/
abbrev dbgWord (d : Fin 16) (r : Fin 8192) (wr : Bool) : Nat := r + d * 2 ^ 13 + b2n wr * 2 ^ 30 + 2 ^ 31

theorem dbgWord_read (d : Fin 16) (r : Fin 8192) : r.val + d.val * 2 ^ 13 + 2 ^ 31 = dbgWord d r false := by
  simp [dbgWord, b2n]

theorem dbgWord_write (d : Fin 16) (r : Fin 8192) : r.val + d.val * 2 ^ 13 + 2 ^ 30 + 2 ^ 31 = dbgWord d r true := by
  simp [dbgWord, b2n]

theorem dbgWord_lt (d : Fin 16) (r : Fin 8192) (wr : Bool) : dbgWord d r wr < 2 ^ 32 := by
  have := b2n_lt_two wr
  simp only [dbgWord]
  omega

theorem dbgWord_go (d : Fin 16) (r : Fin 8192) (wr : Bool) : bit (dbgWord d r wr) 31 = true := by
  have := b2n_lt_two wr
  rw [bit_eq_div, beq_iff_eq]
  simp only [dbgWord]
  omega

/-- A write of FCR_DBG_SEL in service is stored, and the access is made. -/
theorem dbgAccess_takes {c : Fin 64} {d : Fin 16} {r : Fin 8192} {wr : Bool}
    (htakes : s.takes req 0x0F c R.reg_FCR_DBG_SEL c)
    (ht : (s.putReg false R.reg_FCR_DBG_SEL c 0 0 (dbgWord d r wr)).dbgGo c = t) : s.dbgAccess req c d r wr = t.after :=
  wrReg_block _ htakes (by decide) (dbgWord_lt d r wr) (blockWr_dbgSel.trans ((if_pos (dbgWord_go d r wr)).trans ht))

section Access
variable {c d r v : Nat} (hd : s.rd R.FCR_DBG_SEL_thread c = d)
include hd

theorem dbgGo_running (hst : (s.hart (16 * c + d)).state ≠ 3) : s.dbgGo c = s.raise R.FCR_DBG_SEL_err c := by
  simp [State.dbgGo, hd, hst]

theorem dbgGo_read (hr : s.rd R.FCR_DBG_SEL_reg c = r) (hwr : s.on R.FCR_DBG_SEL_wr c = false)
    (hst : (s.hart (16 * c + d)).state = 3) (hv : s.dbgGet (16 * c + d) r = some v) :
    s.dbgGo c = (s.wr R.FCR_DBG_SEL_err 0 c).wr R.FCR_DBG_DATA_data v c := by
  simp [State.dbgGo, hd, hr, hwr, hst, hv]

theorem dbgGo_write (hr : s.rd R.FCR_DBG_SEL_reg c = r) (hwr : s.on R.FCR_DBG_SEL_wr c = true)
    (hst : (s.hart (16 * c + d)).state = 3) (hlow : r < 0x20) :
    s.dbgGo c = (s.wr R.FCR_DBG_SEL_err 0 c).xw (16 * c + d) r (s.rd R.FCR_DBG_DATA_data c) := by
  have hcsr : bit r 12 = false := by
    rw [bit_eq_div, beq_eq_false_iff_ne]
    omega
  simp [State.dbgGo, hd, hr, hwr, hst, State.dbgPut, hcsr, hlow]

end Access

variable {h k a n i : Nat}

/-- A match halts the threads of the breakpoint's mask (R467). -/
theorem breakpoint_match (hst : (s.hart h).state = 1) (hpass : k ≠ 1 ∨ (s.hart h).passBrk = false)
    (hm : s.brkMatch h k a n = some i) (ht : t = (List.range 16).foldl (fun s t =>
      if bit (s.rd R.FCR_BRK_CTL_threads (h / 16) i) t then s.haltHart (16 * (h / 16) + t) else s) s) :
    s.breakpoint h k a n = (t.modHart h (fun x => { x with passBrk := t.rd R.FCR_BRK_CTL_kind (h / 16) i == 1 })).event
      0x0F (h / 16) 2 (leBytes 1 (h % 16) ++ leBytes 1 i ++ List.replicate 6 0 ++ leBytes 8 (s.hart h).pc) := by
  have hgo : ¬ ((s.hart h).state ≠ 1 ∨ k = 1 ∧ (s.hart h).passBrk = true) := by
    rcases hpass with hk | hp <;> simp_all
  simp only [State.breakpoint, if_neg hgo, hm, State.breakHit, ← ht]

theorem breakpoint_none (hm : s.brkMatch h k a n = none) : s.breakpoint h k a n = s := by
  simp [State.breakpoint, hm]

end Debug

/-! ### One clock of a core -/

section Issue
variable {s t u : State} {c h : Nat}

theorem issue_idle (hnone : s.issuer c = none) (ht : t = s.fcnt c 2) :
    s.issue c = t.setFcore c { t.fcore c with clk := (t.fcore c).clk + 1 } := by
  subst ht
  simp only [State.issue, hnone]

theorem takeInterrupt_none (hint : s.takenInt h = none) : s.takeInterrupt h = s := by
  simp [State.takeInterrupt, hint]

/-- The slot's thread issues when nothing holds it up (R445). -/
theorem issue_slot (hh : s.issuer c = some h) (hst : (s.hart h).state = 1) (hslot : h % 16 < 8) (hint : s.takenInt h = none)
    (hbrk : s.brkMatch h 1 (s.hart h).pc 2 = none) (ht : t = s.fcnt c 0)
    (hu : u = (t.modHart h (fun x => { x with readyAt := (s.fcore c).clk + 8 })).runOne h) :
    s.issue c = u.setFcore c { u.fcore c with clk := (u.fcore c).clk + 1 } := by
  have hfill : ¬ 8 ≤ h % 16 := Nat.not_le.2 hslot
  subst ht hu
  simp only [State.issue, hh, takeInterrupt_none hint, breakpoint_none hbrk, hst, decide_eq_false hfill, if_neg hfill]
  rfl

end Issue

/-- Settles O33: a write of each register in service is what FCR_ makes of it, and each is read off its one case. -/
theorem threadsAndDebug : Obligations.ThreadsAndDebug := by
  refine ⟨?start, ?stop, ?tooDeep, ?channel, ?halt, ?resume, ?step, ?discard, ?read, ?readRunning, ?write, ?breaks, ?passes,
    ?idle, ?issues⟩
  case start =>
    exact fun s t req h htakes hoff ht => congrArg s.done (threadOp_takes htakes (threadCfg_start hoff ht))
  case stop =>
    exact fun s t req h htakes hon hslice ht => congrArg s.done (threadOp_takes htakes (threadCfg_stop hon hslice ht))
  case tooDeep =>
    exact fun s req c ch v htakes hv hen hdepth => congrArg s.done
      (wrReg_block v htakes (by decide) hv (blockWr_chCfg.trans (chCfg_tooDeep hen hdepth)))
  case channel =>
    exact fun s req c ch v htakes hv hen hdepth hothers hempty => congrArg s.done
      (wrReg_block v htakes (by decide) hv (blockWr_chCfg.trans (chCfg_alone hen hdepth hothers hempty)))
  case halt =>
    exact fun s req h htakes hst => congrArg s.done
      (dbgOp_takes _ htakes ((dbgCtrl_halt h).trans (haltHart_running hst)))
  case resume =>
    exact fun s req h htakes hst => congrArg s.done
      (dbgOp_takes _ htakes ((dbgCtrl_resume h).trans (resumeHart_halted hst)))
  case step =>
    exact fun s req h htakes hst => congrArg (fun t : State => s.done (State.stepRun 24 h t).drainDue)
      (dbgOp_takes _ htakes (dbgCtrl_step hst))
  case discard =>
    exact fun s req h htakes hst => congrArg s.done
      (dbgOp_takes _ htakes ((dbgCtrl_discard h).trans (discardOutbox_halted hst)))
  case read =>
    intro s t req c d r v htakes ht hd hr hwr hst hv
    rw [dbgWord_read] at ht
    exact congrArg s.done (dbgAccess_takes htakes (ht ▸ dbgGo_read hd hr hwr hst hv))
  case readRunning =>
    intro s t req c d r htakes ht hd hst
    rw [dbgWord_read] at ht
    exact congrArg s.done (dbgAccess_takes htakes (ht ▸ dbgGo_running hd hst))
  case write =>
    intro s t req c d r htakes ht hd hr hwr hst hlow
    rw [dbgWord_write] at ht
    exact congrArg s.done (dbgAccess_takes htakes (ht ▸ dbgGo_write hd hr hwr hst hlow))
  case breaks =>
    exact fun s t h k a n i hup hst hpass hm ht =>
      whenMain_released (f := (·.breakpoint h k a n)) hup (breakpoint_match hst hpass hm ht)
  case passes =>
    exact fun s h k a n hup hm => whenMain_released (f := (·.breakpoint h k a n)) hup (breakpoint_none hm)
  case idle =>
    exact fun s t c hup hnone ht => whenMain_released (f := fun s => (s.issue c).drainDue) hup
      (congrArg State.drainDue (issue_idle hnone ht))
  case issues =>
    exact fun s t u c h hup hh hst hslot hint hbrk ht hu => whenMain_released (f := fun s => (s.issue c).drainDue) hup
      (congrArg State.drainDue (issue_slot hh hst hslot hint hbrk ht hu))

end Sys2Proof.Proofs
end

section
/-! PROOFS. Vault instructions: checks, requests, locks and zeroisation (17_flow_cores.md R463; 18_cipher_vault.md R472-R484). -/

namespace Sys2Proof.Proofs
open Sys2Proof Sys2Proof.Machine Sys2Proof.Laws

section VaultInstructions
variable {s : State} {h a b i : Nat}

/-- The operation that a thread asks for joins the requests that wait for an engine. -/
abbrev withReq (s : State) (q : VaultReq) : State := { s with vlt := { s.vlt with reqs := s.vlt.reqs ++ [q] } }

theorem vaultAsk_passed {slot use : Nat} {op : VaultOp} (hcheck : s.slotCheck (s.hartSlice h) slot (some use) = 0) :
    s.vaultAsk h slot use false op = .wait (withReq s { hart := h, op := some op }) 8 0 := by
  simp [State.vaultAsk, hcheck]

theorem vaultAsk_failed {slot use : Nat} {op : VaultOp} {locked : Bool}
    (hcheck : s.slotCheck (s.hartSlice h) slot (some use) ≠ 0) :
    s.vaultAsk h slot use locked op = .done s (some (s.slotCheck (s.hartSlice h) slot (some use))) := by
  simp [State.vaultAsk, hcheck]

/-- An operand below 65,536 asks for one block, enciphered by whichever engine is free. -/
theorem vxBlk_one (ha : a % 16 = 0) (hb : b < 65536) (hown : (s.ownLm h a 16).isSome = true) : s.vxBlk h a b =
    s.vaultAsk h b 0 false { hart := h, cmac := false, a := a, b := b, slot := b, locked := false } := by
  have hcount : bits b 31 24 = 0 := by simp only [bits]; omega
  have hrest : bits b 23 18 = 0 := by simp only [bits]; omega
  have hhigh : b / 2 ^ 32 = 0 := by omega
  have hdir : bit b 16 = false := by rw [bit_eq_div, beq_eq_false_iff_ne]; omega
  have hlock : bit b 17 = false := by rw [bit_eq_div, beq_eq_false_iff_ne]; omega
  have hslot : b % 65536 = b := Nat.mod_eq_of_lt hb
  have hmem : ¬ (a % 16 ≠ 0 ∨ (s.ownLm h a (16 * 1)).isNone = true) := by
    rintro (hodd | hnone)
    · exact hodd ha
    · rw [Option.isNone_iff_eq_none] at hnone
      simp [hnone] at hown
  simp only [State.vxBlk, hcount, hrest, hhigh, hdir, hlock, hslot, Nat.zero_add, if_neg hmem]
  rfl

theorem vxLock_waits (ha : a < 65536) (hready : s.keyReady = true) (hnone : s.lockOf h = none) :
    s.vxLock h a = .wait (withReq s { hart := h, op := none, preload := a }) 8 0 := by
  simp [State.vxLock, Nat.div_eq_of_lt ha, hready, hnone]

theorem vxLock_second (ha : a < 65536) (hready : s.keyReady = true) (hheld : (s.lockOf h).isSome = true) :
    s.vxLock h a = .done s (some St.vx_lock_held) := by
  simp [State.vxLock, Nat.div_eq_of_lt ha, hready, hheld]

theorem vxUnlock_held {e : Nat} (hlock : s.lockOf h = some e) (hholder : (s.eng e).holder = some h)
    (hrun : (s.eng e).run = none) :
    s.vxUnlock h = .done (s.setEng e { s.eng e with holder := none, endLock := false }) (some 0) := by
  simp [State.vxUnlock, hlock, State.endLockOf, hholder, hrun]

theorem vxUnlock_none (hlock : s.lockOf h = none) : s.vxUnlock h = .done (s.toldLost h) (some St.vx_no_lock) := by
  simp [State.vxUnlock, hlock]

/-- A message in memory that is begun and ended by one part (R481). -/
theorem vxCmac_whole {d : List Byte} {p : Phys} (ha : a % 16 = 0) (hd : s.lmRead h a 48 = some d) (hpos : 0 < cmLen d)
    (hlen : cmLen d ≤ 65536) (hflags : cmFlags d = 3) (hzero : fieldLE d 0xF 1 = 0) (hrest : fieldLE d 0x20 16 = 0)
    (hp : s.phys h (s.hart h).priv (cmMsg d) (cmLen d) = some p) (hmem : p.key < 2 ^ 63)
    (hcheck : s.slotCheck (s.hartSlice h) (cmSlot d) (some 2) = 0) {op : VaultOp}
    (hop : op = { hart := h, cmac := true, a := a, b := 0, slot := cmSlot d, locked := false }) :
    s.vxCmac h a 0 = .wait (withReq s { hart := h, op := some op }) 8 0 := by
  subst hop
  have hunlocked : bit 0 0 = false := by decide
  have hlast : bit 3 1 = true := by decide
  have hne : cmLen d ≠ 0 := by omega
  have hfits : ¬ 65536 < cmLen d := by omega
  cases p with
  | bar0 o => simp only [Phys.key] at hmem; omega
  | lm c o => simp [State.vxCmac, ha, hd, hne, hp, hunlocked, vaultAsk_passed hcheck, hflags, hzero, hrest, hfits, hlast]
  | l2 o => simp [State.vxCmac, ha, hd, hne, hp, hunlocked, vaultAsk_passed hcheck, hflags, hzero, hrest, hfits, hlast]
  | hbm o => simp [State.vxCmac, ha, hd, hne, hp, hunlocked, vaultAsk_passed hcheck, hflags, hzero, hrest, hfits, hlast]

theorem vxImport_checked {d : List Byte} (ha : a % 16 = 0) (hd : s.lmRead h a 64 = some d) (hready : s.keyReady = true)
    (hslot : fieldLE d 0 2 ≠ 0) (hst : (s.keySlot (fieldLE d 0 2)).state ≠ 0)
    (hslice : (s.keySlot (fieldLE d 0 2)).slice = s.hartSlice h)
    (hcheck : s.importCheck (fieldLE d 0 2) (fieldLE d 2 2) false = 0) (hlen : fieldLE d 4 1 = 32)
    (hzero : fieldLE d 5 11 = 0) (hrest : fieldLE d 0x30 16 = 0) : s.vxImport h a =
      .wait (s.importStart { slot := fieldLE d 0 2, kek := fieldLE d 2 2, blob := sliceBytes d 0x10 32, for_ := .hart h }) 8 0 := by
  simp [State.vxImport, ha, hd, hready, hslot, hst, hslice, hcheck, hlen, hzero, hrest]

/-- A slot that no import holds is zeroised at once (R474). -/
theorem zeroFor_free (free : Bool) (w : Option ImportFor) (hst : (s.keySlot i).state ≠ 2) :
    s.zeroFor i free w = (false, s.slotZero i free) := if_neg hst

theorem vxZero_own (hpos : 0 < i) (hi : i < 65536) (hready : s.keyReady = true) (hst : (s.keySlot i).state ≠ 0)
    (hfree : (s.keySlot i).state ≠ 2) (hslice : (s.keySlot i).slice = s.hartSlice h) :
    s.vxZero h i = .done (s.slotZero i false) (some 0) := by
  have hne : i ≠ 0 := by omega
  simp [State.vxZero, Nat.div_eq_of_lt hi, hready, hne, hst, hslice, zeroFor_free _ _ hfree]

end VaultInstructions

/-! ### Giving engines, and the end of locks -/

section Grants
variable {s t : State} {e : Nat} {q : VaultReq}

/-- The request that is served leaves the queue. -/
abbrev withoutReq (s : State) (q : VaultReq) : State := { s with vlt := { s.vlt with reqs := s.vlt.reqs.erase q } }

/-- An operation gets its engine, with its slot's key loaded (R472). -/
theorem lockGrant_run {o : VaultOp} (hnext : s.nextReq = some (q, e)) (hop : q.op = some o) (he : e ≠ 64)
    (hunlocked : o.locked = false) (ht : t = (withoutReq s q).loadKey e o.slot) (hst : (s.keySlot o.slot).state = 3) :
    s.lockGrant false =
      (let u := t.setEng e { t.eng e with run := some { o with key := (s.keySlot o.slot).key }, lockAt := t.time.ft }
      { u with vlt := { u.vlt with last := e } }) := by
  have hkey : (withoutReq s q).keySlot o.slot = s.keySlot o.slot := rfl
  simp only [State.lockGrant, hnext, hop, if_neg he, hkey, hst, Bool.false_and, hunlocked, ← ht]
  rfl

theorem lockGrant_lock (hnext : s.nextReq = some (q, e)) (hop : q.op = none) (hpre : q.preload = 0xFFFF)
    (ht : t = (withoutReq s q).setEng e { s.eng e with holder := some q.hart, lockAt := s.time.ft, endLock := false }) :
    s.lockGrant false = ((({ t with vlt := { t.vlt with last := e } } : State).toldLost q.hart).wakeWith q.hart e) := by
  subst ht
  simp only [State.lockGrant, hnext, hop, hpre]
  rfl

theorem leaseExpire_held {x : Nat} (hholder : (s.eng e).holder = some x) (hrun : (s.eng e).run = none)
    (hus : s.rd R.VLT_CFG_lock_lease_us ≠ 0) : s.leaseExpire e =
      ((s.runTo ((s.eng e).lockAt + s.rd R.VLT_CFG_lock_lease_us * unitsPerUs)).vcnt 7).endLockOf e true := by
  simp [State.leaseExpire, hholder, hrun, hus]

/-- Who may write VLT_ENG_LOCK does not depend on the engine. -/
theorem takes_engLock {req : Req} (e : Nat) (h : s.takes req 0x10 0 R.reg_VLT_ENG_LOCK) :
    s.takes req 0x10 0 R.reg_VLT_ENG_LOCK e := h

theorem blockWr_lockBreak {req : Req} : s.blockWr req (blkOf 0x10) 0 R.reg_VLT_ENG_LOCK e 0 0 (2 ^ 31) = s.endLockOf e true := rfl

end Grants

/-- Settles O34: each instruction in the case that the statement names, the grants, and the ends of a lock. -/
theorem vaultRequests : Obligations.VaultRequests := by
  refine ⟨?blk, ?blkFails, ?lock, ?lockSecond, ?unlock, ?unlockNone, ?cmac, ?imports, ?zero, ?grantRun, ?grantLock, ?lease, ?breaks⟩
  case blk =>
    rintro s h rs1 rs2 rd _ _ hup hrun rfl rfl ha hb hown hcheck
    exact whenMain_released (f := (·.chRow h 3 0 rs2 rs1 rd)) hup (chRow_blocks hrun
      (custom_blk.trans ((vxBlk_one ha hb hown).trans (vaultAsk_passed hcheck))))
  case blkFails =>
    rintro s h rs1 rs2 rd _ _ hup hrun rfl rfl ha hb hown hcheck
    exact whenMain_released (f := (·.chRow h 3 0 rs2 rs1 rd)) hup (chRow_value hrun rd.isLt
      (custom_blk.trans ((vxBlk_one ha hb hown).trans (vaultAsk_failed hcheck))))
  case lock =>
    exact fun s h rs1 rd hup hrun ha hready hnone => whenMain_released (f := (·.chRow h 3 1 0 rs1 rd)) hup
      (chRow_blocks hrun (custom_lock.trans (vxLock_waits ha hready hnone)))
  case lockSecond =>
    exact fun s h rs1 rd hup hrun ha hready hheld => whenMain_released (f := (·.chRow h 3 1 0 rs1 rd)) hup
      (chRow_value hrun rd.isLt (custom_lock.trans (vxLock_second ha hready hheld)))
  case unlock =>
    exact fun s h rd e hup hrun hlock hholder hidle => whenMain_released (f := (·.chRow h 3 2 0 0 rd)) hup
      (chRow_value hrun rd.isLt (custom_unlock.trans (vxUnlock_held hlock hholder hidle)))
  case unlockNone =>
    exact fun s h rd hup hrun hlock => whenMain_released (f := (·.chRow h 3 2 0 0 rd)) hup
      (chRow_value hrun rd.isLt (custom_unlock.trans (vxUnlock_none hlock)))
  case cmac =>
    rintro s h rs1 rs2 rd _ d p hup hrun rfl hb ha hd hpos hlen hflags hzero hrest hp hmem hcheck
    exact whenMain_released (f := (·.chRow h 3 3 rs2 rs1 rd)) hup (chRow_blocks hrun
      (custom_cmac.trans (hb ▸ vxCmac_whole ha hd hpos hlen hflags hzero hrest hp hmem hcheck rfl)))
  case imports =>
    rintro s h rs1 rd _ d hup hrun rfl ha hd hready hslot hst hslice hcheck hlen hzero hrest
    exact whenMain_released (f := (·.chRow h 3 4 0 rs1 rd)) hup (chRow_blocks hrun
      (custom_import.trans (vxImport_checked ha hd hready hslot hst hslice hcheck hlen hzero hrest)))
  case zero =>
    rintro s h rs1 rd _ hup hrun rfl hpos hi hready hst hfree hslice
    exact whenMain_released (f := (·.chRow h 3 5 0 rs1 rd)) hup (chRow_value hrun rd.isLt
      (custom_zero.trans (vxZero_own hpos hi hready hst hfree hslice)))
  case grantRun =>
    exact fun s t q o e hup hnext hop he hunlocked ht hst => whenMain_released (f := (·.lockGrant false)) hup
      (lockGrant_run hnext hop he hunlocked ht hst)
  case grantLock =>
    exact fun s t q e hup hnext hop hpre ht => whenMain_released (f := (·.lockGrant false)) hup
      (lockGrant_lock hnext hop hpre ht)
  case lease =>
    exact fun s e x hup hholder hrun hus => whenMain_released (f := (·.leaseExpire e)) hup
      (leaseExpire_held hholder hrun hus)
  case breaks =>
    exact fun s req e h => congrArg s.done
      (wrReg_block (2 ^ 31) (takes_engLock e h) (by decide) (by decide) blockWr_lockBreak)

/-! ### Runs -/

section Runs
variable {s t : State} {e : Nat} {o : VaultOp} {d : List Byte}

/-- The results of a run of one block. -/
theorem runResults_block (hcmac : o.cmac = false) (hdir : bit o.b 16 = false) (hd : t.lmRead o.hart o.a 16 = some d) :
    t.runResults o 1 1 = ((t.vcnt 0 1).lmWrite o.hart o.a (aesBlock o.key (d.take 16) false), 0) := by
  simp [State.runResults, hcmac, hdir, hd, blockResults]

/-- A run of one block that no check fails: its engine is idle again, and its thread goes on with 0 (R471). -/
theorem vaultRunDone_block (hrun : (s.eng e).run = some o) (hend : (s.eng e).endLock = false)
    (hsec : (s.eng e).retrySec ≠ ftSec s.time.ft) (hcmac : o.cmac = false) (hcount : bits o.b 31 24 = 0)
    (hdir : bit o.b 16 = false) (hgone : o.gone = false)
    (ht : t = (s.setEng e { s.eng e with run := none, retrySec := ftSec s.time.ft, retries := 0, lockAt := s.time.ft }).vcnt 4 0)
    (hd : t.lmRead o.hart o.a 16 = some d) : s.vaultRunDone e none 0 0 =
      ((t.vcnt 0 1).lmWrite o.hart o.a (aesBlock o.key (d.take 16) false)).wakeWith o.hart 0 := by
  have hone : s.runBlocks o = 1 := by simp [State.runBlocks, hcmac, hcount]
  have hgood : decide (max 1 (s.rd R.VLT_CFG_mis_thresh) < 0) = false := by simp
  simp only [State.vaultRunDone, hrun, hone, hend, hgone, if_neg hsec, Nat.add_zero, hgood, Option.isSome_none, Bool.or_self,
    Bool.false_eq_true, if_false, Option.getD_none, Nat.min_self, Nat.lt_irrefl]
  simp only [hend] at ht
  rw [← ht, runResults_block hcmac hdir hd]

end Runs

/-! ### Keys -/

section Keys
variable {s t : State} {r i : Nat} {g : Flight}

theorem keyAlloc_free {x : Nat} (hg : s.toPerform r [0x78] = some g) (hx : x = fieldLE g.desc 0x10 2) (hlt : x < 4096)
    (hrest : keyRest g.desc [(0x10, 2)] = true) (hready : s.keyReady = true) (hslice : s.sliceActive x = true)
    (hroom : s.allocStatus x 5 = 0) : s.keyAlloc r =
      (let i := lowestFree ((s.vlt.slots.filter (fun p => p.2.state != 0)).map (·.1)) 1
      ((s.charge x 5).setSlotK i { state := 1, slice := x }).finish r g.count { status := 0, x18 := leBytes 2 i }) := by
  obtain ⟨y, hy⟩ := ring_of_toPerform s r _ g hg
  rw [State.keyAlloc, perform_some s r _ _ y g hy hg]
  simp [← hx, Nat.not_le.2 hlt, hrest, hready, hslice, hroom]

theorem keyAlloc_notReady (hg : s.toPerform r [0x78] = some g) (hlt : fieldLE g.desc 0x10 2 < 4096)
    (hrest : keyRest g.desc [(0x10, 2)] = true) (hready : s.keyReady = false) :
    s.keyAlloc r = s.fail r g.count St.vx_not_ready := by
  obtain ⟨y, hy⟩ := ring_of_toPerform s r _ g hg
  rw [State.keyAlloc, perform_some s r _ _ y g hy hg]
  simp [Nat.not_le.2 hlt, hrest, hready]

section Zeroise
variable {op : Nat} {free : Bool} (hg : s.toPerform r [op] = some g) (hi : i = fieldLE g.desc 0x12 2)
  (hrest : keyRest g.desc [(0x12, 2)] = true) (hready : s.keyReady = true) (hne : i ≠ 0)
include hg hi hrest hready hne

theorem keyZero_now (hst : (s.keySlot i).state ≠ 0) (hfree : (s.keySlot i).state ≠ 2) :
    s.keyZero r op free = (s.slotZero i free).finish r g.count { status := 0 } := by
  obtain ⟨y, hy⟩ := ring_of_toPerform s r _ g hg
  rw [State.keyZero, perform_some s r _ _ y g hy hg]
  simp [← hi, hrest, hready, hne, hst, zeroFor_free _ _ hfree]

/-- A slot that an import holds is zeroised with its end (R474). -/
theorem keyZero_later (hst : (s.keySlot i).state = 2) : s.keyZero r op free =
    (({ s with vlt := { s.vlt with zeros := s.vlt.zeros ++ [{ slot := i, free := free, for_ := some (.ring r g.count) }] } } :
      State).performed r g.count) := by
  obtain ⟨y, hy⟩ := ring_of_toPerform s r _ g hg
  rw [State.keyZero, perform_some s r _ _ y g hy hg]
  simp [← hi, hrest, hready, hne, hst, State.zeroFor]

end Zeroise

theorem keyImport_starts {x : Ring} {k : Nat} {b : List Byte} (hx : s.ring r = some x) (hg : s.toPerform r [0x7A] = some g)
    (hi : i = fieldLE g.desc 0x10 2) (hk : k = fieldLE g.desc 0x12 2) (hlen : fieldLE g.desc 0x14 1 = 32)
    (hrest : keyRest g.desc [(0x10, 5), (0x18, 8)] = true) (hready : s.keyReady = true) (hne : i ≠ 0)
    (hst : (s.keySlot i).state ≠ 0) (hcheck : s.importCheck i k true = 0)
    (hread : s.readFor (.work r g.count) g.slice x.mem (fieldLE g.desc 0x18 8) 32 = (.ok b, t)) : s.keyImport r =
      (t.performed r g.count).importStart { slot := i, kek := k, blob := b, for_ := .ring r g.count } := by
  rw [State.keyImport, perform_some s r _ _ x g hx hg]
  simp [← hi, ← hk, hlen, hrest, hready, hne, hst, hcheck, hread]

variable {o : ImportOn} {l : List ImportOn}

/-- The imports that remain once the oldest has ended. -/
abbrev withImports (s : State) (l : List ImportOn) : State := { s with vlt := { s.vlt with imports := l } }

theorem importDone_loaded {p : List Byte} (ho : s.vlt.imports = o :: l) (hkek : (s.keySlot o.kek).state = 3)
    (hp : keyUnwrap (s.keySlot o.kek).key o.blob = some p) (hok : keyAttrOk p = true) : s.importDone false =
      ((((withImports s l).setSlotK o.slot { state := 3, size := fieldLE p 0 1, usage := fieldLE p 1 1,
                                             slice := (s.keySlot o.slot).slice, key := p.drop 8 }).vcnt 6).tellImport o.for_ 0).zeroNow
        o.slot := by
  have hkey (i : Nat) : (withImports s l).keySlot i = s.keySlot i := rfl
  simp [State.importDone, ho, hkey, hkek, hp, hok]

theorem importDone_empty (ho : s.vlt.imports = o :: l) (hkek : (s.keySlot o.kek).state = 3)
    (hp : keyUnwrap (s.keySlot o.kek).key o.blob = none) : s.importDone false =
      (((withImports s l).setSlotK o.slot { state := 1, slice := (s.keySlot o.slot).slice }).tellImport o.for_ St.vx_unwrap).zeroNow
        o.slot := by
  have hkey (i : Nat) : (withImports s l).keySlot i = s.keySlot i := rfl
  simp [State.importDone, ho, hkey, hkek, hp]

theorem zeroiseAll_none (hnone : s.vlt.slots.filter (fun p => p.1 != 0 && p.2.state != 0) = []) :
    s.zeroiseAll = s.eventBoth 0x10 0 3 (leBytes 4 0 ++ List.replicate 12 0) := by
  simp only [State.zeroiseAll, hnone, List.map_nil, List.foldl_nil, List.length_nil]

theorem zeroiseAll_one {k : KeySlot} (hone : s.vlt.slots.filter (fun p => p.1 != 0 && p.2.state != 0) = [(i, k)])
    (hfree : (s.keySlot i).state ≠ 2) :
    s.zeroiseAll = (s.slotZero i false).eventBoth 0x10 0 3 (leBytes 4 1 ++ List.replicate 12 0) := by
  simp only [State.zeroiseAll, hone, List.map_cons, List.map_nil, List.foldl_cons, List.foldl_nil, List.length_singleton,
    zeroFor_free _ _ hfree]

theorem wrReg_zeroise {req : Req} (h : s.takes req 0x10 0 R.reg_VLT_ZEROISE) :
    s.wrReg req 0x10 R.reg_VLT_ZEROISE 1 = s.zeroiseAll.after := wrReg_block 1 h (by decide) (by decide) rfl

end Keys

/-- Settles O35: the end of a run, the key commands of rings, the end of an import, and the operator's zeroisation. -/
theorem vaultRunsAndKeys : Obligations.VaultRunsAndKeys := by
  refine ⟨?run, ?alloc, ?notReady, ?free, ?zero, ?zeroLater, ?imports, ?loaded, ?unloaded, ?allNone, ?allOne⟩
  case run =>
    exact fun s t e o d hup hrun hend hsec hcmac hcount hdir hgone ht hd => whenMain_released
      (f := (·.vaultRunDone e none 0 0)) hup (vaultRunDone_block hrun hend hsec hcmac hcount hdir hgone ht hd)
  case alloc =>
    exact fun s r g x hup hg hx hlt hrest hready hslice hroom => whenMain_released (f := (·.keyAlloc r)) hup
      (keyAlloc_free hg hx hlt hrest hready hslice hroom)
  case notReady =>
    exact fun s r g hup hg hlt hrest hready => whenMain_released (f := (·.keyAlloc r)) hup
      (keyAlloc_notReady hg hlt hrest hready)
  case free =>
    exact fun s r g i hup hg hi hrest hready hne hst hfree => whenMain_released (f := (·.keyZero r 0x79 true)) hup
      (keyZero_now hg hi hrest hready hne hst hfree)
  case zero =>
    exact fun s r g i hup hg hi hrest hready hne hst hfree => whenMain_released (f := (·.keyZero r 0x7B false)) hup
      (keyZero_now hg hi hrest hready hne hst hfree)
  case zeroLater =>
    exact fun s r g i hup hg hi hrest hready hne hst => whenMain_released (f := (·.keyZero r 0x7B false)) hup
      (keyZero_later hg hi hrest hready hne hst)
  case imports =>
    exact fun s t r x g i k b hup hx hg hi hk hlen hrest hready hne hst hcheck hread => whenMain_released
      (f := (·.keyImport r)) hup (keyImport_starts hx hg hi hk hlen hrest hready hne hst hcheck hread)
  case loaded =>
    exact fun s o l p hup ho hkek hp hok => whenMain_released (f := (·.importDone false)) hup
      (importDone_loaded ho hkek hp hok)
  case unloaded =>
    exact fun s o l hup ho hkek hp => whenMain_released (f := (·.importDone false)) hup (importDone_empty ho hkek hp)
  case allNone =>
    exact fun s req h hnone => congrArg s.done ((wrReg_zeroise h).trans (congrArg State.after (zeroiseAll_none hnone)))
  case allOne =>
    exact fun s req i k h hone hfree => congrArg s.done
      ((wrReg_zeroise h).trans (congrArg State.after (zeroiseAll_one hone hfree)))

end Sys2Proof.Proofs
end

section
/-! PROOFS. Accesses toward a module, windows, copies, fabric time, presence and power (16_tenant_sockets.md R407-R430). -/

namespace Sys2Proof.Proofs
open Sys2Proof Sys2Proof.Machine Sys2Proof.Laws

/-! ### Two writes of one place -/

theorem drop_drop {α : Type} (m : List (Nat × α)) (a : Nat) : Store.drop (Store.drop m a) a = Store.drop m a := by
  simp [Store.drop, List.filter_filter]

theorem drop_ins {α : Type} (m : List (Nat × α)) (a : Nat) (v : α) : Store.drop (Store.ins a v m) a = Store.drop m a := by
  induction m with
  | nil => simp [Store.ins, Store.drop]
  | cons p m ih =>
    simp only [Store.ins]
    split
    · simp [Store.drop]
    · simp only [Store.drop, List.filter_cons] at ih ⊢
      rw [ih]

/-- Of two values put at one place, the later one stays. -/
theorem put_put {α : Type} [DecidableEq α] (d : α) (m : List (Nat × α)) (a : Nat) (v w : α) :
    Store.put d (Store.put d m a v) a w = Store.put d m a w := by
  have hdrop : Store.drop (Store.put d m a v) a = Store.drop m a := by
    unfold Store.put
    split
    · exact drop_drop m a
    · rw [drop_ins, drop_drop]
  simp only [Store.put] at hdrop ⊢
  rw [hdrop]

section Sockets
variable {s t : State} {n : Nat}

@[simp] theorem sock_setSock_same (k : Sock) : (s.setSock n k).sock n = k := by
  simp [State.sock, State.setSock]

@[simp] theorem setSock_rd (k : Sock) (f : Fld) (i j l : Nat) : (s.setSock n k).rd f i j l = s.rd f i j l := rfl

@[simp] theorem setSock_setSock (k l : Sock) : (s.setSock n k).setSock n l = s.setSock n l := by
  simp only [State.setSock, put_put]

@[simp] theorem runTo_sock (u : Nat) : (s.runTo u).sock n = s.sock n := by
  unfold State.runTo
  split <;> rfl

end Sockets

/-! ### BAR4 -/

section Bar4
variable {s : State} {fn off len n a x : Nat}

/-- The function answers accesses of its BAR4. -/
def bar4Ready (s : State) (fn : Nat) : Prop :=
  s.fnReady fn = true ∧ s.rd R.HIF_PF_CFG_bar4_en (fn / 8) (fn % 8) ≠ 0 ∧ (s.func fn).memEn = true ∧ s.fnD3 fn = false

section Reached
variable (hready : bar4Ready s fn) (hslice : s.sockSlice n = some x) (hactive : s.sliceState x = 1) (hmod : s.modStatus n = 0)
include hready hslice hactive hmod

theorem bar4_read (hwin : (List.range 8).findSome? (fun n => (s.h2s n fn off len false).map (fun a => (n, a))) = some (n, a)) :
    s.bar4 fn off len none = s.startJob n (some fn) 0 a len := by
  obtain ⟨hfn, hen, hmem, hd3⟩ := hready
  simp [State.bar4, hfn, hen, hmem, hd3, hwin, hslice, hactive, hmod]

theorem bar4_write (bs : List Byte)
    (hwin : (List.range 8).findSome? (fun n => (s.h2s n fn off bs.length true).map (fun a => (n, a))) = some (n, a)) :
    s.bar4 fn off len (some bs) = s.moduleWrite n a bs false := by
  obtain ⟨hfn, hen, hmem, hd3⟩ := hready
  simp [State.bar4, hfn, hen, hmem, hd3, hwin, hslice, hactive, hmod]

end Reached

/-- A read that no window takes is counted at the socket of the function's slice (R409). -/
theorem bar4_noWindow (hready : bar4Ready s fn)
    (hwin : (List.range 8).findSome? (fun n => (s.h2s n fn off len false).map (fun a => (n, a))) = none)
    (hsock : s.fnSocket fn = some n) : s.bar4 fn off len none = (s.noWindow n 0 off).unsupported fn false := by
  obtain ⟨hfn, hen, hmem, hd3⟩ := hready
  simp only [State.bar4, Option.isSome_none, hfn, hmem, hd3, beq_eq_false_iff_ne.2 hen, hwin, hsock]
  rfl

end Bar4

/-! ### Windows -/

section Windows
variable {s t : State} {req : Req} {n : Nat}

theorem blockWr_winCommit : s.blockWr req (blkOf 0x0E) n R.reg_TSK_WIN_COMMIT n 0 0 1 = s.winCommit n := rfl

theorem winCommit_refused (hcheck : s.winCheck n ≠ 0) : s.winCommit n = s.winRefuse n (s.winCheck n) := by
  simp [State.winCommit, hcheck]

theorem winCommit_applied (hcheck : s.winCheck n = 0) (harm : s.armed (29 + n) = false) : s.winCommit n = s.winApply n := by
  simp [State.winCommit, hcheck, harm]

theorem winDrained_done (hbusy : s.on R.TSK_WIN_STATUS_busy n = true) (hold : s.oldInflight n = 0) :
    s.winDrained n = s.wr R.TSK_WIN_STATUS_busy 0 n := if_pos ⟨hbusy, hold⟩

end Windows

/-! ### Copies -/

section Copies
variable {s t : State} {r : Nat} {x : Ring} {g : Flight}

theorem copyIn_sends {bs : List Byte} (hx : s.ring r = some x) (hg : s.toPerform r [0x50] = some g) (hok : copyOk g.desc = true)
    (hread : s.readFor (.work r g.count) g.slice true (fieldLE g.desc 0x10 8) (fieldLE g.desc 0x20 4) = (.ok bs, t))
    (hmod : s.copyStatus x = 0) : s.copyIn r = (t.performed r g.count).moduleWrite (s.rd R.SLC_BIND_socket x.slice)
      (fieldLE g.desc 0x18 8) bs false (some (r, g.count)) := by
  rw [State.copyIn, perform_some s r _ _ x g hx hg]
  simp [hok, hread, hmod]

theorem copyOutStart_asks {m : Nat} (hx : s.ring r = some x) (hg : s.toPerform r [0x51] = some g) (hok : copyOk g.desc = true)
    (hclaim : s.claimHbm g.slice (fieldLE g.desc 0x10 8) (fieldLE g.desc 0x20 4) = some t) (hmod : s.copyStatus x = 0)
    (hm : m = s.rd R.SLC_BIND_socket x.slice) {o : CopyOut} (ho : o = { ring := r, count := g.count, slice := g.slice, mem := fieldLE g.desc 0x10 8, sock := fieldLE g.desc 0x18 8, len := fieldLE g.desc 0x20 4 }) :
    s.copyOutStart r = State.copyIssue m r g.count 4096 ((t.performed r g.count).setCopy m o) := by
  rw [State.copyOutStart, perform_some s r _ _ x g hx hg]
  simp [hok, hclaim, hmod, ← hm, ho]

end Copies

/-! ### Fabric time toward the module -/

section FabricTime
variable {s t : State} {n : Nat}

theorem ftSync_sends {k : Sock} (hk : k = s.sock n) (hus : s.rd R.TSK_CFG_sync_us n ≠ 0) (hlink : (s.link n).state = 4)
    (ht : t = s.runTo (max (s.sock n).syncAt (s.link n).since + s.rd R.TSK_CFG_sync_us n * unitsPerUs)) : s.ftSync n =
      (t.setSock n { k with syncAt := t.time.ft, syncId := (k.syncId + 1) % 65536 }).sendTxn n
        { vc := 3, data := txnHeader 0x32 (s.rd R.FT_STATUS_state % 8) 0 k.syncId 0 0, sync := some k.syncId } := by
  have hsock : t.sock n = k := by rw [ht, runTo_sock, hk]
  have hstate (l : Sock) : (t.setSock n l).rd R.FT_STATUS_state = s.rd R.FT_STATUS_state := by
    rw [setSock_rd, ht, runTo_rd]
  have hgo : ¬ (s.rd R.TSK_CFG_sync_us n = 0 ∨ (s.link n).state ≠ 4) := by simp [hus, hlink]
  rw [← hk] at ht
  simp only [State.ftSync, if_neg hgo, State.modSock, ← ht, hsock, hstate, ← hk]

theorem ftFollow_due {i a : Nat} {b : Bool} (hdue : (s.sock n).syncDue = some (i, a, b)) : s.ftFollow n =
    (s.setSock n { s.sock n with syncDue := none, stepped := false }).sendTxn n
      { vc := 3, data := txnHeader 0x33 (b2n b + 2 * b2n (s.sock n).stepped) 0 i 0 0 ++ ftUnit a } := by
  simp only [State.ftFollow, hdue]

theorem ftDreq_first {e : Nat × Txn} (he : s.nextTxn n 0x34 = some e) (ht : t = s.leaveRx n e) (hnone : (t.sock n).dreqAt = none) :
    s.ftDreq n = (t.setSock n { t.sock n with dreqAt := some e.2.at_ }).sendTxn n
      { vc := 3, data := txnHeader 0x35 0 0 e.2.tag 0 0 ++ ftUnit e.2.at_ } := by
  simp only [State.ftDreq, he, ← ht, hnone]
  rfl

end FabricTime

/-- Settles O29: one case of each access, of a commit, of a copy and of fabric time toward the module. -/
theorem socketReadsAndTime : Obligations.SocketReadsAndTime := by
  refine ⟨?read, ?write, ?noWindow, ?commit, ?refused, ?drained, ?copyIn, ?copyOut, ?sync, ?follow, ?dreq⟩
  case read =>
    intro s hif pf off len n a x hup hoff hlen hfn hen hmem hd3 hwin hslice hactive hmod
    refine whenMain_released (f := (·.bar4 (8 * hif + pf) (off % 2 ^ 36) (min len 4096) none)) hup ?_
    simp only [Nat.mod_eq_of_lt hoff, Nat.min_eq_left hlen]
    exact bar4_read ⟨hfn, hen, hmem, hd3⟩ hslice hactive hmod hwin
  case write =>
    intro s hif pf off len n a x bs hup hoff hfn hen hmem hd3 hwin hslice hactive hmod
    refine whenMain_released (f := (·.bar4 (8 * hif + pf) (off % 2 ^ 36) (min len 4096) (some bs))) hup ?_
    simp only [Nat.mod_eq_of_lt hoff]
    exact bar4_write ⟨hfn, hen, hmem, hd3⟩ hslice hactive hmod bs hwin
  case noWindow =>
    intro s hif pf off len n hup hoff hlen hfn hen hmem hd3 hwin hsock
    refine whenMain_released (f := (·.bar4 (8 * hif + pf) (off % 2 ^ 36) (min len 4096) none)) hup ?_
    simp only [Nat.mod_eq_of_lt hoff, Nat.min_eq_left hlen]
    exact bar4_noWindow ⟨hfn, hen, hmem, hd3⟩ hwin hsock
  case commit =>
    rintro s _ req n h hcheck harm rfl
    exact congrArg s.done (wrReg_block 1 h (by decide) (by decide)
      (blockWr_winCommit.trans (winCommit_applied hcheck harm)))
  case refused =>
    exact fun s req n h hcheck => congrArg s.done (wrReg_block 1 h (by decide) (by decide)
      (blockWr_winCommit.trans (winCommit_refused hcheck)))
  case drained =>
    exact fun s n hup hbusy hold => whenMain_released (f := (·.winDrained n)) hup (winDrained_done hbusy hold)
  case copyIn =>
    exact fun s t r x g bs hup hx hg hok hread hmod => whenMain_released (f := (·.copyIn r)) hup
      (copyIn_sends hx hg hok hread hmod)
  case copyOut =>
    exact fun s t r x g m hup hx hg hok hclaim hmod hm => whenMain_released (f := (·.copyOutStart r)) hup
      (copyOutStart_asks hx hg hok hclaim hmod hm rfl)
  case sync =>
    exact fun s t n hup hus hlink ht => whenMain_released (f := (·.ftSync n)) hup (ftSync_sends rfl hus hlink ht)
  case follow =>
    exact fun s n i a b hup hdue => whenMain_released (f := (·.ftFollow n)) hup (ftFollow_due hdue)
  case dreq =>
    exact fun s t n e hup he ht hnone => whenMain_released (f := (·.ftDreq n)) hup (ftDreq_first he ht hnone)

/-! ### Presence and power -/

section Power
variable {s t : State} {req : Req} {n m : Nat}

theorem presence_appears (hwas : s.rd R.TSK_STATUS_prsnt n ≠ 1) (ht : t = (s.wr R.TSK_STATUS_prsnt 1 n).tskEvent n 1 [])
    (hauto : t.on R.TSK_CFG_auto_power n = false) : s.presence n false false = t := by
  have hnew : ¬ 1 = s.rd R.TSK_STATUS_prsnt n := fun h => hwas h.symm
  simp [State.presence, hnew, hwas, ← ht, hauto]

theorem presence_reversed (hwas : s.rd R.TSK_STATUS_prsnt n = 0) : s.presence n true true =
    ((s.wr R.TSK_STATUS_prsnt 2 n).raise R.TSK_STATUS_reversed_seen n).tskEvent n 5 [] true := by
  simp [State.presence, hwas]

theorem blockWr_pwrCtrl (v : Nat) : s.blockWr req (blkOf 0x0E) n R.reg_TSK_PWR_CTRL n 0 0 v = s.pwrCtrl n v := rfl

theorem pwrCtrl_on : s.pwrCtrl n 1 = s.powerRequest n := rfl

theorem pwrCtrl_off (hon : s.sockPwr n = 3) : s.pwrCtrl n 2 = s.startQuiesce n := by
  have hnot : bit 2 0 = false := by decide
  have hoff : bit 2 1 = true := by decide
  simp [State.pwrCtrl, hnot, hoff, hon]

theorem powerRequest_starts (hpwr : s.sockPwr n = 0) (hpresent : s.rd R.TSK_STATUS_prsnt n = 1) (hcuff : s.cuffOpen = true)
    (hfaults : s.pwrFaults n = false) (hunit : s.fencedUnit 3 n = false) : s.powerRequest n = s.setPwr n 1 :=
  if_pos ⟨hpwr, hpresent, hcuff, hfaults, hunit⟩

theorem powerRequest_refused (h : s.sockPwr n ≠ 0 ∨ s.rd R.TSK_STATUS_prsnt n ≠ 1 ∨ s.cuffOpen = false ∨ s.pwrFaults n = true) :
    s.powerRequest n = s.raise R.TSK_STATUS_on_refused n := by
  refine if_neg ?_
  rintro ⟨hpwr, hpresent, hcuff, hfaults, -⟩
  simp [hpwr, hpresent, hcuff, hfaults] at h

/-- With no volume behind the module, QUIESCING begins with the message that asks for it (R428). -/
theorem startQuiesce_on (hon : s.sockPwr n = 3) (hvols : s.volsOf 2 n = [])
    (ht : t = (s.wr R.TSK_STATUS_pwr 4 n).setSock n { s.sock n with since := s.time.ft, quiesced := false }) :
    s.startQuiesce n = (t.sendMgmt n 3 0).2 := by
  have hput : (s.setPwr n 4).modSock n (fun k => { k with quiesced := false }) = t := by
    subst ht
    simp only [State.setPwr, State.modSock, sock_setSock_same, setSock_setSock]
    rfl
  have hnone : t.volsOf 2 n = [] := ht ▸ hvols
  simp [State.startQuiesce, hon, hput, hnone]

theorem attnPress_latches (ht : t = (s.raise R.TSK_STATUS_attn_pressed n).tskEvent n 6 [])
    (hauto : t.on R.TSK_CFG_attn_auto n = false) : s.attnPress n = t := by
  simp [State.attnPress, ← ht, hauto]

theorem modPgUp_powering (hpwr : s.sockPwr n = 1) : s.modPgUp n =
    (s.wr R.TSK_STATUS_pwr 2 n).setSock n { s.sock n with since := s.time.ft, modPg := true } := by
  rw [State.modPgUp, if_pos hpwr]
  simp only [State.setPwr, State.modSock, sock_setSock_same, setSock_setSock]
  rfl

theorem pgTimeout_powering (hpwr : s.sockPwr n = 1)
    (ht : t = s.runTo ((s.sock n).since + max 1 (s.rd R.TSK_PWR_CFG_pg_timeout_ms n) * unitsPerMs)) : s.pgTimeout n =
      ((t.raise R.TSK_STATUS_flt_pg n).setPwr n 5).tskEvent n 4
        (leBytes 1 2 ++ leBytes 2 ((t.raise R.TSK_STATUS_flt_pg n).rd R.TSK_STATUS_i_ma n)) true := by
  have hma : (t.raise R.TSK_STATUS_flt_pg n).rd R.TSK_STATUS_i_ma n = t.rd R.TSK_STATUS_i_ma n :=
    rd_wr_other _ _ _ _ _ _ _ _ _ _ (by simp only [Fld.key, Fld.off, R.TSK_STATUS_flt_pg, R.TSK_STATUS_i_ma]; omega)
  rw [State.pgTimeout, if_pos hpwr, hma, ht]

theorem resetDelayEnd_resetting (hpwr : s.sockPwr n = 2)
    (ht : t = s.runTo ((s.sock n).since + max 1 (s.rd R.TSK_CFG_rst_delay_ms n) * unitsPerMs)) : s.resetDelayEnd n m =
      ((((t.wr R.TSK_STATUS_i_ma (min m 0xFFFF) n).setPwr n 3).modSock n (fun k => { k with gone := false })).tskEvent n 3
        (leBytes 1 0 ++ leBytes 2 (min m 0xFFFF))).linkStart n := by
  rw [State.resetDelayEnd, if_pos hpwr, ht]

theorem quiesceEnd_idle (hpwr : s.sockPwr n = 4) (hdone : (s.sock n).quiesced = true) (hidle : s.towardIdle n = true) :
    s.quiesceEnd n = (s.setPwr n 0).linkDown n 7 := by
  simp [State.quiesceEnd, hpwr, hdone, hidle]

theorem powerFault_within (removed : Bool) (hm : m ≤ max 100 (s.rd R.TSK_PWR_CFG_i_limit_ma n)) :
    s.powerFault n true removed m = s := if_pos (by simpa using hm)

theorem powerFault_over (hm : max 100 (s.rd R.TSK_PWR_CFG_i_limit_ma n) < m)
    (ht : t = (s.wr R.TSK_STATUS_i_ma (min m 0xFFFF) n).raise R.TSK_STATUS_flt_current n) : s.powerFault n true false m =
      (t.tskEvent n 4 (leBytes 1 1 ++ leBytes 2 (min m 0xFFFF)) true).powerLost n 5 := by
  have hover : ¬ m ≤ max 100 (s.rd R.TSK_PWR_CFG_i_limit_ma n) := Nat.not_le.2 hm
  have hone : b2n true = 1 := by decide
  simp only [State.powerFault, Bool.true_and, decide_eq_false hover, Bool.false_eq_true, if_false, if_true, ← ht, hone]

end Power

/-- Settles O30: presence, requests and the ends of each power state, each in the case that the statement names. -/
theorem modulePower : Obligations.ModulePower := by
  refine ⟨?appears, ?reversed, ?on, ?onRefused, ?off, ?attention, ?powerGood, ?noPowerGood, ?running, ?removed, ?within, ?exceeds⟩
  case appears =>
    exact fun s t n hup hwas ht hauto => whenMain_released (f := fun s => (s.presence n false false).drainDue) hup
      (congrArg State.drainDue (presence_appears hwas ht hauto))
  case reversed =>
    exact fun s n hup hwas => whenMain_released (f := fun s => (s.presence n true true).drainDue) hup
      (congrArg State.drainDue (presence_reversed hwas))
  case on =>
    exact fun s req n h hpwr hpresent hcuff hfaults hunit => congrArg s.done (wrReg_block 1 h (by decide) (by decide)
      ((blockWr_pwrCtrl 1).trans (pwrCtrl_on.trans (powerRequest_starts hpwr hpresent hcuff hfaults hunit))))
  case onRefused =>
    exact fun s req n h hbad => congrArg s.done (wrReg_block 1 h (by decide) (by decide)
      ((blockWr_pwrCtrl 1).trans (pwrCtrl_on.trans (powerRequest_refused hbad))))
  case off =>
    exact fun s t req n h hon ht hvols => congrArg s.done (wrReg_block 2 h (by decide) (by decide)
      ((blockWr_pwrCtrl 2).trans ((pwrCtrl_off hon).trans (startQuiesce_on hon hvols ht))))
  case attention =>
    exact fun s t n hup ht hauto => whenMain_released (f := (·.attnPress n)) hup (attnPress_latches ht hauto)
  case powerGood =>
    exact fun s n hup hpwr => whenMain_released (f := (·.modPgUp n)) hup (modPgUp_powering hpwr)
  case noPowerGood =>
    exact fun s t n hup hpwr ht => whenMain_released (f := (·.pgTimeout n)) hup (pgTimeout_powering hpwr ht)
  case running =>
    exact fun s t n m hup hpwr ht => whenMain_released (f := (·.resetDelayEnd n m)) hup (resetDelayEnd_resetting hpwr ht)
  case removed =>
    exact fun s n hup hpwr hdone hidle => whenMain_released (f := fun s => (s.quiesceEnd n).drainDue) hup
      (congrArg State.drainDue (quiesceEnd_idle hpwr hdone hidle))
  case within =>
    exact fun s n b m hup hm => whenMain_released (f := fun s => (s.powerFault n true b m).drainDue) hup
      (congrArg State.drainDue (powerFault_within b hm))
  case exceeds =>
    exact fun s t n m hup hm ht => whenMain_released (f := fun s => (s.powerFault n true false m).drainDue) hup
      (congrArg State.drainDue (powerFault_over hm ht))

end Sys2Proof.Proofs
end

section
/-! PROOFS. Scheduling, gates, samples and policers (12_traffic_management.md R309-R330). -/

namespace Sys2Proof.Proofs
open Sys2Proof Sys2Proof.Machine Sys2Proof.Laws

/-! ### A decision, and the events of the gates -/

section Decisions
variable {s t u v : State} {d c p : Nat} {x : Dwrr} {f : Stored} {e : QEnt}

/-- With more frames behind the one that leaves and its tail in the device, the shaper alone is charged (R313, R315). -/
theorem tmSelect_whole (hfree : t.destFree d = true) (hu : u = t.countHeld d) (hchoice : u.choose d = some (c, x))
    (hel : u.eligible d c = some f) (hpop : u.popQueue (tmQueue d c) = some (e, v)) (hwhole : f.pkt.frame.whole = true)
    (hmore : v.queue (tmQueue d c) ≠ []) : t.tmSelect d =
      ((((v.setDwrr d x).noteDelay (tmQueue d c) e).shaperCharge f.pkt.slice (v.wireFor d f.pkt)).tmCnt 0).handOver d c f e := by
  have hleft : (v.queue (tmQueue d c)).isEmpty = false := by simpa using hmore
  simp only [State.tmSelect, hfree, Bool.not_true, Bool.false_eq_true, if_false, ← hu, hchoice, hel, hpop, hleft, Bool.false_and,
    hwhole, if_true]

@[simp] theorem runTo_tm (w : Nat) : (s.runTo w).tm = s.tm := by
  unfold State.runTo
  split <;> rfl

@[simp] theorem runTo_swc (w : Nat) : (s.runTo w).swc = s.swc := by
  unfold State.runTo
  split <;> rfl

/-- Without a frame in transmission no class closes on one. -/
theorem gateOverrun_none (hout : s.tm.out = []) : s.gateOverrun p = s := by
  simp [State.gateOverrun, hout]

theorem gateChange_entry {l : GateList} {e : Nat × Nat × Nat} (hen : s.gateEn p = true) (hl : s.gateList p = some l)
    (hbase : l.base ≤ s.time.ft) (he : s.gateEntry p = some e) (hout : s.tm.out = []) :
    s.gateChange p = s.runTo (s.time.ft + e.2.2) := by
  simp only [State.gateChange, hen, hl, he, if_neg (Nat.not_lt.2 hbase)]
  exact gateOverrun_none (by rw [runTo_tm, hout])

theorem gateStart_next {l : GateList} (hnext : (s.gateEng p).next = some l) (hout : s.tm.out = []) : s.gateStart p =
    (((s.runTo (s.gateEng p).start).setGateEng p { s.gateEng p with cur := some l, next := none }).event 0xA 0 2
      (leBytes 1 p ++ leBytes 7 0 ++ leBytes 8 (ft64 (s.gateEng p).start))) := by
  simp only [State.gateStart, hnext]
  refine gateOverrun_none ?_
  rw [event_tm, State.setGateEng, runTo_tm]
  exact hout

/-- A write that keeps every forced port forced only takes its value (R328). -/
theorem gateForce_keeps {w : Nat} (hkeep : (List.range 64).all (fun p => !bit (s.rd R.TM_GATE_FORCE_force) p || bit w p) = true) :
    s.gateForce w = s.wr R.TM_GATE_FORCE_force w := by
  have hnone : (List.range 64).filter (fun p => bit (s.rd R.TM_GATE_FORCE_force) p && !bit w p) = [] := by
    refine List.filter_eq_nil_iff.2 fun p hp => ?_
    have hp := List.all_eq_true.1 hkeep p hp
    cases hold : bit (s.rd R.TM_GATE_FORCE_force) p <;> simp_all
  simp only [State.gateForce, hnone, List.foldl_nil]

end Decisions

/-! ### Samples -/

section Samples
variable {s t : State}

theorem queue_empty (h : s.swc.queues = []) (q : Nat) : s.queue q = [] := by
  rw [State.queue, h]
  rfl

/-- The sample of a queue. -/
def sampleQueue (s : State) (q : Nat) : State :=
  (s.wr R.TM_Q_LAST_depth (s.qDepth q) q).wr R.TM_Q_LAST_delay_ns (match s.queue q with
    | e :: _ => min ((s.time.ft - e.at_) / unitsPerNs) 0xFFFFFFFF
    | [] => 0) q

theorem sampleQueue_empty (h : s.swc.queues = []) (q : Nat) :
    sampleQueue s q = (s.wr R.TM_Q_LAST_depth (s.qDepth q) q).wr R.TM_Q_LAST_delay_ns 0 q := by
  rw [sampleQueue, queue_empty h]

/-- Samples of queues that hold no frame (R330). -/
theorem foldl_sampleQueue (h : s.swc.queues = []) (l : List Nat) : l.foldl sampleQueue s =
    l.foldl (fun s q => (s.wr R.TM_Q_LAST_depth (s.qDepth q) q).wr R.TM_Q_LAST_delay_ns 0 q) s := by
  induction l generalizing s with
  | nil => rfl
  | cons q l ih =>
    rw [List.foldl_cons, List.foldl_cons, sampleQueue_empty h]
    exact ih (by simpa using h)

theorem tmSample_eq (hus : s.ac R.TM_CFG_sample_us ≠ 0)
    (ht : t = s.runTo (s.tm.sampleAt + s.ac R.TM_CFG_sample_us * unitsPerUs)) :
    s.tmSample = (List.range 584).foldl sampleQueue { t with tm := { t.tm with sampleAt := t.time.ft } } := by
  simp only [State.tmSample, hus, if_false, ← ht]
  rfl

end Samples

/-! ### The records of the policers -/

section Records
variable {s t : State} {req : Req} {i x : Nat}

theorem blockWr_polCmd (w : Nat) : t.blockWr req (blkOf 0x0A) 0 R.reg_TM_POL_CMD 0 0 0 w =
    t.tmWr (blkOf 0x0A).unit R.reg_TM_POL_CMD 0 0 w := rfl

theorem blockWr_gateForce (w : Nat) : t.blockWr req (blkOf 0x0A) 0 R.reg_TM_GATE_FORCE 0 0 0 w = t.gateForce w := rfl

/-- The word of a policer command holds its one bit. -/
theorem polWord_write : elemWord t R.reg_TM_POL_CMD [(R.TM_POL_CMD_write, 1)] 0 0 0 = 1 := by
  simp [elemWord, State.image, R.reg_TM_POL_CMD, R.TM_POL_CMD_write, R.TM_POL_CMD_read, R.TM_POL_CMD_clear, showFld, putFld, bits]
theorem polWord_read : elemWord t R.reg_TM_POL_CMD [(R.TM_POL_CMD_read, 1)] 0 0 0 = 2 := by
  simp [elemWord, State.image, R.reg_TM_POL_CMD, R.TM_POL_CMD_write, R.TM_POL_CMD_read, R.TM_POL_CMD_clear, showFld, putFld, bits]
theorem polWord_clear : elemWord t R.reg_TM_POL_CMD [(R.TM_POL_CMD_clear, 1)] 0 0 0 = 4 := by
  simp [elemWord, State.image, R.reg_TM_POL_CMD, R.TM_POL_CMD_write, R.TM_POL_CMD_read, R.TM_POL_CMD_clear, showFld, putFld, bits]

variable {u : Option Nat}
theorem tmWr_polWrite : t.tmWr u R.reg_TM_POL_CMD 0 0 1 = t.polWrite := rfl
theorem tmWr_polRead : t.tmWr u R.reg_TM_POL_CMD 0 0 2 = t.polRead := rfl
theorem tmWr_polClear : t.tmWr u R.reg_TM_POL_CMD 0 0 4 = t.polClear := rfl

/-- A policer that a slice holds takes the record in TM_POL_DATA, with full buckets (R322). -/
theorem polWrite_full {p : Policer} (hidx : t.rd R.TM_POL_IDX_idx = i) (hslice : (t.policer i).slice = some x)
    (hp : p = { t.policer i with rcd := t.polData, at_ := t.time.ft }) (hfull : bit p.modeByte 4 = false) :
    t.polWrite = t.setPolicer i { p with tc := p.cbs, te := p.ebs } := by
  have hheld : (t.policer i).slice.isNone = false := by rw [hslice]; rfl
  subst hp
  simp only [State.polWrite, hidx, hheld, hfull, Bool.false_eq_true, if_false]

theorem polRead_eq (hidx : t.rd R.TM_POL_IDX_idx = i) : t.polRead =
    (List.range 8).foldl (fun u j => u.wr R.TM_POL_DATA_data (fieldLE ((t.policer i).fill t.time.ft).image (8 * j) 8) j) t := by
  rw [State.polRead, hidx]

theorem polClear_eq (hidx : t.rd R.TM_POL_IDX_idx = i) :
    t.polClear = t.setPolicer i { t.policer i with green := 0, yellow := 0, red := 0 } := by
  rw [State.polClear, hidx]

/-- A policer command in service does what its bit says, and what follows every register write follows. -/
theorem polOp_takes {f : Fld} {w : Nat} {v : State} (ht : t = s.wrReg req 0x0A R.reg_TM_POL_IDX i)
    (htakes : t.takes req 0x0A 0 R.reg_TM_POL_CMD) (hw : elemWord t R.reg_TM_POL_CMD [(f, 1)] 0 0 0 = w)
    (hv : t.tmWr (blkOf 0x0A).unit R.reg_TM_POL_CMD 0 0 w = v) : s.polOp req i f = v.after := by
  rw [State.polOp, ← ht]
  exact wrFlds_block _ htakes (by decide) ((blockWr_polCmd _).trans (hw ▸ hv))

end Records

/-! ### Allocation -/

section Allocation
variable {s t : State} {r i x : Nat} {g : Flight}

theorem polAlloc_free (hg : s.toPerform r [0x70] = some g) (hx : x = fieldLE g.desc 0x10 2) (hlt : x < 4096)
    (hzero : zeroFrom g.desc 0x12 = true) (hact : s.sliceActive x = true) (hroom : s.allocStatus x 6 = 0)
    (ht : t = { s with free := s.free + 1 }) {j : Nat} (hj : j = t.freePolicer 65536 (Config.tagPick s.free)) :
    s.polAlloc r = ((t.charge x 6).setPolicer j { slice := some x }).finish r g.count { status := 0, x18 := leBytes 2 j } := by
  obtain ⟨y, hy⟩ := ring_of_toPerform s r _ g hg
  have hok : ¬ (4096 ≤ x ∨ zeroFrom g.desc 0x12 = false) := by simp [hzero, hlt]
  rw [State.polAlloc, perform_some s r _ _ y g hy hg]
  simp only [← hx, if_neg hok, hact, Bool.not_true, Bool.false_eq_true, if_false, hroom, ne_eq, not_true_eq_false, State.draw, ← ht, hj]

theorem polFree_held (hg : s.toPerform r [0x71] = some g) (hi : i = fieldLE g.desc 0x12 2) (h10 : fieldLE g.desc 0x10 2 = 0)
    (hzero : zeroFrom g.desc 0x14 = true) (hslice : (s.policer i).slice = some x) :
    s.polFree r = ((s.setPolicer i {}).uncharge x 6).finish r g.count { status := 0 } := by
  obtain ⟨y, hy⟩ := ring_of_toPerform s r _ g hg
  rw [State.polFree, perform_some s r _ _ y g hy hg]
  simp [← hi, h10, hzero, hslice, State.polDrop]

end Allocation

/-- Settles O19: one case of a decision, of each gate event, of a sample, and of each command on a policer. -/
theorem trafficManager : Obligations.TrafficManager := by
  refine ⟨?select, ?entry, ?start, ?force, ?sample, ?write, ?read, ?clear, ?alloc, ?free⟩
  case select =>
    intro s t u v d c x f e hup ht hfree hu hchoice hel hpop hwhole hmore
    refine whenMain_released (f := fun s => (if d.val < 64 then s.pfcSend d else s).tmSelect d) hup ?_
    rw [← ht]
    exact tmSelect_whole hfree hu hchoice hel hpop hwhole hmore
  case entry =>
    exact fun s p l e hup hen hl hbase he hout => whenMain_released (f := (·.gateChange p)) hup
      (gateChange_entry hen hl hbase he hout)
  case start =>
    exact fun s p l hup hnext hout => whenMain_released (f := (·.gateStart p)) hup (gateStart_next hnext hout)
  case force =>
    exact fun s req v h hv hkeep => congrArg s.done (wrReg_block v h (by decide) hv
      ((blockWr_gateForce v).trans (gateForce_keeps hkeep)))
  case sample =>
    intro s t hup hus ht hq
    have hempty : t.swc.queues = [] := by rw [ht, runTo_swc, hq]
    refine whenMain_released (f := State.tmSample) hup ?_
    rw [tmSample_eq hus ht, foldl_sampleQueue]
    exact hempty
  case write =>
    exact fun s t req i x ht htakes hidx hslice hfull => congrArg s.done (polOp_takes ht htakes polWord_write
      (tmWr_polWrite.trans (polWrite_full hidx hslice rfl hfull)))
  case read =>
    exact fun s t req i ht htakes hidx => congrArg s.done (polOp_takes ht htakes polWord_read
      (tmWr_polRead.trans (polRead_eq hidx)))
  case clear =>
    exact fun s t req i ht htakes hidx => congrArg s.done (polOp_takes ht htakes polWord_clear
      (tmWr_polClear.trans (polClear_eq hidx)))
  case alloc =>
    exact fun s t r g x hup hg hx hlt hzero hact hroom ht => whenMain_released (f := (·.polAlloc r)) hup
      (polAlloc_free hg hx hlt hzero hact hroom ht rfl)
  case free =>
    exact fun s r g i x hup hg hi h10 hzero hslice => whenMain_released (f := (·.polFree r)) hup
      (polFree_held hg hi h10 hzero hslice)

end Sys2Proof.Proofs
end

section
/-! PROOFS. Queue pairs: work posted on their rings, their control, and regions (13_rdma.md R336-R360). -/

namespace Sys2Proof.Proofs
open Sys2Proof Sys2Proof.Machine Sys2Proof.Laws

/-! ### Contexts -/

section Contexts
variable {s : State} {q : Nat}

@[simp] theorem qp_setQp_same (x : Option Qp) : (s.setQp q x).qp q = x := by
  simp [State.qp, State.setQp]

@[simp] theorem setQp_setQp (x y : Option Qp) : (s.setQp q x).setQp q y = s.setQp q y := by
  simp only [State.setQp, put_put]

theorem modQp_some {f : Qp → Qp} {x : Qp} (hx : s.qp q = some x) : s.modQp q f = s.setQp q (some (f x)) := by
  simp only [State.modQp, hx]

/-- A resident context is there at once, and has been used now (R345). -/
theorem needQp_resident {x : Qp} (hx : s.qp q = some x) (hres : x.resident = true) :
    s.needQp q = (true, s.setQp q (some { x with used := s.time.ft })) := by
  simp only [State.needQp, hx, hres, if_true]

@[simp] theorem runTo_qp (u : Nat) : (s.runTo u).qp q = s.qp q := by
  unfold State.runTo
  split <;> rfl

end Contexts

/-! ### Work posted on a ring -/

section Posting
variable {s t u : State} {r op q : Nat} {y : Ring} {g : Flight} {x : Qp} {b : List Byte}

/-- The next descriptor of a family on a ring is performed when it has the opcode. -/
theorem performNext_next {fam : Nat → Bool} {f : Ring → Flight → State → State} (h : s.nextWork r fam op y g) :
    s.performNext r fam [op] f = f y g s := by
  obtain ⟨hring, hfind, hstaged, hop⟩ := h
  simp [State.performNext, hring, hfind, hstaged, hop]

theorem rdmaNext_next {f : Ring → Flight → State → State} (h : s.nextWork r rdmaOp op y g) : s.rdmaNext r op f = f y g s :=
  performNext_next h

/-- A QP in RTS takes the entry (R336). -/
theorem rdmaPost_rts (h : s.rdmaPosts r op y g q x) : s.rdmaPost r op = s.withWork r g q x := by
  obtain ⟨hnext, hok, hq, hqp, hsq, hvol, hres, hstate, hud⟩ := h
  have htake : ¬ (x.state ≠ 3 ∨ (x.transport = 1 ∧ op ≠ 0x20 ∧ op ≠ 0x21)) := by
    rintro (hbad | ⟨hone, h20, h21⟩)
    · exact hbad hstate
    · exact (hud hone).elim h20 h21
  have hlive : ¬ (x.state = 5 ∨ x.state = 4) := by omega
  have hown : ¬ x.sqRing ≠ r := not_not.2 hsq
  rw [State.rdmaPost, rdmaNext_next hnext]
  simp only [hok, ← hq, hqp, if_neg hown, hvol, needQp_resident hqp hres, if_neg htake, if_neg hlive, State.withWork]
  rfl

theorem rdmaPost_flushed (hnext : s.nextWork r rdmaOp op y g) (hok : rdmaDescOk g.desc = true) (hq : q = fieldLE g.desc 0x10 3)
    (hqp : s.qp q = some x) (hsq : x.sqRing = r) (hvol : s.qpVol q = none) (hres : x.resident = true)
    (hstate : x.state = 4 ∨ x.state = 5) : s.rdmaPost r op =
      ((s.setQp q (some { x with used := s.time.ft })).fail r g.count St.qp_flushed).pumpRing r := by
  have hended : x.state = 5 ∨ x.state = 4 := hstate.symm
  have hown : ¬ x.sqRing ≠ r := not_not.2 hsq
  rw [State.rdmaPost, rdmaNext_next hnext]
  simp only [hok, ← hq, hqp, if_neg hown, hvol, needQp_resident hqp hres, if_pos hended]
  rfl

theorem rdmaPost_noQp (hnext : s.nextWork r rdmaOp op y g) (hok : rdmaDescOk g.desc = true)
    (hqp : s.qp (fieldLE g.desc 0x10 3) = none) : s.rdmaPost r op = (s.fail r g.count St.qp_ring).pumpRing r := by
  rw [State.rdmaPost, rdmaNext_next hnext]
  simp [hok, hqp]

theorem rdmaPost_malformed (hnext : s.nextWork r rdmaOp op y g) (hbad : rdmaDescOk g.desc = false) :
    s.rdmaPost r op = (s.fail r g.count St.bad_desc).pumpRing r := by
  rw [State.rdmaPost, rdmaNext_next hnext]
  simp [hbad]

theorem recvPost_posted (hnext : s.nextWork r rdmaOp 0x27 y g) (hpos : 0 < fieldLE g.desc 0x14 4)
    (hlen : fieldLE g.desc 0x14 4 ≤ 2 ^ 31) (hzero : zeroFrom g.desc 0x20 = true) : s.recvPost r = s.performed r g.count := by
  have hok : ¬ (fieldLE g.desc 0x14 4 = 0 ∨ 2 ^ 31 < fieldLE g.desc 0x14 4 ∨ zeroFrom g.desc 0x20 = false) := by
    rw [hzero]
    simp
    omega
  rw [State.recvPost, rdmaNext_next hnext]
  exact if_neg hok

/-! ### Regions -/

/-- The lowest free index of a region. -/
def nextMr (s : State) : Nat := lowestFree ((s.rdm.mrs.filter (fun p => p.2.state != 0)).map (·.1)) 0

theorem mrAdd_room {sl : Nat} {m : Mr} (hroom : s.allocStatus sl 7 = 0) : s.mrAdd sl m =
    .ok (nextMr s, (s.charge sl 7).setMr (nextMr s) { m with variant := (s.mr (nextMr s)).variant }) := by
  simp only [State.mrAdd, hroom]
  rfl

theorem mrReg_room (hnext : s.nextWork r rdmaOp 0x2C y g) (hok : ctlOk g.desc false = true)
    (hread : s.readFor (.work r g.count) g.slice y.mem (fieldLE g.desc 0x10 8) 64 = (.ok b, t))
    (hlegal : t.mrLegal b g.slice = some u) (hroom : u.allocStatus g.slice 7 = 0) {v : State}
    (hv : v = (u.charge g.slice 7).setMr (nextMr u) { mrOf b g.slice 0 with variant := (u.mr (nextMr u)).variant }) :
    s.mrReg r = v.finish r g.count { status := 0, x18 := leBytes 4 (v.mrKey (nextMr u)) } := by
  rw [State.mrReg, rdmaNext_next hnext, hv]
  simp only [hok, Bool.not_true, Bool.false_eq_true, if_false, hread, hlegal, mrAdd_room hroom]

end Posting

/-- Settles O20: each descriptor is the next one of its ring, and its QP, its fields or its record say what becomes of it. -/
theorem rdmaPosting : Obligations.RdmaPosting := by
  have posts (s : State) (r : Fin 65536) (op : Nat) (y : Ring) (g : Flight) (q : Nat) (x : Qp) (hup : s.mainUp = true)
      (h : s.rdmaPosts r op y g q x) : s.whenMain (·.rdmaPost r op) = .next (s.settle (s.withWork r g q x)) :=
    whenMain_released (f := (·.rdmaPost r op)) hup (rdmaPost_rts h)
  refine ⟨?send, ?sendImm, ?write, ?writeImm, ?read, ?cmpSwap, ?fetchAdd, ?flushed, ?noQp, ?malformed, ?recv, ?region⟩
  case send => exact fun s r y g q x => posts s r 0x20 y g q x
  case sendImm => exact fun s r y g q x => posts s r 0x21 y g q x
  case write => exact fun s r y g q x => posts s r 0x22 y g q x
  case writeImm => exact fun s r y g q x => posts s r 0x23 y g q x
  case read => exact fun s r y g q x => posts s r 0x24 y g q x
  case cmpSwap => exact fun s r y g q x => posts s r 0x25 y g q x
  case fetchAdd => exact fun s r y g q x => posts s r 0x26 y g q x
  case flushed =>
    exact fun s r y g q x hup hnext hok hq hqp hsq hvol hres hstate => whenMain_released (f := (·.rdmaPost r 0x20)) hup
      (rdmaPost_flushed hnext hok hq hqp hsq hvol hres hstate)
  case noQp =>
    exact fun s r y g hup hnext hok hqp => whenMain_released (f := (·.rdmaPost r 0x22)) hup (rdmaPost_noQp hnext hok hqp)
  case malformed =>
    exact fun s r y g hup hnext hbad => whenMain_released (f := (·.rdmaPost r 0x24)) hup (rdmaPost_malformed hnext hbad)
  case recv =>
    exact fun s r y g hup hnext hpos hlen hzero => whenMain_released (f := (·.recvPost r)) hup
      (recvPost_posted hnext hpos hlen hzero)
  case region =>
    exact fun s t u r y g b hup hnext hok hread hlegal hroom => whenMain_released (f := (·.mrReg r)) hup
      (mrReg_room hnext hok hread hlegal hroom rfl)

/-! ### Control of a queue pair -/

section Control
variable {s t u v : State} {r q n m key i : Nat} {y : Ring} {g : Flight} {x : Qp} {b e : List Byte}

/-- The send ring of a QP names it (R336). -/
theorem ctlQp_own (hqp : s.qp q = some x) (hsq : x.sqRing = r) : s.ctlQp r q = .ok x := by
  simp only [State.ctlQp, hqp, if_pos hsq]

theorem qpCreate_room (hnext : s.nextWork r rdmaOp 0x28 y g) (hok : ctlOk g.desc false = true)
    (hread : s.readFor (.work r g.count) g.slice y.mem (fieldLE g.desc 0x10 8) 128 = (.ok b, t)) (hx : x = t.newQp b g.slice)
    (hrec : qpRecOk b = true) (htr : x.transport ≤ 1) (hcls : x.pipeCls < 128) (hpipe : x.pipeCls % 16 ≤ 7)
    (hsq : t.ringFor x.sqRing g.slice false = true) (hrq : t.ringFor x.rqRing g.slice true = true)
    (hroom : t.allocStatus g.slice 2 = 0) (hq : t.freeQpn = some q) (hentry : t.entryFor g.slice = some u)
    (hv : v = (u.charge g.slice 2).setQp q (some x)) : s.qpCreate r =
      (v.wr R.RDM_QP_CACHE_STATUS_resident (v.rd R.RDM_QP_CACHE_STATUS_resident + 1)).finish r g.count
        { status := 0, x18 := leBytes 4 q } := by
  have hlegal : (!qpRecOk b || decide (1 < x.transport) || decide (128 ≤ x.pipeCls) || decide (7 < x.pipeCls % 16)
      || !t.ringFor x.sqRing g.slice false || !t.ringFor x.rqRing g.slice true) = false := by
    simp [hrec, hsq, hrq]
    omega
  rw [State.qpCreate, rdmaNext_next hnext]
  simp only [hok, Bool.not_true, Bool.false_eq_true, if_false, hread, ← hx, hlegal, hroom, ne_eq, not_true_eq_false, hq, hentry, ← hv]

section Modify
variable (hnext : s.nextWork r rdmaOp 0x29 y g) (hok : ctlOk g.desc true = true) (hq : q = fieldLE g.desc 0x18 4)
    (hqp : s.qp q = some x) (hsq : x.sqRing = r) (hneed : s.needQp q = (true, t))
    (hread : t.readFor (.work r g.count) g.slice y.mem (fieldLE g.desc 0x10 8) 128 = (.ok b, u))
include hnext hok hq hqp hsq hneed hread

theorem qpModify_illegal (hmove : qpMove x.state (fieldLE b 4 1) x.transport = false) :
    s.qpModify r = u.fail r g.count St.qp_state := by
  rw [State.qpModify, rdmaNext_next hnext]
  simp only [hok, ← hq, ctlQp_own hqp hsq, hneed, hread, hmove]
  rfl

/-- A legal move to a state that keeps the QP's work takes the masked attributes and enters the state (R342). -/
theorem qpModify_legal (hn : n = fieldLE b 4 1)
    (hm : m = if u.rdmExpert then fieldLE b 0x28 4 else fieldLE b 0x28 4 - (fieldLE b 0x28 4 &&& 0x9C0))
    (hmove : qpMove x.state n x.transport = true) (hreset : n ≠ 0) (herr : n ≠ 5) (hrec : qpRecOk b = true)
    (hused : m &&& qpMaskUsed x.transport = m)
    (hmask : m &&& qpMaskNeed x.state n x.transport u.rdmExpert = qpMaskNeed x.state n x.transport u.rdmExpert)
    (hattr : qpAttrOk b m = true) (hv : v = u.modQp q (·.attrs b m)) :
    s.qpModify r = ((v.modQp q (fun x => v.qpEnter x n)).finish r g.count { status := 0 }).startFetches := by
  rw [State.qpModify, rdmaNext_next hnext]
  simp only [hok, ← hq, ctlQp_own hqp hsq, hneed, hread, ← hn, ← hm, hmove, hrec, hused, hmask, hattr, if_neg hreset,
    if_neg herr, bne_self_eq_false, Bool.not_true, Bool.or_self, Bool.false_eq_true, if_false, ← hv]

end Modify

theorem qpQuery_resident (hnext : s.nextWork r rdmaOp 0x2A y g) (hok : ctlOk g.desc true = true) (hq : q = fieldLE g.desc 0x18 4)
    (hqp : s.qp q = some x) (hsq : x.sqRing = r) (hres : x.resident = true)
    (ht : t = s.setQp q (some { x with used := s.time.ft }))
    (hwrite : t.writeFor g.slice y.mem (fieldLE g.desc 0x10 8) (t.qpRecord q { x with used := s.time.ft }) = (.ok e, u)) :
    s.qpQuery r = u.finish r g.count { status := 0 } := by
  have hneed : s.needQp q = (true, t) := ht ▸ needQp_resident hqp hres
  have hnow : t.qp q = some { x with used := s.time.ft } := by rw [ht, qp_setQp_same]
  rw [State.qpQuery, rdmaNext_next hnext]
  simp only [hok, ← hq, ctlQp_own hqp hsq, hneed, hnow, hwrite]
  rfl

section Destroy
variable (hnext : s.nextWork r rdmaOp 0x2B y g) (hok : ctlOk g.desc true = true) (h10 : fieldLE g.desc 0x10 8 = 0)
    (hq : q = fieldLE g.desc 0x18 4) (hqp : s.qp q = some x) (hsq : x.sqRing = r)
include hnext hok h10 hq hqp hsq

theorem qpDestroy_idle (hstate : x.state = 0 ∨ x.state = 5) (hempty : x.sq = []) :
    s.qpDestroy r = (s.qpGone q x).finish r g.count { status := 0 } := by
  rw [State.qpDestroy, rdmaNext_next hnext]
  simp [hok, h10, ← hq, ctlQp_own hqp hsq, hstate, hempty]

theorem qpDestroy_busy (hreset : x.state ≠ 0) (herr : x.state ≠ 5) : s.qpDestroy r = s.fail r g.count St.qp_state := by
  rw [State.qpDestroy, rdmaNext_next hnext]
  simp [hok, h10, ← hq, ctlQp_own hqp hsq, hreset, herr]

end Destroy

/-! ### The end of a region -/

section Revoke
variable (hnext : s.nextWork r rdmaOp 0x2D y g) (hok : ctlOk g.desc true = true) (h10 : fieldLE g.desc 0x10 8 = 0)
    (hkey : key = fieldLE g.desc 0x18 4)
include hnext hok h10 hkey

theorem mrRevoke_valid (hidx : key / 256 < 1048576) (hstate : (s.mr (key / 256)).state = 1)
    (hvar : (s.mr (key / 256)).variant = key % 256) (hslice : (s.mr (key / 256)).slice = g.slice ∨ g.slice = 0) :
    s.mrRevoke r = (s.performed r g.count).mrClose (key / 256) (.ring r g.count) := by
  have hgood : ¬ (mrMax ≤ key / 256 ∨ (s.mr (key / 256)).state ≠ 1 ∨ (s.mr (key / 256)).variant ≠ key % 256
      ∨ ((s.mr (key / 256)).slice ≠ g.slice ∧ g.slice ≠ 0)) := by
    have hmax : mrMax = 1048576 := rfl
    omega
  rw [State.mrRevoke, rdmaNext_next hnext]
  simp only [hok, h10, ← hkey, if_neg hgood]
  rfl

theorem mrRevoke_refused (hbad : (s.mr (key / 256)).state ≠ 1 ∨ (s.mr (key / 256)).variant ≠ key % 256) :
    s.mrRevoke r = s.fail r g.count St.mr_state := by
  have hrefuse : mrMax ≤ key / 256 ∨ (s.mr (key / 256)).state ≠ 1 ∨ (s.mr (key / 256)).variant ≠ key % 256
      ∨ ((s.mr (key / 256)).slice ≠ g.slice ∧ g.slice ≠ 0) := .inr (hbad.imp_right .inl)
  rw [State.mrRevoke, rdmaNext_next hnext]
  simp only [hok, h10, ← hkey, if_pos hrefuse]
  rfl

end Revoke

theorem revokeDone_unused {c : Nat} (hstate : (s.mr i).state = 2) (hidle : s.mrInUse i = false) (hwrote : (s.mr i).wrote = false)
    (hwaiter : (s.mr i).waiter = .ring r c) : s.revokeDone i = (s.mrFree i).finish r c { status := 0 } := by
  simp [State.revokeDone, State.mrLanded, hstate, hidle, hwrote, hwaiter]

/-! ### A context over its limit -/

/-- The only context, beyond its slice's limit and free to go, is the one that goes (R346; 06_slices.md R167). -/
theorem qpEvict_over (hqps : s.rdm.qps = [(q, some x)]) (hres : x.resident = true) (hfetch : x.fetching = false)
    (hparked : x.parked = []) (hover : s.rd R.SLC_QUOTA_limit x.slice 3 < s.inUse x.slice 3) :
    s.qpEvict q = (s.evictQp q).startFetches := by
  have hqp : s.qp q = some x := by simp [State.qp, hqps, Store.get]
  have hevict : x.evictable = true := by simp [Qp.evictable, hres, hfetch, hparked]
  have hlist : s.qpList.filter (fun p => p.2.evictable && p.2.slice == x.slice) = [(q, x)] := by
    simp [State.qpList, hqps, hevict]
  have hlru : s.lruQp [(q, x)] = some q := by
    cases hrecent : s.qpRecent q x <;> simp [State.lruQp, hrecent]
  simp [State.qpEvict, hqp, hevict, hlist, hlru, hover]

end Control

/-- Settles O21: each control descriptor is the next one of its ring and finds its QP or region as the statement says. -/
theorem queuePairControl : Obligations.QueuePairControl := by
  refine ⟨?create, ?modify, ?illegal, ?query, ?destroy, ?busy, ?revoke, ?refused, ?done, ?evict⟩
  case create =>
    exact fun s t u r y g b n q hup hnext hok hread hx hrec htr hcls hpipe hsq hrq hroom hq hentry =>
      whenMain_released (f := (·.qpCreate r)) hup
        (qpCreate_room hnext hok hread hx hrec htr hcls hpipe hsq hrq hroom hq hentry rfl)
  case modify =>
    exact fun s t u r y g b x q n m hup hnext hok hq hqp hsq hneed hread hn hm hmove hreset herr hrec hused hmask hattr =>
      whenMain_released (f := (·.qpModify r)) hup
        (qpModify_legal hnext hok hq hqp hsq hneed hread hn hm hmove hreset herr hrec hused hmask hattr rfl)
  case illegal =>
    exact fun s t u r y g b x q hup hnext hok hq hqp hsq hneed hread hmove => whenMain_released (f := (·.qpModify r)) hup
      (qpModify_illegal hnext hok hq hqp hsq hneed hread hmove)
  case query =>
    exact fun s t u r y g x q e hup hnext hok hq hqp hsq hres ht hwrite => whenMain_released (f := (·.qpQuery r)) hup
      (qpQuery_resident hnext hok hq hqp hsq hres ht hwrite)
  case destroy =>
    exact fun s r y g x q hup hnext hok h10 hq hqp hsq hstate hempty => whenMain_released (f := (·.qpDestroy r)) hup
      (qpDestroy_idle hnext hok h10 hq hqp hsq hstate hempty)
  case busy =>
    exact fun s r y g x q hup hnext hok h10 hq hqp hsq hreset herr => whenMain_released (f := (·.qpDestroy r)) hup
      (qpDestroy_busy hnext hok h10 hq hqp hsq hreset herr)
  case revoke =>
    exact fun s r y g key hup hnext hok h10 hkey hidx hstate hvar hslice => whenMain_released (f := (·.mrRevoke r)) hup
      (mrRevoke_valid hnext hok h10 hkey hidx hstate hvar hslice)
  case refused =>
    exact fun s r y g key hup hnext hok h10 hkey hbad => whenMain_released (f := (·.mrRevoke r)) hup
      (mrRevoke_refused hnext hok h10 hkey hbad)
  case done =>
    exact fun s i r c hup hstate hidle hwrote hwaiter => whenMain_released (f := (·.revokeDone i)) hup
      (revokeDone_unused hstate hidle hwrote hwaiter)
  case evict =>
    exact fun s q x hup hqps hres hfetch hparked hover => whenMain_released (f := (·.qpEvict q)) hup
      (qpEvict_over hqps hres hfetch hparked hover)

end Sys2Proof.Proofs
end

section
/-! PROOFS. RoCEv2 packets received, timers, fetches and rates (13_rdma.md R333-R358). -/

namespace Sys2Proof.Proofs
open Sys2Proof Sys2Proof.Machine Sys2Proof.Laws

/-! ### Packets that no resident QP takes -/

section Refused
variable {s : State} {c : Nat} {k : Pkt} {p : Roce} {kd : RoceKind} {x : Qp} {sel : RxSel}

theorem rdmaRx_bad (hpick : s.rdmaPick = some (c, k)) (hclass : rxClass k = .bad) :
    s.rdmaRx .request = (s.rdmaTaken c).rdmCnt 2 := by
  simp [State.rdmaRx, hpick, hclass, RxClass.sel]

theorem rdmaRx_unknown (hpick : s.rdmaPick = some (c, k)) (hclass : rxClass k = .good p kd) (hsel : (RxClass.good p kd).sel = sel)
    (hqp : s.qp p.dqp = none) : s.rdmaRx sel = (s.rdmaTaken c).rdmCnt 3 := by
  simp only [State.rdmaRx, hpick, hclass, hsel, hqp, ne_eq, not_true_eq_false, if_false]

theorem rdmaRx_parked (hpick : s.rdmaPick = some (c, k)) (hclass : rxClass k = .good p kd) (hsel : (RxClass.good p kd).sel = sel)
    (hqp : s.qp p.dqp = some x) (haway : x.resident = false ∨ x.parked ≠ []) :
    s.rdmaRx sel = ((s.rdmaTaken c).needQp p.dqp).2.park p.dqp k := by
  have hheld : (x.resident && x.parked.isEmpty) = false := by
    rcases haway with hres | hparked
    · rw [hres, Bool.false_and]
    · rw [List.isEmpty_eq_false_iff.2 hparked, Bool.and_false]
  simp only [State.rdmaRx, hpick, hclass, hsel, hqp, hheld, ne_eq, not_true_eq_false, if_false, Bool.false_eq_true]

end Refused

/-! ### Packets of a resident QP -/

section Resident
variable {s t u : State} {c q : Nat} {k : Pkt} {p : Roce} {kd : RoceKind} {x y : Qp} {sel : RxSel} {f l i : Bool}

/-- A packet of a resident QP is processed, and its frame is taken when it is done with. -/
theorem rdmaRx_done (h : s.rdmaIn c k p kd x) (hsel : (RxClass.good p kd).sel = sel)
    (hdone : (s.setQp p.dqp (some { x with used := s.time.ft })).rxPacket p.dqp k p kd = .done t) : s.rdmaRx sel = t.rdmaTaken c := by
  obtain ⟨hpick, hclass, hqp, hres, hparked⟩ := h
  have hhere : (x.resident && x.parked.isEmpty) = true := by rw [hres, hparked]; rfl
  simp only [State.rdmaRx, hpick, hclass, hsel, hqp, hhere, needQp_resident hqp hres, hdone, ne_eq, not_true_eq_false, if_false, if_true]

/-- A request to a responder that receives is processed by its PSN. -/
theorem rxPacket_request (hqp : s.qp q = some x) (hstate : x.state = 2 ∨ x.state = 3 ∨ x.state = 4) (htr : x.transport = 0)
    (hce : p.ce = false) (hkd : (∃ f l i, kd = .send f l i) ∨ ∃ f l i, kd = .write f l i)
    (hdone : s.rxRequest q x k p kd = .done t) : s.rxPacket q k p kd = .done t := by
  have hlive : ¬ x.state ≤ 1 := by omega
  have hok : ¬ x.state = 5 := by omega
  rcases hkd with ⟨f, l, i, rfl⟩ | ⟨f, l, i, rfl⟩ <;>
    simp [State.rxPacket, hqp, hlive, hok, htr, hce, hdone, RoceKind.isResponse]

/-- A packet already received is acknowledged again (table Responder handling). -/
theorem rxRequest_before (hne : p.psn ≠ x.epsn) (hbefore : psnBefore p.psn x.epsn = true) :
    s.rxRequest q x k p (.send f l i) = .done (s.sendAck q x k (psn (x.epsn + 2 ^ 24 - 1))) := by
  simp only [State.rxRequest, if_neg hne, hbefore, if_true]

/-- The first packet beyond the expected one gets a NAK of the expected PSN (table Responder handling). -/
theorem rxRequest_beyond (hqp : s.qp q = some x) (hne : p.psn ≠ x.epsn) (hafter : psnBefore p.psn x.epsn = false)
    (hfirst : x.nakFor ≠ some x.epsn) : s.rxRequest q x k p kd =
      .done ((s.setQp q (some { x with nakFor := some x.epsn })).sendNak q x k x.epsn synSeq) := by
  simp only [State.rxRequest, if_neg hne, hafter, Bool.false_eq_true, if_false, if_neg hfirst, modQp_some hqp]

/-- A whole write at the expected PSN, whose range passes the key check, is written and acknowledged (R340, R349). -/
theorem rxRequest_write {n : Nat} {rg : Mr} {d e : List Byte} (hpsn : p.psn = x.epsn) (hmsg : x.msg = none)
    (hd : d = p.body.drop 16) (hne : d ≠ []) (hmtu : d.length ≤ x.mtu) (hmax : d.length ≤ 2 ^ 31)
    (htotal : beNat (sliceBytes p.body 12 4) = d.length) (hen : bit x.flags 4 = true)
    (hkey : s.keyCheck q x.slice x.pd (beNat (sliceBytes p.body 8 4)) (beNat (p.body.take 8)) d.length accWrite = some (n, rg))
    (hwrite : s.mrWrite n rg (beNat (p.body.take 8)) d false = (.ok e, u)) :
    s.rxRequest q x k p (.write true true false) = .done ((u.expectNext q 1 true none).ackIf q x k p true) := by
  have hsome : d.isEmpty = false := List.isEmpty_eq_false_iff.2 hne
  have hfits : ¬ 2 ^ 31 < d.length := Nat.not_lt.2 hmax
  simp only [State.rxRequest, hpsn, if_true, State.rxWrite, Bool.false_eq_true, if_false, Nat.add_zero, ← hd, hmsg, Nat.zero_add,
    htotal, hen, hkey, hsome, hwrite, sizeOk, hmtu, hfits]
  simp

/-! ### Acknowledgements and CNPs -/

theorem rxPacket_ack (hqp : s.qp q = some x) (hstate : x.state = 3) (htr : x.transport = 0) (hce : p.ce = false)
    (hsyn : (p.body.head?.map (·.toNat)).getD 0 < 0x20) :
    s.rxPacket q k p .ack = .done ((s.ackTo q (psn (p.psn + 1))).pump q) := by
  simp [State.rxPacket, hqp, hstate, htr, hce, RoceKind.isResponse, State.takeResponse, State.takeAeth, hsyn]

theorem rxPacket_cnp (hqp : s.qp q = some x) (hstate : x.state = 2 ∨ x.state = 3 ∨ x.state = 4) (ht : t = s.rdmCnt 14) :
    s.rxPacket q k p .cnp = .done (t.react q) := by
  have hlive : ¬ x.state ≤ 1 := by omega
  have hok : ¬ x.state = 5 := by omega
  simp [State.rxPacket, hqp, hlive, hok, ht]

@[simp] theorem rdmCnt_ac (n : Nat) (g : Fld) (a b d : Nat) : (s.rdmCnt n).ac g a b d = s.ac g a b d := rfl
@[simp] theorem rdmCnt_qp (n : Nat) : (s.rdmCnt n).qp q = s.qp q := rfl
@[simp] theorem rdmCnt_time (n : Nat) : (s.rdmCnt n).time = s.time := rfl

/-- Only what is active at the RDMA engine decides a QP's rates and retries. -/
theorem expert_congr (hac : ∀ g a b d, t.ac g a b d = s.ac g a b d) (a : Nat) : t.expert a = s.expert a := by
  simp only [State.expert, hac]

theorem preset_congr (hac : ∀ g a b d, t.ac g a b d = s.ac g a b d) (a : Nat) : t.preset a = s.preset a := by
  simp only [State.preset, hac]

theorem qpCc_congr (hac : ∀ g a b d, t.ac g a b d = s.ac g a b d) (hflags : y.flags = x.flags) : t.qpCc y = s.qpCc x := by
  rw [State.qpCc, State.qpCc, State.rdmExpert, expert_congr hac, preset_congr hac, hflags, State.rdmExpert]

theorem qpRetry_congr (hac : ∀ g a b d, t.ac g a b d = s.ac g a b d) (hretry : y.retry = x.retry) : t.qpRetry y = s.qpRetry x := by
  rw [State.qpRetry, State.qpRetry, State.rdmExpert, expert_congr hac, preset_congr hac, hretry, State.rdmExpert]

theorem rateMin_congr (hac : ∀ g a b d, t.ac g a b d = s.ac g a b d) : t.rateMin = s.rateMin := by
  simp only [State.rateMin, hac]

theorem rateMax_congr (hac : ∀ g a b d, t.ac g a b d = s.ac g a b d) : t.rateMax = s.rateMax := by
  simp only [State.rateMax, hac]

theorem gain_congr (hac : ∀ g a b d, t.ac g a b d = s.ac g a b d) : t.gain = s.gain := by
  simp only [State.gain, hac]

/-- The first CNP cuts the rate (R358). -/
theorem react_first (hqp : s.qp q = some x) (hcc : s.qpCc x = true) (hfirst : x.reactAt = none) : s.react q =
    s.setQp q (some { x with rt := x.rc, rc := if x.rc * (1 - x.alpha / 2) < s.rateMin then s.rateMin else x.rc * (1 - x.alpha / 2),
                             alpha := x.alpha + s.gain * (1 - x.alpha), steps := 0, reactAt := some s.time.ft, incAt := s.time.ft }) := by
  simp only [State.react, hqp, hfirst, hcc, Bool.not_true, Bool.or_self, Bool.false_eq_true, if_false]

theorem rxPacket_firstCnp (hqp : s.qp q = some x) (hstate : x.state = 2 ∨ x.state = 3 ∨ x.state = 4) (hcc : s.qpCc x = true)
    (hfirst : x.reactAt = none) (ht : t = s.rdmCnt 14) : s.rxPacket q k p .cnp = .done (t.setQp q
      (some { x with rt := x.rc, rc := if x.rc * (1 - x.alpha / 2) < s.rateMin then s.rateMin else x.rc * (1 - x.alpha / 2),
                     alpha := x.alpha + s.gain * (1 - x.alpha), steps := 0, reactAt := some s.time.ft, incAt := s.time.ft })) := by
  have hac (g : Fld) (i j k : Nat) : t.ac g i j k = s.ac g i j k := by rw [ht, rdmCnt_ac]
  have hcut := react_first (s := t) (q := q) (x := x) (by rw [ht, rdmCnt_qp, hqp]) ((qpCc_congr hac rfl).trans hcc) hfirst
  rw [rateMin_congr hac, gain_congr hac, show t.time = s.time by rw [ht, rdmCnt_time]] at hcut
  exact (rxPacket_cnp hqp hstate ht).trans (congrArg Rx.done hcut)

end Resident

/-! ### Timers, fetches and the rise of the rate -/

section Timers
variable {s t : State} {q a : Nat} {x : Qp}

theorem retransmit_again {p n : Nat} (hqp : s.qp q = some x) (hretry : x.retries < s.qpRetry x) : s.retransmit q p n =
    (s.setQp q (some { x with retries := x.retries + 1, tx := p, rtAt := some s.time.ft })).pump q := by
  simp only [State.retransmit, hqp, if_neg (Nat.not_le.2 hretry)]

theorem rtTimeout_due {u : State} (hqp : s.qp q = some x) (ha : x.rtAt = some a) (hcode : s.qpTimeout x ≠ 0) (hstate : x.state = 3)
    (hout : x.una ≠ x.top) (ht : t = s.runTo (a + 4096 * 2 ^ s.qpTimeout x * unitsPerNs)) (hneed : t.needQp q = (true, u)) :
    s.rtTimeout q = (u.rdmCnt 10).retransmit q x.una 0 := by
  simp only [State.rtTimeout, hqp, ha, hcode, hstate, hout, ← ht, hneed]
  rfl

/-- While retries are left, what is not acknowledged is sent again (R350). -/
theorem rtTimeout_retries (hqp : s.qp q = some x) (ha : x.rtAt = some a) (hcode : s.qpTimeout x ≠ 0) (hstate : x.state = 3)
    (hout : x.una ≠ x.top) (ht : t = s.runTo (a + 4096 * 2 ^ s.qpTimeout x * unitsPerNs)) (hres : x.resident = true)
    (hretry : x.retries < s.qpRetry x) : s.rtTimeout q = ((t.rdmCnt 10).setQp q
      (some { x with used := t.time.ft, retries := x.retries + 1, tx := x.una, rtAt := some t.time.ft })).pump q := by
  have htqp : t.qp q = some x := by rw [ht, runTo_qp, hqp]
  have hsame : ((t.rdmCnt 10).setQp q (some { x with used := t.time.ft })).qpRetry { x with used := t.time.ft } = s.qpRetry x :=
    qpRetry_congr (fun g i j k => by rw [setQp_ac, rdmCnt_ac, ht, runTo_ac]) rfl
  have hswap : (t.setQp q (some { x with used := t.time.ft })).rdmCnt 10 = (t.rdmCnt 10).setQp q (some { x with used := t.time.ft }) := rfl
  rw [rtTimeout_due hqp ha hcode hstate hout ht (needQp_resident htqp hres), hswap,
    retransmit_again (qp_setQp_same _) (hsame ▸ hretry), setQp_setQp]
  rfl

theorem rnrTimer_ends (hqp : s.qp q = some x) (ha : x.rnrEnd = some a) (hres : x.resident = true) (ht : t = s.runTo a) :
    s.rnrTimer q = (t.setQp q (some { x with used := t.time.ft, rnrEnd := none, rtAt := some t.time.ft })).pump q := by
  have htqp : t.qp q = some x := by rw [ht, runTo_qp, hqp]
  simp only [State.rnrTimer, hqp, ha, ← ht, needQp_resident htqp hres, if_true, modQp_some (qp_setQp_same _), setQp_setQp]

/-- A QP without parked packets has none to process. -/
theorem unpark_none (hqp : s.qp q = some x) (hparked : x.parked = []) (fuel : Nat) : State.unpark q (fuel + 1) s = s := by
  simp only [State.unpark, hqp, hparked]

theorem fetchDone_hbm {u : State} (hqp : s.qp q = some x) (hfetch : x.fetching = true) (hparked : x.parked = [])
    (hplace : (s.huskPlace q).1 = 1) (hstatus : (s.hbmRead (s.huskPlace q).2 512).status = 0)
    (hnext : (s.hbmRead (s.huskPlace q).2 512).next = s)
    (ht : t = s.setQp q (some { x with resident := true, fetching := false, used := s.time.ft }))
    (hu : u = t.wr R.RDM_QP_CACHE_STATUS_fetching (t.rd R.RDM_QP_CACHE_STATUS_fetching - 1)) : s.fetchDone q =
      ((u.wr R.RDM_QP_CACHE_STATUS_resident (t.rd R.RDM_QP_CACHE_STATUS_resident + 1)).hwbShow.pump q).startFetches := by
  have hback : s.modQp q (fun x => { x with resident := true, fetching := false, used := s.time.ft }) = t :=
    (modQp_some hqp).trans ht.symm
  have hhere : t.qp q = some { x with resident := true, fetching := false, used := s.time.ft } := by rw [ht, qp_setQp_same]
  have hstill (w : Nat) : (u.wr R.RDM_QP_CACHE_STATUS_resident w).qp q = t.qp q := by rw [hu]; rfl
  simp only [State.fetchDone, hqp, hfetch, if_true, hplace, hstatus, hnext, hback, ← hu, hparked]
  rw [unpark_none ((hstill _).trans hhere) hparked]

theorem ccIncrease_early (hqp : s.qp q = some x) (hcc : s.qpCc x = true) (hsteps : x.steps < 5)
    (ht : t = s.runTo (x.incAt + s.ac R.RDM_CC_CFG_inc_us * unitsPerUs)) : s.ccIncrease q =
      t.setQp q (some { x with alpha := x.alpha * (1 - s.gain), steps := x.steps + 1, rc := if s.rateMax < (x.rt + x.rc) / 2 then s.rateMax else (x.rt + x.rc) / 2, incAt := t.time.ft }) := by
  have hac (g : Fld) (i j k : Nat) : t.ac g i j k = s.ac g i j k := by rw [ht, runTo_ac]
  have hearly : ¬ 5 < x.steps + 1 := by omega
  simp only [State.ccIncrease, hqp, hcc, Bool.not_true, Bool.false_eq_true, if_false, ← ht, if_neg hearly, gain_congr hac, rateMax_congr hac]

end Timers

/-- Settles O22: each packet, timer and fetch in the case that the statement names. -/
theorem rocePackets : Obligations.RocePackets := by
  refine ⟨?bad, ?unknown, ?write, ?duplicate, ?beyond, ?parked, ?ack, ?retransmit, ?rnr, ?fetched, ?cnp, ?increase⟩
  case bad =>
    exact fun s c k hup hpick hclass => whenMain_released (f := (·.rdmaRx .request)) hup (rdmaRx_bad hpick hclass)
  case unknown =>
    exact fun s c k p i f hup hpick hclass hqp => whenMain_released (f := (·.rdmaRx .request)) hup
      (rdmaRx_unknown hpick hclass rfl hqp)
  case write =>
    rintro s _ u c i k p x rg d e hup hin hstate htr hce hpsn hmsg hd hne hmtu hmax htotal hen rfl hkey hwrite
    exact whenMain_released (f := (·.rdmaRx .request)) hup (rdmaRx_done hin rfl
      (rxPacket_request (qp_setQp_same _) hstate htr hce (.inr ⟨_, _, _, rfl⟩)
        (rxRequest_write hpsn hmsg hd hne hmtu hmax htotal hen hkey hwrite)))
  case duplicate =>
    exact fun s c k p x f l i hup hin hstate htr hce hne hbefore => whenMain_released (f := (·.rdmaRx .request)) hup
      (rdmaRx_done hin rfl (rxPacket_request (qp_setQp_same _) hstate htr hce (.inl ⟨_, _, _, rfl⟩)
        (rxRequest_before hne hbefore)))
  case beyond =>
    intro s c k p x f l i hup hin hstate htr hce hne hafter hfirst
    have hnak := rxRequest_beyond (s := s.setQp p.dqp (some { x with used := s.time.ft })) (q := p.dqp) (k := k)
      (kd := .write f l i) (x := { x with used := s.time.ft }) (qp_setQp_same _) hne hafter hfirst
    rw [setQp_setQp] at hnak
    exact whenMain_released (f := (·.rdmaRx .request)) hup (rdmaRx_done hin rfl (rxPacket_request (qp_setQp_same _) hstate htr hce
      (.inr ⟨_, _, _, rfl⟩) hnak))
  case parked =>
    exact fun s c k p x f l i hup hpick hclass hqp haway => whenMain_released (f := (·.rdmaRx .request)) hup
      (rdmaRx_parked hpick hclass rfl hqp haway)
  case ack =>
    exact fun s c k p x hup hin hstate htr hce hsyn => whenMain_released (f := (·.rdmaRx .response)) hup
      (rdmaRx_done hin rfl (rxPacket_ack (qp_setQp_same _) hstate htr hce hsyn))
  case retransmit =>
    exact fun s t q x a hup hqp ha hcode hstate hout ht hres hretry => whenMain_released (f := (·.rtTimeout q)) hup
      (rtTimeout_retries hqp ha hcode hstate hout ht hres hretry)
  case rnr =>
    exact fun s t q x a hup hqp ha hres ht => whenMain_released (f := (·.rnrTimer q)) hup (rnrTimer_ends hqp ha hres ht)
  case fetched =>
    exact fun s q x hup hqp hfetch hparked hplace hstatus hnext => whenMain_released (f := (·.fetchDone q)) hup
      (fetchDone_hbm hqp hfetch hparked hplace hstatus hnext rfl rfl)
  case cnp =>
    intro s t c k p x hup hin hstate htr hce hcc hfirst ht
    have hcc' : (s.setQp p.dqp (some { x with used := s.time.ft })).qpCc { x with used := s.time.ft } = true :=
      (qpCc_congr (fun g i j k => by rw [setQp_ac]) rfl).trans hcc
    exact whenMain_released (f := (·.rdmaRx .cnp)) hup (rdmaRx_done hin rfl
      (rxPacket_firstCnp (qp_setQp_same _) hstate hcc' hfirst ht))
  case increase =>
    exact fun s t q x hup hqp hcc hsteps ht => whenMain_released (f := (·.ccIncrease q)) hup
      (ccIncrease_early hqp hcc hsteps ht)

end Sys2Proof.Proofs
end

section
/-! PROOFS. Volume commands, answers, timeouts and power states (14_storage_queues.md R366-R380). -/

namespace Sys2Proof.Proofs
open Sys2Proof Sys2Proof.Machine Sys2Proof.Laws

section Start
variable {s t u : State} {r v n : Nat} {y : Ring} {g : Flight} {x : Vol} {ops : List Nat} {st : Nat}

@[simp] theorem runTo_vol (w : Nat) : (s.runTo w).vol v = s.vol v := by
  unfold State.runTo
  split <;> rfl

theorem modVol_some {f : Vol → Vol} (hx : s.vol v = some x) : s.modVol v f = s.setVol v (some (f x)) := by
  simp only [State.modVol, hx]

theorem cmdCheck_ok (h : (s.cmdCheck x y n g.desc).toOption = some t) : s.cmdCheck x y n g.desc = .ok t := by
  cases hcheck : s.cmdCheck x y n g.desc with
  | error st => rw [hcheck] at h; cases h
  | ok t' => rw [hcheck] at h; cases h; rfl

section Next
variable (hring : s.ring r = some y) (htype : y.type = 4) (hv : v = y.target % 4096) (hnext : y.nextCmd = some g)
    (hstaged : g.staged = false) (hop : ops.contains (dOpcode g.desc) = true) (hvol : s.vol v = some x)
    (hflush : (s.stq.flushTo.any (fun f => f.1 == r && before g.count f.2)) = false)
include hring htype hv hnext hstaged hop hvol hflush

omit hring hv hnext hvol hflush in
/-- The entry is one that may start. -/
theorem startable : ¬ (y.type ≠ 4 ∨ g.staged = true ∨ (!ops.contains (dOpcode g.desc)) = true) := by
  simpa [htype, hstaged] using hop

/-- A command that fails a check completes with its status (R366). -/
theorem stqStart_fails (hcheck : s.cmdCheck x y g.slice g.desc = .error st) :
    s.stqStart r ops = s.stqFinish v r g.count { status := st } := by
  simp only [State.stqStart, hring, ← hv, hnext, hvol, if_neg (startable htype hstaged hop), hflush, Bool.false_eq_true, if_false,
    hcheck]

section Checked
variable (hcheck : (s.cmdCheck x y g.slice g.desc).toOption = some t) (hact : s.volState v = 1) (hroom : x.cmds.length < x.depth)
include hcheck hact hroom

/-- A command that passes every check goes to its backend (R366). -/
theorem stqStart_awake (hawake : s.rd R.STQ_VOL_STATE_pstate v ≠ 2) : s.stqStart r ops = t.issueCmd v x r y g := by
  have hgo : ¬ (s.volState v ≠ 1 ∨ x.depth ≤ x.cmds.length) := by omega
  simp only [State.stqStart, hring, ← hv, hnext, hvol, if_neg (startable htype hstaged hop), hflush, Bool.false_eq_true, if_false,
    cmdCheck_ok hcheck, if_neg hgo, if_neg hawake]

/-- One that finds its volume asleep has the backend woken (R378). -/
theorem stqStart_asleep (hasleep : s.rd R.STQ_VOL_STATE_pstate v = 2) (hwake : x.wakeAt.isSome = false)
    (hnote : t.powerNotice v x 0 = some (n, u)) : s.stqStart r ops =
      (u.modVol v (fun x => { x with wakeAt := some u.time.ft, wakeNote := some n, wakeAcked := false, wakeFor := some (r, g.count) })).stqCnt 12 := by
  have hgo : ¬ (s.volState v ≠ 1 ∨ x.depth ≤ x.cmds.length) := by omega
  simp only [State.stqStart, hring, ← hv, hnext, hvol, if_neg (startable htype hstaged hop), hflush, Bool.false_eq_true, if_false,
    cmdCheck_ok hcheck, if_neg hgo, if_pos hasleep, hwake, hnote]

end Checked
end Next

theorem stqStart_issues {op : Nat} (h : s.stqStarts t r op y g v x) : s.stqStart r [op] = t.issueCmd v x r y g := by
  obtain ⟨hring, htype, hv, hnext, hstaged, hop, hvol, hflush, hcheck, hact, hroom, hawake⟩ := h
  exact stqStart_awake hring htype hv hnext hstaged (by simp [hop]) hvol hflush hcheck hact hroom hawake

/-- A READ of a volume behind a socket is sent as a storage request with a slot to write to (R371). -/
theorem issueCmd_socketRead (hback : x.backend = 2) (hop : dOpcode g.desc = 0x30) (hmod : s.modStatus x.bref = 0)
    (hn : n = s.freeSlot x) (hslot : n < x.depth)
    (hu : u = s.sendTxn x.bref { vc := 1, data := txnHeader 0x13 0x30 0 n 0 (cLba g.desc) ++ (leBytes 4 (cNblocks g.desc) ++ leBytes 2 v ++ leBytes 1 (fieldLE g.desc 0x10 1) ++ leBytes 1 x.shift ++ leBytes 8 (2 ^ 63 + n * 2 ^ 24)) }) :
    s.issueCmd v x r y g = ((((u.modVol v (fun x => { x with cmds := x.cmds ++ [{ slot := n, ring := r, count := g.count, issued := u.time.ft }] })).wr
      R.STQ_VOL_STATE_pstate 0 v).stqCnt 0).performed r g.count) := by
  have hroom : ¬ x.depth ≤ n := by omega
  simp only [State.issueCmd, hback, hop, hmod, ne_eq, not_true_eq_false, if_false, ← hn, if_neg hroom, true_or, if_true, ← hu]

theorem cmdCheck_range (hop : dOpcode g.desc = 0x31) (h10 : fieldLE g.desc 0x10 2 < 2) (h12 : fieldLE g.desc 0x12 2 = 0)
    (hzero : zeroFrom g.desc 0x28 = true) (hpos : 0 < cNblocks g.desc) (hmax : cNblocks g.desc ≤ x.maxBlocks)
    (hrange : x.capacity < cLba g.desc + cNblocks g.desc) : s.cmdCheck x y n g.desc = .error St.stq_lba_range := by
  have hhalf : fieldLE g.desc 0x10 2 / 2 = 0 := by omega
  have hlen : ¬ cNblocks g.desc = 0 := by omega
  have hfits : ¬ x.maxBlocks < cNblocks g.desc := by omega
  simp [State.cmdCheck, hop, hhalf, h12, hzero, hlen, hfits, hrange]

theorem identify_writes {e : List Byte} (hring : s.ring r = some y) (hv : v = y.target % 4096)
    (hfind : y.eng.flight.find? (fun g => !g.performed && !g.staged && g.cpl.isNone && dOpcode g.desc == 0x35) = some g)
    (hvol : s.vol v = some x) (hcheck : (s.cmdCheck x y g.slice g.desc).toOption = some t)
    (hwrite : t.writeFor g.slice y.mem (cBuf g.desc) (leBytes 8 x.capacity ++ leBytes 1 x.shift ++ leBytes 1 x.backend
      ++ leBytes 1 (t.rd R.STQ_VOL_STATE_pstate v) ++ leBytes 1 (t.volState v) ++ leBytes 4 x.maxBlocks ++ leBytes 4 3
      ++ leBytes 4 (if x.backend = 0 then 0 else x.exit2) ++ leBytes 8 x.elog ++ List.replicate 32 0) = (.ok e, u)) :
    s.identify r = u.finish r g.count { status := 0, bytes := 64 } := by
  simp only [State.identify, hring, ← hv, hfind, hvol, cmdCheck_ok hcheck, hwrite]

end Start

/-! ### Answers and timeouts -/

section Answers
variable {s t : State} {a : StqRsp} {l : List StqRsp} {x : Vol} {c : StqCmd} {g : Flight} {v n : Nat}

theorem backendResponse_oldest (hrsps : s.stq.rsps = a :: l) (ht : t = { s with stq := { s.stq with rsps := l } }) :
    s.backendResponse = t.stqAnswer a := by
  simp only [State.backendResponse, hrsps, ← ht]

theorem stqAnswer_success (hvol : s.vol a.vol = some x) (hgood : a.wellFormed = true) (hslot : a.slot < x.depth)
    (hcmd : x.cmds.find? (fun c => c.slot == a.slot && c.ended.isNone) = some c) (hstatus : a.status = 0)
    (hflight : s.flight c.ring c.count = some g) : s.stqAnswer a =
      s.stqEnd a.vol a.slot { status := 0, bytes := if dOpcode g.desc = 0x30 ∨ dOpcode g.desc = 0x31 then cNblocks g.desc * 2 ^ x.shift else 0,
                              x18 := if x.backend = 0 then leBytes 4 a.dw0 else [] } := by
  have hfits : (!a.wellFormed || decide (x.depth ≤ a.slot)) = false := by
    simp [hgood, hslot]
  have hpath : (x.backend == 0 && bits 0 10 8 == 3) = false := by
    rw [show (bits 0 10 8 == 3) = false by decide, Bool.and_false]
  simp only [State.stqAnswer, hvol, hfits, hcmd, hstatus, hflight, hpath, Bool.false_eq_true, if_false, if_true, Option.map_some,
    Option.getD_some]

theorem stqAnswer_malformed (hvol : s.vol a.vol = some x) (hbad : a.wellFormed = false) : s.stqAnswer a = s.freeze a.vol 4 := by
  simp [State.stqAnswer, hvol, hbad]

theorem stqAnswer_late (hvol : s.vol a.vol = none) : s.stqAnswer a = s.stqCnt 8 := by
  simp only [State.stqAnswer, hvol]

theorem stqTimeout_command (hvol : s.vol v = some x) (hcmd : x.cmds.find? (fun c => c.slot == n && c.ended.isNone) = some c)
    (ht : t = s.runTo (c.issued + s.cmdTimeout x * unitsPerMs)) : s.stqTimeout v (some n) =
      (((t.setVol v (some { x with late := x.late ++ [n] })).stqEnd v n { status := St.stq_timeout } 1).freeze v 1) := by
  have hstill : t.vol v = some x := by rw [ht, runTo_vol, hvol]
  simp only [State.stqTimeout, hvol, hcmd, ← ht, modVol_some hstill]

theorem stqTimeout_wake {b r k : Nat} (hvol : s.vol v = some x) (hat : x.wakeAt = some b) (hfor : x.wakeFor = some (r, k))
    (hack : x.wakeAcked = false) (ht : t = s.runTo (b + s.cmdTimeout x * unitsPerMs)) : s.stqTimeout v none =
      (((t.setVol v (some { x with wakeAt := none, wakeNote := none, wakeFor := none })).stqFinish v r k
        { status := St.stq_timeout } 1).freeze v 1) := by
  have hstill : t.vol v = some x := by rw [ht, runTo_vol, hvol]
  simp only [State.stqTimeout, hvol, hat, hfor, ← ht, modVol_some hstill]
  rw [hack]
  rfl

end Answers

/-! ### Power states -/

section Power
variable {s t u : State} {x : Vol} {v b n : Nat}

theorem doze_idle (hvol : s.vol v = some x) (hidle : s.idleSince v x = some b) (hms : s.idle1 x ≠ 0) (hact : s.volState v = 1)
    (hawake : s.rd R.STQ_VOL_STATE_pstate v = 0) :
    s.doze v = ((s.runTo (b + s.idle1 x * unitsPerMs)).wr R.STQ_VOL_STATE_pstate 1 v).stqCnt 10 := by
  simp only [State.doze, hvol, hidle, if_pos (And.intro hms (And.intro hact hawake))]

theorem volSleep_idle (hvol : s.vol v = some x) (hidle : s.idleSince v x = some b) (hms : s.idle2 x ≠ 0) (hact : s.volState v = 1)
    (hawake : s.rd R.STQ_VOL_STATE_pstate v ≠ 2)
    (hnote : (((s.runTo (b + s.idle2 x * unitsPerMs)).wr R.STQ_VOL_STATE_pstate 2 v).stqCnt 11).powerNotice v x 2 = some (n, t)) :
    s.volSleep v = t := by
  simp only [State.volSleep, hvol, hidle, if_pos (And.intro hms (And.intro hact hawake)), hnote]

theorem wakeAck_starts {r c : Nat} (hvol : s.vol v = some x) (hack : x.wakeAcked = true) (hfor : x.wakeFor = some (r, c)) :
    s.wakeAck v = (((s.setVol v (some { x with wakeAt := none, wakeNote := none, wakeAcked := false, wakeFor := none })).wr
      R.STQ_VOL_STATE_pstate 0 v).stqStart r [0x30, 0x31, 0x32, 0x33, 0x34]) := by
  simp only [State.wakeAck, hvol, hack, hfor, if_true]

end Power

/-- Settles O24: each command, answer, timeout and power state in the case that the statement names. -/
theorem volumeCommands : Obligations.VolumeCommands := by
  have issues (s t : State) (r : Fin 65536) (op : Nat) (y : Ring) (g : Flight) (v : Nat) (x : Vol) (hup : s.mainUp = true)
      (h : s.stqStarts t r op y g v x) : s.whenMain (·.stqStart r [op]) = .next (s.settle (t.issueCmd v x r y g)) :=
    whenMain_released (f := (·.stqStart r [op])) hup (stqStart_issues h)
  refine ⟨?read, ?write, ?flush, ?zeroes, ?deallocate, ?range, ?wake, ?identify, ?answer, ?malformed, ?late, ?timeout, ?wakeTimeout,
    ?doze, ?sleep, ?wakeAck⟩
  case read =>
    intro s t r y g v x hup h hback hmod hslot
    have hop : dOpcode g.desc = 0x30 := by
      obtain ⟨-, -, -, -, -, hop, -⟩ := h
      exact hop
    exact whenMain_released (f := (·.stqStart r [0x30])) hup
      ((stqStart_issues h).trans (issueCmd_socketRead hback hop hmod rfl hslot rfl))
  case write => exact fun s t r y g v x => issues s t r 0x31 y g v x
  case flush => exact fun s t r y g v x => issues s t r 0x32 y g v x
  case zeroes => exact fun s t r y g v x => issues s t r 0x33 y g v x
  case deallocate => exact fun s t r y g v x => issues s t r 0x34 y g v x
  case range =>
    intro s r y g v x hup hring htype hv hnext hstaged hop hvol hflush h10 h12 hzero hpos hmax hrange
    exact whenMain_released (f := (·.stqStart r [0x31])) hup (stqStart_fails hring htype hv hnext hstaged (by simp [hop]) hvol
      (by simp [hflush]) (cmdCheck_range hop h10 h12 hzero hpos hmax hrange))
  case wake =>
    intro s t u r y g v n x hup hring htype hv hnext hstaged hop hvol hflush hcheck hact hroom hasleep hwake hnote
    exact whenMain_released (f := (·.stqStart r [0x30])) hup (stqStart_asleep hring htype hv hnext hstaged (by simp [hop]) hvol
      (by simp [hflush]) hcheck hact hroom hasleep (by simp [hwake]) hnote)
  case identify =>
    exact fun s t u r y g v x e hup hring hv hfind hvol hcheck hwrite => whenMain_released (f := (·.identify r)) hup
      (identify_writes hring hv hfind hvol hcheck hwrite)
  case answer =>
    rintro s _ a l x c g hup hrsps hvol hgood hslot hcmd hstatus hflight rfl
    exact whenMain_released (f := State.backendResponse) hup
      ((backendResponse_oldest hrsps rfl).trans (stqAnswer_success hvol hgood hslot hcmd hstatus hflight))
  case malformed =>
    exact fun s a l x hup hrsps hvol hbad => whenMain_released (f := State.backendResponse) hup
      ((backendResponse_oldest hrsps rfl).trans (stqAnswer_malformed hvol hbad))
  case late =>
    exact fun s a l hup hrsps hvol => whenMain_released (f := State.backendResponse) hup
      ((backendResponse_oldest hrsps rfl).trans (stqAnswer_late hvol))
  case timeout =>
    exact fun s t v n x c hup hvol hcmd ht => whenMain_released (f := (·.stqTimeout v (some n.val))) hup
      (stqTimeout_command hvol hcmd ht)
  case wakeTimeout =>
    exact fun s t v x b r k hup hvol hat hfor hack ht => whenMain_released (f := (·.stqTimeout v none)) hup
      (stqTimeout_wake hvol hat hfor hack ht)
  case doze =>
    exact fun s v x b hup hvol hidle hms hact hawake => whenMain_released (f := (·.doze v)) hup
      (doze_idle hvol hidle hms hact hawake)
  case sleep =>
    exact fun s t v x b n hup hvol hidle hms hact hawake hnote => whenMain_released (f := (·.volSleep v)) hup
      (volSleep_idle hvol hidle hms hact hawake hnote)
  case wakeAck =>
    exact fun s v x r c hup hvol hack hfor => whenMain_released (f := (·.wakeAck v)) hup (wakeAck_starts hvol hack hfor)

end Sys2Proof.Proofs
end

section
/-! PROOFS. Heartbeats, roles, the loss of the partner, mirrored writes and transit frames (22_redundant_pair.md R534-R543). -/

namespace Sys2Proof.Proofs
open Sys2Proof Sys2Proof.Machine Sys2Proof.Laws

/-! ### Heartbeats -/

section Heartbeats
variable {s t u : State} {n q : Nat} {e : Nat × Txn}

theorem hbSend_one (hups : s.subsUp = [n]) (ht : t = s.runTo (s.pair.sentAt + 10 * unitsPerUs)) (hq : q = t.pair.hbSeq) :
    s.hbSend = (({ t with pair := { t.pair with sentAt := t.time.ft, hbSeq := (q + 1) % 65536 } } : State).sendTxn n
      { vc := 3, data := txnHeader 0x40 (t.rd R.PAR_STATUS_role) (t.ac R.PAR_CFG_prio + 256 * t.pairState) q 0 t.now64 }) := by
  simp only [State.hbSend, hups, ← ht, ← hq, List.cons_ne_nil, if_false, List.foldl_cons, List.foldl_nil]
  rfl

theorem hbSend_none (hups : s.subsUp = []) : s.hbSend = s := if_pos hups

/-- The offset that a heartbeat shows, within the range of its register (R536). -/
def hbOffset (t : State) (x : Txn) : Nat :=
  unsigned 32 (max (-(2 ^ 31 - 1)) (min (2 ^ 31 - 1) (ft64Ns x.arg + (t.rd R.PAR_LINK_link_ns : Nat) - ft64Ns (ft64 x.at_))))

/-- A member in its row of heartbeats, when the next one has arrived. -/
def hbNext (t : State) (x : Txn) (primary : Bool) : State :=
  ({ t with pair := { t.pair with row := t.pair.row + 1, lastSeq := some x.tag, lastHb := t.time.ft, prio := fieldLE x.data 2 1, partnerPrimary := primary } }
    : State).wr R.PAR_STATUS_ft_offset_ns (hbOffset t x)

/-- The next heartbeat in sequence is noted, and the third one enters PAIRED (R534). -/
theorem hbRx_consecutive (he : s.nextTxn n 0x40 = some e) (hlast : t.pair.lastSeq = some q) (htag : e.2.tag = (q + 1) % 65536)
    (ht : t = s.leaveRx n e) (hu : u = hbNext t e.2 (e.2.sub == 0)) :
    s.hbRx n = if u.pairState = 1 ∧ 3 ≤ t.pair.row + 1 then u.enterPaired else u := by
  have hnew : ¬ e.2.tag = q := by omega
  simp only [State.hbRx, he, ← ht, hlast, if_neg hnew, if_pos htag, hu, hbNext, hbOffset]
  rfl

theorem hbNext_pairState (x : Txn) (b : Bool) : (hbNext t x b).pairState = t.pairState :=
  rd_wr_other _ _ _ _ _ _ _ _ _ _ (by decide)

theorem hbNext_pair (x : Txn) (b : Bool) : (hbNext t x b).pair =
    { t.pair with row := t.pair.row + 1, lastSeq := some x.tag, lastHb := t.time.ft, prio := fieldLE x.data 2 1, partnerPrimary := b } := rfl

theorem hbNext_ac (x : Txn) (b : Bool) (f : Fld) (i j l : Nat) : (hbNext t x b).ac f i j l = t.ac f i j l := by
  rw [hbNext, wr_ac]
  rfl

theorem hbNext_role (x : Txn) (b : Bool) : (hbNext t x b).rd R.PAR_STATUS_role = t.rd R.PAR_STATUS_role :=
  rd_wr_other _ _ _ _ _ _ _ _ _ _ (by decide)

/-- A role that changes to secondary is written with its event (R535). -/
theorem setRole_secondary (hrole : s.rd R.PAR_STATUS_role = 0) : s.setRole 1 =
    (s.wr R.PAR_STATUS_role 1).event 0x15 0 2 (leBytes 1 1 ++ leBytes 1 s.pair.prio ++ List.replicate 14 0) := by
  simp only [State.setRole, hrole]
  rfl

theorem setRole_primary (hrole : s.rd R.PAR_STATUS_role = 1) : s.setRole 0 =
    (((s.wr R.PAR_STATUS_role 0).sat R.PAR_STATUS_takeovers).event 0x15 0 2
      (leBytes 1 0 ++ leBytes 1 s.pair.prio ++ List.replicate 14 0)) := by
  simp only [State.setRole, hrole]
  rfl

/-- A primary of lower priority whose partner is primary too becomes the secondary (R535). -/
theorem enterPaired_yields (hrole : s.rd R.PAR_STATUS_role = 0) (hprimary : s.pair.partnerPrimary = true)
    (hlost : s.pair.wasLost = false) (hprio : s.ac R.PAR_CFG_prio < s.pair.prio) : s.enterPaired =
      ((s.wr R.PAR_STATUS_state 2).wr R.PAR_STATUS_role 1).event 0x15 0 2
        (leBytes 1 1 ++ leBytes 1 s.pair.prio ++ List.replicate 14 0) := by
  have hkeep : (s.wr R.PAR_STATUS_state 2).rd R.PAR_STATUS_role = 0 :=
    (rd_wr_other _ _ _ _ _ _ _ _ _ _ (by decide)).trans hrole
  have hrule : (s.wr R.PAR_STATUS_state 2).ruleSecondary = true := by
    simp [State.ruleSecondary, hprio]
  have hnow (d : List Byte) : ¬ ((((s.wr R.PAR_STATUS_state 2).wr R.PAR_STATUS_role 1).event 0x15 0 2 d).rd R.PAR_STATUS_role = 0) := by
    rw [event_rd, rd_wr_same]
    decide
  have hpart : (s.wr R.PAR_STATUS_state 2).pair = s.pair := rfl
  simp only [State.enterPaired, hlost, Bool.and_false, Bool.false_eq_true, if_false, hrule, if_true, hpart, hprimary, Bool.or_true,
    setRole_secondary hkeep, if_neg (hnow _)]

end Heartbeats

/-! ### The loss of the partner -/

section Loss
variable {s t u : State} {k : Nat}

/-- The partner is declared lost: LOST with resync set, the event, and no frame left toward the partner (R536). -/
def lostState (t : State) : State :=
  (((t.wr R.PAR_STATUS_state 3).raise R.PAR_STATUS_resync).eventBoth 0x15 0 3 (List.replicate 16 0)).dropDest 72

theorem hbTimeout_unpaired (hstate : s.pairState ≠ 2) : s.hbTimeout' = s := if_pos hstate

theorem hbTimeout_paired (hstate : s.pairState = 2) (hk : k = s.ac R.PAR_CFG_miss_max)
    (ht : t = (s.runTo (s.pair.lastHb + k * 10 * unitsPerUs)).addTo R.PAR_CNT_count k 5) : s.hbTimeout' = t.partnerLost false := by
  rw [State.hbTimeout', if_neg (not_not.2 hstate), ht, hk]
  rfl

theorem partnerLost_paired (hstate : t.pairState = 2) (hu : u = lostState t) : t.partnerLost false =
    let v := if u.rd R.PAR_STATUS_role = 1 then (u.setRole 0).pairActive else u
    if v.ac R.PAR_CFG_enable = 0 then v.wr R.PAR_STATUS_state 0 else v := by
  have hdetail : leBytes 1 (b2n false) ++ List.replicate 15 0 = List.replicate 16 0 := by decide
  rw [State.partnerLost, if_neg (not_not.2 hstate), hdetail, hu, lostState]

theorem partnerLost_primary (hstate : t.pairState = 2) (hu : u = lostState t) (hrole : u.rd R.PAR_STATUS_role = 0)
    (hen : u.ac R.PAR_CFG_enable ≠ 0) : t.partnerLost false = u := by
  have hkeeps : ¬ u.rd R.PAR_STATUS_role = 1 := by omega
  simp only [partnerLost_paired hstate hu, if_neg hkeeps, if_neg hen]

theorem partnerLost_secondary {v : State} (hstate : t.pairState = 2) (hu : u = lostState t) (hrole : u.rd R.PAR_STATUS_role = 1)
    (hv : v = (((u.wr R.PAR_STATUS_role 0).sat R.PAR_STATUS_takeovers).event 0x15 0 2
      (leBytes 1 0 ++ leBytes 1 u.pair.prio ++ List.replicate 14 0)).pairActive)
    (hen : v.ac R.PAR_CFG_enable ≠ 0) : t.partnerLost false = v := by
  simp only [partnerLost_paired hstate hu, if_pos hrole, setRole_primary hrole, ← hv, if_neg hen]

end Loss

/-! ### Mirrored writes -/

section Mirror
variable {s t : State} {n v : Nat} {e : Nat × Txn}

/-- With no mirrored write waiting on the other sublink, the next one is taken. -/
theorem mirrorRx_alone (he : s.nextTxn n 0x41 = some e) (hother : s.nextTxn (17 - n) 0x41 = none) (ht : t = s.leaveRx n e) :
    s.mirrorRx n = if t.ac R.PAR_CFG_mirror_rx = 0 then t.pairCnt 3
      else t.mirrorApply (fieldLE e.2.data 8 4) (fieldLE e.2.data 0xC 1) (fieldLE e.2.data 0x10 8) := by
  simp only [State.mirrorRx, he, hother, ← ht]
  rfl

theorem find_drainCfg (hopen : s.blkOpen (blkOf 0x13) 0 = true) :
    s.find R.reg_HLT_DRAIN_CFG.base 4 = .whole (blkOf 0x13) 0 R.reg_HLT_DRAIN_CFG 0 0 0 := by
  have hblk : blkAt R.reg_HLT_DRAIN_CFG.base = some (blkOf 0x13, 0) := by rfl
  have hreg : regAt R.reg_HLT_DRAIN_CFG.base = some (R.reg_HLT_DRAIN_CFG, 0, 0, 0) := by rfl
  simp only [State.find, hblk, hreg, hopen]
  rfl

theorem blockWr_drainCfg (req : Req) (w : Nat) : s.blockWr req (blkOf 0x13) 0 R.reg_HLT_DRAIN_CFG 0 0 0 w =
    s.wr R.HLT_DRAIN_CFG_drain_ms (part R.HLT_DRAIN_CFG_drain_ms w) := rfl

/-- A mirrored write of HLT_DRAIN_CFG is the owner's own (R539). -/
theorem mirrorApply_drainCfg (hopen : t.blkOpen (blkOf 0x13) 0 = true) (hown : t.rd hdrOwner (blkOf 0x13).base ≤ 1)
    (hv : v < 2 ^ 32) : t.mirrorApply R.reg_HLT_DRAIN_CFG.base 4 v = (t.wr R.HLT_DRAIN_CFG_drain_ms (v / 2 ^ 16)).dlRefresh := by
  have hpart : t.wr R.HLT_DRAIN_CFG_drain_ms (part R.HLT_DRAIN_CFG_drain_ms v) = t.wr R.HLT_DRAIN_CFG_drain_ms (v / 2 ^ 16) := by
    rw [part_eq _ v (by decide)]
    exact wr_mod ..
  have happly (req : Req) (hmay : t.mayWrite req (blkOf 0x13) 0 R.reg_HLT_DRAIN_CFG 0 = true) :
      t.regApply req (blkOf 0x13) 0 R.reg_HLT_DRAIN_CFG 0 0 0 v = (t.wr R.HLT_DRAIN_CFG_drain_ms (v / 2 ^ 16)).dlRefresh := by
    have hw : R.reg_HLT_DRAIN_CFG.flds.any Fld.writable = true := by decide
    rw [State.regApply, hw, hmay, blockWr_drainCfg, hpart]
    rfl
  have hmod : v % 2 ^ (8 * 4) = v := Nat.mod_eq_of_lt hv
  have hbase : (blkOf 0x13).base + 0 * (blkOf 0x13).stride = (blkOf 0x13).base := by omega
  simp only [State.mirrorApply, find_drainCfg hopen, hmod, hbase]
  refine happly _ ?_
  have hside : oneSide R.reg_HLT_DRAIN_CFG 0 = none := by decide
  simp only [State.mayWrite, hside, hbase]
  split
  case isTrue hone => simp [State.ownerOk, hone]
  case isFalse hne =>
    have hzero : t.rd hdrOwner (blkOf 0x13).base = 0 := by omega
    simp [State.ownerOk, hzero]

end Mirror

/-! ### Transit frames -/

section Transit
variable {s t : State} {n q : Nat} {e : Nat × Txn}

theorem transitRx_unpaired (he : s.nextTxn n 0x01 = some e) (hstate : (s.leaveRx n e).pairState ≠ 2) : s.transitRx n = s.leaveRx n e := by
  simp only [State.transitRx, he, if_pos hstate]

theorem transitRx_paired (he : s.nextTxn n 0x01 = some e) (ht : t = s.leaveRx n e) (hstate : t.pairState = 2)
    (hq : q = s.ac R.PAR_CFG_rx_pipe) (htrust : t.ac R.PAR_CFG_trust_slice = 1) : s.transitRx n = (t.pairCnt 1).toPipe q
      { data := e.2.body, src := 0x303, stamp := e.2.arg, at_ := e.2.at_, bad := e.2.bad, slice := e.2.status % 4096,
        cls := some (e.2.sub % 8), recirc := bits e.2.status 14 12 + 1 } := by
  simp only [State.transitRx, he, ← ht, hstate, ← hq, htrust, ne_eq, not_true_eq_false, if_false, if_true]

end Transit

/-- Settles O44: heartbeats, the loss of the partner, mirrored writes and transit frames, each in the case of its clause. -/
theorem redundantPair : Obligations.RedundantPair := by
  refine ⟨?send, ?silent, ?noted, ?secondary, ?lost, ?takeover, ?unpaired, ?skipped, ?applied, ?transit, ?discarded⟩
  case send =>
    exact fun s t q hup hups ht hq => whenMain_released (f := State.hbSend) hup (hbSend_one hups ht hq)
  case silent =>
    exact fun s hup hups => whenMain_released (f := State.hbSend) hup (hbSend_none hups)
  case noted =>
    intro s t sub e q hup he hlast htag hrow ht
    refine whenMain_released (f := (·.hbRx (8 + sub))) hup ((hbRx_consecutive he hlast htag ht rfl).trans (if_neg ?_))
    rintro ⟨-, hthree⟩
    omega
  case secondary =>
    intro s t u sub e q hup he hlast htag hrow ht hstate hlost hsub hprio hrole hu
    have hnext : u = hbNext t e.2 true := hu
    have hprimary : (e.2.sub == 0) = true := by rw [hsub]; rfl
    have hpaired : u.pairState = 1 ∧ 3 ≤ t.pair.row + 1 := ⟨by rw [hnext, hbNext_pairState, hstate], by omega⟩
    have hyields := enterPaired_yields (s := u) (by rw [hnext, hbNext_role, hrole]) (by rw [hnext, hbNext_pair])
      (by rw [hnext, hbNext_pair]; exact hlost) (by rw [hnext, hbNext_pair, hbNext_ac]; exact hprio)
    have hprioNow : u.pair.prio = fieldLE e.2.data 2 1 := by rw [hnext, hbNext_pair]
    rw [hprioNow] at hyields
    exact whenMain_released (f := (·.hbRx (8 + sub))) hup
      ((hbRx_consecutive he hlast htag ht (hprimary ▸ hnext)).trans ((if_pos hpaired).trans hyields))
  case lost =>
    exact fun s t u k hup hstate hk ht hpaired hu hrole hen => whenMain_released (f := State.hbTimeout') hup
      ((hbTimeout_paired hstate hk ht).trans (partnerLost_primary hpaired hu hrole hen))
  case takeover =>
    exact fun s t u k hup hstate hk ht hpaired hu hrole hen => whenMain_released (f := State.hbTimeout') hup
      ((hbTimeout_paired hstate hk ht).trans (partnerLost_secondary hpaired hu hrole rfl hen))
  case unpaired =>
    exact fun s hup hstate => whenMain_released (f := State.hbTimeout') hup (hbTimeout_unpaired hstate)
  case skipped =>
    exact fun s sub e hup _ he hother hoff => whenMain_released (f := fun s => (s.mirrorRx (8 + sub)).drainDue) hup
      (congrArg State.drainDue ((mirrorRx_alone he hother rfl).trans (if_pos hoff)))
  case applied =>
    intro s t sub e v hup he hother ht hon hoff hwidth hval hv hopen hown
    refine whenMain_released (f := fun s => (s.mirrorRx (8 + sub)).drainDue) hup (congrArg State.drainDue ?_)
    have htakes : ¬ t.ac R.PAR_CFG_mirror_rx = 0 := by omega
    rw [mirrorRx_alone he hother ht, if_neg htakes, hoff, hwidth, hval]
    exact mirrorApply_drainCfg hopen hown hv
  case transit =>
    exact fun s t sub e q hup he ht hstate hq htrust => whenMain_released (f := (·.transitRx (8 + sub))) hup
      (transitRx_paired he ht hstate hq htrust)
  case discarded =>
    exact fun s sub e hup he hstate => whenMain_released (f := (·.transitRx (8 + sub))) hup (transitRx_unpaired he hstate)

end Sys2Proof.Proofs
end

section
/-! PROOFS. The management buses, MCTP, the always-on log and the island's time (20_health_test.md R519; 21_management.md R522-R527). -/

namespace Sys2Proof.Proofs
open Sys2Proof Sys2Proof.Machine Sys2Proof.Laws

/-- A command of the running island gives what it makes of the state. -/
theorem whenIsland_gives {s t : State} {f : State → State} (hup : s.isl.up = true) (hf : f s = t) :
    s.whenIsland f = .next (s.settle t) := by
  rw [whenIsland_up s f hup, hf]

/-! ### The buses -/

section Buses
variable {s : State} {a : Nat}

theorem setDasa_free (hdyn : s.isl.dyn = 0) : s.setDasa a = { s with isl := { s.isl with dyn := a } } := if_pos hdyn

theorem setDasa_assigned (hdyn : s.isl.dyn ≠ 0) : s.setDasa a = s := if_neg hdyn

end Buses

/-! ### MCTP packets -/

section Packets
variable {s : State} {src tag seq : Nat} {som eom : Bool} {data : List Byte} {a : McAsm}

/-- Without a message in assembly, none is left after one is given up. -/
theorem modIsl_noAsm (hasm : s.isl.asm = []) : s.modIsl (fun i => { i with asm := [] }) = s := by
  rw [State.modIsl, ← hasm]

theorem mctpPacket_long (hlong : 64 < data.length) (hasm : s.isl.asm = []) :
    s.mctpPacket src tag som eom seq data = s.mgtCnt 2 := by
  simp only [State.mctpPacket, if_pos hlong, hasm, List.filter_nil, modIsl_noAsm hasm]

theorem mctpPacket_whole (hlen : data.length ≤ 64) (hasm : s.isl.asm = []) :
    s.mctpPacket src tag true true seq data = s.mgtCnt 0 := by
  simp only [State.mctpPacket, if_neg (Nat.not_lt.2 hlen), hasm, List.filter_nil, List.find?_nil, Option.isSome_none,
    Bool.false_eq_true, if_false, if_true, modIsl_noAsm hasm]

theorem mctpPacket_start (hlen : data.length ≤ 64) (hasm : s.isl.asm = []) : s.mctpPacket src tag true false seq data =
    s.modIsl (fun i => { i with asm := [{ src := src, tag := tag, data := data, seq := (seq + 1) % 4 }] }) := by
  simp only [State.mctpPacket, if_neg (Nat.not_lt.2 hlen), hasm, List.filter_nil, List.find?_nil, Option.isSome_none,
    Bool.false_eq_true, if_false, if_true, List.nil_append]

section Assembly
variable (hlen : data.length ≤ 64) (hasm : s.isl.asm = [a]) (hsrc : a.src = src) (htag : a.tag = tag)
include hlen hasm hsrc htag

omit hlen in
/-- The only message in assembly is the packet's own. -/
theorem asm_own : s.isl.asm.find? (fun a => a.src == src && a.tag == tag) = some a ∧
    s.isl.asm.filter (fun a => !(a.src == src && a.tag == tag)) = [] := by
  simp [hasm, hsrc, htag]

theorem mctpPacket_next (hseq : a.seq = seq) (hmax : a.data.length + data.length ≤ 1088) :
    s.mctpPacket src tag false false seq data =
      s.modIsl (fun i => { i with asm := [{ a with data := a.data ++ data, seq := (seq + 1) % 4 }] }) := by
  have hfits : ¬ (a.seq ≠ seq ∨ mctpMax < a.data.length + data.length) := by
    have hmctp : mctpMax = 1088 := rfl
    omega
  obtain ⟨hfind, hrest⟩ := asm_own hasm hsrc htag
  simp only [State.mctpPacket, if_neg (Nat.not_lt.2 hlen), hfind, hrest, if_neg hfits, Bool.false_eq_true, if_false,
    List.nil_append]

theorem mctpPacket_gap (hseq : a.seq ≠ seq) : s.mctpPacket src tag false eom seq data =
    (s.modIsl (fun i => { i with asm := [] })).mgtCnt 2 := by
  obtain ⟨hfind, hrest⟩ := asm_own hasm hsrc htag
  simp only [State.mctpPacket, if_neg (Nat.not_lt.2 hlen), hfind, hrest, if_pos (Or.inl hseq), Bool.false_eq_true, if_false]

end Assembly
end Packets

/-! ### MCTP control messages -/

section Control
variable {s : State} {e t : Nat}

theorem setEid_legal (hzero : e ≠ 0) (hall : e ≠ 255) : s.setEid e = (s.wr R.MGT_INFO_eid e).ctlAnswer 1 0 (leBytes 1 e) :=
  if_neg (by rintro (h | h) <;> contradiction)

theorem mctpVersion_supported (h : t = 0 ∨ t = 1 ∨ t = 0x7F ∨ t = 0xFF) :
    s.mctpVersion t = s.ctlAnswer 4 0 (Config.mctpVersions t) := if_pos h

theorem mctpVersion_other (h : ¬ (t = 0 ∨ t = 1 ∨ t = 0x7F ∨ t = 0xFF)) : s.mctpVersion t = s.ctlAnswer 4 0x80 := if_neg h

end Control

/-! ### The always-on log and the island's time -/

section Log
variable {s : State} {req : Req} {q : Nat}

theorem logRecord_room {e : EventRec} {l : List EventRec} (hq : s.logq = e :: l) (hroom : s.isl.log.length < 8192) : s.logRecord =
    { s with logq := l, isl := { s.isl with log := s.isl.log ++ [(s.logNext, s.islandStamp e)] } } := by
  have hfits : ¬ 8192 < (s.isl.log ++ [(s.logNext, s.islandStamp e)]).length := by
    rw [List.length_append, List.length_singleton]
    omega
  simp only [State.logRecord, hq, State.modIsl, if_neg hfits]

theorem islandFt_set (hup : s.mainUp = true) (hset : s.rd R.FT_STATUS_state ≠ 0) :
    s.islandFt = { s with isl := { s.isl with ft := s.time.ft } } := by
  simp [State.islandFt, hup, hset, State.modIsl]

theorem blockWr_logIdx (v : Nat) : s.blockWr req (blkOf 0x14) 0 R.reg_MGT_LOG_IDX 0 0 0 v = s.logLoad v := rfl

/-- A record that is not held reads all zeros (R526). -/
theorem logLoad_absent (hnone : s.isl.log.find? (·.1 == q) = none) : s.logLoad q =
    (List.range 4).foldl (fun s j => s.wr R.MGT_LOG_DATA_data 0 j) (s.wr R.MGT_LOG_IDX_seq q) := by
  have hzero : ∀ j ∈ List.range 4, fieldLE (List.replicate 32 0) (8 * j) 8 = 0 := by decide
  simp only [State.logLoad, hnone]
  exact List.foldl_ext _ _ _ (fun t j hj => by rw [hzero j hj])

theorem logLoad_held {p : Nat × EventRec} (hp : s.isl.log.find? (·.1 == q) = some p) : s.logLoad q =
    (List.range 4).foldl (fun s j => s.wr R.MGT_LOG_DATA_data (fieldLE (leBytes 8 p.1 ++ eventBytes p.2) (8 * j) 8) j)
      (s.wr R.MGT_LOG_IDX_seq q) := by
  simp only [State.logLoad, hp, logBytes]

end Log

/-- Settles O40: each bus, packet, control message and log command in the case of its clause. -/
theorem busesAndMctp : Obligations.BusesAndMctp := by
  refine ⟨?stuck, ?setdasa, ?setdasaHeld, ?entdaa, ?rstdaa, ?busReset, ?whole, ?start, ?following, ?gap, ?long, ?setEid, ?getEid, ?uuid,
    ?version, ?versionOther, ?types, ?vendor, ?unsupported, ?log, ?time, ?absent, ?held⟩
  case stuck => exact fun s b hup => whenIsland_gives (f := (·.busStuck b)) hup rfl
  case setdasa => exact fun s a hup hdyn => whenIsland_gives (f := (·.setDasa a)) hup (setDasa_free hdyn)
  case setdasaHeld => exact fun s a hup hdyn => whenIsland_gives (f := (·.setDasa a)) hup (setDasa_assigned hdyn)
  case entdaa => exact fun s a hup hdyn => whenIsland_gives (f := (·.setDasa a)) hup (setDasa_free hdyn)
  case rstdaa => exact fun s hup => whenIsland_gives (f := State.busReset) hup rfl
  case busReset => exact fun s hup => whenIsland_gives (f := State.busReset) hup rfl
  case whole =>
    exact fun s src tag seq data hup hlen hasm => whenIsland_gives (f := (·.mctpPacket src tag true true seq data)) hup
      (mctpPacket_whole hlen hasm)
  case start =>
    exact fun s src tag seq data hup hlen hasm => whenIsland_gives (f := (·.mctpPacket src tag true false seq data)) hup
      (mctpPacket_start hlen hasm)
  case following =>
    exact fun s src tag seq data a hup hlen hasm hsrc htag hseq hmax =>
      whenIsland_gives (f := (·.mctpPacket src tag false false seq data)) hup (mctpPacket_next hlen hasm hsrc htag hseq hmax)
  case gap =>
    exact fun s src tag eom seq data a hup hlen hasm hsrc htag hseq =>
      whenIsland_gives (f := (·.mctpPacket src tag false eom seq data)) hup (mctpPacket_gap hlen hasm hsrc htag hseq)
  case long =>
    exact fun s src tag som eom seq data hup hlong hasm => whenIsland_gives (f := (·.mctpPacket src tag som eom seq data)) hup
      (mctpPacket_long hlong hasm)
  case setEid => exact fun s e hup hzero hall => whenIsland_gives (f := (·.setEid e)) hup (setEid_legal hzero hall)
  case getEid => exact fun s hup => whenIsland_gives (f := State.getEid) hup rfl
  case uuid => exact fun s hup => whenIsland_gives (f := (·.ctlAnswer 3 0 Config.uuid)) hup rfl
  case version =>
    exact fun s t hup ht => whenIsland_gives (f := (·.mctpVersion t)) hup (mctpVersion_supported (by omega))
  case versionOther =>
    exact fun s t hup ht => whenIsland_gives (f := (·.mctpVersion t)) hup (mctpVersion_other (by omega))
  case types => exact fun s hup => whenIsland_gives (f := State.mctpTypes) hup rfl
  case vendor => exact fun s hup => whenIsland_gives (f := (·.mctpVendor 0)) hup rfl
  case unsupported => exact fun s cmd hup => whenIsland_gives (f := (·.ctlAnswer cmd 5)) hup rfl
  case log => exact fun s e l hup hq hroom => whenIsland_gives (f := State.logRecord) hup (logRecord_room hq hroom)
  case time => exact fun s hup hmain hset => whenIsland_gives (f := State.islandFt) hup (islandFt_set hmain hset)
  case absent =>
    intro s req q h hq hnone
    have hfind : s.isl.log.find? (·.1 == q) = none := by
      simpa [List.find?_eq_none] using hnone
    exact congrArg s.done (wrReg_block q h (by decide) hq ((blockWr_logIdx q).trans (logLoad_absent hfind)))
  case held =>
    exact fun s req q p h hq hp => congrArg s.done (wrReg_block q h (by decide) hq ((blockWr_logIdx q).trans (logLoad_held hp)))

end Sys2Proof.Proofs
end

section
/-! PROOFS. PLDM base, platform monitoring and firmware update (21_management.md R523, R524). -/

namespace Sys2Proof.Proofs
open Sys2Proof Sys2Proof.Machine Sys2Proof.Laws

/-! ### Base and platform -/

section Platform
variable {s : State} {t i n id v : Nat} {l : List Nat}

theorem setTid_legal (hzero : t ≠ 0) (hall : t ≠ 255) : s.setTid t = (s.wr R.MGT_INFO_tid t).pldm 0 1 0 :=
  if_neg (by rintro (h | h) <;> contradiction)

theorem pldmVersion_supported (h : t = 0 ∨ t = 2 ∨ t = 5) : s.pldmVersion t = s.pldm 0 3 0 (Config.pldmVersion t) := by
  have hsome : (pldmCommands t).isSome = true := by
    rcases h with rfl | rfl | rfl <;> rfl
  exact if_pos hsome

theorem pldmTypes_eq : s.pldmTypes = s.pldm 0 4 0 [0x25, 0, 0, 0, 0, 0, 0, 0] := by
  have hbytes : leBytes 8 (2 ^ 0 + 2 ^ 2 + 2 ^ 5) = [0x25, 0, 0, 0, 0, 0, 0, 0] := by decide
  rw [State.pldmTypes, hbytes]

theorem pldmCmds_supported (hl : pldmCommands t = some l) :
    s.pldmCmds t = s.pldm 0 5 0 (leBytes 32 (l.foldl (fun a c => a + 2 ^ c) 0)) := by
  simp only [State.pldmCmds, hl]

theorem sensor_temperature (hup : s.mainUp = true) (hlow : 2 ≤ i) (hhigh : i ≤ 18) (hgood : s.on R.HLT_TEMP_fault (i - 1) = false) :
    s.sensor i = (some (s.rd R.HLT_TEMP_temp_c (i - 1)), s) := by
  have hown : ¬ (i = 1 ∨ (20 ≤ i ∧ i ≤ 22)) := by omega
  simp [State.sensor, hown, hup, hlow, hhigh, hgood]

theorem sensor_down (hdown : s.mainUp = false) (hlow : 2 ≤ i) (hhigh : i ≤ 18) : s.sensor i = (none, s) := by
  have hown : ¬ (i = 1 ∨ (20 ≤ i ∧ i ≤ 22)) := by omega
  simp [State.sensor, hown, hdown]

theorem sensor_socket (hup : s.mainUp = true) (hlow : 40 ≤ i) (hhigh : i < 48) :
    s.sensor i = (some (s.rd R.TSK_STATUS_pwr (i - 40)), s) := by
  have hown : ¬ (i = 1 ∨ (20 ≤ i ∧ i ≤ 22)) := by omega
  have htemp : ¬ (2 ≤ i ∧ i ≤ 18) := by omega
  have hboot : ¬ i = 30 := by omega
  have hpower : ¬ i = 31 := by omega
  have hgroup : ¬ (32 ≤ i ∧ i < 40) := by omega
  simp [State.sensor, hown, hup, htemp, hboot, hpower, hgroup, hlow, hhigh]

/-- A sensor of the subset answers with its value. -/
theorem sensorRead_value (hval : s.sensor i = (some v, s)) : s.sensorRead n i true = s.pldm 2 n 0 (leBytes 1 0 ++ leBytes 2 v) := by
  simp [State.sensorRead, hval]

theorem sensorRead_unavailable (hval : s.sensor i = (none, s)) : s.sensorRead n i true = s.pldm 2 n 0 [2] := by
  have hbyte : leBytes 1 2 = [2] := by decide
  simp [State.sensorRead, hval, hbyte]

theorem numericId_temperature (hlow : 2 ≤ i) (hhigh : i ≤ 18) : numericId i = true := by
  simp [numericId]
  omega

theorem stateId_socket (hlow : 40 ≤ i) (hhigh : i < 48) : stateId i = true := by
  simp [stateId]
  omega

theorem sensorEvent_disabled (hbuf : s.isl.evBuf = none) : s.sensorEvent = s := by
  simp [State.sensorEvent, hbuf]

/-- A sensor whose value is another than the one last reported, with that value. -/
def sensorChange (s : State) (id : Nat) : Option (Nat × Nat) :=
  match s.sensorClass id with
  | some v => if v = Store.get 0 s.isl.sensed id then none else some (id, v)
  | none => none

theorem sensorEvent_changed (hbuf : s.isl.evBuf = some n) (hfirst : sensorIds.findSome? (sensorChange s) = some (id, v)) :
    s.sensorEvent = (s.modIsl (fun i => { i with sensed := Store.put 0 i.sensed id v })).mctpSend
      (.pldmRequest 2 0x0A (leBytes 2 id ++ leBytes 2 v)) := by
  have hon : ¬ s.isl.evBuf.isNone = true := by simp [hbuf]
  rw [State.sensorEvent, if_neg hon]
  split
  next hnone => cases hfirst.symm.trans hnone
  next id' v' hsome =>
    cases hfirst.symm.trans hsome
    rfl

end Platform

/-! ### Firmware update -/

section Update
variable {s t : State} {u : UpdSess} {d : List Byte} {f r : Bool} {q : Nat}

theorem fwParams_running (hheld : s.mainHeld = false) (hq : q = s.rd R.SEC_IMAGE_INFO_seq)
    (hother : s.slotSt (1 - s.rd R.SEC_BOOT_STATUS_slot) ≠ .valid) :
    s.fwParams = s.pldm 5 2 0 (leBytes 2 0x6408 ++ leBytes 4 q ++ [0x53] ++ hexDigits 8 q) := by
  simp only [State.fwParams, hheld, Bool.false_eq_true, if_false, ← hq, if_neg hother, List.append_nil]

theorem requestUpdate_ready (hready : s.mboxReady = true) (hupd : s.sec.upd.isSome = false) (hsess : s.updSess.isSome = false) :
    s.requestUpdate = (s.setUpdSess (some {})).pldm 5 0x10 0 := by
  simp [State.requestUpdate, hready, hupd, hsess]

theorem requestUpdate_busy (hupd : s.sec.upd.isSome = true) : s.requestUpdate = s.pldm 5 0x10 0x8A := by
  simp [State.requestUpdate, hupd]

theorem passTable_open (hsess : s.updSess = some u) (hrun : u.running = false) :
    s.passTable = (s.setUpdSess (some { u with table := true })).pldm 5 0x13 0 := by
  simp [State.passTable, hsess, hrun]

/-- A command out of order, with the main domain released (R524). -/
theorem notExpected_released {c : Nat} (hheld : s.mainHeld = false) : s.notExpected c = (s.setUpdSess none).pldm 5 c 0x88 := by
  simp [State.notExpected, hheld]

theorem passTable_closed (hsess : s.updSess = none) (hheld : s.mainHeld = false) :
    s.passTable = (s.setUpdSess none).pldm 5 0x13 0x88 := by
  simp only [State.passTable, hsess, notExpected_released hheld]

theorem updateComponent_begins (hsess : s.updSess = some u) (htable : u.table = true) (hrun : u.running = false) :
    s.updateComponent 0x6408 = ((s.setUpdSess (some { u with running := true })).pldm 5 0x14 0 [0]).askData 0 := by
  simp [State.updateComponent, hsess, htable, hrun]

section Data
variable (hsess : s.updSess = some u) (hrun : u.running = true) (hdone : u.done = false) (hlen : d.length = 1024)
include hsess hrun hdone hlen

omit hsess in
/-- A piece that the session waits for. -/
theorem piece_awaited : (!u.running || u.done || d.length != 1024) = false := by
  simp [hrun, hdone, hlen]

theorem firmwareData_piece (hoff : 0 < u.offset) (hchunk : u.chunk.length + 1024 < 4096) : s.firmwareData d f r =
    (s.setUpdSess (some { u with offset := u.offset + 1024, chunk := u.chunk ++ d })).askData (u.offset + 1024) := by
  have hbody : ¬ u.offset = 0 := by omega
  have hmore : (u.chunk ++ d).length < 4096 := by rw [List.length_append, hlen]; exact hchunk
  simp only [State.firmwareData, hsess, piece_awaited hrun hdone hlen, Bool.false_eq_true, if_false, if_neg hbody, if_pos hmore]

theorem firmwareData_badHeader (hoff : u.offset = 0) (ht : t = (s.setMbox 1 0 d).updBegin 1 f) (hbad : t.secStatus ≠ 0) :
    s.firmwareData d f r = t.transferFail := by
  simp only [State.firmwareData, hsess, piece_awaited hrun hdone hlen, Bool.false_eq_true, if_false, if_pos hoff, ← ht, if_pos hbad]

end Data

theorem activateFirmware_done (hsess : s.updSess = some u) (hdone : u.done = true) :
    s.activateFirmware = ((s.setUpdSess none).pldm 5 0x1A 0 (leBytes 2 500)).activate 1 := by
  simp only [State.activateFirmware, hsess, hdone, if_true]

theorem activateFirmware_early (hsess : s.updSess = some u) (hdone : u.done = false) : s.activateFirmware = s.pldm 5 0x1A 0x88 := by
  simp only [State.activateFirmware, hsess, hdone, Bool.false_eq_true, if_false]

theorem updStatus_idle (hsess : s.updSess = none) (hheld : s.mainHeld = false) : s.updStatus = s.pldm 5 0x1B 0 [0] := by
  have hbyte : leBytes 1 0 = [0] := by decide
  simp only [State.updStatus, hsess, hheld, Bool.false_eq_true, if_false, hbyte]

theorem cancelComponent_running (hsess : s.updSess = some u) (hrun : u.running = true) :
    s.cancelComponent = ((s.updAbort 1).setUpdSess (some { table := u.table })).pldm 5 0x1C 0 := by
  simp only [State.cancelComponent, hsess, hrun, if_true]

theorem cancelUpdate_open (hsess : s.updSess = some u) (hrun : u.running = false) :
    s.cancelUpdate = (s.setUpdSess none).pldm 5 0x1D 0 := by
  simp only [State.cancelUpdate, hsess, hrun, Bool.false_eq_true, if_false]

end Update

/-- Settles O41: each PLDM command in the case of its clause. -/
theorem pldm : Obligations.Pldm := by
  refine ⟨?setTid, ?getTid, ?version, ?types, ?commands, ?unsupported, ?pdrInfo, ?pdr, ?reading, ?unavailable, ?stateReading, ?buffer,
    ?disabled, ?changed, ?identifiers, ?parameters, ?request, ?requestBusy, ?table, ?tableClosed, ?component, ?piece, ?badHeader,
    ?activate, ?activateEarly, ?status, ?cancelComponent, ?cancelUpdate⟩
  case setTid => exact fun s t hup hzero hall => whenIsland_gives (f := (·.setTid t)) hup (setTid_legal hzero hall)
  case getTid =>
    exact fun s hup => whenIsland_gives (f := fun s => s.pldm 0 2 0 (leBytes 1 (s.rd R.MGT_INFO_tid))) hup rfl
  case version => exact fun s t hup ht => whenIsland_gives (f := (·.pldmVersion t)) hup (pldmVersion_supported (by omega))
  case types => exact fun s hup => whenIsland_gives (f := State.pldmTypes) hup pldmTypes_eq
  case commands => exact fun s t l hup hl => whenIsland_gives (f := (·.pldmCmds t)) hup (pldmCmds_supported hl)
  case unsupported => exact fun s t c hup => whenIsland_gives (f := (·.pldm t c 5)) hup rfl
  case pdrInfo => exact fun s hup => whenIsland_gives (f := (·.pldm 2 0x50 0 Config.pdrInfo)) hup rfl
  case pdr => exact fun s n hup => whenIsland_gives (f := (·.pldm 2 0x51 0 (Config.pdr n))) hup rfl
  case reading =>
    intro s i hmain hup hlow hhigh hgood
    refine whenIsland_gives (f := (·.sensorRead 0x11 i (numericId i))) hup ?_
    rw [numericId_temperature hlow hhigh]
    exact sensorRead_value (sensor_temperature hmain hlow hhigh hgood)
  case unavailable =>
    intro s i hdown hup hlow hhigh
    refine whenIsland_gives (f := (·.sensorRead 0x11 i (numericId i))) hup ?_
    rw [numericId_temperature hlow hhigh]
    exact sensorRead_unavailable (sensor_down hdown hlow hhigh)
  case stateReading =>
    intro s i hmain hup hlow hhigh
    refine whenIsland_gives (f := (·.sensorRead 0x21 i (stateId i))) hup ?_
    rw [stateId_socket hlow hhigh]
    exact sensorRead_value (sensor_socket hmain hlow hhigh)
  case buffer => exact fun s n hup => whenIsland_gives (f := (·.eventBuffer n)) hup rfl
  case disabled => exact fun s hup hbuf => whenIsland_gives (f := State.sensorEvent) hup (sensorEvent_disabled hbuf)
  case changed =>
    exact fun s id v n hup hbuf hfirst => whenIsland_gives (f := State.sensorEvent) hup (sensorEvent_changed hbuf hfirst)
  case identifiers =>
    exact fun s hup hheld => whenIsland_gives (f := fun s => if s.mainHeld then s.pldm 5 1 4 else s.pldm 5 1 0 Config.deviceIds) hup
      (if_neg (by simp [hheld]))
  case parameters =>
    exact fun s q hup hheld hq hother => whenIsland_gives (f := State.fwParams) hup (fwParams_running hheld hq hother)
  case request =>
    exact fun s hup hready hupd hsess => whenIsland_gives (f := State.requestUpdate) hup (requestUpdate_ready hready hupd hsess)
  case requestBusy => exact fun s hup hupd => whenIsland_gives (f := State.requestUpdate) hup (requestUpdate_busy hupd)
  case table => exact fun s u hup hsess hrun => whenIsland_gives (f := State.passTable) hup (passTable_open hsess hrun)
  case tableClosed => exact fun s hup hsess hheld => whenIsland_gives (f := State.passTable) hup (passTable_closed hsess hheld)
  case component =>
    exact fun s u hup hsess htable hrun => whenIsland_gives (f := (·.updateComponent 0x6408)) hup
      (updateComponent_begins hsess htable hrun)
  case piece =>
    exact fun s u d f r hup hsess hrun hdone hlen hoff hchunk => whenIsland_gives (f := (·.firmwareData d f r)) hup
      (firmwareData_piece hsess hrun hdone hlen hoff hchunk)
  case badHeader =>
    exact fun s t u d f r hup hsess hrun hdone hlen hoff ht hbad => whenIsland_gives (f := (·.firmwareData d f r)) hup
      (firmwareData_badHeader hsess hrun hdone hlen hoff ht hbad)
  case activate =>
    exact fun s u hup hsess hdone => whenIsland_gives (f := State.activateFirmware) hup (activateFirmware_done hsess hdone)
  case activateEarly =>
    exact fun s u hup hsess hdone => whenIsland_gives (f := State.activateFirmware) hup (activateFirmware_early hsess hdone)
  case status => exact fun s hup hsess hheld => whenIsland_gives (f := State.updStatus) hup (updStatus_idle hsess hheld)
  case cancelComponent =>
    exact fun s u hup hsess hrun => whenIsland_gives (f := State.cancelComponent) hup (cancelComponent_running hsess hrun)
  case cancelUpdate => exact fun s u hup hsess hrun => whenIsland_gives (f := State.cancelUpdate) hup (cancelUpdate_open hsess hrun)

end Sys2Proof.Proofs
end

section
/-! PROOFS. Register accesses through the management path, log reads, host messages and the reset of the main domain
(21_management.md R521, R525, R531). -/

namespace Sys2Proof.Proofs
open Sys2Proof Sys2Proof.Machine Sys2Proof.Laws

section Path
variable {s : State} {i off size v q n : Nat}

theorem regReadMsg_bad (hbad : s.mgmtBad off size = true) : s.regReadMsg i off size = s.vendor 1 i 1 (leBytes 8 0) := if_pos hbad

theorem regReadMsg_held (hgood : s.mgmtBad off size = false) (hheld : s.mgmtHeld off = true) :
    s.regReadMsg i off size = s.vendor 1 i 2 (leBytes 8 (2 ^ (8 * size) - 1)) := by
  simp only [State.regReadMsg, hgood, hheld, Bool.false_eq_true, if_false, if_true]

theorem regReadMsg_reads (hgood : s.mgmtBad off size = false) (hheld : s.mgmtHeld off = false) :
    s.regReadMsg i off size = (s.busRead .mgmt off size).2.vendor 1 i 0 (leBytes 8 (s.busRead .mgmt off size).1) := by
  simp only [State.regReadMsg, hgood, hheld, Bool.false_eq_true, if_false]

theorem regWriteMsg_bad (hbad : s.mgmtBad off size = true) : s.regWriteMsg i off size v = s.vendor 2 i 1 := if_pos hbad

theorem regWriteMsg_writes (hgood : s.mgmtBad off size = false) (hheld : s.mgmtHeld off = false) : s.regWriteMsg i off size v =
    (s.busWrite .mgmt off size v).drainDue.vendor 2 i (if s.mgmtOwner off size then 3 else 0) := by
  simp only [State.regWriteMsg, hgood, hheld, Bool.false_eq_true, if_false, State.busPut]

theorem logRead_legal (hpos : 0 < n) (hmax : n ≤ 16) : s.logRead i q n = s.vendor 3 i 0
    ((s.isl.log.filter (fun p => q ≤ p.1 && p.1 < q + n)).flatMap (fun p => leBytes 8 p.1 ++ eventBytes p.2)) :=
  if_neg (by omega)

theorem logRead_illegal (hbad : n = 0 ∨ 16 < n) : s.logRead i q n = s.vendor 3 i 1 := if_pos hbad

end Path

/-! ### Host messages -/

section HostMessages
variable {s t : State} {req : Req} {i : Nat} {d : List Byte} {n : Fin 512}

theorem msgToHost_waits (hheld : s.mainHeld = false) (hpos : 0 < d.length) (hmax : d.length ≤ 256)
    (hvalid : s.on R.MGT_M2H_STATUS_valid = true) : s.msgToHost i d = s.vendor 4 i 4 := by
  have hlegal : ¬ (d.length = 0 ∨ 256 < d.length) := by omega
  simp only [State.msgToHost, hheld, Bool.false_eq_true, if_false, if_neg hlegal, hvalid, if_true]

theorem msgToHost_sends (hheld : s.mainHeld = false) (hlen : d.length = 8) (hfree : s.on R.MGT_M2H_STATUS_valid = false)
    (ht : t = (List.range 32).foldl (fun s j => s.wr R.MGT_M2H_BUF_data (fieldLE (d ++ List.replicate 248 0) (8 * j) 8) j) s) :
    s.msgToHost i d = (((t.wr R.MGT_M2H_STATUS_length 8).raise R.MGT_M2H_STATUS_valid).event 0x14 0 1
      (leBytes 2 8 ++ List.replicate 14 0)).vendor 4 i 0 := by
  have hlegal : ¬ (8 = 0 ∨ 256 < 8) := by decide
  simp only [State.msgToHost, hheld, Bool.false_eq_true, if_false, hlen, if_neg hlegal, hfree, Nat.reduceSub, ← ht]

theorem mainResetMsg_running (hheld : s.mainHeld = false) : s.mainResetMsg i = (s.vendor 6 i 0).requestReset 3 := by
  simp only [State.mainResetMsg, hheld, Bool.false_eq_true, if_false]

theorem blockWr_h2mCtrl (w : Nat) : s.blockWr req (blkOf 0x14) 0 R.reg_MGT_H2M_CTRL 0 0 0 w = s.h2mCtrl w := rfl

/-- The word that sends the buffer: go above the length. -/
theorem goWord_go (n : Fin 512) : bit (2 ^ 31 + n.val) 31 = true := by
  have hdiv : (2 ^ 31 + n.val) / 2 ^ 31 = 1 := by omega
  rw [bit_eq_div, hdiv]
  rfl

theorem goWord_length (n : Fin 512) : (2 ^ 31 + n.val) % 512 = n := by omega

theorem goWord_fits (n : Fin 512) : 2 ^ 31 + n.val < 2 ^ R.reg_MGT_H2M_CTRL.width := by
  have hwidth : R.reg_MGT_H2M_CTRL.width = 32 := rfl
  rw [hwidth]
  omega

/-- What the host has put into the buffer. -/
def h2mBuf (s : State) : List Byte := (List.range 32).flatMap (fun j => leBytes 8 (s.rd R.MGT_H2M_BUF_data j))

/-- The control register lies outside the buffer. -/
theorem h2mBuf_wr {f : Fld} (v : Nat) (hf : f = R.MGT_H2M_CTRL_length ∨ f = R.MGT_H2M_CTRL_busy) : h2mBuf (s.wr f v) = h2mBuf s := by
  have hkeep (j : Nat) : (s.wr f v).rd R.MGT_H2M_BUF_data j = s.rd R.MGT_H2M_BUF_data j := by
    refine rd_wr_other _ _ _ _ _ _ _ _ _ _ ?_
    rcases hf with rfl | rfl <;>
      · simp only [Fld.key, Fld.off, R.MGT_H2M_BUF_data, R.MGT_H2M_CTRL_length, R.MGT_H2M_CTRL_busy]
        omega
  simp only [h2mBuf, hkeep]

theorem h2mCtrl_busy (hbusy : s.on R.MGT_H2M_CTRL_busy = true) : s.h2mCtrl (2 ^ 31 + n) = s := by
  simp only [State.h2mCtrl, hbusy, goWord_go n, if_true]

theorem h2mCtrl_sends (hfree : s.on R.MGT_H2M_CTRL_busy = false) (hpos : 0 < n.val) (hmax : n.val ≤ 256) : s.h2mCtrl (2 ^ 31 + n) =
    ((s.wr R.MGT_H2M_CTRL_length n).raise R.MGT_H2M_CTRL_busy).toMgmt (.fromHost ((h2mBuf s).take n)) := by
  have hlegal : ¬ (n.val = 0 ∨ 256 < n.val) := by omega
  have hlength : s.wr R.MGT_H2M_CTRL_length (2 ^ 31 + n) = s.wr R.MGT_H2M_CTRL_length n := by
    have hlow : (2 ^ 31 + n.val) % 2 ^ R.MGT_H2M_CTRL_length.wd = n := goWord_length n
    rw [← wr_mod R.MGT_H2M_CTRL_length, hlow]
  have hmodel : s.h2mCtrl (2 ^ 31 + n) = ((s.wr R.MGT_H2M_CTRL_length n).raise R.MGT_H2M_CTRL_busy).toMgmt
      (.fromHost ((h2mBuf (s.wr R.MGT_H2M_CTRL_length n)).take n)) := by
    simp only [State.h2mCtrl, hfree, goWord_go n, goWord_length n, hlength, if_neg hlegal, Bool.not_true, Bool.false_eq_true, if_false]
    rfl
  rw [hmodel, h2mBuf_wr _ (.inl rfl)]

theorem h2mDone_busy (hbusy : s.on R.MGT_H2M_CTRL_busy = true) :
    s.h2mDone = (s.wr R.MGT_H2M_CTRL_busy 0).addTo R.MGT_CNT_count 1 1 := if_pos hbusy

end HostMessages

/-- Settles O42: each message of the management path and of the host in the case of its clause. -/
theorem vendorMessages : Obligations.VendorMessages := by
  refine ⟨?readBad, ?readHeld, ?read, ?writeBad, ?write, ?writeOwner, ?logRead, ?logReadBad, ?waits, ?toHost, ?reset, ?unknown, ?go,
    ?goBusy, ?accepted⟩
  case readBad =>
    exact fun s i off size hup hbad => whenIsland_gives (f := (·.regReadMsg i off size)) hup (regReadMsg_bad hbad)
  case readHeld =>
    exact fun s i off size hup hgood hheld => whenIsland_gives (f := (·.regReadMsg i off size)) hup (regReadMsg_held hgood hheld)
  case read =>
    exact fun s i off size hup hgood hheld => whenIsland_gives (f := (·.regReadMsg i off size)) hup (regReadMsg_reads hgood hheld)
  case writeBad =>
    exact fun s i off size v hup hbad => whenIsland_gives (f := (·.regWriteMsg i off size v)) hup (regWriteMsg_bad hbad)
  case write =>
    intro s i off size v hup hgood hheld hown
    refine whenIsland_gives (f := (·.regWriteMsg i off size v)) hup ?_
    rw [regWriteMsg_writes hgood hheld, hown]
    rfl
  case writeOwner =>
    intro s i off size v hup hgood hheld hown
    refine whenIsland_gives (f := (·.regWriteMsg i off size v)) hup ?_
    rw [regWriteMsg_writes hgood hheld, hown]
    rfl
  case logRead =>
    exact fun s i q n hup hpos hmax => whenIsland_gives (f := (·.logRead i q n)) hup (logRead_legal hpos hmax)
  case logReadBad => exact fun s i q n hup hbad => whenIsland_gives (f := (·.logRead i q n)) hup (logRead_illegal hbad)
  case waits =>
    exact fun s i d hup hheld hpos hmax hvalid => whenIsland_gives (f := (·.msgToHost i d)) hup
      (msgToHost_waits hheld hpos hmax hvalid)
  case toHost =>
    exact fun s i d hup hheld hlen hfree => whenIsland_gives (f := (·.msgToHost i d)) hup (msgToHost_sends hheld hlen hfree rfl)
  case reset =>
    exact fun s i hup hheld => whenIsland_gives (f := (·.mainResetMsg i)) hup (mainResetMsg_running hheld)
  case unknown => exact fun s i c hup => whenIsland_gives (f := (·.vendor c i 5)) hup rfl
  case go =>
    exact fun s req n h hfree hpos hmax => congrArg s.done (wrReg_block _ h (by decide) (goWord_fits n)
      ((blockWr_h2mCtrl _).trans (h2mCtrl_sends hfree hpos hmax)))
  case goBusy =>
    exact fun s req n h hbusy => congrArg s.done (wrReg_block _ h (by decide) (goWord_fits n)
      ((blockWr_h2mCtrl _).trans (h2mCtrl_busy hbusy)))
  case accepted => exact fun s hup hbusy => whenIsland_gives (f := State.h2mDone) hup (h2mDone_busy hbusy)

end Sys2Proof.Proofs
end

section
/-! PROOFS. NC-SI commands and pass-through frames (21_management.md R528-R530). -/

namespace Sys2Proof.Proofs
open Sys2Proof Sys2Proof.Machine Sys2Proof.Laws

/-! ### Channels -/

section Channels
variable {s t : State} {n k c : Nat}

@[simp] theorem ncsi_setNcsi_same (x : NcsiCh) : (s.setNcsi n x).ncsi n = x := by
  simp [State.ncsi, State.setNcsi, State.modIsl]

@[simp] theorem setNcsi_setNcsi (x y : NcsiCh) : (s.setNcsi n x).setNcsi n y = s.setNcsi n y := by
  simp only [State.setNcsi, State.modIsl, put_put]

theorem ncsi_counted : (s.ncsiCounted n).ncsi n = { s.ncsi n with cmds := (s.ncsi n).cmds + 1 } := by
  rw [State.ncsiCounted, State.modNcsi, ncsi_setNcsi_same]
  rfl

/-- Counting a command changes neither the hold of the main domain nor the ports. -/
theorem mainHeld_counted : (s.ncsiCounted n).mainHeld = s.mainHeld := rfl

theorem portExists_counted : (s.ncsiCounted n).portExists k = s.portExists k := rfl

end Channels

/-! ### Commands -/

section Commands
variable {s t : State} {n c : Nat} {f : State → State × List Byte}

/-- A counted command meets three refusals before it is done (R528). -/
theorem ncsiCmd_eq : s.ncsiCmd c n f = if s.mainHeld then (s.ncsiCounted n).ncsiAnswer c n 1 3
    else if !s.portExists n && c != 0x15 then (s.ncsiCounted n).ncsiAnswer c n 1 2
    else if !(s.ncsi n).ready && c != 0 && c != 0x15 then (s.ncsiCounted n).ncsiAnswer c n 1 1
    else (f (s.ncsiCounted n)).1.ncsiAnswer c n 0 0 (f (s.ncsiCounted n)).2 := by
  have hready : ((s.ncsiCounted n).ncsi n).ready = (s.ncsi n).ready := by rw [ncsi_counted]
  rw [← hready]
  rfl

/-- The command of a channel that takes it is counted and answered as completed. -/
theorem ncsiCmd_open {any : Bool} (h : s.ncsiOpen n any = some t) (hany : any = true → c = 0 ∨ c = 0x15) :
    s.ncsiCmd c n f = (f t).1.ncsiAnswer c n 0 0 (f t).2 := by
  rw [State.ncsiOpen] at h
  split at h
  case isFalse => cases h
  case isTrue hopen =>
    obtain ⟨hheld, hport, hready⟩ := hopen
    cases h
    have hinit : (!(s.ncsi n).ready && c != 0 && c != 0x15) = false := by
      rcases hready with hset | hset
      · rcases hany hset with rfl | rfl <;> simp
      · simp [hset]
    simp only [ncsiCmd_eq, hheld, hport, hinit, Bool.not_true, Bool.false_and, Bool.false_eq_true, if_false]

/-- A command that is not for every channel needs an initialized one. -/
theorem ncsiCmd_ready (h : s.ncsiOpen n false = some t) : s.ncsiCmd c n f = (f t).1.ncsiAnswer c n 0 0 (f t).2 :=
  ncsiCmd_open h (fun hany => nomatch hany)

theorem ncsiSet_ready {g : NcsiCh → NcsiCh} (h : s.ncsiOpen n false = some t) :
    s.ncsiSet c n g = (t.modNcsi n g).ncsiAnswer c n 0 0 := ncsiCmd_ready h

theorem ncsiCmd_uninitialized (hheld : s.mainHeld = false) (hport : s.portExists n = true) (hready : (s.ncsi n).ready = false)
    (hc : c ≠ 0) (hversion : c ≠ 0x15) : s.ncsiCmd c n f = (s.ncsiCounted n).ncsiAnswer c n 1 1 := by
  simp [ncsiCmd_eq, hheld, hport, hready, hc, hversion]

theorem ncsiCmd_noPort (hheld : s.mainHeld = false) (hport : s.portExists n = false) (hversion : c ≠ 0x15) :
    s.ncsiCmd c n f = (s.ncsiCounted n).ncsiAnswer c n 1 2 := by
  simp [ncsiCmd_eq, hheld, hport, hversion]

theorem ncsiCmd_held (hheld : s.mainHeld = true) : s.ncsiCmd c n f = (s.ncsiCounted n).ncsiAnswer c n 1 3 := by
  rw [ncsiCmd_eq, if_pos hheld]

theorem ncsiUnknown_running (hheld : s.mainHeld = false) (hport : s.portExists n = true) :
    s.ncsiUnknown n c = (s.ncsiCounted n).ncsiAnswer c n 3 0x7FFF := by
  have hmodel : s.ncsiUnknown n c = if s.mainHeld then (s.ncsiCounted n).ncsiAnswer c n 1 3
      else if !s.portExists n then (s.ncsiCounted n).ncsiAnswer c n 1 2
      else (s.ncsiCounted n).ncsiAnswer c n 3 0x7FFF := rfl
  simp only [hmodel, hheld, hport, Bool.not_true, Bool.false_eq_true, if_false]

/-- The statistics that an open channel answers: counting the command moves `cmds` alone. -/
theorem ncsi_open {any : Bool} (h : s.ncsiOpen n any = some t) : t.ncsi n = { s.ncsi n with cmds := (s.ncsi n).cmds + 1 } := by
  rw [State.ncsiOpen] at h
  split at h
  case isFalse => cases h
  case isTrue =>
    cases h
    exact ncsi_counted

end Commands

/-! ### Pass-through frames (R530) -/

section Frames
variable {s : State} {n : Nat} {d : List Byte}

/-- A frame that the channel takes joins those that wait for its port. -/
theorem ncsiTx_taken (hlen : d.length ≤ 1518) (hopen : s.cuffOpen = true) (hup : s.portUp n = true) (hready : (s.ncsi n).ready = true)
    (htx : (s.ncsi n).tx = true) (hroom : (s.ncsi n).txq.length < 8) :
    s.ncsiTx n d true = (s.setNcsi n { s.ncsi n with txq := (s.ncsi n).txq ++ [d] }).ncsiFlush n := by
  have htakes : ¬ (!true || decide (1518 < d.length) || !s.cuffOpen || !s.portUp n || !(s.ncsi n).ready || !(s.ncsi n).tx
      || decide (8 ≤ (s.ncsi n).txq.length)) = true := by
    simp [hopen, hup, hready, htx, hroom, hlen]
  exact if_neg htakes

theorem ncsiTx_badFcs : s.ncsiTx n d false = s.ncsiDrop n := by simp [State.ncsiTx]

/-- Frames wait while their port transmits. -/
theorem ncsiFlush_busy (hbusy : (s.outOf n).isSome = true) : s.ncsiFlush n = s := if_pos (.inr (.inr (.inr (.inl hbusy))))

/-- A frame that waits alone for an idle port goes out. -/
theorem ncsiFlush_sends {x : NcsiCh} (hn : n < 8) (hup : s.portUp n = true) (hidle : (s.outOf n).isSome = false)
    (hflow : s.stopped n 0 = false) :
    (s.setNcsi n { x with txq := [d] }).ncsiFlush n =
      ((((s.setNcsi n { x with txq := [] }).putWire n d false).mgtCnt 6).modNcsi n (fun c => { c with toWire := c.toWire + 1 })) := by
  have hgoes : ¬ (8 ≤ n ∨ [d] = [] ∨ s.portUp n = false ∨ (s.outOf n).isSome = true ∨ s.stopped n 0 = true) := by
    simp [hup, hidle, hflow, hn]
  have hmodel : (s.setNcsi n { x with txq := [d] }).ncsiFlush n = if 8 ≤ n ∨ ((s.setNcsi n { x with txq := [d] }).ncsi n).txq = []
      ∨ s.portUp n = false ∨ (s.outOf n).isSome = true ∨ s.stopped n 0 = true then s.setNcsi n { x with txq := [d] }
    else ((s.setNcsi n { x with txq := [d] }).ncsi n).txq.foldl
      (fun s d => ((s.putWire n d false).mgtCnt 6).modNcsi n (fun c => { c with toWire := c.toWire + 1 }))
      ((s.setNcsi n { x with txq := [d] }).setNcsi n { (s.setNcsi n { x with txq := [d] }).ncsi n with txq := [] }) := rfl
  rw [hmodel, ncsi_setNcsi_same, if_neg hgoes, setNcsi_setNcsi]
  rfl

end Frames

/-- Settles O43. -/
theorem ncSi : Obligations.NcSi := by
  unfold Obligations.NcSi
  refine ⟨?clear, ?version, ?enable, ?disable, ?reset, ?txOn, ?txOff, ?aen, ?link, ?mac, ?bcast, ?mcast, ?vlanFilter, ?vlanMode,
    ?caps, ?params, ?packets, ?passThrough, ?uninitialized, ?noPort, ?held, ?select, ?deselect, ?unsupported, ?waits, ?sends,
    ?drops⟩
  case clear =>
    exact fun s t n hup h => whenIsland_gives (f := (·.ncsiSet 0 n (fun c => { c with ready := true }))) hup (ncsiCmd_open h (fun _ => .inl rfl))
  case version =>
    exact fun s t n hup h => whenIsland_gives (f := (·.ncsiCmd 0x15 n (fun s => (s, Config.ncsiVersion)))) hup (ncsiCmd_open h (fun _ => .inr rfl))
  case enable =>
    exact fun s t n hup h => whenIsland_gives (f := (·.ncsiCmd 3 n (fun s => (s.ncsiEn n true, [])))) hup (ncsiCmd_ready h)
  case disable =>
    exact fun s t n hup h => whenIsland_gives (f := (·.ncsiCmd 4 n (fun s => (s.ncsiEn n false, [])))) hup (ncsiCmd_ready h)
  case reset =>
    exact fun s t n hup h => whenIsland_gives (f := (·.ncsiCmd 5 n (fun s => ((s.ncsiEn n false).modNcsi n NcsiCh.initial, [])))) hup (ncsiCmd_ready h)
  case txOn =>
    exact fun s t n hup h => whenIsland_gives (f := (·.ncsiSet 6 n (fun c => { c with tx := true }))) hup (ncsiSet_ready h)
  case txOff =>
    exact fun s t n hup h => whenIsland_gives (f := (·.ncsiSet 7 n (fun c => { c with tx := false }))) hup (ncsiSet_ready h)
  case aen =>
    intro s t n m hup h hm
    refine whenIsland_gives (f := (·.ncsiSet 8 n (fun c => { c with aen := m % 2 ^ 32 }))) hup ?_
    rw [Nat.mod_eq_of_lt hm]
    exact ncsiSet_ready h
  case link =>
    exact fun s t n hup h => whenIsland_gives (f := (·.ncsiCmd 0x0A n (fun s => (s, leBytes 4 (b2n (s.portUp n)))))) hup (ncsiCmd_ready h)
  case mac =>
    intro s t n k mac hup h hmac
    refine whenIsland_gives (f := (·.ncsiSet 0x0E n (fun c => { c with macs := Store.put 0 c.macs k (mac % 2 ^ 48) }))) hup ?_
    rw [Nat.mod_eq_of_lt hmac]
    exact ncsiSet_ready h
  case bcast =>
    exact fun s t n hup h => whenIsland_gives (f := (·.ncsiSet 0x10 n (fun c => { c with bcast := true }))) hup (ncsiSet_ready h)
  case mcast =>
    exact fun s t n hup h => whenIsland_gives (f := (·.ncsiSet 0x12 n (fun c => { c with mcast := true }))) hup (ncsiSet_ready h)
  case vlanFilter =>
    exact fun s t n k v hup h => whenIsland_gives (f := (·.ncsiSet 0x0B n (fun c => { c with vlans := Store.put 0 c.vlans k v }))) hup (ncsiSet_ready h)
  case vlanMode =>
    exact fun s t n m hup h => whenIsland_gives (f := (·.ncsiSet 0x0C n (fun c => { c with vlanMode := m }))) hup (ncsiSet_ready h)
  case caps =>
    exact fun s t n hup h => whenIsland_gives (f := (·.ncsiCmd 0x16 n (fun s => (s, Config.ncsiCaps)))) hup (ncsiCmd_ready h)
  case params =>
    exact fun s t n hup h => whenIsland_gives (f := (·.ncsiCmd 0x17 n (fun s => (s, (s.ncsi n).params)))) hup (ncsiCmd_ready h)
  case packets =>
    intro s t n hup h
    refine whenIsland_gives (f := (·.ncsiCmd 0x18 n (fun s => (s, leBytes 8 (s.ncsi n).cmds)))) hup ?_
    rw [ncsiCmd_ready h, ncsi_open h]
  case passThrough =>
    intro s t n hup h
    refine whenIsland_gives (f := (·.ncsiCmd 0x1A n (fun s => (s, leBytes 8 (s.ncsi n).toWire ++ leBytes 8 (s.ncsi n).toBmc
      ++ leBytes 8 (s.ncsi n).dropped)))) hup ?_
    rw [ncsiCmd_ready h, ncsi_open h]
  case uninitialized =>
    exact fun s n hup hheld hport hready => whenIsland_gives (f := (·.ncsiCmd 3 n (fun s => (s.ncsiEn n true, [])))) hup
      (ncsiCmd_uninitialized hheld hport hready (by decide) (by decide))
  case noPort =>
    exact fun s n hup hheld hport => whenIsland_gives (f := (·.ncsiCmd 3 n (fun s => (s.ncsiEn n true, [])))) hup
      (ncsiCmd_noPort hheld hport (by decide))
  case held =>
    exact fun s n hup hheld => whenIsland_gives (f := (·.ncsiCmd 3 n (fun s => (s.ncsiEn n true, [])))) hup (ncsiCmd_held hheld)
  case select => exact fun s hup => whenIsland_gives (f := (·.ncsiSelect true)) hup rfl
  case deselect => exact fun s hup => whenIsland_gives (f := (·.ncsiSelect false)) hup rfl
  case unsupported =>
    exact fun s n c hup hheld hport => whenIsland_gives (f := (·.ncsiUnknown n c)) hup (ncsiUnknown_running hheld hport)
  case waits =>
    intro s t n d hup hlen hopen hport hready htx hroom ht hbusy
    refine whenIsland_gives (f := (·.ncsiTx n d true)) hup ?_
    rw [ncsiTx_taken hlen hopen hport hready htx hroom, ht]
    exact ncsiFlush_busy hbusy
  case sends =>
    intro s n d hup hlen hopen hport hready htx hempty hidle hflow
    refine whenIsland_gives (f := (·.ncsiTx n d true)) hup ?_
    rw [ncsiTx_taken hlen hopen hport hready htx (by simp [hempty]), hempty, List.nil_append]
    exact ncsiFlush_sends n.isLt hport hidle hflow
  case drops => exact fun s n d hup => whenIsland_gives (f := (·.ncsiTx n d false)) hup ncsiTx_badFcs

end Sys2Proof.Proofs
end
